-- ==== Sys2Proof/Word.lean ====
section
/-! DEFINITION. The word types of the SX-LM480-A and the finite index types its counts give (00 scope, "The hierarchy"). -/

namespace Sys2Proof

abbrev Byte := BitVec 8
abbrev W16 := BitVec 16
abbrev W32 := BitVec 32
abbrev W64 := BitVec 64

/-- One of the 1,024 flash dies: 16 × channel + die position (15 R491). -/
abbrev DieNo := Fin 1024
/-- One of a die's four planes (01 R9). -/
abbrev PlaneNo := Fin 4
/-- One of the 48 cores (00). -/
abbrev CoreNo := Fin 48
/-- One of a core's eight engines (00). -/
abbrev EngNo := Fin 8
/-- One of the four quarters (00). -/
abbrev QuarterNo := Fin 4
/-- One of the four Tenon ports (11). -/
abbrev TPortNo := Fin 4
/-- A ring pair, 0 to 63 (12 R376). -/
abbrev RingNo := Fin 64
/-- A module number, 0 to 127 (09 R278). -/
abbrev ModuleNo := Fin 128

/-- The two PCIe host ports (12). -/
inductive Port where
  | a | b
deriving DecidableEq, Repr, Inhabited

/-- The other host port. -/
def Port.other : Port → Port
  | .a => .b
  | .b => .a

/-- Port numbers as 15 R491 and 13 R414 give them: 0 A, 1 B. -/
def Port.num : Port → Nat
  | .a => 0
  | .b => 1

/-- Job classes, in rank order (08 R254). -/
inductive Cls where
  | interactive | background | system
deriving DecidableEq, Repr, Inhabited

/-- The class codes of 08 R254. -/
def Cls.code : Cls → Nat
  | .interactive => 0
  | .background => 1
  | .system => 2

/-- One Escapement tick in time units: 40 ns, 4,800 units of 1/120 ns (00, 16 R507). -/
def tickUnits : Nat := 4800
/-- One microsecond in time units. -/
def usUnits : Nat := 120000
/-- One millisecond in time units. -/
def msUnits : Nat := 120000000
/-- One second in time units. -/
def secUnits : Nat := 120000000000
/-- One array cycle at 2.4 GHz in time units (16 R510). -/
def arrayUnits : Nat := 50

end Sys2Proof
end

