-- ==== Sys2Proof/Syntax.lean ====
section
/-! DEFINITION. The commands of the block: one constructor of Instr per row of spec/opcode_table.json, with the row's operands.
An operand is what arrives from outside (a frame, a register write, a packet), the unit the row acts on, or an outcome
that physics or the module's own firmware decides and the spec leaves to it. -/

namespace Sys2Proof

/-- A die block's mode (01 R9, R19). -/
inductive BMode where
  | slc | qlc
deriving DecidableEq, Repr, Inhabited

/-- The four row addresses of a multi-plane frame; the entry of a plane outside the mask is not read (01 R10, R12). -/
structure Rows where
  r0 : W32
  r1 : W32
  r2 : W32
  r3 : W32
deriving DecidableEq, Repr, Inhabited

/-- The row address given for one plane. -/
def Rows.get (r : Rows) : PlaneNo → W32
  | 0 => r.r0
  | 1 => r.r1
  | 2 => r.r2
  | 3 => r.r3

/-- What media management programs a page for: it decides what the program's outcome means to the module (02 R58, R68, R61). -/
inductive ProgPurpose where
  | none                                   -- the frame's own data: no part of the module's bookkeeping waits for it
  | veneer (seqs : List Nat)               -- veneer pages, by write sequence number, one for each plane of the mask (R58)
  | log (seqs : List Nat)                  -- log pages, likewise (R64)
  | journal (copy : Bool) (upTo : Nat)     -- one copy of a journal page holding records up to this sequence (R68)
  | stripe                                 -- units of fold or relocation targets (R60, R70)
  | parity                                 -- parity pages of veneer stripes, log blocks and sketch stripes (R52)
  | summary                                -- summary pages (R62)
  | checkpoint (page : Nat)                -- a page of the checkpoint being written (R69)
  | sketch (leaf : Nat) (second : Bool)    -- the first or second page of a leaf's pair, on four planes (R37, R77)
  | rebuild                                -- units of members rebuilt from parity (R80)
  | security (copy : QuarterNo)            -- one copy of the security block (17 R540)
deriving DecidableEq, Repr, Inhabited

/-- What an erase is for: no bookkeeping, stripes that await erase (02 R70), or single plane-blocks that do (02 R79; 17 R549). -/
inductive ErasePurpose where
  | none | stripe | block
deriving DecidableEq, Repr, Inhabited

/-- How a register write reaches BAR0: the accesses of 18 R557. -/
inductive WSize where
  | full      -- an aligned 64-bit write
  | low       -- an aligned 32-bit write to the low half
  | high      -- an aligned 32-bit write to the high half
  | other     -- a misaligned access or another width
deriving DecidableEq, Repr, Inhabited

/-- One posted write to a register of BAR0. For a 32-bit write the data is in the low 32 bits. -/
structure RegW where
  port : Port
  size : WSize
  value : W64
deriving DecidableEq, Repr, Inhabited

/-- Causes of a port reset (12 R374; event cause codes of 15 R492). -/
inductive ResetCause where
  | perst | flr | linkLoss
deriving DecidableEq, Repr, Inhabited

/-- The functions that report ready (16 R525). -/
inductive ReadyFn where
  | admin | block | compute | search | span | ask
deriving DecidableEq, Repr, Inhabited

/-- The events that wake the module (16 R515). -/
inductive WakeEvent where
  | doorbell | dataDone | tenonPacket | workDue | autoTakeover | powerSet0
deriving DecidableEq, Repr, Inhabited

/-- What the physics of one start decides: which units Try-square finds faulty (15 R600 codes with their instances of a unit),
and whether the stored pages, the retained SRAM and the newest checkpoint's pages pass their checks (16 R527, 17 R540, 15 R495, 02 R69). -/
structure StartOutcome where
  failed : List (Nat × Nat)
  configOk : Bool
  securityOk : Bool
  sramOk : Bool
  checkpointOk : Bool
deriving DecidableEq, Repr, Inhabited

/-- SMBus read transactions (18 R576). -/
inductive SmbRead where
  | byte | word | block
deriving DecidableEq, Repr, Inhabited

/-- SMBus writes: a Write Word, or a write of another kind (18 R576). -/
inductive SmbWrite where
  | word | other
deriving DecidableEq, Repr, Inhabited

/-- Region classes of the leaky buckets, in the order of 14 R467. -/
inductive RegionCls where
  | bench | cache | sram | hbm | flash | path | tenon | pcie
deriving DecidableEq, Repr, Inhabited

/-- What the scrubber finds in one word or block (14 R465). -/
inductive ScrubFind where
  | clean | correctable | uncorrectable
deriving DecidableEq, Repr, Inhabited

/-- What the parity checks of one transfer find: nothing, an error that the repeat clears, or one in the repeat too; with the quarter whose data path it is (14 R461). -/
inductive Parity where
  | good
  | once (q : QuarterNo)
  | twice (q : QuarterNo)
deriving DecidableEq, Repr, Inhabited

/-- The bytes of a push write, and what the parity checks of its way into memory find (14 R461). -/
structure Burst where
  bytes : List Byte
  parity : Parity
deriving DecidableEq, Repr, Inhabited

/-- The end of an engine's work: the engine, and whether a word it has read fails its parity (14 R461). -/
structure EngEnd where
  engine : EngNo
  parityError : Bool
deriving DecidableEq, Repr, Inhabited

/-- The end of a tier request's transfer: the request, and what its parity checks find (14 R461). -/
structure ReqEnd where
  req : Nat
  parity : Parity
deriving DecidableEq, Repr, Inhabited

/-- How T3's read of a move tile ends: the tile is here, it is uncorrectable, or the path to it has failed (07 R240). -/
inductive FetchEnd where
  | good | uncorrectable | fault
deriving DecidableEq, Repr, Inhabited

/-- What another module's answer to a read brings: bytes lent, bytes moved, the word that the range holds both, or the failure of the request (07 R228; 11 R356). -/
inductive RwAnswer where
  | lent | moved | mixed | failed
deriving DecidableEq, Repr, Inhabited

/-- How an LDPC ladder ends (02 R74): hard decode, the re-read of step 1 with the first, second or third stored offset set, a soft decode of step 2, a reconstruction of
step 3, or none of them. -/
inductive Ladder where
  | hard
  | reread (set : Fin 3)
  | soft | parity | failed
deriving DecidableEq, Repr, Inhabited

/-- A flit of a Tenon port as it arrives (11 R345); `intact` says that its CRC and the decoder pass it. -/
structure Flit where
  intact : Bool
  ftype : BitVec 2
  vl : BitVec 2
  dclass : Bool
  sop : Bool
  eop : Bool
  fseq : BitVec 12
  ackseq : BitVec 12
  crvl : BitVec 2
  crclass : Bool
  credits : BitVec 8
  fbytes : BitVec 10
  payload : List Byte
deriving DecidableEq, Repr, Inhabited

/-- The header of a Tenon packet with its body (11 R354). -/
structure Packet where
  dest : BitVec 8
  src : BitVec 8
  ptype : BitVec 8
  stream : W32
  pseq : W32
  addr : W64
  aux : W64
  body : List Byte
deriving DecidableEq, Repr, Inhabited

/-- The key of a collective instance: the group's job counter, its service counter, or a span search (11 R364). -/
inductive InstKey where
  | job (group : Nat) (n : Nat)
  | service (group : Nat) (n : Nat)
  | search (coordinator : Nat) (query : Nat)
deriving DecidableEq, Repr, Inhabited

/-- The parameters a collective header carries and the leader compares (11 R366). -/
structure ClParams where
  op : Nat
  len : Nat
  efmt : Nat
  rop : Nat
  root : Nat
  k : Nat
  dedup : Bool
deriving DecidableEq, Repr, Inhabited

/-- What the host has set in a port's configuration space beside the payload size: Max Read Request Size, the Bus Master, MSI-X Enable and MSI-X Function Mask bits, D3hot for D0,
and ASPM L1 (12 R372, R374, R377). -/
structure PciConfig where
  mrrs : BitVec 3
  busMaster : Bool
  msixEnable : Bool
  functionMask : Bool
  d3hot : Bool
  aspmL1 : Bool
deriving DecidableEq, Repr, Inhabited

/-- Why a port goes Down (11 R348); `far` is word that the link at that port of another module is down, which the routes of R353 need (log entry 147). -/
inductive DownCause where
  | lockLost | timeout | replays
  | far (m : ModuleNo)
deriving DecidableEq, Repr, Inhabited

/-- What brings a port to Aligned: the codewords this module's own port has corrected in a row (11 R348), or word that the link at that port of another module is up again
(log entry 147). -/
inductive Lock where
  | own (codewords : Nat)
  | far (m : ModuleNo)
deriving DecidableEq, Repr, Inhabited

/-- A CL_DATA packet of a member's part: its stream and place in it, the bytes the whole part has, and its own bytes (11 R354, R355; log entry 27). -/
structure ClPart where
  stream : Nat
  pseq : W32
  total : Nat
  data : List Byte
deriving DecidableEq, Repr, Inhabited

/-- What one pass of the source decoders and encoders finds for an ITEM_PUT (10 R314, R315): the outcome of decoding outside standards. -/
structure IngestPass where
  plausible : Bool       -- the plausibility check of the embedding norm passes or is off (14 R474)
deriving DecidableEq, Repr, Inhabited

/-- Physical outcomes of one SEARCH: whether the query vector's norm passes its plausibility check (14 R474), the candidates whose embedding is uncorrectable (09 R305), whether the query item's own
embedding is uncorrectable (09 R297), whether a scan path is faulted (09 R303), the tree nodes that fail their check as they are read (09 R289), and for a SEARCH_SPAN by the
handle of another module's item the embedding that module answers with, none if it has no such item (09 R310). -/
structure SearchReads where
  plausible : Bool
  unreadable : List W64
  queryUnreadable : Bool
  mediaFault : Bool
  badNodes : List Nat
  far : Option (List W32)
deriving DecidableEq, Repr, Inhabited

/-- What a merge chooses: the items of each leaf it writes, in slot order, and the new quads of the sketch area with the physical stripe of each one's plane 0 (09 R287,
R288; 02 R50, R77). -/
structure TreePlan where
  leaves : List (List Nat)
  homes : List (Nat × Nat)
deriving DecidableEq, Repr, Inhabited

/-- The commands of the block. -/
inductive Instr where
  -- power, the Escapement and the starts (16, 19)
  | powerGood (slotId : BitVec 4) (smbAddrSel : Bool) (o : StartOutcome)
  | powerLoss (landed : List (Nat × Nat))
  | readinessSet (f : ReadyFn)
  | operatingTimeSave
  | temperatureSample (readings : List W16)
  | idleTimerExpiry
  | hibernateEntry
  | wake (e : WakeEvent)
  | powerCapControl (watts : Nat)
  | thermalThrottle (sensor : Fin 32) (reading : W16)
  | thermalHardStop (sensor : Fin 32) (reading : W16) (landed : List (Nat × Nat))
  | watchdogExpired (bringUp : Bool) (o : StartOutcome)
  | moduleReset (w : RegW) (o : StartOutcome)
  | fuseBlow
  | portReset (p : Port) (c : ResetCause)
  | qsfpCageChange (cage : Bool) (fitted : Option Nat)
  -- host transport (12)
  | adminEn (w : RegW)
  | cmdTail (p : Port) (ring : RingNo) (value : W32)
  | replyHead (p : Port) (ring : RingNo) (value : W32)
  | commandFetch (p : Port)
  | replyWrite (p : Port) (ring : RingNo)
  | msixSignal (p : Port) (ring : RingNo)
  | xrdy
  | pushWrite (p : Port) (offset : Nat) (data : Burst)
  | dataDone (w : RegW)
  | dataDoneWaitEnd (grant : Nat)
  | hbKick (w : RegW)
  | hbControl (w : RegW)
  | heartbeatMissed
  | stopworkHalt (w : RegW)
  | stopworkAbort (w : RegW)
  | stopworkAbortHibernate (w : RegW)
  | stopworkRelease (w : RegW)
  | commandDeadlineExpired (id : Nat)
  -- registers (14, 16, 18)
  | errSummaryClear (w : RegW)
  | pcset (c : Cls) (w : RegW)
  | ways (q : QuarterNo) (w : RegW)
  | regPolicy (w : RegW)
  | powerCap (w : RegW)
  | planeControl (w : RegW)
  | bucketConfig (w : RegW)
  | integrityPolicy (w : RegW)
  | mediaPolicy (w : RegW)
  | registerWrite (offset : Nat) (w : RegW)
  | smbusRead (k : SmbRead) (code : Byte)
  | smbusWriteWord (k : SmbWrite) (code : Byte) (value : W16) (pec : Option Bool)
  -- Filob commands (13): the id of a fetched command, and what its media reads meet
  | identify (id : Nat)
  | getLog (id : Nat)
  | getFeature (id : Nat)
  | setFeature (id : Nat)
  | ringCreate (id : Nat)
  | ringDelete (id : Nat)
  | ringRestart (id : Nat)
  | powerSet (id : Nat)
  | takeover (id : Nat)
  | volumeCreate (id : Nat)
  | volumeDelete (id : Nat)
  | read (id : Nat) (bad : List Nat) (fault : Bool)
  | write (id : Nat)
  | deallocate (id : Nat)
  | flush (id : Nat)
  | itemPut (id : Nat) (pass : IngestPass)
  | itemDelete (id : Nat)
  | attrSet (id : Nat)
  | itemGet (id : Nat) (unreadable : Bool)
  | cacheGet (id : Nat)
  | cacheDrop (id : Nat)
  | itemsFormat (id : Nat)
  | search (id : Nat) (r : SearchReads)
  | searchSpan (id : Nat) (r : SearchReads)
  | bitmapLoad (id : Nat)
  | bitmapBuild (id : Nat)
  | bitmapFree (id : Nat)
  | sessionOpen (id : Nat)
  | ask (id : Nat) (r : SearchReads)
  | sessionClose (id : Nat)
  | modelLoad (id : Nat)
  | moduleLoad (id : Nat)
  | run (id : Nat)
  | grantMake (id : Nat)
  | grantFree (id : Nat)
  | modelUnload (id : Nat)
  | moduleUnload (id : Nat)
  | adaptStart (id : Nat)
  | adaptStatus (id : Nat)
  | adaptCommit (id : Nat)
  | spanJoin (id : Nat)
  | spanLeave (id : Nat)
  | spanStatus (id : Nat)
  | fwDownload (id : Nat)
  | fwCommit (id : Nat)
  | attest (id : Nat)
  | ownerLock (id : Nat)
  | eventsRead (id : Nat) (lost : List Nat)
  | eventsClear (id : Nat)
  | health (id : Nat)
  -- die frames and a die's own events (01)
  | readPage (d : DieNo) (mask : BitVec 4) (rows : Rows) (prefetching : Bool)
  | readNext (d : DieNo)
  | readChain (d : DieNo) (m : BMode)
  | dataOut (d : DieNo) (plane : PlaneNo) (col : Nat) (len : Nat)
  | programSlc (d : DieNo) (mask : BitVec 4) (rows : Rows) (data : List (List Byte)) (why : ProgPurpose)
  | programQlc (d : DieNo) (mask : BitVec 4) (rows : Rows) (data : List (List Byte)) (why : ProgPurpose)
  | erase (d : DieNo) (mask : BitVec 4) (rows : Rows) (m : BMode) (why : ErasePurpose)
  | suspend (d : DieNo)
  | resume (d : DieNo)
  | loadQuery (d : DieNo) (slot : Fin 8) (wide : Bool) (data : List Byte)
  | loadChain (d : DieNo) (entries : List W32)
  | scan (d : DieNo) (mask : BitVec 8) (allow : List (List Byte))
  | resultOut (d : DieNo)
  | readStatus (d : DieNo)
  | dieGetFeature (d : DieNo) (addr : Byte)
  | dieSetFeature (d : DieNo) (addr : Byte) (data : List Byte)
  | readId (d : DieNo)
  | reset (d : DieNo)
  | dieReservedOpcode (d : DieNo) (op : Byte)
  | senseComplete (d : DieNo) (flips : List (PlaneNo × Nat))
  | dieProgramComplete (d : DieNo) (verified : Bool)
  | eraseComplete (d : DieNo) (verified : Bool)
  | suspendStart (d : DieNo)
  | suspended (d : DieNo)
  | scanStepCompare (d : DieNo)
  | resetComplete (d : DieNo)
  -- media management (02)
  | veneerTarget
  | fold (lstripe : Nat) (pstripe : Nat)
  | mergeStripe (lstripe : Nat) (pstripe : Nat)
  | journalProgram
  | checkpoint
  | relocation (lstripe : Nat) (pstripe : Nat)
  | ldpcDecode (d : DieNo) (c : Cls) (owner : Nat) (sectors : List Nat) (l : Ladder)
  | suspendForRead (d : DieNo)
  | resumeAfterReads (d : DieNo)
  | patrol (d : DieNo) (pstripe : Nat) (heavy : Bool) (l : Ladder) (offsets : List (PlaneNo × BMode × Fin 8 × List Byte))
  | rebuild (pstripe : Nat) (member : Fin 16) (pos : Fin 16) (block : Nat)
  -- matrix engines (03)
  | mmRun (t : Nat)
  | mmLoad (t : Nat)
  | mmEmit (t : Nat)
  | mmCycle0 (c : CoreNo) (e : EngNo)
  | mmLastCycle (c : CoreNo) (e : EngEnd) (stale : List Nat)
  | shadowLoadComplete (c : CoreNo) (e : EngNo)
  | emissionComplete (c : CoreNo) (e : EngEnd)
  -- vector and selection units (04)
  | tileQueueRemove (c : CoreNo)
  | add (t : Nat)
  | mul (t : Nat)
  | fma (t : Nat)
  | cmp (t : Nat)
  | sel (t : Nat)
  | min (t : Nat)
  | max (t : Nat)
  | compress (t : Nat)
  | expand (t : Nat)
  | vxComplete (c : CoreNo)
  | slSelect (t : Nat)
  | slPassEnd (c : CoreNo)
  -- tier moves (07)
  | mvMove (t : Nat)
  | mvLend (t : Nat)
  | mvDrop (t : Nat)
  | mvPrefetch (t : Nat)
  | mvComplete (r : ReqEnd)
  | tierFetchComplete (r : ReqEnd) (ends : FetchEnd)
  | tierDeadline (req : Nat)
  | prefetchStreamRelease (q : QuarterNo) (stream : Nat)
  -- collectives (11)
  | clAllreduce (t : Nat)
  | clAllgather (t : Nat)
  | clBroadcast (t : Nat)
  | clReduceScatter (t : Nat)
  | clTopk (t : Nat)
  | clBarrier (t : Nat)
  | clTimeout (key : InstKey)
  -- synchronisation, control flow and scalar operations (06)
  | syFence (t : Nat)
  | syWait (t : Nat)
  | sySemAcq (t : Nat)
  | semaphoreGrant (sem : Nat)
  | sySemRel (t : Nat)
  | syBarrier (t : Nat)
  | barrierComplete (job : Nat) (gang : Option Nat) (barrier : Fin 16)
  | syUnbind (t : Nat)
  | cfBr (t : Nat)
  | cfBrc (t : Nat)
  | cfLoop (t : Nat)
  | cfCall (t : Nat)
  | cfRet (t : Nat)
  | cfEnd (t : Nat)
  | cfTrap (t : Nat)
  | scAdd (t : Nat)
  | scSub (t : Nat)
  | scMul (t : Nat)
  | scDivu (t : Nat)
  | scRemu (t : Nat)
  | scAnd (t : Nat)
  | scOr (t : Nat)
  | scXor (t : Nat)
  | scShl (t : Nat)
  | scShr (t : Nat)
  | scSar (t : Nat)
  | scMin (t : Nat)
  | scMax (t : Nat)
  | scSlt (t : Nat)
  | scMovi (t : Nat)
  | scLd (t : Nat)
  | scSt (t : Nat)
  | scAtom (t : Nat)
  -- the Regulator (08)
  | jobAdmission (job : Nat) (cores : List CoreNo)
  | preemption (job : Nat) (gang : Nat)
  | contextSwitch (c : CoreNo) (out : Nat) (inn : Nat)
  | stepCompose (hbmTime : Nat) (tokenTime : Nat) (sliceTimes : List Nat)
  | shareWindow (c : CoreNo)
  -- items and index (09)
  | commitGroup
  | indexMerge (plan : TreePlan)
  | reclaim
  | dieScanIssue (d : DieNo)
  -- services (10)
  | cacheBuild (lead : Nat) (ok : Bool)
  | askProgressUpdate (session : Nat)
  | adaptStep (lost : List Nat)
  -- Tenon link and span (11)
  | portAligned (p : TPortNo) (lock : Lock)
  | portDown (p : TPortNo) (c : DownCause)
  | flitReceive (p : TPortNo) (f : Flit)
  | hello (p : TPortNo) (moduleNo : Byte) (slot : Byte) (port : Byte) (state : Byte) (span : W64)
  | nak (p : TPortNo) (expected : BitVec 12)
  | presence (src : ModuleNo) (state : Byte) (descDigest : List Byte) (cfgDigest : List Byte) (window : Nat)
  | presenceSend
  | memberLost (m : ModuleNo)
  | spanCtl (src : ModuleNo)
  | clHeader (src : ModuleNo) (key : InstKey) (digest : List Byte) (params : ClParams)
  | clGo (key : InstKey)
  | clRefuse (key : InstKey) (odd : Option ModuleNo)
  | clData (src : ModuleNo) (key : InstKey) (part : ClPart)
  | clAbort (src : ModuleNo) (key : InstKey) (r : Nat)
  | ack (stream : Nat) (pseq : W32) (edge : Nat)
  | rwWrite (src : ModuleNo) (stream : Nat) (pseq : W32) (offset : Nat) (data : List Byte)
  | rwRead (src : ModuleNo) (stream : Nat) (pseq : W32) (offset : Nat) (len : Nat)
  | rwResp (src : ModuleNo) (stream : Nat) (req : Nat) (pseq : W32) (ans : RwAnswer) (data : List Byte)
  | service (src : ModuleNo) (query : Nat) (group : Nat) (desc : List Byte) (r : SearchReads)
  | stop (src : ModuleNo) (key : InstKey)
  | streamRetransmit (stream : Nat)
  -- integrity (14)
  | planeScrub (k : RegionCls) (region : Nat) (addr : Nat) (found : ScrubFind) (passEnd : Bool)
  | bucketLeak
  | shadowCompare (c : CoreNo) (equal : Bool)
  | arbitration (c : CoreNo) (eqPrimary : Bool) (eqShadow : Bool)
  | strikeExpiry (c : CoreNo) (e : EngNo)
  | calibration (model : W64) (bounds : List (Nat × W32 × W32))
  | tailImage
  -- the rows the table lists last
  | instanceRestart (key : InstKey)
  | pcieLinkUp (p : Port) (speed : BitVec 3) (width : BitVec 5) (mps : BitVec 3) (config : PciConfig)
  | smbusBusRelease
  | entropyHealthTestFailure (o : StartOutcome)
  | mediaStateUpdate
deriving DecidableEq, Repr, Inhabited

end Sys2Proof
end

