-- ==== Sys2Proof/Decode.lean ====
section
/-! DEFINITION. The table's words. No row of the table gives its command any bits: commands reach the block as frames, packets and events,
never as instruction words. -/

namespace Sys2Proof

/-- The command a word of the table spells: none, since no row gives bits. -/
def decodeTableWord (_nbits _w : Nat) : Option Instr := none

end Sys2Proof
end

