-- ==== Sys2Proof/Config.lean ====
section
/-! DEFINITION. What one module or implementation fixes and the manual does not give, as constants with no body: nothing in Lean can
evaluate them, so a statement holds whatever they are. The free values are here too. -/

namespace Sys2Proof

/-- The free value number n, of any width: every value the manual leaves undefined, unspecified or drawn at random (log entry 3). -/
opaque Config.freeBits : Nat → (w : Nat) → BitVec w

/-- A free natural number: which of several operands a sum of free order takes next (05 R148, 04 R124; log entry 4). -/
opaque Config.pick : Nat → Nat

/-- A signature by the device identity key over a message (17 R535; log entry 5). -/
opaque Config.deviceSign : List Byte → List Byte

/-- This module's serial number, 16 bytes (13 R414). -/
opaque Config.serial : List Byte
/-- The device identity key's KEY_ID, 8 bytes (17 R535, R556). -/
opaque Config.deviceKeyId : List Byte
/-- The device identity public key (17 R535). -/
opaque Config.deviceKey : List Byte
/-- The device identity certificate, 5,328 bytes (17 R536). -/
opaque Config.deviceCert : List Byte
/-- The product CA certificate, 5,328 bytes (17 R536). -/
opaque Config.caCert : List Byte
/-- The Stonaxis root public key in the boot ROM (17 R535). -/
opaque Config.rootKey : List Byte
/-- The Stonaxis code-signing public key certified in the running firmware image (17 R538). -/
opaque Config.codeKey : List Byte
/-- SHAKE256 of the Jig image's partition section, 32 bytes (11 R362). -/
opaque Config.jigPartition : List Byte
/-- The firmware image in slot A at manufacture: its version, build, security version, length and digest (17 R551; log entry 30). -/
opaque Config.fwVersion : W64
opaque Config.fwBuild : W64
opaque Config.fwDigest : List Byte
opaque Config.fwLen : Nat

/-- LDPC parity over a page's data area and header, 1,984 bytes; the manual gives no code (02 R55; log entry 77). -/
opaque Config.ldpcParity : List Byte → List Byte
/-- The system key and the media key of a number, 64 bytes each, drawn by the module's DRBG (02 R85, 17 R548; log entry 3). -/
opaque Config.systemKey : List Byte
opaque Config.mediaKey : Nat → List Byte
/-- The 4,096 bytes of the security block at an update; the manual gives no layout (17 R540; log entry 77). -/
opaque Config.securityBytes : Nat → List Byte
/-- The retention bin of a block, from the time since its program and its wear; the manual gives no bounds (02 R76; log entry 78). -/
opaque Config.retentionBin : Nat → Nat → Nat

/-- The MODEL_IDs of the reference models: Lathe-25, Gimlet-V and Gimlet-A (10 R313; log entry 7). -/
opaque Config.lathe : W64
opaque Config.gimletV : W64
opaque Config.gimletA : W64

/-- A picture of a stream: its presentation time in µs, the pictures it depends on, how many of its slices or tiles are damaged, and whether it is lost as a whole (10 R315,
R316). -/
structure PicInfo where
  time : Nat
  needs : List Nat
  damaged : Nat
  lost : Bool
deriving DecidableEq, Repr, Inhabited

/-- What the headers of a stream say, in the numbers of its own standard: its track ID and programme, its coding (1 T.81, 2 ISO/IEC 15444-1, 3 H.264, 4 H.265, 5 LPCM,
6 FLAC, 0 another), the profiles or processes it conforms to, level, tier, chroma format (0 grey, 1 4:2:0, 2 4:2:2, 3 4:4:4), bits, components or channels, greatest sampling
factor, size, sample rate; and whether it is arithmetic coded, holds floating-point samples, is encrypted or scrambled, has edits beyond one offset. Then its pictures, and its
audio frames as first sample, samples, and whether each is damaged (10 R314, R315). -/
structure StreamInfo where
  track : Nat
  programme : Nat
  coding : Nat
  profiles : List Nat
  level : Nat
  highTier : Bool
  chroma : Nat
  bits : Nat
  comps : Nat
  sampling : Nat
  width : Nat
  height : Nat
  rate : Nat
  arithmetic : Bool
  floats : Bool
  locked : Bool
  edited : Bool
  pictures : List PicInfo
  frames : List (Nat × Nat × Bool)
deriving DecidableEq, Repr, Inhabited

/-- What the headers of a source say: whether those needed to decode are there and in range, the duration in µs, the TimeReference of a bext chunk, the bytes of a packet of a
transport stream, and the streams in the order of the file or the PAT (10 R314, R315, R320). -/
structure Headers where
  whole : Bool
  durationUs : Nat
  timeRef : Option Nat
  packet : Nat
  streams : List StreamInfo
deriving DecidableEq, Repr, Inhabited

/-- A picture as it goes to an encoder: its PIXFMT, size and planes of samples (10 R314, R317, R318). -/
structure Picture where
  format : Nat
  width : Nat
  height : Nat
  planes : List (List Nat)
deriving DecidableEq, Repr, Inhabited

/-- The headers in a source's bytes, of the format of this code of R324; the standards lie outside the manual (10 R314; log entry 6). -/
opaque Config.headers : List Byte → Nat → Headers
/-- A picture of a track of a source, its damaged units taken from an earlier one (10 R314, R315; log entry 6). -/
opaque Config.decodePicture : List Byte → Nat → Nat → Option Nat → Picture
/-- The sample of a channel of a track of a source, in FP32 (10 R314; log entry 6). -/
opaque Config.decodeSample : List Byte → Nat → Nat → Nat → W32
/-- An encoder's tokens of a picture and its embedding; of mono sound at a rate, resampled to 16 kHz (10 R313, R321; log entry 6). -/
opaque Config.seePicture : W64 → Picture → List (List W32)
opaque Config.embedPicture : W64 → Picture → List W32
opaque Config.hearSound : W64 → Nat → List W32 → List (List W32)
opaque Config.embedSound : W64 → Nat → List W32 → List W32
/-- An answer model's input tokens: the marker of an offset in µs, the vision projector with its pooling or without, and the audio projector (10 R313, R325; log entry 7). -/
opaque Config.markerToken : W64 → Nat → List W32
opaque Config.projectVision : W64 → Bool → List (List W32) → List (List W32)
opaque Config.projectSound : W64 → List W32 → List W32
/-- How many audio tokens a cut unit keeps, and which token of its unit an item starts with (10 R325; log entry 6). -/
opaque Config.cutTokens : List Byte → Nat → Nat
/-- The accumulation chain of the fresh scan that compares entry i of n (09 R301; log entry 46). -/
opaque Config.freshChain : Nat → Nat → Nat
/-- Layers and key/value heads of an answer model other than Lathe-25 (07 R247, 10 R313; log entry 7). -/
opaque Config.modelShape : W64 → Nat × Nat
/-- The tokens a text takes in a model's vocabulary (10 R327, R328; log entry 7). -/
opaque Config.textTokens : W64 → List Byte → Nat
/-- The retrieval vector of a question (10 R328 step 1; log entry 7). -/
opaque Config.retrievalVector : W64 → List Byte → Nat → List W32
/-- What a vocabulary makes of a token: the bytes of text it stands for, whether it ends the answer, and, of a special token that cites, the loaded group it names, counted in
the order of loading, and the marker, in units of 4 s (10 R331 to R333; log entry 7). -/
structure TokenInfo where
  text : List Byte
  ends : Bool
  cites : Option (Nat × Nat)
deriving DecidableEq, Repr, Inhabited

/-- The scores a token step gives the tokens of a model's vocabulary (10 R331; log entry 7). -/
opaque Config.tokenScores : W64 → Nat → List W32
/-- The token drawn from some scores at a temperature in 1/64, by a draw of the generator (10 R331; log entry 7). -/
opaque Config.drawToken : List W32 → Nat → W64 → Nat
/-- What a token of a model's vocabulary is (10 R313, R333; log entry 7). -/
opaque Config.tokenInfo : W64 → Nat → TokenInfo
/-- A weight tensor as an image or a master-weight region gives it: the format the engines store it in, its FP32 values by output channel or, imported, its codes with their
given entries and zero points and the activation's zero point, its outlier list, and whether the weights of those channels are kept in FP16 (05 R164, R175, R176; log
entry 76). -/
structure WSource where
  fmt : Nat
  values : List (List W32)
  codes : List (List Int)
  given : List W64
  zw : List Int
  zx : Int
  listed : List Nat
  half : Bool
deriving DecidableEq, Repr, Inhabited

/-- The weight tensors that bytes of a model image or of a master-weight region hold; the manual gives neither layout (10 R313, 13 R443; log entry 76). -/
opaque Config.modelTensors : List Byte → List WSource
/-- The body of the image made of a trained job's master weights, under its MODEL_ID (10 R339; log entry 7). -/
opaque Config.trainedImage : List Byte → W64 → List Byte
/-- P and t as the image of a projection model holds them, for a width and dimension; the manual gives no layout (10 R322, R339; log entry 7). -/
opaque Config.trainedProj : List Byte → Nat → Nat → List (List Int) × List (List Byte) × List W32

/-- What a training step draws from an item: its embedding, a sampled picture, or a crop of its sound at a rate (10 R337). -/
inductive TrainView where
  | vec (e : List W32)
  | picture (p : Picture)
  | sound (rate : Nat) (mono : List W32)
deriving DecidableEq, Repr, Inhabited

/-- What one step's batch of pairs of views gives under a kind, a rank and the master weights: the update of each master weight, in FP32, and the loss; the manual states the
losses in words only (10 R337; log entry 7). -/
opaque Config.trainUpdate : Nat → Nat → List Byte → List (TrainView × TrainView) → List W32 × W32

/-- The 4-bit mantissa and the exponent code of a layer and head, of keys (true) or values, at a dimension and token, for a model and its input tokens (07 R245, 10 R325; log
entry 71). -/
opaque Config.kvMantissa : W64 → List (List W32) → Nat × Nat → Bool → Nat → Nat → BitVec 4
opaque Config.kvExponent : W64 → List (List W32) → Nat × Nat → Bool → Nat → Nat → BitVec 8
/-- The same of the tokens a session takes itself: system text, questions and answers, by the number of their run (10 R327, R328; log entry 71). -/
opaque Config.ownMantissa : W64 → Nat → Nat × Nat → Bool → Nat → Nat → BitVec 4
opaque Config.ownExponent : W64 → Nat → Nat × Nat → Bool → Nat → Nat → BitVec 8

/-- Cosine and sine of an angle given as a fraction of a turn over 2^64, in FP32; one off by more than 2^−22 is not taken (07 R252; log entry 8). -/
opaque Config.cosTurn : W64 → W32
opaque Config.sinTurn : W64 → W32
/-- The rotary frequency word F_i of a model other than Lathe-25 (07 R252, 10 R313; log entry 8). -/
opaque Config.rotary : W64 → Nat → W64
/-- Whether the jobs of the Dratotin module of this MODULE_ID are index-build traffic (05 R160; log entry 36). -/
opaque Config.indexTraffic : W64 → Bool
/-- Whether they are adaptation traffic (05 R160; log entry 36). -/
opaque Config.adaptTraffic : W64 → Bool
/-- Bits of precision beyond 53 in which an L2 norm is computed (10 R321; log entry 9). -/
opaque Config.normExtra : Nat
/-- Whether a model image's bytes are an answer model's (10 R313, 13 R443). -/
opaque Config.isAnswerModel : List Byte → Bool
/-- The MODEL_ID a model image carries (13 R443; log entry 58). -/
opaque Config.imageId : List Byte → W64
/-- The bytes of master weights a kind and rank needs: of an adapter's on the last 8 layers and the embedding head of its encoder (10 R336, 13 R450; log entry 7). -/
opaque Config.masterBytes : Nat → Nat → Nat

/-- Whether a job marks a drain slot in use, by engine context, drain and first accumulator; the manual gives no mark in a record (03 R117; log entry 66). -/
opaque Config.slotMarked : Nat → Bool → Nat → Bool

end Sys2Proof
end

