-- ==== Sys2Proof/State/Core.lean ====
section
/-! DEFINITION. State of the cores: bench memory, engine contexts, vector and selection units, Dratotin threads, jobs and
loaded modules (03, 04, 05, 06, 08). A table is a list of (key, value) pairs with strictly rising keys; a memory is a table of bytes. -/

namespace Sys2Proof.Machine

/-- A table by number. -/
abbrev Tab (α : Type) := List (Nat × α)
/-- A sparse memory: (address, byte) pairs, addresses strictly rising, no byte equal to what an unlisted address reads as. -/
abbrev Mem := List (Nat × BitVec 8)

/-- Completion statuses (12 R388). -/
inductive Status where
  | success | successFlagged | invalidOpcode | invalidField | notOwner | notReady
  | mediaUncorrectable | mediaReadOnly | capacityExhausted | mediaFault
  | checkFailed | tierLate | tierFailed | resourceExhausted
  | configMismatch | spanMemberLost | abortedStopwork | ownerChanged | deadlineExpired
  | moduleInvalid | signatureInvalid | rollbackRefused
deriving DecidableEq, Repr, Inhabited

/-- The 16-bit code of 12 R388. -/
def Status.num : Status → Nat
  | .success => 0x0000
  | .successFlagged => 0x0001
  | .invalidOpcode => 0x0101
  | .invalidField => 0x0102
  | .notOwner => 0x0103
  | .notReady => 0x0104
  | .mediaUncorrectable => 0x0201
  | .mediaReadOnly => 0x0202
  | .capacityExhausted => 0x0203
  | .mediaFault => 0x0204
  | .checkFailed => 0x0301
  | .tierLate => 0x0302
  | .tierFailed => 0x0303
  | .resourceExhausted => 0x0304
  | .configMismatch => 0x0401
  | .spanMemberLost => 0x0402
  | .abortedStopwork => 0x0501
  | .ownerChanged => 0x0502
  | .deadlineExpired => 0x0503
  | .moduleInvalid => 0x0601
  | .signatureInvalid => 0x0701
  | .rollbackRefused => 0x0702

/-- The two statuses that do not freeze a ring (12 R388, R397). -/
def Status.good : Status → Bool
  | .success => true
  | .successFlagged => true
  | _ => false

/-- Lane modes (03 R89, 06 R204). -/
inductive Lane where
  | l16x1 | l4x4 | l2x8 | l1x16 | binary
deriving DecidableEq, Repr, Inhabited

/-- A stored tile: 1,024 cell words by 32 × row + column, exponents of a blocked tile, uniform mark, rotations (03 R88, R108, R109). A word not
listed is undefined: the free value numbered from `seed` (log entry 3). -/
structure Tile where
  words : Tab W16
  exps : List Byte
  uniform : Bool
  rotRow : Nat
  rotCol : Nat
  seed : Nat
deriving DecidableEq, Repr, Inhabited

/-- One drain slot: the lane mode that left it, its accumulators by result number, and whether a sum in it has saturated (03 R103 to R105; 14 R474). -/
structure Slot where
  lane : Lane
  acc : List Int
  sat : Bool
deriving DecidableEq, Repr, Inhabited

/-- An MM operation issued by a thread: its issuer and record index, its record, the value BREG added, and the streamed bytes as they stood at its queueing (06 R203,
R204; 03 R98). -/
structure MmOp where
  op : Nat
  thread : Nat
  pc : Nat
  rcd : BitVec 256
  base : Nat
  old : List Byte
deriving DecidableEq, Repr, Inhabited

/-- An emission in progress: its drain, its slots and their results each, or the bytes of binary results, and its descriptor's offset in the window (03 R101, R106,
R107; 06 R206). -/
structure Emission where
  mm : MmOp
  row : Bool
  slotBase : Nat
  slotCount : Nat
  results : Nat
  binary : Option Nat
  desc : Nat
  due : Nat
deriving DecidableEq, Repr, Inhabited

/-- An engine context: bound by a thread's handle, resident on an engine or saved. A drain's file of 16,384 accumulators holds slots by their first accumulator, and
the column file the results of COUNT, from accumulator 0 on (DESIGN CHOICE, log entry 138); no two share an accumulator. `colLane` and `rowLane` are the lane modes each drain last worked in
(03 R101, R103, R117; 06 R184; 08 R263). -/
structure Ctx where
  core : CoreNo
  thread : Nat
  handle : Nat
  engine : Option EngNo
  since : Nat
  active : Tile
  shadow : Tile
  col : Tab Slot
  row : Tab Slot
  keep : Tab (List W32)
  counts : List Nat
  lane : Option Lane
  colLane : Option Lane
  rowLane : Option Lane
  seed : Nat
  queue : List MmOp
  running : Option (MmOp × Nat)
  loads : List (MmOp × Nat)
  emissions : List Emission
deriving DecidableEq, Repr, Inhabited

/-- An entry of a queue of finished tiles: reserved, or filled with its 16-byte content (04 R131). -/
structure TileEntry where
  op : Nat
  thread : Nat
  handle : Nat
  filled : Bool
  dest : Nat
  bytes : Nat
deriving DecidableEq, Repr, Inhabited

/-- A VX or SL operation waiting at a unit: issuer, number, record index, record, what BREG added, and what else was read at issue: the column
count or INDEX_BASE, the scalar operands; its source (8 is the direct one) and its arrival (04 R123, R133; 06 R203, R207, R208). -/
structure UnitOp where
  thread : Nat
  op : Nat
  pc : Nat
  rcd : BitVec 256
  base : Nat
  count : Nat
  scalars : List W64
  source : Nat
  order : Nat
deriving DecidableEq, Repr, Inhabited

/-- A selection waiting or in progress: the passes done, when the running one ends, the bytes of input that earlier runs of this pass have read, and where within the
pass it stops if its gang is pre-empted (04 R144, R145). -/
structure SelRun where
  uop : UnitOp
  pass : Nat
  due : Nat
  done : Nat
  cut : Option Nat
deriving DecidableEq, Repr, Inhabited

/-- One core's units beside its engines; of its share window the engine and vector cycles that Background and System have taken, its start, and the class that the core was given
to, with the time (04, 05 R158, R172; 08 R275). -/
structure Core where
  bench : Mem
  readOnly : List Nat
  queues : Tab (List TileEntry)
  rrQueue : Nat
  vxWait : List UnitOp
  vxRun : Option (UnitOp × Nat)
  vxLast : Nat
  slWait : List SelRun
  slRun : Option SelRun
  sat : Nat
  rescue : Nat
  bgUsed : Nat
  sysUsed : Nat
  bgVx : Nat
  sysVx : Nat
  shareSince : Nat
  given : Option (Cls × Nat)
deriving DecidableEq, Repr, Inhabited

/-- What last set a handle (06 R185, R197). -/
inductive Setter where
  | none | mm | unit | move | collective
deriving DecidableEq, Repr, Inhabited

/-- A tile handle: its bound context, outstanding setting operations, last setter, and the engine of its last removed entry (06 R184, R185, 04 R133). -/
structure Handle where
  ctx : Option Nat
  count : Nat
  setter : Setter
  engine : Option EngNo
deriving DecidableEq, Repr, Inhabited

/-- A range of device addresses that an operation in flight reads or writes (06 R190). -/
structure Range where
  base : Nat
  len : Nat
deriving DecidableEq, Repr, Inhabited

/-- An asynchronous operation in flight (06 R190). -/
structure Flight where
  ident : Nat
  ranges : List Range
deriving DecidableEq, Repr, Inhabited

/-- What a thread waits for, or how it ended (06 R183, R195, R199, R216). -/
inductive ThState where
  | ready
  | semWait (sem : Nat)
  | barrierWait (scopeJob : Bool) (barrier : Nat)
  | ended
  | stopped
deriving DecidableEq, Repr, Inhabited

/-- A semaphore a thread holds: its number, the amount, and the operations issued since (06 R195, R197). -/
structure Hold where
  sem : Nat
  amount : Nat
  ops : Nat
deriving DecidableEq, Repr, Inhabited

/-- A Dratotin thread (06 R180, R181). -/
structure Thread where
  job : Nat
  index : Nat
  gang : Nat
  pc : Nat
  regs : Tab W64
  handles : Tab Handle
  calls : List Nat
  held : List Hold
  flights : List Flight
  st : ThState
deriving DecidableEq, Repr, Inhabited

/-- A gang's place: its core, whether it is pre-empted with its bench allotment saved, when it last resumed, and the runs of its window, by offset and length, whose bytes were moved from
the master-weight region (05 R160; 06 R182, 08 R266, R268, R277). -/
structure Gang where
  core : CoreNo
  allotAt : Nat
  preempted : Bool
  since : Nat
  saved : Option Mem
  savedRo : List Nat
  masters : List (Nat × Nat)
deriving DecidableEq, Repr, Inhabited

/-- Why a job stops issuing: it ends with a status, or starts again whole (06 R216, 14 R485). -/
inductive Ending where
  | status (st : Status)
  | restart
deriving DecidableEq, Repr, Inhabited

/-- A job started by RUN; `order` numbers its last admission among all; `saveArea` and `saveMask` are
the bytes of HBM its gangs' save areas take while it is admitted, and their pseudo-channels (08 R264) (06 R182, R183, R217; 08 R257, R265; 14 R485, R486). -/
structure Job where
  cmd : Nat
  modh : Nat
  entry : Nat
  n : Nat
  g : Nat
  cls : Cls
  allot : Nat
  arg : W64
  summary : Nat
  deadline : Option Nat
  arrival : Nat
  admitted : Bool
  started : Nat
  gangs : Tab Gang
  fault : Option (Nat × Nat × Nat × Nat)
  faults : Nat
  restarts : Nat
  sat : Nat
  rescues : Nat
  ops : Nat
  dropped : Nat
  lostMember : Nat
  ending : Option Ending
  endTick : Nat
  failedCores : List Nat
  overridden : Bool
  order : Nat
  saveArea : Nat
  saveMask : Nat
deriving DecidableEq, Repr, Inhabited

/-- A waiting acquire: thread, count, the register its broken mark goes to, and the array cycle it arrived in (06 R195, R198). -/
structure SemWaiter where
  thread : Nat
  count : Nat
  brokenReg : Nat
  arrival : Nat
deriving DecidableEq, Repr, Inhabited

/-- A module semaphore (06 R194, R195, R198). -/
structure Sem where
  modh : Nat
  count : Nat
  maximum : Nat
  ceiling : Cls
  broken : Bool
  waiters : List SemWaiter
deriving DecidableEq, Repr, Inhabited

/-- A scale site: format, kind, recipe scale, ring of 16 maxima, step index, the largest maximum reported so far by each job for the step of its own, and where the tensor's entries
lie: in the window of a gang by its key + 1, or under key 0 at a device address (05 R165). -/
structure ScaleSite where
  modh : Nat
  fmt : Nat
  kind : Nat
  scale : W32
  ring : List W32
  step : Nat
  maxima : Tab W32
  entries : List (Nat × Nat)
deriving DecidableEq, Repr, Inhabited

/-- A symbol of a loaded module (06 R220). -/
structure Symbol where
  kind : Nat
  value : Nat
deriving DecidableEq, Repr, Inhabited

/-- A loaded Dratotin module (06 R218 to R222). -/
structure DModule where
  ident : W64
  version : W32
  code : List (BitVec 256)
  symbols : List Symbol
  semBase : Nat
  semCount : Nat
  siteBase : Nat
  siteCount : Nat
  dataBase : Nat
  maxThreads : Nat
  maxGang : Nat
  benchBytes : Nat
  privileged : Bool
  stonaxis : Bool
deriving DecidableEq, Repr, Inhabited

/-- All of the compute state. -/
structure Compute where
  cores : Tab Core
  ctxs : Tab Ctx
  nextCtx : Nat
  threads : Tab Thread
  nextThread : Nat
  jobs : Tab Job
  nextJob : Nat
  sems : Tab Sem
  sites : Tab ScaleSite
  mods : Tab DModule
  nextMod : Nat
  nextIdent : Nat
  arrivals : Nat
deriving DecidableEq, Repr, Inhabited

/-- A waiting prompt chunk: its prefill, number, next layer, layers, class, and the layers its predecessor had taken before this step (08 R261). -/
structure Chunk where
  prefill : Nat
  num : Nat
  nextLayer : Nat
  layers : Nat
  cls : Cls
  prevDone : Nat
deriving DecidableEq, Repr, Inhabited

/-- The Regulator's step state: the step's number and mode, its batch of sessions and the Background passes after it, the chunks that wait, the prefills cut into them, the slices
admitted to the step as prefill, chunk and layer; in kernel mode the session whose model pass is under way with the layers it has taken, whether a chunk layer is
next, and the Background pass under way with its layers; and the Background passes that have run and whose result is still to be taken (08 R259 to R262). -/
structure Steps where
  index : Nat
  svcKernel : Bool
  batch : List Nat
  chunks : List Chunk
  known : List Nat
  admitted : List (Nat × Nat × Nat)
  pass : Option (Nat × Nat)
  turn : Bool
  passes : List Nat
  back : Option (Nat × Nat)
  ran : List Nat
deriving DecidableEq, Repr, Inhabited

end Sys2Proof.Machine
end

