-- ==== Sys2Proof/State/Tier.lean ====
section
/-! DEFINITION. State of the memory tiers: grants, device memory, residency, tier requests and prefetch streams (07). -/

namespace Sys2Proof.Machine

/-- A memory grant of a Dratotin module, or of the module itself for bitmaps (07 R225, 13 R447). `mask` holds its class's pseudo-channels as they were when it was
placed (08 R272), `home` where in region 0x01 the flash copy of an immutable region 0x00 grant lies (07 R225). -/
structure Grant where
  modh : Nat
  region : Nat
  base : Nat
  len : Nat
  immutable : Bool
  exported : Option Nat
  interleave : Nat
  place : Nat
  cls : Cls
  isData : Bool
  ways : List Nat
  mask : Nat
  home : Option Nat
deriving DecidableEq, Repr, Inhabited

/-- A move tile resident in T2 above its home, by address over 64 KiB of the device address; `homing` while an eviction moves it home, `mask` the pseudo-channels it was
placed on (07 R229, R236; 08 R272). -/
structure TierTile where
  lent : Bool
  lastUse : Nat
  fetchedAhead : Bool
  homing : Bool
  mask : Nat
deriving DecidableEq, Repr, Inhabited

/-- A chip-cache line, by HBM address over 128; `ahead` while only a prefetch has used it (07 R234, R236). -/
structure CLine where
  quarter : QuarterNo
  way : Nat
  dirty : Bool
  lastUse : Nat
  stuck : Bool
  ahead : Bool
deriving DecidableEq, Repr, Inhabited

/-- The kinds of tier request: the four MV operations, a scalar access's page-in, a service's read for a command, and the tiles that another module's move through the exported window
touches (07 R229, R238, R242). -/
inductive ReqKind where
  | move | lend | drop | fetching | pageIn | service | remote
deriving DecidableEq, Repr, Inhabited

/-- A tier request, or a prefetch, in flight (07 R238): its operation and record, and the record's index; source, destination and their lengths; the side arrays' addresses and lengths;
the tiles it waits for; and its streams to other modules: those that bring its data and its side data, and those that take its result. A service's request names its
command in `job`, and another module's its receiving stream. `want` are the tiles it was made for beside its ranges, and `since` is when it was made. -/
structure TierReq where
  kind : ReqKind
  thread : Nat
  job : Nat
  op : Nat
  handle : Option Nat
  rcd : BitVec 256
  src : W64
  dst : W64
  len : Nat
  dlen : Nat
  ssrc : W64
  sdst : W64
  slen : Nat
  sdlen : Nat
  pos : W64
  deadline : Option Nat
  cls : Cls
  tiles : List Nat
  order : Nat
  ident : Nat
  remote : Option Nat
  sideRemote : Option Nat
  outs : List Nat
  sent : Bool
  pc : Nat
  want : List Nat
  since : Nat
deriving DecidableEq, Repr, Inhabited

/-- A shared fetch of an absent move tile: the requests that wait for it (07 R239). -/
structure Fetch where
  tile : Nat
  reqs : List Nat
  ahead : Bool
deriving DecidableEq, Repr, Inhabited

/-- A stream prefetcher (07 R241). -/
structure Stream where
  thread : Nat
  tile : Nat
  up : Bool
  lastUse : Nat
deriving DecidableEq, Repr, Inhabited

/-- The memory tiers' state (07). `hbmBad` holds the blocks of 64 bytes that fail every read, by device address, `flashBad` the ranges of region 0x01 that T3 cannot read
(07 R240); `lastTile` each thread's streamed accesses, newest first (07 R241). -/
structure Tiers where
  hbm : Mem
  flash : Mem
  pinned : Mem
  priv : Mem
  hbmBad : List Nat
  flashBad : List (Nat × Nat)
  grants : Tab Grant
  nextGrant : Nat
  windowSize : Nat
  t2 : Tab TierTile
  lines : Tab CLine
  reqs : Tab TierReq
  nextReq : Nat
  fetches : List Fetch
  streams : Tab (Tab Stream)
  lastTile : Tab (List Nat)
  image : Option (Mem × Mem)
deriving DecidableEq, Repr, Inhabited

end Sys2Proof.Machine
end

