-- ==== Sys2Proof/State/Items.lean ====
section
/-! DEFINITION. State of items, the index, bitmaps, models, sessions, caches and adaptation (09, 10). -/

namespace Sys2Proof.Machine

/-- Where an item's content lies: volume, first sector, length, and the tracks taken (10 R319, 13 R427). -/
structure Extent where
  volume : Nat
  first : Nat
  len : Nat
  tracks : Nat
deriving DecidableEq, Repr, Inhabited

/-- An item of the archive (09 R280). `lead` is its group's lead item, as index + generation × 2^34 (10 R326). `staged` holds the embedding and sketch of the other index: the
new one while a re-indexing runs, the old one after its switch until no query needs it (10 R340, R341). -/
structure Item where
  gen : Nat
  emb : List W32
  sketch : BitVec 512
  attrs : List W64
  start : W64
  stop : W64
  extent : Option Extent
  zeroNorm : Bool
  ins : Nat
  del : Option Nat
  lead : Nat
  firstToken : Nat
  staged : Option (List W32 × BitVec 512)
deriving DecidableEq, Repr, Inhabited

/-- A fresh-list entry: item index, insert epoch, when it was added, the epoch of the committed root that holds it, and its place: entry `slot` mod 2,097,152 of segment
`slot` div 2,097,152 (09 R290, R291). -/
structure FreshE where
  index : Nat
  ins : Nat
  added : Nat
  merged : Option Nat
  slot : Nat
deriving DecidableEq, Repr, Inhabited

/-- A gone index: when it entered, and the epoch of the merge that wrote its leaves again (09 R283, R284). -/
structure Gone where
  index : Nat
  entered : Nat
  rewritten : Option Nat
deriving DecidableEq, Repr, Inhabited

/-- A BI8 centroid: mantissas and one exponent code per 32 dimensions (09 R286, 05 R150). -/
structure Centroid where
  mant : List Int
  exps : List Byte
deriving DecidableEq, Repr, Inhabited

/-- A child pointer with its centroid (09 R286). -/
structure Child where
  node : Nat
  gen : Nat
  leaf : Bool
  cent : Centroid
deriving DecidableEq, Repr, Inhabited

/-- Where a leaf's sketch pages lie in the sketch area: the four owner stripes 4·quad to 4·quad + 3, one for each plane, the data member, and the pair of pages; and
whether the first and the second page of the pair have been sent to the dies and have returned OK there (02 R77). -/
structure LeafPlace where
  quad : Nat
  member : Nat
  pair : Nat
  sent : List Bool
  okd : List Bool
deriving DecidableEq, Repr, Inhabited

/-- A tree node: an upper node's level, the leaves' being 0, and its children; a leaf's place, none until its first page is sent, and its member table of index and
generation (09 R286, R287; 02 R77). -/
inductive Node where
  | upper (level : Nat) (children : List Child)
  | leaf (place : Option LeafPlace) (members : List (Option (Nat × Nat)))
deriving DecidableEq, Repr, Inhabited

/-- A root, the epoch it committed at, and how many re-indexings came before it (09 R288, 10 R341). -/
structure Root where
  node : Nat
  epoch : Nat
  turn : Nat
deriving DecidableEq, Repr, Inhabited

/-- A bitmap image, with its number: images of one ID follow each other (09 R292, R293). -/
structure Bitmap where
  len : Nat
  tail : Bool
  bits : Mem
  no : Nat
deriving DecidableEq, Repr, Inhabited

/-- What an ITEM_PUT makes of its source (10 R320, R324, R325): the record's fields, the segments in µs from the time base, and the tokens of its cache. -/
structure PutPlan where
  format : Nat
  iflags : Nat
  duration : Nat
  concealed : Nat
  base : Int
  segs : List (Nat × Nat)
  tokens : Nat
  firsts : List Nat
deriving DecidableEq, Repr, Inhabited

/-- Kinds of mutation that wait for their commit group; an insertion's items under the indices they hold, and its plan (09 R279, R281). -/
inductive Mutation where
  | put (new : List (Nat × Item)) (plan : PutPlan)
  | del (index : Nat)
  | attr (index : Nat) (slot : Nat) (mask value : W64)
deriving DecidableEq, Repr, Inhabited

/-- A mutation waiting for its parts to be acknowledged and its group to commit, with its command (09 R281). -/
structure MutWait where
  cmd : Nat
  what : Mutation
deriving DecidableEq, Repr, Inhabited

/-- A predicate term (09 R294). -/
structure Term where
  slot : Nat
  op : Nat
  mask : W64
  value : W64
deriving DecidableEq, Repr, Inhabited

/-- A filter's terms and time test (09 R294, R295). -/
structure Filter where
  terms : List Term
  mode : Nat
  t0 : W64
  t1 : W64
deriving DecidableEq, Repr, Inhabited

/-- What a query asks, as its descriptor gives it; `vec` is the query vector (09 R297). -/
structure Query1 where
  k : Nat
  rerank : Nat
  leaves : Nat
  beam : Nat
  exact : Nat
  filter : Filter
  bitmap : Option Nat
  exclude : Option Nat
  times : Bool
  vec : List W32
deriving DecidableEq, Repr, Inhabited

/-- What a query fixes at its admission: epoch, exact path, sketch, allowed indices, chosen leaves, stale pointers met (09 R282, R299, R300). -/
structure Admitted where
  epoch : Nat
  exact : Bool
  sketch : BitVec 512
  allowed : List Nat
  leaves : List Nat
  stale : List Nat
deriving DecidableEq, Repr, Inhabited

/-- Who runs a query: a command of this module, or a coordinator whose descriptor this member has taken, with its query's number (09 R299, R310). -/
inductive Asker where
  | cmd (id : Nat)
  | part (src query : Nat)
deriving DecidableEq, Repr, Inhabited

/-- What a die's result block gives one request: its leaf, the valid entries of its slot as (AGREE, CHAIN, SLOT), whether pages were skipped, and the sketches compared
(01 R45, R46; 09 R302, R303). -/
structure LeafList where
  leaf : Nat
  entries : List (Nat × Nat × Nat)
  skipped : Bool
  compared : Nat
deriving DecidableEq, Repr, Inhabited

/-- A query admitted and not ended: the tick it was admitted in, its epoch, the bitmap it names, its deadline and the advisory flags of its check; once its vector is known
what it asks and what its admission fixed; and the lists of the leaf scans done (09 R282, R283, R293, R302). -/
structure Query where
  who : Asker
  tick : Nat
  epoch : Nat
  image : Option (Nat × Bitmap)
  deadline : Option Nat
  flags : Nat
  ask : Option (Query1 × Admitted)
  lists : List LeafList
deriving DecidableEq, Repr, Inhabited

/-- A leaf-scan request queued at its leaf's die: its query, class, deadline, arrival, leaf, masks and sketch (09 R302). -/
structure ScanReq where
  who : Asker
  cls : Cls
  deadline : Option Nat
  arrival : Nat
  leaf : Nat
  masks : List (List Byte)
  query : BitVec 512
deriving DecidableEq, Repr, Inhabited

/-- A merge whose leaves are being written: its new leaves, the leaves kept, the fresh entries and the gone indices it settles (09 R288, R291). -/
structure MergeRun where
  leaves : List Child
  kept : List Child
  written : List Nat
  gone : List Nat
deriving DecidableEq, Repr, Inhabited

/-- The item areas and the index (09). `holes` holds the indices below the high-water mark that no item has used, `images` the number of the next bitmap image, `running`
by die the requests of the scan it runs, by query slot, one whose query has ended left out. `side` is the side of the vector area that the embeddings in service lie in, the
other one being for staging; `old` says that it still holds those of the last index; `aside` are the leaves of the tree a REINDEX builds (10 R340, R341). -/
structure Items where
  dims : Nat
  width : Nat
  epoch : Nat
  items : Tab Item
  genFloor : Nat
  genMax : Nat
  highWater : Nat
  reclaimed : List (Nat × Nat)
  holes : List Nat
  fresh : List FreshE
  tombs : List (Nat × Nat)
  gone : List Gone
  nodes : Tab (Nat × Node)
  nodeGens : Tab Nat
  nextNode : Nat
  roots : List Root
  stale : List Nat
  bitmaps : Tab Bitmap
  images : Nat
  muts : List MutWait
  queries : List Query
  scans : List ScanReq
  running : Tab (List (Option ScanReq))
  merge : Option MergeRun
  side : Nat
  old : Bool
  aside : List Child
  arrivals : Nat
  proj : List (List Int)
  projExp : List (List Byte)
  thresh : List W32
  label : W64
  encV : W64
  encA : W64
  projModel : W64
deriving DecidableEq, Repr, Inhabited

/-- A weight tensor as the engines store it: its format, codes by output channel, the exponents or the scale entries, the column sums and correction values, its outlier list
and the weights of those channels, held apart with their entries (05 R162, R164, R175, R176). -/
structure WTensor where
  fmt : Nat
  codes : List (List Int)
  exps : List (List Byte)
  entries : List W64
  sums : List Int
  corr : List Int
  listed : List Nat
  apart : List (List Nat)
  apartEntries : List W64
deriving DecidableEq, Repr, Inhabited

/-- A stored model image: its bytes, where in region 0x01 its flash copy lies, whether it is loaded and calibrated, whether it is an answer model's, and, loaded, its weights
(05 R164; 07 R225; 10 R313; 14 R475). -/
structure Model where
  image : Mem
  len : Nat
  home : Nat
  loaded : Bool
  calibrated : Bool
  answer : Bool
  weights : List WTensor
deriving DecidableEq, Repr, Inhabited

/-- A retrieval block (13 R438). -/
structure Retrieval where
  k : Nat
  beam : Nat
  leaves : Nat
  rerank : Nat
  window : Bool
  useBitmap : Bool
  margin : Nat
  bitmap : Nat
deriving DecidableEq, Repr, Inhabited

/-- One retrieved result of an ASK: handle, outcome, first loaded position (10 R330, 13 R441). -/
structure AskEntry where
  handle : W64
  outcome : Nat
  pos : Nat
deriving DecidableEq, Repr, Inhabited

/-- A citation: where in the text it attaches, the rank of its group's result, none if it was loaded earlier, the item cited, and the part of it (10 R333). -/
structure Cite where
  pos : Nat
  rank : Option Nat
  handle : W64
  fromUs : Nat
  toUs : Nat
deriving DecidableEq, Repr, Inhabited

/-- An ASK that runs: its command, epoch, the handles found in rank order, the lead items of the groups whose caches it has had built, whether they have been placed, the tier
request that failed for it, its results, the tokens and the token steps of the answer so far, its text, the bytes of a character not yet whole, its citations and how many were
dropped (10 R328 to R333). -/
structure AskRun where
  cmd : Nat
  epoch : Nat
  found : List Nat
  built : List Nat
  placed : Bool
  lost : Option Bool
  entries : List AskEntry
  tokens : Nat
  avail : Nat
  text : List Byte
  partly : List Byte
  cites : List Cite
  dropped : Nat
  pseq : Nat
deriving DecidableEq, Repr, Inhabited

/-- A group loaded into a session: its lead item, the position of its first loaded token, its cache, the tokens loaded, from one to before another, and where in region 0x01
the session's own key/value tiles of them begin (10 R327 to R329). -/
structure LoadedRun where
  lead : Nat
  pos : Nat
  key : Nat
  lo : Nat
  hi : Nat
  base : Nat
deriving DecidableEq, Repr, Inhabited

/-- Tokens a session takes itself, system text, or a question and its answer: their first position, how many there is room for, how many there are, where in region 0x01 their
tiles begin, and the number of what they hold (10 R327, R328). -/
structure OwnRun where
  pos : Nat
  room : Nat
  tokens : Nat
  base : Nat
  no : Nat
deriving DecidableEq, Repr, Inhabited

/-- A session (10 R327). -/
structure Session where
  model : W64
  ctxMax : Nat
  defaults : Retrieval
  used : Nat
  loaded : List LoadedRun
  own : List OwnRun
  run : Option AskRun
  closing : Option Nat
  lastStep : Nat
deriving DecidableEq, Repr, Inhabited

/-- A context cache: its lead item, handle, answer model, tokens, whether it was built on demand, the source and tracks it was built from, where it lies, its last use, and
whether it is kept only for the sessions that have it open (07 R245 to R247, R250; 10 R325). -/
structure Cache where
  lead : Nat
  handle : W64
  model : W64
  tokens : Nat
  onDemand : Bool
  source : Mem
  len : Nat
  tracks : Nat
  dataBase : Nat
  expBase : Nat
  lastUse : Nat
  dropped : Bool
deriving DecidableEq, Repr, Inhabited

/-- A cache build in progress: its number, lead item, the model of the ASK that wants it (else the loaded answer model), tokens, whether on demand, the ITEM_PUT that waits,
and when it began (10 R326, R329). -/
structure Build where
  key : Nat
  lead : Nat
  model : Option W64
  tokens : Nat
  onDemand : Bool
  waiter : Option Nat
  since : Nat
deriving DecidableEq, Repr, Inhabited

/-- An adaptation job: its kind, state, the status a failed one ended with, its training items by index, steps or items done and their total, the losses of the last 100
steps, the items whose source is absent, the set it works under, its master copy with the quantised weights made from it, and its staging stripes (10 R336 to R341;
05 R178). -/
structure Adapt where
  kind : Nat
  state : Nat
  status : Nat
  rank : Nat
  items : List Nat
  done : Nat
  total : Nat
  losses : List W32
  absentItems : List Nat
  startEpoch : Nat
  encV : W64
  encA : W64
  projModel : W64
  label : W64
  master : Nat
  masterLen : Nat
  working : List WTensor
deriving DecidableEq, Repr, Inhabited

/-- Whose source a decode complex has: an ITEM_PUT's, by its command, or a cache build's, by its number (10 R316). -/
inductive Decoding where
  | put (id : Nat)
  | build (key : Nat)
deriving DecidableEq, Repr, Inhabited

/-- Services' state (10): models, sessions, context caches and their builds by number, the streams in the decode complexes as (complex, whose, bytes of source), the
adaptation job, the policy (10 R316; 07 R249). -/
structure Services where
  models : Tab Model
  sessions : Tab Session
  nextSession : Nat
  caches : Tab Cache
  builds : List Build
  nextCache : Nat
  decoders : List (Nat × Decoding × Nat)
  adapt : Option Adapt
  cachePolicy : BitVec 256
  nextModel : Nat
deriving DecidableEq, Repr, Inhabited

end Sys2Proof.Machine
end

