-- ==== Sys2Proof/State/Span.lean ====
section
/-! DEFINITION. State of the Tenon link, the span and the collectives (11), and of the QSFP cages (19 R586). -/

namespace Sys2Proof.Machine

/-- Tenon port states (11 R348). -/
inductive TPState where
  | down | training | aligned | up
deriving DecidableEq, Repr, Inhabited

/-- The record code of 13 R454. -/
def TPState.num : TPState → Nat
  | .down => 0
  | .training => 1
  | .aligned => 2
  | .up => 3

/-- What a HELLO names (11 R347). -/
structure HelloInfo where
  moduleNo : Byte
  slot : Byte
  port : Byte
  state : Byte
  span : W64
deriving DecidableEq, Repr, Inhabited

/-- A flit that waits for a link: whether the stream that queued it has drawn its credit (11 R350), and the buffer that it still fills, as the port it came by and 2 × lane + class. -/
structure OutFlit where
  flit : Flit
  paid : Bool
  held : Option (Nat × Nat)
deriving DecidableEq, Repr, Inhabited

/-- A Tenon port (11 R345 to R350): `rx` holds packets not yet whole by 2 × lane + class, `out` the flits that wait for the link by 8 × lane + input
(0 to 3 the ports, 4 the module itself), `ctl` the link-control payloads that wait, `mid` the input whose packet a lane has begun, `rr` the input a lane served last;
`wire` is what the port has put on the link since it was last Down, newest last, `ackSent` the acknowledgement it sent last, `tries` how often each FSEQ kept has been replayed. -/
structure TPort where
  st : TPState
  helloSent : Bool
  hello : Option HelloInfo
  nextSend : BitVec 12
  nextExp : BitVec 12
  lastAck : BitVec 12
  nakSent : Bool
  replay : List Flit
  tries : Tab Nat
  wire : List Flit
  ackSent : BitVec 12
  ctl : List (List Byte)
  replayed : Nat
  corrected : Nat
  discarded : Nat
  credits : Tab Nat
  toReturn : Tab Nat
  rx : Tab (List Flit)
  out : Tab (List OutFlit)
  mid : Tab Nat
  rr : Tab Nat
  wrr : Nat
  lastArrival : Nat
deriving DecidableEq, Repr, Inhabited

/-- An end-to-end stream (11 R355): a sending one's packet type, address, packets not yet acknowledged and (offset, bytes) still to send; of a receiving one
the packets ahead of their turn are in `unacked`; a read's data comes into `waiting`. `drawn` credits of `pool`, a port and its 2 × lane + class, are drawn and not used (R350). `vacate` is the window offset of the mutable bytes a read's answer has taken (07 R226). -/
structure TStream where
  peer : Nat
  sending : Bool
  ptype : Nat
  addr : Nat
  len : Nat
  nextSeq : Nat
  acked : Nat
  edge : Nat
  unacked : List Packet
  lastSent : Nat
  req : Option Nat
  waiting : List (Nat × List Byte)
  vacate : Option Nat
  drawn : Nat
  pool : Option (Nat × Nat)
deriving DecidableEq, Repr, Inhabited

/-- Membership states (11 R359). -/
inductive Membership where
  | alone | joined | leaving
deriving DecidableEq, Repr, Inhabited

/-- The code of 13 R454. -/
def Membership.num : Membership → Nat
  | .alone => 0
  | .joined => 1
  | .leaving => 2

/-- How a member is seen (11 R360, 13 R454). -/
inductive View where
  | notMember | joined | absent | lost
deriving DecidableEq, Repr, Inhabited

/-- The code of 13 R454. -/
def View.num : View → Nat
  | .notMember => 0
  | .joined => 1
  | .absent => 2
  | .lost => 3

/-- A member as this module sees it (11 R360). -/
structure Member where
  view : View
  heard : Nat
  window : Nat
  digest : List Byte
deriving DecidableEq, Repr, Inhabited

/-- A span descriptor (11 R358). -/
structure SpanDesc where
  spanId : W64
  topology : Nat
  shelves : Nat
  slots : Nat
  shelf : Nat
  defTimeout : Nat
  members : BitVec 128
  groups : List (BitVec 128)
  raw : List Byte
deriving DecidableEq, Repr, Inhabited

/-- A collective instance at this member (11 R364 to R369): `parts` are the parts that still arrive, by member and stream, `datas` the whole ones, `shelf` what the members of this
module's shelf give together, with the saturations of its steps. -/
structure Inst where
  key : InstKey
  group : Nat
  params : ClParams
  thread : Option Nat
  cmd : Option Nat
  handle : Option Nat
  ident : Nat
  dst : W64
  own : List Byte
  headers : List (Nat × List Byte × ClParams)
  go : Bool
  parts : List (Nat × Nat × List Byte)
  datas : List (Nat × List Byte)
  shelf : Option (List Byte)
  sats : Nat
  restarts : Nat
  restartAt : Option Nat
  timeout : Nat
  started : Nat
  pc : Nat
deriving DecidableEq, Repr, Inhabited

/-- What the module sends on the link, newest last (11 R354, R360, R366). -/
structure Sent where
  dest : Nat
  ptype : Nat
  body : List Byte
deriving DecidableEq, Repr, Inhabited

/-- A QSFP cage (19 R586). -/
structure Cage where
  fitted : Option Nat
  powered : Bool
deriving DecidableEq, Repr, Inhabited

/-- The span state (11); `linksDown` are the links of other modules that are down, by module and port (R353). -/
structure Span where
  ports : Tab TPort
  streams : Tab TStream
  nextStream : Nat
  member : Membership
  desc : Option SpanDesc
  members : Tab Member
  jobCount : Tab Nat
  svcCount : Tab Nat
  queryCount : Nat
  insts : List Inst
  sent : List Sent
  linksDown : List (Nat × Nat)
  badPackets : Nat
  cage2 : Cage
  cage3 : Cage
  presenceAt : Nat
deriving DecidableEq, Repr, Inhabited

end Sys2Proof.Machine
end

