-- ==== Sys2Proof/State/Host.lean ====
section
/-! DEFINITION. State of the host ports and the Filob transport (12, 13, 18). -/

namespace Sys2Proof.Machine

/-- A reply before it is written: tag, status, whether it is an XRDY, flags, result bytes, and NO_IRQ of its command (12 R387). -/
structure Reply where
  tag : W32
  status : Status
  xrdy : Bool
  rflags : W16
  result : List Byte
  noIrq : Bool
  slot : Nat
  opcode : W16
deriving DecidableEq, Repr, Inhabited

/-- A ring pair (12 R381 to R385). -/
structure Ring where
  cmdBase : Nat
  replyBase : Nat
  cmdSize : Nat
  replySize : Nat
  head : Nat
  tail : Nat
  replyHead : Nat
  replyNext : Nat
  phase : Bool
  vector : Nat
  coalCount : Nat
  coalTime : Nat
  defDeadline : Option Nat
  unsig : Nat
  oldest : Nat
  frozen : Bool
  held : List Reply
deriving DecidableEq, Repr, Inhabited

/-- An error log entry (12 R398). -/
structure ErrEntry where
  errSeq : Nat
  tag : W32
  status : Nat
  opcode : W16
  slot : Nat
  frozen : Bool
  later : Nat
  opTime : Nat
  eventSeq : Nat
  detail : List Byte
deriving DecidableEq, Repr, Inhabited

/-- A push grant (12 R391 to R394): the runs of bytes written, and when its DATA_DONE came. -/
structure PGrant where
  ident : Nat
  ring : Nat
  cmd : Nat
  offset : Nat
  len : Nat
  dataOffset : Nat
  written : List (Nat × Nat)
  doneAt : Option Nat
deriving DecidableEq, Repr, Inhabited

/-- An MSI-X table entry (18 R574). -/
structure MsixE where
  addr : W64
  data : W32
  masked : Bool
deriving DecidableEq, Repr, Inhabited

/-- A host port (12, 18); `config` is what the host has set in its configuration space (12 R372). -/
structure PortState where
  linkUp : Bool
  speed : BitVec 3
  width : BitVec 5
  mps : BitVec 3
  config : PciConfig
  aerCorr : Nat
  perst : Bool
  adminCmdBase : W64
  adminReplyBase : W64
  adminSize : W64
  rings : Tab Ring
  nextRing : Nat
  grants : List PGrant
  ended : List PGrant
  lastGrant : Nat
  msix : Tab MsixE
  pending : List Nat
deriving DecidableEq, Repr, Inhabited

/-- A fetched command that has not completed: its place, packet, fetch and expiry ticks, data received, progress, and whether its volume was being deleted when it was fetched (13 R423; 12 R383, R386, R599). -/
structure Cmd where
  ident : Nat
  port : Port
  ring : Nat
  slot : Nat
  pkt : List Byte
  fetched : Nat
  expiry : Option Nat
  need : Nat
  granted : Nat
  got : Nat
  data : Mem
  stage : Nat
  aux : List Nat
  volGone : Bool
deriving DecidableEq, Repr, Inhabited

/-- Scopes of Stopwork (12 R400, R401). -/
inductive Scope where
  | ring (r : Nat)
  | session (h : Nat)
  | cls (c : Cls)
  | all
deriving DecidableEq, Repr, Inhabited

/-- Host transport state (12): halts with the tick each was written in; doorbell and DATA_DONE writes latched in A2 and A3, by port and offset (16 R509). -/
structure HostT where
  portA : PortState
  portB : PortState
  owner : Port
  takeovers : Nat
  cmds : Tab Cmd
  nextCmd : Nat
  errors : Tab ErrEntry
  hbPeriod : Nat
  hbAuto : Bool
  hbStart : Nat
  halts : List (Scope × Nat)
  swAccepted : Nat
  swRefused : Nat
  msgs : List (Port × Nat)
  latched : List (Port × Nat × Nat)
  hostMem : Mem
deriving DecidableEq, Repr, Inhabited

end Sys2Proof.Machine
end

