-- ==== Sys2Proof/State/Care.lean ====
section
/-! DEFINITION. State of integrity, the event recorder, health, power, bring-up, security, firmware and SMBus (14 to 18). -/

namespace Sys2Proof.Machine

/-- An event record (15 R489). -/
structure Event where
  seq : Nat
  opTime : Nat
  cycles : Nat
  severity : Nat
  code : Nat
  source : Nat
  repeats : Nat
  lastTime : Nat
  unstable : Bool
  payload : List Byte
deriving DecidableEq, Repr, Inhabited

/-- The event recorder (15 R493 to R500). -/
structure Events where
  recs : List Event
  nextSeq : Nat
  mark : Nat
  logFull : Bool
  dropped : Nat
  unstable : Bool
  durRecs : List Event
  durMark : Nat
  durFull : Bool
  durDropped : Nat
deriving DecidableEq, Repr, Inhabited

/-- A temperature sensor record (15 R505). -/
structure Sensor where
  bins : Tab Nat
  peak : W16
  peakTime : Nat
  cyclePeak : W16
  cycleTime : Nat
  current : W16
deriving DecidableEq, Repr, Inhabited

/-- An uncorrectable-list entry (15 R506). -/
structure UncE where
  owner : Nat
  sector : Nat
  time : Nat
deriving DecidableEq, Repr, Inhabited

/-- The health log's stored values (15 R501 to R506). -/
structure Health where
  counts : Tab Nat
  retired : Nat
  uncTotal : Nat
  hostBytes : Nat
  flashBytes : Nat
  qlcErases : Nat
  slcErases : Nat
  sensors : Tab Sensor
  unc : List UncE
deriving DecidableEq, Repr, Inhabited

/-- A strike: core, engine, operating time in ms when given (14 R481). -/
structure Strike where
  core : Nat
  engine : Nat
  at_ : Nat
deriving DecidableEq, Repr, Inhabited

/-- The Jig image: what is mapped out and why (14 R473, R481 to R483). -/
structure Jig where
  seq : Nat
  cores : Tab (Nat × Nat)
  engines : Tab Nat
  strikes : List Strike
  ways : List Nat
  hbmOut : List Nat
  decoders : List Nat
  comparators : List Nat
deriving DecidableEq, Repr, Inhabited

/-- A sample not yet decided: operation, context, primary, shadow, job, rotations, and whether the two disagreed (14 R477 to R480). -/
structure Capture where
  op : Nat
  ctx : Nat
  primary : Nat
  shadow : Nat
  job : Nat
  rotRow : Nat
  rotCol : Nat
  mismatch : Bool
deriving DecidableEq, Repr, Inhabited

/-- A check site's bounds (14 R474, R475, R486). -/
structure Site where
  model : W64
  site : Nat
  lo : W32
  hi : W32
deriving DecidableEq, Repr, Inhabited

/-- A failed run of a unit at a site: unit, site, value, placement (14 R486). -/
structure FailedRun where
  job : Nat
  site : Nat
  value : Nat
  core : Nat
deriving DecidableEq, Repr, Inhabited

/-- Integrity state (14). -/
structure Integrity where
  errSummary : BitVec 12
  errIrqEn : BitVec 12
  planeControl : W64
  bucketConfig : W64
  policy : W64
  buckets : Tab Nat
  leakAt : Nat
  divisors : Tab Nat
  overflowed : List Nat
  badWords : List (Nat × Nat × Nat)
  jig : Jig
  captures : Tab Capture
  sites : List Site
  failedRuns : List FailedRun
deriving DecidableEq, Repr, Inhabited

/-- Power states (16 R511). -/
inductive PState where
  | a0 | a1 | a2 | a3
deriving DecidableEq, Repr, Inhabited

/-- The state number of 16 R523. -/
def PState.num : PState → Nat
  | .a0 => 0
  | .a1 => 1
  | .a2 => 2
  | .a3 => 3

/-- Why Hibernate is entered (16 R513, R514). -/
inductive HibWhy where
  | timer | command | stopwork
deriving DecidableEq, Repr, Inhabited

/-- The configuration block (16 R527). -/
structure Config256 where
  seq : Nat
  ownerPort : Port
  moduleNumber : Nat
  idle : BitVec 256
  boot : List W64
deriving DecidableEq, Repr, Inhabited

/-- Power, clocks and bring-up (16, 19). -/
structure Power where
  good : Bool
  hardStop : Bool
  st : PState
  since : Nat
  residency : Tab Nat
  entries : Tab Nat
  hib : Option HibWhy
  wakeLatched : Bool
  opTime : Nat
  opTimeAt : Nat
  savedTime : Nat
  cycles : Nat
  idle : BitVec 256
  powerCap : W64
  capBar : Option Nat
  capSmb : Option Nat
  mediaPolicy : W64
  mhz : Tab Nat
  stopped : List Nat
  paced : List Nat
  hot : List Nat
  capping : Bool
  capPaced : Bool
  inputW : Nat
  cfg : Config256
  cfgDefaulted : Bool
  ready : BitVec 6
  readyAtEntry : BitVec 6
  trySquareDone : Bool
  adminOnly : Bool
  noBoot : Bool
  bringUpFails : Nat
  startAt : Nat
  slotId : BitVec 4
  smbAlt : Bool
deriving DecidableEq, Repr, Inhabited

/-- Slot states (17 R552). -/
inductive SlotState where
  | empty | incomplete | downloaded | verified | rolledBack
deriving DecidableEq, Repr, Inhabited

/-- The code of 17 R552. -/
def SlotState.num : SlotState → Nat
  | .empty => 0
  | .incomplete => 1
  | .downloaded => 2
  | .verified => 3
  | .rolledBack => 4

/-- A firmware slot (17 R551, R552). -/
structure FwSlot where
  st : SlotState
  image : Mem
  pages : List Nat
  len : Nat
  version : W64
  build : W64
  secVer : Nat
  digest : List Byte
deriving DecidableEq, Repr, Inhabited

/-- What a page of the security block holds beside the keys: the owner key, LOCK_SEQ, the lock flag, the signing policy and the volume locks (17 R540). -/
structure SecImage where
  ownerKey : List Byte
  lockSeq : Nat
  locked : Bool
  policy : BitVec 2
  volLocks : BitVec 16
deriving DecidableEq, Repr, Inhabited

/-- The four copies of the security block: the sequence of the newest update, that of each copy's newest page, the page each copy is programming, what the newest page
holds, the plane-block each copy is in, the plane-blocks that hold pages of it, and those whose erase a destroyed key waits for (17 R540, R549). -/
structure SecPages where
  seq : Nat
  okd : List Nat
  sent : Tab (Nat × SecImage)
  newest : Nat
  image : SecImage
  homes : Tab Nat
  held : List Nat
  old : List Nat
deriving DecidableEq, Repr, Inhabited

/-- Security state and the random number generator (17). -/
structure Security where
  ownerKey : List Byte
  lockSeq : Nat
  locked : Bool
  policy : BitVec 2
  volLocks : BitVec 16
  lost : Bool
  slotA : FwSlot
  slotB : FwSlot
  activeB : Bool
  nextB : Bool
  fuses : Nat
  fwBusy : Bool
  drbg : Bool
  drbgReqs : Nat
  pages : SecPages
deriving DecidableEq, Repr, Inhabited

/-- SMBus state (18 R576 to R578). -/
structure Smbus where
  errors : Nat
  out : List Byte
  spareState : Nat
  spares : Nat
  wearMean : Nat
  wearMax : Nat
  uncTotal : Nat
deriving DecidableEq, Repr, Inhabited

/-- Regulator settings (08 R272 to R274). -/
structure Regul where
  pcsetI : W64
  pcsetB : W64
  pcsetS : W64
  ways : Tab W64
  wayPrev : Tab Nat
  policy : W64
deriving DecidableEq, Repr, Inhabited

end Sys2Proof.Machine
end

