-- ==== Sys2Proof/State/Die.lean ====
section
/-! DEFINITION. State of one flash die (01). -/

namespace Sys2Proof.Machine

/-- Outcome codes of the die status register (01 R16). -/
inductive DieCode where
  | ok | programOrder | modeMismatch | addressInvalid | programFail | eraseFail
  | busy | suspendLimit | noTarget | queryInvalid | opcodeInvalid
deriving DecidableEq, Repr, Inhabited

/-- The 4-bit code of 01 R16. -/
def DieCode.num : DieCode → Nat
  | .ok => 0
  | .programOrder => 1
  | .modeMismatch => 2
  | .addressInvalid => 3
  | .programFail => 4
  | .eraseFail => 5
  | .busy => 6
  | .suspendLimit => 7
  | .noTarget => 8
  | .queryInvalid => 9
  | .opcodeInvalid => 10

/-- A row address inside a die: plane, block and page (01 R10). -/
structure Row where
  plane : PlaneNo
  block : Nat
  page : Nat
deriving DecidableEq, Repr, Inhabited

/-- Where a program or erase stands (01 R14, R29); `pend` of the latency: whether the SUSPEND had to wait, so that SUSP_PEND is set. -/
inductive OpState where
  | running | pending | latency (due : Nat) (pend : Bool) | suspended
deriving DecidableEq, Repr, Inhabited

/-- What a program or erase does. -/
inductive OpKind where
  | slc | qlc | erase (m : BMode)
deriving DecidableEq, Repr, Inhabited

/-- A program or erase in progress: kind, targets, data per target, and run time (01 R11, R29, R31). -/
structure DieOp where
  kind : OpKind
  rows : List Row
  data : List (List Byte)
  prog : ProgPurpose
  er : ErasePurpose
  needed : Nat
  ran : Nat
  since : Nat
  used : Nat
  st : OpState
deriving DecidableEq, Repr, Inhabited

/-- What the array senses: a page read, a prefetch, a chain step, or a scan step (01 R25, R26, R28, R41). -/
inductive SenseKind where
  | page | prefetched | chain | scan
deriving DecidableEq, Repr, Inhabited

/-- A sense in progress. -/
structure Sense where
  kind : SenseKind
  rows : List Row
  mode : BMode
  into : Bool          -- true: into the prefetch buffers
  due : Nat
deriving DecidableEq, Repr, Inhabited

/-- A loaded query slot: width code and sketch bits (01 R39). -/
structure QSlot where
  wide : Bool
  bits : BitVec 512
deriving DecidableEq, Repr, Inhabited

/-- A kept scan entry: agreement, slot, chain entry (01 R46). -/
structure Kept where
  agree : Nat
  slot : Nat
  chain : Nat
deriving DecidableEq, Repr, Inhabited

/-- A scan in progress or ended: mask, allow masks, counts and kept lists by query slot (01 R40 to R45). -/
structure ScanRun where
  mask : BitVec 8
  allow : List (List Byte)
  next : Nat
  step : List Nat
  ready : Bool
  mismatch : Bool
  scanned : Nat
  skipped : Nat
  compared : Nat
  lists : Tab (List Kept)
deriving DecidableEq, Repr, Inhabited

/-- A flash die (01). -/
structure Die where
  cells : Mem
  qlc : List Nat
  started : List Nat
  undef : List Nat
  undefModes : List Nat
  fail : Bool
  code : DieCode
  answer : DieCode
  op : Option DieOp
  sense : Option Sense
  resetDue : Option Nat
  regs : Tab Mem
  pre : Tab Mem
  preOn : Bool
  preReady : Bool
  curRows : List Row
  chain : List W32
  walk : Option (Nat × BMode)
  queries : Tab QSlot
  scanRun : Option ScanRun
  result : List Byte
  qlcOffs : Tab (List Byte)
  slcOffs : Tab (List Byte)
  temp : W16
  out : List Byte
deriving DecidableEq, Repr, Inhabited

end Sys2Proof.Machine
end

