-- ==== Sys2Proof/State/Media.lean ====
section
/-! DEFINITION. State of media management (02). -/

namespace Sys2Proof.Machine

/-- Owners of flash: volumes 0 to 15, then the vector, sketch, context-cache and session areas, 16 to 19 (02 R53). -/
abbrev Owner := Nat

/-- A map entry (02 R53). -/
structure MapEntry where
  pstripe : Nat
  slc : Bool
  rebuild : Bool
  owner : Owner
  ostripe : Nat
deriving DecidableEq, Repr, Inhabited

/-- A sector copy held in a veneer or log slot: write sequence, owner, sector, ZERO, data as before encryption, and the number of the key it is encrypted under, none in
the sketch area (02 R55, R56, R85). -/
structure SecCopy where
  seq : Nat
  owner : Owner
  sector : Nat
  zero : Bool
  data : Mem
  key : Option Nat
deriving DecidableEq, Repr, Inhabited

/-- A sector copy on its way to the veneer: the command that waits for it, or none for a copy that stands already; and, where it is written again from a veneer page, the write
sequence of the copy it replaces once its page has returned OK (02 R58, R61, R72). -/
structure PendCopy where
  cmd : Option Nat
  copy : SecCopy
  was : Option Nat
deriving DecidableEq, Repr, Inhabited

/-- A sector copy on its way to a log block: the log, the write sequence of the veneer copy it is made from, and the copy (02 R64). -/
structure LogCopy where
  log : Nat
  was : Nat
  copy : SecCopy
deriving DecidableEq, Repr, Inhabited

/-- A page programmed, or being programmed, in a veneer stripe or a log block: its stripe, member and page, its OWNER, LSTRIPE and slot words, and whether its program has
returned OK (02 R55, R56, R62). -/
structure PageRec where
  p : Nat
  member : Nat
  page : Nat
  owner : Owner
  lstripe : Nat
  words : List Nat
  ok : Bool
deriving DecidableEq, Repr, Inhabited

/-- A veneer stripe, and whether a VENEER_FOLDED record names it (02 R57, R61). -/
structure VStripe where
  p : Nat
  folded : Bool
deriving DecidableEq, Repr, Inhabited

/-- Journal record types (02 R67). -/
inductive JType where
  | mapSet | mapClear | logAttach | logDetach | targetOpen | eraseStart | eraseDone
  | blockRetire | substitute | veneerFolded | checkpointed | spareState
deriving DecidableEq, Repr, Inhabited

/-- The code of 02 R67. -/
def JType.num : JType → Nat
  | .mapSet => 1
  | .mapClear => 2
  | .logAttach => 3
  | .logDetach => 4
  | .targetOpen => 5
  | .eraseStart => 6
  | .eraseDone => 7
  | .blockRetire => 8
  | .substitute => 9
  | .veneerFolded => 10
  | .checkpointed => 11
  | .spareState => 12

/-- A journal record (02 R66). -/
structure JRecord where
  seq : Nat
  type : JType
  lstripe : Nat
  new : Nat
  aux : Nat
deriving DecidableEq, Repr, Inhabited

/-- A journal page being programmed: its records, the die each copy was sent to, and which copies returned OK (02 R66, R68). -/
structure JPage where
  recs : List JRecord
  at0 : Option Nat
  at1 : Option Nat
  ok0 : Bool
  ok1 : Bool
deriving DecidableEq, Repr, Inhabited

/-- A log block of the pool: the stripe it is attached to, the SEQ it was attached at, and the sector copies in its pages (02 R64). -/
structure LogBlock where
  lstripe : Nat
  seq : Nat
  copies : List SecCopy
deriving DecidableEq, Repr, Inhabited

/-- Steps of a fold or relocation: a step named in the past has committed, `copying` programs the target, `opening`, `copied` and `starting` wait for their record
(02 R70). -/
inductive RelocStep where
  | opening | opened | copying | copied | mapSet | starting | erasing
deriving DecidableEq, Repr, Inhabited

/-- A fold or relocation in progress: stripe, owner, target and its mode, source blocks, logs merged, the entry seen at opening, the write sequence copied up to, the copies
that go to the target, and how many units of each member were sent and have returned OK (02 R60, R65, R70). -/
structure Reloc where
  lstripe : Nat
  owner : Owner
  ostripe : Nat
  target : Nat
  slc : Bool
  source : Option Nat
  logs : List Nat
  step : RelocStep
  seen : Option MapEntry
  upTo : Nat
  copies : List SecCopy
  sent : List Nat
  okd : List Nat
deriving DecidableEq, Repr, Inhabited

/-- A lost member being rebuilt from parity: stripe, member, and how many of its 1,024 units were sent and have returned OK (02 R80). -/
structure Rebuild where
  p : Nat
  member : Nat
  sent : Nat
  okd : Nat
deriving DecidableEq, Repr, Inhabited

/-- The tables a checkpoint holds as its records up to `seq` left them: the map, from which the directories follow, the log pool's stripes and attaching SEQs, the
substitution table, the targets open with the entry each saw, and the spare state (02 R69). -/
structure Tables where
  map : Tab MapEntry
  logs : Tab (Nat × Nat)
  subst : List (Nat × Nat × Nat × Nat)
  opens : Tab (Option MapEntry)
  spare : Nat
  seq : Nat
deriving DecidableEq, Repr, Inhabited

/-- A checkpoint whose CHECKPOINT record has committed (02 R69). -/
structure Checkpoint where
  num : Nat
  tables : Tables
deriving DecidableEq, Repr, Inhabited

/-- A checkpoint being written: its pages sent and those that have returned OK (02 R69). -/
structure CpBuild where
  num : Nat
  tables : Tables
  sent : List Nat
  done : List Nat
deriving DecidableEq, Repr, Inhabited

/-- Spare states (02 R81). -/
inductive SpareState where
  | normal | low | readOnly
deriving DecidableEq, Repr, Inhabited

/-- The code of 02 R67 and 15 R502. -/
def SpareState.num : SpareState → Nat
  | .normal => 0
  | .low => 1
  | .readOnly => 2

/-- Erases of a plane-block in each mode, its reads since its first program, and the time of that program (02 R76, R77, R78). -/
structure Wear where
  qlcErases : Nat
  slcErases : Nat
  reads : Nat
  written : Nat
deriving DecidableEq, Repr, Inhabited

/-- A volume: declared size and key generation (02 R84, R85). -/
structure Volume where
  sectors : Nat
  key : Nat
deriving DecidableEq, Repr, Inhabited

/-- A stripe counted against the budget and not yet mapped: its number, owner, owner stripe, the commands counted for it, whether a sector
landed, and when a write last reached it (02 R60, R83). -/
structure Counted where
  lstripe : Nat
  owner : Owner
  ostripe : Nat
  cmds : List Nat
  landed : Bool
  lastWrite : Nat
deriving DecidableEq, Repr, Inhabited

/-- The LDPC shares of a channel group and the slots left in its running frame (02 R73, 16 R533). -/
structure Ldpc where
  i : Nat
  b : Nat
  s : Nat
  rebuilding : Bool
  leftI : Nat
  leftB : Nat
  leftS : Nat
  frame : Nat
deriving DecidableEq, Repr, Inhabited

/-- A suspension the module made for queued reads: die, end of the service window (02 R75). -/
structure SuspFor where
  die : Nat
  until_ : Nat
deriving DecidableEq, Repr, Inhabited

/-- Media management's state (02). -/
structure Media where
  map : Tab MapEntry
  counted : List Counted
  veneer : List SecCopy
  pend : List PendCopy
  writeSeq : Nat
  veneerStripes : Nat
  veneerTarget : Nat
  veneerRecorded : Nat
  ring : List VStripe
  pages : Tab PageRec
  logPend : List LogCopy
  logs : Tab LogBlock
  stripes : Tab (List SecCopy)
  jNext : Nat
  jDone : Nat
  jPend : List JRecord
  jPendSince : Nat
  jPages : List JPage
  jLog : List JRecord
  cpNum : Nat
  cpAt : Nat
  cpBuild : Option CpBuild
  cps : List Checkpoint
  relocs : Tab Reloc
  relocNeeded : List Nat
  subst : List (Nat × Nat × Nat × Nat)
  rebuilding : List Rebuild
  retired : List (Nat × Nat)
  lostSubst : List Nat
  wear : Tab Wear
  toErase : Tab (List Nat)
  closed : List Nat
  badBlocks : List Nat
  spareState : SpareState
  offsets : List (Nat × BMode × Nat × List Byte)
  offsetsOn : List (Nat × BMode × Nat)
  ldpc : Tab Ldpc
  volumes : Tab Volume
  keys : Nat
  areaKeys : List (Nat × Nat)
  maskKey : Option Nat
  susp : List SuspFor
  patrolled : Tab Nat
  doomed : List Nat
  reclaim : List (Nat × Nat)
deriving DecidableEq, Repr, Inhabited

end Sys2Proof.Machine
end

