-- ==== Sys2Proof/Machine/State.lean ====
section
/-! DEFINITION. The state of the block, the reasons it can stop, and the state right after reset.

The block is the SX-LM480-A module. `State.pending` is the model's own queue of commands; every other field is state the spec
gives the machine, or, where its docstring says so, the model's own. -/

namespace Sys2Proof.Machine

/-- The state of the module. -/
structure State where
  /-- The model's own: commands and events waiting, first in, first out. -/
  pending : List Instr
  /-- Time in units of 1/120 ns since the model's start; one Escapement tick is 4,800 of them (16 R507). -/
  now : Nat
  /-- The model's own: number of the next free value (log entry 3). -/
  freeCtr : Nat
  dies : Tab Die
  media : Media
  compute : Compute
  steps : Steps
  tiers : Tiers
  items : Items
  serv : Services
  span : Span
  host : HostT
  regul : Regul
  integ : Integrity
  events : Events
  health : Health
  power : Power
  sec : Security
  smbus : Smbus
deriving DecidableEq, Repr

/-- Why the machine stops with a fault: never. Every command of the table has an effect in every state, if only to be ignored as the
manual says, so no command raises one (log entry 1). -/
inductive Fault where
deriving DecidableEq, Repr

/-- Why the model gives a command no meaning. -/
inductive Refusal where
  /-- A command without a meaning yet, by its mnemonic; raised by Dispatch.lean's arms alone. Safe: the machine stops. -/
  | notModelled (mnemonic : String)
deriving DecidableEq, Repr

/-! ## Reset values. Each structure's reset is the state after the first reset of a factory-new module. -/

/-- A die after RESET, all of its blocks erased in pSLC (01 R15, R36; log entry 10). -/
def Die.reset : Die where
  cells := []
  qlc := []
  started := []
  undef := []
  undefModes := []
  fail := false
  code := .ok
  answer := .ok
  op := none
  sense := none
  resetDue := none
  regs := []
  pre := []
  preOn := false
  preReady := false
  curRows := []
  chain := []
  walk := none
  queries := []
  scanRun := none
  result := []
  qlcOffs := []
  slcOffs := []
  temp := 100#16
  out := []

/-- Media management with nothing stored: 525 TiB of spare plane-blocks (02 R57, R81). -/
def Media.reset : Media where
  map := []
  counted := []
  veneer := []
  pend := []
  writeSeq := 0
  veneerStripes := 32768
  veneerTarget := 32768
  veneerRecorded := 32768
  ring := []
  pages := []
  logPend := []
  logs := []
  stripes := []
  jNext := 1
  jDone := 0
  jPend := []
  jPendSince := 0
  jPages := []
  jLog := []
  cpNum := 0
  cpAt := 0
  cpBuild := none
  cps := []
  relocs := []
  relocNeeded := []
  subst := []
  rebuilding := []
  retired := []
  lostSubst := []
  wear := []
  toErase := []
  closed := []
  badBlocks := []
  spareState := .normal
  offsets := []
  offsetsOn := []
  ldpc := []
  volumes := []
  keys := 0
  areaKeys := []
  maskKey := none
  susp := []
  patrolled := []
  doomed := []
  reclaim := []

def Core.reset : Core where
  bench := []
  readOnly := []
  queues := []
  rrQueue := 0
  vxWait := []
  vxRun := none
  vxLast := 0
  slWait := []
  slRun := none
  sat := 0
  rescue := 0
  bgUsed := 0
  sysUsed := 0
  bgVx := 0
  sysVx := 0
  shareSince := 0
  given := none

def Compute.reset : Compute where
  cores := []
  ctxs := []
  nextCtx := 0
  threads := []
  nextThread := 0
  jobs := []
  nextJob := 0
  sems := []
  sites := []
  mods := []
  nextMod := 1
  nextIdent := 0
  arrivals := 0

def Steps.reset : Steps where
  index := 0
  svcKernel := false
  batch := []
  chunks := []
  known := []
  admitted := []
  pass := none
  turn := false
  passes := []
  back := none
  ran := []

def Tiers.reset : Tiers where
  hbm := []
  flash := []
  pinned := []
  priv := []
  hbmBad := []
  flashBad := []
  grants := []
  nextGrant := 0
  windowSize := 0
  t2 := []
  lines := []
  reqs := []
  nextReq := 0
  fetches := []
  streams := []
  lastTile := []
  image := none

/-- Unformatted item areas: DIMS reads 0 (09 R280). -/
def Items.reset : Items where
  dims := 0
  width := 0
  epoch := 0
  items := []
  genFloor := 0
  genMax := 0
  highWater := 0
  reclaimed := []
  holes := []
  fresh := []
  tombs := []
  gone := []
  nodes := []
  nodeGens := []
  nextNode := 0
  roots := []
  stale := []
  bitmaps := []
  images := 0
  muts := []
  queries := []
  scans := []
  running := []
  merge := none
  side := 0
  old := false
  aside := []
  arrivals := 0
  proj := []
  projExp := []
  thresh := []
  label := 1#64
  encV := 0#64
  encA := 0#64
  projModel := 0#64

def Services.reset : Services where
  models := []
  sessions := []
  nextSession := 1
  caches := []
  builds := []
  nextCache := 0
  decoders := []
  adapt := none
  cachePolicy := 0#256
  nextModel := 1

def Span.reset : Span where
  ports := []
  streams := []
  nextStream := 0
  member := .alone
  desc := none
  members := []
  jobCount := []
  svcCount := []
  queryCount := 0
  insts := []
  sent := []
  linksDown := []
  badPackets := 0
  cage2 := ⟨none, false⟩
  cage3 := ⟨none, false⟩
  presenceAt := 0

/-- The configuration space after a reset of the function: nothing enabled, in D0 (12 R372, R374; log entry 149). -/
def PciConfig.reset : PciConfig := ⟨0#3, false, false, false, false, false⟩

/-- A port with its link down and no ring (12 R380, 18 R564, R574); the first grant takes number 0 (log entry 20). -/
def PortState.reset : PortState where
  linkUp := false
  speed := 0#3
  width := 0#5
  mps := 0#3
  config := PciConfig.reset
  aerCorr := 0
  perst := false
  adminCmdBase := 0#64
  adminReplyBase := 0#64
  adminSize := 0#64
  rings := []
  nextRing := 0
  grants := []
  ended := []
  lastGrant := 65535
  msix := []
  pending := []

def HostT.reset : HostT where
  portA := PortState.reset
  portB := PortState.reset
  owner := .a
  takeovers := 0
  cmds := []
  nextCmd := 0
  errors := []
  hbPeriod := 0
  hbAuto := false
  hbStart := 0
  halts := []
  swAccepted := 0
  swRefused := 0
  msgs := []
  latched := []
  hostMem := []

/-- 18 R567. -/
def Regul.reset : Regul where
  pcsetI := 0xFFFFFFFF#64
  pcsetB := 0xFFFFFF00#64
  pcsetS := 0xFF000000#64
  ways := [(0, 0x4422221111111111#64), (1, 0x4422221111111111#64), (2, 0x4422221111111111#64), (3, 0x4422221111111111#64)]
  wayPrev := []
  policy := 0x00000A80050A5A00#64

def Jig.reset : Jig where
  seq := 0
  cores := []
  engines := []
  strikes := []
  ways := []
  hbmOut := []
  decoders := []
  comparators := []

/-- 18 R567, 14 R468. -/
def Integrity.reset : Integrity where
  errSummary := 0#12
  errIrqEn := 0xFFF#12
  planeControl := 0x01E83C18#64
  bucketConfig := 0xA40#64
  policy := 0x001E052C#64
  buckets := []
  leakAt := 0
  divisors := []
  overflowed := []
  badWords := []
  jig := Jig.reset
  captures := []
  sites := []
  failedRuns := []

/-- 15 R493: the first record after manufacture has SEQ 1; 18 R569: UNSTABLE is 1. -/
def Events.reset : Events where
  recs := []
  nextSeq := 1
  mark := 0
  logFull := false
  dropped := 0
  unstable := true
  durRecs := []
  durMark := 0
  durFull := false
  durDropped := 0

/-- A sensor before its first sample (log entry 11). -/
def Sensor.reset : Sensor where
  bins := []
  peak := 0x8000#16
  peakTime := 0
  cyclePeak := 0x8000#16
  cycleTime := 0
  current := 0#16

def Health.reset : Health where
  counts := []
  retired := 0
  uncTotal := 0
  hostBytes := 0
  flashBytes := 0
  qlcErases := 0
  slcErases := 0
  sensors := []
  unc := []

/-- The factory value of IDLE_TIMERS: A1_US 200, A2_MS 100, A3_S 1,800, DEEPEST 3 (16 R512). -/
def idleFactory : BitVec 256 := BitVec.ofNat 256 (200 + 100 * 2 ^ 32 + 1800 * 2 ^ 64 + 3 * 2 ^ 96)

/-- The factory defaults of 16 R528. -/
def Config256.factory : Config256 where
  seq := 0
  ownerPort := .a
  moduleNumber := 0
  idle := idleFactory
  boot := []

/-- Power good, in A0, nothing ready yet (16 R519, R523, R534, 18 R566, R567). -/
def Power.reset : Power where
  good := true
  hardStop := false
  st := .a0
  since := 0
  residency := []
  entries := []
  hib := none
  wakeLatched := false
  opTime := 0
  opTimeAt := 0
  savedTime := 0
  cycles := 0
  idle := idleFactory
  powerCap := 0x006903E8#64
  capBar := none
  capSmb := none
  mediaPolicy := 0x0000000210410000#64
  mhz := []
  stopped := []
  paced := []
  hot := []
  capping := false
  capPaced := false
  inputW := 0
  cfg := Config256.factory
  cfgDefaulted := false
  ready := 0#6
  readyAtEntry := 0#6
  trySquareDone := false
  adminOnly := false
  noBoot := false
  bringUpFails := 0
  startAt := 0
  slotId := 0#4
  smbAlt := false

/-- An empty firmware slot (17 R552). -/
def FwSlot.blank : FwSlot where
  st := .empty
  image := []
  pages := []
  len := 0
  version := 0#64
  build := 0#64
  secVer := 0
  digest := []

/-- The slot the module leaves the factory with (log entry 30). -/
def FwSlot.factory : FwSlot where
  st := .verified
  image := []
  pages := []
  len := Config.fwLen
  version := Config.fwVersion
  build := Config.fwBuild
  secVer := 0
  digest := Config.fwDigest

/-- The security block with nothing programmed yet: the state at manufacture (17 R540, R541). -/
def SecPages.reset : SecPages where
  seq := 0
  okd := [0, 0, 0, 0]
  sent := []
  newest := 0
  image := ⟨[], 0, false, 0#2, 0#16⟩
  homes := []
  held := []
  old := []

/-- 17 R541, R544: LOCK_SEQ starts at 0, no lock is in force. -/
def Security.reset : Security where
  ownerKey := []
  lockSeq := 0
  locked := false
  policy := 0#2
  volLocks := 0#16
  lost := false
  slotA := FwSlot.factory
  slotB := FwSlot.blank
  activeB := false
  nextB := false
  fuses := 0
  fwBusy := false
  drbg := true
  drbgReqs := 0
  pages := SecPages.reset

def Smbus.reset : Smbus where
  errors := 0
  out := []
  spareState := 0
  spares := 8601600
  wearMean := 0
  wearMax := 0
  uncTotal := 0

/-- The machine right after reset: power good, nothing ready, nothing stored, no command waiting. -/
def State.reset : State where
  pending := []
  now := 0
  freeCtr := 0
  dies := []
  media := Media.reset
  compute := Compute.reset
  steps := Steps.reset
  tiers := Tiers.reset
  items := Items.reset
  serv := Services.reset
  span := Span.reset
  host := HostT.reset
  regul := Regul.reset
  integ := Integrity.reset
  events := Events.reset
  health := Health.reset
  power := Power.reset
  sec := Security.reset
  smbus := Smbus.reset

end Sys2Proof.Machine
end

