-- ==== Sys2Proof/Machine/Bytes.lean ====
section
/-! DEFINITION. Tables, sparse memories, and numbers as little-endian bytes (00 R4); CRC-32C (14 R471). -/

namespace Sys2Proof.Machine

/-! ## Tables: lists of (key, value) with strictly rising keys. -/

/-- The value under a key. -/
def Tab.find {α : Type} : Tab α → Nat → Option α
  | [], _ => none
  | (j, v) :: t, k => if j = k then some v else Tab.find t k

/-- The value under a key, or a default. -/
def Tab.at {α : Type} (t : Tab α) (k : Nat) (d : α) : α := (Tab.find t k).getD d

/-- Whether a key is listed. -/
def Tab.has {α : Type} (t : Tab α) (k : Nat) : Bool := (Tab.find t k).isSome

/-- The table with a value put under a key, keys kept rising. -/
def Tab.put {α : Type} : Tab α → Nat → α → Tab α
  | [], k, v => [(k, v)]
  | (j, w) :: t, k, v =>
    if k < j then (k, v) :: (j, w) :: t
    else if k = j then (k, v) :: t
    else (j, w) :: Tab.put t k v

/-- The table without a key. -/
def Tab.del {α : Type} (t : Tab α) (k : Nat) : Tab α := t.filter (fun e => e.1 ≠ k)

/-- The table with the value under a key changed, if the key is listed. -/
def Tab.change {α : Type} (t : Tab α) (k : Nat) (f : α → α) : Tab α :=
  t.map (fun e => if e.1 = k then (e.1, f e.2) else e)

/-- The table with every value changed. -/
def Tab.changeAll {α : Type} (t : Tab α) (f : α → α) : Tab α := t.map (fun e => (e.1, f e.2))

/-- The keys of a table. -/
def Tab.keys {α : Type} (t : Tab α) : List Nat := t.map (·.1)

/-- The values of a table. -/
def Tab.vals {α : Type} (t : Tab α) : List α := t.map (·.2)

/-- The least number from 0 up that is no key, among the first `n`. -/
def Tab.lowFree {α : Type} (t : Tab α) (n : Nat) : Option Nat :=
  (List.range n).find? (fun k => !(Tab.has t k))

/-- Adds to a count in a table of counts. -/
def Tab.bump (t : Tab Nat) (k n : Nat) : Tab Nat := Tab.put t k (Tab.at t k 0 + n)

/-! ## Sparse memories. An unlisted address reads as the memory's default byte; no listed byte equals it. -/

/-- One byte of a memory whose unlisted bytes read `d`. -/
def Mem.get (d : Byte) (m : Mem) (a : Nat) : Byte := (Tab.find m a).getD d

/-- The cells of a run of bytes from an address, with their addresses. -/
def Mem.cells : Nat → List Byte → Mem
  | _, [] => []
  | a, b :: bs => (a, b) :: Mem.cells (a + 1) bs

/-- The memory with a run of bytes written from an address. -/
def Mem.write (d : Byte) (m : Mem) (a : Nat) (bs : List Byte) : Mem :=
  m.filter (fun c => c.1 < a) ++ (Mem.cells a bs).filter (fun c => c.2 ≠ d)
    ++ m.filter (fun c => a + bs.length ≤ c.1)

/-- The memory with `n` bytes from an address returned to the default. -/
def Mem.clear (m : Mem) (a n : Nat) : Mem :=
  m.filter (fun c => c.1 < a) ++ m.filter (fun c => a + n ≤ c.1)

/-- `n` bytes of a memory from an address. -/
def Mem.read (d : Byte) (m : Mem) (a n : Nat) : List Byte := (List.range n).map (fun i => Mem.get d m (a + i))

/-- The part of a memory in a range, addresses kept. -/
def Mem.part (m : Mem) (a n : Nat) : Mem := m.filter (fun c => a ≤ c.1 && c.1 < a + n)

/-- The canonical form: addresses strictly rising, no byte equal to the default. -/
def Mem.wf (d : Byte) (m : Mem) : Bool :=
  decide (m.Pairwise (fun c e => c.1 < e.1)) && m.all (fun c => c.2 ≠ d)

/-! ## Little-endian numbers. -/

/-- The number whose little-endian bytes are given (00 R4). -/
def leNat : List Byte → Nat
  | [] => 0
  | b :: bs => b.toNat + 256 * leNat bs

/-- The low `n` bytes of a number, little-endian (00 R4). -/
def leBytes : Nat → Nat → List Byte
  | 0, _ => []
  | n + 1, x => BitVec.ofNat 8 x :: leBytes n (x / 256)

/-- `n` zero bytes. -/
def zeros (n : Nat) : List Byte := List.replicate n 0#8

/-- A list of bytes cut or filled with zeros to `n` bytes. -/
def fit (n : Nat) (bs : List Byte) : List Byte := bs.take n ++ zeros (n - bs.length)

/-- The field of `n` bytes at an offset of a packet. -/
def fieldAt (bs : List Byte) (off n : Nat) : Nat := leNat ((bs.drop off).take n)

/-- Bits [lo+len−1:lo] of a number. -/
def bitsOf (x lo len : Nat) : Nat := x / 2 ^ lo % 2 ^ len

/-- Bit i of a number. -/
def bitOf (x i : Nat) : Bool := x / 2 ^ i % 2 == 1

/-- 1 for true, 0 for false. -/
def bit (b : Bool) : Nat := if b then 1 else 0

/-- Whether every byte is zero. -/
def allZero (bs : List Byte) : Bool := bs.all (· == 0#8)

/-- Quotient rounded up. -/
def ceilDiv (a b : Nat) : Nat := (a + b - 1) / b

/-- The signed value of the low w bits of a number. -/
def signedOf (w x : Nat) : Int :=
  let y := x % 2 ^ w
  if y < 2 ^ (w - 1) then (y : Int) else (y : Int) - (2 ^ w : Nat)

/-- The low w bits of an integer, two's complement. -/
def wrapTo (w : Nat) (x : Int) : Nat := (x % ((2 ^ w : Nat) : Int)).toNat

/-- A number that stops at a largest value. -/
def satAdd (x n top : Nat) : Nat := min (x + n) top

/-- Splits a list into runs of n. -/
def chunksOf {α : Type} (n : Nat) (l : List α) : List (List α) :=
  (List.range (ceilDiv l.length n)).map (fun i => (l.drop (i * n)).take n)

/-- Inserts into a list ordered by a strict `before`, after equals. -/
def insertBy {α : Type} (before : α → α → Bool) (x : α) : List α → List α
  | [] => [x]
  | y :: ys => if before x y then x :: y :: ys else y :: insertBy before x ys

/-- Sorts a list by a strict `before`; equal elements keep their order. -/
def sortBy {α : Type} (before : α → α → Bool) (l : List α) : List α :=
  l.foldl (fun acc x => insertBy before x acc) []

/-- A list with the elements at one index replaced. -/
def setAt {α : Type} (l : List α) (i : Nat) (x : α) : List α := l.set i x

/-- Whether a list has no repeat. -/
def noRepeat (l : List Nat) : Bool := decide l.Nodup

/-! ## CRC-32C, the Castagnoli polynomial, reflected; its check value over "123456789" is 0xE306_9283 (14 R471). -/

/-- One bit of the CRC. -/
def crcBit (c : BitVec 32) : BitVec 32 :=
  if c.getLsbD 0 then (c >>> 1) ^^^ 0x82F63B78#32 else c >>> 1

/-- One byte of the CRC. -/
def crcByte (c : BitVec 32) (b : Byte) : BitVec 32 :=
  (List.range 8).foldl (fun a _ => crcBit a) (c ^^^ b.setWidth 32)

/-- CRC-32C over bytes. -/
def crc32c (bs : List Byte) : BitVec 32 := ~~~(bs.foldl crcByte 0xFFFFFFFF#32)

/-- Bytes followed by their CRC-32C. -/
def withCrc (bs : List Byte) : List Byte := bs ++ leBytes 4 (crc32c bs).toNat

/-- ASCII bytes of a text given as its characters. -/
def ascii (s : List Char) : List Byte := s.map (fun c => BitVec.ofNat 8 c.toNat)

/-! ## Free values (log entry 3). -/

/-- The next free value, of width w. -/
def State.freeBits (s : State) (w : Nat) : BitVec w := Config.freeBits s.freeCtr w

/-- The state after n free values have been used. -/
def State.spend (s : State) (n : Nat) : State := { s with freeCtr := s.freeCtr + n }

/-- n free bytes. -/
def State.freeBytes (s : State) (n : Nat) : List Byte := (List.range n).map (fun i => Config.freeBits (s.freeCtr + i) 8)

/-- A free choice among n alternatives. -/
def State.freeNat (s : State) (n : Nat) : Nat := (Config.freeBits s.freeCtr 64).toNat % n

end Sys2Proof.Machine
end

