-- ==== Sys2Proof/Machine/Digest.lean ====
section
/-! DEFINITION. SHAKE256 and ML-DSA-65 verification, with which every digest and signature is made (17). The manual names the standards, FIPS 202 and FIPS 204, and does not
repeat them (log entry 5). -/

namespace Sys2Proof.Machine

/-! ## Keccak (FIPS 202). -/

/-- The round constants of Keccak-f[1600]. -/
def keccakRc : List Nat :=
  [0x0000000000000001, 0x0000000000008082, 0x800000000000808A, 0x8000000080008000, 0x000000000000808B, 0x0000000080000001,
   0x8000000080008081, 0x8000000000008009, 0x000000000000008A, 0x0000000000000088, 0x0000000080008009, 0x000000008000000A]
  ++ [0x000000008000808B, 0x800000000000008B, 0x8000000000008089, 0x8000000000008003, 0x8000000000008002, 0x8000000000000080,
   0x000000000000800A, 0x800000008000000A, 0x8000000080008081, 0x8000000000008080, 0x0000000080000001, 0x8000000080008008]

/-- The rotation of lane x + 5y. -/
def keccakRot : List Nat := [0, 1, 62, 28, 27, 36, 44, 6, 55, 20, 3, 10, 43, 25, 39, 41, 45, 15, 21, 8, 18, 2, 61, 56, 14]

/-- A lane of the state. -/
def lane (a : List W64) (x y : Nat) : W64 := a.getD (x % 5 + 5 * (y % 5)) 0#64

/-- The lanes of a state, each from its coordinates. -/
def lanes (f : Nat → Nat → W64) : List W64 := (List.range 25).map (fun k => f (k % 5) (k / 5))

/-- One round: the columns' parities, the moves and rotations of lanes, the nonlinear step, and the round constant. -/
def keccakRound (a : List W64) (rc : Nat) : List W64 :=
  let col := (List.range 5).map (fun x => (List.range 5).foldl (fun (c : W64) y => c ^^^ lane a x y) 0#64)
  let b := lanes (fun x y => lane a x y ^^^ col.getD ((x + 4) % 5) 0#64 ^^^ (col.getD ((x + 1) % 5) 0#64).rotateLeft 1)
  let c := lanes (fun x y => let u := (x + 3 * y) % 5; (lane b u x).rotateLeft (keccakRot.getD (u + 5 * x) 0))
  let d := lanes (fun x y => lane c x y ^^^ (~~~(lane c (x + 1) y) &&& lane c (x + 2) y))
  (d.head?.map (· ^^^ BitVec.ofNat 64 rc)).toList ++ d.drop 1

/-- The permutation. -/
def keccakF (a : List W64) : List W64 := keccakRc.foldl keccakRound a

/-- A state's bytes. -/
def laneBytes (a : List W64) : List Byte := a.flatMap (fun w => leBytes 8 w.toNat)

/-- A block absorbed into a state. -/
def keccakAbsorb (a : List W64) (block : List Byte) : List W64 :=
  keccakF (lanes (fun x y => lane a x y ^^^ BitVec.ofNat 64 (fieldAt block (8 * (x + 5 * y)) 8)))

/-- SHAKE of a rate: the message with its suffix and padding absorbed, and the first n bytes of output. -/
def shake (rate : Nat) (msg : List Byte) (n : Nat) : List Byte :=
  let gap := rate - msg.length % rate
  let padded := msg ++ (if gap = 1 then [0x9F#8] else [0x1F#8] ++ zeros (gap - 2) ++ [0x80#8])
  let start := (chunksOf rate padded).foldl keccakAbsorb (List.replicate 25 0#64)
  ((List.range (ceilDiv n rate)).foldl (fun (r : List (List Byte) × List W64) _ => ((laneBytes r.2).take rate :: r.1, keccakF r.2))
    (([] : List (List Byte)), start)).1.reverse.flatten.take n

/-- SHAKE256, the first n bytes over a message. -/
def shake256 (msg : List Byte) (n : Nat) : List Byte := shake 136 msg n

/-! ## Polynomials of ML-DSA (FIPS 204), as lists of 256 coefficients. -/

/-- The modulus. -/
def dsaQ : Nat := 8380417

/-- The eight low bits of a number in reverse. -/
def bitRev8 (i : Nat) : Nat := ((List.range 8).map (fun k => bit (bitOf i k) * 2 ^ (7 - k))).foldl (· + ·) 0

/-- A power modulo q. -/
def powQ (x e : Nat) : Nat := (List.range 24).foldr (fun i r => r * r % dsaQ * (if bitOf e i then x else 1) % dsaQ) 1

/-- The points at which a polynomial's transform takes its values. -/
def dsaPoints : List Nat := (List.range 256).map (fun i => powQ 1753 (2 * bitRev8 i + 1))

/-- The transform of a polynomial: its values at the points. -/
def dsaNtt (w : List Nat) : List Nat := dsaPoints.map (fun x => w.foldr (fun a r => (a + r * x) % dsaQ) 0)

/-- The polynomial with the given values. -/
def dsaInverse (v : List Nat) : List Nat :=
  let back := dsaPoints.map (fun x => powQ x (dsaQ - 2))
  let inv256 := powQ 256 (dsaQ - 2)
  ((List.range 256).foldl (fun (r : List Nat × List Nat) _ =>
    (r.2.foldl (· + ·) 0 % dsaQ * inv256 % dsaQ :: r.1, r.2.zipWith (fun a b => a * b % dsaQ) back)) (([] : List Nat), v)).1.reverse

/-- Sums, differences and products of transforms. -/
def addQ (a b : List Nat) : List Nat := a.zipWith (fun x y => (x + y) % dsaQ) b
def subQ (a b : List Nat) : List Nat := a.zipWith (fun x y => (x + dsaQ - y) % dsaQ) b
def mulQ (a b : List Nat) : List Nat := a.zipWith (fun x y => x * y % dsaQ) b

/-- Numbers of w bits from bytes. -/
def unpackBits (w n : Nat) (bs : List Byte) : List Nat :=
  let x := leNat bs
  (List.range n).map (fun i => bitsOf x (w * i) w)

/-- An entry of the public matrix, already transformed: numbers of 23 bits below q, three bytes each. -/
def dsaEntry (rho : List Byte) (r s : Nat) : List Nat :=
  ((chunksOf 3 (shake 168 (rho ++ [BitVec.ofNat 8 s, BitVec.ofNat 8 r]) 1512)).map (fun b => leNat b % 2 ^ 23)).filter (· < dsaQ) |>.take 256

/-- The challenge polynomial: 49 coefficients of 1 or −1 (FIPS 204, SampleInBall). -/
def dsaChallenge (seed : List Byte) : List Nat :=
  let stream := shake256 seed 1096
  let signs := leNat (stream.take 8)
  let place := fun (c : List Nat) (i j : Nat) => (c.set i (c.getD j 0)).set j (if bitOf signs (i + 49 - 256) then dsaQ - 1 else 1)
  ((stream.drop 8).foldl (fun (r : Nat × List Nat) b => if r.1 < 256 ∧ b.toNat ≤ r.1 then (r.1 + 1, place r.2 r.1 b.toNat) else r)
    (256 - 49, List.replicate 256 0)).2

/-! ## Hints and signatures. -/

/-- The high part of a number and whether its low part is positive (FIPS 204, Decompose). -/
def dsaHigh (r : Nat) : Nat × Bool :=
  let low := r % 523776
  let r0 : Int := if 261888 < low then (low : Int) - 523776 else low
  if (r : Int) - r0 = dsaQ - 1 then (0, false) else (((r : Int) - r0).toNat / 523776, decide (0 < r0))

/-- The high part as a hint corrects it. -/
def dsaUseHint (h : Bool) (r : Nat) : Nat :=
  let x := dsaHigh r
  if !h then x.1 else if x.2 then (x.1 + 1) % 16 else (x.1 + 15) % 16

/-- The places of the hints of each of six polynomials, or none where they are not well formed (FIPS 204, HintBitUnpack). -/
def dsaHints (y : List Byte) : Option (List (List Nat)) :=
  let ends := ((y.drop 55).take 6).map (·.toNat)
  let starts := 0 :: ends
  let parts := (List.range 6).map (fun i => ((y.take 55).drop (starts.getD i 0)).take (ends.getD i 0 - starts.getD i 0) |>.map (·.toNat))
  let rising := fun (l : List Nat) => decide (l.Pairwise (· < ·))
  if decide (starts.Pairwise (· ≤ ·)) && ends.all (· ≤ 55) && parts.all rising && allZero ((y.take 55).drop (ends.getLast?.getD 0)) then some parts else none

/-- A vector's norm below a bound, its numbers counted from zero both ways. -/
def dsaShort (bound : Nat) (v : List (List Nat)) : Bool := v.all (fun w => w.all (fun x => x < bound || dsaQ - x < bound))

/-- ML-DSA-65 verification with an empty context: public key, message, signature (FIPS 204). -/
def mldsaVerify (key msg sig : List Byte) : Bool :=
  if key.length ≠ 1952 ∨ sig.length ≠ 3309 then false
  else
    let rho := key.take 32
    let t1 := (chunksOf 320 (key.drop 32)).map (unpackBits 10 256)
    let seed := sig.take 48
    let z := (chunksOf 640 ((sig.drop 48).take 3200)).map (fun b => (unpackBits 20 256 b).map (fun x => (524288 + dsaQ - x) % dsaQ))
    match dsaHints (sig.drop 3248) with
    | none => false
    | some hints =>
      let mu := shake256 (shake256 key 64 ++ [0#8, 0#8] ++ msg) 64
      let c := dsaNtt (dsaChallenge seed)
      let zt := z.map dsaNtt
      let w1 := (List.range 6).map (fun r =>
        let az := (List.range 5).foldl (fun acc s => addQ acc (mulQ (dsaEntry rho r s) (zt.getD s []))) (List.replicate 256 0)
        let ct := mulQ c (dsaNtt ((t1.getD r []).map (fun x => x * 8192 % dsaQ)))
        (dsaInverse (subQ az ct)).zipIdx.map (fun e => dsaUseHint (e.2 ∈ hints.getD r []) e.1))
      let packed := w1.flatMap (fun w => (chunksOf 2 w).map (fun p => BitVec.ofNat 8 (p.getD 0 0 + 16 * p.getD 1 0)))
      dsaShort 524092 z && shake256 (mu ++ packed) 48 == seed

end Sys2Proof.Machine
end

