-- ==== Sys2Proof/Machine/Nodes.lean ====
section
/-! DEFINITION. The forms of tree nodes in HBM: child pointers, the stored tiles of centroids, member entries (09 R286, R287). -/

namespace Sys2Proof.Machine

/-- A child pointer: node number, its generation when the pointer was written, the leaf bit (09 R286). -/
def Child.word (c : Child) : Nat := c.node % 2 ^ 32 + c.gen % 2 ^ 22 * 2 ^ 32 + bit c.leaf * 2 ^ 54

/-- The bytes of a child pointer. -/
def Child.bytes (c : Child) : List Byte := leBytes 8 c.word

/-- Stored tile (g, k) of an upper node's centroids: dimensions 32k to 32k + 31 as rows, children 64g to 64g + 63 as n, two 8-bit lanes to a word, and a line that begins with
their 64 exponents (09 R286, 03 R108). Places of children that are not there, and the rest of that line, hold zeros (DESIGN CHOICE, log entry 143). -/
def centroidTile (cs : List Child) (g k : Nat) : List Byte :=
  let mine := (cs.drop (64 * g)).take 64
  let mant := fun (r n : Nat) => match mine[n]? with
    | some c => BitVec.ofInt 8 (c.cent.mant.getD (32 * k + r) 0)
    | none => 0#8
  ([0, 1] : List Nat).flatMap (fun l => (List.range 32).flatMap (fun r => (List.range 32).map (fun j => mant r (32 * l + j))))
    ++ fit 1024 (mine.map (fun c => c.cent.exps.getD k 0#8))

/-- An upper node's centroids: ceil(C ÷ 64) × (D ÷ 32) stored tiles of 3,072 bytes (09 R286). -/
def centroidTiles (dims : Nat) (cs : List Child) : List Byte :=
  (List.range (ceilDiv cs.length 64)).flatMap (fun g => (List.range (dims / 32)).flatMap (fun k => centroidTile cs g k))

/-- A member entry: INDEX, GEN and VALID; a slot that holds no item reads 0 (09 R287). -/
def memberWord (m : Option (Nat × Nat)) : Nat :=
  match m with
  | some m => m.1 % 2 ^ 34 + m.2 % 2 ^ 22 * 2 ^ 34 + 2 ^ 63
  | none => 0

/-- A leaf's member table: 8 bytes for each slot (09 R287). -/
def memberBytes (ms : List (Option (Nat × Nat))) : List Byte := ms.flatMap (fun m => leBytes 8 (memberWord m))

/-- The member entry a die result's CHAIN and SLOT name, `per` slots to a page (09 R287). -/
def memberAt (per : Nat) (ms : List (Option (Nat × Nat))) (chain slot : Nat) : Option (Nat × Nat) := ms.getD (chain * per + slot) none

end Sys2Proof.Machine
end

