-- ==== Sys2Proof/Machine/Flags.lean ====
section
/-! DEFINITION. Advisory flags and the status they make of a completion (12 R389), and what a fatal or failing status is. -/

namespace Sys2Proof.Machine

/-- The advisory flags of RFLAGS (12 R389), by bit. -/
def flagShortResult : Nat := 1
/-- DEDUP_SHORT (04 R141, 09 R306). -/
def flagDedupShort : Nat := 2
/-- CHECK_OVERRIDDEN (14 R486). -/
def flagCheckOverridden : Nat := 4
/-- SCALE_RESCUED (05 R172). -/
def flagScaleRescued : Nat := 8
/-- STALE_SKIPPED (09 R289). -/
def flagStaleSkipped : Nat := 16

/-- The status a completion carries: SUCCESS becomes SUCCESS_FLAGGED with flags, and only success carries flags (12 R389). -/
def flagged (st : Status) (flags : Nat) : Status := if st = .success ∧ flags ≠ 0 then .successFlagged else st

end Sys2Proof.Machine
end

