-- ==== Sys2Proof/Machine/Ops.lean ====
section
/-! DEFINITION. Operations every family shares: time, the event recorder (15), the health counts (15 R503), host memory (12), and the
completion of commands (12 R384 to R398). -/

namespace Sys2Proof.Machine

/-! ## Time (16 R507). -/

/-- The Escapement tick that `now` lies in. -/
def State.tick (s : State) : Nat := s.now / tickUnits

/-- Time moved on to an instant not before now. -/
def State.at_ (s : State) (t : Nat) : State := { s with now := max s.now t }

/-- Operating time in ms, 48 bits (16 R507). -/
def State.opTime (s : State) : Nat := (s.power.opTime + (s.now - s.power.opTimeAt) / msUnits) % 2 ^ 48

/-! ## The event recorder. -/

/-- The severity an event code carries (15 R490, R492); read-only raises SPARE_STATE to CRITICAL. -/
def severityOf (code : Nat) (payload : List Byte) : Nat :=
  if code = 0x3001 then (if payload.head? = some 2#8 then 5 else 3)
  else if code ∈ [0x1003, 0x4003, 0x5001, 0x5002] then 1
  else if code ∈ [0x0002, 0x2001, 0x2006, 0x3004, 0x4009, 0x7001, 0x7003] then 2
  else if code ∈ [0x1001, 0x1002, 0x3002, 0x4002, 0x4004, 0x4006, 0x6002] then 4
  else 3

/-- A source of 15 R491: kind in bits [15:12], number in [11:0]. -/
def sourceOf (kind n : Nat) : Nat := kind * 4096 + n % 4096

/-- Slots of the record area (15 R495). -/
def eventSlots : Nat := 1048576

/-- Whether an event repeats the record of highest SEQ (15 R494). -/
def isRepeat (r : Event) (code src cycles : Nat) (payload : List Byte) : Bool :=
  r.code = code && r.severity = severityOf code payload && r.source = src && r.payload = fit 24 payload
    && r.cycles = cycles && r.repeats < 65535

/-- The recorder after one event: a repeat is merged, a full log drops it, any other takes the next SEQ (15 R493 to R496, R500). -/
def Events.add (e : Events) (opTime cycles code src : Nat) (payload : List Byte) : Events :=
  let merged := match e.recs.getLast? with
    | some r => if isRepeat r code src cycles payload then some r else none
    | none => none
  match merged with
  | some r =>
    { e with recs := e.recs.dropLast ++ [{ r with repeats := r.repeats + 1, lastTime := opTime, unstable := r.unstable || e.unstable }] }
  | none =>
    if eventSlots ≤ e.recs.length then { e with logFull := true, dropped := satAdd e.dropped 1 (2 ^ 32 - 1) }
    else
      let r : Event := ⟨e.nextSeq, opTime, cycles, severityOf code payload, code, src, 0, opTime, e.unstable, fit 24 payload⟩
      let raise := e.mark < e.nextSeq
      { e with
        recs := e.recs ++ [r]
        nextSeq := e.nextSeq + 1
        mark := if raise then e.mark + 4096 else e.mark
        durMark := if raise then e.mark + 4096 else e.durMark
        logFull := e.logFull || e.recs.length + 1 = eventSlots }

/-- The sequence number an event is recorded under: a repeat's record's, or the next; 0 where a full log drops it (12 R398; 15 R493, R494, R496). -/
def Events.seqOf (e : Events) (cycles code src : Nat) (payload : List Byte) : Nat :=
  match e.recs.getLast?.filter (fun r => isRepeat r code src cycles payload) with
  | some r => r.seq
  | none => if eventSlots ≤ e.recs.length then 0 else e.nextSeq

/-- Records one event (15 R493). -/
def State.record (s : State) (code src : Nat) (payload : List Byte) : State :=
  { s with events := s.events.add s.opTime s.power.cycles code src payload }

/-- Records the events of one step: those of one tick are numbered in ascending SOURCE and then CODE (15 R493; log entry 12). -/
def State.recordAll (s : State) (evs : List (Nat × Nat × List Byte)) : State :=
  (sortBy (fun a b => a.2.1 < b.2.1 || (a.2.1 = b.2.1 && a.1 < b.1)) evs).foldl (fun s e => s.record e.1 e.2.1 e.2.2) s

/-! ## Health counts. -/

/-- Adds to error count i, stopping at 2^64 − 1 (15 R503). -/
def State.count (s : State) (i n : Nat) : State :=
  { s with health := { s.health with counts := Tab.put s.health.counts i (satAdd (Tab.at s.health.counts i 0) n (2 ^ 64 - 1)) } }

/-- Pages programmed into any die add 16,384 bytes each (15 R502). -/
def State.pagesProgrammed (s : State) (n : Nat) : State :=
  { s with health := { s.health with flashBytes := s.health.flashBytes + 16384 * n } }

/-! ## Host memory: the two ports reach hosts of their own; an address of port B stands 2^64 above its value. -/

/-- Where a host address of a port stands in `hostMem`. -/
def hostKey (p : Port) (a : Nat) : Nat := p.num * 2 ^ 64 + a % 2 ^ 64

/-- A DMA read of n bytes (13 R408; log entry 13). -/
def State.hostRead (s : State) (p : Port) (a n : Nat) : List Byte := Mem.read 0 s.host.hostMem (hostKey p a) n

/-- A DMA write (13 R408). -/
def State.hostWrite (s : State) (p : Port) (a : Nat) (bs : List Byte) : State :=
  { s with host := { s.host with hostMem := Mem.write 0 s.host.hostMem (hostKey p a) bs } }

/-! ## Ports and rings. -/

/-- A port's state. -/
def State.port (s : State) : Port → PortState
  | .a => s.host.portA
  | .b => s.host.portB

/-- A port's state replaced. -/
def State.setPort (s : State) (p : Port) (x : PortState) : State :=
  match p with
  | .a => { s with host := { s.host with portA := x } }
  | .b => { s with host := { s.host with portB := x } }

/-- A port's state changed. -/
def State.modPort (s : State) (p : Port) (f : PortState → PortState) : State := s.setPort p (f (s.port p))

/-- A ring pair of a port, if it exists. -/
def State.ring? (s : State) (p : Port) (r : Nat) : Option Ring := Tab.find (s.port p).rings r

/-- A ring pair changed. -/
def State.modRing (s : State) (p : Port) (r : Nat) (f : Ring → Ring) : State :=
  s.modPort p (fun x => { x with rings := Tab.change x.rings r f })

/-- Whether a port is the Owner (12 R375). -/
def State.isOwner (s : State) (p : Port) : Bool := s.host.owner == p

/-! ## Commands. -/

/-- A field of a command's packet (12 R386). -/
def Cmd.field (c : Cmd) (off n : Nat) : Nat := fieldAt c.pkt off n
/-- The opcode. -/
def Cmd.opcode (c : Cmd) : Nat := c.field 0 2
/-- OBJECT. -/
def Cmd.object (c : Cmd) : Nat := c.field 8 8
/-- TAG. -/
def Cmd.tag (c : Cmd) : W32 := BitVec.ofNat 32 (c.field 4 4)
/-- FENCE (12 R386). -/
def Cmd.fence (c : Cmd) : Bool := bitOf (c.field 2 1) 0
/-- NO_IRQ (12 R386). -/
def Cmd.noIrq (c : Cmd) : Bool := bitOf (c.field 2 1) 1

/-- The order of 12 R599: by tick, then port, then ring 0 first, then the order fetched. -/
def Cmd.before (c d : Cmd) : Bool :=
  let k := fun (x : Cmd) => (x.fetched, x.port.num, (if x.ring = 0 then 0 else 1), x.ident)
  let a := k c
  let b := k d
  a.1 < b.1 || (a.1 = b.1 && (a.2.1 < b.2.1 || (a.2.1 = b.2.1 && (a.2.2.1 < b.2.2.1 || (a.2.2.1 = b.2.2.1 && a.2.2.2 < b.2.2.2)))))

/-- A command in progress. -/
def State.cmd? (s : State) (id : Nat) : Option Cmd := Tab.find s.host.cmds id

/-- A command in progress changed. -/
def State.modCmd (s : State) (id : Nat) (f : Cmd → Cmd) : State :=
  { s with host := { s.host with cmds := Tab.change s.host.cmds id f } }

/-- The commands in progress, in the order of 12 R599. -/
def State.cmdsInOrder (s : State) : List Cmd := sortBy Cmd.before (Tab.vals s.host.cmds)

/-- The completion of a command: its reply, 20 result bytes (12 R387, R389). -/
def Cmd.reply (c : Cmd) (st : Status) (flags : Nat) (result : List Byte) : Reply :=
  ⟨c.tag, flagged st flags, false, BitVec.ofNat 16 (if (flagged st flags).good then flags else 0), fit 20 result, c.noIrq, c.slot,
    BitVec.ofNat 16 c.opcode⟩

/-- A reply waits for its slot (12 R384). -/
def State.hold (s : State) (p : Port) (r : Nat) (x : Reply) : State :=
  s.modRing p r (fun g => { g with held := g.held ++ [x] })

/-- Revokes the grants of a command: its window space is free, and what still arrives for it is a stray push (12 R394). -/
def PortState.revoke (x : PortState) (which : PGrant → Bool) : PortState :=
  { x with grants := x.grants.filter (fun g => !which g), ended := x.ended ++ x.grants.filter which }

/-- A command has ended: stripes counted only for it in which no sector landed are released (02 R83). -/
def Media.endCmd (m : Media) (cmd : Nat) : Media :=
  { m with counted := (m.counted.map (fun c => { c with cmds := c.cmds.filter (· ≠ cmd) })).filter (fun c => c.landed || !c.cmds.isEmpty) }

/-- A command leaves the module: it is no longer in progress and its grants are revoked (12 R394). -/
def State.dropCmd (s : State) (id : Nat) : State :=
  match s.cmd? id with
  | none => s
  | some c =>
    let s := s.modPort c.port (fun x => x.revoke (fun g => g.cmd = id))
    { s with host := { s.host with cmds := Tab.del s.host.cmds id }, media := s.media.endCmd id }

/-- What a status leaves in a command's buffer before its reply: a SEARCH or SEARCH_SPAN that completes with a failing one leaves it undefined (09 R309). -/
def State.spoiled (s : State) (c : Cmd) (st : Status) : State :=
  if (c.opcode = 0x0401 ∨ c.opcode = 0x0402) ∧ st ≠ .success then (s.hostWrite c.port (c.field 0x18 8) (s.freeBytes (c.field 0x20 4))).spend (c.field 0x20 4) else s

/-- A command completes with a status, flags and result (12 R384, R387). CHECK_FAILED completions are counted (15 R503). -/
def State.completeWith (s : State) (id : Nat) (st : Status) (flags : Nat) (result : List Byte) : State :=
  match s.cmd? id with
  | none => s
  | some c =>
    let s := if st = .checkFailed then s.count 24 1 else s
    ((s.spoiled c st).dropCmd id).hold c.port c.ring (c.reply st flags result)

/-- A command completes with SUCCESS and a result. -/
def State.succeed (s : State) (id : Nat) (result : List Byte) : State := s.completeWith id .success 0 result

/-- A command completes with a failing status and no result. -/
def State.fail (s : State) (id : Nat) (st : Status) : State := s.completeWith id st 0 []

/-- Whether a command may start: the FENCE rules of 12 R386 hold for it. -/
def State.fenceOpen (s : State) (c : Cmd) : Bool :=
  (Tab.vals s.host.cmds).all (fun d =>
    !(d.port = c.port && d.ring = c.ring && d.before c && (c.fence || d.fence)))

/-- A reply's slot opcode for error entries: 20-byte results are built from fields placed at result offsets from 0x0C on. -/
def resultAt (fields : List (Nat × Nat × Nat)) : List Byte :=
  fields.foldl (fun acc f => acc.take (f.1 - 0x0C) ++ leBytes f.2.1 f.2.2 ++ acc.drop (f.1 - 0x0C + f.2.1)) (zeros 20)

/-- A block of n bytes with fields put at offsets: (offset, size, value). -/
def blockOf (n : Nat) (fields : List (Nat × Nat × Nat)) : List Byte :=
  fields.foldl (fun acc f => acc.take f.1 ++ leBytes f.2.1 f.2.2 ++ acc.drop (f.1 + f.2.1)) (zeros n)

/-- A block with bytes put at an offset. -/
def putAt (blk : List Byte) (off : Nat) (bs : List Byte) : List Byte := blk.take off ++ bs ++ blk.drop (off + bs.length)

/-- A block whose last four bytes become the CRC-32C of the rest (all the module's CRC'd structures end so). -/
def sealed (blk : List Byte) : List Byte := withCrc (blk.take (blk.length - 4))

end Sys2Proof.Machine
end

