-- ==== Sys2Proof/Machine/Alarms.lean ====
section
/-! DEFINITION. Interrupts (12 R385, 18 R574), ERR_SUMMARY and the leaky buckets (14 R466 to R469), retirement records of the Jig (14 R473, R481 to R483). -/

namespace Sys2Proof

/-- A region class's place in the table of 14 R467. -/
def RegionCls.idx : RegionCls → Nat
  | .bench => 0
  | .cache => 1
  | .sram => 2
  | .hbm => 3
  | .flash => 4
  | .path => 5
  | .tenon => 6
  | .pcie => 7

/-- Regions of a class (14 R467). -/
def RegionCls.regions : RegionCls → Nat
  | .bench => 48
  | .cache => 4
  | .sram => 5
  | .hbm => 512
  | .flash => 1024
  | .path => 4
  | .tenon => 4
  | .pcie => 2

/-- The SOURCE of a region's events (14 R467, 15 R491). -/
def RegionCls.source (k : RegionCls) (n : Nat) : Nat :=
  match k with
  | .bench => Machine.sourceOf 2 n
  | .cache => Machine.sourceOf 1 n
  | .sram => if n = 4 then Machine.sourceOf 0 0 else Machine.sourceOf 1 n
  | .hbm => Machine.sourceOf 6 (n / 32)
  | .flash => Machine.sourceOf 4 n
  | .path => Machine.sourceOf 1 n
  | .tenon => Machine.sourceOf 8 n
  | .pcie => Machine.sourceOf 7 n

/-- The health count of a class's correctable errors (15 R503). -/
def RegionCls.corrected : RegionCls → Nat
  | .bench => 0
  | .cache => 2
  | .sram => 4
  | .hbm => 6
  | .flash => 8
  | .path => 11
  | .tenon => 13
  | .pcie => 14

/-- Whether a transfer has failed its parity twice, and its request with it (14 R461). -/
def Parity.lost : Parity → Bool
  | .twice _ => true
  | _ => false

end Sys2Proof

namespace Sys2Proof.Machine

/-! ## MSI-X (18 R574). -/

/-- A vector's table entry; after reset every vector is masked with address and data zero. -/
def PortState.vector (x : PortState) (v : Nat) : MsixE := Tab.at x.msix v ⟨0#64, 0#32, true⟩

/-- Whether a vector cannot signal: it is masked, or all are, or the port may send no message (12 R372, R374; 18 R574; log entry 149). -/
def PortState.silent (x : PortState) (v : Nat) : Bool :=
  (x.vector v).masked || x.config.functionMask || !x.config.msixEnable || !x.config.busMaster

/-- A vector's condition arises: a message leaves, or while the vector is silent its pending bit is set (18 R574). -/
def State.signal (s : State) (p : Port) (v : Nat) : State :=
  if (s.port p).silent v then
    s.modPort p (fun x => { x with pending := if v ∈ x.pending then x.pending else v :: x.pending })
  else { s with host := { s.host with msgs := s.host.msgs ++ [(p, v)] } }

/-- Whether a port's admin ring exists: ADMIN_EN reads 1 (12 R380). -/
def PortState.adminEn (x : PortState) : Bool := Tab.has x.rings 0

/-! ## ERR_SUMMARY (14 R469). -/

/-- Sets bit i; a change from 0 to 1 with its enable set signals vector 0 of each port whose admin ring is enabled. -/
def State.setErr (s : State) (i : Nat) : State :=
  if s.integ.errSummary.getLsbD i then s
  else
    let s := { s with integ := { s.integ with errSummary := s.integ.errSummary ||| BitVec.ofNat 12 (2 ^ i) } }
    if s.integ.errIrqEn.getLsbD i then
      ([Port.a, Port.b] : List Port).foldl (fun s p => if (s.port p).adminEn then s.signal p 0 else s) s
    else s

/-! ## Leaky buckets. -/

/-- A region's key in the bucket tables. -/
def regionKey (k : RegionCls) (n : Nat) : Nat := k.idx * 1024 + n

/-- DEPTH of BUCKET_CONFIG (14 R469). -/
def State.depth (s : State) : Nat := bitsOf s.integ.bucketConfig.toNat 0 8
/-- LEAK_S of BUCKET_CONFIG (14 R469). -/
def State.leakS (s : State) : Nat := bitsOf s.integ.bucketConfig.toNat 8 12
/-- ADAPT_EN of PLANE_CONTROL (14 R464). -/
def State.adaptEn (s : State) : Bool := bitOf s.integ.planeControl.toNat 19

/-- A region's scrub divisor changes, with its event (14 R466). -/
def State.setDivisor (s : State) (k : RegionCls) (n a : Nat) : State :=
  if Tab.at s.integ.divisors (regionKey k n) 0 = a then s
  else
    let s := { s with integ := { s.integ with divisors := Tab.put s.integ.divisors (regionKey k n) a } }
    s.record 0x4003 (k.source n) (leBytes 1 k.idx ++ leBytes 2 n ++ leBytes 1 a)

/-- One correctable error of a region: counted, and an overflow halves the count, writes its event, sets the class's bit and raises the
scrub divisor (14 R466, R468). -/
def State.correctable (s : State) (k : RegionCls) (n : Nat) : State :=
  let s := s.count k.corrected 1
  let c := Tab.at s.integ.buckets (regionKey k n) 0
  if c < s.depth then { s with integ := { s.integ with buckets := Tab.put s.integ.buckets (regionKey k n) (c + 1) } }
  else
    let s := { s with integ := { s.integ with
      buckets := Tab.put s.integ.buckets (regionKey k n) (s.depth / 2)
      overflowed := if regionKey k n ∈ s.integ.overflowed then s.integ.overflowed else regionKey k n :: s.integ.overflowed } }
    let s := (s.record 0x4001 (k.source n) (leBytes 1 k.idx ++ leBytes 2 n ++ leBytes 1 s.depth)).count 16 1
    let s := s.setErr k.idx
    if s.adaptEn then s.setDivisor k n (min 3 (Tab.at s.integ.divisors (regionKey k n) 0 + 1)) else s

/-- A parity error of a transfer: the transfer is repeated, and counted in its quarter's bucket; a repeat that fails too is a failed transfer (14 R461, R467; 15 R503). -/
def State.pathError (s : State) : Parity → State
  | .good => s
  | .once q => s.correctable .path q.val
  | .twice q => (s.correctable .path q.val).count 12 1

/-! ## The Jig image (14 R473, R481 to R483). -/

/-- Whether a core is mapped in. -/
def State.coreIn (s : State) (c : Nat) : Bool := !(Tab.has s.integ.jig.cores c)
/-- Whether an engine, 8 × core + engine, is mapped in. -/
def State.engineIn (s : State) (e : Nat) : Bool := s.coreIn (e / 8) && !(Tab.has s.integ.jig.engines e)
/-- CORES_MAPPED (13 R414). -/
def State.coresMapped (s : State) : Nat := ((List.range 48).filter s.coreIn).length
/-- ENGINES_MAPPED (13 R414). -/
def State.enginesMapped (s : State) : Nat := ((List.range 384).filter s.engineIn).length
/-- Live strikes of an engine (14 R481). -/
def State.strikesOf (s : State) (e : Nat) : Nat := (s.integ.jig.strikes.filter (fun k => 8 * k.core + k.engine = e)).length

/-- A change to the Jig image (14 R483). -/
def State.jigChange (s : State) (f : Jig → Jig) : State :=
  { s with integ := { s.integ with jig := let j := f s.integ.jig
                                          { j with seq := j.seq + 1 } } }

/-- UNIT_RETIRED for a unit of R600, and RETIRED in ERR_SUMMARY (14 R482, 15 R492). -/
def State.retired (s : State) (unit inst cause src : Nat) : State :=
  (s.record 0x4006 src (leBytes 1 unit ++ leBytes 2 inst ++ leBytes 1 cause)).setErr 10

/-- An engine is retired: cause 1 Try-square, 2 three strikes (14 R473, R481, R483). -/
def State.retireEngine (s : State) (e cause : Nat) : State :=
  if Tab.has s.integ.jig.engines e then s
  else (s.jigChange (fun j => { j with engines := Tab.put j.engines e cause })).retired 0 e cause (sourceOf 3 e)

/-- A core is retired: cause 1 Try-square, 2 arbitration, 3 parity (14 R473, R480, R483). Its jobs are the caller's to restart. -/
def State.retireCore (s : State) (c cause : Nat) : State :=
  if Tab.has s.integ.jig.cores c then s
  else (s.jigChange (fun j => { j with cores := Tab.put j.cores c (cause, s.opTime) })).retired 1 c cause (sourceOf 2 c)

end Sys2Proof.Machine
end

