-- ==== Sys2Proof/Machine/DieArray.lean ====
section
/-! DEFINITION. One flash die: addresses, states, checks, the array's senses, programs and erases, suspension and the comparator (01).
Nothing here touches the rest of the module. Contents the manual leaves undefined are free values counted from `ctr` (log entry 3). -/

namespace Sys2Proof.Machine

/-! ## Timing (01 R11). -/

/-- tR (01 R11). -/
def senseTime : BMode → Nat
  | .slc => 18 * usUnits
  | .qlc => 55 * usUnits

/-- tPROG and tBERS (01 R11). -/
def opTime : OpKind → Nat
  | .slc => 110 * usUnits
  | .qlc => 2200 * usUnits
  | .erase _ => 4000 * usUnits

/-- Minimum run time between suspends (01 R11). -/
def minRun : OpKind → Nat
  | .erase _ => 500 * usUnits
  | _ => 200 * usUnits

/-- Suspends per operation (01 R11). -/
def maxSuspends : OpKind → Nat
  | .erase _ => 15
  | _ => 7

/-! ## Addresses (01 R10). -/

/-- Bytes of a page, data and spare (01 R9). -/
def pageBytes : Nat := 18432

/-- The row a 32-bit address names (01 R10). -/
def rowOf (w : W32) : Row := ⟨⟨bitsOf w.toNat 24 2, Nat.mod_lt _ (by decide)⟩, bitsOf w.toNat 12 12, bitsOf w.toNat 0 12⟩

/-- The reserved bits of a row address (01 R10). -/
def rowReserved (w : W32) : Nat := bitsOf w.toNat 26 6

/-- The number of a row's block within its die. -/
def Row.key (r : Row) : Nat := r.plane.val * 2112 + r.block

/-- Pages per block (01 R9). -/
def pagesOf : BMode → Nat
  | .slc => 1024
  | .qlc => 4096

/-- The guard's unit of a page: the page in pSLC, the wordline in QLC (01 R22). -/
def unitNo : BMode → Nat → Nat
  | .slc, p => p
  | .qlc, p => p / 4

/-- The number of a unit within its die. -/
def unitKey (key unit : Nat) : Nat := key * 1024 + unit

/-- Where a page's bytes begin in the die's cells. -/
def pageBase (key page : Nat) : Nat := (key * 4096 + page) * pageBytes

/-- A block's mode; after an interrupted erase it is undefined, so free (01 R9, R34). The manual does not say which mode the block of a
suspended erase has: it keeps its old mode until the erase completes (DESIGN CHOICE, log entry 64). -/
def Die.modeOf (d : Die) (ctr : Nat) (r : Row) : BMode :=
  if r.key ∈ d.undefModes then (if Config.freeBits (ctr + r.plane.val) 1 = 1#1 then .qlc else .slc)
  else if r.key ∈ d.qlc then .qlc else .slc

/-- A unit's program-started flag; after an interrupted erase it is undefined, so free (01 R21, R34). -/
def Die.startedAt (d : Die) (ctr key unit : Nat) : Bool :=
  if key ∈ d.undefModes then Config.freeBits (ctr + 4 + key / 2112 * 2 + unit % 2) 1 = 1#1 else unitKey key unit ∈ d.started

/-- The planes of a mask, in order. -/
def planesOf (mask : BitVec 4) : List PlaneNo := ([0, 1, 2, 3] : List PlaneNo).filter (fun p => mask.getLsbD p.val)

/-- The rows a multi-plane frame names. -/
def rowsOf (mask : BitVec 4) (rows : Rows) : List Row := (planesOf mask).map (fun p => rowOf (rows.get p))

/-- The address checks of R10 and R13 on a multi-plane frame. -/
def Die.addressOk (d : Die) (ctr : Nat) (mask : BitVec 4) (rows : Rows) : Bool :=
  mask ≠ 0#4
    && (planesOf mask).all (fun p => rowReserved (rows.get p) = 0 && (rowOf (rows.get p)).plane = p)
    && (rowsOf mask rows).all (fun r => r.block < 2112 && r.page < pagesOf (d.modeOf ctr r))
    && (match rowsOf mask rows with
        | [] => false
        | r :: rs => rs.all (fun q => q.page = r.page))

/-! ## States (01 R14). -/

/-- The rows of R14's table, and the reset under way (log entry 14). -/
inductive DieSt where
  | idle | sensing | ahead | operating | suspending | suspended | resetting
deriving DecidableEq, Repr

/-- Whether a scan's comparator still works. -/
def Die.scanning (d : Die) : Bool := match d.scanRun with
  | some r => r.ready
  | none => false

/-- The die's state (01 R14). -/
def Die.st (d : Die) : DieSt :=
  if d.resetDue.isSome then .resetting
  else match d.sense with
  | some x => if x.into then .ahead else .sensing
  | none =>
    if d.scanning then .sensing
    else match d.op with
    | none => .idle
    | some o => match o.st with
      | .running => .operating
      | .pending => .suspending
      | .latency _ _ => .suspending
      | .suspended => .suspended

/-- RDY (01 R14, R15). -/
def Die.rdy (d : Die) : Bool := d.st = .idle || d.st = .ahead || d.st = .suspended
/-- ARDY (01 R14, R15). -/
def Die.ardy (d : Die) : Bool := d.st = .idle || d.st = .suspended
/-- SUSP (01 R15). -/
def Die.susp (d : Die) : Bool := match d.op with
  | some o => o.st = .suspended
  | none => false
/-- SUSP_PEND, set by a SUSPEND that waits for the minimum run time and cleared as the operation is suspended or ends (01 R15, R29, R30). -/
def Die.suspPend (d : Die) : Bool := match d.op with
  | some o => (match o.st with
    | .pending => true
    | .latency _ pend => pend
    | _ => false)
  | none => false

/-- Commands beyond READ_STATUS and RESET, as R14 groups them. -/
inductive DieCmd where
  | dataOut | readNext | getFeature | suspend | writes | other
deriving DecidableEq, Repr

/-- Whether the die takes a command in its state (01 R14). RESUME while an operation runs, or while the array senses with nothing suspended, is
BUSY by R14's table although R14's sentence would also let it be NO_TARGET (DESIGN CHOICE, log entry 64). -/
def Die.takes (d : Die) (c : DieCmd) : Bool :=
  match d.st with
  | .idle => true
  | .suspended => c ≠ .writes
  | .sensing => false
  | .ahead => c = .dataOut || c = .readNext
  | .operating => c = .getFeature || c = .suspend
  | .suspending => c = .getFeature
  | .resetting => false

/-- A command's outcome in CODE, and the answer (01 R15, R16). -/
def Die.say (d : Die) (c : DieCode) : Die := { d with code := c, answer := c }

/-- The status register (01 R15). -/
def Die.status (d : Die) : BitVec 16 :=
  BitVec.ofNat 16 (bit d.rdy + 2 * bit d.ardy + 4 * bit d.fail + 8 * bit d.susp + 16 * bit d.suspPend + 256 * d.code.num)

/-! ## Sensing (01 R24, R25, R28, R32, R34). -/

/-- The units a program or erase in progress leaves undefined while it is suspended: (block, unit), every unit for an erase (01 R32, R33). -/
def DieOp.covers (o : DieOp) (r : Row) (m : BMode) : Bool :=
  o.rows.any (fun q => q.key = r.key && (match o.kind with
    | .erase _ => true
    | .slc => unitNo .slc q.page = unitNo m r.page
    | .qlc => unitNo .qlc q.page = unitNo m r.page))

/-- Whether what a sense of a page returns is undefined. -/
def Die.undefinedAt (d : Die) (r : Row) (m : BMode) : Bool :=
  r.key ∈ d.undefModes || unitKey r.key (unitNo m r.page) ∈ d.undef
    || (match d.op with
        | some o => o.covers r m
        | none => false)

/-- n free bytes as a page image. -/
def freePage (ctr : Nat) : Mem :=
  Mem.write 0xFF [] 0 ((List.range pageBytes).map (fun i => Config.freeBits (ctr + i) 8))

/-- The 18,432 bytes a sense of a page in a mode gives: the cells, or free bytes where they are undefined or the block's mode is the other one. -/
def Die.sensed (d : Die) (ctr : Nat) (r : Row) (m : BMode) : Mem :=
  if d.undefinedAt r m || d.modeOf ctr r ≠ m || pagesOf m ≤ r.page then freePage (ctr + 16 + r.plane.val * pageBytes)
  else (Mem.part d.cells (pageBase r.key r.page) pageBytes).map (fun c => (c.1 - pageBase r.key r.page, c.2))

/-- Raw bit errors: one bit of a plane's page flipped (01 R24, R42). -/
def flipBit (m : Mem) (i : Nat) : Mem := Mem.write 0xFF m (i / 8) [Mem.get 0xFF m (i / 8) ^^^ BitVec.ofNat 8 (2 ^ (i % 8))]

/-- The free values one sense may use. -/
def senseSpan : Nat := 16 + 4 * pageBytes

/-- The page registers after a sense of rows (into the page registers or the prefetch buffers). -/
def Die.sensedInto (d : Die) (ctr : Nat) (x : Sense) (flips : List (PlaneNo × Nat)) (into : Tab Mem) : Tab Mem :=
  x.rows.foldl (fun t r =>
    Tab.put t r.plane.val ((flips.filter (fun f => f.1 = r.plane)).foldl (fun m f => flipBit m (f.2 % (8 * pageBytes))) (d.sensed ctr r x.mode))) into

/-- A sense starts (01 R11). -/
def Die.startSense (d : Die) (now : Nat) (k : SenseKind) (rows : List Row) (m : BMode) (into : Bool) : Die :=
  { d with sense := some ⟨k, rows, m, into, now + senseTime m⟩ }

/-- The next page of the rows, if they are not the last of their block (01 R26). -/
def nextRows (m : BMode) (rows : List Row) : Option (List Row) :=
  if rows ≠ [] ∧ rows.all (fun r => r.page + 1 < pagesOf m) then some (rows.map (fun r => { r with page := r.page + 1 })) else none

/-- Exchanges the prefetch buffers of some planes for their page registers (01 R26). -/
def Die.exchange (d : Die) (rows : List Row) : Die :=
  rows.foldl (fun d r =>
    let k := r.plane.val
    { d with
      regs := (match Tab.find d.pre k with
        | some m => Tab.put d.regs k m
        | none => Tab.del d.regs k)
      pre := (match Tab.find d.regs k with
        | some m => Tab.put d.pre k m
        | none => Tab.del d.pre k) }) d

/-! ## The branch cache (01 R27, R28). -/

/-- A chain entry's row. -/
def chainRow (e : W32) : Row := rowOf (e.setWidth 26 |>.setWidth 32)

/-- A chain up to its end: the first entry with LAST, or the last loaded (01 R27). -/
def chainEnd : List W32 → List W32
  | [] => []
  | e :: es => if e.getLsbD 26 then [e] else e :: chainEnd es

/-- R10's checks on a chain entry at load (01 R27). -/
def Die.chainEntryOk (d : Die) (ctr : Nat) (e : W32) : Bool :=
  bitsOf e.toNat 27 5 = 0 && (chainRow e).block < 2112 && (chainRow e).page < pagesOf (d.modeOf ctr (chainRow e))

/-- How many entries of a list continue a step: distinct planes and one PAGE (01 R28). -/
def runLength (page : Nat) : List PlaneNo → List Row → Nat
  | _, [] => 0
  | seen, r :: rs => if r.page = page ∧ r.plane ∉ seen then runLength page (r.plane :: seen) rs + 1 else 0

/-- The chain entries of the step that starts at an entry (01 R28). -/
def chainStep (chain : List W32) (i : Nat) : List Nat :=
  match (chain.drop i).map chainRow with
  | [] => []
  | r :: rs => (List.range (runLength r.page [r.plane] rs + 1)).map (· + i)

/-- The rows of some chain entries. -/
def chainRows (chain : List W32) (idx : List Nat) : List Row := idx.map (fun i => chainRow (chain.getD i 0))

/-- Whether a step holds a block not in the command's mode (01 R28). -/
def Die.stepMismatch (d : Die) (ctr : Nat) (rows : List Row) (m : BMode) : Bool := rows.any (fun r => d.modeOf ctr r ≠ m)

/-- A chain walk goes on: the step after the one just made current starts into the prefetch buffers (01 R28). -/
def Die.walkOn (d : Die) (now : Nat) : Die :=
  match d.walk with
  | none => d
  | some (i, m) =>
    match chainStep d.chain i with
    | [] => { d with walk := none }
    | idx => { d.startSense now .chain (chainRows d.chain idx) m true with walk := some (i + idx.length, m) }

/-! ## The comparator (01 R37 to R46). -/

/-- Majority vote, bit by bit (01 R38). -/
def vote (a b c : BitVec 16) : BitVec 16 := (a &&& b) ||| (a &&& c) ||| (b &&& c)

/-- A 16-bit value of a page. -/
def half (m : Mem) (a : Nat) : BitVec 16 := BitVec.ofNat 16 (leNat (Mem.read 0xFF m a 2))

/-- The voted COUNT of a sketch page (01 R37, R38). -/
def votedCount (m : Mem) : Nat := (vote (half m 16384) (half m 16386) (half m 16388)).toNat

/-- The voted WIDTH code of a sketch page (01 R37, R38). -/
def votedWidth (m : Mem) : Nat :=
  (vote ((Mem.get 0xFF m 16390).setWidth 16) ((Mem.get 0xFF m 16391).setWidth 16) ((Mem.get 0xFF m 16392).setWidth 16)).toNat

/-- Bits of a sketch. -/
def sketchBits (wide : Bool) : Nat := if wide then 512 else 256

/-- Set bits among the low w of a number. -/
def popCount (w x : Nat) : Nat := ((List.range w).filter (bitOf x)).length

/-- Bit positions where two sketches are equal (01 R41). -/
def agreement (w : Nat) (x y : BitVec 512) : Nat := w - popCount w (x ^^^ y).toNat

/-- Slots a page holds (01 R37). -/
def slotsOf (wide : Bool) : Nat := if wide then 256 else 512

/-- The sketch in a slot of a page (01 R37). -/
def sketchAt (m : Mem) (wide : Bool) (i : Nat) : BitVec 512 :=
  BitVec.ofNat 512 (leNat (Mem.read 0xFF m (i * (sketchBits wide / 8)) (sketchBits wide / 8)))

/-- A kept list with one more compared sketch: the 16 of highest agreement, earlier first among equals (01 R43). -/
def keepBest (l : List Kept) (k : Kept) : List Kept := (insertBy (fun a b => b.agree < a.agree) k l).take 16

/-- One sketch compared against every selected slot (01 R41, R43). -/
def ScanRun.compareOne (r : ScanRun) (qs : Tab QSlot) (w chain slot : Nat) (x : BitVec 512) : ScanRun :=
  { r with
    compared := r.compared + 1
    lists := qs.foldl (fun t q => Tab.put t q.1 (keepBest (Tab.at t q.1 []) ⟨agreement w x q.2.bits, slot, chain⟩)) r.lists }

/-- One page of a step: skipped, or compared slot by slot (01 R38, R41). -/
def ScanRun.page (r : ScanRun) (qs : Tab QSlot) (wide mismatch : Bool) (chain : Nat) (m : Mem) : ScanRun :=
  if mismatch then { r with skipped := r.skipped + 1, mismatch := true }
  else if votedWidth m ≠ bit wide ∨ slotsOf wide < votedCount m then { r with skipped := r.skipped + 1 }
  else
    let allow := leNat (r.allow.getD chain [])
    (List.range (votedCount m)).foldl
      (fun r i => if bitOf allow i then r.compareOne qs (sketchBits wide) chain i (sketchAt m wide i) else r)
      { r with scanned := r.scanned + 1 }

/-- The selected query slots of a scan. -/
def Die.selected (d : Die) (mask : BitVec 8) : Tab QSlot := d.queries.filter (fun q => mask.getLsbD q.1)

/-- The scan's width: that of its selected slots. -/
def wideOf (qs : Tab QSlot) : Bool := match qs with
  | [] => false
  | q :: _ => q.2.wide

/-- A list entry of the result block (01 R46). -/
def Kept.word (k : Kept) : Nat := k.agree + k.slot * 2 ^ 10 + k.chain * 2 ^ 19 + 2 ^ 31

/-- The result block (01 R45). -/
def ScanRun.block (r : ScanRun) : List Byte :=
  leBytes 1 (if r.mismatch then DieCode.modeMismatch.num else 0) ++ leBytes 1 r.mask.toNat ++ leBytes 2 r.scanned ++ leBytes 2 r.skipped
    ++ zeros 2 ++ leBytes 4 r.compared ++ zeros 20
    ++ (List.range 8).flatMap (fun q => fit 64 ((Tab.at r.lists q []).flatMap (fun k => leBytes 4 k.word)))

/-- The comparator takes the step whose sensing has ended; after the last step the result block stands (01 R41 to R46). -/
def Die.compare (d : Die) (ctr : Nat) : Die :=
  match d.scanRun with
  | none => d
  | some r =>
    if !r.ready then d
    else
      let qs := d.selected r.mask
      let r := r.step.foldl (fun r i =>
        let row := chainRow (d.chain.getD i 0)
        r.page qs (wideOf qs) (d.modeOf ctr row ≠ .slc) i (Tab.at d.regs row.plane.val [])) r
      let r := { r with ready := false, step := [] }
      if d.sense.isNone then
        { ({ d with scanRun := some r, result := r.block }).say (if r.mismatch then .modeMismatch else .ok) with scanRun := none }
      else { d with scanRun := some r }

/-- The next scan step starts to be sensed, if one is left (01 R41). -/
def Die.scanOn (d : Die) (now : Nat) : Die :=
  match d.scanRun with
  | none => d
  | some r =>
    match chainStep d.chain r.next with
    | [] => d
    | idx => { d.startSense now .scan (chainRows d.chain idx) .slc false with scanRun := some { r with next := r.next + idx.length } }

/-! ## A sense ends (01 R25, R26, R28, R41). -/

/-- Into the page registers or the prefetch buffers, with the raw bit errors the array shows. -/
def Die.senseDone (d : Die) (ctr now : Nat) (flips : List (PlaneNo × Nat)) : Die :=
  match d.sense with
  | none => d
  | some x =>
    let d := if x.kind = .scan then d.compare ctr else d
    let bad := x.kind = .chain && d.stepMismatch ctr x.rows x.mode
    let code : DieCode := if bad then .modeMismatch else .ok
    if x.into then
      ({ d with pre := d.sensedInto ctr x flips d.pre, preReady := true, sense := none,
                curRows := if x.kind = SenseKind.chain then x.rows else d.curRows }).say code
    else
      let d := { d with regs := d.sensedInto ctr x flips d.regs, sense := none }
      match x.kind with
      | .page =>
        let d := ({ d with curRows := x.rows, preReady := false }).say code
        if d.preOn then
          match nextRows x.mode x.rows with
          | some rs => d.startSense now .prefetched rs x.mode true
          | none => d
        else d
      | .prefetched =>
        let d := ({ d with curRows := x.rows, preReady := false }).say code
        match nextRows x.mode x.rows with
        | some rs => d.startSense now .prefetched rs x.mode true
        | none => d
      | .chain => (({ d with curRows := x.rows, preReady := false }).say code).walkOn now
      | .scan =>
        let step := match d.scanRun with
          | some r => (List.range r.next).drop (r.next - x.rows.length)
          | none => []
        let d := { d with scanRun := d.scanRun.map (fun (r : ScanRun) => { r with ready := true, step := step }) }
        d.scanOn now

/-! ## Program and erase (01 R19 to R23). -/

/-- The guard's refusal on one row: its flag is set, or the unit before it is not started (01 R22). -/
def Die.orderBad (d : Die) (ctr : Nat) (m : BMode) (r : Row) : Bool :=
  let u := unitNo m r.page
  d.startedAt ctr r.key u || (u ≠ 0 && !d.startedAt ctr r.key (u - 1))

/-- What refuses a program, if anything: address, mode, wordline, then the guard, before any cell moves (01 R13, R20, R22). -/
def Die.programRefusal (d : Die) (ctr : Nat) (m : BMode) (mask : BitVec 4) (rows : Rows) : Option DieCode :=
  if !d.addressOk ctr mask rows then some .addressInvalid
  else if (rowsOf mask rows).any (fun r => d.modeOf ctr r ≠ m) then some .modeMismatch
  else if m = .qlc ∧ (rowsOf mask rows).any (fun r => r.page % 4 ≠ 0) then some .addressInvalid
  else if (rowsOf mask rows).any (d.orderBad ctr m) then some .programOrder
  else none

/-- A program or erase starts; a program first sets its units' flags (01 R21). -/
def Die.startOp (d : Die) (now : Nat) (k : OpKind) (rows : List Row) (data : List (List Byte)) (pp : ProgPurpose) (ep : ErasePurpose) : Die :=
  { d with
    op := some ⟨k, rows, data, pp, ep, opTime k, 0, now, 0, .running⟩
    started := match k with
      | .erase _ => d.started
      | .slc => d.started ++ (rows.map (fun r => unitKey r.key (unitNo .slc r.page))).filter (fun u => u ∉ d.started)
      | .qlc => d.started ++ (rows.map (fun r => unitKey r.key (unitNo .qlc r.page))).filter (fun u => u ∉ d.started) }

/-- The cells after a program of pages from a row's page on. -/
def programCells (cells : Mem) (r : Row) (data : List Byte) : Mem := Mem.write 0xFF cells (pageBase r.key r.page) data

/-- One block erased and set to a mode (01 R19, R21). -/
def Die.eraseBlock (m : BMode) (d : Die) (r : Row) : Die :=
  let k := r.key
  { d with
    cells := Mem.clear d.cells (pageBase k 0) (4096 * pageBytes)
    started := d.started.filter (fun u => u / 1024 ≠ k)
    undef := d.undef.filter (fun u => u / 1024 ≠ k)
    undefModes := d.undefModes.filter (· ≠ k)
    qlc := match m with
      | .qlc => if k ∈ d.qlc then d.qlc else k :: d.qlc
      | .slc => d.qlc.filter (· ≠ k) }

/-- An operation's units become undefined: after a failure, or when it is interrupted (01 R23, R33, R34). -/
def Die.spoil (d : Die) (o : DieOp) : Die :=
  match o.kind with
  | .erase _ => { d with undefModes := d.undefModes ++ (o.rows.map Row.key).filter (fun k => k ∉ d.undefModes) }
  | .slc => { d with undef := d.undef ++ (o.rows.map (fun r => unitKey r.key (unitNo .slc r.page))).filter (fun u => u ∉ d.undef) }
  | .qlc => { d with undef := d.undef ++ (o.rows.map (fun r => unitKey r.key (unitNo .qlc r.page))).filter (fun u => u ∉ d.undef) }

/-- A program or erase ends with its outcome (01 R23, R30). A plane's row takes the data of its own plane (01 R12, R20). After a failure the units of
every plane of the mask are undefined, since the manual does not say which plane failed (DESIGN CHOICE, log entry 64). -/
def Die.opDone (d : Die) (o : DieOp) (ok : Bool) : Die :=
  let d := { d with op := none }
  match ok, o.kind with
  | true, .erase m => { (o.rows.foldl (Die.eraseBlock m) d).say .ok with fail := false }
  | true, _ =>
    { ({ d with cells := o.rows.foldl (fun (c : Mem) (r : Row) => programCells c r (o.data.getD r.plane.val [])) d.cells }).say .ok with fail := false }
  | false, .erase _ => { (d.spoil o).say .eraseFail with fail := true }
  | false, _ => { (d.spoil o).say .programFail with fail := true }

/-- When the operation in progress ends if it is left to run (01 R11, R31). -/
def DieOp.due (o : DieOp) : Nat := o.since + (o.needed - o.ran)

/-! ## Suspension (01 R29 to R31). -/

/-- Suspension starts, at once or after a wait: run time stops, and 20 µs of latency begin (01 R11, R29). -/
def DieOp.beginSuspend (o : DieOp) (now : Nat) (pend : Bool) : DieOp :=
  { o with ran := o.ran + (now - o.since), st := .latency (now + 20 * usUnits) pend }

/-- SUSPEND of a running operation: at the limit the operation runs on; else suspension starts, or waits for the minimum run time (01 R29). -/
def Die.suspendOp (d : Die) (now : Nat) : Die :=
  match d.op with
  | some o =>
    if o.st ≠ .running then d.say .noTarget
    else if maxSuspends o.kind ≤ o.used then d.say .suspendLimit
    else if minRun o.kind ≤ now - o.since then ({ d with op := some (o.beginSuspend now false) }).say .ok
    else ({ d with op := some { o with st := .pending } }).say .ok
  | none => d.say .noTarget

/-- RESUME of a suspended operation: it continues at once, with 10 µs added (01 R31). -/
def Die.resumeOp (d : Die) (now : Nat) : Die :=
  match d.op with
  | some o =>
    if o.st = .suspended then ({ d with op := some { o with st := .running, since := now, needed := o.needed + 10 * usUnits } }).say .ok
    else d.say .noTarget
  | none => d.say .noTarget

/-! ## Features (01 R17). -/

/-- A plane's 16-byte feature value from a table of offsets of n bytes. -/
def offsetValue (t : Tab (List Byte)) (n plane : Nat) : List Byte := fit 16 (fit n (Tab.at t plane []))

/-- GET_FEATURE: the value, or none where the address is reserved. -/
def Die.feature (d : Die) (a : Nat) : Option (List Byte) :=
  if a = 1 then some (offsetValue d.qlcOffs 15 0)
  else if a = 2 then some (offsetValue d.slcOffs 1 0)
  else if a = 3 then some (fit 16 (leBytes 2 d.temp.toNat))
  else if a = 4 then some (fit 16 (leBytes 1 (match d.op with
    | some o => o.used
    | none => 0)))
  else if 0x10 ≤ a ∧ a ≤ 0x13 then some (offsetValue d.qlcOffs 15 (a - 0x10))
  else if 0x14 ≤ a ∧ a ≤ 0x17 then some (offsetValue d.slcOffs 1 (a - 0x14))
  else none

/-- SET_FEATURE: read offsets of every plane, of one plane, or ADDRESS_INVALID (01 R17). -/
def Die.setFeature (d : Die) (a : Nat) (data : List Byte) : Die :=
  let all := fun n => (List.range 4).map (fun p => (p, data.take n))
  if a = 1 then ({ d with qlcOffs := all 15 }).say .ok
  else if a = 2 then ({ d with slcOffs := all 1 }).say .ok
  else if 0x10 ≤ a ∧ a ≤ 0x13 then ({ d with qlcOffs := Tab.put d.qlcOffs (a - 0x10) (data.take 15) }).say .ok
  else if 0x14 ≤ a ∧ a ≤ 0x17 then ({ d with slcOffs := Tab.put d.slcOffs (a - 0x14) (data.take 1) }).say .ok
  else d.say .addressInvalid

/-! ## Reset and loss of power (01 R34 to R36). -/

/-- What RESET and a loss of die power clear; an operation in progress is interrupted and its unit becomes undefined. A reset under way ends. -/
def Die.cleared (d : Die) : Die :=
  let d := match d.op with
    | some o => d.spoil o
    | none => d
  { d with
    op := none, sense := none, resetDue := none, regs := [], pre := [], preOn := false, preReady := false, curRows := [], chain := [], walk := none
    queries := [], scanRun := none, result := [], qlcOffs := [], slcOffs := [], fail := false, code := .ok, answer := .ok, out := [] }

end Sys2Proof.Machine
end

