-- ==== Sys2Proof/Machine/Cipher.lean ====
section
/-! DEFINITION. AES-256 in XTS mode, with which sectors and system pages are encrypted (02 R85). The manual names the standards, FIPS 197 and IEEE 1619, and does not
repeat them (log entry 5). -/

namespace Sys2Proof.Machine

/-! ## The field of FIPS 197. -/

/-- Twice an element. -/
def gfDouble (a : Byte) : Byte := if a.getLsbD 7 then (a <<< 1) ^^^ 0x1B#8 else a <<< 1

/-- A product, one bit of the second factor at a time. -/
def gfMul (a b : Byte) : Byte :=
  ((List.range 8).foldl (fun (r : Byte × Byte) i => (if b.getLsbD i then r.1 ^^^ r.2 else r.1, gfDouble r.2)) (0#8, a)).1

/-- The inverse, a to the 254th; that of 0 is 0. -/
def gfInverse (a : Byte) : Byte :=
  let square := fun (x : Byte) => gfMul x x
  ((List.range 6).foldl (fun (r : Byte × Byte) _ => (gfMul r.1 (square r.2), square r.2)) (square a, square a)).1

/-- The byte substitution and the one that undoes it. -/
def aesSub (a : Byte) : Byte :=
  let x := gfInverse a
  x ^^^ x.rotateLeft 1 ^^^ x.rotateLeft 2 ^^^ x.rotateLeft 3 ^^^ x.rotateLeft 4 ^^^ 0x63#8
def aesUnsub (b : Byte) : Byte := gfInverse (b.rotateLeft 1 ^^^ b.rotateLeft 3 ^^^ b.rotateLeft 6 ^^^ 0x05#8)

/-! ## One block of 16 bytes, a column of four bytes after the other. -/

/-- Bytes exclusive-ored one by one. -/
def xorBytes (a b : List Byte) : List Byte := a.zipWith (· ^^^ ·) b

/-- Row r moved left by r columns, or back. -/
def shiftRows (l : List Byte) : List Byte := (List.range 16).map (fun k => l.getD (k % 4 + 4 * ((k / 4 + k % 4) % 4)) 0#8)
def unshiftRows (l : List Byte) : List Byte := (List.range 16).map (fun k => l.getD (k % 4 + 4 * ((k / 4 + 4 - k % 4) % 4)) 0#8)

/-- Each column multiplied by the circulant matrix whose first row is given. -/
def mixColumns (row : List Byte) (l : List Byte) : List Byte :=
  (chunksOf 4 l).flatMap (fun c => (List.range 4).map (fun r =>
    (List.range 4).foldl (fun acc k => acc ^^^ gfMul (row.getD ((k + 4 - r) % 4) 0#8) (c.getD k 0#8)) 0#8))

/-- The key schedule: 60 words of four bytes, the newest last. -/
def aesWords (key : List Byte) : List (List Byte) :=
  (List.range 52).foldl (fun (ws : List (List Byte)) j =>
    let i := j + 8
    let last := ws.getD (i - 1) []
    let t :=
      if i % 8 = 0 then xorBytes ((last.rotateLeft 1).map aesSub) [(List.range (i / 8 - 1)).foldl (fun (x : Byte) _ => gfDouble x) 1#8, 0#8, 0#8, 0#8]
      else if i % 8 = 4 then last.map aesSub
      else last
    ws ++ [xorBytes (ws.getD (i - 8) []) t]) (chunksOf 4 (fit 32 key))

/-- The 15 round keys of a key. -/
def aesKeys (key : List Byte) : List (List Byte) := (chunksOf 4 (aesWords key)).map List.flatten

/-- A block encrypted under round keys. -/
def aesEncrypt (ks : List (List Byte)) (b : List Byte) : List Byte :=
  let rounds := (List.range 13).foldl (fun (x : List Byte) i => xorBytes (mixColumns [2#8, 3#8, 1#8, 1#8] (shiftRows (x.map aesSub))) (ks.getD (i + 1) []))
    (xorBytes b (ks.getD 0 []))
  xorBytes (shiftRows (rounds.map aesSub)) (ks.getD 14 [])

/-- A block decrypted under round keys. -/
def aesDecrypt (ks : List (List Byte)) (b : List Byte) : List Byte :=
  let start := (unshiftRows (xorBytes b (ks.getD 14 []))).map aesUnsub
  let rounds := (List.range 13).foldl (fun (x : List Byte) i =>
    (unshiftRows (mixColumns [14#8, 11#8, 13#8, 9#8] (xorBytes x (ks.getD (13 - i) [])))).map aesUnsub) start
  xorBytes rounds (ks.getD 0 [])

/-! ## XTS: a data unit under a key of two halves, with its number as tweak (02 R85). -/

/-- The tweak of the next block: twice this one in the field of IEEE 1619. -/
def xtsNext (t : Nat) : Nat := (2 * t % 2 ^ 128).xor (if bitOf t 127 then 0x87 else 0)

/-- A data unit of whole blocks, through a block cipher under the key's first half. -/
def xtsUnit (block : List (List Byte) → List Byte → List Byte) (key : List Byte) (number : Nat) (data : List Byte) : List Byte :=
  let k1 := aesKeys (key.take 32)
  let t := leNat (aesEncrypt (aesKeys (key.drop 32)) (leBytes 16 number))
  ((chunksOf 16 data).foldl (fun (r : List (List Byte) × Nat) b =>
    let mask := leBytes 16 r.2
    (xorBytes (block k1 (xorBytes b mask)) mask :: r.1, xtsNext r.2)) (([] : List (List Byte)), t)).1.reverse.flatten

/-- A data unit encrypted and decrypted. -/
def xtsEncrypt (key : List Byte) (number : Nat) (data : List Byte) : List Byte := xtsUnit aesEncrypt key number data
def xtsDecrypt (key : List Byte) (number : Nat) (data : List Byte) : List Byte := xtsUnit aesDecrypt key number data

end Sys2Proof.Machine
end

