-- ==== Sys2Proof/Machine/Pages.lean ====
section
/-! DEFINITION. The pages media management writes: headers, slot words, summaries, journal and checkpoint pages, and the encryption of sectors and system pages
(01 R37; 02 R52, R55, R56, R62, R66, R67, R69, R85). -/

namespace Sys2Proof.Machine

/-! ## Headers (02 R55, R56). -/

/-- Page kinds (02 R56). -/
inductive PageKind where
  | stripeData | parity | veneer | log | summary | sketch | journal | checkpoint
deriving DecidableEq, Repr

/-- The code of 02 R56. -/
def PageKind.num : PageKind → Nat
  | .stripeData => 1
  | .parity => 2
  | .veneer => 3
  | .log => 4
  | .summary => 5
  | .sketch => 6
  | .journal => 7
  | .checkpoint => 8

/-- The 64-byte header of a page, from its kind-specific bytes (02 R55). -/
def pageHeader (special : List Byte) (k : PageKind) (owner lstripe : Nat) : List Byte :=
  withCrc (fit 48 special ++ leBytes 1 k.num ++ leBytes 1 owner ++ zeros 2 ++ leBytes 4 (lstripe % 2 ^ 19) ++ zeros 4)

/-- Whether a header passes its HCRC (02 R55). -/
def headerOk (h : List Byte) : Bool := h.length = 64 && fieldAt h 0x3C 4 = (crc32c (h.take 60)).toNat

/-- A page as it is programmed: 16 KiB of data, the header, and LDPC parity over both (02 R55). -/
def pageImage (area header : List Byte) : List Byte :=
  fit 16384 area ++ header ++ fit 1984 (Config.ldpcParity (fit 16384 area ++ header))

/-- The header of a system page or of a veneer or log stripe's parity page, which belongs to no owner (log entry 77). -/
def plainHeader (special : List Byte) (k : PageKind) : List Byte := pageHeader special k 0 0

/-! ## Slot words and summaries (02 R56, R62). -/

/-- A slot word: the offset within the logical stripe, ZERO, and VALID set. -/
def slotWord (offset : Nat) (zero : Bool) : Nat := offset % 2 ^ 18 + bit zero * 2 ^ 29 + 2 ^ 30

/-- A slot word as a summary packs it: the offset, ZERO and VALID in the low 20 bits (02 R62). -/
def packedWord (w : Nat) : Nat := w % 2 ^ 18 + bit (bitOf w 29) * 2 ^ 18 + bit (bitOf w 30) * 2 ^ 19

/-- The header of a veneer or log page: SEQ and the four slot words; a slot without a sector has a word of zeros. -/
def slotHeader (k : PageKind) (seq : Nat) (owner lstripe : Nat) (words : List Nat) : List Byte :=
  pageHeader (leBytes 8 seq ++ (List.range 4).flatMap (fun i => leBytes 4 (words.getD i 0))) k owner lstripe

/-- The data area of a summary: SEQ of page 0 in 8 bytes and the number of entries in 4, then an entry for each page (02 R62; log entry 77). -/
def summaryArea (seq : Nat) (entries : List (Nat × List Nat)) : List Byte :=
  leBytes 8 seq ++ leBytes 4 entries.length ++ zeros 4
    ++ entries.flatMap (fun e => leBytes 4 e.1 ++ (List.range 4).flatMap (fun i => leBytes 3 (packedWord (e.2.getD i 0))))

/-! ## Sectors (02 R85). -/

/-- The 4,096 bytes a copy holds in flash: a deallocated sector as zeros, encrypted under the owner's key where it has one. -/
def SecCopy.sealed (c : SecCopy) : List Byte :=
  let plain := if c.zero then zeros 4096 else Mem.read 0 c.data 0 4096
  match c.key with
  | some k => xtsEncrypt (fit 64 (Config.mediaKey k)) c.sector plain
  | none => plain

/-- The bytes a copy reads as under a key: its own data under its own key (02 R85, R87). -/
def SecCopy.opened (c : SecCopy) (key : Option Nat) : List Byte :=
  if c.key = key then Mem.read 0 c.data 0 4096
  else
    match key with
    | some k => xtsDecrypt (fit 64 (Config.mediaKey k)) c.sector c.sealed
    | none => c.sealed

/-! ## System pages (02 R66, R69, R85). -/

/-- A physical page address as one number: die, plane, block and page (log entry 77). -/
def pageAddress (die : Nat) (r : Row) : Nat := die * 2 ^ 32 + r.plane.val * 2 ^ 24 + r.block * 2 ^ 12 + r.page

/-- The data area of a system page under the system key, with the page's address as tweak (02 R85). -/
def systemArea (die : Nat) (r : Row) (area : List Byte) : List Byte := xtsEncrypt (fit 64 Config.systemKey) (pageAddress die r) (fit 16384 area)

/-- A journal record's 32 bytes (02 R66). -/
def JRecord.bytes (r : JRecord) : List Byte :=
  withCrc (leBytes 8 r.seq ++ leBytes 2 r.type.num ++ zeros 2 ++ leBytes 4 r.lstripe ++ leBytes 8 r.new ++ leBytes 4 r.aux)

/-- A journal page (02 R56, R66). -/
def JPage.image (p : JPage) (die : Nat) (r : Row) : List Byte :=
  pageImage (systemArea die r (p.recs.flatMap JRecord.bytes)) (plainHeader (leBytes 8 ((p.recs.head?.map (·.seq)).getD 0)) .journal)

/-- A checkpoint's tables in turn: the map's 3,814,704 bytes, each owner's directory, the substitution table and the log pool table (02 R53, R69; log entry 77). -/
def Tables.bytes (t : Tables) (word : Nat → MapEntry → Nat) : List Byte :=
  let dir := fun (o : Nat) =>
    let mine := t.map.filter (fun e => e.2.owner = o)
    let n := (mine.map (fun e => e.2.ostripe + 1)).foldl max 0
    leBytes 4 n ++ (List.range n).flatMap (fun i => leBytes 4 (((mine.find? (fun e => e.2.ostripe = i)).map (·.1)).getD 0xFFFFFFFF))
  (List.range 476838).flatMap (fun l => leBytes 8 (((Tab.find t.map l).map (word l)).getD 0))
    ++ (List.range 20).flatMap dir
    ++ leBytes 4 t.subst.length ++ t.subst.flatMap (fun x => leBytes 4 (x.1 + x.2.1 * 2 ^ 20) ++ leBytes 4 (x.2.2.1 + x.2.2.2 * 16))
    ++ (List.range 2048).flatMap (fun k => match Tab.find t.logs k with
      | some (l, q) => leBytes 4 l ++ leBytes 8 q
      | none => leBytes 4 0xFFFFFFFF ++ leBytes 8 0)

/-- One page of a checkpoint (02 R56, R69). -/
def checkpointImage (num : Nat) (bytes : List Byte) (i die : Nat) (r : Row) : List Byte :=
  pageImage (systemArea die r ((bytes.drop (16384 * i)).take 16384)) (plainHeader (leBytes 8 num) .checkpoint)

/-- One copy of the security block, on a page of its own (17 R540; log entry 77). -/
def securityImage (seq die : Nat) (r : Row) : List Byte := pageImage (systemArea die r (fit 4096 (Config.securityBytes seq))) (zeros 64)

/-! ## Sketch pages (01 R37, 02 R86). -/

/-- The header of a sketch page: COUNT and WIDTH in three copies each, then R55's fields (01 R37). -/
def sketchHeader (count : Nat) (wide : Bool) (lstripe : Nat) : List Byte :=
  pageHeader (leBytes 2 count ++ leBytes 2 count ++ leBytes 2 count ++ leBytes 1 (bit wide) ++ leBytes 1 (bit wide) ++ leBytes 1 (bit wide)) .sketch 17 lstripe

/-- A sketch page: sketches in slot order, each under the area's mask, and the header (01 R37, 02 R86). -/
def sketchImage (wide : Bool) (mask : BitVec 512) (sketches : List (BitVec 512)) (lstripe : Nat) : List Byte :=
  pageImage (sketches.flatMap (fun x => leBytes (if wide then 64 else 32) (x ^^^ mask).toNat)) (sketchHeader sketches.length wide lstripe)

end Sys2Proof.Machine
end

