-- ==== Sys2Proof/Machine/MediaOps.lean ====
section
/-! DEFINITION. Media management's operations: stripes and the map, the newest copy of a sector, the veneer, the budget, the journal, spares,
retirement and the uncorrectable list (02, 15 R506). -/

namespace Sys2Proof.Machine

/-- Media management changed. -/
def State.modMedia (s : State) (f : Media → Media) : State := { s with media := f s.media }

/-- POLICY_ACTED (15 R492, 16 R533). -/
def State.policyActed (s : State) (policy old new : Nat) : State :=
  s.record 0x5002 (sourceOf 0 0) (leBytes 2 policy ++ leBytes 8 old ++ leBytes 8 new)

/-! ## Stripes (02 R49 to R53). -/

/-- Logical stripes the budget allows (02 R49). -/
def stripesMax : Nat := 476838

/-- Sectors of an owner's logical stripe: 61,440 in the sketch area's pSLC, else 245,760 (01 R37; 02 R49, R52). -/
def stripeSectors (o : Owner) : Nat := if o = 17 then 61440 else 245760

/-- A map entry as R53 lays it out, with its log blocks. -/
def MapEntry.word (e : MapEntry) (head count : Nat) : Nat :=
  e.pstripe + 2 ^ 20 + bit e.slc * 2 ^ 21 + bit e.rebuild * 2 ^ 22 + head * 2 ^ 24 + count * 2 ^ 35 + e.owner * 2 ^ 40 + e.ostripe * 2 ^ 45

/-- The entry a map word holds (02 R53). -/
def mapEntryOf (w : Nat) : MapEntry := ⟨bitsOf w 0 20, bitOf w 21, bitOf w 22, bitsOf w 40 5, bitsOf w 45 19⟩

/-- The physical stripe and member a plane-block belongs to, unless a substitution moved it (02 R50, R51). -/
def memberOf (die : Nat) (r : Row) : Nat × Nat :=
  let ch := die / 16
  (r.block + r.plane.val * 2 ^ 12 + die % 16 * 2 ^ 14 + ch / 16 * 2 ^ 18, (ch % 16 + 16 - r.block % 16) % 16)

/-- The die and plane-block of a member: its home of R51, or the block a substitution names (02 R51, R67). -/
def Media.blockOf (m : Media) (p member : Nat) : Nat × Row :=
  let block := bitsOf p 0 12
  let plane : PlaneNo := ⟨bitsOf p 12 2, Nat.mod_lt _ (by decide)⟩
  let ch := 16 * bitsOf p 18 2 + (member + block) % 16
  match m.subst.find? (fun x => x.1 = p && x.2.1 = member) with
  | some x => (16 * ch + x.2.2.1, ⟨plane, x.2.2.2, 0⟩)
  | none => (16 * ch + bitsOf p 14 4, ⟨plane, block, 0⟩)

/-- The stripe and member a plane-block serves, substitutions first (02 R51, R80). -/
def Media.memberAt (m : Media) (die : Nat) (r : Row) : Nat × Nat :=
  match m.subst.find? (fun x => m.blockOf x.1 x.2.1 = (die, { r with page := 0 })) with
  | some x => (x.1, x.2.1)
  | none => memberOf die r

/-- The blocks of every plane that the system region takes, and those of the log pool after them; the manual gives their number only (02 R49, R64; log entry 79). -/
def systemBlocks : Nat := 4
def logBlocks : Nat := 8

/-- The physical stripe of a log of the pool, and the log a physical stripe is (02 R64; log entry 79). -/
def logStripe (k : Nat) : Nat := systemBlocks + k % 8 + k / 8 % 4 * 2 ^ 12 + k / 32 % 16 * 2 ^ 14 + k / 512 % 4 * 2 ^ 18
def logOf (p : Nat) : Option Nat :=
  let b := bitsOf p 0 12
  if systemBlocks ≤ b ∧ b < systemBlocks + logBlocks then some (b - systemBlocks + 8 * bitsOf p 12 2 + 32 * bitsOf p 14 4 + 512 * bitsOf p 18 2) else none

/-- A plane-block's number in the module. -/
def wearKey (die : Nat) (r : Row) : Nat := die * 8448 + r.key

/-- The number of a member's plane-block. -/
def Media.memberKey (m : Media) (p member : Nat) : Nat := wearKey (m.blockOf p member).1 (m.blockOf p member).2

/-- The logical stripe of an owner's stripe, from its directory (02 R53). -/
def Media.mapped? (m : Media) (o : Owner) (os : Nat) : Option (Nat × MapEntry) :=
  m.map.find? (fun e => e.2.owner = o && e.2.ostripe = os)

/-- A counted stripe of an owner (02 R83). -/
def Media.counted? (m : Media) (o : Owner) (os : Nat) : Option Counted := m.counted.find? (fun c => c.owner = o && c.ostripe = os)

/-- The log blocks attached to a stripe, oldest first (02 R53, R64). -/
def Media.logsOf (m : Media) (l : Nat) : List (Nat × LogBlock) :=
  sortBy (fun a b => a.2.seq < b.2.seq) (m.logs.filter (fun e => e.2.lstripe = l))

/-- The logical stripe number that pages of an owner's stripe carry: the mapped or the counted one's (02 R55). -/
def Media.lstripeOf (m : Media) (o : Owner) (os : Nat) : Nat :=
  match m.mapped? o os with
  | some e => e.1
  | none => ((m.counted? o os).map (·.lstripe)).getD 0

/-- The number of an owner's key, none for the sketch area or an owner without one (02 R85). -/
def Media.keyOf (m : Media) (o : Owner) : Option Nat :=
  if o < 16 then (Tab.find m.volumes o).map (·.key) else (m.areaKeys.find? (fun e => e.1 = o)).map (·.2)

/-! ## The newest copy of a sector (02 R54). -/

/-- The newest copy of a sector in a list of copies. -/
def newestIn (l : List SecCopy) (o : Owner) (x : Nat) : Option SecCopy :=
  l.foldl (fun best c =>
    if c.owner = o ∧ c.sector = x then
      (match best with
        | some b => if b.seq < c.seq then some c else best
        | none => some c)
    else best) none

/-- The newest copy: the veneer, the attached log blocks newest first, the mapped stripe (02 R54). -/
def Media.newest (m : Media) (o : Owner) (x : Nat) : Option SecCopy :=
  match newestIn m.veneer o x with
  | some c => some c
  | none =>
    match m.mapped? o (x / stripeSectors o) with
    | none => none
    | some (l, e) =>
      match (m.logsOf l).reverse.findSome? (fun b => newestIn b.2.copies o x) with
      | some c => some c
      | none => newestIn (Tab.at m.stripes e.pstripe []) o x

/-- A sector's 4,096 bytes under its owner's key; one held nowhere, or whose newest copy carries ZERO, reads as zeros (02 R54, R85). -/
def Media.sector (m : Media) (o : Owner) (x : Nat) : List Byte :=
  match m.newest o x with
  | some c => if c.zero then zeros 4096 else c.opened (m.keyOf o)
  | none => zeros 4096

/-! ## The veneer (02 R57 to R59). -/

/-- Data pages of a veneer stripe or of a log block (02 R57, R64). -/
def stripePages : Nat := 15 * 1023

/-- The pages sent to a stripe. -/
def Media.pagesIn (m : Media) (p : Nat) : Tab PageRec := m.pages.filter (fun e => e.2.p = p)

/-- Whether a member block of a stripe takes no further page: it was open at an unclean stop, or a program there was refused (02 R72, R79). -/
def Media.stripeClosed (m : Media) (p : Nat) : Bool := (List.range 16).any (fun k => m.memberKey p k ∈ m.closed)

/-- Pages of a veneer stripe or log block in use: those sent to it, or all of them if it is closed. -/
def Media.stripeUsed (m : Media) (p : Nat) : Nat := if m.stripeClosed p then stripePages else (m.pagesIn p).length

/-- Pages of the veneer in use, with those not yet sent to a stripe (02 R57). -/
def Media.veneerPages (m : Media) : Nat :=
  (m.ring.map (fun v => m.stripeUsed v.p)).foldl (· + ·) 0 + ((m.pend.map (·.copy.seq)).dedup.filter (fun q => !Tab.has m.pages q)).length

/-- The stripes of the veneer now: its target, or those in use (02 R57). -/
def Media.veneerSize (m : Media) : Nat := max m.veneerTarget m.ring.length

/-- Data bytes of the veneer still free: a page's space is free once its stripe has been erased (02 R57, R59, R61). -/
def Media.veneerFree (m : Media) : Nat := m.veneerSize * (stripePages * 16384) - m.veneerPages * 16384

/-- The page, from 0, that sector number i of a run goes to: four sectors to a page, a new page where a stripe begins (02 R55, R56). -/
def pageOf (sz first i : Nat) : Nat :=
  let head := sz - first % sz
  if i < head then i / 4 else ceilDiv head 4 + (i - head) / 4

/-- The pages a run of sectors takes. -/
def pagesFor (sz first n : Nat) : Nat := if n = 0 then 0 else pageOf sz first (n - 1) + 1

/-- Sectors sent to the veneer under the owner's key, each page taking the next write sequence (02 R56, R85). -/
def Media.send (m : Media) (cmd : Nat) (o : Owner) (first : Nat) (datas : List (Option Mem)) : Media :=
  { m with
    pend := m.pend ++ datas.mapIdx (fun i d =>
      ⟨some cmd, ⟨m.writeSeq + pageOf (stripeSectors o) first i, o, first + i, d.isNone, d.getD [], m.keyOf o⟩, none⟩)
    writeSeq := m.writeSeq + pagesFor (stripeSectors o) first datas.length }

/-! ## The budget (02 R49, R83). -/

/-- Mapped and counted stripes (02 R49, 13 R414). -/
def Media.total (m : Media) : Nat := m.map.length + m.counted.length

/-- A logical stripe number not in use (log entry 16). -/
def Media.freeStripe (m : Media) : Nat :=
  ((List.range (m.total + 1)).find? (fun k => !(Tab.has m.map k) && m.counted.all (fun c => c.lstripe ≠ k))).getD 0

/-- One copy lands in the veneer, and its stripe counts as landed. A ZERO copy for a stripe neither mapped nor counted is not needed; another such copy is of a command that
has ended, and is absent if the budget has no room for its stripe (02 R49, R58, R83). -/
def Media.landOne (m : Media) (now : Nat) (x : SecCopy) : Media :=
  let os := x.sector / stripeSectors x.owner
  if (m.mapped? x.owner os).isSome then { m with veneer := m.veneer ++ [x] }
  else if (m.counted? x.owner os).isSome then
    { m with
      veneer := m.veneer ++ [x]
      counted := m.counted.map (fun c => if c.owner = x.owner ∧ c.ostripe = os then { c with landed := true, lastWrite := now } else c) }
  else if x.zero ∨ stripesMax ≤ m.total then m
  else { m with veneer := m.veneer ++ [x], counted := m.counted ++ [⟨m.freeStripe, x.owner, os, [], true, now⟩] }

/-- Copies land in the veneer. -/
def Media.land (m : Media) (now : Nat) (l : List SecCopy) : Media := l.foldl (fun m x => m.landOne now x) m

/-- A copy the module writes of its own, which stands at once while its page follows (log entry 83). -/
def Media.place (m : Media) (now : Nat) (c : SecCopy) : Media :=
  { (m.landOne now c) with writeSeq := m.writeSeq + 1, pend := m.pend ++ [PendCopy.mk none c none] }

/-- Veneer pages return OK: the sectors they hold land, but those that stand already; one written again takes the place of the copy it was made from (02 R58, R61). -/
def Media.landPages (m : Media) (now : Nat) (seqs : List Nat) : Media :=
  let mine := m.pend.filter (fun p => p.copy.seq ∈ seqs)
  { (m.land now ((mine.filter (fun p => p.cmd.isSome)).map (·.copy))) with
    veneer := (m.land now ((mine.filter (fun p => p.cmd.isSome)).map (·.copy))).veneer.map (fun x =>
      match mine.find? (fun p => p.was = some x.seq && p.copy.owner = x.owner && p.copy.sector = x.sector) with
      | some p => { x with seq := p.copy.seq }
      | none => x)
    pend := m.pend.filter (fun p => p.copy.seq ∉ seqs)
    pages := seqs.foldl (fun (t : Tab PageRec) q => Tab.change t q (fun (x : PageRec) => { x with ok := true })) m.pages }

/-- Copies of the veneer whose pages lie in some member blocks: the newest of their sectors are written again, one to a page, and stand where they are until those pages have
returned OK; the others are not needed (02 R54, R61, R72, R77, R79). -/
def Media.resend (m : Media) (which : PageRec → Bool) : Media :=
  let there := fun (c : SecCopy) => ((Tab.find m.pages c.seq).map which).getD false
  let newest := fun (c : SecCopy) => newestIn m.veneer c.owner c.sector = some c
  let sent := fun (c : SecCopy) => m.pend.any (fun p => p.was = some c.seq && p.copy.owner = c.owner && p.copy.sector = c.sector)
  let cs := m.veneer.filter (fun c => there c && newest c && !sent c)
  cs.foldl (fun (m : Media) c =>
    { m with
      pend := m.pend ++ [PendCopy.mk none { c with seq := m.writeSeq } (some c.seq)]
      writeSeq := m.writeSeq + 1 }) { m with veneer := m.veneer.filter (fun c => !there c || newest c) }

/-- One stripe counted for a command: a mapped stripe needs no count, a counted one gains the command (02 R83). -/
def Media.countOne (m : Media) (now cmd : Nat) (x : Owner × Nat) : Media :=
  if (m.mapped? x.1 x.2).isSome then m
  else if (m.counted? x.1 x.2).isSome then
    { m with counted := m.counted.map (fun c => if c.owner = x.1 ∧ c.ostripe = x.2 ∧ cmd ∉ c.cmds then { c with cmds := cmd :: c.cmds } else c) }
  else { m with counted := m.counted ++ [⟨m.freeStripe, x.1, x.2, [cmd], false, now⟩] }

/-- Stripes a command's writes need that are neither mapped nor counted (02 R83). -/
def Media.newStripes (m : Media) (need : List (Owner × Nat)) : List (Owner × Nat) :=
  need.dedup.filter (fun x => (m.mapped? x.1 x.2).isNone && (m.counted? x.1 x.2).isNone)

/-- The stripes counted for a command at admission, or none where the budget would be passed (02 R83). -/
def Media.takeRoom (m : Media) (now cmd : Nat) (need : List (Owner × Nat)) : Option Media :=
  if stripesMax < m.total + (m.newStripes need).length then none
  else some (need.dedup.foldl (fun m x => m.countOne now cmd x) m)

/-- The owner stripes a run of sectors lies in. -/
def stripesOf (o : Owner) (first n : Nat) : List (Owner × Nat) :=
  if n = 0 then []
  else (List.range ((first + n - 1) / stripeSectors o + 1 - first / stripeSectors o)).map (fun i => (o, first / stripeSectors o + i))

/-! ## The journal (02 R66 to R69). -/

/-- A record appended to the pending ones. -/
def Media.journal (m : Media) (now : Nat) (t : JType) (lstripe new aux : Nat) : Media :=
  { m with
    jPend := m.jPend ++ [⟨m.jNext, t, lstripe, new, aux⟩]
    jNext := m.jNext + 1
    jPendSince := if m.jPend.isEmpty then now else m.jPendSince }

/-- A fold or relocation given up: its target awaits erase (02 R70). -/
def Media.abandonReloc (m : Media) (l : Nat) : Media :=
  match Tab.find m.relocs l with
  | none => m
  | some r => { m with relocs := Tab.del m.relocs l, toErase := Tab.put m.toErase r.target [] }

/-- Log blocks let go: their stripes await erase (02 R64, R67). -/
def Media.dropLogs (m : Media) (which : Nat → LogBlock → Bool) : Media :=
  { m with
    logs := m.logs.filter (fun b => !which b.1 b.2)
    logPend := m.logPend.filter (fun c => ((Tab.find m.logs c.log).map (fun b => !which c.log b)).getD false)
    toErase := (m.logs.filter (fun b => which b.1 b.2)).foldl (fun (t : Tab (List Nat)) b => Tab.put t (logStripe b.1) []) m.toErase }

/-- A MAP_CLEAR commits. A mapped stripe's copies are gone and its blocks await erase; where its data was destroyed with its key, what the veneer holds of it was written
since, and the stripe counts for that. What the veneer holds of a counted one becomes ZERO, and the stripe stays counted until its fold finds that (02 R67, R83, R84, R87). -/
def Media.unmap (m : Media) (l : Nat) : Media :=
  match Tab.find m.map l with
  | some e =>
    let m := m.dropLogs (fun _ b => b.lstripe = l)
    let mine := fun (c : SecCopy) => decide (c.owner = e.owner ∧ c.sector / stripeSectors e.owner = e.ostripe)
    let later := decide (l ∈ m.doomed)
    { m with
      doomed := m.doomed.filter (· ≠ l)
      counted := if later && m.veneer.any mine then m.counted ++ [⟨l, e.owner, e.ostripe, [], true, 0⟩] else m.counted
      map := Tab.del m.map l
      toErase := Tab.put m.toErase e.pstripe []
      stripes := Tab.del m.stripes e.pstripe
      rebuilding := m.rebuilding.filter (fun x => x.p ≠ e.pstripe)
      veneer := if later then m.veneer else m.veneer.filter (fun c => !mine c) }
  | none =>
    match m.counted.find? (fun c => c.lstripe = l) with
    | none => m
    | some k =>
      { (m.abandonReloc l) with
        veneer := m.veneer.map (fun c => if c.owner = k.owner ∧ c.sector / stripeSectors k.owner = k.ostripe then { c with zero := true, data := [] } else c) }

/-- Copies of a stripe up to a write sequence leave the veneer: their fold has committed (02 R61). -/
def dropFolded (v : List SecCopy) (o : Owner) (os upTo : Nat) : List SecCopy :=
  v.filter (fun c => !(c.owner = o && c.sector / stripeSectors o = os && c.seq ≤ upTo))

/-- A relocation's MAP_SET commits: it applies if the entry still equals the one seen at TARGET_OPEN, and the logs it merged are the stripe's no longer, but sources that await
their erase; else the target is erased (02 R65, R67, R70). -/
def Media.mapSet (m : Media) (l : Nat) (e : MapEntry) (r : Reloc) : Media :=
  if Tab.find m.map l = r.seen then
    { m with
      map := Tab.put m.map l e
      logs := m.logs.filter (fun b => b.1 ∉ r.logs)
      logPend := m.logPend.filter (fun c => c.log ∉ r.logs)
      stripes := Tab.put m.stripes r.target r.copies
      veneer := if r.source.isNone then dropFolded m.veneer r.owner r.ostripe r.upTo else m.veneer
      counted := m.counted.filter (fun c => !(c.owner = r.owner && c.ostripe = r.ostripe))
      relocNeeded := m.relocNeeded.filter (· ≠ l)
      relocs := match r.source with
        | none => Tab.del m.relocs l
        | some _ => Tab.put m.relocs l { r with step := .mapSet } }
  else m.abandonReloc l

/-- A MAP_SET of no relocation: the entry of a stripe of the sketch area that opens, or one whose REBUILD changes (02 R67, R77, R80). -/
def Media.setEntry (m : Media) (l : Nat) (e : MapEntry) : Media :=
  if ((Tab.find m.map l).map (fun x => decide (x.pstripe = e.pstripe))).getD (e.owner = 17) then
    { m with map := Tab.put m.map l e, counted := m.counted.filter (fun c => !(c.owner = e.owner && c.ostripe = e.ostripe)) }
  else m

/-- The older of the two newest checkpoints goes when a third is complete, and with it the records before the one that is then older; blocks of
the system region open at a stop before both of them are then erased (02 R69, R72). -/
def Media.keepCheckpoint (m : Media) (num : Nat) : Media :=
  match m.cpBuild with
  | none => m
  | some b =>
    if b.num ≠ num then m
    else
      let cps := (m.cps ++ [Checkpoint.mk b.num b.tables]).drop (m.cps.length + 1 - 2)
      let from_ := match cps with
        | x :: _ :: _ => x.tables.seq
        | _ => 0
      let free := m.reclaim.filter (fun x => cps.length = 2 && cps.all (fun c => decide (x.2 < c.num)))
      { m with
        cpBuild := none, cps := cps, jLog := m.jLog.filter (fun r => from_ < r.seq)
        reclaim := m.reclaim.filter (· ∉ free)
        badBlocks := m.badBlocks ++ (free.map (·.1)).filter (fun k => k ∉ m.badBlocks) }

/-- The erases of a relocation's source blocks are recorded, with the release of the logs it merged, the base stripe's last (02 R67, R70, R71). -/
def Media.recordErases (m : Media) (now : Nat) (r : Reloc) : Media :=
  let m := r.logs.foldl (fun (m : Media) k => (m.journal now .logDetach r.lstripe 0 k).journal now .eraseStart r.lstripe 0 (logStripe k + 2 ^ 24)) m
  match r.source with
  | some p => m.journal now .eraseStart r.lstripe 0 (p + 2 ^ 24)
  | none => m

/-- A relocation whose MAP_SET has committed records its erases. -/
def Media.startErase (m : Media) (now : Nat) (r : Reloc) : Media :=
  if r.source.isNone then m else { (m.recordErases now r) with relocs := Tab.put m.relocs r.lstripe { r with step := .starting } }

/-- What a record does when it commits (02 R67). -/
def Media.applyRecord (m : Media) (r : JRecord) : Media :=
  let m := { m with jLog := m.jLog ++ [r], jDone := r.seq }
  match r.type with
  | .mapSet =>
    if !bitOf r.aux 24 then m.setEntry r.lstripe (mapEntryOf r.new)
    else
      match Tab.find m.relocs r.lstripe with
      | some q => if q.step = .copied then m.mapSet r.lstripe (mapEntryOf r.new) q else m
      | none => m
  | .mapClear => m.unmap r.lstripe
  | .logAttach => { m with logs := Tab.put m.logs (bitsOf r.aux 0 20) ⟨r.lstripe, r.seq, []⟩ }
  | .logDetach => m.dropLogs (fun k _ => k = bitsOf r.aux 0 20)
  | .targetOpen => { m with relocs := Tab.change m.relocs r.lstripe (fun q => if q.step = .opening then { q with step := .opened } else q) }
  | .eraseStart =>
    { m with
      relocs := Tab.change m.relocs r.lstripe (fun q => if q.step = .starting ∧ q.source = some (bitsOf r.aux 0 20) then { q with step := .erasing } else q)
      stripes := Tab.del m.stripes (bitsOf r.aux 0 20)
      toErase := Tab.put m.toErase (bitsOf r.aux 0 20) [] }
  | .eraseDone =>
    { m with
      toErase := Tab.del m.toErase (bitsOf r.aux 0 20)
      ring := m.ring.filter (fun v => v.p ≠ bitsOf r.aux 0 20)
      pages := m.pages.filter (fun e => e.2.p ≠ bitsOf r.aux 0 20)
      relocs := m.relocs.filter (fun q => !(q.2.step = .erasing && q.2.source = some (bitsOf r.aux 0 20))) }
  | .blockRetire =>
    let x := (bitsOf r.aux 0 20, bitsOf r.aux 20 4)
    if x ∈ m.retired then m else { m with retired := x :: m.retired }
  | .substitute =>
    let rest := m.subst.filter (fun x => !(x.1 = bitsOf r.aux 0 20 && x.2.1 = bitsOf r.aux 20 4))
    { m with subst := (bitsOf r.aux 0 20, bitsOf r.aux 20 4, bitsOf r.new 0 4, bitsOf r.new 4 12) :: rest }
  | .veneerFolded => { m with toErase := Tab.put m.toErase (bitsOf r.aux 0 20) [] }
  | .checkpointed => m.keepCheckpoint r.new
  | .spareState => m

/-- Journal pages commit in order, each once both of its copies have returned OK (02 R68). -/
def commitPages : List JPage → Media → List JPage × Media
  | [], m => ([], m)
  | p :: ps, m => if p.ok0 && p.ok1 then commitPages ps (p.recs.foldl Media.applyRecord m) else (p :: ps, m)

/-- A copy of a journal page returns OK (02 R68). -/
def Media.journalOk (m : Media) (copy : Bool) (upTo : Nat) : Media :=
  let pages := m.jPages.map (fun (p : JPage) => if (p.recs.getLast?.map (·.seq)) = some upTo then (if copy then { p with ok1 := true } else { p with ok0 := true }) else p)
  let r := commitPages pages m
  { r.2 with jPages := r.1 }

/-! ## Spares (02 R57, R81). -/

/-- Plane-blocks outside the system region and the log pool (02 R49, R57, R64). -/
def plainBlocks : Nat := 1024 * 8448 - 16384 - 2048 * 16

/-- Whether a member of a mapped stripe has no block: its own is retired and no substitute is named (02 R57, R80). -/
def Media.blockless (m : Media) (x : Nat × Nat) : Bool :=
  m.map.any (fun e => e.2.pstripe = x.1) && !m.subst.any (fun y => y.1 = x.1 && y.2.1 = x.2)

/-- Spare plane-blocks: the unallocated ones of R57, which are good and hold no data of a mapped stripe (02 R81). -/
def Media.spares (m : Media) : Nat := plainBlocks + (m.retired.filter m.blockless).length - m.retired.length - m.lostSubst.length - 16 * m.map.length

/-- Spares on a channel, taking the system region and the log pool as spread evenly (02 R81; log entry 17). -/
def Media.channelSpares (m : Media) (ch : Nat) : Nat :=
  let gone := m.retired.filter (fun x => (m.blockOf x.1 x.2).1 / 16 = ch)
  plainBlocks / 64 + (gone.filter m.blockless).length - (m.map.filter (fun e => e.2.pstripe / 2 ^ 18 = ch / 16)).length
    - gone.length - (m.lostSubst.filter (fun k => k / 8448 / 16 = ch)).length

/-- Whether some quarter has 196 spares on each of its 16 channels (02 R81). -/
def Media.someQuarter (m : Media) : Bool :=
  (List.range 4).any (fun q => (List.range 16).all (fun c => 196 ≤ m.channelSpares (16 * q + c)))

/-- The spare state the spares give; read-only lasts (02 R81). -/
def Media.spareNow (m : Media) : SpareState :=
  if m.spareState = .readOnly ∨ m.spares < 12544 ∨ !m.someQuarter then .readOnly
  else if m.spares < 50176 then .low
  else .normal

/-- Whether the module is read-only (02 R81). -/
def State.readOnly (s : State) : Bool := s.media.spareState = .readOnly

/-- A change of the spare state commits its record, writes its event and shows in MEDIA_STATE (02 R81, 18 R570). -/
def State.spareCheck (s : State) : State :=
  let x := s.media.spareNow
  if x = s.media.spareState then s
  else
    let s := s.modMedia (fun m => { m.journal s.now .spareState 0xFFFFFFFF x.num 0 with spareState := x })
    let s := { s with smbus := { s.smbus with spareState := x.num, spares := s.media.spares } }
    s.record 0x3001 (sourceOf 0 0) (leBytes 1 x.num ++ leBytes 8 s.media.spares)

/-- Whether a member has a substitute block (02 R80). -/
def Media.substituted (m : Media) (p member : Nat) : Bool := m.subst.any (fun x => x.1 = p && x.2.1 = member)

/-- Whether a member's data is not there: its block is retired and has no substitute, or the substitute is not yet rebuilt (02 R80). -/
def Media.lostMember (m : Media) (p member : Nat) : Bool :=
  ((p, member) ∈ m.retired && !m.substituted p member) || m.rebuilding.any (fun x => x.p = p && x.member = member)

/-- A plane-block's member is retired, a substitute block like the first one: cause 0 wear, 1 program, 2 erase (02 R78, R79, R80; 15 R492, R502). -/
def State.retireBlock (s : State) (die : Nat) (r : Row) (cause : Nat) : State :=
  let x := s.media.memberAt die r
  if x ∈ s.media.retired ∧ ¬ s.media.substituted x.1 x.2 then s
  else
    let s := s.modMedia (fun m =>
      let m := m.journal s.now .blockRetire 0xFFFFFFFF 0 (x.1 + x.2 * 2 ^ 20)
      if x ∈ m.retired then
        { m with
          lostSubst := m.memberKey x.1 x.2 :: m.lostSubst
          subst := m.subst.filter (fun y => !(y.1 = x.1 && y.2.1 = x.2))
          rebuilding := m.rebuilding.filter (fun y => !(y.p = x.1 && y.member = x.2)) }
      else { m with retired := x :: m.retired })
    let s := { s with health := { s.health with retired := s.health.retired + 1 } }
    (s.record 0x3004 (sourceOf 4 die) (leBytes 4 x.1 ++ leBytes 1 x.2 ++ leBytes 1 cause)).spareCheck

/-! ## Wear and reads (02 R77, R78). -/

/-- A plane-block never erased nor programmed. -/
def Wear.new : Wear := ⟨0, 0, 0, 0⟩

/-- Wear in units of 1/60,000,000 (02 R78). -/
def Wear.units (w : Wear) : Nat := w.qlcErases * 40000 + w.slcErases * 1500

/-- A verified erase of a plane-block counts as wear, and wear of 1.0 retires it (02 R78, 15 R502). -/
def State.wearErase (s : State) (die : Nat) (m : BMode) (r : Row) : State :=
  let w := Tab.at s.media.wear (wearKey die r) Wear.new
  let w := match m with
    | .qlc => { w with qlcErases := w.qlcErases + 1, reads := 0 }
    | .slc => { w with slcErases := w.slcErases + 1, reads := 0 }
  let s := s.modMedia (fun x => { x with
    wear := Tab.put x.wear (wearKey die r) w
    closed := x.closed.filter (· ≠ wearKey die r)
    badBlocks := x.badBlocks.filter (· ≠ wearKey die r) })
  let s := { s with health := match m with
    | .qlc => { s.health with qlcErases := s.health.qlcErases + 1 }
    | .slc => { s.health with slcErases := s.health.slcErases + 1 } }
  if 60000000 ≤ w.units then s.retireBlock die r 0 else s

/-- The wear of a stripe's member blocks together. -/
def Media.stripeWear (m : Media) (p : Nat) : Nat :=
  ((List.range 16).map (fun k => (Tab.at m.wear (m.memberKey p k) Wear.new).units)).foldl (· + ·) 0

/-- Whether every member of a stripe is a good block: its own where it has not been lent as a substitute, or its substitute (02 R80). -/
def Media.stripeGood (m : Media) (p : Nat) : Bool :=
  (List.range 16).all (fun k =>
    (decide ((p, k) ∉ m.retired) || m.substituted p k) && m.memberKey p k ∉ m.badBlocks
      && m.subst.all (fun x => (x.1 = p && x.2.1 = k) || m.memberKey x.1 x.2.1 ≠ m.memberKey p k))

/-- Stripes that hold data, or are being written or erased. -/
def Media.taken (m : Media) : List Nat :=
  m.map.map (fun e => e.2.pstripe) ++ (Tab.vals m.relocs).flatMap (fun r => r.target :: r.source.toList) ++ Tab.keys m.toErase ++ m.ring.map (·.p)

/-- Whether a physical stripe exists, outside the system region and the log pool, and holds nothing (02 R50, R57). -/
def Media.free (m : Media) (p : Nat) : Bool :=
  decide (p < 2 ^ 20 ∧ systemBlocks + logBlocks ≤ bitsOf p 0 12 ∧ bitsOf p 0 12 < 2112 ∧ p ∉ m.taken) && m.stripeGood p

/-- Stripes outside the system region and the log pool. -/
def plainStripes : Nat := 256 * (2112 - systemBlocks - logBlocks)

/-- The stripes whose blocks have been erased before. -/
def Media.wornStripes (m : Media) : List Nat :=
  (m.wear.map (fun e => (memberOf (e.1 / 8448) ⟨⟨e.1 % 8448 / 2112 % 4, Nat.mod_lt _ (by decide)⟩, e.1 % 8448 % 2112, 0⟩).1)).dedup

/-- Whether a free stripe has the least wear of the free ones: none, or no more than any other where no free stripe is without wear (02 R78; log entry 79). -/
def Media.leastWorn (m : Media) (p : Nat) : Bool :=
  let out := (m.taken ++ m.wornStripes ++ m.retired.map (·.1)).dedup.filter (fun q => systemBlocks + logBlocks ≤ bitsOf q 0 12)
  m.stripeWear p = 0 || (decide (plainStripes ≤ out.length) && m.wornStripes.all (fun q => !m.free q || m.stripeWear p ≤ m.stripeWear q))

/-- Whether a physical stripe may be opened for new data (02 R50, R70, R78). -/
def Media.targetOk (m : Media) (p : Nat) : Bool := m.free p && m.leastWorn p

/-- Whether a member block of a stripe is worn more than 0.15 below the mean of the blocks in service (02 R78). -/
def Media.belowMean (m : Media) (p : Nat) : Bool :=
  let sum := (m.wear.map (fun e => e.2.units)).foldl (· + ·) 0
  (List.range 16).any (fun k => ((Tab.at m.wear (m.memberKey p k) Wear.new).units + 9000000) * (1024 * 8448 - m.retired.length - m.lostSubst.length) < sum)

/-- A stripe is to be relocated: a mapped one, the one a log block belongs to, so that a merge empties the log, or a veneer stripe's copies to new pages (02 R74, R77). -/
def Media.needReloc (m : Media) (p : Nat) : Media :=
  let mark := fun (l : Nat) => if l ∈ m.relocNeeded then m else { m with relocNeeded := m.relocNeeded ++ [l] }
  match m.map.find? (fun e => e.2.pstripe = p), (logOf p).bind (Tab.find m.logs) with
  | some e, _ => mark e.1
  | none, some b => mark b.lstripe
  | none, none =>
    if m.ring.any (fun v => v.p = p) then
      { m.resend (fun x => x.p = p) with closed := m.closed ++ ((List.range 16).map (m.memberKey p)).filter (fun k => k ∉ m.closed) }
    else m

/-- Reads of pages of a plane-block, relocated at its read bound (02 R77). -/
def State.countReads (s : State) (die : Nat) (m : BMode) (r : Row) (n : Nat) : State :=
  let w := Tab.at s.media.wear (wearKey die r) Wear.new
  let w := { w with reads := w.reads + n }
  let s := s.modMedia (fun x => { x with wear := Tab.put x.wear (wearKey die r) w })
  let bound := match m with
    | .qlc => 200000
    | .slc => 1000000
  if bound ≤ w.reads then s.modMedia (fun x => x.needReloc (x.memberAt die r).1) else s

/-- One read. -/
def State.countRead (s : State) (die : Nat) (m : BMode) (r : Row) : State := s.countReads die m r 1

/-- Mean and greatest wear of the plane-blocks in service, in 1/10,000, rounded down (15 R502; log entry 18). -/
def Media.wearStats (m : Media) : Nat × Nat :=
  let us := m.wear.map (fun e => e.2.units)
  (us.foldl (· + ·) 0 / 6000 / (1024 * 8448 - m.retired.length), us.foldl max 0 / 6000)

/-! ## Uncorrectable sectors (02 R74, 15 R492, R506). -/

/-- Sectors enter the uncorrectable list, newest first, 256 entries; a sector already listed is not entered again (15 R506; log entry 19). -/
def Health.enter (h : Health) (opTime : Nat) (o : Owner) (x : Nat) : Health :=
  if h.unc.any (fun e => e.owner = o && e.sector = x) then h
  else { h with unc := (⟨o, x, opTime⟩ :: h.unc).take 256, uncTotal := h.uncTotal + 1 }

/-- Sectors leave the list when next written or deallocated (15 R506). -/
def Health.leave (h : Health) (o : Owner) (gone : Nat → Bool) : Health :=
  { h with unc := h.unc.filter (fun e => !(e.owner = o && gone e.sector)) }

/-- Runs of consecutive sectors: first and length. -/
def runsOf : List Nat → List (Nat × Nat)
  | [] => []
  | x :: xs =>
    match runsOf xs with
    | (f, n) :: rs => if f = x + 1 then (x, n + 1) :: rs else (x, 1) :: (f, n) :: rs
    | [] => [(x, 1)]

/-- Every step of the ladder failed for sectors of an owner: counted, listed, and an event for each run (02 R74). -/
def State.uncorrectable (s : State) (o : Owner) (xs : List Nat) : State :=
  let xs := sortBy (· < ·) xs.dedup
  let s := s.count 10 xs.length
  let s := { s with health := xs.foldl (fun h x => h.enter s.opTime o x) s.health }
  (runsOf xs).foldl (fun s r => s.record 0x3002 (sourceOf 0 0) (leBytes 1 o ++ leBytes 8 r.1 ++ leBytes 4 r.2)) s

/-! ## Cryptographic erase (02 R87). -/

/-- An owner's folds and relocations that have not reached their MAP_SET are abandoned, and its stripes' MAP_CLEARs are recorded (02 R70, R87). -/
def Media.clearOwner (m : Media) (now : Nat) (o : Owner) : Media :=
  let early := fun (r : Reloc) => r.owner = o && (r.step = .opening || r.step = .opened || r.step = .copying || r.step = .copied)
  let m := ((Tab.vals m.relocs).filter early).foldl (fun (m : Media) r => m.abandonReloc r.lstripe) m
  let ls := (m.map.filter (fun e => e.2.owner = o)).map (·.1)
  ls.foldl (fun (m : Media) l => m.journal now .mapClear l 0 0) { m with doomed := m.doomed ++ ls.filter (fun l => l ∉ m.doomed) }

/-- The newest update of the security block waits for its pages (17 R540). -/
def State.secure (s : State) : State := { s with sec := { s.sec with pages := { s.sec.pages with seq := s.sec.pages.seq + 1 } } }

/-- Whether all four copies of the security block hold an update (17 R540). -/
def State.secured (s : State) (n : Nat) : Bool := s.sec.pages.okd.all (fun k => n ≤ k)

/-- A key is destroyed: the security block without it goes to new blocks, and every block that has held a page of it awaits its erase (17 R549). -/
def State.destroyKey (s : State) : State :=
  let s := s.secure
  let held := s.sec.pages.held
  { (s.modMedia (fun m => { m with badBlocks := m.badBlocks ++ held.filter (fun k => k ∉ m.badBlocks) })) with
    sec := { s.sec with pages := { s.sec.pages with homes := [], sent := [], old := s.sec.pages.old ++ held.filter (fun k => k ∉ s.sec.pages.old) } } }

/-- Whether a destroyed key is gone from every block (17 R549). -/
def State.keysGone (s : State) (n : Nat) : Bool := s.secured n && s.sec.pages.old.isEmpty

/-- An owner's data is destroyed: its key is gone, its stripes' MAP_CLEARs are recorded and every copy is dropped (02 R87, 15 R506, 17 R549). -/
def State.cryptoErase (s : State) (o : Owner) : State :=
  let s := s.modMedia (fun m =>
    let m := m.clearOwner s.now o
    { m with
      veneer := m.veneer.filter (fun c => c.owner ≠ o)
      pend := m.pend.filter (fun p => p.copy.owner ≠ o)
      logPend := m.logPend.filter (fun c => c.copy.owner ≠ o)
      counted := m.counted.filter (fun c => c.owner ≠ o) })
  { s.destroyKey with health := s.health.leave o (fun _ => true) }

end Sys2Proof.Machine
end

