-- ==== Sys2Proof/Machine/Writes.lean ====
section
/-! DEFINITION. The programs the module sends of its own: for each purpose, whether the module sends such a frame now, the pages it holds, and what the module's tables say once it
is on its way; then what an outcome means (01 R37; 02 R52, R55 to R58, R60 to R62, R64, R66, R68 to R70, R77, R79, R80, R86; 17 R540). -/

namespace Sys2Proof.Machine

/-- A die; one nothing has touched is as after reset. -/
def State.die (s : State) (d : DieNo) : Die := Tab.at s.dies d.val Die.reset

/-- A die replaced. -/
def State.setDie (s : State) (d : DieNo) (x : Die) : State := { s with dies := Tab.put s.dies d.val x }

/-- Whether the dies have power: in every power state but Hibernate, while the module has power (01 R36; 16 R511, R514). -/
def State.diesOn (s : State) : Bool := s.power.good && s.power.st ≠ .a3

/-! ## What stands in the dies. -/

/-- Whether a page of a member holds what was programmed there: its unit is started, not undefined, and no program of it runs. -/
def State.pageReady (s : State) (p member page : Nat) (m : BMode) : Bool :=
  let b := s.media.blockOf p member
  let x := Tab.at s.dies b.1 Die.reset
  let r := { b.2 with page := page }
  x.startedAt s.freeCtr r.key (unitNo m page) && !x.undefinedAt r m

/-- The data area of a page of a member, as the cells hold it. -/
def State.pageArea (s : State) (p member page : Nat) : List Byte :=
  let b := s.media.blockOf p member
  Mem.read 0xFF (Tab.at s.dies b.1 Die.reset).cells (pageBase b.2.key page) 16384

/-- The exclusive OR of data areas (02 R52). -/
def xorAreas (l : List (List Byte)) : List Byte := l.foldl xorBytes (zeros 16384)

/-- Whether a plane-block is retired, as the home of a member or as a substitute (02 R78 to R80). -/
def Media.blockRetired (m : Media) (die : Nat) (r : Row) : Bool := memberOf die r ∈ m.retired || wearKey die r ∈ m.lostSubst

/-- Whether a row of a frame lies in a block that takes further pages (02 R72, R79). -/
def Media.rowOpen (m : Media) (d : DieNo) (r : Row) : Bool := wearKey d.val r ∉ m.closed && wearKey d.val r ∉ m.badBlocks && !m.blockRetired d.val r

/-- Whether a block of the system region has the least wear of those where nothing is written, for one that is begun (02 R78). -/
def State.leastSystem (s : State) (d : DieNo) (r : Row) : Bool :=
  let w := fun (k : Nat) => (Tab.at s.media.wear k Wear.new).units
  decide (r.page ≠ 0) || w (wearKey d.val r) = 0
    || (List.range 1024).all (fun die => (List.range 4).all (fun p => (List.range systemBlocks).all (fun b =>
      let k := 2112 * p + b
      (Tab.at s.dies die Die.reset).started.any (fun u => u / 1024 = k) || (8448 * die + k) ∈ s.media.badBlocks || w (wearKey d.val r) ≤ w (8448 * die + k))))

/-- Whether a row lies in the system region (02 R49; log entry 79). -/
def Media.systemRow (m : Media) (d : DieNo) (r : Row) : Bool := decide (r.block < systemBlocks) && m.rowOpen d r

/-- Data for the planes of a frame, by plane number. -/
def byPlane (rows : List Row) (f : Row → List Byte) : List (List Byte) :=
  (List.range 4).map (fun p => ((rows.find? (fun r => r.plane.val = p)).map f).getD [])

/-! ## Veneer and log pages (02 R56, R58, R62, R64). -/

/-- The slot word of a copy. -/
def SecCopy.word (c : SecCopy) : Nat := slotWord (c.sector % stripeSectors c.owner) c.zero

/-- A veneer or log page of up to four copies. -/
def slotImage (k : PageKind) (lstripe : Nat) (cs : List SecCopy) : List Byte :=
  match cs with
  | [] => []
  | c :: _ => pageImage (cs.flatMap SecCopy.sealed) (slotHeader k c.seq c.owner lstripe (cs.map SecCopy.word))

/-- The page record of some copies sent to a place. -/
def Media.recordOf (m : Media) (at_ : Nat × Nat) (page : Nat) (cs : List SecCopy) : PageRec :=
  let o := (cs.head?.map (·.owner)).getD 0
  let os := ((cs.head?.map (·.sector)).getD 0) / stripeSectors o
  ⟨at_.1, at_.2, page, o, m.lstripeOf o os, cs.map SecCopy.word, false⟩

/-- The copies of a veneer page not yet sent. -/
def Media.veneerPage (m : Media) (q : Nat) : List SecCopy :=
  if Tab.has m.pages q then [] else (m.pend.filter (fun p => p.copy.seq = q)).map (·.copy)

/-- The copies of a log page not yet sent, and its log. -/
def Media.logPage (m : Media) (q : Nat) : Option (Nat × List SecCopy) :=
  if Tab.has m.pages q then none
  else
    match m.logPend.filter (fun c => c.copy.seq = q) with
    | [] => none
    | c :: cs => some (c.log, (c :: cs).map (·.copy))

/-- Page records of copies on their way. -/
def Media.sendPages (m : Media) (d : DieNo) (l : List (Row × Nat × List SecCopy)) : Media :=
  { m with pages := l.foldl (fun (t : Tab PageRec) x => Tab.put t x.2.1 (m.recordOf (m.memberAt d.val x.1) x.1.page x.2.2)) m.pages }

/-- Veneer pages go to data members of open veneer stripes; a stripe with nothing in it is opened while the veneer holds fewer than its target (02 R57). -/
def State.planVeneer (s : State) (d : DieNo) (rows : List Row) (seqs : List Nat) : Option (List (List Byte) × State) :=
  let m := s.media
  let l := (rows.zip seqs).map (fun x => (x.1, x.2, m.veneerPage x.2))
  let stripes := (rows.map (fun r => (m.memberAt d.val r).1)).dedup
  let new := stripes.filter (fun p => m.ring.all (fun v => v.p ≠ p))
  let ok := decide (rows.length = seqs.length) && decide seqs.Nodup && l.all (fun x => !x.2.2.isEmpty)
    && rows.all (fun r => decide ((m.memberAt d.val r).2 < 15 ∧ r.page < 1023) && m.rowOpen d r)
    && m.ring.all (fun v => v.p ∉ stripes || !v.folded) && new.all m.targetOk && decide (m.ring.length + new.length ≤ m.veneerTarget)
  if ok then
    some (byPlane rows (fun r => match l.find? (fun x => x.1 = r) with
      | some x => slotImage .veneer (m.recordOf (m.memberAt d.val r) r.page x.2.2).lstripe x.2.2
      | none => []), s.modMedia (fun m => { m.sendPages d l with ring := m.ring ++ new.map (fun p => ⟨p, false⟩) }))
  else none

/-- Log pages go to data members of their log block's stripe (02 R64). -/
def State.planLog (s : State) (d : DieNo) (rows : List Row) (seqs : List Nat) : Option (List (List Byte) × State) :=
  let m := s.media
  let l := (rows.zip seqs).map (fun x => (x.1, x.2, m.logPage x.2))
  let ok := decide (rows.length = seqs.length) && decide seqs.Nodup
    && l.all (fun x => match x.2.2 with
      | some (k, _) => decide ((m.memberAt d.val x.1).1 = logStripe k)
      | none => false)
    && rows.all (fun r => decide ((m.memberAt d.val r).2 < 15 ∧ r.page < 1023) && m.rowOpen d r)
  if ok then
    let l := l.map (fun x => (x.1, x.2.1, ((x.2.2.map (·.2)).getD [])))
    some (byPlane rows (fun r => match l.find? (fun x => x.1 = r) with
      | some x => slotImage .log (m.recordOf (m.memberAt d.val r) r.page x.2.2).lstripe x.2.2
      | none => []), s.modMedia (fun m => m.sendPages d l))
  else none

/-- The records of a member's 1,023 pages, in page order, once all have returned OK; none before (02 R62). -/
def Media.memberPages (m : Media) (p member : Nat) : Option (List (Nat × PageRec)) :=
  let l := sortBy (fun a b => a.2.page < b.2.page) (m.pages.filter (fun e => e.2.p = p && e.2.member = member && e.2.ok))
  if l.length = 1023 then some l else none

/-- Summaries fill page 1,023 of members of veneer stripes and log blocks (02 R62, R85). -/
def State.planSummary (s : State) (d : DieNo) (rows : List Row) : Option (List (List Byte) × State) :=
  let m := s.media
  let of_ := fun (r : Row) => m.memberPages (m.memberAt d.val r).1 (m.memberAt d.val r).2
  if rows.all (fun r => decide (r.page = 1023) && m.rowOpen d r && (of_ r).isSome) then
    some (byPlane rows (fun r =>
      let l := (of_ r).getD []
      let first := (l.head?.map (·.1)).getD 0
      pageImage (systemArea d.val r (summaryArea first (l.map (fun e => (e.2.lstripe, e.2.words))))) (plainHeader (leBytes 8 first) .summary)), s)
  else none

/-! ## Fold and relocation targets, sketch pages (02 R52, R56, R60, R70, R77, R86). -/

/-- Pages of sketches a leaf holds. -/
def Items.perPage (x : Items) : Nat := if x.width = 0 then 0 else 131072 / x.width

/-- The secret mask of the sketch area: the low bits of its key's free value (02 R86; log entry 3). -/
def State.sketchMask (s : State) : BitVec 512 := Config.freeBits (2 ^ 64 + s.media.maskKey.getD 0) 512

/-- Sectors of an embedding. -/
def embSectors (dims : Nat) : Nat := ceilDiv dims 1024

/-- Owner stripes of one side of the vector area, and the sectors in them: one side holds the embeddings in service, the other is for staging (10 R340; log entry 52). -/
def sideStripes : Nat := 229376
def sideSectors : Nat := sideStripes * 245760

/-- The sectors of an item's embedding on a side. -/
def embAt (dims side i : Nat) : List Nat := (List.range (embSectors dims)).map (fun k => side * sideSectors + embSectors dims * i + k)

/-- The sectors of an item's embedding as the vector-area directory gives them (10 R341). -/
def Items.embAt (x : Items) (i : Nat) : List Nat := Machine.embAt x.dims x.side i

/-- The sketch of an item in the tree a leaf belongs to (10 R340). -/
def Items.sketchIn (x : Items) (leaf : Nat) (y : Item) : BitVec 512 := if x.aside.any (fun c => c.node = leaf) then (y.staged.map (·.2)).getD y.sketch else y.sketch

/-- The sketches of page c of a leaf; a member that is gone keeps its slot (09 R287). -/
def Items.leafSketches (x : Items) (leaf : Nat) (ms : List (Option (Nat × Nat))) (c : Nat) : List (BitVec 512) :=
  ((ms.drop (c * x.perPage)).take x.perPage).map (fun e => ((e.bind (fun k => Tab.find x.items k.1)).map (x.sketchIn leaf)).getD 0#512)

/-- The leaf in a place of the sketch area, with its member table. -/
def Items.leafIn (x : Items) (quad member pair : Nat) : Option (Nat × List (Option (Nat × Nat))) :=
  x.nodes.findSome? (fun n => match n.2.2 with
    | .leaf (some q) ms => if q.quad = quad ∧ q.member = member ∧ q.pair = pair then some (n.1, ms) else none
    | _ => none)

/-- A leaf's die: that of its member block on plane 0, once it has a place whose stripes are mapped (02 R51, R77). -/
def State.leafDie (s : State) (n : Nat) : Option Nat :=
  match Tab.find s.items.nodes n with
  | some (_, .leaf (some q) _) => (s.media.mapped? 17 (4 * q.quad)).map (fun e => (s.media.blockOf e.2.pstripe q.member).1)
  | _ => none

/-- The sketch page that belongs to a page of a data member of an owner stripe of the sketch area; one no leaf lies in holds no sketch. -/
def State.sketchPage (s : State) (ostripe member page lstripe : Nat) : List Byte :=
  let l := match s.items.leafIn (ostripe / 4) member (page / 2) with
    | some l => s.items.leafSketches l.1 l.2 (page % 2 * 4 + ostripe % 4)
    | none => []
  sketchImage (s.items.width = 512) s.sketchMask l lstripe

/-- The data area and UNWRITTEN bits of a page of a data member of a stripe that holds some copies: a slot with no sector is encrypted zeros (02 R52, R56, R60). -/
def stripeArea (o : Owner) (os : Nat) (key : Option Nat) (cs : List SecCopy) (member page : Nat) : List Byte × Nat :=
  let slots := (List.range 4).map (fun i =>
    let x := os * stripeSectors o + 4 * (15 * page + member) + i
    ((cs.find? (fun c => c.sector = x)).getD ⟨0, o, x, true, [], key⟩))
  (slots.flatMap SecCopy.sealed, (slots.zipIdx.map (fun c => bit c.1.zero * 2 ^ c.2)).foldl (· + ·) 0)

/-- A page of a data member of a fold's or relocation's target. -/
def State.targetPage (s : State) (r : Reloc) (member page : Nat) : List Byte :=
  if r.owner = 17 then s.sketchPage r.ostripe member page r.lstripe
  else
    let a := stripeArea r.owner r.ostripe (s.media.keyOf r.owner) r.copies member page
    pageImage a.1 (pageHeader (leBytes 1 a.2) .stripeData r.owner r.lstripe)

/-- A page of any member of it: member 15 holds parity (02 R51, R52). -/
def State.memberPage (s : State) (r : Reloc) (member page : Nat) : List Byte :=
  if member < 15 then s.targetPage r member page
  else pageImage (xorAreas ((List.range 15).map (fun k => (s.targetPage r k page).take 16384))) (pageHeader [] .parity r.owner r.lstripe)

/-- The pages of a unit of a target: one in pSLC, the four of a wordline in QLC. -/
def State.unitPages (s : State) (r : Reloc) (member page : Nat) : List Byte :=
  (List.range (if r.slc then 1 else 4)).flatMap (fun i => s.memberPage r member (page + i))

/-- The relocation a physical stripe is the target of. -/
def Media.targetOf (m : Media) (p : Nat) : Option Reloc := (m.relocs.find? (fun e => e.2.target = p)).map (·.2)

/-- One more unit of a member. -/
def bumpAt (l : List Nat) (k : Nat) : List Nat := l.set k (l.getD k 0 + 1)

/-- Units of targets are programmed row by row: a row begins on a member once the rows before it have been sent on every member (02 R60, R70). -/
def State.planStripe (s : State) (d : DieNo) (m : BMode) (rows : List Row) : Option (List (List Byte) × State) :=
  let at_ := fun (r : Row) => s.media.memberAt d.val r
  let ok := rows.all (fun r => match s.media.targetOf (at_ r).1 with
    | some q =>
      let u := unitNo m r.page
      decide (q.step = .copying ∧ (q.slc = true ↔ m = .slc) ∧ u = q.sent.getD (at_ r).2 0 ∧ r.page = (if q.slc then u else 4 * u)) && q.sent.all (fun n => u ≤ n)
    | none => false)
  if ok then
    some (byPlane rows (fun r => match s.media.targetOf (at_ r).1 with
      | some q => s.unitPages q (at_ r).2 r.page
      | none => []),
      s.modMedia (fun x => { x with relocs := rows.foldl (fun (t : Tab Reloc) r =>
        Tab.changeAll t (fun q => if q.target = (at_ r).1 then { q with sent := bumpAt q.sent (at_ r).2 } else q)) x.relocs }))
  else none

/-- Whether a stripe is one whose parity pages follow its data pages: in the veneer, in a log block, or in the sketch area. -/
def Media.parityLater (m : Media) (p : Nat) : Bool :=
  m.ring.any (fun v => v.p = p) || ((logOf p).map (Tab.has m.logs)).getD false || m.map.any (fun e => e.2.pstripe = p && e.2.slc)

/-- A parity page once its fifteen companions are programmed (02 R52). -/
def State.planParity (s : State) (d : DieNo) (rows : List Row) : Option (List (List Byte) × State) :=
  let at_ := fun (r : Row) => s.media.memberAt d.val r
  if rows.all (fun r => decide ((at_ r).2 = 15) && s.media.rowOpen d r && s.media.parityLater (at_ r).1
      && (List.range 15).all (fun k => s.pageReady (at_ r).1 k r.page .slc)) then
    some (byPlane rows (fun r =>
      let area := xorAreas ((List.range 15).map (fun k => s.pageArea (at_ r).1 k r.page))
      pageImage area (match s.media.map.find? (fun e => e.2.pstripe = (at_ r).1) with
        | some e => pageHeader [] .parity e.2.owner e.1
        | none => plainHeader [] .parity)), s)
  else none

/-- The place that four rows give a leaf: a pair of pages of one data member on the four planes of a quad of the sketch area (02 R50, R77). -/
def Media.leafPlace (m : Media) (d : DieNo) (rows : List Row) : Option (Nat × Nat × Nat) :=
  match rows.map (fun r => (r, m.memberAt d.val r, m.map.find? (fun e => e.2.pstripe = (m.memberAt d.val r).1 && e.2.owner = 17))) with
  | (r, at_, some e) :: rest =>
    let q := e.2.ostripe / 4
    if e.2.ostripe % 4 = 0 ∧ rest.length = 3 ∧ at_.2 < 15
        ∧ (rest.zipIdx.all (fun x => decide (x.1.2.1.2 = at_.2 ∧ (x.1.2.2.map (fun f => f.2.ostripe)) = some (4 * q + x.2 + 1)))) then
      some (q, at_.2, r.page)
    else none
  | _ => none

/-- A leaf's pages of one of its two page numbers: the first gives the leaf its place, the second follows it there (01 R37, 02 R77). -/
def State.planSketch (s : State) (d : DieNo) (rows : List Row) (leaf : Nat) (second : Bool) : Option (List (List Byte) × State) :=
  match Tab.find s.items.nodes leaf, s.media.leafPlace d rows with
  | some (g, .leaf place ms), some (q, k, page) =>
    let here : LeafPlace := place.getD ⟨q, k, page / 2, [false, false], [false, false]⟩
    let ok := decide (here.quad = q ∧ here.member = k ∧ page = 2 * here.pair + bit second) && !(here.sent.getD (bit second) true) && (place.isSome == second)
      && rows.all (s.media.rowOpen d) && (s.items.leafIn q k (page / 2)).isNone != second
    if ok then
      let now := { here with sent := here.sent.set (bit second) true }
      some (byPlane rows (fun r =>
        let lst := ((s.media.map.find? (fun e => e.2.pstripe = (s.media.memberAt d.val r).1)).map (·.1)).getD 0
        sketchImage (s.items.width = 512) s.sketchMask (s.items.leafSketches leaf ms (bit second * 4 + r.plane.val)) lst),
        { s with items := { s.items with nodes := Tab.put s.items.nodes leaf (g, .leaf (some now) ms) } })
    else none
  | _, _ => none

/-! ## Rebuilt members (02 R80). -/

/-- The header of a page that is rebuilt; parity covers the data areas only, so the module's tables give it again. -/
def State.headerOf (s : State) (p member page : Nat) : List Byte :=
  let m := s.media
  match m.map.find? (fun e => e.2.pstripe = p) with
  | some e =>
    if member = 15 then pageHeader [] .parity e.2.owner e.1
    else if e.2.owner = 17 then ((s.sketchPage e.2.ostripe member page e.1).drop 16384).take 64
    else pageHeader (leBytes 1 (stripeArea e.2.owner e.2.ostripe none (Tab.at m.stripes p []) member page).2) .stripeData e.2.owner e.1
  | none =>
    if member = 15 then plainHeader [] .parity
    else
      match m.pages.find? (fun e => e.2.p = p && e.2.member = member && e.2.page = page) with
      | some e => slotHeader (if (logOf p).isSome then .log else .veneer) e.1 e.2.owner e.2.lstripe e.2.words
      | none => plainHeader (leBytes 8 ((m.pages.find? (fun e => e.2.p = p && e.2.member = member && e.2.page = 0)).map (·.1) |>.getD 0)) .summary

/-! ## Read offsets (02 R76). -/

/-- The retention bin of a plane-block now. -/
def State.binOf (s : State) (die : Nat) (r : Row) : Nat :=
  let w := Tab.at s.media.wear (wearKey die r) Wear.new
  Config.retentionBin (s.now - w.written) w.units % 8

/-- The key of an offset set: die, plane and bin. -/
def offsetKey (die plane bin : Nat) : Nat := (die * 4 + plane) * 8 + bin

/-- The stored sets of a block's mode and bin, the last refined first, at most three (02 R74, R76). -/
def State.setsOf (s : State) (die : Nat) (m : BMode) (r : Row) : List (List Byte) :=
  (s.media.offsets.filter (fun y => y.1 = offsetKey die r.plane.val (s.binOf die r) && y.2.1 = m)).map (fun y => y.2.2.2)

/-- The set number n of a block's mode and bin is loaded on its plane, unless the first is asked for and there already; a set never refined is of zeros (02 R74, R76;
log entry 78). -/
def State.loadNth (s : State) (d : DieNo) (m : BMode) (r : Row) (n : Nat) : State :=
  let on : Nat × BMode × Nat := (d.val * 4 + r.plane.val, m, s.binOf d.val r)
  if (n = 0 ∧ on ∈ s.media.offsetsOn) ∨ !(s.die d).takes .other then s
  else
    let set := ((s.setsOf d.val m r)[n]?).getD (zeros 15)
    let a := match m with
      | .qlc => 0x10 + r.plane.val
      | .slc => 0x14 + r.plane.val
    (s.setDie d ((s.die d).setFeature a (fit 16 set))).modMedia (fun x =>
      { x with offsetsOn := (if n = 0 then [on] else []) ++ x.offsetsOn.filter (fun y => !(y.1 = on.1 && y.2.1 = m)) })

/-- The set for a block is loaded on its plane (02 R76). -/
def State.loadSet (s : State) (d : DieNo) (m : BMode) (r : Row) : State := s.loadNth d m r 0

/-- The sets a sense of some rows needs are loaded (02 R76). -/
def State.loadSets (s : State) (d : DieNo) (m : BMode) (rows : List Row) : State := rows.foldl (fun s r => s.loadSet d m r) s

/-- The mode a stripe is stored in. -/
def Media.modeOf (m : Media) (p : Nat) : BMode :=
  match m.map.find? (fun e => e.2.pstripe = p) with
  | some e => if e.2.slc then .slc else .qlc
  | none => .slc

/-! ## Reads of pages (02 R74 to R77). -/

/-- Where a page record's page is: stripe, member and page. -/
def Media.pageAt (m : Media) (seq : Nat) : Option (Nat × Nat × Nat) := (Tab.find m.pages seq).map (fun e => (e.p, e.member, e.page))

/-- The page of a sector in a mapped stripe (02 R52). -/
def homeSpot (p sector sz : Nat) : Nat × Nat × Nat := (p, sector % sz / 4 % 15, sector % sz / 4 / 15)

/-- The page in which the newest copy of a sector lies: of the veneer, of a log block, or of the mapped stripe; none while it is in no page (02 R52, R54). -/
def Media.spotOf (m : Media) (o x : Nat) : Option (Nat × Nat × Nat) :=
  match newestIn m.veneer o x with
  | some c => m.pageAt c.seq
  | none =>
    match m.mapped? o (x / stripeSectors o) with
    | none => none
    | some (l, e) =>
      match (m.logsOf l).reverse.findSome? (fun b => newestIn b.2.copies o x) with
      | some c => m.pageAt c.seq
      | none => some (homeSpot e.pstripe x (stripeSectors o))

/-- The stripe and member in which the newest copy of a sector lies. -/
def Media.placeOf (m : Media) (o x : Nat) : Option (Nat × Nat) := (m.spotOf o x).map (fun q => (q.1, q.2.1))

/-- The pages of some sectors, each once. -/
def Media.spotsOf (m : Media) (o : Owner) (xs : List Nat) : List (Nat × Nat × Nat) := (xs.filterMap (m.spotOf o)).dedup

/-- The pages that a fold, merge or relocation reads for some copies: those of the veneer, of the logs it merges, or of its source (02 R60, R65, R70). -/
def Media.copySpots (m : Media) (r : Reloc) (cs : List SecCopy) : List (Nat × Nat × Nat) :=
  (cs.filterMap (fun c => match r.source with
    | none => m.pageAt c.seq
    | some p =>
      if m.logs.any (fun b => decide (b.1 ∈ r.logs) && c ∈ b.2.copies) then m.pageAt c.seq else some (homeSpot p c.sector (stripeSectors r.owner)))).dedup

/-- Whether the window of 100 µs in which a suspended die serves reads and scans has ended (02 R75). -/
def Media.windowOver (m : Media) (now : Nat) (d : DieNo) : Bool := m.susp.any (fun y => decide (y.die = d.val ∧ y.until_ ≤ now))

/-- The die of a page. -/
def Media.dieOf (m : Media) (x : Nat × Nat × Nat) : DieNo := ⟨(m.blockOf x.1 x.2.1).1 % 1024, Nat.mod_lt _ (by decide)⟩

/-- Whether the dies of some pages are free to be read: for Interactive work idle, or suspended for reads with their window open; for other work with no operation at all
(02 R75). -/
def State.spotsReady (s : State) (interactive : Bool) (l : List (Nat × Nat × Nat)) : Bool :=
  ((l.map s.media.dieOf).dedup).all (fun d => (s.die d).takes .other && !s.media.windowOver s.now d && (interactive || (s.die d).op.isNone))

/-- A page is read with a stored set of its bin (02 R74, R76, R77). -/
def State.readSpot (s : State) (x : Nat × Nat × Nat) (n : Nat) : State :=
  let b := s.media.blockOf x.1 x.2.1
  let m := s.media.modeOf x.1
  (s.loadNth (s.media.dieOf x) m b.2 n).countRead b.1 m b.2

/-- Pages are read, each with the set of its block (02 R76, R77). -/
def State.readSpots (s : State) (l : List (Nat × Nat × Nat)) : State := l.foldl (fun s x => s.readSpot x 0) s

/-! ## Units of a lost member (02 R80). -/

/-- Units of a lost member, in order, each from its fifteen companions, whose dies are free to be read (02 R75, R76, R80). -/
def State.planRebuild (s : State) (d : DieNo) (m : BMode) (rows : List Row) : Option (List (List Byte) × State) :=
  let at_ := fun (r : Row) => s.media.memberAt d.val r
  let pages := fun (r : Row) => (List.range (if m = .slc then 1 else 4)).map (· + r.page)
  let others := fun (r : Row) => (List.range 16).filter (fun k => k ≠ (at_ r).2)
  let spots := fun (r : Row) => (others r).flatMap (fun k => (pages r).map (fun j => ((at_ r).1, k, j)))
  let ok := rows.all (fun r =>
    s.media.rebuilding.any (fun x => decide (x.p = (at_ r).1 ∧ x.member = (at_ r).2 ∧ x.sent = unitNo m r.page)) && s.media.substituted (at_ r).1 (at_ r).2
      && decide (s.media.modeOf (at_ r).1 = m)
      && (others r).all (fun k => !s.media.lostMember (at_ r).1 k && (pages r).all (fun j => s.pageReady (at_ r).1 k j m))
      && s.spotsReady false (spots r))
  if ok then
    some (byPlane rows (fun r => (pages r).flatMap (fun j =>
      pageImage (xorAreas ((others r).map (fun k => s.pageArea (at_ r).1 k j))) (s.headerOf (at_ r).1 (at_ r).2 j))),
      (s.readSpots (rows.flatMap spots)).modMedia (fun x => { x with rebuilding := rows.foldl (fun (l : List Rebuild) r =>
        l.map (fun y => if y.p = (at_ r).1 ∧ y.member = (at_ r).2 then { y with sent := y.sent + 1 } else y)) x.rebuilding }))
  else none

/-! ## Pages of the system region (02 R66, R68, R69; 17 R540). -/

/-- A copy of a journal page goes to a page of the system region, on a die of another channel than the other copy (02 R66, R68). -/
def State.planJournal (s : State) (d : DieNo) (rows : List Row) (copy : Bool) (upTo : Nat) : Option (List (List Byte) × State) :=
  match rows, s.media.jPages.find? (fun p => (p.recs.getLast?.map (·.seq)) = some upTo) with
  | [r], some p =>
    let mine := if copy then p.at1 else p.at0
    let other := if copy then p.at0 else p.at1
    if s.media.systemRow d r ∧ s.leastSystem d r ∧ wearKey d.val r ∉ s.sec.pages.held ∧ mine.isNone ∧ (other.map (fun (e : Nat) => decide (e / 16 ≠ d.val / 16))).getD true then
      some (byPlane rows (fun r => p.image d.val r), s.modMedia (fun m => { m with
        jPages := m.jPages.map (fun x => if x.recs = p.recs then (if copy then { x with at1 := some d.val } else { x with at0 := some d.val }) else x) }))
    else none
  | _, _ => none

/-- The map word of an entry under a checkpoint's log pool table (02 R53). -/
def Tables.word (t : Tables) (l : Nat) (e : MapEntry) : Nat :=
  let ls := sortBy (fun (a b : Nat × Nat × Nat) => a.2.2 < b.2.2) (t.logs.filter (fun x => x.2.1 = l))
  e.word ((ls.head?.map (·.1)).getD 0) ls.length

/-- The bytes of a checkpoint. -/
def CpBuild.bytes (b : CpBuild) : List Byte := b.tables.bytes b.tables.word

/-- The pages of a checkpoint. -/
def CpBuild.pages (b : CpBuild) : Nat := ceilDiv b.bytes.length 16384

/-- A page of the checkpoint being written goes to the system region (02 R69). -/
def State.planCheckpoint (s : State) (d : DieNo) (rows : List Row) (i : Nat) : Option (List (List Byte) × State) :=
  match rows, s.media.cpBuild with
  | [r], some b =>
    if s.media.systemRow d r ∧ s.leastSystem d r ∧ wearKey d.val r ∉ s.sec.pages.held ∧ i < b.pages ∧ i ∉ b.sent then
      some (byPlane rows (fun r => checkpointImage b.num b.bytes i d.val r), s.modMedia (fun m => { m with cpBuild := some { b with sent := i :: b.sent } }))
    else none
  | _, _ => none

/-- What the security block holds now. -/
def Security.now (x : Security) : SecImage := ⟨x.ownerKey, x.lockSeq, x.locked, x.policy, x.volLocks⟩

/-- A copy of the security block goes to the next page of its block in its quarter, or to the first page of a block that has held none (17 R540, R549). -/
def State.planSecurity (s : State) (d : DieNo) (rows : List Row) (copy : QuarterNo) : Option (List (List Byte) × State) :=
  match rows with
  | [r] =>
    let x := s.sec.pages
    let k := wearKey d.val r
    let home : Bool := match Tab.find x.homes copy.val with
      | some h => decide (h = k)
      | none => decide (r.page = 0 ∧ k ∉ x.held)
    if s.media.systemRow d r ∧ s.leastSystem d r ∧ d.val / 256 = copy.val ∧ home ∧ x.okd.getD copy.val 0 < x.seq ∧ ¬ Tab.has x.sent copy.val then
      some (byPlane rows (fun r => securityImage x.seq d.val r), { s with sec := { s.sec with pages := { x with
        sent := Tab.put x.sent copy.val (x.seq, s.sec.now)
        homes := if r.page = 1023 then Tab.del x.homes copy.val else Tab.put x.homes copy.val k
        held := if k ∈ x.held then x.held else k :: x.held } } })
    else none
  | _ => none

/-! ## One frame, and its outcome. -/

/-- The data of a program frame by purpose, and the module once it is sent; none for a frame the module does not send now. A frame of no purpose carries its own data. -/
def State.plan (s : State) (d : DieNo) (m : BMode) (rows : List Row) (data : List (List Byte)) (why : ProgPurpose) : Option (List (List Byte) × State) :=
  match why with
  | .none => some (data, s)
  | .stripe => s.planStripe d m rows
  | .rebuild => s.planRebuild d m rows
  | why =>
    if m = .qlc then none
    else
      match why with
      | .veneer seqs => s.planVeneer d rows seqs
      | .log seqs => s.planLog d rows seqs
      | .journal copy upTo => s.planJournal d rows copy upTo
      | .parity => s.planParity d rows
      | .summary => s.planSummary d rows
      | .checkpoint i => s.planCheckpoint d rows i
      | .sketch leaf second => s.planSketch d rows leaf second
      | .security copy => s.planSecurity d rows copy
      | _ => none

/-- A relocation whose target is whole records its MAP_SET, which names the logs it has not merged; the four stripes of a sketch quad record theirs together (02 R50, R65, R70,
R77). -/
def Media.targetsWhole (m : Media) (now : Nat) : Media :=
  let whole := fun (r : Reloc) => r.step = .copying && r.okd.all (fun n => 1024 ≤ n)
  let go := (Tab.vals m.relocs).filter (fun r => whole r
    && (r.owner ≠ 17 || (List.range 4).all (fun c => m.relocs.any (fun e => e.2.owner = 17 && e.2.ostripe = r.ostripe / 4 * 4 + c && whole e.2))))
  go.foldl (fun (m : Media) r =>
    let coming := ((m.jPend ++ m.jPages.flatMap (·.recs)).filter (fun x => x.type = .logAttach && x.lstripe = r.lstripe)).map (fun x => bitsOf x.aux 0 20)
    let left := ((m.logsOf r.lstripe).map (·.1)).filter (fun k => k ∉ r.logs) ++ coming
    let word := (MapEntry.mk r.target r.slc false r.owner r.ostripe).word (left.headD 0 % 2048) (min left.length 4)
    { (m.journal now .mapSet r.lstripe word (r.target + 2 ^ 24)) with relocs := Tab.put m.relocs r.lstripe { r with step := .copied } }) m

/-- Log pages return OK: their copies stand in the log blocks, and the veneer copies they were made from are no longer needed (02 R61, R64). -/
def Media.landLog (m : Media) (seqs : List Nat) : Media :=
  let mine := m.logPend.filter (fun c => c.copy.seq ∈ seqs)
  { m with
    logs := mine.foldl (fun (t : Tab LogBlock) c => Tab.change t c.log (fun b => { b with copies := b.copies ++ [c.copy] })) m.logs
    logPend := m.logPend.filter (fun c => c.copy.seq ∉ seqs)
    veneer := m.veneer.filter (fun v => mine.all (fun c => !(v.owner = c.copy.owner && v.sector = c.copy.sector && v.seq = c.was)))
    pages := seqs.foldl (fun (t : Tab PageRec) q => Tab.change t q (fun (x : PageRec) => { x with ok := true })) m.pages }

/-- Whether a veneer stripe holds no needed data and takes no more: each of its pages has returned OK, or it is closed with none in flight, no copy of the veneer lies in it, and no
fold or log page on its way is made from a copy in it (02 R57, R61). -/
def Media.foldedOut (m : Media) (p : Nat) : Bool :=
  let l := m.pagesIn p
  (decide (l.length = stripePages) || m.stripeClosed p) && l.all (fun e => e.2.ok)
    && m.veneer.all (fun c => !(l.any (fun e => e.1 = c.seq))) && m.logPend.all (fun c => !(l.any (fun e => e.1 = c.was)))
    && (Tab.vals m.relocs).all (fun r => r.source.isSome || r.copies.all (fun c => !(l.any (fun e => e.1 = c.seq))))

/-- VENEER_FOLDED is recorded for each veneer stripe that holds no needed data (02 R61, R67). -/
def Media.veneerFolded (m : Media) (now : Nat) : Media :=
  (m.ring.filter (fun v => !v.folded && m.foldedOut v.p)).foldl (fun (m : Media) v =>
    { (m.journal now .veneerFolded 0xFFFFFFFF 0 (v.p + 2 ^ 24)) with ring := m.ring.map (fun x => if x.p = v.p then { x with folded := true } else x) }) m

/-- A leaf's page program returns OK, or fails and the leaf is written elsewhere (02 R79). -/
def Items.leafPage (x : Items) (leaf : Nat) (second ok : Bool) : Items :=
  { x with nodes := Tab.change x.nodes leaf (fun n => (n.1, match n.2 with
    | .leaf (some p) ms => .leaf (if ok then some { p with okd := p.okd.set (bit second) true } else none) ms
    | y => y)) }

/-- A copy of the security block returns OK: the newest page is what a start uses (17 R540); or fails, and the copy moves to another block (02 R79). -/
def SecPages.outcome (x : SecPages) (copy : Nat) (ok : Bool) : SecPages :=
  match Tab.find x.sent copy with
  | none => x
  | some (n, i) =>
    if ok then
      { x with sent := Tab.del x.sent copy, okd := x.okd.set copy n, newest := max x.newest n, image := if x.newest < n then i else x.image }
    else { x with sent := Tab.del x.sent copy, homes := Tab.del x.homes copy }

/-- What a program's outcome means to the module (02 R58, R61, R64, R68 to R70, R79, R80; 17 R540). -/
def State.programOutcome (s : State) (d : DieNo) (rows : List Row) (why : ProgPurpose) (ok : Bool) : State :=
  let spots := rows.map (fun r => s.media.memberAt d.val r)
  match why with
  | .veneer seqs =>
    if ok then
      let gone := (s.media.pend.filter (fun p => p.copy.seq ∈ seqs)).map (·.copy)
      let s := s.modMedia (fun m => (m.landPages s.now seqs).veneerFolded s.now)
      { s with health := gone.foldl (fun h c => h.leave c.owner (· = c.sector)) s.health }
    else s.modMedia (fun m => { m with pages := m.pages.filter (fun e => e.1 ∉ seqs) })
  | .log seqs =>
    s.modMedia (fun m => if ok then (m.landLog seqs).veneerFolded s.now
      else { m with logPend := m.logPend.filter (fun c => c.copy.seq ∉ seqs), pages := m.pages.filter (fun e => e.1 ∉ seqs) })
  | .journal copy upTo =>
    s.modMedia (fun m => if ok then (m.journalOk copy upTo).veneerFolded s.now
      else { m with jPages := m.jPages.map (fun p => if (p.recs.getLast?.map (·.seq)) = some upTo then (if copy then { p with at1 := none } else { p with at0 := none }) else p) })
  | .stripe =>
    s.modMedia (fun m => if ok then
        { m with relocs := spots.foldl (fun (t : Tab Reloc) (x : Nat × Nat) =>
          Tab.changeAll t (fun q => if q.target = x.1 then { q with okd := bumpAt q.okd x.2 } else q)) m.relocs }.targetsWhole s.now
      else spots.foldl (fun (m : Media) (x : Nat × Nat) => match m.targetOf x.1 with
        | some q => m.abandonReloc q.lstripe
        | none => m) m)
  | .rebuild =>
    if ok then
      s.modMedia (fun m => { m with rebuilding := spots.foldl (fun (l : List Rebuild) (x : Nat × Nat) =>
        l.map (fun y => if y.p = x.1 ∧ y.member = x.2 then { y with okd := y.okd + 1 } else y)) m.rebuilding })
    else s
  | .checkpoint i =>
    match s.media.cpBuild with
    | some b =>
      if ok then
        let b := { b with done := i :: b.done }
        s.modMedia (fun m =>
          let m := { m with cpBuild := some b }
          if b.done.length = b.pages then m.journal s.now .checkpointed 0xFFFFFFFF b.num 0 else m)
      else s.modMedia (fun m => { m with cpBuild := some { b with sent := b.sent.filter (· ≠ i) } })
    | none => s
  | .sketch leaf second => { s with items := s.items.leafPage leaf second ok }
  | .security copy => { s with sec := { s.sec with pages := s.sec.pages.outcome copy.val ok } }
  | _ => s

/-- A program the guard or the mode refused: its blocks take no further page and are erased, their data goes elsewhere, and nothing is retired: a leaf is placed anew and its
block's quad relocated, a rebuilt member waits for another substitute (02 R79). -/
def State.refusedElsewhere (s : State) (d : DieNo) (rows : List Row) (why : ProgPurpose) : State :=
  let spots := rows.map (fun r => s.media.memberAt d.val r)
  let keys := rows.map (wearKey d.val)
  if why = .none then s
  else
    let s := match why with
      | .sketch leaf second => { s with items := s.items.leafPage leaf second false }
      | _ => s
    s.modMedia (fun m =>
      let m := { m with
        closed := m.closed ++ keys.filter (fun k => k ∉ m.closed)
        badBlocks := m.badBlocks ++ keys.filter (fun k => k ∉ m.badBlocks) }
      let m := match why with
        | .rebuild => { m with
            rebuilding := m.rebuilding.filter (fun y => (y.p, y.member) ∉ spots)
            subst := m.subst.filter (fun y => (y.1, y.2.1) ∉ spots) }
        | .sketch _ _ => spots.foldl (fun (m : Media) (x : Nat × Nat) => m.needReloc x.1) m
        | _ => m
      let m := spots.foldl (fun (m : Media) (x : Nat × Nat) => match m.targetOf x.1 with
        | some q => m.abandonReloc q.lstripe
        | none =>
          match (logOf x.1).bind (Tab.find m.logs) with
          | some b => if b.lstripe ∈ m.relocNeeded then m else { m with relocNeeded := m.relocNeeded ++ [b.lstripe] }
          | none => m) m
      m.resend (fun x => (x.p, x.member) ∈ spots))

end Sys2Proof.Machine
end

