-- ==== Sys2Proof/Machine/Dies.lean ====
section
/-! DEFINITION. The frames a channel controller sends a die, and the die's own timed events (01), with the module's response to a die's
outcomes (02 R58, R68, R79). -/

namespace Sys2Proof.Machine

/-- A frame to a die that has power; a die without power takes none (01 R36). Each frame uses its own run of free values. -/
def State.frame (s : State) (d : DieNo) (f : Die → Die) : Host.Outcome State Fault Refusal :=
  if s.diesOn then .next ((s.setDie d (f (s.die d))).spend 16) else .next s

/-- A frame the die takes only in the states R14 allows: else BUSY and no other effect. -/
def State.frameIf (s : State) (d : DieNo) (c : DieCmd) (f : Die → Die) : Host.Outcome State Fault Refusal :=
  s.frame d (fun x => if x.takes c then f x else x.say .busy)

/-- A data transfer out: BUSY is answered but CODE is kept (01 R14, R15). -/
def State.dataFrame (s : State) (d : DieNo) (c : DieCmd) (f : Die → List Byte) : Host.Outcome State Fault Refusal :=
  s.frame d (fun x => if x.takes c then { x with out := f x, answer := .ok } else { x with out := [], answer := .busy })

/-! ## Reads. -/

/-- READ_PAGE (01 R10, R13, R14, R25, R26). A prefetch that is ready does not stay outstanding, on the planes it does not name either, of which the manual says nothing
(DESIGN CHOICE, log entry 64). -/
def execReadPage (d : DieNo) (mask : BitVec 4) (rows : Rows) (prefetching : Bool) (s : State) : Host.Outcome State Fault Refusal :=
  s.frameIf d .other (fun x =>
    let rs := rowsOf mask rows
    if !x.addressOk s.freeCtr mask rows then x.say .addressInvalid
    else
      match rs.map (x.modeOf s.freeCtr) with
      | m :: ms =>
        if ms.any (· ≠ m) then x.say .modeMismatch
        else { (x.startSense s.now .page rs m false) with preOn := prefetching, preReady := false, walk := none, answer := .ok }
      | [] => x.say .addressInvalid)

/-- READ_NEXT: the prefetched pages become current, at once or when their sense ends (01 R26, R28; log entry 21). A chain step with a block of the
other mode answers MODE_MISMATCH as it becomes current (01 R28). -/
def execReadNext (d : DieNo) (s : State) : Host.Outcome State Fault Refusal :=
  s.frameIf d .readNext (fun x =>
    match x.sense with
    | some q => { x with sense := some { q with into := false }, answer := .ok }
    | none =>
      if !x.preReady then x.say .noTarget
      else
        match x.walk with
        | some w =>
          let rs := x.curRows
          ((({ x with preReady := false }).exchange rs).say (if x.stepMismatch s.freeCtr rs w.2 then .modeMismatch else .ok)).walkOn s.now
        | none =>
          match x.curRows with
          | r :: rs =>
            let m := x.modeOf s.freeCtr r
            match nextRows m (r :: rs) with
            | none => x.say .noTarget
            | some cur =>
              let x := (({ x with preReady := false, curRows := cur }).exchange cur).say .ok
              match nextRows m cur with
              | some nxt => x.startSense s.now .prefetched nxt m true
              | none => x
          | [] => x.say .noTarget)

/-- READ_CHAIN starts a walk of the branch cache; an empty cache has no valid entry (01 R28; log entry 22). As at READ_PAGE a prefetch that is ready does not stay
outstanding (DESIGN CHOICE, log entry 64). -/
def execReadChain (d : DieNo) (m : BMode) (s : State) : Host.Outcome State Fault Refusal :=
  s.frameIf d .other (fun x =>
    match chainStep x.chain 0 with
    | [] => x.say .addressInvalid
    | idx => { (x.startSense s.now .chain (chainRows x.chain idx) m false) with
        walk := some (idx.length, m), preOn := false, preReady := false, answer := .ok })

/-- DATA_OUT: bytes of a plane's current page register; bytes no sense has put there, or past its end, are free (01 R12, R25; log entry 3). -/
def execDataOut (d : DieNo) (plane : PlaneNo) (col : Nat) (len : Nat) (s : State) : Host.Outcome State Fault Refusal :=
  match s.dataFrame d .dataOut (fun x =>
    match Tab.find x.regs plane.val with
    | some m => Mem.read 0xFF m col (min len (pageBytes - col)) ++ s.freeBytes (len - min len (pageBytes - col))
    | none => s.freeBytes len) with
  | .next t => .next (t.spend len)
  | o => o

/-! ## Programs and erases. -/

/-- The pages of a program: one per plane in pSLC, four in QLC, counted in FLASH_BYTES (15 R502). -/
def programPages (m : BMode) (mask : BitVec 4) : Nat := (planesOf mask).length * (match m with
  | .slc => 1
  | .qlc => 4)

/-- What the module does when the guard or the mode refuses a program: counted, PROGRAM_REFUSED, and the data goes elsewhere (02 R79, 15 R492, R503). -/
def State.programRefused (s : State) (d : DieNo) (rows : List Row) (c : DieCode) (why : ProgPurpose) : State :=
  match rows with
  | [] => s
  | r :: _ =>
    if c = .programOrder ∨ c = .modeMismatch then
      ((s.count 27 1).record 0x3003 (sourceOf 4 d.val) (leBytes 1 c.num ++ leBytes 4 (s.media.memberAt d.val r).1)).refusedElsewhere d rows why
    else s

/-- The first program of a block since its erase: the block's age and reads count from it (02 R76, R77; log entry 78). -/
def Media.written (m : Media) (now : Nat) (d : DieNo) (rows : List Row) : Media :=
  { m with wear := (rows.filter (fun r => r.page = 0)).foldl (fun (t : Tab Wear) r =>
    Tab.put t (wearKey d.val r) { Tab.at t (wearKey d.val r) Wear.new with reads := 0, written := now }) m.wear }

/-- A program frame of either mode (01 R13, R14, R20 to R22). A frame of one of the module's purposes holds the pages that purpose gives; one the module does not send now
is not a frame (02 R55). -/
def State.programFrame (s : State) (d : DieNo) (m : BMode) (k : OpKind) (mask : BitVec 4) (rows : Rows) (data : List (List Byte))
    (why : ProgPurpose) : Host.Outcome State Fault Refusal :=
  let x := s.die d
  let rs := rowsOf mask rows
  match s.plan d m rs data why with
  | none => .next s
  | some (data, t) =>
    if !s.diesOn then .next s
    else if !x.takes .writes then .next (s.setDie d (x.say .busy))
    else
      match x.programRefusal s.freeCtr m mask rows with
      | some c => .next (((s.setDie d (x.say c)).programRefused d rs c why).spend 16)
      | none =>
        let t := t.modMedia (fun y => y.written s.now d rs)
        .next (((t.setDie d { (x.startOp s.now k rs data why .none) with answer := .ok }).pagesProgrammed (programPages m mask)).spend 16)

/-- PROGRAM_SLC (01 R20). -/
def execProgramSlc (d : DieNo) (mask : BitVec 4) (rows : Rows) (data : List (List Byte)) (why : ProgPurpose) (s : State) :
    Host.Outcome State Fault Refusal :=
  s.programFrame d .slc .slc mask rows data why

/-- PROGRAM_QLC (01 R20). -/
def execProgramQlc (d : DieNo) (mask : BitVec 4) (rows : Rows) (data : List (List Byte)) (why : ProgPurpose) (s : State) :
    Host.Outcome State Fault Refusal :=
  s.programFrame d .qlc .qlc mask rows data why

/-- Whether the module needs what a plane-block holds: data of a mapped stripe or an attached log, a copy of the veneer, or a page of the security block that is in force
(02 R61, R79; 17 R549). -/
def State.blockNeeded (s : State) (d : DieNo) (r : Row) : Bool :=
  let m := s.media
  let x := m.memberAt d.val r
  if r.block < systemBlocks then
    decide (wearKey d.val r ∈ s.sec.pages.old ∧ ¬ s.secured s.sec.pages.seq) || s.sec.pages.homes.any (fun e => e.2 = wearKey d.val r)
  else
    (!m.lostMember x.1 x.2 && (m.map.any (fun e => e.2.pstripe = x.1) || ((logOf x.1).map (Tab.has m.logs)).getD false))
      || m.veneer.any (fun c => ((Tab.find m.pages c.seq).map (fun e => decide (e.p = x.1 ∧ e.member = x.2))).getD false)

/-- Whether the module sends an erase of a purpose now (02 R61, R70, R79; 17 R549). -/
def State.eraseDue (s : State) (d : DieNo) (rows : List Row) (why : ErasePurpose) : Bool :=
  match why with
  | .none => true
  | .stripe => rows.all (fun r =>
    let x := s.media.memberAt d.val r
    ((Tab.find s.media.toErase x.1).map (fun l => decide (x.2 ∉ l))).getD false)
  | .block => rows.all (fun r => decide (wearKey d.val r ∈ s.media.badBlocks) && !s.blockNeeded d r)

/-- ERASE (01 R13, R14, R19). -/
def execErase (d : DieNo) (mask : BitVec 4) (rows : Rows) (m : BMode) (why : ErasePurpose) (s : State) : Host.Outcome State Fault Refusal :=
  if !s.eraseDue d (rowsOf mask rows) why then .next s
  else
    s.frameIf d .writes (fun x =>
      if !x.addressOk s.freeCtr mask rows then x.say .addressInvalid
      else { (x.startOp s.now (.erase m) (rowsOf mask rows) [] .none why) with answer := .ok })

/-- SUSPEND (01 R14, R29). -/
def execSuspend (d : DieNo) (s : State) : Host.Outcome State Fault Refusal :=
  s.frameIf d .suspend (fun x => x.suspendOp s.now)

/-- RESUME (01 R14, R31). -/
def execResume (d : DieNo) (s : State) : Host.Outcome State Fault Refusal :=
  s.frameIf d .other (fun x => x.resumeOp s.now)

/-! ## Scans, features and identity. -/

/-- LOAD_QUERY (01 R39). -/
def execLoadQuery (d : DieNo) (slot : Fin 8) (wide : Bool) (data : List Byte) (s : State) : Host.Outcome State Fault Refusal :=
  s.frameIf d .other (fun x =>
    ({ x with queries := Tab.put x.queries slot.val ⟨wide, BitVec.ofNat 512 (leNat (data.take (sketchBits wide / 8)))⟩ }).say .ok)

/-- LOAD_CHAIN: the whole load is refused if any entry fails R10's checks (01 R27). A READ_CHAIN walk that has not ended is dropped with its
prefetched step, of which the manual says nothing (DESIGN CHOICE, log entry 64). -/
def execLoadChain (d : DieNo) (entries : List W32) (s : State) : Host.Outcome State Fault Refusal :=
  s.frameIf d .other (fun x =>
    if entries.all (x.chainEntryOk s.freeCtr) then ({ x with chain := chainEnd (entries.take 32), walk := none, preReady := x.preReady && x.walk.isNone }).say .ok
    else x.say .addressInvalid)

/-- SCAN: refused with QUERY_INVALID, or the walk of the chain starts in pSLC mode (01 R40, R41; log entry 22). The prefetch buffers of the planes it
senses are lost; those of other planes stay (01 R48). -/
def execScan (d : DieNo) (mask : BitVec 8) (allow : List (List Byte)) (s : State) : Host.Outcome State Fault Refusal :=
  s.frameIf d .other (fun x =>
    let sel := (List.range 8).filter (fun i => mask.getLsbD i)
    let qs := x.selected mask
    if mask = 0#8 ∨ sel.any (fun i => !(Tab.has x.queries i)) ∨ qs.any (fun q => q.2.wide ≠ wideOf qs) then x.say .queryInvalid
    else if x.chain = [] then x.say .addressInvalid
    else
      let planes := x.chain.map (fun e => (chainRow e).plane)
      ({ x with scanRun := some ⟨mask, allow, 0, [], false, false, 0, 0, 0, []⟩, result := []
                pre := x.pre.filter (fun e => planes.all (·.val ≠ e.1))
                preReady := x.preReady && x.curRows.any (fun r => r.plane ∉ planes)
                answer := .ok }).scanOn s.now)

/-- RESULT_OUT: the result block; with none held, 544 free bytes (01 R44, R45; log entry 3). -/
def execResultOut (d : DieNo) (s : State) : Host.Outcome State Fault Refusal :=
  match s.dataFrame d .other (fun x => if x.result = [] then s.freeBytes 544 else x.result) with
  | .next t => .next (t.spend 544)
  | o => o

/-- READ_STATUS, in every state, changes nothing but what the die sends (01 R14, R15). -/
def execReadStatus (d : DieNo) (s : State) : Host.Outcome State Fault Refusal :=
  s.frame d (fun x => { x with out := leBytes 2 x.status.toNat })

/-- GET_FEATURE; the 16 bytes of a reserved address are free, and the die's temperature is what its sensor gives now, a free value (01 R17; log
entries 3, 11). -/
def execDieGetFeature (d : DieNo) (addr : Byte) (s : State) : Host.Outcome State Fault Refusal :=
  s.frame d (fun x =>
    if x.takes .getFeature then
      let x := { x with temp := s.freeBits 16 }
      { x with out := (x.feature addr.toNat).getD (s.freeBytes 16), answer := .ok }
    else { x with out := [], answer := .busy })

/-- SET_FEATURE (01 R17); which offset sets the die's planes hold is then not known (02 R76). -/
def execDieSetFeature (d : DieNo) (addr : Byte) (data : List Byte) (s : State) : Host.Outcome State Fault Refusal :=
  match s.frameIf d .other (fun x => x.setFeature addr.toNat data) with
  | .next t => .next (t.modMedia (fun m => { m with offsetsOn := m.offsetsOn.filter (fun y => y.1 / 4 ≠ d.val) }))
  | o => o

/-- READ_ID (01 R18). -/
def execReadId (d : DieNo) (s : State) : Host.Outcome State Fault Refusal :=
  s.dataFrame d .other (fun _ => [0x53, 0x58, 0x41, 0x04, 0x40, 0x08, 0x0E, 0x01])

/-- RESET: any operation is abandoned, its unit undefined, and the reset time runs: 500 µs during a program or erase, else 10 µs (01 R11, R34, R36).
A suspended operation counts as a program or erase in progress, and a RESET that comes while an earlier one is under way begins a reset of 10 µs, since the operation is
gone by then; R11 speaks of neither (DESIGN CHOICE, log entry 64). -/
def execReset (d : DieNo) (s : State) : Host.Outcome State Fault Refusal :=
  match s.frame d (fun x =>
    let busy := match x.op with
      | some _ => true
      | none => false
    { x.cleared with resetDue := some (s.now + (if busy then 500 else 10) * usUnits) }) with
  | .next t => .next (t.modMedia (fun m => { m with offsetsOn := m.offsetsOn.filter (fun y => y.1 / 4 ≠ d.val) }))
  | o => o

/-- The opcodes a die implements, with the command of each (01 R12). -/
def dieOpcodes : List (Nat × String) :=
  [(0x01, "READ_PAGE"), (0x02, "READ_NEXT"), (0x03, "READ_CHAIN"), (0x04, "DATA_OUT"), (0x10, "PROGRAM_SLC"), (0x11, "PROGRAM_QLC"), (0x20, "ERASE"), (0x30, "SUSPEND"),
   (0x31, "RESUME"), (0x40, "LOAD_QUERY"), (0x41, "LOAD_CHAIN"), (0x42, "SCAN"), (0x43, "RESULT_OUT"), (0x70, "READ_STATUS"), (0x71, "GET_FEATURE"),
   (0x72, "SET_FEATURE"), (0x73, "READ_ID"), (0xFF, "RESET")]

/-- The opcode byte of the frame that a command of the table stands for (01 R12). -/
def frameOpcode : Instr → Option Nat
  | .readPage .. => some 0x01
  | .readNext .. => some 0x02
  | .readChain .. => some 0x03
  | .dataOut .. => some 0x04
  | .programSlc .. => some 0x10
  | .programQlc .. => some 0x11
  | .erase .. => some 0x20
  | .suspend .. => some 0x30
  | .resume .. => some 0x31
  | .loadQuery .. => some 0x40
  | .loadChain .. => some 0x41
  | .scan .. => some 0x42
  | .resultOut .. => some 0x43
  | .readStatus .. => some 0x70
  | .dieGetFeature .. => some 0x71
  | .dieSetFeature .. => some 0x72
  | .readId .. => some 0x73
  | .reset .. => some 0xFF
  | .dieReservedOpcode _ op => some op.toNat
  | _ => none

/-- A reserved opcode: OPCODE_INVALID, no other effect, in every state: R13 gives the answer to any reserved opcode, and R14's BUSY is read as the
answer to commands of the table (DESIGN CHOICE, log entry 64). An opcode the table lists is no such frame. -/
def execDieReservedOpcode (d : DieNo) (op : Byte) (s : State) : Host.Outcome State Fault Refusal :=
  if dieOpcodes.any (fun e => e.1 = op.toNat) then .next s
  else s.frame d (fun x => x.say .opcodeInvalid)

/-! ## The die's own events. -/

/-- A sense ends: the registers hold the pages, and each page read counts against its block (01 R25, R26, R28, R41; 02 R77). -/
def execSenseComplete (d : DieNo) (flips : List (PlaneNo × Nat)) (s : State) : Host.Outcome State Fault Refusal :=
  match (s.die d).sense with
  | none => .next s
  | some q =>
    let s := s.at_ q.due
    let s := (s.setDie d ((s.die d).senseDone s.freeCtr s.now flips)).spend senseSpan
    .next (q.rows.foldl (fun s r => s.countRead d.val q.mode r) s)

/-- The comparator finishes a step, at most 1.5 µs after its sensing ended (01 R44). -/
def execScanStepCompare (d : DieNo) (s : State) : Host.Outcome State Fault Refusal :=
  .next (s.setDie d ((s.die d).compare s.freeCtr))

/-- A pending suspension starts when run time reaches the minimum; an operation due first completes instead (01 R29, R30). -/
def execSuspendStart (d : DieNo) (s : State) : Host.Outcome State Fault Refusal :=
  let x := s.die d
  match x.op with
  | some o =>
    if o.st = .pending ∧ minRun o.kind < o.needed - o.ran then
      let s := s.at_ (o.since + minRun o.kind)
      .next (s.setDie d { x with op := some (o.beginSuspend s.now true) })
    else .next s
  | none => .next s

/-- Suspend latency ends: SUSP and RDY are set, and the suspend counts (01 R29). -/
def execSuspended (d : DieNo) (s : State) : Host.Outcome State Fault Refusal :=
  let x := s.die d
  match x.op with
  | some o =>
    match o.st with
    | .latency due _ => .next ((s.at_ due).setDie d { x with op := some { o with st := .suspended, used := o.used + 1 } })
    | _ => .next s
  | none => .next s

/-- The reset time passes (01 R36). A frame refused while it ran has left its BUSY, or a reserved opcode its OPCODE_INVALID, in CODE, as R15 says of the last command, and
there it stays, though R36 speaks of reset values (DESIGN CHOICE, log entry 64). -/
def execResetComplete (d : DieNo) (s : State) : Host.Outcome State Fault Refusal :=
  let x := s.die d
  match x.resetDue with
  | some t => .next ((s.at_ t).setDie d { x with resetDue := none })
  | none => .next s

/-- When an operation that is not suspended ends: at its due time, or during the suspend latency; one that waits to be suspended ends only if its
run time does not reach the minimum first (01 R29, R30). -/
def DieOp.endAt (o : DieOp) (now : Nat) : Option Nat :=
  match o.st with
  | .running => some o.due
  | .pending => if minRun o.kind < o.needed - o.ran then none else some o.due
  | .latency _ _ => some now
  | .suspended => none

/-- A program ends with OK or PROGRAM_FAIL; a failure retires its member blocks (01 R23; 02 R79). -/
def execDieProgramComplete (d : DieNo) (verified : Bool) (s : State) : Host.Outcome State Fault Refusal :=
  match (s.die d).op with
  | some o =>
    match o.kind, o.endAt s.now with
    | .erase _, _ => .next s
    | _, none => .next s
    | _, some t =>
      let s := s.at_ t
      let s := s.setDie d ((s.die d).opDone o verified)
      let s := s.programOutcome d o.rows o.prog verified
      let s := if verified then s else o.rows.foldl (fun s r => s.retireBlock d.val r 1) (s.count 25 1)
      .next s.spareCheck
  | none => .next s

/-- A member of a stripe awaiting erase is erased, or its erase failed and it is retired; with no member left ERASE_DONE is recorded (02 R70). -/
def Media.memberErased (m : Media) (now : Nat) (x : Nat × Nat) : Media :=
  match Tab.find m.toErase x.1 with
  | none => m
  | some l =>
    let l := if x.2 ∈ l then l else x.2 :: l
    let whole := (List.range 16).all (fun k => k ∈ l || (decide ((x.1, k) ∈ m.retired) && !m.substituted x.1 k))
    let m := { m with toErase := Tab.put m.toErase x.1 l }
    if whole then m.journal now .eraseDone 0xFFFFFFFF 0 (x.1 + 2 ^ 24) else m

/-- What an erase's outcome means to the module: stripes awaiting erase, and blocks that held the security block with a destroyed key (02 R70, 17 R549). -/
def State.eraseOutcome (s : State) (d : DieNo) (rows : List Row) (why : ErasePurpose) (ok : Bool) : State :=
  let keys := rows.map (wearKey d.val)
  match why with
  | .none => s
  | .stripe => s.modMedia (fun m => (rows.map (m.memberAt d.val)).foldl (fun (m : Media) x => m.memberErased s.now x) m)
  | .block =>
    if ok then
      { s with sec := { s.sec with pages := { s.sec.pages with
        held := s.sec.pages.held.filter (fun k => k ∉ keys), old := s.sec.pages.old.filter (fun k => k ∉ keys) } } }
    else s

/-- An erase ends with OK or ERASE_FAIL; a failure retires its member blocks, a success counts as wear (01 R23; 02 R78, R79). -/
def execEraseComplete (d : DieNo) (verified : Bool) (s : State) : Host.Outcome State Fault Refusal :=
  match (s.die d).op with
  | some o =>
    match o.kind, o.endAt s.now with
    | .erase m, some t =>
      let s := s.at_ t
      let s := s.setDie d ((s.die d).opDone o verified)
      let s := s.eraseOutcome d o.rows o.er verified
      let s := if verified then o.rows.foldl (fun s r => s.wearErase d.val m r) s
        else o.rows.foldl (fun s r => s.retireBlock d.val r 2) (s.count 26 1)
      .next s.spareCheck
    | _, _ => .next s
  | none => .next s

end Sys2Proof.Machine
end

