-- ==== Sys2Proof/Machine/Floats.lean ====
section
/-! DEFINITION. Numbers of every format of 05: reading a code, exact arithmetic, rounding to a grid (R155 to R160), saturation (R156, R157), the
conversion into blocked formats (R150 to R152), and the rescale at the drain (R166 to R171). -/

namespace Sys2Proof.Machine

/-- Rounding: the modes of R155, and `up`, the rounding of positive scales toward +∞ (R164, R165, R171). -/
inductive Rnd where
  | even | zero | stoch | up
deriving DecidableEq, Repr, Inhabited

/-- A rounding-mode code of R155. -/
def Rnd.ofCode : Nat → Rnd
  | 1 => .zero
  | 2 => .stoch
  | _ => .even

/-- The mode where stochastic rounding has no effect (R160). -/
def Rnd.plain : Rnd → Rnd
  | .stoch => .even
  | r => r

/-- A value as an exact number: NaN with sign and a 23-bit fraction aligned left, an infinity, or ± n ÷ d with d above 0; −0 keeps its sign. -/
inductive Num where
  | nan (neg : Bool) (frac : Nat)
  | inf (neg : Bool)
  | fin (neg : Bool) (n d : Nat)
deriving DecidableEq, Repr, Inhabited

/-- The NaN the module produces: quiet, sign 0, only the top fraction bit (R154). -/
def Num.quiet : Num := .nan false (2 ^ 22)

/-- A NaN let pass is quietened and keeps its payload (R154). -/
def Num.quieten : Num → Num
  | .nan s f => .nan s (if f / 2 ^ 22 % 2 = 1 then f else f + 2 ^ 22)
  | x => x

/-- +0. -/
def Num.zero : Num := .fin false 0 1

/-- An integer as an exact number; 0 is +0 (R157). -/
def Num.ofInt (x : Int) : Num := .fin (decide (x < 0)) x.natAbs 1

/-- m × 2^e. -/
def Num.scaled (neg : Bool) (m : Nat) (e : Int) : Num := .fin neg (m * 2 ^ e.toNat) (2 ^ (-e).toNat)

/-- Whether a number is a NaN. -/
def Num.isNan : Num → Bool
  | .nan _ _ => true
  | _ => false

/-- The sign. -/
def Num.neg? : Num → Bool
  | .nan s _ => s
  | .inf s => s
  | .fin s _ _ => s

/-- The negation. -/
def Num.negate : Num → Num
  | .nan s f => .nan (!s) f
  | .inf s => .inf (!s)
  | .fin s n d => .fin (!s) n d

/-- The magnitude. -/
def Num.abs : Num → Num
  | .nan _ f => .nan false f
  | .inf _ => .inf false
  | .fin _ n d => .fin false n d

/-! ## Comparison: −0 equals +0; no NaN here (04 R122). -/

/-- a < b for numbers that are not NaN. -/
def Num.lt : Num → Num → Bool
  | .inf true, .inf true => false
  | .inf true, .fin _ _ _ => true
  | .inf true, .inf false => true
  | .fin _ _ _, .inf b => !b
  | .fin a n d, .fin b m e =>
    let x : Int := (if a then -(n : Int) else n) * e
    let y : Int := (if b then -(m : Int) else m) * d
    x < y
  | _, _ => false

/-- a = b for numbers that are not NaN. -/
def Num.eqv (a b : Num) : Bool := !(a.lt b) && !(b.lt a)

/-- The greater of two numbers, the first of equals. -/
def Num.maxOf (a b : Num) : Num := if a.lt b then b else a

/-! ## Exact arithmetic; signs of zero as IEEE 754 gives them (R153). -/

/-- The exact sum. -/
def Num.add : Num → Num → Num
  | .nan _ _, _ => .quiet
  | _, .nan _ _ => .quiet
  | .inf a, .inf b => if a = b then .inf a else .quiet
  | .inf a, _ => .inf a
  | _, .inf b => .inf b
  | .fin a n d, .fin b m e =>
    let x : Int := (if a then -(n : Int) else n) * e + (if b then -(m : Int) else m) * d
    if x = 0 then .fin (a && b) 0 1 else .fin (decide (x < 0)) x.natAbs (d * e)

/-- The exact product. -/
def Num.mul : Num → Num → Num
  | .nan _ _, _ => .quiet
  | _, .nan _ _ => .quiet
  | .inf a, .inf b => .inf (a != b)
  | .inf a, .fin b m _ => if m = 0 then .quiet else .inf (a != b)
  | .fin a n _, .inf b => if n = 0 then .quiet else .inf (a != b)
  | .fin a n d, .fin b m e => .fin (a != b) (n * m) (d * e)

/-- The exact quotient by a number that is finite and not zero. -/
def Num.div : Num → Num → Num
  | .fin a n d, .fin b m e => .fin (a != b) (n * e) (d * m)
  | _, _ => .quiet

/-! ## Rounding to a grid (R155, R159). -/

/-- n ÷ d rounded to a whole number, for a value of the given sign; u is the draw of a stochastic rounding. -/
def roundQ (r : Rnd) (neg : Bool) (u n d : Nat) : Nat :=
  let q := n / d
  let m := n % d
  match r with
  | .even => if d < 2 * m ∨ (2 * m = d ∧ q % 2 = 1) then q + 1 else q
  | .zero => q
  | .up => if m = 0 then q else q + 1
  | .stoch =>
    if m = 0 then q
    else if neg then (if u < 65536 * (d - m) / d then q else q + 1)
    else (if u < 65536 * m / d then q + 1 else q)

/-- floor(log2(n ÷ d)) for n and d above 0. -/
def qLog (n d : Nat) : Int :=
  let e : Int := (Nat.log2 n : Int) - Nat.log2 d
  if n * 2 ^ (-e).toNat < d * 2 ^ e.toNat then e - 1 else e

/-- n ÷ d ÷ 2^k rounded to a whole number. -/
def gridRound (r : Rnd) (neg : Bool) (u n d : Nat) (k : Int) : Nat := roundQ r neg u (n * 2 ^ (-k).toNat) (d * 2 ^ k.toNat)

/-! ## Floating-point formats (R153): eb exponent bits, fb fraction bits. -/

/-- The number a floating-point code holds. -/
def decodeFloat (eb fb x : Nat) : Num :=
  let f := x % 2 ^ fb
  let e := x / 2 ^ fb % 2 ^ eb
  let s := bitOf x (fb + eb)
  if e = 2 ^ eb - 1 then (if f = 0 then .inf s else .nan s (f * 2 ^ (23 - fb)))
  else if e = 0 then .scaled s f (2 - 2 ^ (eb - 1) - fb)
  else .scaled s (2 ^ fb + f) ((e : Int) + 1 - 2 ^ (eb - 1) - fb)

/-- A sign put before a magnitude's code. -/
def signCode (eb fb : Nat) (neg : Bool) (m : Nat) : Nat := if neg then 2 ^ (eb + fb) + m else m

/-- A number rounded and saturated into a floating-point format, and whether it saturated (R156, R157). A NaN let pass keeps its sign and the top of its
payload and is quietened (R154). -/
def encodeFloat (eb fb : Nat) (r : Rnd) (u : Nat) (x : Num) : Nat × Bool :=
  match x with
  | .nan s f =>
    let g := f / 2 ^ (23 - fb)
    (signCode eb fb s ((2 ^ eb - 1) * 2 ^ fb + (if bitOf g (fb - 1) then g else g + 2 ^ (fb - 1))), false)
  | .inf s => (signCode eb fb s ((2 ^ eb - 1) * 2 ^ fb), false)
  | .fin s n d =>
    if n = 0 then (signCode eb fb s 0, false)
    else
      let emin : Int := 2 - 2 ^ (eb - 1)
      let k : Int := max (qLog n d - fb) (emin - fb)
      let q := gridRound r s u n d k
      if q < 2 ^ fb then (signCode eb fb s q, false)
      else
        let b := Nat.log2 q
        let e : Int := b + k
        if 2 ^ (eb - 1) - 1 < e then (signCode eb fb s ((2 ^ eb - 1) * 2 ^ fb - 1), true)
        else (signCode eb fb s ((e - emin + 1).toNat * 2 ^ fb + (q * 2 ^ fb / 2 ^ b - 2 ^ fb)), false)

/-- A number rounded to the nearest-even grid of FP32 with no bound on its range: what a lane computes before its own rounding (04 R118). -/
def wide32 (r : Rnd) (u : Nat) (x : Num) : Num :=
  match x with
  | .fin s n d =>
    if n = 0 then x
    else
      let k : Int := max (qLog n d - 23) (-149)
      .scaled s (gridRound r s u n d k) k
  | _ => x

/-- FP32 codes. -/
def num32 (x : Nat) : Num := decodeFloat 8 23 x
/-- A number as FP32. -/
def fp32 (r : Rnd) (x : Num) : Nat := (encodeFloat 8 23 r 0 x).1

/-- The smallest FP32 normal. -/
def minNormal : Nat := 0x00800000

/-- Whether an FP32 code is positive, finite and normal (R161). -/
def posNormal (x : Nat) : Bool := minNormal ≤ x && x < 0x7F800000

/-! ## Integers (R149, R157). -/

/-- A number rounded and saturated between two codes; a NaN becomes 0 and counts. -/
def encodeInt (lo hi : Int) (r : Rnd) (x : Num) : Int × Bool :=
  match x with
  | .nan _ _ => (0, true)
  | .inf s => (if s then lo else hi, true)
  | .fin s n d =>
    let q := roundQ r.plain s 0 n d
    let v : Int := if s then -(q : Int) else q
    if v < lo then (lo, true) else if hi < v then (hi, true) else (v, false)

/-- The least and greatest value of a signed width. -/
def intMin (w : Nat) : Int := -(2 ^ (w - 1) : Nat)
def intMax (w : Nat) : Int := (2 ^ (w - 1) : Nat) - 1

/-- INT48 saturation (05 R149, 03 R105). -/
def sat48 (x : Int) : Int × Bool :=
  if x < intMin 48 then (intMin 48, true) else if intMax 48 < x then (intMax 48, true) else (x, false)

/-! ## The format codes of 06 R202. -/

/-- Bits of an element of a format. -/
def fmtBits : Nat → Nat
  | 0 => 1
  | 1 => 1
  | 2 => 4
  | 3 => 4
  | 9 => 4
  | 4 => 8
  | 5 => 8
  | 10 => 8
  | 6 => 16
  | 7 => 16
  | 12 => 16
  | 13 => 16
  | 14 => 64
  | _ => 32

/-- Whether a format's integers are signed; a blocked format's mantissas are. -/
def fmtSigned (f : Nat) : Bool := f ∈ [0, 2, 4, 6, 8, 9, 10, 14]

/-- Whether a format is a floating-point one. -/
def fmtFloat (f : Nat) : Bool := f ∈ [11, 12, 13]

/-- The integer value of a code. -/
def intValue (f x : Nat) : Int := if fmtSigned f then signedOf (fmtBits f) x else (x % 2 ^ fmtBits f : Nat)

/-- The number a code of a format holds (R149, R153); a mantissa of a blocked format stands without its exponent. -/
def decodeFmt (f x : Nat) : Num :=
  if f = 11 then decodeFloat 8 23 x
  else if f = 12 then decodeFloat 5 10 x
  else if f = 13 then decodeFloat 8 7 x
  else .ofInt (intValue f x)

/-- A number converted into a format, and whether it saturated (R155 to R157). -/
def encodeFmt (f : Nat) (r : Rnd) (u : Nat) (x : Num) : Nat × Bool :=
  if f = 11 then encodeFloat 8 23 r u x
  else if f = 12 then encodeFloat 5 10 r.plain u x
  else if f = 13 then encodeFloat 8 7 r.plain u x
  else
    let w := fmtBits f
    let v := if fmtSigned f then encodeInt (intMin w) (intMax w) r x else encodeInt 0 ((2 ^ w : Nat) - 1) r x
    (wrapTo w v.1, v.2)

/-- Element i of an array in a format, packed from the least significant bit (R149). -/
def elemAt (f : Nat) (bs : List Byte) (i : Nat) : Nat :=
  let w := fmtBits f
  if w < 8 then bitsOf (fieldAt bs (i * w / 8) 1) (i * w % 8) w else fieldAt bs (i * (w / 8)) (w / 8)

/-- Codes of a format packed into bytes (R149). -/
def packElems (f : Nat) (xs : List Nat) : List Byte :=
  let w := fmtBits f
  if w < 8 then
    (chunksOf (8 / w) xs).map (fun c => BitVec.ofNat 8 (c.reverse.foldl (fun a x => a * 2 ^ w + x % 2 ^ w) 0))
  else xs.flatMap (fun x => leBytes (w / 8) x)

/-! ## Blocked formats (R150 to R152). -/

/-- The exponent an E8 code gives (R151). -/
def e8 (b : Byte) : Int := (b.toNat : Int) - 128

/-- The code of an exponent (R151). -/
def e8Code (e : Int) : Byte := BitVec.ofNat 8 (e + 128).toNat

/-- The magnitude of a finite number; a NaN or infinity has none (log entry 31). -/
def finMag : Num → Nat × Nat
  | .fin _ n d => (n, d)
  | _ => (0, 1)

/-- The largest of some magnitudes. -/
def maxMag (l : List (Nat × Nat)) : Nat × Nat :=
  l.foldl (fun a x => if a.1 * x.2 < x.1 * a.2 then x else a) (0, 1)

/-- The exponent R152 chooses for a block of largest magnitude n ÷ d and mantissas of width w. -/
def blockExp (r : Rnd) (w : Nat) (a : Nat × Nat) : Int :=
  if a.1 = 0 then -128
  else
    let e := qLog a.1 a.2 - (w - 2 : Nat)
    let e := if 2 ^ (w - 1) - 1 < gridRound r.plain false 0 a.1 a.2 e then e + 1 else e
    min 127 (max (-128) e)

/-- A mantissa: x × 2^(−e) rounded and saturated (R152). -/
def mantissa (r : Rnd) (w : Nat) (e : Int) (x : Num) : Int × Bool :=
  match x with
  | .fin s n d => encodeInt (intMin w) (intMax w) r (.fin s (n * 2 ^ (-e).toNat) (d * 2 ^ e.toNat))
  | y => encodeInt (intMin w) (intMax w) r y

/-- A block of numbers in BI4 or BI8: the exponent, the mantissas, and how many saturated (R152; log entry 31). -/
def toBlock (r : Rnd) (w : Nat) (xs : List Num) : Int × List Int × Nat :=
  let e := blockExp r w (maxMag (xs.map finMag))
  let ms := xs.map (mantissa r w e)
  (e, ms.map (·.1), (ms.filter (·.2)).length)

/-- An element of a block: m × 2^e (R150). -/
def ofBlock (m e : Int) : Num := .scaled (decide (m < 0)) m.natAbs e

/-! ## Scales (R161 to R165) and the rescale (R166 to R171). -/

/-- qmax of an integer format: its greatest value. -/
def qmaxOf (f : Nat) : Nat := if fmtSigned f then 2 ^ (fmtBits f - 1) - 1 else 2 ^ fmtBits f - 1

/-- A magnitude divided by a number and rounded toward +∞ to FP32, no less than the smallest normal (R164, R171). -/
def scaleUp (a : Num) (q : Nat) : Nat := max minNormal (fp32 .up (a.div (.ofInt q)))

/-- A scale entry's SCALE, ZP, RESCUED and KIND (R161). -/
structure ScaleE where
  scale : Nat
  zp : Int
  rescued : Bool
  kind : Nat
deriving DecidableEq, Repr, Inhabited

/-- The entry eight bytes hold. -/
def ScaleE.ofNat (x : Nat) : ScaleE := ⟨bitsOf x 0 32, signedOf 16 (bitsOf x 32 16), bitOf x 48, bitsOf x 49 3⟩

/-- The eight bytes of an entry. -/
def ScaleE.toNat (e : ScaleE) : Nat := e.scale + wrapTo 16 e.zp * 2 ^ 32 + bit e.rescued * 2 ^ 48 + e.kind * 2 ^ 49

/-- M, S and sgn of R167, from A[n] and σ_y as FP32 codes; none where A[n] is a NaN or an infinity. -/
def rescaleMS (a sigma : Nat) : Option (Nat × Nat × Bool) :=
  match num32 a with
  | .fin s n d =>
    if !posNormal sigma then some (0, 0, false)
    else
      match num32 (fp32 .even ((Num.fin s n d).div (num32 sigma))) with
      | .fin t m e =>
        if m = 0 then some (0, 0, false)
        else
          let sh : Int := 31 - qLog m e
          if sh < 0 then some (0xFFFFFFFF, 0, t)
          else if 63 < sh then some (roundQ .even false 0 (m * 2 ^ 63) e, 63, t)
          else some (m * 2 ^ sh.toNat / e, sh.toNat, t)
      | _ => some (0, 0, false)
  | _ => none

/-- round(sgn × acc × M ÷ 2^S) of R168, before the zero point. -/
def rescaleRound (r : Rnd) (ms : Nat × Nat × Bool) (acc : Int) : Int :=
  let neg := (decide (acc < 0)) != ms.2.2
  let q := roundQ r.plain neg 0 (acc.natAbs * ms.1) (2 ^ ms.2.1)
  if neg then -(q : Int) else q

/-- acc × A[n] (R168, R170). -/
def realValue (acc : Int) (a : Nat) : Num := (Num.ofInt acc).mul (num32 a)

end Sys2Proof.Machine
end

