-- ==== Sys2Proof/Machine/Sources.lean ====
section
/-! DEFINITION. Sources of items: their formats, the raw-frame sidecar, what is taken of them, their damage, pictures and sound, the embedding before its division by its
norm, and the cache token stream (10 R313 to R318, R320, R321, R325). -/

namespace Sys2Proof.Machine

/-! ## The format of a source (10 R314, R317, R324). -/

/-- Whether bytes stand at an offset of a source. -/
def bytesAt (bs : List Byte) (off : Nat) (v : List Nat) : Bool := (bs.drop off).take v.length = v.map (BitVec.ofNat 8)

/-- Whether a source is a raw-frame sidecar (10 R317). -/
def isSidecar (bs : List Byte) : Bool := bytesAt bs 0 [0x53, 0x58, 0x52, 0x46]

/-- The format of a source by its first bytes, as SFORMAT numbers it; none where no supported format is recognised. The signatures are those of the standards (10 R314, R315,
R324; log entry 145). -/
def formatOf (bs : List Byte) : Option Nat :=
  if isSidecar bs then some 7
  else if bytesAt bs 0 [0xFF, 0xD8, 0xFF] then some 1
  else if bytesAt bs 0 [0xFF, 0x4F, 0xFF, 0x51] || bytesAt bs 0 [0, 0, 0, 0x0C, 0x6A, 0x50, 0x20, 0x20, 0x0D, 0x0A, 0x87, 0x0A] then some 2
  else if bytesAt bs 4 [0x66, 0x74, 0x79, 0x70] then some 3
  else if bytesAt bs 0 [0x47] && (bs.length ≤ 188 || bytesAt bs 188 [0x47]) then some 4
  else if (bytesAt bs 0 [0x52, 0x49, 0x46, 0x46] || bytesAt bs 0 [0x52, 0x46, 0x36, 0x34]) && bytesAt bs 8 [0x57, 0x41, 0x56, 0x45] then some 5
  else if bytesAt bs 0 [0x66, 0x4C, 0x61, 0x43] then some 6
  else none

/-- Whether a stream is sound. -/
def isSound (x : StreamInfo) : Bool := x.coding = 5 || x.coding = 6 || (x.coding = 0 && x.rate ≠ 0)

/-- Whether the decode complexes support a stream: the table of R314. -/
def supported (x : StreamInfo) : Bool :=
  !x.locked && !x.edited &&
  (match x.coding with
    | 1 => !x.arithmetic && x.profiles.any (fun p => p ≤ 2) && x.bits = 8 && (x.comps = 1 || x.comps = 3 || x.comps = 4) && x.sampling ≤ 2
        && x.width ≤ 65535 && x.height ≤ 65535 && x.width * x.height ≤ 268435456
    | 2 => 1 ∈ x.profiles && 1 ≤ x.bits && x.bits ≤ 16 && 1 ≤ x.comps && x.comps ≤ 4 && x.width ≤ 65535 && x.height ≤ 65535
    | 3 => 100 ∈ x.profiles && x.level ≤ 52 && x.chroma = 1 && x.bits = 8
    | 4 => (1 ∈ x.profiles || 2 ∈ x.profiles) && !x.highTier && x.level ≤ 183
    | 5 => (if x.floats then decide (x.bits = 32) else x.bits = 16 || x.bits = 24) && 1 ≤ x.comps && x.comps ≤ 8 && 8000 ≤ x.rate && x.rate ≤ 192000
    | 6 => 1 ≤ x.comps && x.comps ≤ 8 && 4 ≤ x.bits && x.bits ≤ 24 && x.rate ≤ 192000
    | _ => false)

/-- What is taken of a source: its SFORMAT, whether it is an image, its duration, the streams taken of pictures and of sound, whether a sound stream is ignored, and the
TimeReference of a BWF source with its sample rate (10 R314, R320, R324). -/
structure SourceInfo where
  format : Nat
  image : Bool
  durationUs : Nat
  video : Option StreamInfo
  audio : Option StreamInfo
  ignored : Bool
  timeRef : Option (Nat × Nat)
deriving DecidableEq, Repr, Inhabited

/-- The stream of a kind that TRACKS names, else the first; of a transport stream, within the programme it names, else the first (10 R314, 13 R427; log entry 145). -/
def pickStream (h : Headers) (format tracks : Nat) (sound : Bool) : Option StreamInfo :=
  let named := if sound then tracks / 65536 else tracks % 65536
  let mine := h.streams.filter (fun x => isSound x == sound)
  if format = 4 then
    let prog := if tracks % 65536 = 0 then ((h.streams.head?).map (·.programme)).getD 0 else tracks % 65536
    (mine.filter (fun x => x.programme = prog)).find? (fun x => !sound || named = 0 || x.track = named)
  else mine.find? (fun x => named = 0 || x.track = named)

/-- What is taken of a source of formats 1 to 6; none where a header needed is missing or out of range, or the packets are not of 188 bytes (10 R314, R315). -/
def decodedInfo (bs : List Byte) (format tracks : Nat) : Option SourceInfo :=
  let h := Config.headers bs format
  if !h.whole || (format = 4 && h.packet ≠ 188) then none
  else
    let video := pickStream h format tracks false
    let audio := pickStream h format tracks true
    some {
      format := format
      image := format = 1 || format = 2
      durationUs := h.durationUs
      video := video.filter supported
      audio := audio.filter supported
      ignored := (audio.map (fun a => !supported a)).getD false
      timeRef := if format = 5 then h.timeRef.bind (fun t => audio.map (fun a => (t, a.rate))) else none }

/-! ## The raw-frame sidecar (10 R317, R318). -/

/-- Bytes of one picture of a sidecar (10 R317). -/
def pixBytes (fmt w h : Nat) : Nat := if fmt = 1 then w * h * 3 / 2 else if fmt = 3 then w * h else 3 * w * h

/-- Where a frame record of a sidecar lies (10 R318). -/
def sidecarFrame (pix k : Nat) : Nat := 64 + k * (32 * ceilDiv (16 + pix) 32)

/-- Whether the frame records of a sidecar are well made: each on a 32-byte boundary and inside the source, times strictly rising (10 R318). -/
def sidecarFramesOk (bs : List Byte) (pix frames : Nat) : Bool :=
  let at_ := sidecarFrame pix
  (List.range frames).all (fun k =>
    fieldAt bs (at_ k + 8) 4 = pix && fieldAt bs (at_ k + 12) 4 = 0 && at_ k + 16 + pix ≤ bs.length
      && (k = 0 || fieldAt bs (at_ (k - 1)) 8 < fieldAt bs (at_ k) 8))

/-- Whether the pixel fields of a sidecar are in range, or zero for sound alone (10 R317). -/
def sidecarPixelsOk (bs : List Byte) : Bool :=
  let fmt := fieldAt bs 7 1
  let w := fieldAt bs 8 2
  let h := fieldAt bs 0xA 2
  let side := fun x => decide (16 ≤ x) && decide (x ≤ 16384) && (decide (fmt = 0 ∨ fmt = 3) || decide (x % 2 = 0))
  if fieldAt bs 6 1 = 3 then fmt = 0 && w = 0 && h = 0 && fieldAt bs 0xC 4 = 0
  else fmt ≤ 3 && side w && side h && sidecarFramesOk bs (pixBytes fmt w h) (fieldAt bs 0xC 4)

/-- Whether the audio fields of a sidecar are in range, or zero without sound; its samples lie in the source (10 R317; log entry 47). -/
def sidecarAudioOk (bs : List Byte) : Bool :=
  let rate := fieldAt bs 0x18 4
  if fieldAt bs 6 1 ≤ 2 then rate = 0 && fieldAt bs 0x1C 2 = 0 && fieldAt bs 0x20 16 = 0
  else
    8000 ≤ rate && rate ≤ 192000 && 1 ≤ fieldAt bs 0x1C 1 && fieldAt bs 0x1C 1 ≤ 8 && 1 ≤ fieldAt bs 0x1D 1 && fieldAt bs 0x1D 1 ≤ 3
      && fieldAt bs 0x20 8 + fieldAt bs 0x28 8 ≤ bs.length

/-- Whether a sidecar keeps R317 and R318. -/
def sidecarOk (bs : List Byte) : Bool :=
  let kind := fieldAt bs 6 1
  64 ≤ bs.length && fieldAt bs 4 2 = 0x0100 && 1 ≤ kind && kind ≤ 4 && fieldAt bs 0x1E 2 = 0 && fieldAt bs 0x30 12 = 0
    && fieldAt bs 0x3C 4 = (crc32c (bs.take 60)).toNat && sidecarPixelsOk bs && sidecarAudioOk bs

/-- The pixel bytes of one picture of a sidecar. -/
def sidecarPix (bs : List Byte) : Nat := pixBytes (fieldAt bs 7 1) (fieldAt bs 8 2) (fieldAt bs 0xA 2)

/-- The pictures of a sidecar: none depends on another, none is damaged. -/
def sidecarVideo (bs : List Byte) : StreamInfo :=
  { (default : StreamInfo) with
    width := fieldAt bs 8 2
    height := fieldAt bs 0xA 2
    pictures := (List.range (fieldAt bs 0xC 4)).map (fun k => ⟨fieldAt bs (sidecarFrame (sidecarPix bs) k) 8, [], 0, false⟩) }

/-- The sound of a sidecar. -/
def sidecarAudio (bs : List Byte) : StreamInfo := { (default : StreamInfo) with rate := fieldAt bs 0x18 4, comps := fieldAt bs 0x1C 1 }

/-- What a sidecar holds, if it keeps R317 and R318. -/
def sidecarInfo (bs : List Byte) : Option SourceInfo :=
  let kind := fieldAt bs 6 1
  if !sidecarOk bs then none
  else some {
    format := 7
    image := kind = 1
    durationUs := fieldAt bs 0x10 8
    video := if kind ≠ 3 ∧ fieldAt bs 0xC 4 ≠ 0 then some (sidecarVideo bs) else none
    audio := if kind = 3 ∨ kind = 4 then some (sidecarAudio bs) else none
    ignored := false
    timeRef := none }

/-- The samples of one plane: bytes, or words with the low byte first. -/
def planeOf (bs : List Byte) (wide : Bool) (off n : Nat) : List Nat :=
  if wide then (List.range n).map (fun i => fieldAt bs (off + 2 * i) 2) else ((bs.drop off).take n).map (·.toNat)

/-- A picture of a sidecar: row-major, its planes in the order Y′, Cb, Cr (10 R318). -/
def sidecarPicture (bs : List Byte) (k : Nat) : Picture :=
  let fmt := fieldAt bs 7 1
  let w := fieldAt bs 8 2
  let h := fieldAt bs 0xA 2
  let o := sidecarFrame (sidecarPix bs) k + 16
  let wide : Bool := fmt = 2
  let z := if wide then 2 else 1
  { format := fmt
    width := w
    height := h
    planes :=
      if fmt = 0 then [planeOf bs false o (3 * w * h)]
      else if fmt = 3 then [planeOf bs false o (w * h)]
      else [planeOf bs wide o (w * h), planeOf bs wide (o + z * w * h) (w * h / 4), planeOf bs wide (o + z * (w * h + w * h / 4)) (w * h / 4)] }

/-- A sample of a channel of a sidecar in FP32, integers as fractions of full scale: little-endian, and silence past ABYTES (10 R317, R318; log entry 145). -/
def sidecarSample (bs : List Byte) (chan i : Nat) : W32 :=
  let fmt := fieldAt bs 0x1D 1
  let z := if fmt = 1 then 2 else 4
  let off := z * (fieldAt bs 0x1C 1 * i + chan)
  let x := fieldAt bs (fieldAt bs 0x20 8 + off) z
  let frac := fun (v : Int) (d : Nat) => BitVec.ofNat 32 (fp32 .even (.fin (decide (v < 0)) v.natAbs d))
  if fieldAt bs 0x28 8 < off + z then 0#32
  else if fmt = 1 then frac (signedOf 16 x) (2 ^ 15)
  else if fmt = 2 then frac (signedOf 24 (x % 2 ^ 24)) (2 ^ 23)
  else BitVec.ofNat 32 x

/-! ## What a source gives (10 R315, R316). -/

/-- A picture with all those it depends on. -/
def picNeeds (l : List PicInfo) : Nat → List Nat → List Nat
  | 0, ks => ks
  | n + 1, ks => picNeeds l n ((ks ++ ks.flatMap (fun k => ((l[k]?).map PicInfo.needs).getD [])).dedup)

/-- Whether a picture can be decoded: none of those it needs is lost (10 R315). -/
def decodable (x : StreamInfo) (k : Nat) : Bool := (picNeeds x.pictures x.pictures.length [k]).all (fun j => ((x.pictures[j]?).map (fun p => !p.lost)).getD false)

/-- The distance of two times. -/
def apart (a b : Nat) : Nat := (a - b) + (b - a)

/-- The picture sampled at a time: the latest not after it, and where that one cannot be decoded or there is none, the decodable one nearest in time, the earlier of two
(10 R315, R321; log entry 145). -/
def pictureAt (x : StreamInfo) (t : Nat) : Option Nat :=
  let ks := List.range x.pictures.length
  let time := fun k => ((x.pictures[k]?).map PicInfo.time).getD 0
  match ((ks.filter (fun k => time k ≤ t)).getLast?).filter (decodable x) with
  | some k => some k
  | none => (ks.filter (decodable x)).foldl (fun (b : Option Nat) k => match b with
    | none => some k
    | some j => if apart (time k) t < apart (time j) t then some k else some j) none

/-- The nearest earlier good picture (10 R315). -/
def goodBefore (x : StreamInfo) (k : Nat) : Option Nat :=
  ((List.range k).filter (fun j => ((x.pictures[j]?).map (fun p => decide (p.damaged = 0))).getD false && decodable x j)).getLast?

/-- A picture of a source, decoded or of a sidecar (10 R314, R315, R318). -/
def SourceInfo.picture (i : SourceInfo) (bs : List Byte) (x : StreamInfo) (k : Nat) : Picture :=
  if i.format = 7 then sidecarPicture bs k else Config.decodePicture bs x.track k (goodBefore x k)

/-- A sample of a channel: silence in a damaged audio frame (10 R315). -/
def SourceInfo.sample (i : SourceInfo) (bs : List Byte) (x : StreamInfo) (chan n : Nat) : W32 :=
  if i.format = 7 then sidecarSample bs chan n
  else if x.frames.any (fun f => f.2.2 && decide (f.1 ≤ n ∧ n < f.1 + f.2.1)) then 0#32
  else Config.decodeSample bs x.track chan n

/-- The mean of some vectors, each element rounded once (10 R321; log entry 145). -/
def meanOf (l : List (List W32)) : List W32 :=
  (List.range ((l.head?.map (·.length)).getD 0)).map (fun d =>
    BitVec.ofNat 32 (fp32 .even (((l.map (fun v => num32 (v.getD d 0#32).toNat)).foldl Num.add Num.zero).div (Num.ofInt l.length))))

/-- The sound of a window in µs, all channels mixed with equal weights (10 R321). -/
def SourceInfo.mono (i : SourceInfo) (bs : List Byte) (x : StreamInfo) (a b : Nat) : List W32 :=
  let lo := ceilDiv (a * x.rate) 1000000
  let hi := ceilDiv (b * x.rate) 1000000
  (List.range (hi - lo)).map (fun n => (meanOf ((List.range x.comps).map (fun c => [i.sample bs x c (lo + n)]))).headD 0#32)

/-- What a source is, none where it is unusable or nothing of it decodes (10 R314, R315, R317). -/
def sourceInfo (bs : List Byte) (tracks : Nat) : Option SourceInfo :=
  let i := (formatOf bs).bind (fun f => if f = 7 then sidecarInfo bs else decodedInfo bs f tracks)
  i.bind (fun i =>
    let i := { i with video := i.video.filter (fun v => (List.range v.pictures.length).any (decodable v)) }
    if i.video.isNone && i.audio.isNone then none else some i)

/-- The times at which pictures of a window are sampled: each 2 s from its start, while before its end; a window of no length is sampled once (10 R321; log entry 48). -/
def sampleTimes (a b : Nat) : List Nat := (List.range (max 1 (ceilDiv (b - a) 2000000))).map (fun k => a + 2000000 * k)

/-- The pictures taken for the items of some segments (10 R316, R321). -/
def SourceInfo.sampled (i : SourceInfo) (segs : List (Nat × Nat)) : List Nat :=
  match i.video with
  | none => []
  | some v => ((segs.flatMap (fun g => sampleTimes g.1 g.2)).filterMap (pictureAt v)).dedup

/-- CONCEALED: the damaged slices and tiles of the pictures that are decoded, those that sampling needs and those they depend on, and the damaged audio frames
(10 R315, R316; log entry 145). -/
def SourceInfo.concealed (i : SourceInfo) (segs : List (Nat × Nat)) : Nat :=
  let pics := match i.video with
    | none => []
    | some v => (picNeeds v.pictures v.pictures.length (i.sampled segs)).map (fun k => ((v.pictures[k]?).map PicInfo.damaged).getD 0)
  let sound := (i.audio.map (fun a => (a.frames.filter (fun f => f.2.2)).length)).getD 0
  pics.foldl (· + ·) sound

/-- The sum of two vectors in FP32. -/
def addVec (a b : List W32) : List W32 := a.zipWith (fun x y => BitVec.ofNat 32 (fp32 .even ((num32 x.toNat).add (num32 y.toNat)))) b

/-- The embedding of a window before its division by its norm: e_v, the mean over the sampled pictures, plus e_a, of the sound; or whichever is present (10 R321). -/
def SourceInfo.embedding (i : SourceInfo) (bs : List Byte) (encV encA : W64) (a b : Nat) : List W32 :=
  let ev := i.video.bind (fun v =>
    let ks := (sampleTimes a b).filterMap (pictureAt v)
    if ks.isEmpty then none else some (meanOf (ks.map (fun k => Config.embedPicture encV (i.picture bs v k)))))
  let ea := if i.image then none else i.audio.map (fun x => Config.embedSound encA x.rate (i.mono bs x a b))
  match ev, ea with
  | some v, some w => addVec v w
  | some v, none => v
  | none, some w => w
  | none, none => []

/-- Whether an encoder of the set is a Gimlet model, which needs D = 1,024: number 0 is the one a module is shipped with (10 R313; log entry 145). -/
def isGimlet (m : W64) : Bool := m = 0#64 || m = Config.gimletV || m = Config.gimletA

/-- Whether the encoders that a source goes through give embeddings of the module's dimension (10 R313). -/
def SourceInfo.gimletFits (i : SourceInfo) (encV encA : W64) (dims : Nat) : Bool :=
  dims = 1024 || !((i.video.isSome && isGimlet encV) || (i.audio.isSome && isGimlet encA))

/-! ## Segments and the cache token stream (10 R320, R325). -/

/-- The segments of a recording of a duration: a last one shorter than 1 s joins the one before it (10 R320). A recording of no length is one segment
(log entry 48). -/
def segments (g dur : Nat) : List (Nat × Nat) :=
  let n := max 1 (ceilDiv dur g)
  let n := if 2 ≤ n ∧ dur - (n - 1) * g < 1000000 then n - 1 else n
  (List.range n).map (fun i => (i * g, if i + 1 = n then dur else (i + 1) * g))

/-- A token of a cache's stream: the marker of a unit's offset in µs, the k-th vision-projector token of the picture at a time, the k-th audio-projector token of the sound
from an offset (10 R325). -/
inductive CacheToken where
  | marker (off : Nat)
  | vision (at_ k : Nat)
  | sound (off k : Nat)
deriving DecidableEq, Repr, Inhabited

/-- Audio tokens of a unit that lasts some µs: one for each 80 ms; whether a cut one counts is free (10 R313, R325; log entry 6). -/
def soundTokens (bs : List Byte) (us : Nat) : Nat := us / 80000 + (if us % 80000 = 0 then 0 else Config.cutTokens bs 0 % 2)

/-- The tokens of the unit at an offset: a marker, the 64 vision tokens of the picture at its start, the audio tokens of its sound; the last unit is cut at the end
(10 R325). -/
def SourceInfo.unit (i : SourceInfo) (bs : List Byte) (off : Nat) : List CacheToken :=
  let us := min 4000000 (i.durationUs - off)
  .marker off :: ((if i.video.isSome then (List.range 64).map (CacheToken.vision off) else [])
    ++ (if i.audio.isSome then (List.range (soundTokens bs us)).map (CacheToken.sound off) else []))

/-- The cache token stream of a source (10 R325). -/
def SourceInfo.stream (i : SourceInfo) (bs : List Byte) : List CacheToken :=
  if i.image then (List.range 256).map (CacheToken.vision 0)
  else (List.range (ceilDiv i.durationUs 4000000)).flatMap (fun u => i.unit bs (4000000 * u))

/-- Tokens of a source's cache. -/
def SourceInfo.tokens (i : SourceInfo) (bs : List Byte) : Nat := (i.stream bs).length

/-- The first token of the item at an offset: a unit's first where the item starts with one, else one of the unit's, which is free (10 R324; log entry 6). -/
def SourceInfo.firstToken (i : SourceInfo) (bs : List Byte) (off : Nat) : Nat :=
  let before := ((List.range (off / 4000000)).map (fun u => (i.unit bs (4000000 * u)).length)).foldl (· + ·) 0
  before + (if off % 4000000 = 0 then 0 else Config.cutTokens bs (1 + off) % (i.unit bs (4000000 * (off / 4000000))).length)

/-- What a token gives an answer model as input, by the encoders without adapters (10 R313, R325). -/
def SourceInfo.input (i : SourceInfo) (bs : List Byte) (model : W64) : CacheToken → List W32
  | .marker off => Config.markerToken model off
  | .vision t k =>
    ((i.video.bind (fun v => (pictureAt v t).map (fun p => Config.projectVision model (!i.image) (Config.seePicture Config.gimletV (i.picture bs v p))))).getD []).getD k []
  | .sound off k =>
    Config.projectSound model ((i.audio.map (fun x => (Config.hearSound Config.gimletA x.rate (i.mono bs x off (min (off + 4000000) i.durationUs))).getD k [])).getD [])

/-- The input tokens of a source's cache (10 R325). -/
def sourceInputs (model : W64) (bs : List Byte) (tracks : Nat) : List (List W32) :=
  match sourceInfo bs tracks with
  | some i => (i.stream bs).map (i.input bs model)
  | none => []

end Sys2Proof.Machine
end

