-- ==== Sys2Proof/Machine/CacheTiles.lean ====
section
/-! DEFINITION. Context caches and sessions as they lie in region 0x01: their tiles, the layout of one, what its bytes hold, the bench layout, and the rotary stage (07 R245,
R246, R248, R252; 10 R327, R329). -/

namespace Sys2Proof.Machine

/-! ## Models (10 R313). -/

/-- Layers and key/value heads of a model: 52 and 8 of Lathe-25 (10 R313). -/
def modelShape (m : W64) : Nat × Nat := if m = Config.lathe then (52, 8) else Config.modelShape m

/-- Lathe-25's frequency words: F_i = round(2^64 × 10^(−6i/64) ÷ 2π), i = 0 to 63 (10 R313). -/
def latheRotary : List Nat :=
  [2935890503282001226, 2365864426192925781, 1906513365150370137, 1536348901169279117, 1238054759683200494, 997676756111625901, 803970019823770941, 647872959669429481]
    ++ [522083363211519329, 420716799604243067, 339031346221092161, 273205761758525298, 220160728764532212, 177414803326772838, 142968333254119646, 115209914450112388]
    ++ [92841009512291724, 74815202219369707, 60289246234274555, 48583618083918486, 39150729086113164, 31549309179210512, 25423764331338399, 20487541869898062]
    ++ [16509725562293615, 13304233366460347, 10721112522517710, 8639524770382691, 6962093542184701, 5610348691434204, 4521055663610106, 3643257386955006]
    ++ [2935890503282001, 2365864426192926, 1906513365150370, 1536348901169279, 1238054759683200, 997676756111626, 803970019823771, 647872959669429]
    ++ [522083363211519, 420716799604243, 339031346221092, 273205761758525, 220160728764533, 177414803326773, 142968333254120, 115209914450112]
    ++ [92841009512292, 74815202219370, 60289246234275, 48583618083918, 39150729086113, 31549309179211, 25423764331338, 20487541869898]
    ++ [16509725562294, 13304233366460, 10721112522518, 8639524770383, 6962093542185, 5610348691434, 4521055663610, 3643257386955]

/-- The frequency word F_i of a model (07 R252, 10 R313). -/
def rotaryWord (m : W64) (i : Nat) : W64 := if m = Config.lathe then BitVec.ofNat 64 (latheRotary.getD i 0) else Config.rotary m i

/-! ## The tiles of a cache (07 R245, R246). -/

/-- Tiles per layer and head (07 R246). -/
def cacheTiles (tokens : Nat) : Nat := ceilDiv tokens 512

/-- Tiles of a cache in all its layers and 8 heads (07 R246). -/
def Cache.count (x : Cache) : Nat := 8 * (modelShape x.model).1 * cacheTiles x.tokens

/-- The input tokens a cache was built from (10 R325). -/
def Cache.inputs (x : Cache) : List (List W32) := sourceInputs x.model (Mem.read 0 x.source 0 x.len) x.tracks

/-- The address ranges of a cache in region 0x01: tiles, and exponent blocks (07 R246). -/
def Cache.spans (x : Cache) : List (Nat × Nat) := [(x.dataBase, 65536 * x.count), (x.expBase, 4096 * x.count)]

/-- Where element (dimension, slot) of the K half lies: stored tile, row, and result number (07 R245). -/
def kPlace (dim slot : Nat) : Nat × Nat × Nat := (4 * (slot / 128) + dim / 32, dim % 32, slot % 128)

/-- Nibble offset of a word's lane of a K or V stored tile, in the half: tile k, row r, result n (03 R91, R108). -/
def nibbleOf (k r n : Nat) : Nat := (2048 * k + 1024 * (n / 64) + 32 * r + 2 * (n / 4 % 16)) * 2 + n % 4

/-- The stored tile, row and result number of a nibble of a half: the other way round. -/
def placeOf (i : Nat) : Nat × Nat × Nat := (i / 4096, i / 64 % 32, 64 * (i / 2048 % 2) + 4 * (i / 4 % 16) + i % 4)

/-- The dimension and token slot of a nibble of the K half (true) or the V half (07 R245). -/
def nibbleSlot (k : Bool) (i : Nat) : Nat × Nat :=
  let p := placeOf i
  if k then (32 * (p.1 % 4) + p.2.1, 128 * (p.1 / 4) + p.2.2) else (p.2.2, 32 * p.1 + p.2.1)

/-- The layer, head and first token of a cache's tile: tile (ℓ, h, i) is the (8ℓ + h) × T + i-th (07 R246). -/
def Cache.tileAt (x : Cache) (q : Nat) : Nat × Nat × Nat :=
  let t := cacheTiles x.tokens
  (q / t / 8, q / t % 8, 512 * (q % t))

/-- The mantissa code of a nibble of tile q: zero in a slot past the item's tokens (07 R245; log entry 71). -/
def Cache.mantissa (x : Cache) (q i : Nat) : Nat :=
  let t := x.tileAt q
  let k : Bool := i < 65536
  let p := nibbleSlot k (i % 65536)
  if t.2.2 + p.2 < x.tokens then (Config.kvMantissa x.model x.inputs (t.1, t.2.1) k p.1 (t.2.2 + p.2)).toNat else 0

/-- The dimension and token slot a byte of an exponent block is of: of 32 dimensions of one token in the K half, of 32 tokens of one dimension in the V half (07 R245). -/
def exponentSlot (b : Nat) : Nat × Nat :=
  let tile := b % 2048 / 128
  let n := b % 128
  if b < 2048 then (32 * (tile % 4), 128 * (tile / 4) + n) else (n, 32 * tile)

/-- The exponent code of a byte of tile q's exponent block; 0x00 where no slot holds a token (07 R245). -/
def Cache.exponent (x : Cache) (q b : Nat) : Nat :=
  let t := x.tileAt q
  let p := exponentSlot b
  if t.2.2 + p.2 < x.tokens then (Config.kvExponent x.model x.inputs (t.1, t.2.1) (decide (b < 2048)) p.1 (t.2.2 + p.2)).toNat else 0

/-- The byte a cache holds at an offset of region 0x01, if it lies in the cache. -/
def Cache.byte? (x : Cache) (o : Nat) : Option Byte :=
  let d := o - x.dataBase
  let e := o - x.expBase
  if x.dataBase ≤ o ∧ d < 65536 * x.count then
    some (BitVec.ofNat 8 (x.mantissa (d / 65536) (2 * (d % 65536)) + 16 * x.mantissa (d / 65536) (2 * (d % 65536) + 1)))
  else if x.expBase ≤ o ∧ e < 4096 * x.count then some (BitVec.ofNat 8 (x.exponent (e / 4096) (e % 4096)))
  else none


/-! ## Cosine and sine (07 R252). -/

/-- The rest of a Taylor series at scale 2^60: each term is the last times −θ² over the next two integers. -/
def taylor (sq : Nat) : Nat → Nat → Int → Int → Int
  | 0, _, _, sum => sum
  | n + 1, k, t, sum =>
    let t := -(t * sq / 2 ^ 60) / ((k + 1) * (k + 2))
    taylor sq n (k + 2) t (sum + t)

/-- Cosine and sine of a fraction of a turn over 2^64, at scale 2^60, within 2^−50: the angle in its quadrant is the fraction of 2^62 times π/2. -/
def turnOf (phi : W64) : Int × Int :=
  let th : Nat := phi.toNat % 2 ^ 62 * 1811004864519280710 / 2 ^ 62
  let sq : Nat := th * th / 2 ^ 60
  let c := taylor sq 12 0 (2 ^ 60) (2 ^ 60)
  let n := taylor sq 12 1 (Int.ofNat th) (Int.ofNat th)
  match phi.toNat / 2 ^ 62 with
  | 0 => (c, n)
  | 1 => (-n, c)
  | 2 => (-c, -n)
  | _ => (n, -c)

/-- A value the stage takes for an exact one: the free value, where it is within 2^−22 of it, else the nearest (07 R252; log entry 8). -/
def nearTurn (v : W32) (x : Int) : Num :=
  let exact := Num.fin (decide (x < 0)) x.natAbs (2 ^ 60)
  let off := ((num32 v.toNat).add exact.negate).abs
  if off.isNan || (Num.fin false 1 (2 ^ 22)).lt off then num32 (fp32 .even exact) else num32 v.toNat

/-- The cosine and the sine the stage takes. -/
def cosTurn (phi : W64) : Num := nearTurn (Config.cosTurn phi) (turnOf phi).1
def sinTurn (phi : W64) : Num := nearTurn (Config.sinTurn phi) (turnOf phi).2

/-! ## The rotary stage (07 R252). -/

/-- The mantissa of a nibble. -/
def nibble (bs : List Byte) (i : Nat) : Int := signedOf 4 (bitsOf ((bs.getD (i / 2) 0#8).toNat) (4 * (i % 2)) 4)

/-- One token slot of the K half of a cache tile, its 128 dimensions rotated: four blocks of exponent and mantissas, with the saturations counted. -/
def rotateSlot (model delta : W64) (tile exps : List Byte) (slot : Nat) : List (Int × List Int × Nat) :=
  let value := fun (d : Nat) =>
    let p := kPlace d slot
    num32 (fp32 .even (ofBlock (nibble tile (nibbleOf p.1 p.2.1 p.2.2)) (e8 (exps.getD (128 * p.1 + p.2.2) 0#8))))
  let turned := (List.range 64).flatMap (fun i =>
    let phi := delta * rotaryWord model i
    let c := cosTurn phi
    let n := sinTurn phi
    let a := value (2 * i)
    let b := value (2 * i + 1)
    [num32 (fp32 .even ((a.mul c).add (b.mul n).negate)), num32 (fp32 .even ((a.mul n).add (b.mul c)))])
  (chunksOf 32 turned).map (toBlock .even 4)

/-- A cache tile of 65,536 bytes with its 4,096 exponents, K rotated and V as it is. -/
def rotateTile (model delta : W64) (tile exps : List Byte) : List Byte × List Byte × Nat :=
  let slots := (List.range 512).map (rotateSlot model delta tile exps)
  let block := fun (d slot : Nat) => (slots.getD slot []).getD (d / 32) (-128, [], 0)
  let nib := fun (i : Nat) =>
    let p := nibbleSlot true i
    let b := block p.1 p.2
    wrapTo 4 (b.2.1.getD (p.1 % 32) 0)
  let kBytes := packElems 2 ((List.range 65536).map nib)
  let kExps := (List.range 2048).map (fun j =>
    let k := j / 128
    e8Code (block (32 * (k % 4)) (128 * (k / 4) + j % 128)).1)
  (kBytes ++ tile.drop 32768, kExps ++ exps.drop 2048, ((slots.flatten).map (fun b => b.2.2)).foldl (· + ·) 0)

/-- A cache tile in bench layout: 32 stored tiles of three lines, the third holding 128 exponents (07 R248). -/
def benchTile (tile exps : List Byte) : List Byte :=
  (List.range 32).flatMap (fun k => (tile.drop (2048 * k)).take 2048 ++ (exps.drop (128 * k)).take 128 ++ zeros 896)

/-! ## A session's own key/value tiles (10 R327, R329). -/

/-- Key/value tiles of one layer and head together: all those a model has. -/
def kvHeads (m : W64) : Nat := 8 * (modelShape m).1

/-- Tiles per layer and head that a loaded run takes: those over its tokens (10 R329). -/
def LoadedRun.tiles (r : LoadedRun) : Nat := ceilDiv r.hi 512 - r.lo / 512

/-- The address ranges of some tiles of each layer and head laid out as a cache is: tiles, then exponent blocks (07 R246; log entry 71). -/
def kvSpans (m : W64) (base t : Nat) : List (Nat × Nat) := [(base, 65536 * (kvHeads m * t)), (base + 65536 * (kvHeads m * t), 4096 * (kvHeads m * t))]

/-- The position offset a run's tiles are moved by: Δ = s − a modulo 2^64 (10 R329). -/
def LoadedRun.delta (r : LoadedRun) : W64 := BitVec.ofNat 64 r.pos - BitVec.ofNat 64 r.lo

/-- The bytes of a cache's q-th tile and of its exponent block (07 R245, R246). -/
def Cache.tile (x : Cache) (q : Nat) : List Byte × List Byte :=
  ((List.range 65536).map (fun i => BitVec.ofNat 8 (x.mantissa q (2 * i) + 16 * x.mantissa q (2 * i + 1))), (List.range 4096).map (fun i => BitVec.ofNat 8 (x.exponent q i)))

/-- The q-th tile of a loaded run and its exponent block: the cache's tile, rotated as it lands (07 R252, R253; 10 R329). -/
def LoadedRun.tile (r : LoadedRun) (x : Cache) (q : Nat) : List Byte × List Byte :=
  let t := x.tile (q / r.tiles * cacheTiles x.tokens + r.lo / 512 + q % r.tiles)
  let y := rotateTile x.model r.delta t.1 t.2
  (y.1, y.2.1)

/-- The byte a loaded run holds at an offset of region 0x01, if it lies in the run. -/
def LoadedRun.byte? (r : LoadedRun) (x : Cache) (o : Nat) : Option Byte :=
  let n := kvHeads x.model * r.tiles
  let d := o - r.base
  if o < r.base ∨ 69632 * n ≤ d then none
  else if d < 65536 * n then ((r.tile x (d / 65536)).1)[d % 65536]?
  else ((r.tile x ((d - 65536 * n) / 4096)).2)[(d - 65536 * n) % 4096]?

/-- Tiles per layer and head of a session's own tokens. -/
def OwnRun.tiles (r : OwnRun) : Nat := cacheTiles r.room

/-- The byte a run of a session's own tokens holds at an offset of region 0x01; zero mantissas and exponent code 0x00 past its tokens (07 R245; log entry 71). -/
def OwnRun.byte? (r : OwnRun) (model : W64) (o : Nat) : Option Byte :=
  let n := kvHeads model * r.tiles
  let d := o - r.base
  let lh := fun (q : Nat) => (q / r.tiles / 8, q / r.tiles % 8)
  let code := fun (q i : Nat) =>
    let p := nibbleSlot (decide (i < 65536)) (i % 65536)
    if 512 * (q % r.tiles) + p.2 < r.tokens then (Config.ownMantissa model r.no (lh q) (decide (i < 65536)) p.1 (512 * (q % r.tiles) + p.2)).toNat else 0
  let exp := fun (q b : Nat) =>
    let p := exponentSlot b
    if 512 * (q % r.tiles) + p.2 < r.tokens then (Config.ownExponent model r.no (lh q) (decide (b < 2048)) p.1 (512 * (q % r.tiles) + p.2)).toNat else 0
  if o < r.base ∨ 69632 * n ≤ d then none
  else if d < 65536 * n then some (BitVec.ofNat 8 (code (d / 65536) (2 * (d % 65536)) + 16 * code (d / 65536) (2 * (d % 65536) + 1)))
  else some (BitVec.ofNat 8 (exp ((d - 65536 * n) / 4096) ((d - 65536 * n) % 4096)))

/-- The address ranges of a session's state in region 0x01: the tiles of the groups it has loaded and those of its own tokens (10 R327). -/
def Session.spans (x : Session) : List (Nat × Nat) :=
  x.loaded.flatMap (fun r => kvSpans x.model r.base r.tiles) ++ x.own.flatMap (fun r => kvSpans x.model r.base r.tiles)

/-- The byte a session holds at an offset of region 0x01. -/
def Session.byte? (caches : Tab Cache) (x : Session) (o : Nat) : Option Byte :=
  match x.loaded.findSome? (fun r => (Tab.find caches r.key).bind (fun k => r.byte? k o)) with
  | some b => some b
  | none => x.own.findSome? (fun r => r.byte? x.model o)

/-- The byte of region 0x01 that a cache's build or a session's loads and prefills have made, if one has (07 R246; 10 R327). -/
def Services.byte? (v : Services) (o : Nat) : Option Byte :=
  match (Tab.vals v.caches).findSome? (fun (x : Cache) => x.byte? o) with
  | some b => some b
  | none => (Tab.vals v.sessions).findSome? (fun (x : Session) => x.byte? v.caches o)

/-- Bytes of region 0x01: those of a cache are as its build made them and those of a session as it took them, the others as they were written (07 R225, R246). -/
def State.flashRead (s : State) (o n : Nat) : List Byte :=
  let bs := Mem.read 0 s.tiers.flash o n
  if s.serv.caches.isEmpty && s.serv.sessions.isEmpty then bs else bs.mapIdx (fun i b => (s.serv.byte? (o + i)).getD b)

end Sys2Proof.Machine
end

