-- ==== Sys2Proof/Machine/Operands.lean ====
section
/-! DEFINITION. The operand forms of the Dratotin contract: fields of operation records (06 R200 to R213), threads, handles and gangs, the bench-memory
window, and device addresses with their faults (06 R187, R188). -/

namespace Sys2Proof

/-- Class codes of 08 R254. -/
def Cls.ofCode : Nat → Cls
  | 0 => .interactive
  | 1 => .background
  | _ => .system

/-- Whether a class ranks above another (08 R254). -/
def Cls.above (a b : Cls) : Bool := a.code < b.code

/-- The higher of two classes. -/
def Cls.higher (a b : Cls) : Cls := if b.above a then b else a

end Sys2Proof

namespace Sys2Proof.Machine

/-! ## Record fields. -/

/-- Bits [lo + len − 1 : lo] of a record. -/
def fld (r : BitVec 256) (lo len : Nat) : Nat := bitsOf r.toNat lo len
/-- Bit i of a record. -/
def flag (r : BitVec 256) (i : Nat) : Bool := r.getLsbD i
/-- The opcode (06 R200). -/
def opcodeOf (r : BitVec 256) : Nat := fld r 0 16
/-- WAIT_MASK. -/
def waitMask (r : BitVec 256) : Nat := fld r 16 8
/-- HANDLE. -/
def handleOf (r : BitVec 256) : Nat := fld r 24 3
/-- SETH, or NOTIFY for MM. -/
def setH (r : BitVec 256) : Bool := flag r 27
/-- BREG_EN. -/
def bregEn (r : BitVec 256) : Bool := flag r 28
/-- BREG (06 R203). -/
def bregOf (r : BitVec 256) : Nat := fld r 251 5

/-- A bench-memory field: its value in its own unit, with the register's value added in bytes modulo 2^64 (06 R203). -/
def benchField (base unit x : Nat) : Nat := (unit * x + base) % 2 ^ 64

/-! ## Lane modes (03 R89). -/

/-- The lane mode a LANE field names (06 R204). -/
def Lane.ofCode : Nat → Option Lane
  | 0 => some .l16x1
  | 1 => some .l4x4
  | 2 => some .l2x8
  | 3 => some .l1x16
  | 4 => some .binary
  | _ => none

/-- Lane width w; a binary word is compared bit by bit (03 R89). -/
def Lane.width : Lane → Nat
  | .l16x1 => 1
  | .l4x4 => 4
  | .l2x8 => 8
  | .l1x16 => 16
  | .binary => 1

/-- Lanes per cell L (03 R89). -/
def Lane.count (l : Lane) : Nat := 16 / l.width

/-- Whether a stored format goes with a lane mode (03 R89). -/
def Lane.takes : Lane → Nat → Bool
  | .l16x1, f => f ∈ [0, 1]
  | .l4x4, f => f ∈ [2, 3, 9]
  | .l2x8, f => f ∈ [4, 5, 10]
  | .l1x16, f => f ∈ [6, 7]
  | .binary, f => f = 0

/-- Whether a format is blocked. -/
def blocked (f : Nat) : Bool := f = 9 || f = 10

/-! ## Threads, jobs and cores. -/

/-- The compute state changed. -/
def State.modCompute (s : State) (f : Compute → Compute) : State := { s with compute := f s.compute }

/-- A thread. -/
def State.thread? (s : State) (t : Nat) : Option Thread := Tab.find s.compute.threads t
/-- A thread changed. -/
def State.modThread (s : State) (t : Nat) (f : Thread → Thread) : State :=
  s.modCompute (fun c => { c with threads := Tab.change c.threads t f })
/-- A job. -/
def State.job? (s : State) (j : Nat) : Option Job := Tab.find s.compute.jobs j
/-- A job changed. -/
def State.modJob (s : State) (j : Nat) (f : Job → Job) : State := s.modCompute (fun c => { c with jobs := Tab.change c.jobs j f })
/-- A core; one nothing has touched is as after reset. -/
def State.core (s : State) (c : CoreNo) : Core := Tab.at s.compute.cores c.val Core.reset
/-- A core replaced. -/
def State.setCore (s : State) (c : CoreNo) (x : Core) : State := s.modCompute (fun k => { k with cores := Tab.put k.cores c.val x })
/-- A core changed. -/
def State.modCore (s : State) (c : CoreNo) (f : Core → Core) : State := s.setCore c (f (s.core c))
/-- An engine context changed. -/
def State.modCtx (s : State) (k : Nat) (f : Ctx → Ctx) : State := s.modCompute (fun c => { c with ctxs := Tab.change c.ctxs k f })
/-- A gang changed. -/
def State.modGang (s : State) (j g : Nat) (f : Gang → Gang) : State := s.modJob j (fun x => { x with gangs := Tab.change x.gangs g f })

/-- A scalar register (06 R180). -/
def Thread.reg (t : Thread) (n : Nat) : W64 := Tab.at t.regs n 0#64
/-- A scalar register written. -/
def Thread.setReg (t : Thread) (n : Nat) (v : W64) : Thread := { t with regs := Tab.put t.regs n v }
/-- A tile handle; at first unbound and ready (06 R181). -/
def Thread.handle (t : Thread) (h : Nat) : Handle := Tab.at t.handles h ⟨none, 0, .none, none⟩
/-- A tile handle changed. -/
def Thread.modHandle (t : Thread) (h : Nat) (f : Handle → Handle) : Thread := { t with handles := Tab.put t.handles h (f (t.handle h)) }

/-- The handles a mask names. -/
def maskHandles (m : Nat) : List Nat := (List.range 8).filter (fun i => bitOf m i)

/-- Whether every handle of a mask is ready (06 R185). -/
def Thread.ready (t : Thread) (m : Nat) : Bool := (maskHandles m).all (fun h => (t.handle h).count = 0)

/-- A setting operation of a handle is issued (06 R185). -/
def Thread.setting (t : Thread) (r : BitVec 256) (w : Setter) : Thread :=
  if setH r then t.modHandle (handleOf r) (fun h => { h with count := h.count + 1, setter := w }) else t

/-- A setting operation of a handle completes (06 R185). -/
def Thread.settled (t : Thread) (h : Nat) : Thread := t.modHandle h (fun x => { x with count := x.count - 1 })

/-- An operation of a thread in flight ends (06 R190). -/
def Thread.landed (t : Thread) (op : Nat) : Thread := { t with flights := t.flights.filter (fun f => f.ident ≠ op) }

/-- A thread's gang's place. -/
def State.gangOf? (s : State) (t : Thread) : Option Gang := (s.job? t.job).bind (fun j => Tab.find j.gangs t.gang)

/-- A thread's effective class (08 R255). -/
def State.threadCls (s : State) (t : Thread) : Cls :=
  let base := ((s.job? t.job).map (·.cls)).getD .system
  let ceils := t.held.filterMap (fun h => (Tab.find s.compute.sems h.sem).map (·.ceiling))
  ceils.foldl Cls.higher base

/-- Array cycles of a core's engines that a thread's operation takes count for its class's share (08 R275). -/
def State.charge (s : State) (c : CoreNo) (t cycles : Nat) : State :=
  match (s.thread? t).map s.threadCls with
  | some .background => s.modCore c (fun x => { x with bgUsed := x.bgUsed + cycles })
  | some .system => s.modCore c (fun x => { x with sysUsed := x.sysUsed + cycles })
  | _ => s

/-- So for the cycles of its vector unit. -/
def State.chargeVx (s : State) (c : CoreNo) (t cycles : Nat) : State :=
  match (s.thread? t).map s.threadCls with
  | some .background => s.modCore c (fun x => { x with bgVx := x.bgVx + cycles })
  | some .system => s.modCore c (fun x => { x with sysVx := x.sysVx + cycles })
  | _ => s

/-- Counts saturations at a core, whose counter stops at 2^48 − 1, and for a job what the core counted of them (05 R158). A job's total is not seen before its
end, so what a core counts is added to it at once. -/
def State.saturated (s : State) (c : CoreNo) (j n : Nat) : State :=
  if n = 0 then s
  else
    let old := (s.core c).sat
    let new := satAdd old n (2 ^ 48 - 1)
    (s.modCore c (fun x => { x with sat := new })).modJob j (fun x => { x with sat := x.sat + (new - old) })

/-! ## The bench-memory window of a gang (06 R182, 08 R268). -/

/-- Bytes of the window from an offset: in bench memory, or in the image while it is saved. -/
def State.winRead (s : State) (g : Gang) (off n : Nat) : List Byte :=
  match g.saved with
  | some m => Mem.read 0 m off n
  | none => Mem.read 0 (s.core g.core).bench (g.allotAt + off) n

/-- Whether n bytes of a core's bench memory hold a word that fails every read until it is written (07 R240, 14 R465). -/
def State.benchBad (s : State) (c : CoreNo) (a n : Nat) : Bool :=
  n ≠ 0 && s.integ.badWords.any (fun w => w.1 = 0 && w.2.1 = c.val && w.2.2 < a + n && a < w.2.2 + 8)

/-- Words of a region written whole fail no longer (14 R463, R465). -/
def State.heal (s : State) (region inst a n : Nat) : State :=
  { s with integ := { s.integ with badWords := s.integ.badWords.filter (fun w => !(w.1 = region && w.2.1 = inst && a ≤ w.2.2 && w.2.2 + 8 ≤ a + n)) } }

/-- Bytes written to the window of gang `gi` of job `j`. -/
def State.winWrite (s : State) (j gi : Nat) (off : Nat) (bs : List Byte) : State :=
  match (s.job? j).bind (fun x => Tab.find x.gangs gi) with
  | none => s
  | some g =>
    match g.saved with
    | some m => s.modGang j gi (fun g => { g with saved := some (Mem.write 0 m off bs) })
    | none => (s.modCore g.core (fun c => { c with bench := Mem.write 0 c.bench (g.allotAt + off) bs })).heal 0 g.core.val (g.allotAt + off) bs.length

/-- The read-only lines of a window, counted from its start (07 R227). -/
def State.winMarks (s : State) (g : Gang) : List Nat :=
  match g.saved with
  | some _ => g.savedRo
  | none => ((s.core g.core).readOnly.filter (fun l => g.allotAt / 1024 ≤ l)).map (· - g.allotAt / 1024)

/-- Whether n bytes from an offset touch a read-only line (07 R227). -/
def State.winLocked (s : State) (g : Gang) (off n : Nat) : Bool :=
  n ≠ 0 && (s.winMarks g).any (fun l => off / 1024 ≤ l && l ≤ (off + n - 1) / 1024)

/-- The marks of a window's lines changed. -/
def State.markWin (s : State) (j gi : Nat) (f : List Nat → List Nat) : State :=
  match (s.job? j).bind (fun x => Tab.find x.gangs gi) with
  | none => s
  | some g =>
    match g.saved with
    | some _ => s.modGang j gi (fun g => { g with savedRo := f g.savedRo })
    | none =>
      let lo := g.allotAt / 1024
      let size := (((s.job? j).map (·.allot)).getD 0) / 1024
      let mine := (s.winMarks g).filter (· < size)
      s.modCore g.core (fun c => { c with readOnly := c.readOnly.filter (fun l => l < lo || lo + size ≤ l) ++ (f mine).map (· + lo) })

/-! ## Device addresses (06 R187, R188). -/

/-- Where an address lies: the gang's window, region 0x00, 0x01, 0x03, another module's window, or the privileged space. -/
inductive Place where
  | win (off : Nat)
  | hbm (off : Nat)
  | flash (off : Nat)
  | pinned (off : Nat)
  | remote (m : Nat) (off : Nat)
  | priv (off : Nat)
deriving DecidableEq, Repr, Inhabited

/-- The kinds of access of R188. -/
inductive Access where
  | load | store | atom | moveSrc | moveDst | coll
deriving DecidableEq, Repr, Inhabited

/-- Fault codes of 06 R215. -/
inductive FaultCode where
  | operand | address | regionForbidden | callDepth | semOrder | semState | semHold | semBlockingHeld | endHeld | trap | groupInvalid
deriving DecidableEq, Repr, Inhabited

/-- The code of R215. -/
def FaultCode.num : FaultCode → Nat
  | .operand => 1
  | .address => 2
  | .regionForbidden => 3
  | .callDepth => 4
  | .semOrder => 5
  | .semState => 6
  | .semHold => 7
  | .semBlockingHeld => 8
  | .endHeld => 9
  | .trap => 10
  | .groupInvalid => 11

/-- This module's number (12 R378, 18). -/
def State.moduleNumber (s : State) : Nat := s.power.cfg.moduleNumber

/-- How far from a position some runs of (start, length) reach without a gap. -/
def reach (runs : List (Nat × Nat)) : Nat → Nat → Nat
  | 0, pos => pos
  | k + 1, pos =>
    match runs.find? (fun r => r.1 ≤ pos && pos < r.1 + r.2) with
    | some r => reach runs k (r.1 + r.2)
    | none => pos

/-- The grant of a module (or the module's own) that holds n bytes from an offset of a region. -/
def State.grantAt (s : State) (modh region off n : Nat) : Option (Nat × Grant) :=
  s.tiers.grants.find? (fun e => e.2.modh = modh && e.2.region = region && e.2.base ≤ off && off + n ≤ e.2.base + e.2.len)

/-- The ranges of a region that a module's jobs may use: its grants, and in region 0x01 every context cache, which is immutable (06 R187; 07 R225; log entry 71). -/
def State.validRuns (s : State) (modh region : Nat) (write : Bool) : List (Nat × Nat) :=
  (s.tiers.grants.filter (fun e => e.2.modh = modh && e.2.region = region && !(write && e.2.immutable))).map (fun e => (e.2.base, e.2.len))
    ++ (if region = 1 && !write then (Tab.vals s.serv.caches).flatMap Cache.spans else [])

/-- Whether n bytes from an offset of a region lie in ranges its jobs may use, adjacent ones joined (06 R187). -/
def State.validRange (s : State) (modh region off n : Nat) (write : Bool) : Bool :=
  let runs := s.validRuns modh region write
  n = 0 || off + n ≤ reach runs runs.length off

/-- The exported grant that holds n bytes from an offset of the exported window, and the offset within it (13 R447). -/
def State.exportedAt (s : State) (off n : Nat) : Option (Grant × Nat) :=
  (Tab.vals s.tiers.grants).findSome? (fun g =>
    match g.exported with
    | some x => if x ≤ off ∧ off + n ≤ x + g.len then some (g, off - x) else none
    | none => none)

/-- The grants that hold n bytes from an offset of the exported window: (grant, offset within it, bytes); none where the window has a hole or ends. -/
def State.exportPieces (s : State) (off n : Nat) : Nat → Option (List (Grant × Nat × Nat))
  | 0 => if n = 0 then some [] else none
  | k + 1 =>
    if n = 0 then some []
    else
      match s.exportedAt off 1 with
      | none => none
      | some (g, x) =>
        let m := min n (g.len - x)
        (s.exportPieces (off + m) (n - m) k).map (fun l => (g, x, m) :: l)

/-- The pieces of a range of the exported window. -/
def State.exportRange (s : State) (off n : Nat) : Option (List (Grant × Nat × Nat)) := s.exportPieces off n (s.tiers.grants.length + 1)

/-- The place of an offset of a grant. -/
def Grant.placeAt (g : Grant) (x : Nat) : Place := if g.region = 0 then .hbm (g.base + x) else if g.region = 1 then .flash (g.base + x) else .pinned (g.base + x)

/-- Whether a kind of access is allowed in a region, `p` for a privileged module (06 R188). -/
def allowedIn (k : Access) (p : Bool) : Place → Bool
  | .win _ => true
  | .hbm _ => true
  | .flash _ => k ≠ .atom && k ≠ .coll
  | .pinned _ => true
  | .remote _ _ => k = .moveSrc || k = .moveDst
  | .priv _ => p && k ≠ .coll

/-- Whether an access kind writes. -/
def Access.writes : Access → Bool
  | .store => true
  | .atom => true
  | .moveDst => true
  | _ => false

/-- Where the bytes of a range lie, in order: each place and how many bytes from it. -/
abbrev Spots := List (Place × Nat)

/-- Where n bytes at a device address lie for a thread, or the fault of R188. A remote address of this module's own number is its own window (06 R187). -/
def State.resolve (s : State) (t : Thread) (a : Nat) (n : Nat) (k : Access) : Except FaultCode Spots :=
  let off := a % 2 ^ 56
  let r := a / 2 ^ 56 % 256
  let modh := ((s.job? t.job).map (·.modh)).getD 0
  let m := Tab.find s.compute.mods modh
  let priv := ((m.map (fun x => x.privileged && x.stonaxis)).getD false)
  let place : Option Place :=
    if r = 0 then some (.hbm off) else if r = 1 then some (.flash off) else if r = 2 then some (.win off)
    else if r = 3 then some (.pinned off) else if 0x40 ≤ r ∧ r ≤ 0xBF then some (.remote (r - 0x40) off)
    else if r = 0xFF then some (.priv off) else none
  match place with
  | none => .error .address
  | some p =>
    if !allowedIn k priv p then .error .regionForbidden
    else
      match p with
      | .win o =>
        let lim := ((s.job? t.job).map (·.allot)).getD 0
        let locked : Bool := match s.gangOf? t with
          | some g => s.winLocked g o n
          | none => false
        if lim < o + n ∨ (k.writes ∧ locked) then .error .address else .ok [(p, n)]
      | .remote m o =>
        if m = s.moduleNumber then
          match s.exportRange o n with
          | none => .error .address
          | some l => if k.writes ∧ l.any (fun x => x.1.immutable) then .error .address else .ok (l.map (fun x => (x.1.placeAt x.2.1, x.2.2)))
        else .ok [(p, n)]
      | .priv _ => .ok [(p, n)]
      | _ => if s.validRange modh r off n k.writes then .ok [(p, n)] else .error .address

/-- Bytes at a place; what a remote place holds is not here. -/
def State.placeRead (s : State) (t : Thread) (p : Place) (n : Nat) : List Byte :=
  match p with
  | .win o => match s.gangOf? t with
    | some g => s.winRead g o n
    | none => zeros n
  | .hbm o => Mem.read 0 s.tiers.hbm o n
  | .flash o => s.flashRead o n
  | .pinned o => Mem.read 0 s.tiers.pinned o n
  | .priv o => Mem.read 0 s.tiers.priv o n
  | .remote _ _ => []

/-- The bytes of a range. -/
def State.spotsRead (s : State) (t : Thread) (l : Spots) : List Byte := l.flatMap (fun x => s.placeRead t x.1 x.2)

/-- The tiers changed. -/
def State.modTiers (s : State) (f : Tiers → Tiers) : State := { s with tiers := f s.tiers }

/-- The device address of an offset of a region. -/
def regionAddr (region off : Nat) : Nat := region * 2 ^ 56 + off

/-- Whether a block of 64 bytes that fails every read, by device address over 64, meets n bytes from an address (07 R240, 14 R465). -/
def State.blockFails (s : State) (a n : Nat) (spare : Nat → Bool) : Bool := s.tiers.hbmBad.any (fun b => a / 64 ≤ b && b ≤ (a + n - 1) / 64 && !spare b)

/-- Whether a word of the chip cache that fails until it is written meets n bytes from a device address (14 R463, R465). -/
def State.cacheWordFails (s : State) (a n : Nat) : Bool := s.integ.badWords.any (fun w => w.1 = 1 && w.2.2 < a + n && a < w.2.2 + 8)

/-- Whether n bytes of HBM meet a failing word of a cached line, or a failing block that no line holds: a line is read in its stead (07 R234, R240; 14 R463, R465). -/
def State.hbmFails (s : State) (o n : Nat) : Bool := n ≠ 0 && (s.blockFails o n (fun b => Tab.has s.tiers.lines (b / 2)) || s.cacheWordFails o n)

/-- Whether n bytes of region 0x01 cannot be read: T3 has failed a mutable tile of them, or their raised copy holds a failing block (07 R240). -/
def State.flashFails (s : State) (o n : Nat) : Bool :=
  n ≠ 0 && (s.tiers.flashBad.any (fun r => r.1 < o + n && o < r.1 + r.2) || s.blockFails (regionAddr 1 o) n (fun _ => false))

/-- Whether a read of n bytes at a place meets a block or word that fails until it is written (07 R240; 14 R463, R465). -/
def State.placeBad (s : State) (t : Thread) (p : Place) (n : Nat) : Bool :=
  n ≠ 0 &&
  match p with
  | .win o => (s.gangOf? t).elim false (fun g => g.saved.isNone && s.benchBad g.core (g.allotAt + o) n)
  | .hbm o => s.hbmFails o n
  | .flash o => s.flashFails o n
  | .pinned o => s.cacheWordFails (regionAddr 3 o) n
  | _ => false

/-- Whether a read of a range meets such a block or word. -/
def State.spotsBad (s : State) (t : Thread) (l : Spots) : Bool := l.any (fun x => s.placeBad t x.1 x.2)

/-- What is left of a range that failed once n bytes from an offset have been written. -/
def cutRange (o n : Nat) (r : Nat × Nat) : List (Nat × Nat) :=
  if r.1 + r.2 ≤ o ∨ o + n ≤ r.1 then [r]
  else [(r.1, o - r.1), (o + n, r.1 + r.2 - (o + n))].filter (fun x => x.2 ≠ 0)

/-- Blocks of 64 bytes written whole at a device address fail no longer (14 R465). -/
def State.healBlocks (s : State) (a n : Nat) : State := s.modTiers (fun x => { x with hbmBad := x.hbmBad.filter (fun b => !(a ≤ 64 * b && 64 * b + 64 ≤ a + n)) })

/-- Words of the chip cache written whole fail no longer, and a line without a failing word is evictable again (14 R463, R465). -/
def State.healCache (s : State) (a n : Nat) : State :=
  if s.integ.badWords.all (fun w => w.1 ≠ 1) then s
  else
    let s := (List.range 4).foldl (fun s q => s.heal 1 q a n) s
    s.modTiers (fun x => { x with lines := x.lines.map (fun e => if s.integ.badWords.any (fun w => w.1 = 1 && w.2.2 / 128 = e.1) then e else (e.1, { e.2 with stuck := false })) })

/-- A whole range of a region has been written: its blocks and words fail no longer (07 R240; 14 R463, R465). -/
def State.healRange (s : State) (region o n : Nat) : State :=
  if region = 0 then (s.healBlocks o n).healCache o n
  else if region = 1 then (s.modTiers (fun x => { x with flashBad := x.flashBad.flatMap (cutRange o n) })).healBlocks (regionAddr 1 o) n
  else s.healCache (regionAddr 3 o) n

/-- HBM bytes written. -/
def State.hbmWrite (s : State) (o : Nat) (bs : List Byte) : State :=
  ((s.modTiers (fun x => { x with hbm := Mem.write 0 x.hbm o bs })).healBlocks o bs.length).healCache o bs.length

/-- Bytes of region 0x01 written. -/
def State.flashWrite (s : State) (o : Nat) (bs : List Byte) : State :=
  (s.modTiers (fun x => { x with flash := Mem.write 0 x.flash o bs, flashBad := x.flashBad.flatMap (cutRange o bs.length) })).healBlocks (regionAddr 1 o) bs.length

/-- Bytes of pinned chip cache written. -/
def State.pinnedWrite (s : State) (o : Nat) (bs : List Byte) : State :=
  (s.modTiers (fun x => { x with pinned := Mem.write 0 x.pinned o bs })).healCache (regionAddr 3 o) bs.length

/-- Bytes written at a place of this module. -/
def State.placeWrite (s : State) (t : Thread) (p : Place) (bs : List Byte) : State :=
  match p with
  | .win o => s.winWrite t.job t.gang o bs
  | .hbm o => s.hbmWrite o bs
  | .flash o => s.flashWrite o bs
  | .pinned o => s.pinnedWrite o bs
  | .priv o => s.modTiers (fun x => { x with priv := Mem.write 0 x.priv o bs })
  | .remote _ _ => s

/-- Bytes written to a range, in order. -/
def State.spotsWrite (s : State) (t : Thread) : Spots → List Byte → State
  | [], _ => s
  | x :: l, bs => (s.placeWrite t x.1 (bs.take x.2)).spotsWrite t l (bs.drop x.2)

/-- The region codes of other modules' windows and this module's own: 0x40 + m (06 R187). -/
def windowCode (a : Nat) : Bool := 0x40 ≤ a / 2 ^ 56 % 256 && a / 2 ^ 56 % 256 ≤ 0xBF

/-- The device ranges that a device range names: itself, or, through the module's own window, the parts of the grants it holds (06 R187). -/
def State.homeRanges (s : State) (a n : Nat) : List Range :=
  if windowCode a && a / 2 ^ 56 % 256 - 0x40 = s.moduleNumber then
    ((s.exportRange (a % 2 ^ 56) n).getD []).map (fun x => ⟨regionAddr x.1.region (x.1.base + x.2.1), x.2.2⟩)
  else [⟨a, n⟩]

/-- A window offset as a device address, for the ranges of R190. -/
def winAddr (off : Nat) : Nat := 2 * 2 ^ 56 + off

/-- Whether two ranges share a byte. -/
def Range.meets (a b : Range) : Bool := a.base < b.base + b.len && b.base < a.base + a.len

end Sys2Proof.Machine
end

