-- ==== Sys2Proof/Machine/Commands.lean ====
section
/-! DEFINITION. The opcode map of 13 R413, the classes of 08 R598, and the halts of Stopwork over commands and jobs (12 R401, R402). -/

namespace Sys2Proof.Machine

/-- Which ports a command is allowed on (12 R376, 13 R413). -/
inductive PortsOf where
  | owner | both | sentinel
deriving DecidableEq, Repr, Inhabited

/-- A row of the opcode map: ports, readiness bits needed, the RO mark, and whether it moves pushed data (13 R413). -/
structure CmdRow where
  ports : PortsOf
  needs : Nat
  ro : Bool
  push : Bool
deriving DecidableEq, Repr, Inhabited

/-- The opcode map of 13 R413; readiness bits as 18 R561 numbers them. -/
def cmdRowOf (op : Nat) : Option CmdRow :=
  if op ∈ [0x0101, 0x0102, 0x0A01, 0x0A03] then some ⟨.both, 0x01, false, false⟩
  else if op = 0x0109 then some ⟨.sentinel, 0x01, false, false⟩
  else if op ∈ [0x0103, 0x0104, 0x0105, 0x0106, 0x0107, 0x0108, 0x0902, 0x0903, 0x0904, 0x0A02] then some ⟨.owner, 0x01, false, false⟩
  else if op = 0x0901 then some ⟨.owner, 0x01, false, true⟩
  else if op ∈ [0x010A, 0x0307] then some ⟨.owner, 0x02, true, false⟩
  else if op ∈ [0x010B, 0x0201, 0x0203, 0x0204] then some ⟨.owner, 0x02, false, false⟩
  else if op = 0x0202 then some ⟨.owner, 0x02, true, true⟩
  else if op = 0x0301 then some ⟨.owner, 0x08, true, true⟩
  else if op ∈ [0x0302, 0x0303, 0x0703] then some ⟨.owner, 0x08, true, false⟩
  else if op ∈ [0x0304, 0x0305, 0x0306, 0x0401, 0x0404, 0x0405, 0x0701, 0x0702] then some ⟨.owner, 0x08, false, false⟩
  else if op = 0x0402 then some ⟨.owner, 0x18, false, false⟩
  else if op = 0x0403 then some ⟨.owner, 0x08, false, true⟩
  else if op ∈ [0x0501, 0x0502] then some ⟨.owner, 0x20, false, true⟩
  else if op = 0x0503 then some ⟨.owner, 0x20, false, false⟩
  else if op ∈ [0x0601, 0x0602, 0x0604] then some ⟨.owner, 0x04, false, true⟩
  else if op ∈ [0x0603, 0x0605, 0x0606, 0x0607] then some ⟨.owner, 0x04, false, false⟩
  else if op ∈ [0x0801, 0x0802, 0x0803] then some ⟨.owner, 0x10, false, false⟩
  else none

/-- The class of a command (08 R598); `RUN` has the class it names. -/
def Cmd.cls (c : Cmd) : Option Cls :=
  let op := c.opcode
  if op ∈ [0x0201, 0x0202, 0x0203, 0x0204, 0x0304, 0x0305, 0x0401, 0x0402, 0x0403, 0x0404, 0x0405, 0x0501, 0x0502, 0x0503] then some .interactive
  else if op ∈ [0x0301, 0x0302, 0x0303, 0x0306, 0x0307, 0x0701, 0x0703] then some .background
  else if op = 0x0603 then some (Cls.ofCode (c.field 0x12 1 % 4))
  else none

/-- Whether a command lies in a Stopwork scope; ring 0's lie in none (12 R401). -/
def Cmd.inScope (c : Cmd) (x : Scope) : Bool :=
  c.ring ≠ 0 &&
  match x with
  | .ring r => c.ring = r
  | .session h => c.opcode = 0x0502 && c.object % 2 ^ 32 = h
  | .cls k => c.cls = some k
  | .all => true

/-- Whether a halt covers a command (12 R402). -/
def State.halted (s : State) (c : Cmd) : Bool := s.host.halts.any (fun x => c.inScope x.1)

/-- Whether a halt covers the module's Background work that no command started (12 R401). -/
def State.backHalted (s : State) : Bool := s.host.halts.any (fun x => x.1 = .all || x.1 = .cls .background)

/-- Whether a halt covers a job: that of the command that started it (12 R401). -/
def State.jobHalted (s : State) (j : Job) : Bool := ((s.cmd? j.cmd).map s.halted).getD false

/-- A command ready to act: in progress with the row's opcode, no halt over it, FENCE open (12 R386, R402). -/
def State.acting (s : State) (id op : Nat) : Option Cmd :=
  match s.cmd? id with
  | some c => if c.opcode = op ∧ ¬ s.halted c ∧ s.fenceOpen c then some c else none
  | none => none

/-- The same for a command with pushed data: all of it has arrived (12 R392, R393). -/
def State.actingFull (s : State) (id op : Nat) : Option Cmd := (s.acting id op).filter (fun c => c.need ≤ c.got)

/-- The pushed data of a command. -/
def Cmd.pushed (c : Cmd) : List Byte := Mem.read 0 c.data 0 c.need

/-- A stage and notes of a command changed. -/
def State.stage (s : State) (id n : Nat) (aux : List Nat) : State := s.modCmd id (fun c => { c with stage := n, aux := aux })

/-- Whether a command's deadline has passed: a completion in the expiry tick is on time (12 R406). -/
def State.late (s : State) (c : Cmd) : Bool := (c.expiry.map (fun e => decide (e < s.tick))).getD false

end Sys2Proof.Machine
end

