-- ==== Sys2Proof/Machine/Jobs.lean ====
section
/-! DEFINITION. Jobs: what is still running of one, how it ends, its summary and reply, faults, failed checks and whole-job restarts
(06 R183, R198, R215 to R217; 08 R258; 14 R476, R484 to R487). -/

namespace Sys2Proof.Machine

/-! ## What a job has running. -/

/-- The threads of a job, by number. -/
def State.threadsOf (s : State) (j : Nat) : List Nat := Tab.keys (s.compute.threads.filter (fun e => e.2.job = j))

/-- Whether a context still runs an operation that has started. -/
def Ctx.busy (k : Ctx) : Bool := k.running.isSome || !k.loads.isEmpty || !k.emissions.isEmpty

/-- Whether a started operation of a job is still running, or a sample of its work is undecided (06 R216, 14 R479). -/
def State.jobBusy (s : State) (j : Nat) : Bool :=
  let mine : Nat → Bool := fun t => ((s.thread? t).map (fun x => decide (x.job = j))).getD false
  (Tab.vals s.compute.ctxs).any (fun k => mine k.thread && k.busy)
    || (Tab.vals s.compute.cores).any (fun c => ((c.vxRun.map (fun u => mine u.1.thread)).getD false) || ((c.slRun.map (fun u => mine u.uop.thread)).getD false))
    || (Tab.vals s.tiers.reqs).any (fun r => r.job = j && r.kind ≠ .fetching && r.kind ≠ .remote)
    || s.span.insts.any (fun i => (i.thread.map mine).getD false)
    || (Tab.vals s.integ.captures).any (fun c => c.job = j)

/-- Operations of a job that wait at a unit and have not started are dropped. -/
def State.dropQueued (s : State) (j : Nat) : State :=
  let ts := s.threadsOf j
  let keep := fun (u : UnitOp) => u.thread ∉ ts
  s.modCompute (fun c =>
    { c with
      ctxs := Tab.changeAll c.ctxs (fun k => if k.thread ∈ ts then { k with queue := [] } else k)
      cores := Tab.changeAll c.cores (fun x => { x with vxWait := x.vxWait.filter keep, slWait := x.slWait.filter (fun q => keep q.uop) }) })

/-- The semaphores a job's threads hold are released and marked broken, and its waiters leave (06 R198). -/
def State.breakSems (s : State) (j : Nat) : State :=
  let ts := s.threadsOf j
  let held := ts.flatMap (fun t => ((s.thread? t).map (·.held)).getD [])
  s.modCompute (fun c =>
    { c with
      sems := held.foldl (fun m h => Tab.change m h.sem (fun x => { x with count := x.count + h.amount, broken := true }))
        (Tab.changeAll c.sems (fun x => { x with waiters := x.waiters.filter (fun w => w.thread ∉ ts) }))
      threads := Tab.changeAll c.threads (fun t => if t.job = j then { t with held := [] } else t) })

/-- A job's threads and engine contexts are gone (06 R184, R216). -/
def State.clearThreads (s : State) (j : Nat) : State :=
  let ts := s.threadsOf j
  s.modCompute (fun c =>
    { c with
      ctxs := c.ctxs.filter (fun e => e.2.thread ∉ ts)
      threads := c.threads.filter (fun e => e.2.job ≠ j)
      cores := Tab.changeAll c.cores (fun x => { x with queues := Tab.changeAll x.queues (fun q => q.filter (fun e => e.thread ∉ ts)) }) })

/-! ## The end of a job. -/

/-- The status code of the summary, and the advisory flags (06 R217, 05 R172, 12 R389). -/
def Job.flags (j : Job) (st : Status) : Nat :=
  if st = .success then bit j.overridden * flagCheckOverridden + bit (decide (0 < j.rescues)) * flagScaleRescued else 0

/-- The fault a status reports; the fields are zero unless it is MODULE_INVALID (13 R449). -/
def Job.faultOf (j : Job) (st : Status) : Nat × Nat × Nat × Nat := if st = .moduleInvalid then j.fault.getD (0, 0, 0, 0) else (0, 0, 0, 0)

/-- Escapement ticks from a job's start to now; 0 for a job that has not started. -/
def State.runTicks (s : State) (j : Job) : Nat := if j.admitted ∨ j.restarts ≠ 0 then s.tick - j.started / tickUnits else 0

/-- The job summary (06 R217). -/
def State.summary (s : State) (j : Job) (st : Status) : List Byte :=
  let f := j.faultOf st
  sealed (blockOf 64 [(0, 2, (flagged st (j.flags st)).num), (2, 2, j.flags st), (4, 2, f.1), (6, 2, f.2.1), (8, 4, f.2.2.1), (0x0C, 4, f.2.2.2),
    (0x10, 4, j.faults), (0x14, 4, j.restarts), (0x18, 8, j.sat), (0x20, 8, j.rescues), (0x28, 8, j.ops), (0x30, 8, s.runTicks j)])

/-- The results of RUN (13 R449). -/
def State.runResult (s : State) (j : Job) (st : Status) : List Byte :=
  let f := j.faultOf st
  let thread := if st = .configMismatch ∨ st = .spanMemberLost then j.lostMember else f.2.2.1
  resultAt [(0x0C, 2, f.1), (0x0E, 2, f.2.1), (0x10, 4, thread), (0x14, 4, f.2.2.2), (0x18, 8, s.runTicks j)]

/-- The gang key of a scale site's entries: job and gang. -/
def gangKey (j g : Nat) : Nat := j * 65536 + g

/-- A scale site at the end of the step that a job was: its maximum takes the oldest place in the ring, and the recipe scale follows; where the ring holds nothing but zeros it
stands (05 R165). -/
def ScaleSite.boundary (x : ScaleSite) (j : Nat) : ScaleSite :=
  let ring := x.ring.drop 1 ++ [Tab.at x.maxima j 0#32]
  let m := ring.foldl (fun (b : W32) v => if (num32 b.toNat).lt (num32 v.toNat) then v else b) 0#32
  let top : Num := if x.kind = 2 then (num32 m.toNat).mul (.ofInt 4) else num32 m.toNat
  { x with
    ring := ring
    scale := if m = 0#32 then x.scale else BitVec.ofNat 32 (fp32 .up (top.div (.ofInt (qmaxOf x.fmt))))
    step := x.step + 1
    maxima := Tab.del x.maxima j }

/-- Whether an EMIT of a step still open has reported to a site. -/
def ScaleSite.reported (x : ScaleSite) : Bool := !x.maxima.isEmpty

/-- Bytes written at the place of an entry: a window whose gang is still in place, or a device address; a line lent read-only is not written (05 R165; 07 R227). -/
def State.entryWrite (s : State) (e : Nat × Nat) (bs : List Byte) : State :=
  let o := e.2 % 2 ^ 56
  match e.1 with
  | 0 => if e.2 / 2 ^ 56 = 0 then s.hbmWrite o bs else if e.2 / 2 ^ 56 = 1 then s.flashWrite o bs else s.pinnedWrite o bs
  | k + 1 =>
    match (s.job? (k / 65536)).bind (fun x => Tab.find x.gangs (k % 65536)) with
    | none => s
    | some g => if s.winLocked g e.2 bs.length then s else s.winWrite (k / 65536) (k % 65536) e.2 bs

/-- The entries of a site take its new scale, where they lie now (05 R165, R173). -/
def State.rewriteEntries (s : State) (x : ScaleSite) : State :=
  x.entries.foldl (fun s e => s.entryWrite e (leBytes 8 (ScaleE.toNat ⟨x.scale.toNat, 0, false, x.kind⟩))) s

/-- The entries of a site that still lie somewhere: those in the window of a gang go with it. -/
def State.entriesLeft (s : State) (l : List (Nat × Nat)) : List (Nat × Nat) := l.filter (fun e => match e.1 with
  | 0 => true
  | k + 1 => Tab.has s.compute.jobs (k / 65536))

/-- The end of the step that a job was: the sites that an EMIT of the job has reported to take its maximum; what other jobs have reported stays with their own steps (05 R165;
08 R259; log entry 60). -/
def State.siteBoundary (s : State) (j : Nat) : State :=
  (s.compute.sites.filter (fun e => Tab.has e.2.maxima j)).foldl (fun s e =>
    let x := e.2.boundary j
    (s.rewriteEntries x).modCompute (fun c => { c with sites := Tab.put c.sites e.1 { x with entries := s.entriesLeft x.entries } })) s

/-- The summary of a job goes to the host and its RUN completes, if it still waits (06 R217; 13 R449). -/
def State.jobReply (s : State) (x : Job) (st : Status) : State :=
  match s.cmd? x.cmd with
  | some c => (s.hostWrite c.port x.summary (s.summary x st)).completeWith x.cmd st (x.flags st) (s.runResult x st)
  | none => s

/-- The job closes: its summary goes to the host, RUN completes, its semaphores break and its threads are gone (06 R198, R216, R217). It has been one step: the scale sites
that it reported to meet a step boundary (05 R165; 08 R259). -/
def State.closeJob (s : State) (j : Nat) (x : Job) (st : Status) : State :=
  let s := ((s.jobReply x st).breakSems j).clearThreads j
  (s.modCompute (fun c => { c with jobs := Tab.del c.jobs j })).siteBoundary j

/-- A stopped job whose started operations have all ended closes, or waits for admission again (06 R216, 14 R485). -/
def State.settle (s : State) (j : Nat) : State :=
  match s.job? j with
  | none => s
  | some x =>
    match x.ending with
    | none => s
    | some e =>
      if s.jobBusy j then s
      else
        match e with
        | .status st => s.closeJob j x st
        | .restart =>
          let cores := (Tab.vals x.gangs).map (·.core.val)
          let s := (s.breakSems j).clearThreads j
          s.modJob j (fun x => { x with ending := none, admitted := false, gangs := [], restarts := x.restarts + 1, failedCores := cores ++ x.failedCores })

/-- Every stopped job that can close does. -/
def State.settleAll (s : State) : State := (Tab.keys s.compute.jobs).foldl (fun s j => s.settle j) s

/-- The rank of statuses that fall in one tick (08 R258, 14 R487); the refusal of 11 R366 ranks with CONFIG_MISMATCH (log entry 32). -/
def statusRank : Status → Nat
  | .success => 0
  | .abortedStopwork => 1
  | .moduleInvalid => 2
  | .deadlineExpired => 3
  | .tierLate => 4
  | .tierFailed => 5
  | .spanMemberLost => 6
  | .configMismatch => 7
  | .invalidField => 8
  | _ => 9

/-- Whether a new ending takes the place of one already found: only in the same tick, and only ranking above it (06 R216). -/
def State.overrides (s : State) (x : Job) (st : Status) : Bool :=
  match x.ending with
  | none => true
  | some .restart => x.endTick = s.tick && statusRank st < 9
  | some (.status old) => x.endTick = s.tick && statusRank st < statusRank old

/-- The status a job stops with once its deadline has had its turn: past the expiry tick the deadline came first, and in that tick it ranks with the others (08 R258). -/
def State.byDeadline (s : State) (x : Job) (st : Status) : Status :=
  match x.deadline with
  | none => st
  | some d => if d < s.tick ∨ (d = s.tick ∧ statusRank .deadlineExpired < statusRank st) then .deadlineExpired else st

/-- A job stops with a status: no operation of it issues, started ones run to their end, and it closes (06 R216, 08 R258). -/
def State.endJob (s : State) (j : Nat) (st : Status) : State :=
  match s.job? j with
  | none => s
  | some x =>
    let st := s.byDeadline x st
    if s.overrides x st then
      ((s.modJob j (fun x => { x with ending := some (.status st), endTick := s.tick })).dropQueued j).settle j
    else s

/-- A job ends because of a span member (06 R189, 11 R363, R369, R370). -/
def State.endJobFor (s : State) (j : Nat) (st : Status) (member : Nat) : State :=
  match s.job? j with
  | none => s
  | some x => if s.overrides x st then (s.modJob j (fun x => { x with lostMember := member })).endJob j st else s

/-! ## Faults (06 R215, R216). -/

/-- The operation at record `pc` faults and has no effect; the job stops with MODULE_INVALID, and among faults of one tick the lowest thread index is reported. -/
def State.fault (s : State) (t pc : Nat) (code : FaultCode) (trap : Nat) : State :=
  match s.thread? t with
  | none => s
  | some th =>
    let s := s.modJob th.job (fun x =>
      let first := match x.fault with
        | none => x.ending.isNone || s.overrides x .moduleInvalid
        | some f => x.endTick = s.tick && th.index < f.2.2.1
      { x with faults := x.faults + 1, fault := if first then some (code.num, trap, th.index, pc) else x.fault })
    s.endJob th.job .moduleInvalid

/-! ## Failed checks and restarts (14 R476, R484 to R487). -/

/-- PLAUS_MODE (14 R488). -/
def State.plausMode (s : State) : Nat := bitsOf s.integ.policy.toNat 6 2
/-- RUN_RESTART (14 R488). -/
def State.runRestart (s : State) : Bool := bitOf s.integ.policy.toNat 8
/-- RESTART_MAX (14 R488). -/
def State.restartMax (s : State) : Nat := bitsOf s.integ.policy.toNat 9 2

/-- A job fails its check: it starts again whole, or completes with CHECK_FAILED after its last allowed run (14 R484, R485, R487). -/
def State.checkFails (s : State) (j : Nat) : State :=
  match s.job? j with
  | none => s
  | some x =>
    if x.ending.isSome then s
    else if s.runRestart ∧ x.restarts < s.restartMax then
      (((s.count 23 1).modJob j (fun x => { x with ending := some .restart, endTick := s.tick })).dropQueued j).settle j
    else s.endJob j .checkFailed

/-- A plausibility check of a RUN job fails with an integer value: recorded, overridden when an earlier failed run on another placement failed
alike at the site, else the job fails its check. The model and site of such a record are free (14 R474, R476, R486; log entry 33). -/
def State.implausible (s : State) (j core site value : Nat) : State :=
  let s := (s.setErr 9).count 21 1
  let s := (s.record 0x400A (sourceOf 2 core) (leBytes 8 (s.freeBits 64).toNat ++ leBytes 4 (Config.freeBits (s.freeCtr + 1) 32).toNat ++ leBytes 4 value)).spend 2
  if s.plausMode ≠ 0 then s
  else
    match s.integ.failedRuns.find? (fun f => f.job = j && f.site = site && f.value = value && f.core ≠ core) with
    | some f =>
      let s := (s.record 0x4008 (sourceOf 2 core) (leBytes 8 (s.freeBits 64).toNat ++ leBytes 4 (Config.freeBits (s.freeCtr + 1) 32).toNat
        ++ leBytes 4 value ++ leBytes 4 f.value ++ leBytes 4 (f.core + core * 2 ^ 16))).spend 2
      (s.count 22 1).modJob j (fun x => { x with overridden := true })
    | none =>
      ({ s with integ := { s.integ with failedRuns := s.integ.failedRuns ++ [FailedRun.mk j site value core] } }).checkFails j

end Sys2Proof.Machine
end

