-- ==== Sys2Proof/Machine/Issue.lean ====
section
/-! DEFINITION. Issue of a thread's operation: what it waits for, what faults, and what issue changes (06 R185, R190, R197, R200). -/

namespace Sys2Proof.Machine

/-- The record a thread is at. -/
def State.recordAt (s : State) (th : Thread) : Option (BitVec 256) :=
  (s.job? th.job).bind (fun j => (Tab.find s.compute.mods j.modh).bind (fun m => m.code[th.pc]?))

/-- Whether threads of a job may issue: admitted, not stopping, under no halt (06 R216, 08 R257, 12 R402). -/
def State.jobRuns (s : State) (j : Nat) : Bool :=
  match s.job? j with
  | some x => x.admitted && x.ending.isNone && !s.jobHalted x
  | none => false

/-- A thread at a record of this opcode that may issue: its job runs and its gang is in place (08 R266). -/
def State.issuing (s : State) (t op : Nat) : Option (Thread × BitVec 256) :=
  match s.thread? t with
  | none => none
  | some th =>
    match s.recordAt th, s.gangOf? th with
    | some r, some g => if th.st = .ready ∧ s.jobRuns th.job ∧ ¬ g.preempted ∧ opcodeOf r = op then some (th, r) else none
    | _, _ => none

/-- Whether an opcode's family is asynchronous: MM, VX, SL, MV, CL (06 R190, R201). -/
def isAsync (op : Nat) : Bool := op / 256 ≤ 5
/-- Whether an opcode's family counts against the hold bound: MM, VX, SL, MV (06 R197). -/
def counted (op : Nat) : Bool := op / 256 ≤ 4
/-- Whether an operation blocks while a semaphore is held: CL and SY_BARRIER (06 R197). -/
def blocks (op : Nat) : Bool := op / 256 = 5 || op = 0x0605

/-- The fault of R197, if the thread holds a semaphore. -/
def Thread.holdFault (th : Thread) (op : Nat) (r : BitVec 256) : Option FaultCode :=
  if th.held.isEmpty then none
  else if blocks op || (maskHandles (waitMask r)).any (fun h => (th.handle h).setter = .collective) then some .semBlockingHeld
  else if counted op && th.held.any (fun h => 256 ≤ h.ops) then some .semHold
  else none

/-- Whether an operation must wait: a handle is not ready, one of its ranges meets an outstanding one, or 16 are in flight (06 R185, R190). -/
def Thread.mustWait (th : Thread) (op : Nat) (r : BitVec 256) (ranges : List Range) : Bool :=
  !th.ready (waitMask r) || (isAsync op && 16 ≤ th.flights.length)
    || ranges.any (fun a => a.len ≠ 0 && th.flights.any (fun f => f.ranges.any (fun b => b.len ≠ 0 && a.meets b)))

/-- What issue changes: the thread passes the record, and the operation is counted (06 R197, R217). -/
def State.passRecord (s : State) (t : Nat) (th : Thread) (op : Nat) : State :=
  (s.modThread t (fun x => { x with pc := x.pc + 1, held := if counted op then x.held.map (fun h => { h with ops := h.ops + 1 }) else x.held })).modJob th.job
    (fun j => { j with ops := j.ops + 1 })

/-- An operation issues: it waits (no change), faults, or takes its effect on the state past its record. `ranges` are the bytes it touches and
`check` the fault its own rules find at issue, with a trap's code. -/
def State.issue (s : State) (t op : Nat) (ranges : Thread → BitVec 256 → List Range) (check : Thread → BitVec 256 → Option (FaultCode × Nat))
    (body : Thread → BitVec 256 → State → State) : State :=
  match s.issuing t op with
  | none => s
  | some (th, r) =>
    match th.holdFault op r with
    | some f => s.fault t th.pc f 0
    | none =>
      if th.mustWait op r (ranges th r) then s
      else
        match check th r with
        | some f => s.fault t th.pc f.1 f.2
        | none => body th r (s.passRecord t th op)

/-- No byte of memory. -/
def noRanges : Thread → BitVec 256 → List Range := fun _ _ => []

/-- An asynchronous operation is in flight under a new number (06 R190). -/
def State.fly (s : State) (t : Nat) (ranges : List Range) : State :=
  (s.modThread t (fun x => { x with flights := x.flights ++ [⟨s.compute.nextIdent, ranges⟩] })).modCompute
    (fun c => { c with nextIdent := c.nextIdent + 1 })

/-- No fault at issue. -/
def noCheck : Thread → BitVec 256 → Option (FaultCode × Nat) := fun _ _ => none

/-- The value BREG adds, read at issue (06 R203). -/
def bregBase (th : Thread) (r : BitVec 256) : Nat := if bregEn r then (th.reg (bregOf r)).toNat else 0

end Sys2Proof.Machine
end

