-- ==== Sys2Proof/Machine/TierOps.lean ====
section
/-! DEFINITION. Residency in the memory tiers: move tiles in T2, the chip cache, eviction, fetches, and how tier requests end (07 R224 to R242; 08 R272,
R273). What a byte holds does not depend on the tier it is in: `Tiers.hbm`, `flash` and `pinned` hold the bytes by address. -/

namespace Sys2Proof.Machine

/-! ## Placement (07 R233). -/

/-- HBM stacks mapped in (14 R473). -/
def State.stacksIn (s : State) : List Nat := (List.range 16).filter (fun k => k ∉ s.integ.jig.hbmOut)

/-- The stack a byte of a region 0x00 grant lies in: SPREAD goes over the stacks left (07 R233, 14 R473). -/
def State.stackOf (s : State) (g : Grant) (off : Nat) : Nat :=
  let gr := (off - g.base) / 4096
  if g.interleave = 0 then s.stacksIn.getD (gr % s.stacksIn.length) 0
  else if g.interleave = 1 then 4 * g.place + gr % 4
  else g.place

/-- The pseudo-channels of a mask, ascending (08 R272). -/
def maskChannels (m : Nat) : List Nat := (List.range 32).filter (fun j => bitOf m j)

/-- The pseudo-channel of its stack a byte of a region 0x00 grant lies in: consecutive granules of a stack take those of the grant's class in turn (07 R233, 08 R272). -/
def State.channelOf (s : State) (g : Grant) (off : Nat) : Nat :=
  let gr := (off - g.base) / 4096
  let here := if g.interleave = 0 then gr / s.stacksIn.length else if g.interleave = 1 then gr / 4 else gr
  let cs := maskChannels g.mask
  cs.getD (here % cs.length) 0

/-- The region of the HBM buckets that a byte of a move tile in T2's pool lies in: its granules go over the stacks left, tile by tile over the pseudo-channels of the class
that brought it (07 R233, R235; 08 R272; 14 R467; log entry 72). -/
def State.poolRegion (s : State) (x : TierTile) (a : Nat) : Nat :=
  let cs := maskChannels x.mask
  32 * s.stacksIn.getD (a / 4096 % 16 % s.stacksIn.length) 0 + cs.getD (a / 65536 % cs.length) 0

/-- PCSET_I, PCSET_B and PCSET_S (08 R272). -/
def Regul.pcset (x : Regul) : Cls → W64
  | .interactive => x.pcsetI
  | .background => x.pcsetB
  | .system => x.pcsetS

/-- PC_MASK of a class (08 R272). -/
def State.pcMask (s : State) (c : Cls) : Nat := (s.regul.pcset c).toNat % 2 ^ 32

/-- The quarter whose stack holds an HBM byte of a grant (07 R234). -/
def State.quarterOf (s : State) (g : Grant) (off : Nat) : QuarterNo := ⟨s.stackOf g off / 4 % 4, Nat.mod_lt _ (by decide)⟩

/-! ## The chip cache (07 R234, R236; 08 R273). -/

/-- Lines of a way: 4 MiB of 128 bytes. -/
def wayLines : Nat := 32768

/-- The code of a way: 0 for one mapped out (14 R473), else its field of WAYS_Qn. -/
def State.wayCode (s : State) (q w : Nat) : Nat :=
  if (16 * q + w) ∈ s.integ.jig.ways then 0 else bitsOf (Tab.at s.regul.ways q 0#64).toNat (4 * w) 4

/-- Whether a way code allocates for a class (08 R273). -/
def wayTakes (code : Nat) (c : Cls) : Bool := code < 8 && bitOf code c.code

/-- The ways of a quarter assigned to a class. -/
def State.waysOf (s : State) (q : Nat) (c : Cls) : List Nat := (List.range 16).filter (fun w => wayTakes (s.wayCode q w) c)

/-- Of two evictable entries, the one to go first: oldest last use, then the lower address; `ahead` ones count older than any used (07 R236). -/
def evictFirst (a b : Nat × Nat × Bool) : Bool :=
  (a.2.2 && !b.2.2) || (a.2.2 == b.2.2 && (a.2.1 < b.2.1 || (a.2.1 = b.2.1 && a.1 < b.1)))

/-- The first to go of some (address, last use, fetched ahead). -/
def evictee (l : List (Nat × Nat × Bool)) : Option Nat :=
  (l.foldl (fun (best : Option (Nat × Nat × Bool)) x =>
    match best with
    | none => some x
    | some b => if evictFirst x b then some x else best) none).map (·.1)

/-- The ranges a request moves: source, destination and the side arrays. -/
def TierReq.ranges (r : TierReq) : List Range := [⟨r.src.toNat, r.len⟩, ⟨r.dst.toNat, r.dlen⟩, ⟨r.ssrc.toNat, r.slen⟩, ⟨r.sdst.toNat, r.sdlen⟩]

/-- Whether a transfer in progress reads or writes bytes of a line of the chip cache (07 R237). -/
def State.lineBusy (s : State) (line : Nat) : Bool :=
  (Tab.vals s.tiers.reqs).any (fun r => (r.ranges.flatMap (fun x => s.homeRanges x.base x.len)).any (fun x => x.len ≠ 0 && x.base < (line + 1) * 128 && line * 128 < x.base + x.len))

/-- An access that allocates brings its line into the ways of the requester's class, evicting the oldest line when they are full: a dirty one is written back, which mends its blocks
(07 R234, R236, R240). `ahead` is for a prefetch, which uses no line that is there already. -/
def State.allocLine (s : State) (cls : Cls) (q : QuarterNo) (line : Nat) (write ahead : Bool) : State :=
  match Tab.find s.tiers.lines line with
  | some x => if ahead then s else s.modTiers (fun t => { t with lines := Tab.put t.lines line { x with dirty := x.dirty || write, lastUse := s.tick, ahead := false } })
  | none =>
    let ways := s.waysOf q.val cls
    let count := fun (l : Tab CLine) (w : Nat) => (l.filter (fun e => e.2.quarter = q && e.2.way = w)).length
    let put := fun (s : State) (w : Nat) => s.modTiers (fun t => { t with lines := Tab.put t.lines line ⟨q, w, write, s.tick, false, ahead⟩ })
    match ways.find? (fun w => count s.tiers.lines w < wayLines) with
    | some w => put s w
    | none =>
      let cands := (s.tiers.lines.filter (fun e => e.2.quarter = q && e.2.way ∈ ways && !e.2.stuck && !s.lineBusy e.1)).map (fun e => (e.1, e.2.lastUse, e.2.ahead))
      match evictee cands with
      | none => s
      | some a =>
        let x := (Tab.find s.tiers.lines a).getD ⟨q, 0, false, 0, false, false⟩
        let s := s.modTiers (fun t => { t with lines := Tab.del t.lines a })
        put (if x.dirty then s.healBlocks (128 * a) 128 else s) x.way

/-- An MV read or write of HBM uses a line that is present and allocates none (07 R234). -/
def State.touchLine (s : State) (line : Nat) (write : Bool) : State :=
  s.modTiers (fun t => { t with lines := Tab.change t.lines line (fun x => { x with dirty := x.dirty || write, lastUse := s.tick, ahead := false }) })

/-! ## Move tiles in T2 (07 R229, R235 to R237). -/

/-- The move tiles a range of device addresses touches. -/
def tilesOf (a n : Nat) : List Nat := if n = 0 then [] else (List.range ((a + n - 1) / 65536 + 1 - a / 65536)).map (fun i => a / 65536 + i)

/-- A length rounded up to whole move tiles. -/
def wholeTiles (n : Nat) : Nat := 65536 * ceilDiv n 65536

/-- Bitmap images that queries still use though their ID has another image or none (09 R293). -/
def Items.oldImages (x : Items) : List (Nat × Bitmap) := ((x.queries.filterMap (·.image)).filter (fun p => decide (Tab.find x.bitmaps p.1 ≠ some p.2))).dedup

/-- Bytes of HBM that region 0x00 grants hold: those of modules, the bitmaps and the older images still in use (09 R292, R293), the loaded models (13 R443) and the save areas of admitted gangs (08 R264). -/
def State.hbmGranted (s : State) : Nat :=
  ((s.tiers.grants.filter (fun e => e.2.region = 0)).map (fun e => e.2.len) ++ (s.items.bitmaps ++ s.items.oldImages).map (fun b => wholeTiles (b.2.len / 8))
    ++ (s.serv.models.filter (fun m => m.2.loaded)).map (fun m => wholeTiles m.2.len)
    ++ ((Tab.vals s.compute.jobs).filter (fun j => j.admitted)).map (fun j => j.saveArea)).foldl (· + ·) 0

/-- HBM of the stacks mapped in: 48 GiB each (07 R224, 14 R473). -/
def State.hbmBytes (s : State) : Nat := s.stacksIn.length * 48 * 2 ^ 30

/-- Whether n more bytes of region 0x00 grants leave 32 GiB of pool (07 R235). -/
def State.hbmRoom (s : State) (n : Nat) : Bool := s.hbmGranted + wholeTiles n + 32 * 2 ^ 30 ≤ s.hbmBytes

/-- Move tiles the pool of T2 holds (07 R235). -/
def State.poolTiles (s : State) : Nat := (s.hbmBytes - s.hbmGranted) / 65536

/-- The move tiles a range touches, the module's own window by the grants behind it (06 R187, 07 R229). -/
def State.rangeTiles (s : State) (x : Range) : List Nat := (s.homeRanges x.base x.len).flatMap (fun y => tilesOf y.base y.len)

/-- The move tiles a request touches. -/
def State.reqTiles (s : State) (r : TierReq) : List Nat := r.ranges.flatMap s.rangeTiles

/-- Tiles a transfer in progress uses: those of its ranges, and those that were fetched for it (07 R237). -/
def State.tilesBusy (s : State) : List Nat := (Tab.vals s.tiers.reqs).flatMap (fun r => s.reqTiles r ++ r.want)

/-- A vacated run of device addresses: its whole move tiles leave T1 and T2 (07 R226). -/
def State.releaseTiles (s : State) (x : Range) : State :=
  let whole := fun (lo len : Nat) => x.base ≤ lo && lo + len ≤ x.base + x.len
  s.modTiers (fun y => { y with
    t2 := y.t2.filter (fun e => !(whole (e.1 * 65536) 65536))
    lines := y.lines.filter (fun e => !(whole (e.1 * 128 / 65536 * 65536) 65536)) })

/-- The tile of the pool to go first, if any is evictable (07 R236, R237). -/
def State.tileToGo (s : State) : Option Nat :=
  let busy := s.tilesBusy
  evictee ((s.tiers.t2.filter (fun e => !e.2.homing && e.1 ∉ busy)).map (fun e => (e.1, e.2.lastUse, e.2.fetchedAhead)))

/-- A tile is evicted: a lent one is dropped; a mutable one is moved home, and its space is free when that move completes (07 R236). -/
def State.evictTile (s : State) (a : Nat) : State :=
  match Tab.find s.tiers.t2 a with
  | none => s
  | some x => s.modTiers (fun t => { t with t2 := if x.lent then Tab.del t.t2 a else Tab.put t.t2 a { x with homing := true } })

/-- The moves home that evictions began have completed (07 R236). -/
def State.movedHome (s : State) : State := s.modTiers (fun t => { t with t2 := t.t2.filter (fun e => !e.2.homing) })

/-- Room for one tile in T2, as it is or after an eviction; where the tile evicted is still on its way home, or none is evictable, the state is left without room
(07 R236, R237). -/
def State.makeRoom (s : State) : State :=
  if s.tiers.t2.length < s.poolTiles then s
  else
    match s.tileToGo with
    | none => s
    | some a => s.evictTile a

/-- Tiles of T2 evicted, each moved home or dropped, until the pool holds them: what a command that takes HBM from the pool leaves (07 R235, R236). -/
def State.shrinkPool : Nat → State → State
  | 0, s => s
  | n + 1, s =>
    if s.tiers.t2.length ≤ s.poolTiles then s
    else
      match s.tileToGo with
      | none => s
      | some a => State.shrinkPool n (s.evictTile a).movedHome

/-- As many evictions as there are tiles. -/
def State.fitPool (s : State) : State := State.shrinkPool s.tiers.t2.length s

/-- A use of a resident tile. -/
def State.useTile (s : State) (tile : Nat) : State :=
  s.modTiers (fun t => { t with t2 := Tab.change t.t2 tile (fun x => { x with lastUse := s.tick, fetchedAhead := false }) })

/-- The tiles of region 0x01 and the lines of region 0x00 that a range uses (07 R234, R236). -/
def State.useRange (s : State) (a n : Nat) (write : Bool) : State :=
  (s.homeRanges a n).foldl (fun (s : State) (x : Range) =>
    if x.len = 0 then s
    else if x.base / 2 ^ 56 = 1 then (tilesOf x.base x.len).foldl (fun s y => s.useTile y) s
    else if x.base / 2 ^ 56 = 0 then s.modTiers (fun y => { y with lines := y.lines.map (fun e =>
      if x.base < (e.1 + 1) * 128 ∧ e.1 * 128 < x.base + x.len then (e.1, { e.2 with dirty := e.2.dirty || write, lastUse := s.tick, ahead := false }) else e) })
    else s) s

/-- Whether a tile's address is in an immutable grant or a context cache. -/
def State.tileImmutable (s : State) (tile : Nat) : Bool :=
  let a := tile * 65536
  s.tiers.grants.any (fun e => e.2.region = a / 2 ^ 56 && e.2.base ≤ a % 2 ^ 56 && a % 2 ^ 56 < e.2.base + e.2.len && e.2.immutable)
    || (a / 2 ^ 56 = 1 && (Tab.vals s.serv.caches).any (fun (x : Cache) => x.spans.any (fun r => r.1 ≤ a % 2 ^ 56 && a % 2 ^ 56 < r.1 + r.2)))

/-- Whether T3 has failed bytes of a tile of region 0x01 that nothing has written since: no fetch is tried, and a read of them fails (07 R240). -/
def State.tileLost (s : State) (tile : Nat) : Bool :=
  s.tiers.flashBad.any (fun r => regionAddr 1 r.1 < (tile + 1) * 65536 && tile * 65536 < regionAddr 1 r.1 + r.2)

/-- The tiles of a range that T3 must give before an access: those of region 0x01 not in T2 (07 R225, R229). -/
def State.absentTiles (s : State) (a n : Nat) : List Nat :=
  (s.homeRanges a n).flatMap (fun x => if x.base / 2 ^ 56 % 256 = 1 then (tilesOf x.base x.len).filter (fun t => !(Tab.has s.tiers.t2 t) && !s.tileLost t) else [])

/-- Fetches start for tiles that none brings yet; a request waits for every tile it named (07 R239). -/
def State.startFetches (s : State) (req : Nat) (tiles : List Nat) (ahead : Bool) : State :=
  s.modTiers (fun t => { t with
    fetches := tiles.foldl (fun (fs : List Fetch) tile =>
      if fs.any (fun f => f.tile = tile) then fs.map (fun f => if f.tile = tile then { f with reqs := f.reqs ++ [req], ahead := f.ahead && ahead } else f)
      else fs ++ [⟨tile, [req], ahead⟩]) t.fetches })

/-- A tier request enters (07 R238). -/
def State.addReq (s : State) (r : TierReq) : Nat × State :=
  let k := s.tiers.nextReq
  let tiles := r.tiles
  let s := s.modTiers (fun t => { t with reqs := Tab.put t.reqs k { r with order := k, since := s.now }, nextReq := k + 1 })
  (k, s.startFetches k tiles (r.kind = .fetching))

/-- A request is no longer there; fetches only it waited for go on for nobody (07 R239). -/
def State.dropReq (s : State) (k : Nat) : State :=
  s.modTiers (fun t => { t with
    reqs := Tab.del t.reqs k
    fetches := t.fetches.map (fun f => { f with reqs := f.reqs.filter (· ≠ k) }) })

/-! ## The end of a request (07 R230, R238 to R242). -/

/-- The handle of a request settles and its operation leaves flight (06 R185, R190). -/
def State.reqLands (s : State) (r : TierReq) : State :=
  s.modThread r.thread (fun th => let th := th.landed r.op
                                  match r.handle with
                                  | some h => th.settled h
                                  | none => th)

/-- n bytes at a device address of this module left undefined, each a free value (log entry 3); nothing for none (07 R226). -/
def State.smearAt (s : State) (th : Thread) (a n : Nat) : State :=
  if n = 0 then s
  else
    match s.resolve th a n .moveDst with
    | .ok l => (s.spotsWrite th l (s.freeBytes n)).spend n
    | .error _ => s

/-- A command whose service lost a tier request ends with its status; an ASK that runs ends with its next update, stop reason 6 (07 R238; 10 R331). -/
def State.serviceLost (s : State) (id : Nat) (st : Status) : State :=
  let mine := fun (x : Session) => (x.run.map (fun r => decide (r.cmd = id))).getD false
  if (Tab.vals s.serv.sessions).any mine then
    { s with serv := { s.serv with sessions := Tab.changeAll s.serv.sessions (fun x =>
      if mine x then { x with run := x.run.map (fun r => { r with lost := some (decide (st = .tierLate)) }) } else x) } }
  else s.fail id st

/-- A request that fails or is late, late if both (08 R258): an abandoned move keeps its source and leaves its destination undefined, the job ends with the status; a
prefetch only counts (07 R230, R238, R240, R242; 06 R189; 15 R503). -/
def State.reqFails (s : State) (k : Nat) (st : Status) : State :=
  match Tab.find s.tiers.reqs k with
  | none => s
  | some r =>
    let s := s.dropReq k
    let st := if st = .tierFailed ∧ (r.deadline.map (fun d => decide (d ≤ s.tick))).getD false then Status.tierLate else st
    match r.kind with
    | .fetching => (s.reqLands r).modJob r.job (fun j => { j with dropped := j.dropped + 1 })
    | .remote => s
    | .service => if (s.cmd? r.job).isNone then s else (s.count (if st = .tierLate then 29 else 28) 1).serviceLost r.job st
    | _ =>
      let s := s.count (if st = .tierLate then 29 else 28) 1
      let s := match s.thread? r.thread with
        | some th =>
          if r.kind = ReqKind.move ∨ r.kind = ReqKind.lend then (s.smearAt th r.dst.toNat r.dlen).smearAt th r.sdst.toNat r.sdlen else s
        | none => s
      ((s.reqLands r).endJob r.job st).settle r.job

/-- A fetch that fails: every request still waiting on it ends with TIER_FAILED. A mutable tile that T3 cannot read fails until its bytes are written; an immutable one,
or one whose path failed, is tried again by a later request (07 R239, R240). -/
def State.fetchFails (s : State) (f : Fetch) (lost : Bool) : State :=
  let s := s.modTiers (fun t => { t with
    fetches := t.fetches.filter (fun x => x.tile ≠ f.tile)
    flashBad := if lost && !s.tileImmutable f.tile then t.flashBad ++ [(f.tile * 65536 % 2 ^ 56, 65536)] else t.flashBad })
  f.reqs.foldl (fun s k => s.reqFails k .tierFailed) s

/-- The class a fetch is for: that of the first request that waits for it. -/
def State.fetchCls (s : State) (f : Fetch) : Cls := ((f.reqs.head?.bind (Tab.find s.tiers.reqs)).map (·.cls)).getD .system

/-- A fetch that ends well: its tile is in T2, lent or raised by kind, and its requests wait for it no longer; while T2 has no room for it the fetch waits, and the tile
that must go is on its way (07 R225, R236, R237, R239, R241). -/
def State.fetchDone (s : State) (f : Fetch) : State :=
  let s := s.movedHome.makeRoom
  if s.poolTiles ≤ s.tiers.t2.length then s
  else
    s.modTiers (fun t => { t with
      t2 := Tab.put t.t2 f.tile ⟨s.tileImmutable f.tile, s.tick, f.ahead, false, s.pcMask (s.fetchCls f)⟩
      fetches := t.fetches.filter (fun x => x.tile ≠ f.tile)
      reqs := Tab.changeAll t.reqs (fun r => { r with tiles := r.tiles.filter (· ≠ f.tile) }) })

/-! ## Stream prefetchers (07 R241). -/

/-- The quarter whose tier mover serves a gang: its core's. -/
def coreQuarter (c : CoreNo) : QuarterNo := ⟨c.val / 12 % 4, Nat.mod_lt _ (by decide)⟩

/-- Whether an access to a tile may form a stream: one of region 0x01 or of an immutable range (07 R241). -/
def State.streamed (s : State) (tile : Nat) : Bool := tile * 65536 / 2 ^ 56 = 1 || s.tileImmutable tile

/-- The direction of a stream an access forms with an earlier one of its thread, to an adjacent tile: ascending is true; of both, the later one's (07 R241). -/
def streamForms (before : List Nat) (tile : Nat) : Option Bool := (before.find? (fun y => y + 1 = tile || y = tile + 1)).map (fun y => decide (y < tile))

/-- Whether an access carries a stream on: to its latest tile, or to the next one in its direction. -/
def Stream.goesOn (x : Stream) (t tile : Nat) : Bool := x.thread = t && (x.tile = tile || (if x.up then x.tile + 1 = tile else x.tile = tile + 1))

/-- The stream an access belongs to, if any, as (prefetcher, ascending): one it carries on, or one it forms, in a prefetcher that is free or else unused longest (07 R241). -/
def streamOf (tab : Tab Stream) (before : List Nat) (t tile : Nat) (now : Nat) : Option (Nat × Bool) :=
  match tab.find? (fun e => e.2.goesOn t tile) with
  | some e => some (e.1, e.2.up)
  | none =>
    (streamForms before tile).map (fun up =>
      ((Tab.lowFree tab 32).getD (tab.foldl (fun (b : Nat × Nat) e => if e.2.lastUse < b.2 then (e.1, e.2.lastUse) else b) (0, now + 1)).1, up))

/-- The tiles a stream wants here that T3 must give: of the 8 ahead, those of region 0x01 that its thread's jobs may use (07 R241). -/
def State.tilesAhead (s : State) (th : Thread) (tile : Nat) (up : Bool) : List Nat :=
  let runs := s.validRuns (((s.job? th.job).map (·.modh)).getD 0) 1 false
  ((List.range 8).map (fun i => if up then tile + 1 + i else tile - 1 - i)).filter (fun y =>
    y ≠ tile && y * 65536 / 2 ^ 56 = 1 && runs.any (fun r => regionAddr 1 r.1 < (y + 1) * 65536 && y * 65536 < regionAddr 1 r.1 + r.2)
      && !(Tab.has s.tiers.t2 y) && !s.tileLost y && !s.tiers.fetches.any (fun f => f.tile = y))

/-- A prefetch for a thread's stream: a request of the job's class that never ends anything (07 R241). -/
def State.fetchAhead (s : State) (t : Nat) (th : Thread) (tiles : List Nat) : State :=
  if tiles.isEmpty then s
  else
    (s.addReq ⟨.fetching, t, th.job, 0, none, 0#256, BitVec.ofNat 64 (tiles.headD 0 * 65536), 0#64, 0, 0, 0#64, 0#64, 0, 0, 0#64, none,
      ((s.job? th.job).map (·.cls)).getD .system, tiles, 0, 0, none, none, [], false, 0, tiles, 0⟩).2

/-- An access of a thread to a tile: it may form a stream or carry one on, which keeps up to 8 tiles ahead of it resident (07 R241). -/
def State.noteAccess (s : State) (t : Nat) (tile : Nat) : State :=
  match s.thread? t, (s.thread? t).bind s.gangOf? with
  | some th, some g =>
    if !s.streamed tile then s
    else
      let q := (coreQuarter g.core).val
      let tab := Tab.at s.tiers.streams q []
      let before := Tab.at s.tiers.lastTile t []
      let s := s.modTiers (fun x => { x with lastTile := Tab.put x.lastTile t (tile :: before.filter (· ≠ tile)) })
      match streamOf tab before t tile s.now with
      | none => s
      | some (k, up) => (s.modTiers (fun x => { x with streams := Tab.put x.streams q (Tab.put tab k ⟨t, tile, up, s.now⟩) })).fetchAhead t th (s.tilesAhead th tile up)
  | _, _ => s

/-! ## Services' reads (07 R238). -/

/-- A service's read of ranges of region 0x01 for a command: a tier request under the command's deadline, for the tiles that T3 must give; none where all are here. -/
def State.serviceReads (s : State) (c : Cmd) (cls : Cls) (ranges : List (Nat × Nat)) : State :=
  match (ranges.flatMap (fun r => s.absentTiles (regionAddr 1 r.1) r.2)).dedup with
  | [] => s
  | ts => (s.addReq ⟨.service, 0, c.ident, 0, none, 0#256, 0#64, 0#64, 0, 0, 0#64, 0#64, 0, 0, 0#64, c.expiry, cls, ts, 0, 0, none, none, [], false, 0,
      ranges.flatMap (fun r => tilesOf (regionAddr 1 r.1) r.2), 0⟩).2

/-- Whether a command waits for a read of its service. -/
def State.serviceWaits (s : State) (id : Nat) : Bool := (Tab.vals s.tiers.reqs).any (fun q => q.kind = .service && q.job = id && !q.tiles.isEmpty)

end Sys2Proof.Machine
end

