-- ==== Sys2Proof/Machine/FlashUse.lean ====
section
/-! DEFINITION. What lies in region 0x01: the grants, context caches and model images kept in flash, the stripes they take, and the freeing of what is gone (07 R225,
R246, R250; 02 R83). -/

namespace Sys2Proof.Machine

/-- The range of region 0x01 a grant takes: its own, or the flash copy of an immutable one of region 0x00, which is its home (07 R225). -/
def Grant.inFlash (g : Grant) : Option (Owner × Nat × Nat) :=
  if g.region = 1 then some (if g.immutable then 18 else 19, g.base, g.len) else g.home.map (fun h => (18, h, g.len))

/-- The ranges of region 0x01 in use, with the area each is kept in: immutable data in the context-cache area, mutable data in the session area (log entry 52). -/
def State.flashOwned (s : State) : List (Owner × Nat × Nat) :=
  s.tiers.grants.filterMap (fun g => g.2.inFlash)
    ++ ((Tab.vals s.serv.caches).flatMap Cache.spans).map (fun e => (18, e)) ++ (Tab.vals s.serv.models).map (fun m => (18, m.home, m.len))
    ++ ((Tab.vals s.serv.sessions).flatMap Session.spans).map (fun e => (19, e))

/-- The owner stripes of a range of region 0x01. -/
def flashStripes (o : Owner) (a n : Nat) : List (Owner × Nat) := if n = 0 then [] else stripesOf o (a / 4096) (ceilDiv (a % 4096 + n) 4096)

/-- Ranges of region 0x01 that are in use no longer: stripes nothing else lies in are unmapped and counted no more, and their tiles leave T2 (07 R250). -/
def State.freeFlash (s : State) (gone : List (Owner × Nat × Nat)) : State :=
  let kept := (s.flashOwned.flatMap (fun e => flashStripes e.1 e.2.1 e.2.2)).dedup
  let mine := ((gone.flatMap (fun e => flashStripes e.1 e.2.1 e.2.2)).dedup).filter (fun k => k ∉ kept)
  let s := s.modMedia (fun m =>
    { (mine.foldl (fun (m : Media) k => match m.mapped? k.1 k.2 with
        | some (l, _) => m.journal s.now .mapClear l 0 0
        | none => m) m) with counted := m.counted.filter (fun c => (c.owner, c.ostripe) ∉ mine) })
  let within := fun (tile : Nat) => gone.any (fun e => 2 ^ 56 + e.2.1 < (tile + 1) * 65536 && tile * 65536 < 2 ^ 56 + e.2.1 + e.2.2)
  { s with tiers := { s.tiers with t2 := s.tiers.t2.filter (fun t => !(within t.1)) } }

end Sys2Proof.Machine
end

