-- ==== Sys2Proof/Machine/Link.lean ====
section
/-! DEFINITION. The Tenon link (11 R343 to R354): ports, flits, replay, credits, routing and the packets a module sends. -/

namespace Sys2Proof.Machine

/-! ## Lanes and ports. -/

/-- The virtual lanes of R349. -/
def laneControl : Nat := 0
def laneCollective : Nat := 1
def laneBulk : Nat := 2
def laneStopwork : Nat := 3

/-- Receive buffer of a lane, per class, in flits (11 R349). -/
def laneBuffer (vl : Nat) : Nat := [32, 128, 256, 8].getD vl 0

/-- The key of a lane and class. -/
def bufKey (vl : Nat) (cls : Bool) : Nat := 2 * vl + bit cls

/-- A port as it starts: training, no sequence used, and the whole of the next module's buffers in credits. -/
def TPort.fresh (st : TPState) : TPort where
  st := st
  helloSent := false
  hello := none
  nextSend := 0
  nextExp := 0
  lastAck := 0xFFF#12
  nakSent := false
  replay := []
  tries := []
  wire := []
  ackSent := 0xFFF#12
  ctl := []
  replayed := 0
  corrected := 0
  discarded := 0
  credits := (List.range 8).map (fun k => (k, laneBuffer (k / 2)))
  toReturn := []
  rx := []
  out := []
  mid := []
  rr := []
  wrr := 0
  lastArrival := 0

/-- A Tenon port. -/
def State.tport (s : State) (p : TPortNo) : TPort := Tab.at s.span.ports p.val (TPort.fresh .down)

/-- The span state changed. -/
def State.modSpan (s : State) (f : Span → Span) : State := { s with span := f s.span }

/-- A Tenon port changed. -/
def State.modTport (s : State) (p : TPortNo) (f : TPort → TPort) : State :=
  s.modSpan (fun x => { x with ports := Tab.put x.ports p.val (f (s.tport p)) })

/-! ## Sending flits (11 R345, R346, R349, R350). -/

/-- The 12-byte header of a flit, as a number (11 R345). -/
def flitHeader (f : Flit) : Nat :=
  f.ftype.toNat + 2 ^ 2 * f.vl.toNat + 2 ^ 4 * bit f.dclass + 2 ^ 5 * bit f.sop + 2 ^ 6 * bit f.eop + 2 ^ 8 * f.fseq.toNat + 2 ^ 20 * f.ackseq.toNat
    + 2 ^ 32 * f.crvl.toNat + 2 ^ 34 * bit f.crclass + 2 ^ 36 * f.credits.toNat + 2 ^ 44 * f.fbytes.toNat

/-- The 1,024 bytes of a flit on the link: header, payload, and the CRC-32C of both (11 R345). A flit that comes is `intact` if its CRC is that and the decoder passes it. -/
def flitBytes (f : Flit) : List Byte := withCrc (leBytes 12 (flitHeader f) ++ fit 1008 f.payload)

/-- What a port has put on the link since it was last Down, as bytes, back to back (11 R344, R345). -/
def TPort.line (x : TPort) : List Byte := x.wire.flatMap flitBytes

/-- A flit leaves: it takes the next FSEQ, carries the acknowledgement and the first credits owed, and stays in the replay buffer. -/
def TPort.emit (x : TPort) (f : Flit) : TPort :=
  let owed := x.toReturn.find? (fun e => e.2 ≠ 0)
  let k := (owed.map (·.1)).getD 0
  let n := min 255 ((owed.map (·.2)).getD 0)
  let f := { f with intact := true, fseq := x.nextSend, ackseq := x.nextExp - 1#12, crvl := BitVec.ofNat 2 (k / 2), crclass := k % 2 == 1, credits := BitVec.ofNat 8 n }
  { x with
    replay := x.replay ++ [f]
    wire := x.wire ++ [f]
    ackSent := f.ackseq
    nextSend := x.nextSend + 1#12
    toReturn := if n = 0 then x.toReturn else Tab.put x.toReturn k (Tab.at x.toReturn k 0 - n) }

/-- A link-control flit with its payload (11 R347): it uses no credit. -/
def ctlFlit (payload : List Byte) : Flit :=
  ⟨true, 2#2, 0#2, false, true, true, 0#12, 0#12, 0#2, false, 0#8, BitVec.ofNat 10 payload.length, payload⟩

/-- Link control goes out ahead of the lanes while the replay buffer of 1,024 flits has room (11 R346, R347; log entry 147). -/
def TPort.control : Nat → TPort → TPort
  | 0, x => x
  | n + 1, x =>
    match x.ctl with
    | [] => x
    | c :: rest => if 1024 ≤ x.replay.length then x else TPort.control n ({ x with ctl := rest, helloSent := x.helloSent || c.head? = some 1#8 }.emit (ctlFlit c))

/-- A link-control flit to send. -/
def TPort.sendControl (x : TPort) (payload : List Byte) : TPort :=
  let x := { x with ctl := x.ctl ++ [payload] }
  x.control x.ctl.length

/-- An idle flit: it repeats the last FSEQ, and brings the acknowledgement and n credits of a buffer (11 R345). -/
def TPort.idleFlit (x : TPort) (k n : Nat) : Flit :=
  ⟨true, 0#2, 0#2, false, false, false, x.nextSend - 1#12, x.nextExp - 1#12, BitVec.ofNat 2 (k / 2), k % 2 == 1, BitVec.ofNat 8 n, 0#10, []⟩

/-- The credits owed, at most 255 of one buffer in a flit. -/
def TPort.owed (x : TPort) : List (Nat × Nat) :=
  x.toReturn.flatMap (fun e => (List.range (ceilDiv e.2 255)).map (fun i => (e.1, min 255 (e.2 - 255 * i))))

/-- A port with nothing to send sends idle flits; those that bring something new are a part of what it has sent (11 R345, R350; log entry 147). -/
def TPort.idle (x : TPort) : TPort :=
  let fs := if x.owed.isEmpty then (if x.ackSent = x.nextExp - 1#12 then [] else [x.idleFlit 0 0]) else x.owed.map (fun e => x.idleFlit e.1 e.2)
  if (x.st = .aligned ∨ x.st = .up) ∧ fs ≠ [] then { x with wire := x.wire ++ fs, ackSent := x.nextExp - 1#12, toReturn := [] } else x

/-- The queue of a lane and input. -/
def TPort.queue (x : TPort) (vl inp : Nat) : List OutFlit := Tab.at x.out (8 * vl + inp) []

/-- The input a lane serves next: the one whose packet it has begun, else the next in round-robin order that has a flit. -/
def TPort.turn (x : TPort) (vl : Nat) : Option Nat :=
  match Tab.find x.mid vl with
  | some i => some i
  | none => ((List.range 5).map (fun i => (Tab.at x.rr vl 4 + 1 + i) % 5)).find? (fun i => !(x.queue vl i).isEmpty)

/-- The flit a lane would send: it needs a hop credit of its lane and class, which a stream may have drawn for it (11 R350). -/
def TPort.offer (x : TPort) (vl : Nat) : Option (Nat × OutFlit) :=
  match x.turn vl with
  | none => none
  | some i =>
    match x.queue vl i with
    | f :: _ => if f.paid || 0 < Tab.at x.credits (bufKey vl f.flit.dclass) 0 then some (i, f) else none
    | [] => none

/-- The lane served next: STOPWORK, CONTROL, then COLLECTIVE and BULK three flits to one (11 R349). -/
def TPort.pick (x : TPort) : Option (Nat × Nat × OutFlit) :=
  let order := [laneStopwork, laneControl] ++ (if x.wrr < 3 then [laneCollective, laneBulk] else [laneBulk, laneCollective])
  order.findSome? (fun vl => (x.offer vl).map (fun o => (vl, o.1, o.2)))

/-- Credits of a buffer at the next module come back to a lane's pool, which never holds more than that buffer (11 R349, R350). -/
def TPort.credit (x : TPort) (k n : Nat) : TPort := { x with credits := Tab.put x.credits k (min (laneBuffer (k / 2)) (Tab.at x.credits k 0 + n)) }

/-- One flit sent from a queue. -/
def TPort.sendOne (x : TPort) (vl inp : Nat) (f : OutFlit) : TPort :=
  let x := x.emit f.flit
  { x with
    out := Tab.put x.out (8 * vl + inp) ((x.queue vl inp).drop 1)
    mid := if f.flit.eop then Tab.del x.mid vl else Tab.put x.mid vl inp
    rr := Tab.put x.rr vl inp
    wrr := if vl = laneCollective then min 3 (x.wrr + 1) else if vl = laneBulk then 0 else x.wrr
    credits := if f.paid then x.credits else Tab.put x.credits (bufKey vl f.flit.dclass) (Tab.at x.credits (bufKey vl f.flit.dclass) 0 - 1) }

/-- The flits that wait at a port. -/
def TPort.queued (x : TPort) : Nat := (x.out.map (fun e => e.2.length)).foldl (· + ·) 0

/-- A buffer of a lane and class is freed: its flits' credits are owed to the sender (11 R350). -/
def TPort.free (x : TPort) (k n : Nat) : TPort := { x with toReturn := Tab.put x.toReturn k (Tab.at x.toReturn k 0 + n) }

/-- A flit that has left frees the buffer it filled at the port it came in by. -/
def State.freeHeld (s : State) (f : OutFlit) : State :=
  match f.held with
  | some (i, k) => s.modSpan (fun x => { x with ports := Tab.change x.ports i (fun y => y.free k 1) })
  | none => s

/-- An Up port sends what its credits and its replay buffer of 1,024 flits allow (11 R346, R350). -/
def State.pump (s : State) (p : TPortNo) : Nat → State
  | 0 => s
  | n + 1 =>
    let x := s.tport p
    if x.st ≠ .up ∨ 1024 ≤ x.replay.length then s
    else
      match x.pick with
      | none => s
      | some (vl, i, f) => ((s.modTport p (fun x => x.sendOne vl i f)).freeHeld f).pump p n

/-- A port sends what it can, link control first; then the ports with nothing to send return what they owe in idle flits (11 R345, R350). -/
def State.send (s : State) (p : TPortNo) : State :=
  let s := if (s.tport p).ctl.isEmpty then s else s.modTport p (fun x => x.control x.ctl.length)
  (s.pump p (s.tport p).queued).modSpan (fun x => { x with ports := Tab.changeAll x.ports TPort.idle })

/-- Flits of one packet queued from an input of a port, which sends what it can. -/
def State.enqueue (s : State) (p : TPortNo) (vl inp : Nat) (fs : List OutFlit) : State :=
  (s.modTport p (fun x => { x with out := Tab.put x.out (8 * vl + inp) (x.queue vl inp ++ fs) })).send p

/-! ## Routing (11 R352, R353). -/

/-- Whether the descriptor's topology closes its slots into rings. -/
def SpanDesc.slotRing (d : SpanDesc) : Bool := d.topology = 2 || (d.topology = 4 && 2 ≤ d.slots)

/-- Whether a port can carry packets. -/
def State.portUp (s : State) (p : TPortNo) : Bool := (s.tport p).st = .up

/-- The two directions of a ring of n from a to b with the links each takes, the shorter first; on a tie the upward one (11 R353). -/
def ringWays (a b n : Nat) (upPort downPort : TPortNo) : List (TPortNo × Nat) :=
  let up := (b + n - a) % n
  if 2 * up ≤ n then [(upPort, up), (downPort, n - up)] else [(downPort, n - up), (upPort, up)]

/-- The port opposite to one in its dimension: a packet in transit keeps its direction (11 R353; log entry 28). -/
def opposite : TPortNo → TPortNo
  | 0 => 1
  | 1 => 0
  | 2 => 3
  | 3 => 2

/-- The neighbour of a module at a port by the topology: its module number and port; none for a port the topology does not use (11 R352). -/
def SpanDesc.neighbour (d : SpanDesc) (m : Nat) (p : TPortNo) : Option (Nat × Nat) :=
  let h := m / 16
  let slot := m % 16
  let n := d.slots
  if p = 1 then (if d.slotRing || (d.topology = 3 && slot + 1 < n) then some (16 * h + (slot + 1) % n, 0) else none)
  else if p = 0 then (if d.slotRing || (d.topology = 3 && 0 < slot) then some (16 * h + (slot + n - 1) % n, 1) else none)
  else if d.topology ≠ 4 then none
  else if p = 3 then some (16 * ((h + 1) % d.shelves) + slot, 2)
  else some (16 * ((h + d.shelves - 1) % d.shelves) + slot, 3)

/-- The directions from a module towards another, each a port and the links it takes in that dimension: first between shelves, then between slots (11 R353). -/
def SpanDesc.ways (d : SpanDesc) (a dest : Nat) : List (TPortNo × Nat) :=
  if dest / 16 ≠ a / 16 then (if d.topology = 4 then ringWays (a / 16) (dest / 16) d.shelves 3 2 else [])
  else if dest = a then []
  else if d.slotRing then ringWays (a % 16) (dest % 16) d.slots 1 0
  else if d.topology = 3 then (if a % 16 < dest % 16 then [(1, dest % 16 - a % 16)] else [(0, a % 16 - dest % 16)])
  else []

/-- Whether a module's port can carry packets, as this module knows: its own by their state, another module's unless it has been told otherwise (log entry 147). -/
def State.endUp (s : State) (m : Nat) (p : TPortNo) : Bool := if m = s.moduleNumber then s.portUp p else (m, p.val) ∉ s.span.linksDown

/-- Whether n links in a row in one direction are up, from a module's port on. -/
def State.runUp (s : State) (d : SpanDesc) (m : Nat) (p : TPortNo) : Nat → Bool
  | 0 => true
  | n + 1 =>
    match d.neighbour m p with
    | some e => s.endUp m p && s.endUp e.1 (opposite p) && s.runUp d e.1 p n
    | none => false

/-- Whether a direction reaches the end of its dimension. -/
def State.open_ (s : State) (d : SpanDesc) (a : Nat) (w : TPortNo × Nat) : Bool := s.runUp d a w.1 w.2

/-- The port a packet leaves by where no descriptor is in force: it keeps its direction, and turns into its own shelf towards its slot (11 R361; log entry 147). -/
def State.straightOn (s : State) (inPort : Option TPortNo) (dest : Nat) : Option TPortNo :=
  let me := s.moduleNumber
  let along := fun (low : Bool) (ways : List TPortNo) => match inPort with
    | some i => if (i.val < 2) = low then [opposite i, i] else ways
    | none => ways
  (if dest / 16 ≠ me / 16 then along false [3, 2] else along true (if me % 16 < dest % 16 then [1, 0] else [0, 1])).find? s.portUp

/-- The port a packet leaves by: one that came in along the same dimension goes straight on; a direction with a link down gives way to the other; none where neither direction
of a dimension reaches the destination (11 R353). -/
def State.routePort (s : State) (inPort : Option TPortNo) (dest : Nat) : Option TPortNo :=
  match s.span.desc with
  | none => s.straightOn inPort dest
  | some d =>
    let me := s.moduleNumber
    let turn := 16 * (dest / 16) + me % 16
    let ways := d.ways me dest
    let ways := match inPort.bind (fun i => ways.find? (fun w => w.1 = opposite i)) with
      | some w => w :: ways.filter (fun v => v.1 ≠ w.1)
      | none => ways
    if turn = me ∨ turn = dest ∨ (d.ways turn dest).any (s.open_ d turn) then (ways.find? (s.open_ d me)).map (·.1) else none

/-- Whether a port's link is a dateline: from slot n − 1 to slot 0, or from shelf H − 1 to shelf 0 (11 R353); with no descriptor in force the far end is as its HELLO says. -/
def State.dateline (s : State) (p : TPortNo) : Bool :=
  let slot := s.moduleNumber % 16
  let shelf := s.moduleNumber / 16
  let far := (s.tport p).hello
  let top : Bool × Bool := match s.span.desc with
    | some d => (slot + 1 = d.slots, shelf + 1 = d.shelves)
    | none => ((far.map (·.slot)) = some 0#8, (far.map (fun h => h.moduleNo.toNat / 16)) = some 0)
  let ring := (s.span.desc.map SpanDesc.slotRing).getD true
  (p = 1 && top.1) || (p = 0 && slot = 0 && ring) || (p = 3 && top.2) || (p = 2 && shelf = 0)

/-- The class a packet has on its next link: 0 at its source and at its turn between dimensions, 1 from a dateline on (11 R353). -/
def State.nextClass (s : State) (inPort : Option TPortNo) (outPort : TPortNo) (cls : Bool) : Bool :=
  let turned : Bool := match inPort with
    | some i => decide (i.val / 2 ≠ outPort.val / 2)
    | none => true
  s.dateline outPort || (!turned && cls)

/-! ## Packets (11 R354). -/

/-- The lane of a packet type; none for a reserved one. -/
def ptypeLane (t : Nat) : Option Nat :=
  if t ∈ [1, 2, 7, 8, 12] then some laneControl
  else if t ∈ [3, 4, 5, 6] then some laneCollective
  else if t ∈ [9, 10, 11] then some laneBulk
  else if t = 13 then some laneStopwork
  else none

/-- A packet's bytes: its 32-byte header and its body. -/
def packetBytes (p : Packet) : List Byte :=
  blockOf 32 [(0, 1, p.dest.toNat), (1, 1, p.src.toNat), (2, 1, p.ptype.toNat), (4, 4, p.stream.toNat), (8, 4, p.pseq.toNat), (0x0C, 4, p.body.length),
    (0x10, 8, p.addr.toNat), (0x18, 8, p.aux.toNat)] ++ p.body

/-- The packet that some bytes hold. -/
def packetOf (b : List Byte) : Packet where
  dest := BitVec.ofNat 8 (fieldAt b 0 1)
  src := BitVec.ofNat 8 (fieldAt b 1 1)
  ptype := BitVec.ofNat 8 (fieldAt b 2 1)
  stream := BitVec.ofNat 32 (fieldAt b 4 4)
  pseq := BitVec.ofNat 32 (fieldAt b 8 4)
  addr := BitVec.ofNat 64 (fieldAt b 0x10 8)
  aux := BitVec.ofNat 64 (fieldAt b 0x18 8)
  body := (b.drop 32).take (fieldAt b 0x0C 4)

/-- The flits of a packet: 1,008 payload bytes each, from SOP to EOP. -/
def packetFlits (p : Packet) (vl : Nat) (cls : Bool) : List Flit :=
  let parts := chunksOf 1008 (packetBytes p)
  parts.mapIdx (fun i b => ⟨true, 1#2, BitVec.ofNat 2 vl, cls, i = 0, i + 1 = parts.length, 0#12, 0#12, 0#2, false, 0#8, BitVec.ofNat 10 b.length, b⟩)

/-- A packet goes out: its flits wait at the port its route takes; without a route it goes nowhere (11 R353). `sent` lists what the module sends. -/
def State.launch (s : State) (p : Packet) : State :=
  let s := s.modSpan (fun x => { x with sent := x.sent ++ [⟨p.dest.toNat, p.ptype.toNat, p.body⟩] })
  match ptypeLane p.ptype.toNat, s.routePort none p.dest.toNat with
  | some vl, some out => s.enqueue out vl 4 ((packetFlits p vl (s.nextClass none out false)).map (fun f => ⟨f, false, none⟩))
  | _, _ => s

/-- A packet of this module. -/
def State.packet (s : State) (dest t stream pseq addr aux : Nat) (body : List Byte) : Packet :=
  ⟨BitVec.ofNat 8 dest, BitVec.ofNat 8 s.moduleNumber, BitVec.ofNat 8 t, BitVec.ofNat 32 stream, BitVec.ofNat 32 pseq, BitVec.ofNat 64 addr, BitVec.ofNat 64 aux, body⟩

/-- A packet outside any stream sent to a module. -/
def State.post (s : State) (dest t : Nat) (addr aux : Nat) (body : List Byte) : State := s.launch (s.packet dest t 0 0 addr aux body)

/-- The same packet sent to each of some modules, this one left out. -/
def State.postAll (s : State) (dests : List Nat) (t : Nat) (addr aux : Nat) (body : List Byte) : State :=
  (dests.filter (· ≠ s.moduleNumber)).foldl (fun s d => s.post d t addr aux body) s

/-! ## Receiving flits (11 R345 to R347, R350). -/

/-- Flits acknowledged leave the replay buffer, all up to ACKSEQ, and their replays are forgotten. -/
def TPort.acked (x : TPort) (ack : BitVec 12) : TPort :=
  if x.replay.any (fun f => f.fseq = ack) then
    let left := (x.replay.dropWhile (fun f => f.fseq ≠ ack)).drop 1
    { x with replay := left, lastAck := ack, tries := x.tries.filter (fun e => left.any (fun f => f.fseq.toNat = e.1)) }
  else { x with lastAck := ack }

/-- The acknowledgement and the credits of a flit are taken. -/
def TPort.takeAcks (x : TPort) (f : Flit) : TPort :=
  let x := x.acked f.ackseq
  if f.credits = 0#8 then x else x.credit (bufKey f.crvl.toNat f.crclass) f.credits.toNat

/-- A flit discarded: the first of a run is answered with one NAK of the sequence expected (11 R346). -/
def TPort.discard (x : TPort) : TPort :=
  let x := { x with discarded := x.discarded + 1 }
  if x.nakSent then x
  else { (x.sendControl ([2#8] ++ leBytes 2 x.nextExp.toNat)) with nakSent := true }

/-- The sender replays from a flit on: those it keeps go on the link again as they were, and each is counted (11 R346, R348). -/
def TPort.resend (x : TPort) (from_ : BitVec 12) : TPort :=
  let again := x.replay.dropWhile (fun f => f.fseq ≠ from_)
  { x with
    wire := x.wire ++ again
    tries := again.foldl (fun t f => Tab.put t f.fseq.toNat (Tab.at t f.fseq.toNat 0 + 1)) x.tries
    replayed := x.replayed + 1 }

/-- Something discarded for its type, code or lane, and counted (11 R347, R354). -/
def State.countBad (s : State) : State := s.modSpan (fun x => { x with badPackets := x.badPackets + 1 })

/-- A whole packet has arrived at a port: one for this module is taken, another goes on by its route. Its buffer is freed when it is taken or discarded, or as its flits leave. -/
def State.packetIn (s : State) (p : TPortNo) (vl : Nat) (cls : Bool) (fs : List Flit) : State :=
  let pk := packetOf (fs.flatMap (fun f => f.payload.take f.fbytes.toNat))
  let freed := s.modTport p (fun x => x.free (bufKey vl cls) fs.length)
  if ptypeLane pk.ptype.toNat ≠ some vl then freed.countBad
  else if pk.dest.toNat = s.moduleNumber then freed
  else
    match s.routePort (some p) pk.dest.toNat with
    | none => freed
    | some out =>
      let c := s.nextClass (some p) out cls
      s.enqueue out vl p.val (fs.map (fun f => ⟨{ f with dclass := c }, false, some (p.val, bufKey vl cls)⟩))

/-- A data flit in order joins its lane's and class's packet. -/
def State.dataFlit (s : State) (p : TPortNo) (f : Flit) : State :=
  let k := bufKey f.vl.toNat f.dclass
  let got := (if f.sop then [] else Tab.at (s.tport p).rx k []) ++ [f]
  if f.eop then (s.modTport p (fun x => { x with rx := Tab.del x.rx k })).packetIn p f.vl.toNat f.dclass got
  else s.modTport p (fun x => { x with rx := Tab.put x.rx k got })

/-- FLIT_RECEIVE (11 R345 to R347, R350, R354): an idle flit repeats the last FSEQ and brings acknowledgements and credits alone. -/
def execFlitReceive (p : TPortNo) (f : Flit) (s : State) : Host.Outcome State Fault Refusal :=
  let x := s.tport p
  if x.st = .down ∨ x.st = .training then .next s
  else if !f.intact then .next (s.modTport p TPort.discard)
  else
    let s := s.modTport p (fun x => { x with lastArrival := s.now })
    if f.ftype = 0#2 then
      (if f.fseq = x.nextExp - 1#12 then .next ((s.modTport p (fun x => x.takeAcks f)).send p) else .next (s.modTport p TPort.discard))
    else if f.fseq ≠ x.nextExp then .next (s.modTport p TPort.discard)
    else
      let s := s.modTport p (fun x => { x with nextExp := x.nextExp + 1#12, nakSent := false }.takeAcks f)
      if f.ftype = 1#2 then .next ((s.dataFlit p f).send p)
      else if f.ftype = 2#2 ∧ (f.payload.head? = some 1#8 ∨ f.payload.head? = some 2#8) then .next (s.send p)
      else .next ((s.modTport p (fun x => { x with discarded := x.discarded + 1 })).countBad.send p)

/-! ## Port states (11 R347, R348). -/

/-- The HELLO of this module at a port. -/
def State.helloBytes (s : State) (p : TPortNo) : List Byte :=
  let span := match s.span.desc with
    | some d => if s.span.member = .alone then 0 else d.spanId.toNat
    | none => 0
  [1#8, BitVec.ofNat 8 s.moduleNumber, s.power.slotId.setWidth 8, BitVec.ofNat 8 p.val, BitVec.ofNat 8 s.span.member.num] ++ zeros 3 ++ leBytes 8 span

/-- A port that has sent and received a HELLO is Up, and sends what waits (11 R348). -/
def State.maybeUp (s : State) (p : TPortNo) : State :=
  let x := s.tport p
  if x.st = .aligned ∧ x.helloSent ∧ x.hello.isSome then (s.modTport p (fun x => { x with st := .up })).send p else s

/-- Whether a port may come up: its cage, if it has one, holds something the module powers (19 R586). -/
def State.cageOn (s : State) (p : TPortNo) : Bool := if p = 2 then s.span.cage2.powered else if p = 3 then s.span.cage3.powered else true

/-- A port that is Down trains again without being told to, where its cage has power (11 R348; log entry 147). -/
def State.retrain (s : State) (p : TPortNo) : State :=
  if s.power.good && s.cageOn p && (s.tport p).st = .down then s.modTport p (fun x => { x with st := .training }) else s

/-- Every port trains, as after power good, a module reset and the exit from A3 (11 R348; 16 R530). -/
def State.retrainAll (s : State) : State := ([0, 1, 2, 3] : List TPortNo).foldl State.retrain s

/-- PORT_ALIGNED (11 R348): a port in training has locked on every lane, with at least 1,000 consecutive codewords corrected; it sends its HELLO. -/
def execPortAligned (p : TPortNo) (lock : Lock) (s : State) : Host.Outcome State Fault Refusal :=
  match lock with
  | .far m => .next (s.modSpan (fun x => { x with linksDown := x.linksDown.filter (fun e => e ≠ (m.val, p.val)) }))
  | .own codewords =>
    if (s.tport p).st = .training ∧ 1000 ≤ codewords then
      .next ((s.modTport p (fun x =>
        { x with st := .aligned, corrected := x.corrected + codewords, lastArrival := s.now }.sendControl (s.helloBytes p))).maybeUp p)
    else .next s

/-- HELLO (11 R347, R348). -/
def execHello (p : TPortNo) (moduleNo : Byte) (slot : Byte) (port : Byte) (state : Byte) (span : W64) (s : State) : Host.Outcome State Fault Refusal :=
  let x := s.tport p
  if x.st = .aligned ∨ x.st = .up then
    .next ((s.modTport p (fun x => { x with hello := some ⟨moduleNo, slot, port, state, span⟩, lastArrival := s.now })).maybeUp p)
  else .next s

/-- NAK (11 R346, R348): the sender replays from the named flit; replays are counted for the port, for each flit sent again, and as its bucket's errors
(14 R467). -/
def execNak (p : TPortNo) (expected : BitVec 12) (s : State) : Host.Outcome State Fault Refusal :=
  let x := s.tport p
  if (x.st = .aligned ∨ x.st = .up) ∧ x.replay.any (fun f => f.fseq = expected) then
    let s := s.modTport p (fun x =>
      let x := if x.replay.head?.map (·.fseq) = some expected then x else x.acked (expected - 1#12)
      { x with lastArrival := s.now }.resend expected)
    .next (s.correctable .tenon p.val)
  else .next s

end Sys2Proof.Machine
end

