-- ==== Sys2Proof/Machine/MatrixOps.lean ====
section
/-! DEFINITION. The matrix engine's data path: MM record fields (06 R204 to R206), the checks of R116, streams and bit planes (03 R91 to R95), binary
comparison (03 R99 to R102), drains (03 R103 to R105) and emission (03 R106; 05 R166 to R176). -/

namespace Sys2Proof.Machine

/-! ## Fields of MM_RUN (06 R204). -/

def mmRow (r : BitVec 256) : Bool := flag r 32
def mmLane (r : BitVec 256) : Lane := (Lane.ofCode (fld r 33 3)).getD .binary
def mmSfmt (r : BitVec 256) : Nat := fld r 36 4
def mmXsigned (r : BitVec 256) : Bool := flag r 40
/-- p, the streamed bits (03 R90). -/
def mmP (r : BitVec 256) : Nat := fld r 41 4 + 1
def mmXblocked (r : BitVec 256) : Bool := flag r 45
def mmZpEn (r : BitVec 256) : Bool := flag r 46
def mmAcc (r : BitVec 256) : Bool := flag r 47
def mmSwap (r : BitVec 256) : Bool := flag r 48
def mmLoadNext (r : BitVec 256) : Bool := flag r 49
def mmEmitAfter (r : BitVec 256) : Bool := flag r 50
def mmHalf (r : BitVec 256) : Bool := flag r 51
def mmKeep (r : BitVec 256) : Bool := flag r 52
def mmAllowEn (r : BitVec 256) : Bool := flag r 53
def mmB (r : BitVec 256) : Nat := fld r 56 14
def mmSlotBase (r : BitVec 256) : Nat := fld r 70 10
def mmXLine (r : BitVec 256) : Nat := fld r 80 13
def mmXexpLine (r : BitVec 256) : Nat := fld r 93 13
def mmERef (r : BitVec 256) : Int := signedOf 10 (fld r 106 10)
def mmNextLine (r : BitVec 256) : Nat := fld r 116 13
def mmV (r : BitVec 256) : Nat := fld r 139 7
def mmAllowLine (r : BitVec 256) : Nat := fld r 146 13
def mmIndexBase (r : BitVec 256) : Nat := fld r 159 21
def mmEmitDesc (r : BitVec 256) : Nat := fld r 180 18
def mmZpEntry (r : BitVec 256) : Nat := fld r 198 20
/-- Whether the operation is binary. -/
def mmBinary (r : BitVec 256) : Bool := mmLane r = .binary
/-- p′, the streamed cycles per vector (03 R90, R112). -/
def mmP' (r : BitVec 256) : Nat := if mmBinary r then 1 else if mmZpEn r then mmP r + 1 else mmP r
/-- Whether streamed elements are signed (03 R90). -/
def mmSigned (r : BitVec 256) : Bool := mmXsigned r || mmZpEn r

/-- Slots of a drain in a lane mode (03 R103). -/
def drainSlots (row : Bool) (l : Lane) : Nat := if row then 512 else 512 / l.count
/-- Results of one slot (03 R103). -/
def slotResults (row : Bool) (l : Lane) : Nat := if row then 32 else 32 * l.count

/-! ## Bytes an operation touches. -/

/-- Lines of a stored tile: two, and one of exponents for a blocked format (03 R108). -/
def tileLines (f : Nat) : Nat := if blocked f then 3 else 2

/-- Elements packed in one 16-bit entry (03 R95). -/
def perEntry (r : BitVec 256) : Nat := if mmBinary r then 1 else 16 / mmP r
/-- Entries each stream holds (03 R95, R100). -/
def mmEntries (r : BitVec 256) : Nat := ceilDiv (if mmBinary r then mmB r else if mmRow r then mmB r * (mmLane r).count else mmB r) (perEntry r)
/-- Bytes of the streamed operand: whole lines (03 R95). -/
def mmXBytes (r : BitVec 256) : Nat := 1024 * ceilDiv (mmEntries r) 16

/-- The emit descriptor (06 R206). -/
structure EmitDesc where
  form : Nat
  out : Nat
  zero : Bool
  corrEn : Bool
  outlEn : Bool
  top : Bool
  dest : Nat
  ascale : Nat
  oentry : Nat
  corr : Nat
  olist : Nat
  oside : Nat
  site : Nat
  resv : Bool
deriving DecidableEq, Repr, Inhabited

/-- The descriptor 64 bytes hold. -/
def EmitDesc.ofBytes (b : List Byte) : EmitDesc :=
  let f := fieldAt b 0 1
  ⟨f % 4, f / 4 % 4, bitOf f 4, bitOf f 5, bitOf f 6, bitOf f 7, fieldAt b 4 4, fieldAt b 8 4, fieldAt b 0x0C 4, fieldAt b 0x10 4, fieldAt b 0x14 4,
    fieldAt b 0x18 4, fieldAt b 0x1C 2, allZero ((b.drop 1).take 3) && allZero (b.drop 0x1E)⟩

/-- Bits of a result in a form (03 R106): RAW 64, I32 32, RESCALE by its output format. -/
def EmitDesc.bits (d : EmitDesc) : Nat := if d.form = 0 then 64 else if d.form = 1 then 32 else 4 * 2 ^ d.out
/-- The output format's code in R202: INT4, INT8 or INT16. -/
def EmitDesc.fmt (d : EmitDesc) : Nat := 2 + 2 * d.out

/-- Bytes of one slot written out: each slot starts on a 32-byte boundary (03 R106). -/
def EmitDesc.stride (d : EmitDesc) (n : Nat) : Nat := 32 * ceilDiv (n * d.bits) 256

/-- What an emission writes and reads: (offset, bytes) of its results first, then its other operands (06 R206). -/
def EmitDesc.parts (d : EmitDesc) (n slots : Nat) : List (Nat × Nat) :=
  (d.dest, d.stride n * slots)
    :: ((if d.form = 2 then [(d.ascale, 4 * n), (d.oentry, 8)] else [])
      ++ (if d.form ≠ 0 ∧ d.corrEn then [(d.corr, 8 * n)] else [])
      ++ (if d.form = 2 ∧ d.outlEn then [(d.olist, 128), (d.oside, 128 * slots)] else []))

/-- Whether a descriptor is well formed: codes not reserved, reserved bytes zero, alignments kept (06 R206). -/
def EmitDesc.ok (d : EmitDesc) : Bool :=
  d.resv && !d.top && d.form ≠ 3 && (d.form ≠ 2 || d.out ≠ 3) && d.dest % 32 = 0 && (d.form ≠ 2 || d.oentry % 8 = 0)

/-- Bytes a binary result takes: COUNT results as 16-bit words, or the lists of KEEP16 (03 R101, R102). -/
def binaryBytes (keep : Bool) (v b : Nat) : Nat := if keep then 64 * v else 2 * v * b

/-- A piece of the bench memory an operation names: offset, bytes, alignment. -/
abbrev Piece := Nat × Nat × Nat

/-- The pieces named by the fields of MM_RUN. -/
def mmRunPieces (r : BitVec 256) (base : Nat) : List Piece :=
  (benchField base 1024 (mmXLine r), mmXBytes r, 1024)
    :: ((if mmXblocked r then [(benchField base 1024 (mmXexpLine r), mmB r, 1024)] else [])
      ++ (if mmLoadNext r then [(benchField base 1024 (mmNextLine r), 1024 * tileLines (mmSfmt r), 1024)] else [])
      ++ (if mmAllowEn r then [(benchField base 1024 (mmAllowLine r), ceilDiv (mmB r) 8, 1024)] else [])
      ++ (if mmEmitAfter r then [(benchField base 32 (mmEmitDesc r), 64, 32)] else [])
      ++ (if mmZpEn r then [(benchField base 8 (mmZpEntry r), 8, 8)] else []))

/-- The piece of MM_LOAD (06 R205). -/
def mmLoadPieces (r : BitVec 256) (base : Nat) : List Piece := [(benchField base 1024 (fld r 40 13), 1024 * tileLines (mmSfmt r), 1024)]
/-- The descriptor's place for MM_EMIT (06 R205). -/
def mmEmitPieces (r : BitVec 256) (base : Nat) : List Piece := [(benchField base 32 (fld r 53 18), 64, 32)]

/-- The pieces of any MM record. -/
def mmPieces (r : BitVec 256) (base : Nat) : List Piece :=
  if opcodeOf r = 0x0101 then mmRunPieces r base else if opcodeOf r = 0x0102 then mmLoadPieces r base else mmEmitPieces r base

/-- Whether pieces lie within the allotment and keep their alignment (03 R116, 06 R203). -/
def piecesOk (allot : Nat) (l : List Piece) : Bool := l.all (fun p => p.1 % p.2.2 = 0 && p.1 + p.2.1 ≤ allot)

/-- Pieces as ranges of device addresses (06 R190). -/
def pieceRanges (l : List Piece) : List Range := l.map (fun p => ⟨winAddr p.1, p.2.1⟩)

/-! ## Checks on the record alone (03 R89, R90, R99, R101, R102, R104, R113, R114, R116; 06 R204). -/

/-- Fields that the operation's mode does not use are zero (06 R204). R101 gives ACC a meaning for KEEP16 alone: with COUNT it counts as a field not used (DESIGN
CHOICE, log entry 69). -/
def mmUnused (r : BitVec 256) : Bool :=
  let bin := mmBinary r
  let keep := bin && mmKeep r
  (bin || (!mmHalf r && !mmKeep r && !mmAllowEn r && mmV r = 0 && mmAllowLine r = 0 && mmIndexBase r = 0))
    && (!bin || (!mmRow r && mmSfmt r = 0 && !mmXsigned r && mmP r = 1 && !mmXblocked r && !mmZpEn r && mmSlotBase r = 0))
    && (keep || (!mmAllowEn r && mmIndexBase r = 0 && (!bin || !mmAcc r)))
    && (mmXblocked r || mmXexpLine r = 0) && (mmXblocked r || blocked (mmSfmt r) || fld r 106 10 = 0)
    && (mmLoadNext r || fld r 116 23 = 0) && (mmAllowEn r || mmAllowLine r = 0)
    && (mmEmitAfter r || mmEmitDesc r = 0) && (mmZpEn r || mmZpEntry r = 0) && (bregEn r || bregOf r = 0)

/-- MM_RUN's fields are in range and its lane mode, formats, axis and slots agree (03 R89, R90, R104, R113, R116). A blocked streamed operand that is unsigned, or
that has a zero point, is refused: BI4 and BI8 are signed formats without one, and R90 does not speak of either (DESIGN CHOICE, log entry 69). -/
def mmRunOk (r : BitVec 256) : Bool :=
  (Lane.ofCode (fld r 33 3)).isSome && mmUnused r && (mmLane r).takes (mmSfmt r) && 1 ≤ mmB r && mmB r * mmP' r ≤ 9560
    && (if mmBinary r then
          (1 ≤ mmV r && mmV r ≤ (if mmHalf r then 64 else 32)) && (mmKeep r || mmB r ≤ 16384 / mmV r) && (!mmKeep r || mmIndexBase r + mmB r ≤ 2097152)
        else
          mmSlotBase r + mmB r ≤ drainSlots (mmRow r) (mmLane r) && (!mmZpEn r || mmP r ≤ 15)
            && (!mmXblocked r || ((mmP r = 4 || mmP r = 8) && !mmZpEn r && mmXsigned r))
            && (!mmRow r || (mmXsigned r && !mmXblocked r)))

/-- MM_LOAD's fields are in range (06 R205). -/
def mmLoadOk (r : BitVec 256) : Bool :=
  (Lane.ofCode (fld r 33 3)).isSome && (mmLane r).takes (mmSfmt r) && (bregEn r || bregOf r = 0)

/-- MM_EMIT's fields are in range (06 R205). -/
def mmEmitOk (r : BitVec 256) : Bool := 1 ≤ fld r 43 10 && fld r 43 10 ≤ 512 && fld r 33 10 + fld r 43 10 ≤ 512 && (bregEn r || bregOf r = 0)

/-- The check of any MM record. -/
def mmOk (r : BitVec 256) : Bool :=
  if opcodeOf r = 0x0101 then mmRunOk r else if opcodeOf r = 0x0102 then mmLoadOk r else mmEmitOk r

/-! ## Stored tiles (03 R88, R89, R108). -/

/-- The active word at row r, column c; a word nothing loaded is free. -/
def Tile.word (t : Tile) (r c : Nat) : Nat := ((Tab.find t.words (32 * r + c)).getD (Config.freeBits (t.seed + 32 * r + c) 16)).toNat

/-- W[r][n]: lane n mod L of column n div L (03 R89, R91). -/
def Tile.elem (t : Tile) (l : Lane) (f r n : Nat) : Int := intValue f (bitsOf (t.word r (n / l.count)) (n % l.count * l.width) l.width)

/-- The exponent of result n of a blocked tile (03 R105, R108). -/
def Tile.exponent (t : Tile) (n : Nat) : Int := e8 (t.exps.getD n (Config.freeBits (t.seed + 1024 + n) 8))

/-- The tile bytes hold: word (r, c) in line c div 16 at byte 32r + 2(c mod 16); a blocked tile's exponents in a third line (03 R108). The manual marks blocked
tiles alone: one loaded in an integer format counts as uniform (DESIGN CHOICE, log entry 138). -/
def Tile.ofBytes (b : List Byte) (l : Lane) (f rotRow rotCol : Nat) : Tile :=
  let ex := if blocked f then (b.drop 2048).take (32 * l.count) else []
  { words := (List.range 1024).map (fun k => (k, BitVec.ofNat 16 (fieldAt b (1024 * (k % 32 / 16) + 32 * (k / 32) + 2 * (k % 32 % 16)) 2)))
    exps := ex
    uniform := ex.all (fun x => some x = ex.head?)
    rotRow := rotRow
    rotCol := rotCol
    seed := 0 }

/-! ## Streams (03 R90, R95, R98). -/

/-- The streamed bytes: an entry whose number is stale holds the value it had at the queueing, any other the one it has now (03 R98). -/
def streamed (old new : List Byte) (stale : List Nat) : List Byte :=
  new.mapIdx (fun i b => if i / 2 ∈ stale then old.getD i b else b)

/-- Entry j of stream i: bank slot i of consecutive lines (03 R95). -/
def entryOf (xs : List Byte) (i j : Nat) : Nat := fieldAt xs (1024 * (j / 16) + 32 * i + 2 * (j % 16)) 2

/-- Element m of stream i as p bits (03 R95). -/
def elemOf (r : BitVec 256) (xs : List Byte) (i m : Nat) : Nat := bitsOf (entryOf xs i (m / perEntry r)) (m % perEntry r * mmP r) (mmP r)

/-- The p′ bits a feeder streams for an element: the zero point, if any, is subtracted (03 R90). -/
def feed (r : BitVec 256) (zp : Int) (x : Nat) : Nat :=
  if mmZpEn r then wrapTo (mmP r + 1) ((if mmXsigned r then signedOf (mmP r) x else (x : Int)) - zp) else x

/-! ## Bit planes (03 R93). -/

/-- The tree's sum of the stored values whose streamed bit k is 1. -/
def planePart (ws : List Int) (xs : List Nat) (k : Nat) : Int := ((ws.zip xs).map (fun e => if bitOf e.2 k then e.1 else 0)).foldl (· + ·) 0

/-- The tile result t of 03 R93 from bit planes 0 to p′ − 1; the top plane of a signed operand is subtracted. -/
def planes (sgn : Bool) (p : Nat) (ws : List Int) (xs : List Nat) : Int :=
  (List.range p).foldl (fun t k =>
    let part := planePart ws xs k * (2 ^ k : Nat)
    if sgn && k + 1 = p then t - part else t + part) 0

/-- The tile results of vector b (03 R91, R92). -/
def tileResults (r : BitVec 256) (t : Tile) (xs : List Byte) (zp : Int) (b : Nat) : List Int :=
  let l := mmLane r
  if mmRow r then
    (List.range 32).map (fun i =>
      planes (mmSigned r) (mmP' r) ((List.range (32 * l.count)).map (fun n => t.elem l (mmSfmt r) i n))
        ((List.range (32 * l.count)).map (fun n => feed r zp (elemOf r xs (n / l.count) (b * l.count + n % l.count)))))
  else
    (List.range (32 * l.count)).map (fun n =>
      planes (mmSigned r) (mmP' r) ((List.range 32).map (fun i => t.elem l (mmSfmt r) i n)) ((List.range 32).map (fun i => feed r zp (elemOf r xs i b))))

/-- The shift of 03 R105: left for a positive d, right with nearest-even rounding for a negative one. -/
def shiftBy (d t : Int) : Int :=
  if 0 ≤ d then t * (2 ^ d.toNat : Nat)
  else
    let q := roundQ .even false 0 t.natAbs (2 ^ (-d).toNat)
    if t < 0 then -(q : Int) else q

/-- What a drain adds for a tile result: shifted when either operand is blocked (03 R105). -/
def drainTerm (r : BitVec 256) (t : Tile) (ex : Int) (n : Nat) (x : Int) : Int :=
  if blocked (mmSfmt r) || mmXblocked r then
    shiftBy ((if blocked (mmSfmt r) then t.exponent (if mmRow r then 0 else n) else 0) + ex - mmERef r) x
  else x

/-- An accumulator that no operation has left defined (03 R104; log entry 3). -/
def freeAcc (seed slot n : Nat) : Int := signedOf 48 (Config.freeBits (seed + 2048 + 512 * slot + n) 48).toNat

/-- A slot as an operation finds it: zero unless it accumulates; undefined if nothing, or another lane mode, left it (03 R104). -/
def slotStart (r : BitVec 256) (seed slot : Nat) (x : Option Slot) : List Int × Bool :=
  let n := slotResults (mmRow r) (mmLane r)
  if !mmAcc r then (List.replicate n 0, false)
  else
    match x with
    | some y => if y.lane = mmLane r then (y.acc, y.sat) else ((List.range n).map (freeAcc seed slot), false)
    | none => ((List.range n).map (freeAcc seed slot), false)

/-- A slot after a vector's tile results are added, and how many sums saturated (03 R105). -/
def slotAfter (r : BitVec 256) (t : Tile) (ex : Int) (start : List Int × Bool) (ts : List Int) : Slot × Nat :=
  let sums := (start.1.zip ts).mapIdx (fun n e => sat48 (e.1 + drainTerm r t ex n e.2))
  let k := (sums.filter (·.2)).length
  (⟨mmLane r, sums.map (·.1), start.2 || k ≠ 0⟩, k)

/-! ## Binary mode (03 R99 to R102). -/

/-- Bits equal in two 16-bit words. -/
def agree16 (a b : Nat) : Nat := ((List.range 16).filter (fun i => bitOf a i == bitOf b i)).length

/-- The agreement of stored sketch v with streamed vector b (03 R99, R100). -/
def binAgreement (r : BitVec 256) (t : Tile) (xs : List Byte) (v b : Nat) : Nat :=
  if mmHalf r then
    ((List.range 16).map (fun i => agree16 (t.word (16 * (v % 2) + i) (v / 2)) (entryOf xs i b))).foldl (· + ·) 0
  else ((List.range 32).map (fun i => agree16 (t.word i v) (entryOf xs i b))).foldl (· + ·) 0

/-- A KEEP16 entry (03 R102). -/
def keepEntry (agree index : Nat) : W32 := BitVec.ofNat 32 (agree + index * 2 ^ 10 + 2 ^ 31)

/-- A vector enters a list of the 16 highest agreements; ties keep the streamed order (03 R101). -/
def keepIn (l : List W32) (x : W32) : List W32 := (insertBy (fun a b => b.toNat % 1024 < a.toNat % 1024) x l).take 16

/-- The list of stored sketch v after an operation (03 R101). -/
def keepList (r : BitVec 256) (t : Tile) (xs : List Byte) (allow : List Byte) (start : List W32) (v : Nat) : List W32 :=
  (List.range (mmB r)).foldl (fun l b =>
    if mmAllowEn r && !bitOf (fieldAt allow (b / 8) 1) (b % 8) then l else keepIn l (keepEntry (binAgreement r t xs v b) (mmIndexBase r + b))) start

/-- All agreements, vector by vector (03 R101). -/
def countsOf (r : BitVec 256) (t : Tile) (xs : List Byte) : List Nat :=
  (List.range (mmB r)).flatMap (fun b => (List.range (mmV r)).map (fun v => binAgreement r t xs v b))

/-! ## Emission (03 R106; 05 R166 to R176). -/

/-- The channels of an outlier list of 64 16-bit places: those before the first that does not ascend (05 R176; log entry 34). -/
def outliers (b : List Byte) : List Nat :=
  ((List.range 64).map (fun i => fieldAt b (2 * i) 2)).foldl (fun (acc : List Nat × Bool) x =>
    if acc.2 || 32767 < x || (acc.1.getLast?.map (fun y => decide (x ≤ y))).getD false then (acc.1, true) else (acc.1 ++ [x], false)) ([], false) |>.1

/-- What one emission gives: the bytes of the results, of the outlier side output, of the output scale entry if rescued, saturations, and the tile
maximum of R170 as FP32 for its scale site. -/
structure Emitted where
  bytes : List Byte
  side : List Byte
  entry : Option Nat
  sats : Nat
  amax : Option Nat
deriving DecidableEq, Repr, Inhabited

/-- Slots' results packed, each slot from a 32-byte boundary (03 R106). The manual does not say what the bytes between a slot's end and the next boundary hold: zeros are
written there (DESIGN CHOICE, log entry 138). -/
def packSlots (w : Nat) (slots : List (List Nat)) : List Byte :=
  slots.flatMap (fun xs =>
    let f := if w = 4 then 2 else if w = 8 then 4 else if w = 16 then 6 else if w = 32 then 8 else 14
    fit (32 * ceilDiv (xs.length * w) 256) (packElems f xs))

/-- The corrected accumulators of a slot and the saturations that gave (03 R106, 05 R168). -/
def corrected (corr : Option (List Int)) (acc : List Int) : List Int × Nat :=
  match corr with
  | none => (acc, 0)
  | some c =>
    let xs := (acc.zip c).map (fun e => sat48 (e.1 + e.2))
    (xs.map (·.1), (xs.filter (·.2)).length)

/-- The RESCALE form of slots: narrowing under the recipe entry, its rescue test, and the narrowing under σ_r after a rescue (05 R166 to R172). -/
def rescaleSlots (d : EmitDesc) (ent : ScaleE) (a : List Nat) (ol : List Nat) (slots : List (List Int)) : Emitted :=
  let w := d.bits
  let rnd : Rnd := if d.zero then .zero else .even
  let lo := intMin w
  let hi := intMax w
  let zpOut := ent.zp
  let narrow := fun (sigma : Nat) (zp : Int) (n : Nat) (acc : Int) =>
    if n ∈ ol then (zp, false, zp)
    else
      match rescaleMS (a.getD n 0) sigma with
      | none => (zp, true, zp)
      | some ms =>
        let y := rescaleRound rnd ms acc
        let z := y + zp
        if z < lo then (lo, true, y) else if hi < z then (hi, true, y) else (z, false, y)
  let inTile : List (Nat × Int) := (slots.flatMap (fun acc => acc.mapIdx (fun n x => (n, x)))).filter (fun e => e.1 ∉ ol)
  let real := inTile.filter (fun e => (rescaleMS (a.getD e.1 0) minNormal).isSome)
  let mags := real.map (fun e => finMag ((realValue e.2 (a.getD e.1 0)).abs))
  let m := maxMag mags
  let amax : Num := .fin false m.1 m.2
  let sat := (real.filter (fun e => (narrow ent.scale zpOut e.1 e.2).2.1)).length
  let nz := (inTile.filter (fun e => e.2 ≠ 0)).length
  let flush := (real.filter (fun e => e.2 ≠ 0 ∧ (narrow ent.scale zpOut e.1 e.2).2.2 = 0)).length
  let rescue := (ent.kind = 1 || ent.kind = 2) && (inTile.length < sat * 256 || nz < flush * 4)
  let sigma := if rescue then scaleUp amax (2 ^ (w - 1) - 1) else ent.scale
  let zp : Int := if rescue then 0 else zpOut
  let ys := slots.map (fun acc => acc.mapIdx (fun n x => narrow sigma zp n x))
  let sides := if !d.outlEn then [] else
    slots.map (fun acc => (List.range 64).map (fun i =>
      match ol[i]? with
      | some n => encodeFmt 12 .even 0 (realValue (acc.getD n 0) (a.getD n 0))
      | none => (0, false)))
  { bytes := packSlots w (ys.map (fun l => l.map (fun y => wrapTo w y.1)))
    side := sides.flatMap (fun l => l.flatMap (fun x => leBytes 2 x.1))
    entry := if rescue then some (ScaleE.toNat ⟨sigma, 0, true, ent.kind⟩) else none
    sats := (ys.map (fun l => (l.filter (·.2.1)).length)).foldl (· + ·) 0 + (sides.map (fun l => (l.filter (·.2)).length)).foldl (· + ·) 0
    amax := some (fp32 .even amax) }

/-- The results of slots in the descriptor's form (03 R106). -/
def emitSlots (d : EmitDesc) (ent : ScaleE) (a : List Nat) (ol : List Nat) (corr : Option (List Int)) (slots : List (List Int)) : Emitted :=
  let cs := slots.map (corrected (if d.form = 0 then none else corr))
  let k := (cs.map (·.2)).foldl (· + ·) 0
  let accs := cs.map (·.1)
  if d.form = 0 then ⟨packSlots 64 (accs.map (fun l => l.map (wrapTo 64))), [], none, 0, none⟩
  else if d.form = 1 then
    let ys := accs.map (fun l => l.map (fun x => encodeInt (intMin 32) (intMax 32) .even (.ofInt x)))
    ⟨packSlots 32 (ys.map (fun l => l.map (fun y => wrapTo 32 y.1))), [], none, k + (ys.map (fun l => (l.filter (·.2)).length)).foldl (· + ·) 0, none⟩
  else
    let e := rescaleSlots d ent a ol accs
    { e with sats := e.sats + k }

end Sys2Proof.Machine
end

