-- ==== Sys2Proof/Machine/Engines.lean ====
section
/-! DEFINITION. The matrix engines' commands: issue of MM operations, cycle 0, last cycle, shadow loads and emission (03; 06 R184, R185, R203 to R206;
14 R477, R478). -/

namespace Sys2Proof.Machine

/-! ## Contexts and engines (06 R184, 08 R263). -/

/-- Free values one engine context may use. -/
def ctxSeeds : Nat := 1048576

/-- A tile no load has written: its words, exponents and mark are undefined (06 R184). -/
def Tile.unknown (seed : Nat) : Tile := ⟨[], [], Config.freeBits (seed + 300000) 1 = 1#1, 0, 0, seed⟩

/-- Whether an engine is mapped in, with no context resident on it (08 R263, 14 R477). -/
def State.engineIdle (s : State) (c : CoreNo) (e : EngNo) : Bool :=
  s.engineIn (8 * c.val + e.val) && (Tab.vals s.compute.ctxs).all (fun k => !(k.core = c && k.engine = some e))

/-- The idle engines of a core, lowest first. -/
def State.idleEngines (s : State) (c : CoreNo) : List EngNo := (List.finRange 8).filter (s.engineIdle c)

/-- The engine a waiting context takes: one that runs no sample, or the shadow of a sample, which is then abandoned (08 R263, 14 R478). -/
def State.pickEngine (s : State) (c : CoreNo) : Option EngNo :=
  let shadow := (Tab.find s.integ.captures c.val).map (·.shadow)
  match (s.idleEngines c).find? (fun e => some e.val ≠ shadow) with
  | some e => some e
  | none => (s.idleEngines c).head?

/-- A sample whose shadow engine is taken is abandoned and counted as skipped (14 R478). -/
def State.dropShadow (s : State) (c : CoreNo) (e : EngNo) : State :=
  match Tab.find s.integ.captures c.val with
  | some x => if x.shadow = e.val then ({ s with integ := { s.integ with captures := Tab.del s.integ.captures c.val } }).count 18 1 else s
  | none => s

/-- A context with work goes to an idle engine, if there is one (08 R263). -/
def State.placeCtx (s : State) (k : Nat) : State :=
  match Tab.find s.compute.ctxs k with
  | none => s
  | some x =>
    match x.engine, s.pickEngine x.core with
    | none, some e => (s.dropShadow x.core e).modCtx k (fun x => { x with engine := some e, since := s.now })
    | _, _ => s

/-- The context a thread's handle is bound to; an unbound one is bound to a new context of its gang's core (06 R184). -/
def State.bindCtx (s : State) (t : Nat) (h : Nat) : Nat × State :=
  match s.thread? t with
  | none => (0, s)
  | some th =>
    match (th.handle h).ctx, s.gangOf? th with
    | some k, _ => (k, s)
    | none, some g =>
      let k := s.compute.nextCtx
      let x : Ctx := ⟨g.core, t, h, none, s.now, Tile.unknown s.freeCtr, Tile.unknown (s.freeCtr + 400000), [], [], [], [], none, none, none, s.freeCtr, [], none, [], []⟩
      let s := (s.modCompute (fun c => { c with ctxs := Tab.put c.ctxs k x, nextCtx := k + 1 })).spend ctxSeeds
      (k, s.modThread t (fun th => th.modHandle h (fun y => { y with ctx := some k })))
    | none, none => (0, s)

/-! ## Bench memory of a thread's gang. -/

/-- Bytes of a thread's window. -/
def State.benchRead (s : State) (t off n : Nat) : List Byte :=
  match (s.thread? t).bind s.gangOf? with
  | some g => s.winRead g off n
  | none => zeros n

/-- Bytes written to a thread's window. -/
def State.benchWrite (s : State) (t off : Nat) (bs : List Byte) : State :=
  match s.thread? t with
  | some th => s.winWrite th.job th.gang off bs
  | none => s

/-- The allotment of a thread's gang in bytes. -/
def State.allotOf (s : State) (th : Thread) : Nat := ((s.job? th.job).map (·.allot)).getD 0

/-- Whether a piece a unit writes touches a line lent read-only (06 R188, 07 R227). -/
def State.pieceLocked (s : State) (t off n : Nat) : Bool :=
  match (s.thread? t).bind s.gangOf? with
  | some g => s.winLocked g off n
  | none => false

/-! ## Issue. -/

/-- The descriptor an MM record emits by. -/
def State.descOf (s : State) (t : Nat) (r : BitVec 256) (base : Nat) : EmitDesc :=
  EmitDesc.ofBytes (s.benchRead t (benchField base 32 (if opcodeOf r = 0x0101 then mmEmitDesc r else fld r 53 18)) 64)

/-- The lane mode a drain last worked in; none before its first operation, when every slot is undefined (03 R103). -/
def Ctx.drainLane (x : Ctx) (row : Bool) : Lane := ((if row then x.rowLane else x.colLane)).getD .l1x16

/-- What MM_RUN emits: the results of one slot and the slots, or binary results as bytes (03 R101, R106). -/
def runShape (r : BitVec 256) : Nat × Nat × Option Nat :=
  if mmBinary r then (0, 0, some (binaryBytes (mmKeep r) (mmV r) (mmB r))) else (slotResults (mmRow r) (mmLane r), mmB r, none)

/-- What an MM record emits with these operations ahead of it in its context's queue: MM_EMIT takes the lane mode its drain works in last, or the results of its last
binary operation (03 R101, R106; 06 R205, R206). -/
def State.emitShape (s : State) (k : Nat) (ahead : List MmOp) (r : BitVec 256) : Nat × Nat × Option Nat :=
  if opcodeOf r = 0x0101 then runShape r
  else
    let row := flag r 32
    match (ahead.filter (fun q => opcodeOf q.rcd = 0x0101 && mmRow q.rcd = row)).getLast? with
    | some q => if mmBinary q.rcd then runShape q.rcd else (slotResults row (mmLane q.rcd), fld r 43 10, none)
    | none =>
      match Tab.find s.compute.ctxs k with
      | none => (slotResults row .l1x16, fld r 43 10, none)
      | some x =>
        if x.drainLane row = .binary then (0, 0, some (if x.counts.isEmpty then 64 * x.keep.length else 2 * x.counts.length))
        else (slotResults row (x.drainLane row), fld r 43 10, none)

/-- The (offset, bytes) parts an emission touches, results first. -/
def State.emitParts (s : State) (t k : Nat) (ahead : List MmOp) (r : BitVec 256) (base : Nat) : List (Nat × Nat) :=
  let d := s.descOf t r base
  match s.emitShape k ahead r with
  | (_, _, some n) => [(d.dest, n)]
  | (n, m, none) => d.parts n m

/-- The operations that come before a new one of a context: the one that runs and those queued. -/
def Ctx.ahead (x : Ctx) : List MmOp := (x.running.map (·.1)).toList ++ x.queue

/-- Whether an MM record emits. -/
def mmEmits (r : BitVec 256) : Bool := opcodeOf r = 0x0103 || (opcodeOf r = 0x0101 && mmEmitAfter r)

/-- The ranges an MM operation reads and writes (06 R190). -/
def State.mmRanges (s : State) (t : Nat) (th : Thread) (r : BitVec 256) : List Range :=
  let base := bregBase th r
  pieceRanges (mmPieces r base)
    ++ (if mmEmits r then
        let k := (th.handle (handleOf r)).ctx.getD s.compute.nextCtx
        (s.emitParts t k (((Tab.find s.compute.ctxs k).map Ctx.ahead).getD []) r base).map (fun p => ⟨winAddr p.1, p.2⟩)
      else [])

/-- The check of R203 at issue: an offset field keeps its alignment and lies in the allotment. -/
def State.bregFault (s : State) (th : Thread) (r : BitVec 256) (ps : List Piece) : Option (FaultCode × Nat) :=
  if bregEn r && !piecesOk (s.allotOf th) ps then some (.operand, 0) else none

/-- An MM operation is queued to its context: the streamed bytes are noted, its handle is set, and it is in flight (03 R97; 06 R184, R185). -/
def State.queueMm (s : State) (t pc : Nat) (th : Thread) (r : BitVec 256) : State :=
  let base := bregBase th r
  let b := s.bindCtx t (handleOf r)
  let s := b.2
  let old := if opcodeOf r = 0x0101 then s.benchRead t (benchField base 1024 (mmXLine r)) (mmXBytes r) else []
  let op : MmOp := ⟨s.compute.nextIdent, t, pc, r, base, old⟩
  let ranges := s.mmRanges t th r
  let s := s.modCtx b.1 (fun x => { x with queue := x.queue ++ [op] })
  ((s.modThread t (fun x => x.setting r .mm)).fly t ranges).placeCtx b.1

/-- Issue of an MM operation. -/
def State.issueMm (s : State) (t op : Nat) (after : Nat → State → State) : State :=
  s.issue t op (s.mmRanges t) (fun th r => s.bregFault th r (mmPieces r (bregBase th r))) (fun th r s =>
    let s := s.queueMm t th.pc th r
    match ((s.thread? t).bind (fun x => (x.handle (handleOf r)).ctx)) with
    | some k => after k s
    | none => s)

/-! ## The queue of finished tiles (04 R131). -/

/-- An engine's queue of finished tiles. -/
def State.tiles (s : State) (c : CoreNo) (e : EngNo) : List TileEntry := Tab.at (s.core c).queues e.val []

/-- An engine's queue changed. -/
def State.modTiles (s : State) (c : CoreNo) (e : EngNo) (f : List TileEntry → List TileEntry) : State :=
  s.modCore c (fun x => { x with queues := Tab.put x.queues e.val (f (Tab.at x.queues e.val [])) })

/-- Whether an operation may reserve its entry: it asks for none, or the queue has room for it (04 R131). -/
def State.tileRoom (s : State) (c : CoreNo) (e : EngNo) (mm : MmOp) : Bool := !setH mm.rcd || decide ((s.tiles c e).length < 8)

/-- The entry of an operation with NOTIFY is reserved (04 R131). -/
def State.reserveTile (s : State) (c : CoreNo) (e : EngNo) (mm : MmOp) : State :=
  if setH mm.rcd then s.modTiles c e (fun q => q ++ [⟨mm.op, mm.thread, handleOf mm.rcd, false, 0, 0⟩]) else s

/-- The entry of an operation is filled (04 R131). -/
def State.fillTile (s : State) (c : CoreNo) (mm : MmOp) (dest bytes : Nat) : State :=
  s.modCore c (fun x => { x with queues := Tab.changeAll x.queues (fun q => q.map (fun n => if n.op = mm.op then { n with filled := true, dest := dest, bytes := bytes } else n)) })

/-- RETIRE_EN (14 R488). -/
def State.retireEn (s : State) : Bool := bitOf s.integ.policy.toNat 5

/-- An engine with three live strikes is retired at an operation boundary while RETIRE_EN is 1; its contexts go to other engines (08 R263, 14 R481). -/
def State.retireRipe (s : State) (c : CoreNo) (e : EngNo) : State :=
  let n := 8 * c.val + e.val
  let here := s.compute.ctxs.filter (fun k => k.2.core = c && k.2.engine = some e)
  if s.strikesOf n < 3 || !s.retireEn || Tab.has s.integ.jig.engines n || here.any (fun k => k.2.busy) then s
  else
    here.foldl (fun (s : State) (k : Nat × Ctx) =>
      let s := s.modCtx k.1 (fun x => { x with engine := none })
      if k.2.queue.isEmpty then s else s.placeCtx k.1) (s.retireEngine n 2)

/-- A context as it is saved: of its drain files only the slots its job marks in use, the results of COUNT counting as one; the others are undefined when it is restored
(03 R117). -/
def Ctx.saved (x : Ctx) (k : Nat) : Ctx :=
  { x with
    engine := none
    col := x.col.filter (fun e => Config.slotMarked k false e.1)
    row := x.row.filter (fun e => Config.slotMarked k true e.1)
    counts := if Config.slotMarked k false 0 then x.counts
      else x.counts.mapIdx (fun i _ => (Config.freeBits (x.seed + 2048 + i) 16).toNat) }

/-- Whether a context's gang is pre-empted. -/
def State.ctxYields (s : State) (x : Ctx) : Bool := (((s.thread? x.thread).bind s.gangOf?).map (·.preempted)).getD false

/-- A context of a pre-empted gang that has come to its operation boundary leaves its engine and is saved (03 R117; 08 R266). -/
def State.yieldCtx (s : State) (k : Nat) : State :=
  match Tab.find s.compute.ctxs k with
  | none => s
  | some x => if x.engine.isSome && !x.busy && s.ctxYields x then s.modCtx k (fun x => x.saved k) else s

/-- An MM operation with no part left to run is no longer in flight (06 R190); between operations a ripe engine is retired (14 R481), and the context of a pre-empted gang is
saved (08 R266). -/
def State.mmEnd (s : State) (k : Nat) (mm : MmOp) : State :=
  match Tab.find s.compute.ctxs k with
  | none => s
  | some x =>
    let s := match x.engine with
      | some e => (s.yieldCtx k).retireRipe x.core e
      | none => s
    if x.queue.any (fun q => q.op = mm.op) || (x.running.map (fun q => decide (q.1.op = mm.op))).getD false || x.loads.any (fun q => q.1.op = mm.op)
        || x.emissions.any (fun q => q.mm.op = mm.op) then s
    else s.modThread mm.thread (fun th => th.landed mm.op)

/-! ## Starting an operation at an engine. -/

/-- The context resident on an engine. -/
def State.ctxOn (s : State) (c : CoreNo) (e : EngNo) : Option (Nat × Ctx) := s.compute.ctxs.find? (fun x => x.2.core = c && x.2.engine = some e)

/-- A shadow load starts: 48 cycles, loads of one engine in issue order (03 R110, R111). -/
def State.startLoad (s : State) (k : Nat) (mm : MmOp) : State :=
  s.modCtx k (fun x =>
    let from_ := (x.loads.map (·.2)).foldl max s.now
    { x with loads := x.loads ++ [(mm, from_ + 48 * arrayUnits)] })

/-- Whether two runs of accumulators meet. -/
def slotsMeet (a n b m : Nat) : Bool := a < b + m && b < a + n

/-- Whether an operation's slots are still to be written out by an emission of its drain (03 R107). -/
def Ctx.slotsPending (x : Ctx) (r : BitVec 256) : Bool :=
  let n := slotResults (mmRow r) (mmLane r)
  x.emissions.any (fun m => m.row = mmRow r && (mmBinary r || m.binary.isSome
    || slotsMeet (m.slotBase * m.results) (m.slotCount * m.results) (mmSlotBase r * n) (mmB r * n)))

/-- The fault an engine finds before cycle 0 (03 R114, R116; 06 R206). -/
def State.mmFault (s : State) (k : Nat) (x : Ctx) (mm : MmOp) : Option FaultCode :=
  let r := mm.rcd
  let lim := ((s.thread? mm.thread).map s.allotOf).getD 0
  let tile := if mmSwap r then x.shadow else x.active
  let d := s.descOf mm.thread r mm.base
  let shape := s.emitShape k [] r
  let parts := s.emitParts mm.thread k [] r mm.base
  let dest := (parts.head?.getD (0, 0))
  let side := if shape.2.2.isNone ∧ d.form = 2 ∧ d.outlEn then (d.oside, 128 * shape.2.1) else (0, 0)
  if !mmOk r || !piecesOk lim (mmPieces r mm.base) then some .operand
  else if opcodeOf r = 0x0101 && mmRow r && blocked (mmSfmt r) && !tile.uniform then some .operand
  else if opcodeOf r = 0x0103 && shape.2.2.isNone && drainSlots (flag r 32) (x.drainLane (flag r 32)) < fld r 33 10 + fld r 43 10 then some .operand
  else if mmEmits r && !(d.dest % 32 = 0 && (shape.2.2.isSome || d.ok) && parts.all (fun p => p.1 + p.2 ≤ lim)) then some .operand
  else if mmEmits r && (s.pieceLocked mm.thread dest.1 dest.2 || (0 < side.2 && s.pieceLocked mm.thread side.1 side.2)) then some .address
  else none

/-- Sampling at cycle 0: MM_RUN is sampled by bits of the generator, at a higher rate on an engine with live strikes; the shadow is the lowest idle
engine, with rotations from 1 to 31. Without one, or with an undecided sample at the core, it is skipped and counted (14 R477, R478). -/
def State.sample (s : State) (c : CoreNo) (e : EngNo) (k : Nat) (mm : MmOp) : State :=
  let n := bitsOf s.integ.policy.toNat 0 5
  let m := if 0 < s.strikesOf (8 * c.val + e.val) then max 2 (n - 6) else n
  if n = 0 ∨ (s.freeBits m).toNat ≠ 0 then s.spend 3
  else
    let job := ((s.thread? mm.thread).map (·.job)).getD 0
    let rot := fun (i : Nat) => 1 + (Config.freeBits (s.freeCtr + i) 16).toNat % 31
    let s' := s.spend 3
    match Tab.find s.integ.captures c.val, s.idleEngines c with
    | none, g :: _ =>
      { s' with integ := { s.integ with captures := Tab.put s.integ.captures c.val ⟨mm.op, k, e.val, g.val, job, rot 1, rot 2, false⟩ } }
    | _, _ => s'.count 18 1

/-- A drain file without the slots that share one of the accumulators a to a + n − 1 (03 R103). -/
def fileClear (t : Tab Slot) (a n : Nat) : Tab Slot := t.filter (fun e => !slotsMeet e.1 e.2.acc.length a n)

/-- A drain file after the slots of an operation are set up: its own as it finds them, and nothing else in their accumulators (03 R103, R104). -/
def fileStart (t : Tab Slot) (r : BitVec 256) (seed : Nat) : Tab Slot :=
  let n := slotResults (mmRow r) (mmLane r)
  (List.range (mmB r)).foldl (fun u b =>
    let i := mmSlotBase r + b
    let y := slotStart r seed i (Tab.find t (i * n))
    Tab.put u (i * n) ⟨mmLane r, y.1, y.2⟩) (fileClear t (mmSlotBase r * n) (mmB r * n))

/-- The slots or lists an operation uses as it finds them at cycle 0 (03 R101, R104). The manual does not say which accumulators the results of COUNT take: accumulators 0 to
V × B − 1 of the column file, whose slots they end (DESIGN CHOICE, log entry 138). -/
def Ctx.setUp (x : Ctx) (r : BitVec 256) : Ctx :=
  let x := if mmSwap r then { x with active := x.shadow, shadow := x.active } else x
  let x := { x with lane := some (mmLane r) }
  if mmBinary r then
    let x := { x with colLane := some .binary, counts := [] }
    if mmKeep r then { x with keep := if mmAcc r then x.keep else [] } else { x with keep := [], col := fileClear x.col 0 (mmV r * mmB r) }
  else if mmRow r then { x with rowLane := some (mmLane r), row := fileStart x.row r x.seed }
  else { x with colLane := some (mmLane r), counts := [], col := fileStart x.col r x.seed }

/-- Cycle 0 of MM_RUN: swap and slot set-up, the next load, the reserved entry, and the run of B × p′ + 40 cycles (03 R104, R110 to R112; 04 R131). -/
def State.startRun (s : State) (c : CoreNo) (e : EngNo) (k : Nat) (mm : MmOp) : State :=
  let cycles := mmB mm.rcd * mmP' mm.rcd + 40
  let s := s.charge c mm.thread cycles
  let s := s.modCtx k (fun x =>
    let x := x.setUp mm.rcd
    { x with queue := x.queue.drop 1, seed := s.freeCtr, running := some (mm, s.now + cycles * arrayUnits) })
  let s := s.spend ctxSeeds
  let s := if mmLoadNext mm.rcd then s.startLoad k mm else s
  (s.reserveTile c e mm).sample c e k mm

/-- An emission starts when the earlier ones of its engine end, at 32 bytes a cycle (03 R107). The manual does not say whether the emissions of an engine's two drains
go on together: they follow one another in order of issue (DESIGN CHOICE, log entry 67). -/
def State.startEmission (s : State) (t k : Nat) (mm : MmOp) : State :=
  let r := mm.rcd
  let run := opcodeOf r = 0x0101
  let n := ((s.emitParts t k [] r mm.base).head?.getD (0, 0)).2
  let row := flag r 32
  let shape := s.emitShape k [] r
  s.modCtx k (fun x =>
    let from_ := (x.emissions.map (·.due)).foldl max s.now
    { x with emissions := x.emissions ++ [⟨mm, row, if run then mmSlotBase r else fld r 33 10, shape.2.1, shape.1, shape.2.2,
      benchField mm.base 32 (if run then mmEmitDesc r else fld r 53 18), from_ + ceilDiv n 32 * arrayUnits⟩] })

/-- The first operation queued on an engine whose context runs none takes its cycle 0, if nothing holds it (03 R97, R107, R111, R116; 04 R131). The manual does not say when an MM_LOAD
that waits behind other operations starts: as they do, once no operation runs (DESIGN CHOICE, log entry 138). -/
def State.cycle0 (s : State) (c : CoreNo) (e : EngNo) : State :=
  match s.ctxOn c e with
  | none => s
  | some (k, x) =>
    match x.queue, x.running with
    | mm :: rest, none =>
      let runs := match s.thread? mm.thread with
        | some th => s.jobRuns th.job && ((s.gangOf? th).map (fun g => !g.preempted)).getD false
        | none => false
      let op := opcodeOf mm.rcd
      let wait := !runs || !s.tileRoom c e mm
        || (op = 0x0101 && ((mmSwap mm.rcd && !x.loads.isEmpty) || x.slotsPending mm.rcd))
      if wait then s
      else
        match s.mmFault k x mm with
        | some f =>
          ((s.modCtx k (fun x => { x with queue := rest })).modThread mm.thread (fun th => th.landed mm.op)).fault mm.thread mm.pc f 0
        | none =>
          if op = 0x0101 then s.startRun c e k mm
          else
            let s := (s.modCtx k (fun x => { x with queue := rest })).reserveTile c e mm
            if op = 0x0102 then s.startLoad k mm else s.startEmission mm.thread k mm
    | _, _ => s

/-- The class of the thread a context is bound by. -/
def State.ctxCls (s : State) (k : Ctx) : Cls := ((s.thread? k.thread).map s.threadCls).getD .system

/-- Whether the gang of a context's thread is pre-empted. -/
def State.ctxOut (s : State) (k : Ctx) : Bool := (((s.thread? k.thread).bind s.gangOf?).map (·.preempted)).getD true

/-- An engine that has fallen idle takes the highest-ranked context of its core that waits with operations queued (08 R263). -/
def State.fillEngine (s : State) (c : CoreNo) (e : EngNo) : State :=
  let waiting := s.compute.ctxs.filter (fun k => k.2.core = c && k.2.engine.isNone && !k.2.queue.isEmpty && !s.ctxOut k.2)
  match sortBy (fun a b => (s.ctxCls a.2).above (s.ctxCls b.2)) waiting with
  | k :: _ => if s.engineIdle c e then (s.dropShadow c e).modCtx k.1 (fun x => { x with engine := some e, since := s.now }) else s
  | [] => s

/-- MM_CYCLE_0 (03 R97; 08 R263): an idle engine first takes a context that waits. -/
def execMmCycle0 (c : CoreNo) (e : EngNo) (s : State) : Host.Outcome State Fault Refusal := .next ((s.fillEngine c e).cycle0 c e)

/-- MM_RUN (06 R204): queued to the engine context of its handle. -/
def execMmRun (t : Nat) (s : State) : Host.Outcome State Fault Refusal := .next (s.issueMm t 0x0101 (fun _ s => s))

/-- MM_LOAD (06 R205): a load with nothing queued before it starts at once, even while an operation runs (03 R111). -/
def execMmLoad (t : Nat) (s : State) : Host.Outcome State Fault Refusal :=
  .next (s.issueMm t 0x0102 (fun k s =>
    match Tab.find s.compute.ctxs k with
    | some x =>
      match x.queue, x.engine with
      | [mm], some e =>
        if s.tileRoom x.core e mm then
          match s.mmFault k x mm with
          | some f => ((s.modCtx k (fun x => { x with queue := [] })).modThread t (fun th => th.landed mm.op)).fault t mm.pc f 0
          | none => ((s.modCtx k (fun x => { x with queue := [] })).reserveTile x.core e mm).startLoad k mm
        else s
      | _, _ => s
    | none => s))

/-- MM_EMIT (06 R205): queued to the context; its emission starts at its cycle 0. -/
def execMmEmit (t : Nat) (s : State) : Host.Outcome State Fault Refusal := .next (s.issueMm t 0x0103 (fun _ s => s))

/-! ## The last cycle. -/

/-- The E8 exponent of streamed vector b (03 R105). -/
def xExp (r : BitVec 256) (ex : List Byte) (b : Nat) : Int := if mmXblocked r then e8 (ex.getD b 128#8) else 0

/-- Results of a run added to the slots, the counts, or the lists (03 R93, R101, R105); with the saturations. -/
def Ctx.accumulate (x : Ctx) (r : BitVec 256) (xs ex allow : List Byte) (zp : Int) : Ctx × Nat :=
  if mmBinary r then
    if mmKeep r then
      ({ x with keep := (List.range (mmV r)).map (fun v => (v, keepList r x.active xs allow (Tab.at x.keep v []) v)) }, 0)
    else ({ x with counts := countsOf r x.active xs }, 0)
  else
    let go := fun (t : Tab Slot) =>
      (List.range (mmB r)).foldl (fun (a : Tab Slot × Nat) b =>
        let i := (mmSlotBase r + b) * slotResults (mmRow r) (mmLane r)
        let y := Tab.at a.1 i ⟨mmLane r, [], false⟩
        let z := slotAfter r x.active (xExp r ex b) (y.acc, y.sat) (tileResults r x.active xs zp b)
        (Tab.put a.1 i z.1, a.2 + z.2)) (t, 0)
    if mmRow r then
      let a := go x.row
      ({ x with row := a.1 }, a.2)
    else
      let a := go x.col
      ({ x with col := a.1 }, a.2)

/-- A unit that has read a word of its gang's bench memory that fails every read: the thread's job ends with TIER_FAILED (07 R240, 14 R463). -/
def State.benchFails (s : State) (t : Nat) (spans : List (Nat × Nat)) : State :=
  match s.thread? t with
  | some th => if spans.any (fun p => s.placeBad th (.win p.1) p.2) then s.endJob th.job .tierFailed else s
  | none => s

/-- A parity error in the stored words or the accumulator file that an operation used is a failed check of the job that owns the engine context (14 R461, R484). -/
def State.engineParity (s : State) (thread : Nat) (bad : Bool) : State :=
  match bad, s.thread? thread with
  | true, some th => s.checkFails th.job
  | _, _ => s

/-- MM_LAST_CYCLE: the drain holds every result; emission starts, or the reserved entry fills (03 R93, R98, R105 to R107, R112; 04 R131).
`stale` names streamed entries read before a store of another thread. R98 says when the streamed entries are read, and nothing says it of the exponents, the allow
bitmap and the zero-point entry: they are read at the last cycle (DESIGN CHOICE, log entry 68). -/
def execMmLastCycle (c : CoreNo) (e : EngEnd) (stale : List Nat) (s : State) : Host.Outcome State Fault Refusal :=
  match s.ctxOn c e.engine with
  | none => .next s
  | some (k, x) =>
    match x.running with
    | none => .next s
    | some (mm, due) =>
      let r := mm.rcd
      let read := (benchField mm.base 1024 (mmXLine r), mmXBytes r) :: ((if mmXblocked r then [(benchField mm.base 1024 (mmXexpLine r), mmB r)] else [])
        ++ (if mmAllowEn r then [(benchField mm.base 1024 (mmAllowLine r), ceilDiv (mmB r) 8)] else []))
      let s := (s.at_ due).benchFails mm.thread read
      let now := s.benchRead mm.thread (benchField mm.base 1024 (mmXLine r)) (mmXBytes r)
      let ex := if mmXblocked r then s.benchRead mm.thread (benchField mm.base 1024 (mmXexpLine r)) (mmB r) else []
      let allow := if mmAllowEn r then s.benchRead mm.thread (benchField mm.base 1024 (mmAllowLine r)) (ceilDiv (mmB r) 8) else []
      let zp := if mmZpEn r then (ScaleE.ofNat (leNat (s.benchRead mm.thread (benchField mm.base 8 (mmZpEntry r)) 8))).zp else 0
      let a := x.accumulate r (streamed mm.old now stale) ex allow zp
      let s := s.modCtx k (fun _ => { a.1 with running := none })
      let s := s.saturated c (((s.thread? mm.thread).map (·.job)).getD 0) a.2
      let s := if mmEmitAfter r then s.startEmission mm.thread k mm else s.fillTile c mm 0 0
      .next ((s.mmEnd k mm).engineParity mm.thread e.parityError).settleAll

/-- SHADOW_LOAD_COMPLETE: the first load in issue order writes all shadow words and the exponents and mark of a blocked tile (03 R88, R108 to R111). -/
def execShadowLoadComplete (c : CoreNo) (e : EngNo) (s : State) : Host.Outcome State Fault Refusal :=
  match s.ctxOn c e with
  | none => .next s
  | some (k, x) =>
    match x.loads with
    | [] => .next s
    | (mm, due) :: rest =>
      let r := mm.rcd
      let own := opcodeOf r = 0x0102
      let s := s.at_ due
      let off := benchField mm.base 1024 (if own then fld r 40 13 else mmNextLine r)
      let rot := if own then (fld r 53 5, fld r 58 5) else (fld r 129 5, fld r 134 5)
      let s := s.benchFails mm.thread [(off, 1024 * tileLines (mmSfmt r))]
      let tile := Tile.ofBytes (s.benchRead mm.thread off (1024 * tileLines (mmSfmt r))) (mmLane r) (mmSfmt r) rot.1 rot.2
      let s := s.modCtx k (fun x => { x with shadow := tile, loads := rest })
      let s := if own then s.fillTile c mm 0 0 else s
      .next (s.mmEnd k mm).settleAll

/-! ## Emission. -/

/-- The slot of a drain that an emission writes out as its i-th: the one whose accumulators these are. -/
def Ctx.slotOf (x : Ctx) (m : Emission) (i : Nat) : Option Slot :=
  (Tab.find (if m.row then x.row else x.col) ((m.slotBase + i) * m.results)).filter (fun y => y.acc.length = m.results)

/-- The slots an emission writes out, ascending; a slot nothing left is undefined. -/
def Ctx.emitted (x : Ctx) (m : Emission) : List (List Int) :=
  (List.range m.slotCount).map (fun i =>
    match x.slotOf m i with
    | some y => y.acc
    | none => (List.range m.results).map (freeAcc x.seed (m.slotBase + i)))

/-- An EMIT reports its tile maximum to its scale site, for the step its job is, and its entry becomes one the step boundary rewrites (05 R165). -/
def State.report (s : State) (th : Thread) (site off amax : Nat) : State :=
  let m := (s.job? th.job).bind (fun j => Tab.find s.compute.mods j.modh)
  match m with
  | none => s
  | some m =>
    s.modCompute (fun c => { c with sites := Tab.change c.sites (m.siteBase + site) (fun x =>
      { x with
        maxima := Tab.put x.maxima th.job (if (num32 (Tab.at x.maxima th.job 0#32).toNat).lt (num32 amax) then BitVec.ofNat 32 amax else Tab.at x.maxima th.job 0#32)
        entries := if (gangKey th.job th.gang + 1, off) ∈ x.entries then x.entries else (gangKey th.job th.gang + 1, off) :: x.entries }) })

/-- The largest |acc| of some slots, as the 32-bit value a record carries. -/
def maxAcc (slots : List (List Int)) : Nat := (slots.map (fun l => (l.map Int.natAbs).foldl max 0)).foldl max 0

/-- The effects of an emission of slots: its results, side output and rescued entry are written, its saturations, rescue and maximum counted and reported, and its entry of
finished tiles filled (03 R106; 04 R131; 05 R158, R165 to R172; 14 R474). -/
def State.emitted (s : State) (c : CoreNo) (th : Thread) (m : Emission) (d : EmitDesc) (o : Emitted) (x : Ctx) : State :=
  let t := m.mm.thread
  let s := s.benchWrite t d.dest o.bytes
  let s := if o.side.isEmpty then s else s.benchWrite t d.oside o.side
  let s := match o.entry with
    | some v => ((s.benchWrite t d.oentry (leBytes 8 v)).modCore c (fun y => { y with rescue := satAdd y.rescue 1 (2 ^ 48 - 1) })).modJob th.job (fun j => { j with rescues := j.rescues + 1 })
    | none => s
  let s := s.saturated c th.job o.sats
  let s := match o.amax with
    | some v => if d.site = 0xFFFF then s else s.report th d.site d.oentry v
    | none => s
  let s := s.fillTile c m.mm d.dest (d.stride m.results * m.slotCount)
  let sat := (List.range m.slotCount).any (fun i => ((x.slotOf m i).map (fun (y : Slot) => y.sat)).getD false)
  if sat ∧ s.plausMode ≠ 2 then s.implausible th.job c.val d.site (maxAcc (x.emitted m)) else s

/-- EMISSION_COMPLETE: the results, the outlier side output and a rescued entry are written, and the entry of finished tiles fills
(03 R106; 04 R131; 05 R165 to R172; 14 R474). The manual does not say when an emission reads its descriptor's tensors: it reads them as it completes (DESIGN CHOICE,
log entry 68). Its BYTES takes in the padding up to each slot's 32-byte boundary, of which the manual says nothing (DESIGN CHOICE, log entry 138). A parity error in the
accumulator file fails the job's check (14 R461). One that would write a line lent read-only faults instead, and has no effect (06 R188, R216; 07 R227). -/
def execEmissionComplete (c : CoreNo) (e : EngEnd) (s : State) : Host.Outcome State Fault Refusal :=
  match s.ctxOn c e.engine with
  | none => .next s
  | some (k, x) =>
    match x.emissions with
    | [] => .next s
    | m :: rest =>
      let t := m.mm.thread
      match s.thread? t with
      | none => .next s
      | some th =>
        let s := s.at_ m.due
        let rd := fun (off n : Nat) => s.benchRead t off n
        let d := EmitDesc.ofBytes (rd m.desc 64)
        let done := fun (s : State) => s.modCtx k (fun x => { x with emissions := rest })
        match m.binary with
        | some n =>
          let bs := fit n (if x.counts.isEmpty then x.keep.flatMap (fun (l : Nat × List W32) => fit 64 (l.2.flatMap (fun (w : W32) => leBytes 4 w.toNat)))
            else x.counts.flatMap (fun v => leBytes 2 v))
          let s := if s.pieceLocked t d.dest n then (done s).fault t m.mm.pc .address 0 else (done (s.benchWrite t d.dest bs)).fillTile c m.mm d.dest n
          .next ((s.mmEnd k m.mm).engineParity t e.parityError).settleAll
        | none =>
          let n := m.results
          let slots := x.emitted m
          let ent := ScaleE.ofNat (leNat (rd d.oentry 8))
          let a := if d.form = 2 then (List.range n).map (fun i => fieldAt (rd (d.ascale + 4 * i) 4) 0 4) else []
          let ol := if d.form = 2 ∧ d.outlEn then outliers (rd d.olist 128) else []
          let corr := if d.corrEn then some ((List.range n).map (fun i => signedOf 48 (leNat (rd (d.corr + 8 * i) 8)))) else none
          let o := emitSlots d ent a ol corr slots
          let s :=
            if [(d.dest, o.bytes.length), (d.oside, o.side.length), (d.oentry, if o.entry.isSome then 8 else 0)].any (fun p => s.pieceLocked t p.1 p.2) then
              (done s).fault t m.mm.pc .address 0
            else done (s.emitted c th m d o x)
          .next ((s.mmEnd k m.mm).engineParity t e.parityError).settleAll

end Sys2Proof.Machine
end

