-- ==== Sys2Proof/Machine/VectorOps.lean ====
section
/-! DEFINITION. The vector unit's data path: VX record fields (06 R207), operand forms (04 R119, R123), the operations element by element (04 R121, R122),
reductions (04 R124), compress and expand (04 R125, R126), and the checks of 04 R128, R130. -/

namespace Sys2Proof.Machine

/-! ## Fields of a VX record (06 R207). -/

def vxOp (r : BitVec 256) : Nat := fld r 0 8
/-- The lane format as a code of R202: FP32, FP16, BF16, INT32. -/
def vxLane (r : BitVec 256) : Nat := if fld r 32 2 = 3 then 8 else 11 + fld r 32 2
def vxRnd (r : BitVec 256) : Rnd := Rnd.ofCode (fld r 34 2)
def vxCond (r : BitVec 256) : Nat := fld r 36 3
def vxRed (r : BitVec 256) : Nat := fld r 39 2
def vxRows (r : BitVec 256) : Nat := fld r 63 17
def vxCregEn (r : BitVec 256) : Bool := flag r 93
def vxMaskEn (r : BitVec 256) : Bool := flag r 237
/-- FORM of source k, 0 for a, 1 for b, 2 for c. -/
def vxForm (r : BitVec 256) (k : Nat) : Nat := fld r (41 + 2 * k) 2
/-- Storage format of source k. -/
def vxFmt (r : BitVec 256) (k : Nat) : Nat := fld r (47 + 4 * k) 4
/-- Storage format of the destination. -/
def vxFmtD (r : BitVec 256) : Nat := fld r 59 4
/-- The address field of operand k, 3 for the destination. -/
def vxAddr (r : BitVec 256) (k : Nat) : Nat := fld r (99 + 18 * k) 18
/-- The row stride of operand k in bytes, 3 for the destination. -/
def vxStride (r : BitVec 256) (k : Nat) : Nat := 32 * fld r (171 + 12 * k) 12

/-- Operation codes of R207. -/
def vxAdd : Nat := 1
def vxMul : Nat := 2
def vxFma : Nat := 3
def vxCmp : Nat := 4
def vxSel : Nat := 5
def vxMin : Nat := 6
def vxMax : Nat := 7
def vxCompress : Nat := 8
def vxExpand : Nat := 9

/-- The sources an operation reads: a reduction, and COMPRESS, read a alone. -/
def vxSources (r : BitVec 256) : List Nat :=
  if vxRed r ≠ 0 || vxOp r = vxCompress then [0] else if vxOp r = vxFma then [0, 1, 2] else [0, 1]

/-- Bytes of an element of a storage format. -/
def fmtBytes (f : Nat) : Nat := fmtBits f / 8

/-- Storage formats of sources and of destinations (04 R119). -/
def srcFmt (f : Nat) : Bool := f ∈ [11, 12, 13, 8, 6, 7, 4, 5, 14]
def dstFmt (f : Nat) : Bool := f ∈ [11, 12, 13, 8, 6, 4]

/-- The mask's role: CMP, SEL, COMPRESS and EXPAND always have one (06 R207). -/
def vxNeedsMask (r : BitVec 256) : Bool := vxOp r ∈ [vxCmp, vxSel, vxCompress, vxExpand]
/-- Whether the mask is a predicate (04 R127). -/
def vxPredicated (r : BitVec 256) : Bool := vxMaskEn r && vxRed r = 0 && !vxNeedsMask r

/-! ## Checks on the record alone (04 R119, R123, R124, R130; 06 R207). -/

/-- Whether the record's fields are in range and unread ones zero. -/
def vxOk (r : BitVec 256) : Bool :=
  let op := vxOp r
  let used := vxSources r
  let c := fld r 80 13
  fld r 34 2 ≠ 3 && (if op = vxCmp then vxCond r ≤ 5 else vxCond r = 0)
    && (vxRed r = 0 || op ∈ [vxAdd, vxMin, vxMax])
    && (List.range 3).all (fun k =>
      if k ∈ used then
        srcFmt (vxFmt r k) && (vxForm r k = 0 || vxStride r k = 0)
          && (!(op = vxCompress || (op = vxExpand && k = 0)) || vxForm r k = 0)
          && (!(op = vxExpand && k = 1) || vxForm r k ∈ [0, 3]) && (!(op = vxExpand && k = 0) || vxStride r k = 0)
          && (vxForm r k ≠ 3 || vxAddr r k < 32)
      else vxForm r k = 0 && vxFmt r k = 0 && vxAddr r k = 0 && vxStride r k = 0)
    && (if op = vxCmp then vxFmtD r = 0 && vxAddr r 3 = 0 && vxStride r 3 = 0
        else if vxRed r ≠ 0 then vxFmtD r ∈ [11, 8] else dstFmt (vxFmtD r))
    && (vxRed r = 0 && op ≠ vxCompress || vxStride r 3 = 0) && (!vxNeedsMask r || vxMaskEn r) && (vxMaskEn r || fld r 219 18 = 0)
    && (op = vxCompress || fld r 238 5 = 0) && (vxCregEn r || fld r 94 5 = 0) && (!vxCregEn r || c = 0)
    && 1 ≤ vxRows r && vxRows r ≤ 65536 && (vxCregEn r || (1 ≤ c && c ≤ 4096 && vxRows r * c ≤ 65536)) && (bregEn r || bregOf r = 0)

/-! ## Places of operands. -/

/-- The bytes of operand k with C columns: its row starts and their length; EXPAND's packed source holds `packed` elements (log entry 35). The manual gives the row that COMPRESS
writes no length: it is taken for R × C elements long, whatever the mask holds (DESIGN CHOICE, log entry 139). -/
def vxSpans (r : BitVec 256) (base cols packed k : Nat) : List (Nat × Nat) :=
  let a := benchField base 32 (vxAddr r k)
  if k = 3 then
    let w := fmtBytes (vxFmtD r)
    if vxRed r = 1 then [(a, w)] else if vxRed r = 2 then [(a, w * vxRows r)] else if vxRed r = 3 then [(a, w * cols)]
    else if vxOp r = vxCompress then [(a, w * (vxRows r * cols))]
    else (List.range (vxRows r)).map (fun i => (a + i * vxStride r 3, w * cols))
  else
    let w := fmtBytes (vxFmt r k)
    match vxForm r k with
    | 0 =>
      if vxOp r = vxExpand ∧ k = 0 then [(a, w * packed)]
      else (List.range (vxRows r)).map (fun i => (a + i * vxStride r k, w * cols))
    | 1 => [(a, w * cols)]
    | 2 => [(a, w * vxRows r)]
    | _ => []

/-- The mask's bytes. -/
def vxMaskSpan (r : BitVec 256) (base cols : Nat) : List (Nat × Nat) :=
  if vxMaskEn r then [(benchField base 32 (fld r 219 18), ceilDiv (vxRows r * cols) 8)] else []

/-- Whether two lists of spans share a byte. -/
def spansMeet (a b : List (Nat × Nat)) : Bool := a.any (fun x => x.2 ≠ 0 && b.any (fun y => y.2 ≠ 0 && x.1 < y.1 + y.2 && y.1 < x.1 + x.2))

/-- Whether the destination and source k are one operand: same base, stride, shape and format (04 R128). Both are then the same runs of bytes; of a single row a stride says
nothing. -/
def vxSame (r : BitVec 256) (base cols packed k : Nat) : Bool :=
  vxOp r ≠ vxCmp && vxFmt r k = vxFmtD r && vxSpans r base cols packed k = vxSpans r base cols packed 3

/-- Every span an operation touches. -/
def vxAll (r : BitVec 256) (base cols packed : Nat) : List (Nat × Nat) :=
  (vxSources r).flatMap (vxSpans r base cols packed) ++ (if vxOp r = vxCmp then [] else vxSpans r base cols packed 3) ++ vxMaskSpan r base cols

/-- What is written: the destination, or the mask of CMP. -/
def vxWritten (r : BitVec 256) (base cols packed : Nat) : List (Nat × Nat) :=
  if vxOp r = vxCmp then vxMaskSpan r base cols else vxSpans r base cols packed 3

/-- The checks of R130 but for that of R126. -/
def vxFits (r : BitVec 256) (base cols packed allot : Nat) : Bool :=
  vxOk r && 1 ≤ cols && cols ≤ 4096 && vxRows r * cols ≤ 65536 && base % 32 = 0
    && (vxAll r base cols packed).all (fun s => s.1 + s.2 ≤ allot)
    && (vxSources r).all (fun k => !spansMeet (vxWritten r base cols packed) (vxSpans r base cols packed k) || vxSame r base cols packed k)
    && (vxOp r = vxCmp || !spansMeet (vxSpans r base cols packed 3) (vxMaskSpan r base cols))

/-! ## Elements. -/

/-- Reads a little-endian code of w bytes. -/
abbrev Reader := Nat → Nat → Nat

/-- The code of source k for result (i, j): its form picks the element (04 R123); the scalar operand's low bits. -/
def vxCode (r : BitVec 256) (rd : Reader) (base : Nat) (sc : List W64) (k i j : Nat) : Nat :=
  let w := fmtBytes (vxFmt r k)
  let a := benchField base 32 (vxAddr r k)
  match vxForm r k with
  | 0 => rd (a + i * vxStride r k + j * w) w
  | 1 => rd (a + j * w) w
  | 2 => rd (a + i * w) w
  | _ => (sc.getD k 0#64).toNat % 2 ^ (8 * w)

/-- The operations that copy: SEL, COMPRESS and EXPAND (04 R121, R122). -/
def vxCopies (r : BitVec 256) : Bool := vxOp r ∈ [vxSel, vxCompress, vxExpand]

/-- The exponent and fraction bits of the floating-point formats of R202. -/
def floatBits (f : Nat) : Option (Nat × Nat) := if f = 11 then some (8, 23) else if f = 12 then some (5, 10) else if f = 13 then some (8, 7) else none

/-- A conversion that copies a NaN with its sign and its payload, as far as the narrower format holds it, quietened if it was signalling (04 R122; 05 R154; log entry 65); every
other number is converted as `encodeFmt` does. -/
def copyFmt (f : Nat) (rnd : Rnd) (x : Num) : Nat × Bool :=
  match x, floatBits f with
  | .nan s n, some (eb, fb) =>
    let g := n / 2 ^ (23 - fb)
    (signCode eb fb s ((2 ^ eb - 1) * 2 ^ fb + (if bitOf g (fb - 1) then g else g + 2 ^ (fb - 1))), false)
  | _, _ => encodeFmt f rnd 0 x

/-- A conversion as an operation makes it on load and on store. -/
def vxConvert (r : BitVec 256) (f : Nat) (rnd : Rnd) (x : Num) : Nat × Bool := if vxCopies r then copyFmt f rnd x else encodeFmt f rnd 0 x

/-- A number converted to the lane format as it is loaded (04 R119). -/
def toLane (r : BitVec 256) (x : Num) : Num × Bool :=
  let y := vxConvert r (vxLane r) (vxRnd r).plain x
  (decodeFmt (vxLane r) y.1, y.2)

/-- A source element in the lane format, and whether its conversion saturated. -/
def vxLoad (r : BitVec 256) (rd : Reader) (base : Nat) (sc : List W64) (k i j : Nat) : Num × Bool :=
  toLane r (decodeFmt (vxFmt r k) (vxCode r rd base sc k i j))

/-- The lesser of two numbers: −0 below +0, a number before a NaN (04 R121, R122). -/
def minNum (a b : Num) : Num :=
  if a.isNan then (if b.isNan then a.quieten else b)
  else if b.isNan then a
  else if a.lt b then a else if b.lt a then b else if a.neg? then a else b

/-- The greater of two numbers: +0 above −0, a number before a NaN. -/
def maxNum (a b : Num) : Num :=
  if a.isNan then (if b.isNan then a.quieten else b)
  else if b.isNan then a
  else if b.lt a then a else if a.lt b then b else if a.neg? then b else a

/-- The condition of CMP; with a NaN only NE holds (04 R121, R122). -/
def cmpNum (cond : Nat) (a b : Num) : Bool :=
  if a.isNan || b.isNan then cond = 1
  else
    match cond with
    | 0 => a.eqv b
    | 1 => !a.eqv b
    | 2 => a.lt b
    | 3 => !b.lt a
    | 4 => b.lt a
    | _ => !a.lt b

/-- A computed result rounded and saturated to the lane format; a 16-bit lane computes in FP32 and rounds once more (04 R118, R121). -/
def laneRound (lane : Nat) (rnd : Rnd) (u : Nat) (x : Num) : Num × Bool :=
  let y := if lane = 12 || lane = 13 then encodeFmt lane rnd u (wide32 rnd.plain u x) else encodeFmt lane rnd u x
  (decodeFmt lane y.1, y.2)

/-- One result of an elementwise operation in the lane format; SEL copies (04 R121). -/
def vxCompute (r : BitVec 256) (rnd : Rnd) (u : Nat) (m : Bool) (a b c : Num) : Num × Bool :=
  let op := vxOp r
  if op = vxAdd then laneRound (vxLane r) rnd u (a.add b)
  else if op = vxMul then laneRound (vxLane r) rnd u (a.mul b)
  else if op = vxFma then laneRound (vxLane r) rnd u ((a.mul b).add c)
  else if op = vxMin then (minNum a b, false)
  else if op = vxMax then (maxNum a b, false)
  else (if m then a else b, false)

/-- A lane value stored in the destination format (04 R119). -/
def vxStore (r : BitVec 256) (rnd : Rnd) (x : Num) : List Byte × Bool :=
  let y := vxConvert r (vxFmtD r) rnd.plain x
  (leBytes (fmtBytes (vxFmtD r)) y.1, y.2)

/-! ## Reductions (04 R124). -/

/-- The largest finite value of a lane format, and the most negative one. -/
def laneMax (lane : Nat) : Num := if lane = 8 then .ofInt (intMax 32) else (decodeFmt lane (encodeFmt lane .even 0 (.fin false (2 ^ 200) 1)).1)
def laneMin (lane : Nat) : Num := if lane = 8 then .ofInt (intMin 32) else (laneMax lane).negate

/-- A sum in a free order: two partial sums, picked freely, are added and rounded until one is left (04 R124, 05 R148; log entry 4). -/
def sumAny (add : Nat → Num → Num → Num × Bool) : Nat → Nat → List Num → Nat → Num × Nat
  | 0, _, l, k => (l.headD .zero, k)
  | _ + 1, _, [], k => (.zero, k)
  | _ + 1, _, [x], k => (x, k)
  | fuel + 1, n, l, k =>
    let i := Config.pick n % l.length
    let a := l.getD i .zero
    let l := l.eraseIdx i
    let j := Config.pick (n + 1) % l.length
    let b := l.getD j .zero
    let y := add n a b
    sumAny add fuel (n + 2) (y.1 :: l.eraseIdx j) (k + bit y.2)

/-- A reduction of some lane values; with none, the value R124 gives. A sum of INT32 lanes is exact and saturates once (05 R156). -/
def vxReduce (r : BitVec 256) (rnd : Rnd) (ctr : Nat) (l : List Num) : Num × Nat :=
  let op := vxOp r
  let lane := vxLane r
  if op = vxAdd ∧ lane = 8 then
    let z := laneRound lane rnd.plain 0 (l.foldl Num.add .zero)
    (z.1, bit z.2)
  else if op = vxAdd then
    let y := sumAny (fun n a b => laneRound 11 rnd (Config.freeBits (n + 1) 16).toNat (a.add b)) l.length ctr l 0
    let z := laneRound lane rnd.plain 0 y.1
    (z.1, y.2 + bit z.2)
  else
    match l with
    | [] => (if op = vxMin then laneMax lane else laneMin lane, 0)
    | x :: xs => (xs.foldl (if op = vxMin then minNum else maxNum) x, 0)

/-! ## A whole operation. -/

/-- What an operation writes: runs of bytes at offsets, the COMPRESS count, saturations, and free values used. -/
structure VxDone where
  writes : List (Nat × List Byte)
  count : Option Nat
  sats : Nat
deriving DecidableEq, Repr, Inhabited

/-- Saturations of the broadcast operands, each converted once (04 R123). -/
def broadcastSats (r : BitVec 256) (rd : Reader) (base cols : Nat) (sc : List W64) : Nat :=
  ((vxSources r).map (fun k =>
    match vxForm r k with
    | 1 => ((List.range cols).filter (fun j => (vxLoad r rd base sc k 0 j).2)).length
    | 2 => ((List.range (vxRows r)).filter (fun i => (vxLoad r rd base sc k i 0).2)).length
    | 3 => bit (vxLoad r rd base sc k 0 0).2
    | _ => 0)).foldl (· + ·) 0

/-- Saturations of the tile operands of result (i, j). -/
def tileSats (r : BitVec 256) (rd : Reader) (base : Nat) (sc : List W64) (i j : Nat) : Nat :=
  ((vxSources r).map (fun k => if vxForm r k = 0 then bit (vxLoad r rd base sc k i j).2 else 0)).foldl (· + ·) 0

/-- Bit e of the mask (04 R120). -/
def maskBit (r : BitVec 256) (rd : Reader) (base e : Nat) : Bool := bitOf (rd (benchField base 32 (fld r 219 18) + e / 8) 1) (e % 8)

/-- The number of ones in the mask. -/
def maskOnes (r : BitVec 256) (rd : Reader) (base cols : Nat) : Nat := ((List.range (vxRows r * cols)).filter (maskBit r rd base)).length

/-- The place of destination element e (row-major). -/
def vxDest (r : BitVec 256) (base cols e : Nat) : Nat :=
  benchField base 32 (vxAddr r 3) + e / cols * vxStride r 3 + e % cols * fmtBytes (vxFmtD r)

/-- CMP: the mask's bits for the whole shape; other bits of its last byte stay (04 R121, R123). -/
def vxCompare (r : BitVec 256) (rd : Reader) (base cols : Nat) (sc : List W64) : VxDone :=
  let n := vxRows r * cols
  let m := benchField base 32 (fld r 219 18)
  let res := fun (e : Nat) => cmpNum (vxCond r) (vxLoad r rd base sc 0 (e / cols) (e % cols)).1 (vxLoad r rd base sc 1 (e / cols) (e % cols)).1
  let bytes := (List.range (ceilDiv n 8)).map (fun q =>
    BitVec.ofNat 8 ((List.range 8).foldl (fun a i =>
      a + 2 ^ i * bit (if 8 * q + i < n then res (8 * q + i) else bitOf (rd (m + q) 1) i)) 0))
  ⟨[(m, bytes)], none, broadcastSats r rd base cols sc
    + ((List.range n).map (fun e => tileSats r rd base sc (e / cols) (e % cols))).foldl (· + ·) 0⟩

/-- The elementwise operations, with their predicate (04 R121, R127). The manual does not say whether a result that saturates in its lane and again as it is stored counts once or
twice: once in an elementwise operation, twice in a reduction and in COMPRESS (DESIGN CHOICE, log entry 139). -/
def vxElementwise (r : BitVec 256) (rnd : Rnd) (ctr : Nat) (rd : Reader) (base cols : Nat) (sc : List W64) : VxDone :=
  let es := (List.range (vxRows r * cols)).filter (fun e => !vxPredicated r || maskBit r rd base e)
  let outs := es.map (fun e =>
    let i := e / cols
    let j := e % cols
    let v := fun (k : Nat) => (vxLoad r rd base sc k i j).1
    let y := vxCompute r rnd (Config.freeBits (ctr + e) 16).toNat (vxMaskEn r && maskBit r rd base e) (v 0) (v 1) (v 2)
    let z := vxStore r rnd y.1
    (vxDest r base cols e, z.1, bit (y.2 || z.2) + tileSats r rd base sc i j))
  ⟨outs.map (fun o => (o.1, o.2.1)), none, broadcastSats r rd base cols sc + (outs.map (·.2.2)).foldl (· + ·) 0⟩

/-- The reductions ALL, ROWS and COLS over the elements the mask lets take part (04 R124). -/
def vxReduction (r : BitVec 256) (rnd : Rnd) (ctr : Nat) (rd : Reader) (base cols : Nat) (sc : List W64) : VxDone :=
  let part := fun (i j : Nat) => !vxMaskEn r || maskBit r rd base (i * cols + j)
  let rows := List.range (vxRows r)
  let cs := List.range cols
  let groups : List (List (Nat × Nat)) :=
    if vxRed r = 1 then [rows.flatMap (fun i => cs.map (fun j => (i, j)))]
    else if vxRed r = 2 then rows.map (fun i => cs.map (fun j => (i, j)))
    else cs.map (fun j => rows.map (fun i => (i, j)))
  let groups := groups.map (fun g => g.filter (fun e => part e.1 e.2))
  let outs := groups.mapIdx (fun g es =>
    let y := vxReduce r rnd (ctr + 200000 * g) (es.map (fun e => (vxLoad r rd base sc 0 e.1 e.2).1))
    let z := vxStore r rnd y.1
    (z.1, y.2 + bit z.2 + (es.map (fun e => tileSats r rd base sc e.1 e.2)).foldl (· + ·) 0))
  ⟨[(benchField base 32 (vxAddr r 3), outs.flatMap (·.1))], none, broadcastSats r rd base cols sc + (outs.map (·.2)).foldl (· + ·) 0⟩

/-- COMPRESS: the elements whose bit is 1, in order, and their number (04 R125). -/
def vxPack (r : BitVec 256) (rnd : Rnd) (rd : Reader) (base cols : Nat) (sc : List W64) : VxDone :=
  let es := (List.range (vxRows r * cols)).filter (maskBit r rd base)
  let outs := es.map (fun e =>
    let v := vxLoad r rd base sc 0 (e / cols) (e % cols)
    let z := vxStore r rnd v.1
    (z.1, bit v.2 + bit z.2))
  ⟨[(benchField base 32 (vxAddr r 3), outs.flatMap (·.1))], some es.length, (outs.map (·.2)).foldl (· + ·) 0⟩

/-- EXPAND: each element whose bit is 1 takes the next one of a, every other its own of the fill (04 R126). -/
def vxSpread (r : BitVec 256) (rnd : Rnd) (rd : Reader) (base cols : Nat) (sc : List W64) : VxDone :=
  let w := fmtBytes (vxFmt r 0)
  let a := benchField base 32 (vxAddr r 0)
  let outs := (List.range (vxRows r * cols)).foldl (fun (acc : List (Nat × List Byte × Nat) × Nat) e =>
    let on := maskBit r rd base e
    let v := if on then toLane r (decodeFmt (vxFmt r 0) (rd (a + acc.2 * w) w)) else vxLoad r rd base sc 1 (e / cols) (e % cols)
    let z := vxStore r rnd v.1
    (acc.1 ++ [(vxDest r base cols e, z.1, (if on || vxForm r 1 = 0 then bit v.2 else 0) + bit z.2)], if on then acc.2 + 1 else acc.2)) ([], 0)
  ⟨outs.1.map (fun o => (o.1, o.2.1)), none,
    (outs.1.map (·.2.2)).foldl (· + ·) 0 + (if vxForm r 1 = 3 then bit (vxLoad r rd base sc 1 0 0).2 else 0)⟩

/-- What a VX operation does (04 R121 to R127). -/
def vxRun (r : BitVec 256) (rnd : Rnd) (ctr : Nat) (rd : Reader) (base cols : Nat) (sc : List W64) : VxDone :=
  if vxOp r = vxCmp then vxCompare r rd base cols sc
  else if vxOp r = vxCompress then vxPack r rnd rd base cols sc
  else if vxOp r = vxExpand then vxSpread r rnd rd base cols sc
  else if vxRed r ≠ 0 then vxReduction r rnd ctr rd base cols sc
  else vxElementwise r rnd ctr rd base cols sc

/-- Array cycles an operation takes, with free bank cycles (04 R129). -/
def vxCycles (r : BitVec 256) (cols : Nat) : Nat :=
  let strips := if vxLane r = 12 || vxLane r = 13 then 2 else 1
  12 + ceilDiv (vxRows r * ceilDiv cols 64) strips + (if vxRed r ≠ 0 then 6 else 0)
    + (if vxOp r = vxExpand then ceilDiv (vxRows r * cols) 2048 else 0)

end Sys2Proof.Machine
end

