-- ==== Sys2Proof/Machine/Vector.lean ====
section
/-! DEFINITION. The vector unit's commands: removal from the queues of finished tiles, issue of VX operations, their choice and completion
(04 R129 to R134; 06 R185, R207). -/

namespace Sys2Proof.Machine

/-- Free values one VX operation may use. -/
def vxSeeds : Nat := 2 ^ 36

/-- A reader of the bench memory of a thread's gang. -/
def State.reader (s : State) (t : Nat) : Reader := fun off w => leNat (s.benchRead t off w)

/-- Whether an adaptation job that trains, and so has a master-weight region, is in progress (10 R336, 13 R450). -/
def State.training (s : State) : Bool := match s.serv.adapt with
  | some a => a.state = 1 && a.kind ≠ 4
  | none => false

/-- Whether a record of a module rounds stochastically: ADD of index-build work, and ADD and FMA of adaptation work into the master weights, in FP32
lanes to FP32 (05 R160). -/
def vxStochastic (ident : W64) (master : Bool) (r : BitVec 256) : Bool :=
  vxLane r = 11 && vxFmtD r = 11
    && ((Config.indexTraffic ident && vxOp r = vxAdd)
      || (Config.adaptTraffic ident && master && (vxOp r = vxAdd || vxOp r = vxFma)))

/-- Whether every element of a destination is one of the master-weight region of the adaptation that trains: its bytes were moved there from that region (05 R160; log entry 36). -/
def State.masterDest (s : State) (t : Nat) (r : BitVec 256) (base cols : Nat) : Bool :=
  s.training && (((s.thread? t).bind s.gangOf?).map (fun g => (vxSpans r base cols 0 3).all (fun p => p.1 + p.2 ≤ reach g.masters g.masters.length p.1))).getD false

/-- The rounding a job's operation takes: code 0b10 rounds to nearest even but where R160 lets it be stochastic. -/
def State.vxRounding (s : State) (t : Nat) (r : BitVec 256) (base cols : Nat) : Rnd :=
  let m := ((s.thread? t).bind (fun th => s.job? th.job)).bind (fun j => Tab.find s.compute.mods j.modh)
  if (m.map (fun m => vxStochastic m.ident (s.masterDest t r base cols) r)).getD false then vxRnd r else (vxRnd r).plain

/-- The column count: COLS, or the register C_REG names, read at issue (06 R207). -/
def vxCols (th : Thread) (r : BitVec 256) : Nat := if vxCregEn r then (th.reg (fld r 94 5)).toNat else fld r 80 13

/-- The fault the unit finds before an operation starts (04 R126, R128, R130; 07 R227). -/
def State.vxFault (s : State) (u : UnitOp) : Option FaultCode :=
  let r := u.rcd
  let lim := ((s.thread? u.thread).map s.allotOf).getD 0
  let ones := if vxOp r = vxExpand then maskOnes r (s.reader u.thread) u.base u.count else 0
  if !vxFits r u.base u.count ones lim then some .operand
  else if (vxWritten r u.base u.count ones).any (fun p => s.pieceLocked u.thread p.1 p.2) then some .address
  else none

/-- Whether an operation waiting at a unit may be taken: its job runs and its gang is in place. -/
def State.mayTake (s : State) (u : UnitOp) : Bool :=
  match s.thread? u.thread with
  | some th => s.jobRuns th.job && ((s.gangOf? th).map (fun g => !g.preempted)).getD false
  | none => false

/-- The effective class of a waiting operation (04 R133). -/
def State.unitCls (s : State) (u : UnitOp) : Cls := ((s.thread? u.thread).map s.threadCls).getD .system

/-- The operation a unit takes next: the highest class, then `before` (04 R133, R146). -/
def State.chooseUnit (s : State) (before : UnitOp → UnitOp → Bool) (l : List UnitOp) : Option UnitOp :=
  (l.filter s.mayTake).foldl (fun best u =>
    match best with
    | none => some u
    | some b => if (s.unitCls u).above (s.unitCls b) || (s.unitCls u = s.unitCls b && before u b) then some u else best) none

/-- Round-robin from the source served last, the oldest within a source (04 R133). -/
def vxBefore (last : Nat) (a b : UnitOp) : Bool :=
  let k := fun (u : UnitOp) => (u.source + 9 - (last + 1) % 9) % 9
  k a < k b || (k a = k b && a.order < b.order)

/-- An operation of a unit has ended or never starts: it leaves flight and its handle settles (06 R185, R190). -/
def State.unitEnd (s : State) (u : UnitOp) : State :=
  s.modThread u.thread (fun th => let th := th.landed u.op
                                  if setH u.rcd then th.settled (handleOf u.rcd) else th)

/-- The vector unit, if idle, takes the next eligible operation; one that fails its checks faults instead (04 R130, R133). -/
def State.vxTake (s : State) (c : CoreNo) : State :=
  let x := s.core c
  if x.vxRun.isSome then s
  else
    match s.chooseUnit (vxBefore x.vxLast) x.vxWait with
    | none => s
    | some u =>
      let s := s.modCore c (fun x => { x with vxWait := x.vxWait.filter (fun v => v.op ≠ u.op) })
      match s.vxFault u with
      | some f => (s.unitEnd u).fault u.thread u.pc f 0
      | none => (s.chargeVx c u.thread (vxCycles u.rcd u.count)).modCore c (fun x => { x with vxRun := some (u, s.now + vxCycles u.rcd u.count * arrayUnits), vxLast := u.source })

/-- The core a thread's gang is on. -/
def State.coreOf (s : State) (t : Nat) : Option CoreNo := ((s.thread? t).bind s.gangOf?).map (·.core)

/-- The ranges a VX operation touches (06 R190). -/
def vxRanges (th : Thread) (r : BitVec 256) : List Range :=
  (vxAll r (bregBase th r) (vxCols th r) (vxRows r * vxCols th r)).map (fun p => ⟨winAddr p.1, p.2⟩)

/-- The source of a VX operation: the engine of the entry last removed for its first handle, or the direct one (04 R133, 06 R185). -/
def vxSource (th : Thread) (r : BitVec 256) : Nat :=
  match (maskHandles (waitMask r)).head? with
  | some h => (((th.handle h).engine).map (·.val)).getD 8
  | none => 8

/-- A VX operation is issued: it waits at its core's vector unit, which takes it if idle (06 R185, R207). -/
def State.queueVx (s : State) (t pc : Nat) (th : Thread) (r : BitVec 256) : State :=
  match s.coreOf t with
  | none => s
  | some c =>
    let sc := (List.range 3).map (fun k => if vxForm r k = 3 then th.reg (vxAddr r k % 32) else 0#64)
    let u : UnitOp := ⟨t, s.compute.nextIdent, pc, r, bregBase th r, vxCols th r, sc, vxSource th r, s.compute.arrivals⟩
    let s := (s.modThread t (fun x => x.setting r .unit)).fly t (vxRanges th r)
    let s := s.modCompute (fun k => { k with arrivals := k.arrivals + 1 })
    (s.modCore c (fun x => { x with vxWait := x.vxWait ++ [u] })).vxTake c

/-- Issue of a VX operation. -/
def State.issueVx (s : State) (t op : Nat) : State :=
  s.issue t op vxRanges noCheck (fun th r s => s.queueVx t th.pc th r)

/-- ADD (04 R121, R124). -/
def execAdd (t : Nat) (s : State) : Host.Outcome State Fault Refusal := .next (s.issueVx t 0x0201)
/-- MUL (04 R121). -/
def execMul (t : Nat) (s : State) : Host.Outcome State Fault Refusal := .next (s.issueVx t 0x0202)
/-- FMA (04 R121). -/
def execFma (t : Nat) (s : State) : Host.Outcome State Fault Refusal := .next (s.issueVx t 0x0203)
/-- CMP (04 R121, R122). -/
def execCmp (t : Nat) (s : State) : Host.Outcome State Fault Refusal := .next (s.issueVx t 0x0204)
/-- SEL (04 R121). -/
def execSel (t : Nat) (s : State) : Host.Outcome State Fault Refusal := .next (s.issueVx t 0x0205)
/-- MIN (04 R121, R122, R124). -/
def execMin (t : Nat) (s : State) : Host.Outcome State Fault Refusal := .next (s.issueVx t 0x0206)
/-- MAX (04 R121, R122, R124). -/
def execMax (t : Nat) (s : State) : Host.Outcome State Fault Refusal := .next (s.issueVx t 0x0207)
/-- COMPRESS (04 R125). -/
def execCompress (t : Nat) (s : State) : Host.Outcome State Fault Refusal := .next (s.issueVx t 0x0208)
/-- EXPAND (04 R126). -/
def execExpand (t : Nat) (s : State) : Host.Outcome State Fault Refusal := .next (s.issueVx t 0x0209)

/-- The writes, count and saturations of a finished VX operation (04 R125, 05 R158). The manual does not say when the register of the COMPRESS count changes: as the operation
completes (DESIGN CHOICE, log entry 139). -/
def State.vxApply (s : State) (c : CoreNo) (u : UnitOp) (d : VxDone) : State :=
  let s := d.writes.foldl (fun s w => s.benchWrite u.thread w.1 w.2) s
  let s := match d.count with
    | some n => s.modThread u.thread (fun th => th.setReg (fld u.rcd 238 5) (BitVec.ofNat 64 n))
    | none => s
  s.saturated c (((s.thread? u.thread).map (·.job)).getD 0) d.sats

/-- VX_COMPLETE: the operation's results are written, and the unit takes its next one (04 R121 to R129, R133). One whose destination has a line lent read-only since it started
faults instead (06 R188; 07 R227). -/
def execVxComplete (c : CoreNo) (s : State) : Host.Outcome State Fault Refusal :=
  match (s.core c).vxRun with
  | none => .next (s.vxTake c)
  | some (u, due) =>
    let s := s.at_ due
    let d := vxRun u.rcd (s.vxRounding u.thread u.rcd u.base u.count) s.freeCtr (s.reader u.thread) u.base u.count u.scalars
    let read := (vxSources u.rcd).flatMap (vxSpans u.rcd u.base u.count (vxRows u.rcd * u.count)) ++ (if vxOp u.rcd = vxCmp then [] else vxMaskSpan u.rcd u.base u.count)
    let s := s.benchFails u.thread read
    let s := if d.writes.any (fun w => s.pieceLocked u.thread w.1 w.2.length) then s.fault u.thread u.pc .address 0 else (s.vxApply c u d).spend vxSeeds
    let s := (s.modCore c (fun x => { x with vxRun := none })).unitEnd u
    .next (s.settleAll.vxTake c)

/-- TILE_QUEUE_REMOVE: in round-robin order of engine, one filled entry leaves its queue and its thread's handle settles (04 R132, 06 R185). -/
def execTileQueueRemove (c : CoreNo) (s : State) : Host.Outcome State Fault Refusal :=
  let x := s.core c
  let order := (List.range 8).map (fun i => (x.rrQueue + i) % 8)
  match order.findSome? (fun e => ((Tab.at x.queues e []).find? (·.filled)).map (fun q => (e, q))) with
  | none => .next s
  | some (e, q) =>
    let s := s.setCore c { x with
      queues := Tab.change x.queues e (fun l => l.filter (fun y => y.op ≠ q.op))
      rrQueue := (e + 1) % 8 }
    let s := s.modThread q.thread (fun th =>
      (th.settled q.handle).modHandle q.handle (fun h => { h with engine := some ⟨e % 8, Nat.mod_lt _ (by decide)⟩ }))
    .next s

end Sys2Proof.Machine
end

