-- ==== Sys2Proof/Machine/SelectOps.lean ====
section
/-! DEFINITION. Selection (04 R136 to R147): elements, their ranking, duplicate removal, the two sums, the result, and the fields of SL_SELECT (06 R208).
Searches and top-K collectives select through the same definition. -/

namespace Sys2Proof.Machine

/-- An input element: its 32-bit value, index, 31-bit tag, and whether it holds a value (04 R136, R137). -/
structure SelEl where
  value : Nat
  index : Nat
  tag : Nat
  held : Bool
  pos : Nat
deriving DecidableEq, Repr, Inhabited

/-- A value's number: INT32 or FP32. -/
def selNum (int : Bool) (v : Nat) : Num := if int then .ofInt (signedOf 32 v) else num32 v

/-- Whether an element is a NaN that counts: one that holds a value (04 R137). -/
def SelEl.isNan (e : SelEl) (int : Bool) : Bool := e.held && !int && (num32 e.value).isNan

/-- Whether an element is valid (04 R137). -/
def SelEl.valid (e : SelEl) (int : Bool) : Bool := e.held && !e.isNan int

/-- The ranking of valid elements: larger value, smaller index, earlier position (04 R138). -/
def SelEl.before (int : Bool) (a b : SelEl) : Bool :=
  let x := selNum int a.value
  let y := selNum int b.value
  y.lt x || (!x.lt y && (a.index < b.index || (a.index = b.index && a.pos < b.pos)))

/-- What a selection gives (04 R139 to R142). -/
structure Selected where
  k : Nat
  sel : List SelEl
  rest : List SelEl
  nans : Nat
  dups : Nat
  valids : Nat
deriving DecidableEq, Repr, Inhabited

/-- The first copy of each index of a ranked list (04 R139). -/
def firstCopies (l : List SelEl) : List SelEl :=
  l.foldl (fun acc e => if acc.any (fun x => x.index = e.index) then acc else acc ++ [e]) []

/-- What a selection of `sel` from some elements gives: copies of what is selected are removed, the rest is summed (04 R137, R139, R140). -/
def selectedOf (int dedup : Bool) (k : Nat) (els sel : List SelEl) : Selected :=
  let ranked := sortBy (SelEl.before int) (els.filter (fun e => e.valid int))
  let gone := fun (e : SelEl) => dedup && sel.any (fun x => x.index = e.index)
  let others := ranked.filter (fun e => !sel.any (fun x => x.pos = e.pos))
  ⟨k, sel, others.filter (fun e => !gone e), (els.filter (fun e => e.isNan int)).length, (others.filter gone).length, ranked.length⟩

/-- The selection of K elements: the first in order, or the first copies of their indices (04 R137 to R140). -/
def selectK (int dedup : Bool) (k : Nat) (els : List SelEl) : Selected :=
  let ranked := sortBy (SelEl.before int) (els.filter (fun e => e.valid int))
  selectedOf int dedup k els ((if dedup then firstCopies ranked else ranked).take k)

/-- The sum of some values: an exact INT64, or an exact sum rounded once to FP32 (04 R140; log entry 37). -/
def selSum (int : Bool) (rnd : Rnd) (l : List SelEl) : Nat :=
  if int then wrapTo 64 ((l.map (fun e => signedOf 32 e.value)).foldl (· + ·) 0)
  else fp32 rnd.plain ((l.map (fun e => num32 e.value)).foldl Num.add .zero)

/-- Whether such a sum saturates: an FP32 one that overflows (05 R157, R158). -/
def selSumSat (int : Bool) (rnd : Rnd) (l : List SelEl) : Bool := !int && (encodeFmt 11 rnd.plain 0 ((l.map (fun e => num32 e.value)).foldl Num.add .zero)).2

/-- The saturations of a selection's two sums (05 R158). -/
def Selected.sats (x : Selected) (int : Bool) (rnd : Rnd) : Nat := bit (selSumSat int rnd x.sel) + bit (selSumSat int rnd x.rest)

/-- SHORT_RESULT and DEDUP_SHORT as bits 0 and 1 (04 R141, R142). -/
def Selected.flags (x : Selected) : Nat :=
  if x.valids < x.k then flagShortResult else if x.sel.length < x.k then flagDedupShort else 0

/-- A result entry (04 R143). -/
def SelEl.entry (e : SelEl) : List Byte := leBytes 4 e.value ++ leBytes 4 (e.tag % 2 ^ 31 + 2 ^ 31) ++ leBytes 8 e.index

/-- The header of a result (04 R142). -/
def Selected.header (x : Selected) (int : Bool) (rnd : Rnd) : List Byte :=
  blockOf 64 [(0, 2, x.k), (2, 2, x.sel.length), (4, 2, x.flags), (8, 4, x.nans), (0x0C, 4, x.dups), (0x10, 8, x.valids), (0x18, 8, x.rest.length),
    (0x20, 8, selSum int rnd x.sel), (0x28, 8, selSum int rnd x.rest), (0x30, 4, (x.sel.getLast?.map (·.value)).getD 0)]

/-- The whole result: the header and K entries, those past SELECTED all zeros (04 R142). -/
def Selected.bytes (x : Selected) (int : Bool) (rnd : Rnd) : List Byte :=
  x.header int rnd ++ x.sel.flatMap SelEl.entry ++ zeros (16 * (x.k - x.sel.length))

/-- An element from a 16-byte entry (04 R143). -/
def SelEl.ofEntry (b : List Byte) (pos : Nat) : SelEl :=
  ⟨fieldAt b 0 4, fieldAt b 8 8, fieldAt b 4 4 % 2 ^ 31, bitOf (fieldAt b 4 4) 31, pos⟩

/-! ## Fields of SL_SELECT (06 R208). -/

def slMode (r : BitVec 256) : Nat := fld r 32 2
def slVfmt (r : BitVec 256) : Nat := fld r 34 4
def slK (r : BitVec 256) : Nat := fld r 38 13
def slDedup (r : BitVec 256) : Bool := flag r 51
def slRnd (r : BitVec 256) : Rnd := Rnd.ofCode (fld r 52 2)
def slCount (r : BitVec 256) : Nat := fld r 72 25
def slTagEn (r : BitVec 256) : Bool := flag r 102
def slVmaskEn (r : BitVec 256) : Bool := flag r 121
def slIn (r : BitVec 256) (base : Nat) : Nat := benchField base 32 (fld r 54 18)
def slTag (r : BitVec 256) (base : Nat) : Nat := benchField base 32 (fld r 103 18)
def slVmask (r : BitVec 256) (base : Nat) : Nat := benchField base 32 (fld r 122 18)
def slRes (r : BitVec 256) (base : Nat) : Nat := benchField base 32 (fld r 140 18)
/-- Whether the values are INT32: integer formats, and agreements (04 R136). -/
def slInt (r : BitVec 256) : Bool := slMode r = 2 || slVfmt r ∈ [8, 6, 7]

/-- The record's checks (04 R136, R146; 06 R208). -/
def slOk (r : BitVec 256) : Bool :=
  1 ≤ slK r && slK r ≤ 4096 && fld r 52 2 ≠ 3 && (bregEn r || bregOf r = 0)
    && (match slMode r with
      | 0 => slVfmt r ∈ [11, 12, 13, 8, 6, 7] && slCount r ≤ 16777216 && (slTagEn r || fld r 103 18 = 0) && (slVmaskEn r || fld r 122 18 = 0)
      | 1 => slVfmt r ∈ [11, 8] && 1 ≤ slCount r && slCount r ≤ 64 && fld r 97 5 = 0 && fld r 102 38 = 0
      | 2 => slVfmt r = 0 && slCount r ≤ 1048576 && fld r 102 38 = 0
      | _ => false)

/-- The lists of a LIST operation: base and entries (06 R208). -/
def slLists (r : BitVec 256) (rd : Reader) (base : Nat) : List (Nat × Nat) :=
  (List.range (slCount r)).map (fun i => (rd (slIn r base + 8 * i) 4, rd (slIn r base + 8 * i + 4) 4))

/-- Bytes of input (04 R145): elements with their tags, entries of 4 or of 16 bytes. -/
def slBytes (r : BitVec 256) (rd : Reader) (base : Nat) : Nat :=
  match slMode r with
  | 0 => slCount r * (fmtBytes (slVfmt r) + (if slTagEn r then 4 else 0))
  | 1 => 16 * ((slLists r rd base).map (·.2)).foldl (· + ·) 0
  | _ => 4 * slCount r

/-- The input's spans. -/
def slInputs (r : BitVec 256) (rd : Reader) (base : Nat) : List (Nat × Nat) :=
  match slMode r with
  | 0 => (slIn r base, slCount r * fmtBytes (slVfmt r)) :: ((if slTagEn r then [(slTag r base, 4 * slCount r)] else [])
      ++ (if slVmaskEn r then [(slVmask r base, ceilDiv (slCount r) 8)] else []))
  | 1 => (slIn r base, 8 * slCount r) :: (slLists r rd base).map (fun l => (l.1, 16 * l.2))
  | _ => [(slIn r base, 4 * slCount r)]

/-- The result's span. -/
def slResult (r : BitVec 256) (base : Nat) : Nat × Nat := (slRes r base, 64 + 16 * slK r)

/-- The input elements in order (04 R136). -/
def slElems (r : BitVec 256) (rd : Reader) (base ibase : Nat) : List SelEl :=
  match slMode r with
  | 0 =>
    (List.range (slCount r)).map (fun i =>
      let f := slVfmt r
      let x := decodeFmt f (rd (slIn r base + i * fmtBytes f) (fmtBytes f))
      let v := if slInt r then (encodeFmt 8 .even 0 x).1 else (encodeFmt 11 .even 0 x).1
      ⟨v, ibase + i, if slTagEn r then rd (slTag r base + 4 * i) 4 % 2 ^ 31 else 0,
        !slVmaskEn r || bitOf (rd (slVmask r base + i / 8) 1) (i % 8), i⟩)
  | 1 =>
    ((slLists r rd base).flatMap (fun l => (List.range l.2).map (fun i => l.1 + 16 * i))).mapIdx (fun pos a => SelEl.ofEntry (leBytes 16 (rd a 16)) pos)
  | _ =>
    (List.range (slCount r)).map (fun i =>
      let w := rd (slIn r base + 4 * i) 4
      ⟨w % 1024, ibase + bitsOf w 10 21, 0, bitOf w 31, i⟩)

/-- The largest index an operation would give (04 R146). The manual does not say whether entries that hold no value count: every entry of the input does (DESIGN CHOICE, log
entry 139). -/
def slTop (r : BitVec 256) (rd : Reader) (base ibase : Nat) : Nat :=
  if slMode r = 1 then 0 else ((slElems r rd base ibase).map (·.index)).foldl max 0

/-- The checks of R146. -/
def slFits (r : BitVec 256) (rd : Reader) (base ibase allot : Nat) : Bool :=
  slOk r && base % 32 = 0
    && (slInputs r rd base).all (fun s => s.1 % 32 = 0 && s.1 + s.2 ≤ allot)
    && (slResult r base).1 + (slResult r base).2 ≤ allot
    && !spansMeet [slResult r base] (slInputs r rd base)
    && (slMode r ≠ 1 || ((slLists r rd base).map (·.2)).foldl (· + ·) 0 ≤ 65536)
    && slTop r rd base ibase < 2 ^ 64

/-- Passes of at most 64 entries (04 R144). -/
def slPasses (r : BitVec 256) : Nat := ceilDiv (slK r) 64
/-- Array cycles of what is left of one pass after some bytes of its input (04 R145). -/
def slPassCycles (r : BitVec 256) (rd : Reader) (base done : Nat) : Nat := ceilDiv (slBytes r rd base - done) 256 + 48

/-- Where within a pass a running selection stops for a pre-emption: the next multiple of 262,144 bytes of input read, if the pass goes that far (04 R145). -/
def slCut (bytes done left : Nat) : Option Nat :=
  let read := min bytes (done + 256 * (ceilDiv (bytes - done) 256 + 48 - left))
  let stop := ceilDiv read 262144 * 262144
  if stop < bytes then some stop else none

end Sys2Proof.Machine
end

