-- ==== Sys2Proof/Machine/Collect.lean ====
section
/-! DEFINITION. Span membership, digests, streams, and collectives (11 R355 to R371): what a member does with its own instances. -/

namespace Sys2Proof.Machine

/-! ## Members and groups (11 R357 to R362). -/

/-- The modules of a mask, in ascending order. -/
def modulesOf (m : BitVec 128) : List Nat := (List.range 128).filter (fun i => m.getLsbD i)

/-- The members of a group of the descriptor in force: group 0 is every member (11 R358). -/
def State.groupMembers (s : State) (g : Nat) : List Nat :=
  match s.span.desc with
  | none => []
  | some d => if s.span.member ≠ .joined then [] else if g = 0 then modulesOf d.members else modulesOf (d.groups.getD (g - 1) 0#128)

/-- Whether the module is Joined, the group exists and includes this module (11 R365, 13 R434). -/
def State.groupOk (s : State) (g : Nat) : Bool := s.moduleNumber ∈ s.groupMembers g

/-- This module's view of a member; a member never heard is Absent (11 R360). -/
def State.viewOf (s : State) (m : Nat) : View :=
  match s.span.desc with
  | none => .notMember
  | some d =>
    if s.span.member = .alone ∨ !d.members.getLsbD m then .notMember
    else if m = s.moduleNumber then .joined
    else (Tab.find s.span.members m).elim .absent (·.view)

/-- The lowest member of a group that is Lost or Absent (11 R370). -/
def State.groupGap (s : State) (g : Nat) : Option Nat := (s.groupMembers g).find? (fun m => s.viewOf m = .lost || s.viewOf m = .absent)

/-- The leader of a group: its lowest-numbered member (11 R363). -/
def State.leaderOf (s : State) (g : Nat) : Nat := (s.groupMembers g).headD 0

/-- The digest of a descriptor, taken without SHELF, which differs from shelf to shelf (11 R360; log entry 26). -/
def SpanDesc.digest (d : SpanDesc) : List Byte := shake256 (putAt d.raw 0x0B [0#8]) 32

/-- The configuration digest (11 R362). -/
def State.cfgDigest (s : State) : List Byte :=
  let slot := if s.sec.activeB then s.sec.slotB else s.sec.slotA
  let ids := (s.serv.models.filter (fun e => e.2.loaded)).map (·.1)
  shake256 (leBytes 8 slot.version.toNat ++ leBytes 8 slot.build.toNat ++ Config.jigPartition ++ leBytes 8 s.items.label.toNat
    ++ leBytes 2 ids.length ++ zeros 6 ++ ids.flatMap (leBytes 8)) 32

/-! ## Streams (11 R355, 08 R270). -/

/-- A stream changed. -/
def State.modStream (s : State) (k : Nat) (f : TStream → TStream) : State := s.modSpan (fun x => { x with streams := Tab.change x.streams k f })

/-- The stream's packet for some bytes at an offset. A read request names its length in AUX, its answer the request's stream; a collective's part names its instance's key, and
in AUX the bytes of the whole part (11 R354; log entry 27). -/
def State.streamPacket (s : State) (k : Nat) (x : TStream) (off : Nat) (bs : List Byte) : Packet :=
  if x.ptype = 6 then s.packet x.peer x.ptype k x.nextSeq x.addr x.len bs
  else if x.ptype = 10 then s.packet x.peer x.ptype k x.nextSeq off (leNat bs) []
  else if x.ptype = 11 then s.packet x.peer x.ptype k x.nextSeq off x.addr bs
  else s.packet x.peer x.ptype k x.nextSeq (x.addr + off) 0 bs

/-- An instance's key as the number its packets carry. -/
def keyNum : InstKey → Nat
  | .job g n => g * 2 ^ 32 + n
  | .service g n => 2 ^ 56 + g * 2 ^ 32 + n
  | .search c q => 2 ^ 57 + c * 2 ^ 32 + q

/-- The thread a stream works for: that of its tier request, or of the CL instance whose data it carries. -/
def State.streamThread (s : State) (x : TStream) : Option Nat :=
  match x.req with
  | some r => (Tab.find s.tiers.reqs r).map (·.thread)
  | none => if x.ptype = 6 then (s.span.insts.find? (fun i => keyNum i.key = x.addr)).bind (·.thread) else none

/-- Whether a thread's gang is pre-empted. -/
def State.threadOut (s : State) (t : Option Nat) : Bool := ((t.bind s.thread?).bind s.gangOf?).elim false (·.preempted)

/-- Whether the gang a stream works for is pre-empted: it then sends no new packets (08 R270). -/
def State.streamPaused (s : State) (x : TStream) : Bool := s.threadOut (s.streamThread x)

/-- Whether a stream has nothing more to queue: a read's `waiting` holds its data then. -/
def TStream.allQueued (x : TStream) : Bool := x.waiting.isEmpty || (x.ptype = 10 && x.len / 8 ≤ x.nextSeq)

/-- The credits a stream has drawn and not used go back to the pool they came from, which may send on them (08 R270; 11 R350). -/
def State.returnCredits (s : State) (k : Nat) : State :=
  match Tab.find s.span.streams k with
  | none => s
  | some x =>
    match x.drawn, x.pool with
    | n + 1, some (p, key) =>
      let s := s.modStream k (fun x => { x with drawn := 0, pool := none })
      let p : TPortNo := Fin.ofNat 4 p
      (s.modTport p (fun y => y.credit key (n + 1))).send p
    | _, _ => s

/-- A stream that queues n flits draws credits of their pool, at most 64 at a time, where it has not enough; the flits beyond take theirs as they leave (11 R350). -/
def State.drawCredits (s : State) (k : Nat) (p : TPortNo) (key n : Nat) : State :=
  let s := match (Tab.find s.span.streams k).bind (·.pool) with
    | some e => if e = (p.val, key) then s else s.returnCredits k
    | none => s
  let have_ := ((Tab.find s.span.streams k).map (·.drawn)).getD 0
  let d := min 64 (Tab.at (s.tport p).credits key 0)
  if n ≤ have_ ∨ d = 0 then s
  else
    (s.modTport p (fun y => { y with credits := Tab.put y.credits key (Tab.at y.credits key 0 - d) })).modStream k
      (fun x => { x with drawn := x.drawn + d, pool := some (p.val, key) })

/-- A packet of a stream goes out on the credits the stream draws (11 R350, R353). -/
def State.streamLaunch (s : State) (k : Nat) (p : Packet) : State :=
  let s := s.modSpan (fun x => { x with sent := x.sent ++ [⟨p.dest.toNat, p.ptype.toNat, p.body⟩] })
  match ptypeLane p.ptype.toNat, s.routePort none p.dest.toNat with
  | some vl, some out =>
    let cls := s.nextClass none out false
    let fs := packetFlits p vl cls
    let s := s.drawCredits k out (bufKey vl cls) fs.length
    let n := ((Tab.find s.span.streams k).map (·.drawn)).getD 0
    let s := s.modStream k (fun x => { x with drawn := x.drawn - fs.length })
    s.enqueue out vl 4 (fs.mapIdx (fun i f => ⟨f, decide (i < n), none⟩))
  | _, _ => s

/-- Packets go out in order while the receive window takes them: a stream's packet k stands at byte 16,096 × k of it (11 R355). Its last queued, the stream keeps no credit (R350). -/
def State.streamSend (s : State) (k : Nat) : Nat → State
  | 0 => if ((Tab.find s.span.streams k).map TStream.allQueued).getD false then s.returnCredits k else s
  | n + 1 =>
    match Tab.find s.span.streams k with
    | none => s
    | some x =>
      match x.waiting with
      | (off, bs) :: rest =>
        if x.allQueued then s.returnCredits k
        else if !x.sending || s.streamPaused x || x.edge < x.nextSeq * 16096 + bs.length then s
        else
          let p := s.streamPacket k x off bs
          let s := s.modStream k (fun x => { x with waiting := rest, unacked := x.unacked ++ [p], nextSeq := x.nextSeq + 1, lastSent := s.now })
          (s.streamLaunch k p).streamSend k n
      | [] => s.returnCredits k

/-- A stream sends again from its first packet not acknowledged, then goes on (11 R355). -/
def State.streamAgain (s : State) (k : Nat) : State :=
  match Tab.find s.span.streams k with
  | none => s
  | some x => ((x.unacked.foldl (fun (s : State) p => s.streamLaunch k p) s).modStream k (fun x => { x with lastSent := s.now })).streamSend k x.waiting.length

/-- A stream is over. -/
def State.dropStream (s : State) (k : Nat) : State := (s.returnCredits k).modSpan (fun x => { x with streams := Tab.del x.streams k })

/-- Bytes cut into a stream's packets: (offset, bytes), at most 16,096 each (11 R354). -/
def streamParts (bs : List Byte) : List (Nat × List Byte) := (chunksOf 16096 bs).mapIdx (fun i b => (16096 * i, b))

/-- A stream to a peer opens with a window of 256 KiB, its packets numbered from `first`, and sends what it may. -/
def State.openStreamAt (s : State) (first peer ptype addr : Nat) (req : Option Nat) (parts : List (Nat × List Byte)) : Nat × State :=
  let k := s.span.nextStream
  let s := s.modSpan (fun x => { x with nextStream := k + 1, streams := Tab.put x.streams k ⟨peer, true, ptype, addr, (parts.map (fun x => x.2.length)).foldl (· + ·) 0, first, first, 262144, [], s.now, req, parts, none, 0, none⟩ })
  (k, s.streamSend k parts.length)

/-- A stream whose packets are numbered from 0. -/
def State.openStream (s : State) (peer ptype addr : Nat) (req : Option Nat) (parts : List (Nat × List Byte)) : Nat × State := s.openStreamAt 0 peer ptype addr req parts

/-! ## Collective instances (11 R364 to R370). -/

/-- An instance at this member. -/
def State.inst? (s : State) (k : InstKey) : Option Inst := s.span.insts.find? (fun i => i.key = k)

/-- An instance changed. -/
def State.modInst (s : State) (k : InstKey) (f : Inst → Inst) : State :=
  s.modSpan (fun x => { x with insts := x.insts.map (fun i => if i.key = k then f i else i) })

/-- An instance is no longer there. -/
def State.dropInst (s : State) (k : InstKey) : State := s.modSpan (fun x => { x with insts := x.insts.filter (fun i => i.key ≠ k) })

/-- The CL operation of a thread completes: its handle settles and it leaves flight (06 R185, R190). -/
def State.clLands (s : State) (i : Inst) : State :=
  match i.thread with
  | none => s
  | some t => s.modThread t (fun th => let th := th.landed i.ident
                                       match i.handle with
                                       | some h => th.settled h
                                       | none => th)

/-- An instance ends without a result: its job, or the command it serves, ends with the status; `member` is the module the reply names (06 R189, 11 R363, R366, R369, R370;
13 R434). -/
def State.endInst (s : State) (i : Inst) (st : Status) (member : Nat) : State :=
  let s := s.dropInst i.key
  let s := match i.cmd with
    | some c => s.completeWith c st 0 (if st = .configMismatch ∨ st = .spanMemberLost then resultAt [(0x1C, 1, member)] else [])
    | none => s
  match i.thread with
  | some t =>
    match s.thread? t with
    | some th => (s.clLands i).endJobFor th.job st member
    | none => s
  | none => s

/-- Whether this member has issued an instance; one it only heard of, or whose part of a span search still runs, carries nothing of its own. -/
def Inst.issued (i : Inst) : Bool := i.thread.isSome || !i.own.isEmpty

/-- The member whose loss ends an instance: the lowest Lost or Absent one of its group. The group of a span search is known once its own part is; until then its
headers wait for the coordinator alone (11 R370). -/
def State.instGap (s : State) (i : Inst) : Option Nat :=
  match i.key with
  | .search c _ => if i.issued || i.cmd.isSome then s.groupGap i.group else if s.viewOf c = .lost ∨ s.viewOf c = .absent then some c else none
  | _ => s.groupGap i.group

/-- Every instance on a group with a member that is Lost or Absent ends (11 R370). -/
def State.endGaps (s : State) : State :=
  s.span.insts.foldl (fun s i =>
    match s.instGap i with
    | some m => s.endInst i .spanMemberLost m
    | none => s) s

/-- Members heard earlier that no route reaches are Lost (11 R353, R360). -/
def State.loseUnreachable (s : State) : State :=
  let s := s.modSpan (fun x => { x with members := x.members.map (fun e => if e.2.view = .joined ∧ (s.routePort none e.1).isNone then (e.1, { e.2 with view := .lost }) else e) })
  s.endGaps

/-- One member's elements combined: sums to nearest even in the format, saturating; minimum and maximum as R122 (11 R367; 05 R148, R157). -/
def combine (efmt rop ctr : Nat) (xs : List Num) : Nat × Nat :=
  if rop = 0 then
    let y := sumAny (fun _ a b => let e := encodeFmt efmt .even 0 (a.add b)
                                  (decodeFmt efmt e.1, e.2)) xs.length ctr xs 0
    ((encodeFmt efmt .even 0 y.1).1, y.2)
  else
    match xs with
    | [] => (0, 0)
    | x :: rest => ((encodeFmt efmt .even 0 (rest.foldl (if rop = 1 then minNum else maxNum) x)).1, 0)

/-- The elementwise reduction of every member's bytes, with its saturations. -/
def reduceAll (efmt rop ctr : Nat) (ls : List (List Byte)) : List Byte × Nat :=
  let w := fmtBits efmt / 8
  let n := (ls.headD []).length / w
  let r := (List.range n).map (fun i => combine efmt rop (ctr + 2 * i * ls.length) (ls.map (fun l => decodeFmt efmt (elemAt efmt l i))))
  (packElems efmt (r.map (·.1)), (r.map (·.2)).foldl (· + ·) 0)

/-- The elements of lists of entries, numbered through all the lists in their order (11 R368). -/
def topkEls (ls : List (List Byte)) : List (List SelEl) :=
  (ls.foldl (fun (a : Nat × List (List SelEl)) l => (a.1 + l.length / 16, a.2 ++ [(chunksOf 16 l).mapIdx (fun i b => SelEl.ofEntry b (a.1 + i))])) (0, [])).2

/-- The result of a CL_TOPK: one selection over all contributions, which come shelf by shelf in rank order. The merge is hierarchical: what each shelf's selection keeps is
selected from again (11 R368; 04 R147). -/
def topkAll (p : ClParams) (shelves : List (List Byte)) : Selected :=
  let lists := topkEls shelves
  let kept := lists.flatMap (fun els => (selectK (p.efmt = 8) p.dedup p.k els).sel)
  selectedOf (p.efmt = 8) p.dedup p.k lists.flatten (selectK (p.efmt = 8) p.dedup p.k kept).sel

/-- Whether an instance's data passes first along the shelf rings and then between shelves: a broadcast's comes from its root, and a span search's parts keep their
headers (11 R366; log entry 148). -/
def Inst.byShelf (i : Inst) : Bool :=
  i.params.op ∉ [3, 6] && (match i.key with
    | .search _ _ => false
    | _ => true)

/-- The member of a shelf that carries what its shelf gives to the other shelves: the lowest of the group. -/
def State.carrier (s : State) (g : Nat) (shelf : Nat) : Option Nat := (s.groupMembers g).find? (fun m => m / 16 = shelf)

/-- The members whose data an instance needs here: of this module's shelf all, of each other shelf the one that carries for it (11 R366). -/
def State.needsData (s : State) (i : Inst) : List Nat :=
  let ms := s.groupMembers i.group
  if i.params.op = 6 then []
  else if i.params.op = 3 then [i.params.root]
  else if i.byShelf then ms.filter (fun m => m / 16 = s.moduleNumber / 16 || s.carrier i.group (m / 16) = some m)
  else ms

/-- The members this module's own part goes to: those of its shelf, or all (11 R366). -/
def State.ownTo (s : State) (i : Inst) : List Nat :=
  (s.groupMembers i.group).filter (fun m => m ≠ s.moduleNumber && (!i.byShelf || m / 16 = s.moduleNumber / 16))

/-- A member's data as this module holds it. -/
def State.dataOf (s : State) (i : Inst) (m : Nat) : Option (List Byte) :=
  if m = s.moduleNumber then some i.own else (i.datas.find? (fun d => d.1 = m)).map (·.2)

/-- Whether an instance has its CL_GO and every member's data (11 R366). -/
def State.instReady (s : State) (i : Inst) : Bool := i.go && (s.needsData i).all (fun m => (s.dataOf i m).isSome)

/-- The members of this module's shelf in a group. -/
def State.shelfMates (s : State) (g : Nat) : List Nat := (s.groupMembers g).filter (fun m => m / 16 = s.moduleNumber / 16)

/-- What lists give together: reduced, or one after the other; with the saturations counted and the free values used (11 R367). -/
def joinParts (p : ClParams) (ctr : Nat) (ls : List (List Byte)) : List Byte × Nat × Nat :=
  if p.op = 1 ∨ p.op = 4 then
    let r := reduceAll p.efmt p.rop ctr ls
    (r.1, r.2, 2 * p.len * ls.length)
  else (ls.flatten, 0, 0)

/-- What this module's shelf gives, once CL_GO and all its members' parts are here: a reduction's first pass, along the shelf ring (11 R366). -/
def State.shelfPart (s : State) (i : Inst) : Option (List Byte × Nat × Nat) :=
  let ls := (s.shelfMates i.group).map (s.dataOf i)
  if i.go && i.byShelf && i.shelf.isNone && ls.all (·.isSome) then some (joinParts i.params s.freeCtr (ls.map (·.getD []))) else none

/-- What each shelf gives, in ascending order. -/
def State.shelfData (s : State) (i : Inst) : List (List Byte) :=
  ((s.groupMembers i.group).map (· / 16)).dedup.map (fun h =>
    if h = s.moduleNumber / 16 then i.shelf.getD [] else (((s.carrier i.group h).bind (s.dataOf i))).getD [])

/-- The result at this member's destination (11 R367, R368), the saturations counted, and the free values used: what one shelf gives, or the shelves' together. -/
def State.instResult (s : State) (i : Inst) : List Byte × Nat × Nat :=
  let ls := s.shelfData i
  let p := i.params
  let n := (s.groupMembers i.group).length
  let rank := ((s.groupMembers i.group).findIdx? (· = s.moduleNumber)).getD 0
  let all : List Byte × Nat × Nat := match ls with
    | [l] => (l, 0, 0)
    | ls => joinParts p s.freeCtr ls
  if p.op = 1 then (all.1, i.sats + all.2.1, all.2.2)
  else if p.op = 2 then (all.1, 0, 0)
  else if p.op = 3 then (((s.needsData i).map (fun m => (s.dataOf i m).getD [])).headD [], 0, 0)
  else if p.op = 4 then ((all.1.drop (rank * (p.len / n))).take (p.len / n), i.sats + all.2.1, all.2.2)
  else if p.op = 5 then ((topkAll p ls).bytes (p.efmt = 8) .even, 0, 0)
  else ([], 0, 0)

/-- The fault of an address of n bytes, if any. -/
def State.addrFault (s : State) (th : Thread) (a n : Nat) (k : Access) : Option FaultCode :=
  if n = 0 then none
  else
    match s.resolve th a n k with
    | .error f => some f
    | .ok _ => none

/-- An instance of a thread whose data is all here completes: its destination holds the result, and the saturations of the steps that ran at this member
count at its core and for its job; the manual does not say which steps run where, so their number is free up to all of them (11 R366, R367; 05 R158; log
entry 4). A destination with a line lent read-only since the issue is a fault (06 R188; 07 R227). -/
def State.finishInst (s : State) (i : Inst) : State :=
  match i.thread with
  | none => s
  | some t =>
    match s.thread? t, s.instReady i with
    | some th, true =>
      let r := s.instResult i
      match s.addrFault th i.dst.toNat r.1.length .moveDst with
      | some f => ((s.dropInst i.key).clLands i).fault t i.pc f 0
      | none =>
      let s := match s.resolve th i.dst.toNat r.1.length .coll with
        | .ok l => s.spotsWrite th l r.1
        | .error _ => s
      let sats := s.freeNat (r.2.1 + 1)
      let s := s.spend (r.2.2 + 1)
      let s := match s.gangOf? th with
        | some g => s.saturated g.core th.job sats
        | none => s
      ((s.dropInst i.key).clLands i).settle th.job
    | _, _ => s

/-- Bytes of an instance sent to members, to each as a stream of its own; no bytes are one empty packet (11 R355). -/
def State.sendBytes (s : State) (i : Inst) (dests : List Nat) (bs : List Byte) : State :=
  dests.foldl (fun s m => (s.openStream m 6 (keyNum i.key) none (if bs.isEmpty then [(0, [])] else streamParts bs)).2) s

/-- A member sends its part once CL_GO is here: to the members of its shelf, to all where the data does not pass by shelves, or as the root alone for a broadcast (11 R366,
R367). -/
def State.sendPart (s : State) (i : Inst) : State :=
  if s.moduleNumber ∉ s.needsData i then s else s.sendBytes i (s.ownTo i) i.own

/-- An instance goes on: once its shelf's parts are here they are put together, and the member that carries for the shelf sends them to the other shelves; with everything here
it completes (11 R366 to R368). -/
def State.instTurn (s : State) (k : InstKey) : State :=
  match s.inst? k with
  | none => s
  | some i =>
    match s.shelfPart i with
    | none => s.finishInst i
    | some r =>
      let i := { i with shelf := some r.1, sats := r.2.1 }
      let s := (s.spend r.2.2).modInst k (fun _ => i)
      let others := if s.carrier i.group (s.moduleNumber / 16) = some s.moduleNumber then (s.groupMembers i.group).filter (fun m => m / 16 ≠ s.moduleNumber / 16) else []
      (s.sendBytes i others r.1).finishInst i

/-- CL_GO at a member: it sends its part; an instance whose data is all here completes. -/
def State.instGo (s : State) (k : InstKey) : State :=
  match s.inst? k with
  | none => s
  | some i =>
    if i.go then s
    else
      ((s.modInst k (fun i => { i with go := true })).sendPart i).instTurn k

/-- A member's part of a span search that has every member's data is over. -/
def State.partDone (s : State) (k : InstKey) : State :=
  match s.inst? k with
  | some i => if i.thread.isNone && i.cmd.isNone && i.issued && s.instReady i then s.dropInst k else s
  | none => s

/-- A CL_DATA packet in its turn: the part it belongs to grows, from the packet numbered 0 on; a whole part is the member's data. Data of an instance that has not been issued here,
or that waits for its restart, is discarded (11 R355, R366, R369). -/
def State.clTake (s : State) (p : Packet) : State :=
  let src := p.src.toNat
  match s.span.insts.find? (fun i => keyNum i.key = p.addr.toNat) with
  | none => s
  | some i =>
    if !i.issued ∨ i.restartAt.isSome ∨ src = s.moduleNumber ∨ src ∉ s.needsData i then s
    else
      let before := if p.pseq = 0#32 then some [] else (i.parts.find? (fun e => e.1 = src ∧ e.2.1 = p.stream.toNat)).map (·.2.2)
      match before with
      | none => s
      | some b =>
        let bs := b ++ p.body
        let parts := i.parts.filter (fun e => e.1 ≠ src)
        if bs.length < p.aux.toNat then s.modInst i.key (fun i => { i with parts := parts ++ [(src, p.stream.toNat, bs)] })
        else
          ((s.modInst i.key (fun i => { i with parts := parts, datas := i.datas.filter (fun d => d.1 ≠ src) ++ [(src, bs)] })).instTurn i.key).partDone i.key

/-- The odd members of an instance: those whose digest differs from the one most members carry, a tie going to the digest of the lowest-numbered tied member (11 R363). -/
def oddMembers (hs : List (Nat × List Byte)) : List Nat :=
  let hs := sortBy (fun a b => a.1 < b.1) hs
  let votes := fun (d : List Byte) => (hs.filter (fun h => h.2 = d)).length
  let top := hs.foldl (fun a h => max a (votes h.2)) 0
  match hs.find? (fun h => votes h.2 = top) with
  | some r => (hs.filter (fun h => h.2 ≠ r.2)).map (·.1)
  | none => []

/-- A number with the bit of each module of a list set. -/
def maskOf (ms : List Nat) : Nat := (ms.dedup.map (fun m => 2 ^ m)).foldl (· + ·) 0

/-- The leader checks an instance once it holds every header and its gang is not pre-empted: digests, then parameters, and sends CL_REFUSE or CL_GO (11 R363, R366, R367;
08 R270). -/
def State.leaderCheck (s : State) (k : InstKey) : State :=
  match s.inst? k with
  | none => s
  | some i =>
    let ms := s.groupMembers i.group
    if i.go || s.threadOut i.thread || s.leaderOf i.group ≠ s.moduleNumber || !ms.all (fun m => i.headers.any (fun h => h.1 = m)) then s
    else
      let odd := oddMembers (i.headers.map (fun h => (h.1, h.2.1)))
      match odd with
      | m :: _ =>
        let s := s.record 0x6002 (sourceOf 0 0) (leBytes 16 (maskOf odd))
        (s.postAll ms 5 (keyNum k) (m + 1) []).endInst i .configMismatch m
      | [] =>
        if i.headers.any (fun h => h.2.2 ≠ i.params) ∨ (i.params.op = 3 ∧ i.params.root ∉ ms) then (s.postAll ms 5 (keyNum k) 0 []).endInst i .invalidField 0
        else (s.postAll ms 4 (keyNum k) 0 []).instGo k

/-- The parameters as a header carries them after the digest (11 R366; log entry 27). -/
def clParamBytes (p : ClParams) : List Byte :=
  blockOf 16 [(0, 1, p.op), (1, 1, p.efmt), (2, 1, p.rop), (3, 1, p.root), (4, 4, p.len), (8, 2, p.k), (0xA, 1, bit p.dedup)]

/-- A member issues its header: to the leader, with its digest at the time of issue and its parameters (11 R363, R366). -/
def State.sendHeader (s : State) (k : InstKey) : State :=
  match s.inst? k with
  | none => s
  | some i =>
    let lead := s.leaderOf i.group
    let s := s.modInst k (fun i => { i with started := s.tick, restartAt := none })
    if lead = s.moduleNumber then
      (s.modInst k (fun i => { i with headers := (i.headers.filter (fun h => h.1 ≠ lead)) ++ [(lead, s.cfgDigest, i.params)] })).leaderCheck k
    else s.post lead 3 (keyNum k) 0 (fit 32 s.cfgDigest ++ clParamBytes i.params)

/-- An instance is issued at this member: headers that came before it are kept; on a group with a gap it ends at once (11 R366, R370). -/
def State.issueInst (s : State) (i : Inst) : State :=
  let early := ((s.inst? i.key).map (·.headers)).getD []
  let s := (s.dropInst i.key).modSpan (fun x => { x with insts := x.insts ++ [{ i with headers := early }] })
  match s.groupGap i.group with
  | some m => s.endInst i .spanMemberLost m
  | none => s.sendHeader i.key

/-- An instance that another member asks about before this one issued it. -/
def earlyInst (k : InstKey) (g : Nat) : Inst :=
  ⟨k, g, ⟨0, 0, 0, 0, 0, 0, false⟩, none, none, none, 0, 0#64, [], [], false, [], [], none, 0, 0, none, 0, 0, 0⟩

/-- The group of an instance's key; a span search's is the instance's own. -/
def keyGroup : InstKey → Nat
  | .job g _ => g
  | .service g _ => g
  | .search _ _ => 0

/-! ## The CL operations (06 R210, 11 R364 to R368). -/

/-- Fields of a CL record. -/
def clSrc (r : BitVec 256) : Nat := fld r 32 5
def clDst (r : BitVec 256) : Nat := fld r 37 5
def clLen (r : BitVec 256) : Nat := fld r 42 32
def clEfmt (r : BitVec 256) : Nat := fld r 74 4
def clRop (r : BitVec 256) : Nat := fld r 78 2
def clRoot (r : BitVec 256) : Nat := fld r 80 7
def clGroup (r : BitVec 256) : Nat := fld r 87 8
def clK (r : BitVec 256) : Nat := fld r 95 13
def clDedup (r : BitVec 256) : Bool := flag r 108
def clTimeoutMs (r : BitVec 256) : Nat := fld r 109 16

/-- The parameters a record's header carries. -/
def clParams (r : BitVec 256) : ClParams := ⟨fld r 0 8, clLen r, clEfmt r, clRop r, clRoot r, clK r, clDedup r⟩

/-- The formats reductions accept (11 R367). -/
def reduceFmt (f : Nat) : Bool := f ∈ [4, 6, 8, 14, 12, 13, 11]

/-- Whether a CL record obeys the rules its own fields decide (06 R210, 11 R367, R368). -/
def clOk (r : BitVec 256) : Bool :=
  let op := fld r 0 8
  fld r 125 131 = 0 && fld r 29 3 = 0 &&
  (if op = 1 ∨ op = 4 then reduceFmt (clEfmt r) && clRop r ≠ 3 && clLen r % (fmtBits (clEfmt r) / 8) = 0
   else if op = 2 ∨ op = 3 then true
   else if op = 5 then clEfmt r ∈ [8, 11] && 1 ≤ clK r && clK r ≤ 4096 && clLen r % 16 = 0 && clLen r / 16 ≤ 65536
   else clLen r = 0 && clSrc r = 0 && clDst r = 0)

/-- The bytes of the result for n members. -/
def clResultLen (r : BitVec 256) (n : Nat) : Nat :=
  let op := fld r 0 8
  if op = 1 ∨ op = 3 then clLen r
  else if op = 2 then n * clLen r
  else if op = 4 then clLen r / n
  else if op = 5 then 64 + 16 * clK r
  else 0

/-- The ranges an operation reads and writes (06 R190). -/
def State.clRanges (s : State) (th : Thread) (r : BitVec 256) : List Range :=
  [⟨(th.reg (clSrc r)).toNat, clLen r⟩, ⟨(th.reg (clDst r)).toNat, clResultLen r (s.groupMembers (clGroup r)).length⟩]

/-- The faults at issue: GROUP_INVALID, a scatter's length that its members do not divide, or an address of R188 (11 R365, R367). -/
def State.clCheck (s : State) (th : Thread) (r : BitVec 256) : Option (FaultCode × Nat) :=
  let g := clGroup r
  let n := (s.groupMembers g).length
  let dst := (th.reg (clDst r)).toNat
  let len := clResultLen r n
  if !s.groupOk g then some (.groupInvalid, 0)
  else if fld r 0 8 = 4 ∧ clLen r % (32 * n) ≠ 0 then some (.operand, 0)
  else
    let reads := fld r 0 8 ≠ 3 || clRoot r = s.moduleNumber
    match (if reads then s.addrFault th (th.reg (clSrc r)).toNat (clLen r) .coll else none) with
    | some f => some (f, 0)
    | none =>
      match s.addrFault th dst len .coll with
      | some f => some (f, 0)
      | none => (s.addrFault th dst len .moveDst).map (fun f => (f, 0))

/-- A CL operation issues: it takes the next place in its group's count and starts its instance (11 R364, R366). -/
def State.collective (s : State) (t op : Nat) : State :=
  s.issue t op s.clRanges s.clCheck (fun th r s =>
    let g := clGroup r
    let n := Tab.at s.span.jobCount g 0
    let own := match s.resolve th (th.reg (clSrc r)).toNat (clLen r) .coll with
      | .ok l => s.spotsRead th l
      | .error _ => []
    let ident := s.compute.nextIdent
    let s := (s.fly t (s.clRanges th r)).modThread t (fun x => x.setting r .collective)
    let s := s.modSpan (fun x => { x with jobCount := Tab.put x.jobCount g (n + 1) })
    let timeout := if clTimeoutMs r = 0 then ((s.span.desc.map (·.defTimeout)).getD 0) else clTimeoutMs r
    s.issueInst ⟨.job g n, g, clParams r, some t, none, if setH r then some (handleOf r) else none, ident, th.reg (clDst r), own, [], false, [], [], none, 0, 0, none, timeout, s.tick, th.pc⟩)

/-- CL_ALLREDUCE (11 R367). -/
def execClAllreduce (t : Nat) (s : State) : Host.Outcome State Fault Refusal := .next (s.collective t 0x0501)
/-- CL_ALLGATHER (11 R367). -/
def execClAllgather (t : Nat) (s : State) : Host.Outcome State Fault Refusal := .next (s.collective t 0x0502)
/-- CL_BROADCAST (11 R367). -/
def execClBroadcast (t : Nat) (s : State) : Host.Outcome State Fault Refusal := .next (s.collective t 0x0503)
/-- CL_REDUCE_SCATTER (11 R367). -/
def execClReduceScatter (t : Nat) (s : State) : Host.Outcome State Fault Refusal := .next (s.collective t 0x0504)
/-- CL_TOPK (11 R368). -/
def execClTopk (t : Nat) (s : State) : Host.Outcome State Fault Refusal := .next (s.collective t 0x0505)
/-- CL_BARRIER (11 R367). -/
def execClBarrier (t : Nat) (s : State) : Host.Outcome State Fault Refusal := .next (s.collective t 0x0506)

/-! ## Time-outs and restarts (11 R369). -/

/-- The tick an instance's timer expires in. -/
def Inst.expiry (i : Inst) : Nat := i.started + i.timeout * 25000

/-- An instance is given up for its restart number r: partial data is discarded, what it still sends is dropped, and the header goes out
again after 2^(r − 1) ms and a draw from 0 to 1 ms (log entry 3). -/
def State.backOff (s : State) (k : InstKey) (r : Nat) : State :=
  let draw := s.freeNat (msUnits + 1)
  let old := s.span.streams.filter (fun e => e.2.sending && e.2.ptype = 6 && e.2.addr = keyNum k)
  let s := old.foldl (fun (s : State) (e : Nat × TStream) => s.dropStream e.1) s
  let due := s.now + 2 ^ (r - 1) * msUnits + draw
  let s := (s.spend 1).modInst k (fun i => { i with go := false, headers := [], parts := [], datas := [], shelf := none, sats := 0, restarts := r, restartAt := some due })
  match s.inst? k with
  | some i =>
    match i.thread.bind s.thread? with
    | some th => s.modJob th.job (fun j => { j with restarts := j.restarts + 1 })
    | none => s
  | none => s

/-- The lowest-numbered member whose data an instance lacks after CL_GO, or whose header before it: at the leader a header's, at another member the leader's own (11 R369). -/
def State.missing (s : State) (i : Inst) : Nat :=
  let ms := (s.groupMembers i.group).filter (· ≠ s.moduleNumber)
  let lead := s.leaderOf i.group = s.moduleNumber
  ((if i.go then (s.needsData i).find? (fun m => (s.dataOf i m).isNone)
    else ms.find? (fun m => if lead then i.headers.all (fun h => h.1 ≠ m) else m = s.leaderOf i.group))).getD (ms.headD 0)

/-- CL_TIMEOUT (11 R369; 08 R270): restart number r, or after the third the end of the instance, once its gang is not pre-empted. An abort with number 4 tells the others of that end (log entry 29). -/
def execClTimeout (key : InstKey) (s : State) : Host.Outcome State Fault Refusal :=
  match s.inst? key with
  | none => .next s
  | some i =>
    if !i.issued ∨ i.restartAt.isSome ∨ s.instReady i ∨ s.threadOut i.thread then .next s
    else
      let s := s.at_ ((i.expiry + 1) * tickUnits)
      let ms := s.groupMembers i.group
      if i.restarts < 3 then .next ((s.postAll ms 7 (keyNum key) (i.restarts + 1) []).backOff key (i.restarts + 1))
      else .next ((s.postAll ms 7 (keyNum key) 4 []).endInst i .spanMemberLost (s.missing i))

/-- INSTANCE_RESTART (11 R369): the member issues its header again and restarts its timer; one of a pre-empted gang waits (08 R270). -/
def execInstanceRestart (key : InstKey) (s : State) : Host.Outcome State Fault Refusal :=
  match s.inst? key with
  | none => .next s
  | some i =>
    match i.restartAt with
    | none => .next s
    | some due => if s.threadOut i.thread then .next s else .next ((s.at_ due).sendHeader key)

end Sys2Proof.Machine
end

