-- ==== Sys2Proof/Machine/Ends.lean ====
section
/-! DEFINITION. What an ASK has put out, and how a command in progress ends before its time: by deadline, Stopwork, takeover or port reset (10 R331, R332;
11 R371; 12 R374, R377, R402, R406; 13 R441). -/

namespace Sys2Proof.Machine

/-! ## The horizon, tombstones and indices taken (09 R279, R283). -/

/-- The horizon: the least epoch among the queries running, else the current one (09 R283). -/
def Items.horizon (x : Items) : Nat := (x.queries.map (·.epoch)).foldl min x.epoch

/-- Tombstones at or below the horizon retire into the gone set (09 R283). -/
def Items.retire (now : Nat) (x : Items) : Items :=
  let h := x.horizon
  { x with
    tombs := x.tombs.filter (fun t => h < t.2)
    gone := x.gone ++ (x.tombs.filter (fun t => t.2 ≤ h)).map (fun t => ⟨t.1, now, none⟩) }

/-- The high-water mark falls below the unused indices at its top. -/
def Items.trim : Nat → Items → Items
  | 0, x => x
  | n + 1, x =>
    if x.highWater ≠ 0 ∧ x.highWater - 1 ∈ x.holes then
      Items.trim n { x with highWater := x.highWater - 1, holes := x.holes.filter (· ≠ x.highWater - 1) }
    else x

/-- Indices taken for items that have not committed may be taken again: as never used where the generation is the floor's, else as reclaimed (09 R279). -/
def Items.giveBack (x : Items) (l : List (Nat × Nat)) : Items :=
  let y := l.foldl (fun (x : Items) r =>
    if r.2 = x.genFloor then { x with holes := insertBy (· < ·) r.1 x.holes }
    else { x with reclaimed := insertBy (fun a b => a.1 < b.1) (r.1, r.2 - 1) x.reclaimed }) x
  y.trim y.holes.length

/-- The indices that waiting mutations hold. -/
def heldIndices (l : List MutWait) : List (Nat × Nat) := l.flatMap (fun m => match m.what with
  | .put new _ => new.map (fun x => (x.1, x.2.gen))
  | _ => [])

/-- A query has ended: its scans go with it, tombstones that waited for it retire (09 R283, R302). -/
def Items.endQuery (x : Items) (now : Nat) (who : Asker) : Items :=
  ({ x with
    queries := x.queries.filter (fun q => q.who ≠ who)
    scans := x.scans.filter (fun q => q.who ≠ who)
    running := Tab.changeAll x.running (fun l => l.map (Option.filter (fun q => decide (q.who ≠ who)))) } : Items).retire now

/-! ## The output of an ASK (10 R330 to R333, 13 R441). -/

/-- A session changed. -/
def State.modSession (s : State) (h : Nat) (f : Session → Session) : State :=
  { s with serv := { s.serv with sessions := Tab.change s.serv.sessions h f } }

/-- The session whose running ASK a command is. -/
def State.askSession (s : State) (id : Nat) : Option (Nat × Session × AskRun) :=
  s.serv.sessions.findSome? (fun e =>
    match e.2.run with
    | some r => if r.cmd = id then some (e.1, e.2, r) else none
    | none => none)

/-- A citation record (10 R333). -/
def Cite.bytes (c : Cite) : List Byte := blockOf 32 [(0, 4, c.pos), (4, 2, c.rank.getD 0xFFFF), (8, 8, c.handle.toNat), (0x10, 8, c.fromUs), (0x18, 8, c.toUs)]

/-- The citation area's place in the output buffer. -/
def citeArea (c : Cmd) : Nat := 0x480 + 32 * ceilDiv (c.field 0x30 4) 32

/-- The ASK record: its header and 64 entries (13 R441). -/
def askRecord (r : AskRun) (used : Nat) : List Byte :=
  withCrc (blockOf 28 [(0, 2, r.entries.length), (4, 4, r.dropped), (8, 8, r.epoch), (0x10, 4, used)])
    ++ fit 1024 (r.entries.flatMap (fun e => leBytes 8 e.handle.toNat ++ leBytes 1 e.outcome ++ zeros 3 ++ leBytes 4 e.pos))

/-- The progress block (10 R332). -/
def askProgress (r : AskRun) (ended : Bool) (stop : Nat) : List Byte :=
  sealed (blockOf 64 [(0, 8, r.pseq), (8, 4, r.text.length), (0x0C, 4, r.cites.length), (0x10, 4, r.tokens), (0x14, 1, bit ended), (0x15, 1, stop)])

/-- One update of the output buffer: text and records before the progress block that counts them. -/
def State.askUpdate (s : State) (c : Cmd) (r : AskRun) (used : Nat) (ended : Bool) (stop : Nat) : State :=
  let out := c.field 0x18 8
  let s := s.hostWrite c.port (out + 0x480) r.text
  let s := s.hostWrite c.port (out + citeArea c) (r.cites.flatMap Cite.bytes)
  let s := s.hostWrite c.port (out + 0x40) ((askRecord r used).take 32)
  s.hostWrite c.port out (askProgress r ended stop)

/-- The running ASK of a session ends: its last update, its reply, and the tokens it added to the session (10 R331, R332; 13 R441). -/
def State.askEnd (s : State) (h : Nat) (x : Session) (r : AskRun) (stop : Nat) (st : Status) : State :=
  let r := { r with pseq := r.pseq + 1 }
  let fl := ((s.cmd? r.cmd).map (fun c => c.aux.getD 2 0)).getD 0
  let s := match s.cmd? r.cmd with
    | some c => s.askUpdate c r x.used true stop
    | none => s
  let s := s.completeWith r.cmd st fl (resultAt [(0x0C, 4, r.tokens), (0x10, 4, r.text.length), (0x14, 4, r.cites.length), (0x18, 1, stop)])
  s.modSession h (fun y => { y with run := none })

/-! ## A command ends before its time. -/

/-- The stop reason of R331 for a status. -/
def stopReason : Status → Nat
  | .deadlineExpired => 4
  | .tierLate => 6
  | .tierFailed => 6
  | _ => 5

/-- STOP goes to every member of an instance's group, and this member's part is over (11 R371). -/
def State.stopInst (s : State) (i : Inst) : State := ((s.postAll (s.groupMembers i.group) 13 (keyNum i.key) 0 []).dropInst i.key).clLands i

/-- The instances of a command or of its job's threads. -/
def State.instsOf (s : State) (id : Nat) : List Inst :=
  s.span.insts.filter (fun i => i.cmd = some id || (match i.thread.bind s.thread? with
    | some th => ((s.job? th.job).map (fun j => decide (j.cmd = id))).getD false
    | none => false))

/-- The job a command started. -/
def State.jobOf (s : State) (id : Nat) : Option Nat := (s.compute.jobs.find? (fun e => e.2.cmd = id)).map (·.1)

/-- What a command left in the module's queues goes: mutations not committed with the indices they hold, its query, its scans, its wait for a cache, and its stream in a
decode complex. -/
def State.dropWork (s : State) (id : Nat) : State :=
  { s with
    items := (({ s.items with muts := s.items.muts.filter (fun m => m.cmd ≠ id) } : Items).giveBack (heldIndices (s.items.muts.filter (fun m => m.cmd = id)))).endQuery s.now (.cmd id)
    serv := { s.serv with
      builds := s.serv.builds.map (fun b => if b.waiter = some id then { b with waiter := none } else b)
      decoders := s.serv.decoders.filter (fun d => d.2.1 ≠ .put id) } }

/-- A command ends with a status before its work is done; `stopped` for Stopwork, which sends STOP for its instances (11 R371, 12 R402). A RUN ends with its job (08 R258). -/
def State.endCmd (s : State) (id : Nat) (st : Status) (stopped : Bool) : State :=
  let s := if stopped then (s.instsOf id).foldl State.stopInst s else s
  let s := s.dropWork id
  match s.jobOf id with
  | some j => s.endJob j st
  | none =>
    match s.askSession id with
    | some (h, x, r) => s.askEnd h x r (stopReason st) st
    | none =>
      let s := { s with span := { s.span with insts := s.span.insts.filter (fun i => i.cmd ≠ some id) } }
      s.fail id st

/-- A command ends without a reply: its port has been reset (12 R374). -/
def State.endCmdSilently (s : State) (id : Nat) : State :=
  let s := (s.instsOf id).foldl State.stopInst s
  let s := s.dropWork id
  let job := s.jobOf id
  let s := match s.askSession id with
    | some (h, _, _) => s.modSession h (fun y => { y with run := none })
    | none => s
  let s := s.dropCmd id
  match job with
  | some j => s.endJob j .abortedStopwork
  | none => s

/-! ## Cache builds that end (10 R323, R324, R326). -/

/-- The builds of context caches that satisfy a test end, and their streams in the decode complexes with them (10 R316, R326). -/
def Services.dropBuilds (v : Services) (p : Build → Bool) : Services :=
  { v with
    builds := v.builds.filter (fun b => !p b)
    decoders := v.decoders.filter (fun d => (v.builds.filter p).all (fun b => d.2.1 ≠ .build b.key)) }

/-- The results of ITEM_PUT (13 R427). -/
def putResult (n e h : Nat) : List Byte := resultAt [(0x0C, 4, n), (0x10, 8, e), (0x18, 8, h)]

/-- An ITEM_PUT that waited for its cache ends: its record says how the build ended (10 R323, R324). The header and results stand in its notes. -/
def State.cacheReply (s : State) (id cacheState tokens : Nat) : State :=
  match s.cmd? id with
  | none => s
  | some c =>
    let h := putAt (putAt (leBytes 64 (c.aux.getD 6 0)) 6 (leBytes 1 cacheState)) 0x1C (leBytes 4 tokens)
    (s.hostWrite c.port (c.field 0x28 8) (sealed h)).completeWith id .success (c.aux.getD 2 0) (putResult (c.aux.getD 3 0) (c.aux.getD 4 0) (c.aux.getD 5 0))

end Sys2Proof.Machine
end

