-- ==== Sys2Proof/Machine/Packets.lean ====
section
/-! DEFINITION. Check 3 of 12 R410: reserved bytes, and fields outside a range that does not depend on module state (13 R407 to R459). -/

namespace Sys2Proof.Machine

/-- The parameter bytes an opcode names, as (offset, size) (13 R414 to R459). -/
def usedParams (op : Nat) : List (Nat × Nat) :=
  if op ∈ [0x0101, 0x0305, 0x0803] then [(0x10, 8)]
  else if op = 0x0102 then [(0x10, 2), (0x18, 8), (0x20, 4)]
  else if op ∈ [0x0103, 0x0104] then [(0x10, 2), (0x18, 8)]
  else if op = 0x0105 then [(0x10, 36)]
  else if op ∈ [0x0106, 0x0108, 0x0405, 0x0703, 0x0902] then [(0x10, 1)]
  else if op = 0x0107 then [(0x10, 2)]
  else if op ∈ [0x0109, 0x010A, 0x0605, 0x0A02] then [(0x10, 8)]
  else if op = 0x0201 then [(0x10, 28)]
  else if op = 0x0202 then [(0x10, 12)]
  else if op = 0x0203 then [(0x10, 8), (0x20, 8)]
  else if op = 0x0301 then [(0x10, 44)]
  else if op = 0x0303 then [(0x10, 1), (0x18, 16)]
  else if op = 0x0304 then [(0x10, 16)]
  else if op = 0x0306 then [(0x10, 1), (0x18, 8)]
  else if op = 0x0307 then [(0x10, 3)]
  else if op = 0x0401 then [(0x10, 20)]
  else if op = 0x0402 then [(0x10, 21)]
  else if op = 0x0403 then [(0x10, 2), (0x18, 8)]
  else if op = 0x0404 then [(0x10, 5), (0x18, 24)]
  else if op = 0x0501 then [(0x10, 32)]
  else if op = 0x0502 then [(0x10, 44)]
  else if op = 0x0601 then [(0x10, 1), (0x18, 16)]
  else if op = 0x0602 then [(0x10, 4)]
  else if op = 0x0603 then [(0x10, 3), (0x14, 8), (0x20, 16)]
  else if op = 0x0604 then [(0x10, 5), (0x18, 8)]
  else if op = 0x0606 then [(0x10, 1), (0x18, 8)]
  else if op = 0x0701 then [(0x10, 32)]
  else if op ∈ [0x0801, 0x0A03] then [(0x10, 12)]
  else if op = 0x0901 then [(0x10, 8)]
  else if op = 0x0903 then [(0x10, 44)]
  else if op = 0x0904 then [(0x10, 4), (0x18, 8)]
  else if op = 0x0A01 then [(0x10, 8), (0x18, 12)]
  else []

/-- Whether every parameter byte an opcode does not name is zero, and the zero bits of CFLAGS are (12 R386, 13 R407). -/
def Cmd.reservedZero (c : Cmd) : Bool :=
  (List.range 44).all (fun i => (usedParams c.opcode).any (fun u => u.1 ≤ 0x10 + i && 0x10 + i < u.1 + u.2) || c.pkt.getD (0x10 + i) 0#8 = 0#8)
    && c.field 2 1 / 4 = 0

/-- Opcodes whose OBJECT names a volume. -/
def volumeOps : List Nat := [0x010A, 0x010B, 0x0201, 0x0202, 0x0203, 0x0204]

/-- PFLAGS of ITEM_PUT (13 R427). -/
def Cmd.pflags (c : Cmd) : Nat := c.field 0x36 2
/-- Whether an ITEM_PUT is of kind VECTOR (13 R427). -/
def Cmd.isVector (c : Cmd) : Bool := bitOf c.pflags 0

/-- Whether OBJECT is as the opcode's entry allows: a volume 0 to 15, a handle, or zero where it has no meaning (13 R407). -/
def Cmd.objectOk (c : Cmd) : Bool :=
  let op := c.opcode
  if op ∈ volumeOps then c.object < 16
  else if op = 0x0301 then (if c.isVector then c.object = 0 else c.object < 16)
  else if op = 0x0306 then c.field 0x10 1 = 0 || c.object = 0
  else if op ∈ [0x0302, 0x0303, 0x0304, 0x0305, 0x0502, 0x0503, 0x0603, 0x0604, 0x0605, 0x0607] then true
  else c.object = 0

/-- Whether a host address is 32-byte aligned (13 R408; log entry 43). -/
def Cmd.aligned (c : Cmd) (off : Nat) : Bool := c.field off 8 % 32 = 0

/-- Whether 16 bytes are a legal retrieval block (13 R438). -/
def retrievalOk (b : List Byte) : Bool :=
  let k := fieldAt b 0 1
  1 ≤ k && k ≤ 64 && 1 ≤ fieldAt b 1 1 && fieldAt b 1 1 ≤ 64 && 1 ≤ fieldAt b 2 2 && fieldAt b 2 2 ≤ 4096
    && k ≤ fieldAt b 4 2 && fieldAt b 4 2 ≤ 4096 && fieldAt b 6 1 ≤ 1 && fieldAt b 7 1 ≤ 1 && fieldAt b 8 4 ≤ 65536 && fieldAt b 0xE 2 = 0
    && (bitOf (fieldAt b 7 1) 0 → fieldAt b 0xC 2 ≤ 255)

/-- The retrieval block of 16 bytes (13 R438). -/
def retrievalOf (b : List Byte) : Retrieval :=
  ⟨fieldAt b 0 1, fieldAt b 1 1, fieldAt b 2 2, fieldAt b 4 2, fieldAt b 6 1 = 1, bitOf (fieldAt b 7 1) 0, fieldAt b 8 4, fieldAt b 0xC 2⟩

/-- Ranges of the admin and block commands (13 R414 to R424). -/
def Cmd.adminRanges (c : Cmd) : Bool :=
  let op := c.opcode
  if op = 0x0101 then c.aligned 0x10
  else if op = 0x0102 then 1 ≤ c.field 0x10 2 && c.field 0x10 2 ≤ 3 && c.aligned 0x18
  else if op ∈ [0x0103, 0x0104] then (c.field 0x10 2 = 1 || c.field 0x10 2 = 2) && c.aligned 0x18
  else if op = 0x0105 then
    1 ≤ c.field 0x10 1 && c.field 0x10 1 ≤ 63 && 1 ≤ c.field 0x11 1
      && (c.field 0x12 2 = 0 || (1 ≤ c.field 0x14 4 && c.field 0x14 4 ≤ 1000000))
      && c.field 0x18 8 % 4096 = 0 && c.field 0x20 8 % 4096 = 0 && 2 ≤ c.field 0x28 4 && c.field 0x28 4 ≤ 65536
      && 2 ≤ c.field 0x2C 4 && c.field 0x2C 4 ≤ 65536 && c.field 0x30 4 ≠ 0
  else if op = 0x0106 then 1 ≤ c.field 0x10 1 && c.field 0x10 1 ≤ 63
  else if op = 0x0107 then 1 ≤ c.field 0x10 1 && c.field 0x10 1 ≤ 63 && c.field 0x11 1 ≤ 1
  else if op = 0x0108 then c.field 0x10 1 = 0 || c.field 0x10 1 = 3
  else if op = 0x0109 then c.aligned 0x10
  else if op = 0x010A then 1 ≤ c.field 0x10 8 && c.field 0x10 8 ≤ 117187500000
  else if op = 0x0201 then
    1 ≤ c.field 0x18 4 && c.field 0x18 4 ≤ 65536 && c.field 0x1C 4 ≤ 1 && c.aligned 0x20
      && (if c.field 0x1C 4 = 1 then 1 ≤ c.field 0x28 4 && c.field 0x28 4 ≤ 4096 else c.field 0x28 4 = 0)
  else if op = 0x0202 then 1 ≤ c.field 0x18 4 && c.field 0x18 4 ≤ 65536
  else if op = 0x0203 then 1 ≤ c.field 0x20 8
  else if op = 0x0A01 then c.aligned 0x18 && 1 ≤ c.field 0x20 4 && c.field 0x20 4 ≤ 65536
  else if op = 0x0A03 then c.aligned 0x10 && 7552 ≤ c.field 0x18 4
  else true

/-- Ranges of the item and search commands (13 R427 to R437). -/
def Cmd.itemRanges (c : Cmd) : Bool :=
  let op := c.opcode
  if op = 0x0301 then
    c.pflags / 16 = 0 && c.aligned 0x28 && (c.field 0x34 2 = 0 || (2000 ≤ c.field 0x34 2 && c.field 0x34 2 ≤ 60000))
      && (if c.isVector then bitOf c.pflags 3 && c.field 0x10 8 = 0
            && decide ((c.field 0x18 8 : Int) ≤ 2 ^ 63 - 1 - signedOf 64 (c.field 0x20 8))
          else 1 ≤ c.field 0x18 8)
  else if op = 0x0303 then c.field 0x10 1 ≤ 15
  else if op = 0x0304 then c.aligned 0x10 && c.field 0x1C 4 ≤ 3
  else if op = 0x0305 then c.aligned 0x10
  else if op = 0x0306 then c.field 0x10 1 ≤ 1
  else if op = 0x0307 then c.field 0x10 2 % 32 = 0 && 256 ≤ c.field 0x10 2 && c.field 0x10 2 ≤ 2048 && c.field 0x12 1 ≤ 1
  else if op ∈ [0x0401, 0x0402] then c.aligned 0x10 && c.aligned 0x18
  else if op = 0x0403 then c.field 0x11 1 ≤ 1 && c.field 0x18 8 % 4096 = 0 && 4096 ≤ c.field 0x18 8 && c.field 0x18 8 ≤ 2 ^ 34
  else if op = 0x0404 then
    c.field 0x11 1 ≤ 3 && c.field 0x13 1 / 8 = 0 && bitsOf (c.field 0x13 1) 1 2 ≠ 3 && c.field 0x14 1 ≤ 8
      && (bitsOf (c.field 0x13 1) 1 2 = 0 || decide (signedOf 64 (c.field 0x18 8) < signedOf 64 (c.field 0x20 8)))
      && c.aligned 0x28 && (c.field 0x14 1 ≠ 0 || c.field 0x28 8 = 0)
  else true

/-- Ranges of the session, compute, adaptation, span and security commands (13 R439 to R457). -/
def Cmd.workRanges (c : Cmd) : Bool :=
  let op := c.opcode
  if op = 0x0501 then 1 ≤ c.field 0x18 4 && c.field 0x18 4 ≤ 2097152 && c.field 0x1C 4 ≤ 65536 && retrievalOk ((c.pkt.drop 0x20).take 16)
  else if op = 0x0502 then
    1 ≤ c.field 0x10 4 && c.field 0x10 4 ≤ 65536 && 1 ≤ c.field 0x14 4 && c.field 0x14 4 ≤ 65536 && c.aligned 0x18
      && (bitOf (c.field 0x38 4) 7 || retrievalOk ((c.pkt.drop 0x20).take 16))
      && 64 ≤ c.field 0x30 4 && c.field 0x30 4 ≤ 2 ^ 31 && c.field 0x34 4 ≤ 2 ^ 24 && bitsOf (c.field 0x38 4) 0 7 ≤ 64 && c.field 0x38 4 / 2 ^ 16 = 0
  else if op = 0x0601 then c.field 0x10 1 ≤ 2
  else if op = 0x0603 then
    c.field 0x12 1 ≤ 2 && 1 ≤ c.field 0x14 4 && c.field 0x14 4 ≤ 65536 && 1 ≤ c.field 0x18 2 && c.field 0x18 2 ≤ 2048
      && c.field 0x14 4 % c.field 0x18 2 = 0 && 1 ≤ c.field 0x1A 2 && c.field 0x1A 2 ≤ 128 && c.aligned 0x28
  else if op = 0x0604 then
    c.field 0x10 1 ∈ [0, 1, 3] && c.field 0x11 1 ≤ 3 && c.field 0x14 1 ≤ 2 && 1 ≤ c.field 0x18 8 && c.field 0x18 8 % 65536 = 0
      && !(bitOf (c.field 0x11 1) 0 && c.field 0x10 1 = 3)
      && (c.field 0x10 1 ≠ 0 || (c.field 0x12 1 ≤ 2 && (c.field 0x12 1 ≠ 1 || c.field 0x13 1 ≤ 3) && (c.field 0x12 1 ≠ 2 || c.field 0x13 1 ≤ 15)))
      && (c.field 0x10 1 ≠ 3 || c.field 0x13 1 ≤ 3)
  else if op = 0x0606 then c.field 0x10 1 ≤ 1
  else if op = 0x0701 then
    let kind := c.field 0x10 1
    1 ≤ kind && kind ≤ 4 && c.aligned 0x28
      && (if kind = 2 ∨ kind = 3 then c.field 0x11 1 ∈ [4, 8, 16, 32, 64] else c.field 0x11 1 = 0)
      && (if kind = 4 then c.field 0x14 4 = 0 && c.field 0x18 8 = 0 else c.field 0x14 4 ≠ 0)
  else if op = 0x0703 then c.field 0x10 1 ≤ 1
  else if op = 0x0801 then c.aligned 0x10
  else if op = 0x0803 then c.aligned 0x10
  else if op = 0x0901 then c.field 0x10 4 % 4096 = 0 && 1 ≤ c.field 0x14 4 && c.field 0x14 4 ≤ 4194304
  else if op = 0x0902 then c.field 0x10 1 ≤ 1
  else if op = 0x0903 then c.aligned 0x30
  else if op = 0x0904 then 1 ≤ c.field 0x10 1 && c.field 0x10 1 ≤ 5 && c.field 0x12 2 ≤ 3 && c.aligned 0x18
  else true

/-- Check 3 of R410. -/
def Cmd.fieldsOk (c : Cmd) : Bool :=
  c.field 3 1 = c.ring && c.reservedZero && c.objectOk && c.adminRanges && c.itemRanges && c.workRanges

/-- The readiness bits as READINESS shows them (18 R566). -/
def State.readyBits (s : State) : Nat := s.power.ready.toNat

/-- Checks 1 to 5 of R410: the first that a fetched command fails. -/
def State.admissionError (s : State) (c : Cmd) : Option Status :=
  match cmdRowOf c.opcode with
  | none => some .invalidOpcode
  | some r =>
    let allowed : Bool := match r.ports with
      | .owner => s.isOwner c.port
      | .both => true
      | .sentinel => !s.isOwner c.port
    if !allowed then some .notOwner
    else if !c.fieldsOk then some .invalidField
    else if s.readyBits &&& r.needs ≠ r.needs then some .notReady
    else if s.readOnly ∧ (r.ro ∨ (c.opcode = 0x0701 ∧ c.field 0x10 1 = 4)) then some .mediaReadOnly
    else none

end Sys2Proof.Machine
end

