-- ==== Sys2Proof/Machine/Rings.lean ====
section
/-! DEFINITION. Rings, fetching, replies, freezes, interrupts, push grants and port resets (12 R374, R380 to R398; 13 R410). -/

namespace Sys2Proof.Machine

/-! ## Register writes (18 R557). -/

/-- The 64-bit write a posted write amounts to: a 32-bit one is merged with `cur`, the other half's RW fields as they stand; none for an access that is ignored. -/
def mergedW (w : RegW) (cur : W64) : Option W64 :=
  match w.size with
  | .full => some w.value
  | .low => some (cur &&& 0xFFFFFFFF00000000#64 ||| w.value &&& 0xFFFFFFFF#64)
  | .high => some (cur &&& 0xFFFFFFFF#64 ||| w.value <<< 32)
  | .other => none

/-- Whether the module sleeps: in A2 and A3 doorbells and DATA_DONE are latched (16 R509). -/
def State.asleep (s : State) : Bool := s.power.st = .a2 || s.power.st = .a3

/-- The last value written to a doorbell or to DATA_DONE is latched (16 R509). -/
def State.latch (s : State) (p : Port) (off v : Nat) : State :=
  { s with host := { s.host with latched := s.host.latched.filter (fun x => !(x.1 = p && x.2.1 = off)) ++ [(p, off, v)] } }

/-! ## Freezes (12 R397, R398). -/

/-- A ring 1 to 63 freezes: its event and its error log entry (12 R382, R397, R398). -/
def State.freeze (s : State) (p : Port) (r : Nat) (tag : W32) (st : Nat) (op : W16) (slot : Nat) (detail : List Byte) : State :=
  let s := s.modRing p r (fun g => { g with frozen := true })
  let source := sourceOf 9 (64 * p.num + r)
  let payload := leBytes 1 p.num ++ leBytes 1 r ++ leBytes 2 st ++ leBytes 2 op.toNat ++ leBytes 4 tag.toNat ++ leBytes 2 slot
  let seq := s.events.seqOf s.power.cycles 0x2001 source payload
  let s := s.record 0x2001 source payload
  let n := ((Tab.find s.host.errors r).map (·.errSeq)).getD 0
  { s with host := { s.host with errors := Tab.put s.host.errors r ⟨n + 1, tag, st, op, slot, true, 0, s.opTime, seq, fit 20 detail⟩ } }

/-- An error log entry of 64 bytes (12 R398). -/
def ErrEntry.bytes (e : ErrEntry) : List Byte :=
  sealed (putAt (blockOf 64 [(0, 8, e.errSeq), (8, 4, e.tag.toNat), (0x0C, 2, e.status), (0x0E, 2, e.opcode.toNat), (0x10, 2, e.slot), (0x12, 1, bit e.frozen),
    (0x14, 4, e.later), (0x18, 8, e.opTime), (0x20, 8, e.eventSeq)]) 0x28 e.detail)

/-! ## Doorbells (12 R382, 18 R573). -/

/-- Whether a CMD_TAIL value is accepted (12 R382). -/
def Ring.tailOk (g : Ring) (v : Nat) : Bool :=
  v < g.cmdSize && (g.tail + g.cmdSize - g.head) % g.cmdSize ≤ (v + g.cmdSize - g.head) % g.cmdSize

/-- Whether a REPLY_HEAD value is accepted (12 R382). -/
def Ring.headOk (g : Ring) (v : Nat) : Bool :=
  v < g.replySize && (v + g.replySize - g.replyHead) % g.replySize ≤ (g.replyNext + g.replySize - g.replyHead) % g.replySize

/-- A refused doorbell value: rings 1 to 63 freeze, unless frozen already. -/
def State.refuseDoorbell (s : State) (p : Port) (r : Nat) (g : Ring) : State :=
  if r = 0 ∨ g.frozen then s else s.freeze p r 0xFFFFFFFF#32 (Status.invalidField).num 0#16 g.head []

/-- A CMD_TAIL value acts. -/
def State.setTail (s : State) (p : Port) (r v : Nat) : State :=
  match s.ring? p r with
  | none => s
  | some g => if g.tailOk v then s.modRing p r (fun g => { g with tail := v }) else s.refuseDoorbell p r g

/-- A REPLY_HEAD value acts. -/
def State.setReplyHead (s : State) (p : Port) (r v : Nat) : State :=
  match s.ring? p r with
  | none => s
  | some g => if g.headOk v then s.modRing p r (fun g => { g with replyHead := v }) else s.refuseDoorbell p r g

/-- BAR0 offsets of a ring's doorbells (12 R379, R382). -/
def tailOffset (r : Nat) : Nat := 0x100000 + 0x1000 * r
def headOffset (r : Nat) : Nat := 0x100008 + 0x1000 * r

/-- A write to CMD_TAIL: the low 16 bits; the Sentinel has ring 0's alone (18 R558, R573). -/
def State.writeTail (s : State) (p : Port) (r v : Nat) : State :=
  if r ≠ 0 ∧ ¬ s.isOwner p then s
  else if s.asleep then s.latch p (tailOffset r) v
  else s.setTail p r (v % 65536)

/-- A write to REPLY_HEAD. -/
def State.writeReplyHead (s : State) (p : Port) (r v : Nat) : State :=
  if r ≠ 0 ∧ ¬ s.isOwner p then s
  else if s.asleep then s.latch p (headOffset r) v
  else s.setReplyHead p r (v % 65536)

/-- CMD_TAIL (12 R382). -/
def execCmdTail (p : Port) (ring : RingNo) (value : W32) (s : State) : Host.Outcome State Fault Refusal := .next (s.writeTail p ring.val value.toNat)

/-- REPLY_HEAD (12 R382). -/
def execReplyHead (p : Port) (ring : RingNo) (value : W32) (s : State) : Host.Outcome State Fault Refusal := .next (s.writeReplyHead p ring.val value.toNat)

/-! ## Fetching (12 R383, R386, R406; 13 R410, R423). -/

/-- Whether a reply ring has no room: the slot at REPLY_HEAD − 1 is never written (12 R384). -/
def Ring.full (g : Ring) : Bool := (g.replyNext + 1) % g.replySize = g.replyHead

/-- Whether a held reply will freeze the ring when it is written. -/
def Ring.failing (g : Ring) : Bool := g.held.any (fun x => !x.xrdy && !x.status.good)

/-- Whether a ring's fetching goes on: commands wait, the module is in A0 with its control cores running, the reply ring has room, and no freeze,
halt or Hibernate entry stops it; after Hibernate rings 1 to 63 wait for the readiness bits set at entry (12 R384, R397, R402; 16 R514, R515). -/
def State.fetchable (s : State) (p : Port) (r : Nat) (g : Ring) : Bool :=
  g.head ≠ g.tail && s.power.st = .a0 && s.power.ready.getLsbD 0 && !g.full
    && (r = 0 || (!g.frozen && !g.failing && !s.host.halts.any (fun x => x.1 = .ring r || x.1 = .all) && s.power.hib.isNone
      && s.power.readyAtEntry &&& s.power.ready = s.power.readyAtEntry && s.isOwner p))

/-- The volume a packet names. -/
def Cmd.volume (c : Cmd) : Option Nat :=
  if c.opcode ∈ volumeOps ∨ (c.opcode = 0x0301 ∧ ¬ c.isVector) then some (c.object % 256) else none

/-- Whether an earlier VOLUME_DELETE of the same volume is in progress (13 R423). -/
def State.deletingFor (s : State) (c : Cmd) : Bool :=
  c.volume.isSome && (Tab.vals s.host.cmds).any (fun d => d.opcode = 0x010B && d.volume = c.volume)

/-- The expiry tick of a command: 25 ticks a µs from its fetch; 0 takes the ring's default, all ones is none (12 R386, R406; 13 R412). -/
def Ring.expiry (g : Ring) (tick deadline : Nat) : Option Nat :=
  if deadline = 0xFFFFFFFF then none
  else if deadline = 0 then g.defDeadline.map (fun d => tick + 25 * d)
  else some (tick + 25 * deadline)

/-- One command is fetched and checked: it is in progress, or completes at once (12 R383, 13 R410). -/
def State.fetchOne (s : State) (p : Port) (r : Nat) (g : Ring) : State :=
  let pkt := s.hostRead p (g.cmdBase + 64 * g.head) 64
  let id := s.host.nextCmd
  let c : Cmd := ⟨id, p, r, g.head, pkt, s.tick, g.expiry s.tick (fieldAt pkt 0x3C 4), 0, 0, 0, [], 0, [], false⟩
  let c := { c with volGone := s.deletingFor c }
  let s := s.modRing p r (fun g => { g with head := (g.head + 1) % g.cmdSize })
  let s := { s with host := { s.host with cmds := Tab.put s.host.cmds id c, nextCmd := id + 1 } }
  match s.admissionError c with
  | some st => s.fail id st
  | none => s

/-- Up to n commands from one ring in slot order. -/
def State.fetchFrom (s : State) (p : Port) (r : Nat) : Nat → State
  | 0 => s
  | n + 1 =>
    match s.ring? p r with
    | some g => if s.fetchable p r g then State.fetchFrom (s.fetchOne p r g) p r n else s
    | none => s

/-- The ring a port's fetching takes: ring 0, else round-robin from the one after the last taken (12 R383). -/
def State.fetchRing (s : State) (p : Port) : Option Nat :=
  let ok := fun r => ((s.ring? p r).map (fun g => s.fetchable p r g)).getD false
  if ok 0 then some 0
  else ((List.range 63).map (fun i => (((s.port p).nextRing + i) % 63) + 1)).find? ok

/-- COMMAND_FETCH (12 R383, 13 R410): one turn of up to 8 commands. -/
def execCommandFetch (p : Port) (s : State) : Host.Outcome State Fault Refusal :=
  match s.fetchRing p with
  | none => .next s
  | some r =>
    let s := if r = 0 then s else s.modPort p (fun x => { x with nextRing := r % 63 })
    .next (s.fetchFrom p r 8)

/-! ## Replies (12 R384, R387, R397). -/

/-- The 32 bytes of a reply. -/
def Reply.bytes (x : Reply) (phase : Bool) (head : Nat) : List Byte :=
  leBytes 4 x.tag.toNat ++ leBytes 2 (if x.xrdy then 0 else x.status.num) ++ leBytes 2 (bit phase + 2 * bit x.xrdy) ++ leBytes 2 head ++ leBytes 2 x.rflags.toNat ++ fit 20 x.result

/-- The ring after one reply is written: the slot moves on, PHASE inverts on a wrap, and the reply counts toward a signal unless NO_IRQ (12 R384, R385). -/
def Ring.wrote (g : Ring) (now : Nat) (x : Reply) : Ring :=
  let next := (g.replyNext + 1) % g.replySize
  { g with
    held := g.held.drop 1
    replyNext := next
    phase := if next = 0 then !g.phase else g.phase
    unsig := if x.noIrq then g.unsig else g.unsig + 1
    oldest := if !x.noIrq && g.unsig = 0 then now else g.oldest }

/-- The freeze a written reply causes, or its count among later errors (12 R397). -/
def State.replyFails (s : State) (p : Port) (r : Nat) (g : Ring) (x : Reply) : State :=
  if r = 0 ∨ x.xrdy ∨ x.status.good then s
  else if g.frozen then { s with host := { s.host with errors := Tab.change s.host.errors r (fun e => { e with later := e.later + 1 }) } }
  else s.freeze p r x.tag x.status.num x.opcode x.slot x.result

/-- One held reply of a ring is written. -/
def State.writeReply (s : State) (p : Port) (r : Nat) (g : Ring) (x : Reply) : State :=
  let s := s.hostWrite p (g.replyBase + 32 * g.replyNext) (x.bytes g.phase g.head)
  (s.modRing p r (fun g => g.wrote s.now x)).replyFails p r g x

/-- REPLY_WRITE (12 R384): the first held reply, if its ring has room. -/
def execReplyWrite (p : Port) (ring : RingNo) (s : State) : Host.Outcome State Fault Refusal :=
  match s.ring? p ring.val with
  | none => .next s
  | some g =>
    match g.held with
    | [] => .next s
    | x :: _ => if g.full then .next s else .next (s.writeReply p ring.val g x)

/-- MSIX_SIGNAL (12 R385): a message for each reply, or for a run of them at COAL_COUNT or COAL_TIME. -/
def execMsixSignal (p : Port) (ring : RingNo) (s : State) : Host.Outcome State Fault Refusal :=
  match s.ring? p ring.val with
  | none => .next s
  | some g =>
    if g.unsig = 0 then .next s
    else if g.coalCount = 0 then .next ((s.modRing p ring.val (fun g => { g with unsig := g.unsig - 1 })).signal p g.vector)
    else
      let s := if g.coalCount ≤ g.unsig then s else s.at_ (g.oldest + g.coalTime * usUnits)
      .next ((s.modRing p ring.val (fun g => { g with unsig := 0 })).signal p g.vector)

/-! ## Push grants (12 R390 to R394). -/

/-- Grant bytes a port may have outstanding. -/
def grantBudget : Nat := 4194304

/-- A length rounded up to 4 KiB. -/
def pageUp (n : Nat) : Nat := ceilDiv n 4096 * 4096

/-- The budget a port has free. -/
def PortState.budget (x : PortState) : Nat := grantBudget - (x.grants.map (fun g => pageUp g.len)).foldl (· + ·) 0

/-- The lowest free place for n bytes in a ring's window: its start, or the end of a grant, page-aligned (12 R391). -/
def PortState.window (x : PortState) (ring n : Nat) : Nat :=
  let base := ring * 2 ^ 30
  let mine := x.grants.filter (fun g => g.ring = ring)
  let free := fun o => mine.all (fun g => o + n ≤ g.offset || g.offset + g.len ≤ o)
  ((base :: (sortBy (· < ·) (mine.map (fun g => pageUp (g.offset + g.len))))).find? free).getD base

/-- The next grant number: one that no outstanding grant holds (12 R391). -/
def PortState.nextId (x : PortState) : Nat :=
  (((List.range 65536).map (fun i => (x.lastGrant + 1 + i) % 65536)).find? (fun k => x.grants.all (fun g => g.ident ≠ k))).getD 0

/-- The command that receives the next grant: the first in fetch order with data not granted (12 R391). -/
def State.waitingGrant (s : State) : Option Cmd := s.cmdsInOrder.find? (fun c => c.stage ≠ 0 && c.granted < c.need)

/-- XRDY (12 R391, 02 R59). -/
def execXrdy (s : State) : Host.Outcome State Fault Refusal :=
  match s.waitingGrant with
  | none => .next s
  | some c =>
    let x := s.port c.port
    if x.budget < 4096 ∨ s.media.veneerFree < 2 ^ 30 then .next s
    else
      let n := min (min 1048576 (c.need - c.granted)) (x.budget / 4096 * 4096)
      let off := x.window c.ring n
      let id := x.nextId
      let g : PGrant := ⟨id, c.ring, c.ident, off, n, c.granted, [], none⟩
      let s := s.modPort c.port (fun x => { x with
        grants := x.grants ++ [g]
        lastGrant := id
        ended := x.ended.filter (fun e => e.offset + e.len ≤ off || off + n ≤ e.offset) })
      let s := s.modCmd c.ident (fun c => { c with granted := c.granted + n })
      .next (s.hold c.port c.ring ⟨c.tag, .success, true, 0#16, leBytes 8 off ++ leBytes 4 n ++ leBytes 4 c.granted ++ leBytes 2 id ++ zeros 2, c.noIrq, c.slot,
        BitVec.ofNat 16 c.opcode⟩)

/-- The lowest byte of a grant that no run covers. -/
def firstGap (runs : List (Nat × Nat)) : Nat → Nat → Nat
  | 0, pos => pos
  | k + 1, pos =>
    match runs.find? (fun r => r.1 ≤ pos && pos < r.1 + r.2) with
    | some r => firstGap runs k (r.1 + r.2)
    | none => pos

/-- The lowest byte of a grant not yet written. -/
def PGrant.gap (g : PGrant) : Nat := min g.len (firstGap g.written g.written.length 0)

/-- Whether every unit of a grant is written (12 R393). -/
def PGrant.complete (g : PGrant) : Bool := g.gap = g.len

/-- A grant is complete: its bytes count as received and its space is free (12 R393). -/
def State.grantDone (s : State) (p : Port) (g : PGrant) : State :=
  let s := s.modPort p (fun x => { x with grants := x.grants.filter (fun e => e.ident ≠ g.ident), ended := x.ended ++ [g] })
  s.modCmd g.cmd (fun c => { c with got := c.got + g.len })

/-- A stray push (12 R394). -/
def State.stray (s : State) (p : Port) (kind v : Nat) : State := s.record 0x2005 (sourceOf 7 p.num) (leBytes 1 kind ++ leBytes 8 v)

/-- The bytes of a write that lie in a grant land; a byte written before takes the old or the new value, which one is free (12 R392). -/
def State.pushInto (s : State) (p : Port) (g : PGrant) (off : Nat) (data : List Byte) : State :=
  let lo := max off g.offset
  let hi := min (off + data.length) (g.offset + g.len)
  let part := (data.drop (lo - off)).take (hi - lo)
  let at0 := lo - g.offset
  let old := ((s.cmd? g.cmd).map (fun c => Mem.read 0 c.data (g.dataOffset + at0) part.length)).getD []
  let bytes := part.mapIdx (fun i b =>
    if g.written.any (fun r => r.1 ≤ at0 + i && at0 + i < r.1 + r.2) ∧ Config.freeBits (s.freeCtr + i) 1 = 0#1 then old.getD i b else b)
  let g' := { g with written := g.written ++ [(at0, part.length)] }
  let s := (s.spend part.length).modCmd g.cmd (fun c => { c with data := Mem.write 0 c.data (g.dataOffset + at0) bytes })
  let s := s.modPort p (fun x => { x with grants := x.grants.map (fun e => if e.ident = g.ident then g' else e) })
  if g'.doneAt.isSome ∧ g'.complete then s.grantDone p g' else s

/-- Whether a run of BAR2 meets a grant's space. -/
def PGrant.meets (g : PGrant) (off n : Nat) : Bool := off < g.offset + g.len && g.offset < off + n

/-- PUSH_WRITE (12 R392, R394; 14 R461): what lies in outstanding grants lands; a write that lies anywhere else is stray. Push data that fails its parity check twice on its
way into memory lands nowhere, and the commands it is for end with TIER_FAILED. -/
def execPushWrite (p : Port) (offset : Nat) (data : Burst) (s : State) : Host.Outcome State Fault Refusal :=
  let n := data.bytes.length
  let s := s.pathError data.parity
  let hits := (s.port p).grants.filter (fun g => g.meets offset n)
  let inside := (hits.map (fun g => min (offset + n) (g.offset + g.len) - max offset g.offset)).foldl (· + ·) 0
  let late := (s.port p).ended.any (fun g => g.meets offset n)
  let s := hits.foldl (fun s g => if data.parity.lost then s.completeWith g.cmd .tierFailed 0 [] else s.pushInto p g offset data.bytes) s
  if n ≤ inside then .next s else .next (s.stray p (if late then 1 else 0) offset)

/-- A DATA_DONE value acts: it names a grant whose DATA_DONE has not come, or is stray (12 R392 to R394). -/
def State.setDataDone (s : State) (p : Port) (v : Nat) : State :=
  match (s.port p).grants.find? (fun g => g.ident = v % 65536 && g.ring = bitsOf v 16 6 && g.doneAt.isNone) with
  | none => s.stray p 2 v
  | some g =>
    let g' := { g with doneAt := some s.now }
    let s := s.modPort p (fun x => { x with grants := x.grants.map (fun e => if e.ident = g.ident then g' else e) })
    if g'.complete then s.grantDone p g' else s

/-- A write to DATA_DONE: the Owner's alone; its fields are WO, so the other half of a 32-bit write is zero. -/
def State.writeDataDone (s : State) (w : RegW) : State :=
  match mergedW w 0#64 with
  | none => s
  | some v =>
    if ¬ s.isOwner w.port then s
    else if s.asleep then s.latch w.port 0x140000 v.toNat
    else s.setDataDone w.port v.toNat

/-- DATA_DONE (12 R392, R393). -/
def execDataDone (w : RegW) (s : State) : Host.Outcome State Fault Refusal := .next (s.writeDataDone w)

/-- DATA_DONE_WAIT_END (12 R393): 100 µs after its DATA_DONE a grant with a unit missing ends its command, which names the lowest byte missing. -/
def execDataDoneWaitEnd (grant : Nat) (s : State) : Host.Outcome State Fault Refusal :=
  let p := s.host.owner
  match (s.port p).grants.find? (fun g => g.ident = grant && g.doneAt.isSome) with
  | none => .next s
  | some g =>
    if g.complete then .next (s.grantDone p g)
    else
      let s := s.at_ (g.doneAt.getD 0 + 100 * usUnits)
      .next (s.completeWith g.cmd .invalidField 0 (leBytes 4 (g.dataOffset + g.gap) ++ leBytes 2 grant ++ zeros 14))

/-! ## Rings made and deleted; port resets (12 R374, R380; 13 R418, R419). -/

/-- A new ring pair: doorbells, phases and counts at their start. -/
def Ring.make (cmdBase replyBase cmdSize replySize vector coalCount coalTime : Nat) (dl : Option Nat) : Ring where
  cmdBase := cmdBase
  replyBase := replyBase
  cmdSize := cmdSize
  replySize := replySize
  head := 0
  tail := 0
  replyHead := 0
  replyNext := 0
  phase := true
  vector := vector
  coalCount := coalCount
  coalTime := coalTime
  defDeadline := dl
  unsig := 0
  oldest := 0
  frozen := false
  held := []

/-- Commands of a port in progress, and those of one of its rings. -/
def State.cmdsOf (s : State) (p : Port) : List Cmd := s.cmdsInOrder.filter (fun c => c.port = p)

/-- A ring is gone: its commands end without replies, its error entry and its halt are cleared (12 R374, 13 R419). -/
def State.deleteRing (s : State) (p : Port) (r : Nat) : State :=
  let s := ((s.cmdsOf p).filter (fun c => c.ring = r)).foldl (fun s c => s.endCmdSilently c.ident) s
  let s := s.modPort p (fun x => { x with rings := Tab.del x.rings r })
  { s with host := { s.host with
      errors := if s.isOwner p then Tab.del s.host.errors r else s.host.errors
      halts := if s.isOwner p then s.host.halts.filter (fun x => x.1 ≠ .ring r) else s.host.halts } }

/-- The commands of a port end without replies, its grants are revoked and its rings deleted (12 R374, R380). -/
def State.clearPort (s : State) (p : Port) : State :=
  let s := s.modPort p (fun x => x.revoke (fun _ => true))
  let s := (s.cmdsOf p).foldl (fun s c => s.endCmdSilently c.ident) s
  (Tab.keys (s.port p).rings).foldl (fun s r => s.deleteRing p r) s

/-- MSI-X back at reset: every vector masked with address and data zero, nothing pending (18 R574). -/
def PortState.msixReset (x : PortState) : PortState := { x with msix := [], pending := [] }

/-- A port's function reset: MSI-X and what the host has set in its configuration space (12 R374; log entry 149). -/
def PortState.functionReset (x : PortState) : PortState := { x.msixReset with config := PciConfig.reset, aerCorr := 0 }

/-- A port's reset with its event: 0 PERST#, 1 FLR, 2 link loss, 3 the admin ring disabled (12 R374, R380; 15 R492). -/
def State.resetPort (s : State) (p : Port) (cause : Nat) : State :=
  let s := s.clearPort p
  let s := s.modPort p (fun x =>
    if cause = 3 then x
    else
      let x := x.functionReset
      if cause = 1 then x else { x with linkUp := false, speed := 0#3, width := 0#5, mps := 0#3, perst := x.perst || cause = 0 })
  s.record 0x2002 (sourceOf 7 p.num) (leBytes 1 p.num ++ leBytes 1 cause)

/-- PORT_RESET (12 R374). -/
def execPortReset (p : Port) (c : ResetCause) (s : State) : Host.Outcome State Fault Refusal :=
  match c with
  | .perst => .next (s.resetPort p 0)
  | .flr => .next (s.resetPort p 1)
  | .linkLoss => .next (s.resetPort p 2)

/-- A size field of ADMIN_SIZE within 2 to 65,536 (12 R380). -/
def ringSizeOk (n : Nat) : Bool := 2 ≤ n && n ≤ 65536

/-- A write to ADMIN_CTRL of one's own port (12 R380, 18 R558). -/
def State.writeAdminEn (s : State) (w : RegW) : State :=
  let x := s.port w.port
  match mergedW w (BitVec.ofNat 64 (bit x.adminEn)) with
  | none => s
  | some v =>
    if v.getLsbD 0 then
      let cs := bitsOf x.adminSize.toNat 0 17
      let rs := bitsOf x.adminSize.toNat 32 17
      if x.adminEn ∨ !ringSizeOk cs ∨ !ringSizeOk rs then s
      else s.modPort w.port (fun x => { x with
        rings := Tab.put x.rings 0 (Ring.make (x.adminCmdBase.toNat / 4096 * 4096) (x.adminReplyBase.toNat / 4096 * 4096) cs rs 0 0 0 none) })
    else if x.adminEn then s.resetPort w.port 3 else s

/-- ADMIN_EN (12 R380). -/
def execAdminEn (w : RegW) (s : State) : Host.Outcome State Fault Refusal := .next (s.writeAdminEn w)

/-- COMMAND_DEADLINE_EXPIRED (12 R406, 08 R258): past its expiry tick a command whose checks have passed ends. -/
def execCommandDeadlineExpired (id : Nat) (s : State) : Host.Outcome State Fault Refusal :=
  match s.cmd? id with
  | none => .next s
  | some c =>
    match c.expiry with
    | none => .next s
    | some e => if c.stage = 0 then .next s else .next ((s.at_ ((e + 1) * tickUnits)).endCmd id .deadlineExpired false)

end Sys2Proof.Machine
end

