-- ==== Sys2Proof/Machine/Weights.lean ====
section
/-! DEFINITION. The weights of a model as the engines store them: the weight recipe, blocked weights, column sums and correction vectors, and the weights of outlier channels
(05 R152, R162, R164, R175, R176, R178). -/

namespace Sys2Proof.Machine

/-- The scale of an output channel whose largest magnitude at load is a (05 R164). -/
def weightScale (a : Nat × Nat) (fmt : Nat) : Nat := if a.1 = 0 then 0x3F800000 else scaleUp (.fin false a.1 a.2) (qmaxOf fmt)

/-- The entry of kind weight with a scale (05 R161, R162). -/
def weightEntry (scale : Nat) : W64 := BitVec.ofNat 64 (ScaleE.toNat ⟨scale, 0, false, 0⟩)

/-- Whether a format is blocked: BI4 or BI8. -/
def fmtBlocked (fmt : Nat) : Bool := fmt = 9 || fmt = 10

/-- The weights of one output channel in a format: their codes, the exponents of a blocked format, and the scale entry of any other (05 R152, R162, R164). -/
def weightRow (fmt : Nat) (vs : List Num) : List Int × List Byte × Option W64 :=
  if fmtBlocked fmt then
    let blocks := (chunksOf 32 vs).map (toBlock .even (fmtBits fmt))
    (blocks.flatMap (fun b => b.2.1), blocks.map (fun b => e8Code b.1), none)
  else
    let scale := weightScale (maxMag (vs.map finMag)) fmt
    (vs.map (fun v => intValue fmt (encodeFmt fmt .even 0 (v.div (num32 scale))).1), [], some (weightEntry scale))

/-- The values of one output channel with those of the listed input channels written as zero (05 R176). -/
def mainValues (listed : List Nat) (vs : List W32) : List Num := vs.mapIdx (fun i v => if i ∈ listed then .ofInt 0 else num32 v.toNat)

/-- The weights of the listed input channels for one output channel, held apart: in FP16, or in INT16 with a weight entry (05 R176). -/
def apartRow (half : Bool) (listed : List Nat) (vs : List W32) : List Nat × Option W64 :=
  let l := listed.map (fun i => num32 (vs.getD i 0#32).toNat)
  if half then (l.map (fun v => (encodeFmt 12 .even 0 v).1), none)
  else
    let r := weightRow 6 l
    (r.1.map (wrapTo 16), r.2.2)

/-- The correction of one output channel with column sum c and weight zero point zw, over Kr reduction elements, for the activation's zero point zx: one INT48 value
(05 R175). -/
def correction (zx c zw : Int) (kr : Nat) : Int := (sat48 (-zx * c + (kr : Int) * zw * zx)).1

/-- The tensor an image's source makes: an imported one keeps its codes (05 R152, R162, R164, R175, R176; log entry 76). -/
def makeWeights (w : WSource) : WTensor :=
  let rows := w.values.map (fun vs => weightRow w.fmt (mainValues w.listed vs))
  let codes := if w.codes.isEmpty then rows.map (·.1) else w.codes
  let sums := codes.map (fun l => l.foldl (· + ·) 0)
  let apart := if w.listed.isEmpty then [] else w.values.map (apartRow w.half w.listed)
  { fmt := w.fmt
    codes := codes
    exps := rows.map (fun r => r.2.1)
    entries := if w.codes.isEmpty then rows.filterMap (fun r => r.2.2) else w.given
    sums := sums
    corr := if w.zw.isEmpty then [] else (codes.zip (sums.zip w.zw)).map (fun x => correction w.zx x.2.1 x.2.2 x.1.length)
    listed := w.listed
    apart := apart.map (·.1)
    apartEntries := apart.filterMap (·.2) }

/-- The bytes of a model image. -/
def Model.bytes (m : Model) : List Byte := Mem.read 0 m.image 0 m.len

/-- The weights the engines store, from the bytes of a model image or of a master-weight region (05 R164, R178). -/
def weightsOf (b : List Byte) : List WTensor := (Config.modelTensors b).map makeWeights

end Sys2Proof.Machine
end

