-- ==== Sys2Proof/Machine/Starts.lean ====
section
/-! DEFINITION. What a stop loses and what a start does: power loss, cold starts, module resets, Try-square and start-up recovery
(02 R71, R72; 14 R470 to R473; 15 R493 to R500; 16 R507, R508, R524 to R532; 17 R540, R554; 19 R588, R593). -/

namespace Sys2Proof.Machine

/-! ## Sensors (15 R504, R505). -/

/-- The bin a reading in quarter degrees falls in. -/
def tempBin (r : Int) : Nat := if r < 0 then 0 else min 15 (r.toNat / 40 + 1)

/-- One reading takes the place of the latest, and of the peaks if it is strictly higher; `held` counts the second it stands for. -/
def Sensor.take (x : Sensor) (opTime : Nat) (r : W16) (held : Bool) : Sensor :=
  { x with
    bins := if held then Tab.put x.bins (tempBin r.toInt) (satAdd (Tab.at x.bins (tempBin r.toInt) 0) 1 (2 ^ 32 - 1)) else x.bins
    peak := if x.peak.toInt < r.toInt then r else x.peak
    peakTime := if x.peak.toInt < r.toInt then opTime else x.peakTime
    cyclePeak := if x.cyclePeak.toInt < r.toInt then r else x.cyclePeak
    cycleTime := if x.cyclePeak.toInt < r.toInt then opTime else x.cycleTime
    current := r }

/-- A sensor reads. -/
def State.reading (s : State) (k : Nat) (r : W16) (held : Bool) : State :=
  { s with health := { s.health with sensors := Tab.put s.health.sensors k ((Tab.at s.health.sensors k Sensor.reset).take s.opTime r held) } }

/-! ## Power states (16 R511, R517, R518). -/

/-- Time in the present state is added to its residency, in ms. -/
def Power.stay (x : Power) (now : Nat) : Power :=
  { x with residency := Tab.bump x.residency x.st.num ((now - x.since) / msUnits), since := now }

/-- A change of power state with its event (16 R518). -/
def State.enter (s : State) (t : PState) : State :=
  let old := s.power.st
  let s := { s with power := { s.power.stay s.now with st := t, entries := Tab.bump s.power.entries t.num 1 } }
  s.record 0x1003 (sourceOf 0 0) (leBytes 1 old.num ++ leBytes 1 t.num)

/-! ## The recorder over a stop (15 R493, R495). -/

/-- Records that survive a loss: those of the newest tail image, or those of full pages if they reach further. -/
def Events.survivors (e : Events) : List Event :=
  let paged := (e.recs.length - 1) / 256 * 256
  if e.durRecs.length < paged then e.recs.take paged else e.durRecs

/-- Whether a loss takes a change that was not durable. -/
def Events.loses (e : Events) : Bool := e.recs ≠ e.survivors || e.logFull ≠ e.durFull || e.dropped ≠ e.durDropped

/-- The recorder after a loss: numbering resumes after the reservation mark (15 R493, R495). -/
def Events.afterLoss (e : Events) : Events :=
  { e with
    recs := e.survivors
    durRecs := e.survivors
    nextSeq := if e.loses then e.durMark + 1 else e.nextSeq
    mark := e.durMark
    logFull := e.durFull
    dropped := e.durDropped }

/-- The last sequence number made durable. -/
def Events.lastDurable (e : Events) : Nat := (e.survivors.getLast?.map (·.seq)).getD 0

/-! ## What a stop loses (16 R526; 18 R558, R567). -/

/-- The plane-blocks that were open for programming: some unit is started, and not every one (02 R72). -/
def openBlocks (dies : Tab Die) : List Nat :=
  dies.flatMap (fun d => ((d.2.started.map (· / 1024)).dedup.filter (fun k => (d.2.started.filter (fun u => u / 1024 = k)).length < 1024)).map (fun k => d.1 * 8448 + k))

/-- The log pool table with only the newest n logs of a stripe, those its entry names (02 R53, R65). -/
def Tables.newestLogs (t : Tables) (l n : Nat) : Tab (Nat × Nat) :=
  let mine := sortBy (fun (a b : Nat × Nat × Nat) => b.2.2 < a.2.2) (t.logs.filter (fun x => x.2.1 = l))
  let kept := (mine.take n).map (·.1)
  t.logs.filter (fun x => x.2.1 ≠ l || x.1 ∈ kept)

/-- A record replayed on a checkpoint's tables (02 R67, R69, R70). -/
def Tables.apply (t : Tables) (r : JRecord) : Tables :=
  let t := { t with seq := r.seq }
  let p := bitsOf r.aux 0 20
  match r.type with
  | .mapSet =>
    let e := mapEntryOf r.new
    if bitOf r.aux 24 then
      (match Tab.find t.opens r.lstripe with
       | some seen => if Tab.find t.map r.lstripe = seen then { t with map := Tab.put t.map r.lstripe e, opens := Tab.del t.opens r.lstripe, logs := t.newestLogs r.lstripe (bitsOf r.new 35 3) } else { t with opens := Tab.del t.opens r.lstripe }
       | none => t)
    else if ((Tab.find t.map r.lstripe).map (fun x => decide (x.pstripe = e.pstripe))).getD (e.owner = 17) then { t with map := Tab.put t.map r.lstripe e }
    else t
  | .mapClear => { t with map := Tab.del t.map r.lstripe, opens := Tab.del t.opens r.lstripe, logs := t.logs.filter (fun x => x.2.1 ≠ r.lstripe) }
  | .logAttach => { t with logs := Tab.put t.logs p (r.lstripe, r.seq) }
  | .logDetach => { t with logs := Tab.del t.logs p }
  | .targetOpen => { t with opens := Tab.put t.opens r.lstripe (if r.new = 0 then none else some (mapEntryOf r.new)) }
  | .substitute =>
    { t with subst := (p, bitsOf r.aux 20 4, bitsOf r.new 0 4, bitsOf r.new 4 12) :: t.subst.filter (fun x => !(x.1 = p && x.2.1 = bitsOf r.aux 20 4)) }
  | .blockRetire => { t with subst := t.subst.filter (fun x => !(x.1 = p && x.2.1 = bitsOf r.aux 20 4)) }
  | .spareState => { t with spare := r.new }
  | _ => t

/-- The tables a start finds: the newest checkpoint, or the one before it where its pages do not all decode, or none at all, and the records after it (02 R69). -/
def Media.replayed (m : Media) (newestOk : Bool) : Tables :=
  let cps := if newestOk then m.cps else m.cps.take (m.cps.length - 1)
  let from_ : Tables := match cps.getLast? with
    | some c => c.tables
    | none => ⟨[], [], [], [], 0, 0⟩
  (m.jLog.filter (fun r => from_.seq < r.seq)).foldl Tables.apply from_

/-- The map, the log pool's stripes, the substitution table and the spare state as the start's replay gives them (02 R69, R81). -/
def Media.reload (m : Media) (newestOk : Bool) : Media :=
  let t := m.replayed newestOk
  { m with
    map := t.map
    logs := t.logs.map (fun x => (x.1, ⟨x.2.1, x.2.2, ((Tab.find m.logs x.1).map (·.copies)).getD []⟩))
    subst := t.subst
    spareState := if t.spare = 2 then .readOnly else if t.spare = 1 then .low else .normal }

/-- The highest unit of each open block is treated as in flight: what it holds of the veneer and of log blocks goes to new veneer pages, which RDY_BLOCK waits for (02 R72). -/
def Media.copyHighest (m : Media) (now : Nat) (open_ : List Nat) : Media :=
  let top := fun (x : PageRec) => m.memberKey x.p x.member ∈ open_ && m.pages.all (fun e => !(e.2.p = x.p && e.2.member = x.member) || e.2.page ≤ x.page)
  let newer := fun (l : List SecCopy) (c : SecCopy) => l.any (fun d => d.owner = c.owner && d.sector = c.sector && c.seq < d.seq)
  let logged := (m.logs.flatMap (fun b => b.2.copies)).filter (fun c => ((Tab.find m.pages c.seq).map top).getD false)
  let again := logged.filter (fun c => !newer logged c && (newestIn m.veneer c.owner c.sector).isNone && m.newest c.owner c.sector = some c)
  again.foldl (fun (m : Media) c => m.place now { c with seq := m.writeSeq }) (m.resend top)

/-- Media management after a stop: records not committed are lost, a relocation before its MAP_SET is abandoned and its target erased, one after it goes on
to its ERASE_STARTs, no copy not acknowledged waits any more, and the blocks that were open take no further page: what their highest units hold is copied, log blocks and sketch
stripes among them are emptied by merges and relocations, those of the system region are erased once two checkpoints later than them are complete, members half rebuilt begin
again, and a veneer stripe whose VENEER_FOLDED had not committed is recorded again (02 R61, R71, R72, R80). -/
def Media.afterStop (m : Media) (now : Nat) (open_ : List Nat) : Media :=
  let early := fun (r : Reloc) => r.step = .opening || r.step = .opened || r.step = .copying || r.step = .copied
  let gone := (Tab.vals m.relocs).filter early
  let half := m.rebuilding.filter (fun x => m.substituted x.p x.member)
  let m : Media := { m with
    pend := m.pend.filter (fun p => p.cmd.isNone)
    pages := m.pages.filter (fun e => e.2.ok)
    logPend := []
    ring := m.ring.map (fun v => { v with folded := v.folded && Tab.has m.toErase v.p })
    closed := m.closed ++ open_.filter (fun k => k ∉ m.closed)
    cpBuild := none
    offsetsOn := []
    jNext := m.jDone + 1
    jPend := []
    jPages := []
    relocs := m.relocs.filter (fun e => !early e.2)
    relocNeeded := m.relocNeeded ++ (gone.filter (fun r => r.source.isSome)).map (·.lstripe)
    toErase := gone.foldl (fun t r => Tab.put t r.target []) m.toErase
    rebuilding := half.map (fun x => { x with sent := 0, okd := 0 })
    badBlocks := m.badBlocks ++ (half.map (fun x => m.memberKey x.p x.member)).filter (fun k => k ∉ m.badBlocks)
    susp := []
    ldpc := []
    counted := (m.counted.map (fun c => { c with cmds := [] })).filter (·.landed) }
  let again := (m.logs.filter (fun b => (List.range 16).any (fun k => m.memberKey (logStripe b.1) k ∈ open_))).map (fun b => b.2.lstripe)
  let sketch := (m.map.filter (fun e => e.2.slc && (List.range 16).any (fun k => m.memberKey e.2.pstripe k ∈ open_))).map (·.1)
  let m := { m with relocNeeded := m.relocNeeded ++ (again ++ sketch).dedup.filter (fun l => l ∉ m.relocNeeded) }
  let m := m.copyHighest now open_
  (Tab.vals m.relocs).foldl (fun (m : Media) r =>
    match r.step, r.source with
    | .mapSet, some _ => m.startErase now r
    | .starting, some _ => m.recordErases now r
    | .erasing, some p => { m with toErase := r.logs.foldl (fun t k => Tab.put t (logStripe k) []) (Tab.put m.toErase p []) }
    | _, _ => m) m

/-- The items and the index after a stop: bitmaps, queries, scans, mutations not committed and a merge are gone, and a leaf half written has no place (16 R526). -/
def Items.afterStop (x : Items) : Items :=
  { x.giveBack (heldIndices x.muts) with
    bitmaps := [], muts := [], queries := [], scans := [], running := [], merge := none, roots := x.roots.drop (x.roots.length - 1)
    nodes := Tab.changeAll x.nodes (fun n => (n.1, match n.2 with
      | .leaf (some p) ms => .leaf (if p.okd.all (· == true) then some p else none) ms
      | y => y)) }

/-- Services after a stop: no model loaded, no session, no build; an adaptation job ends aborted (16 R526). -/
def Services.afterStop (x : Services) : Services where
  models := Tab.changeAll x.models (fun m => { m with loaded := false, weights := [] })
  sessions := []
  nextSession := x.nextSession
  caches := x.caches.filter (fun e => !e.2.dropped)
  builds := []
  nextCache := x.nextCache
  decoders := []
  adapt := x.adapt.map (fun a => if a.state = 1 ∨ a.state = 2 then { a with state := 3 } else a)
  cachePolicy := 0#256
  nextModel := x.nextModel

/-- Integrity after a stop: registers and buckets at reset; the Jig image and the bounds stored with images stay (14 R468, R475, R483). -/
def Integrity.afterStop (x : Integrity) (now : Nat) : Integrity := { Integrity.reset with jig := x.jig, sites := x.sites, leakAt := now }

/-- The span after a stop: Alone, every port training; what the cages hold stays (11 R357, R359; 16 R526). -/
def Span.afterStop (x : Span) : Span := { Span.reset with cage2 := x.cage2, cage3 := x.cage3 }

/-- Host ports after a stop: no link, no rings, no command, no halt, no heartbeat; the hosts' own memory is theirs (12 R374, R375; 16 R530). -/
def HostT.afterStop (x : HostT) (owner : Port) : HostT := { HostT.reset with owner := owner, msgs := x.msgs, hostMem := x.hostMem }

/-- A copy of the security block whose block was open at the stop goes to a new block, and the old one is erased once all four copies stand (02 R72; 17 R540). -/
def State.reopenSecurity (s : State) (open_ : List Nat) : State :=
  let hit := (Tab.vals s.sec.pages.homes).filter (· ∈ open_)
  if hit.isEmpty then s
  else
    let s := s.secure
    { (s.modMedia (fun m => { m with badBlocks := m.badBlocks ++ hit.filter (fun k => k ∉ m.badBlocks) })) with
      sec := { s.sec with pages := { s.sec.pages with
        homes := s.sec.pages.homes.filter (fun h => h.2 ∉ open_), sent := [], old := s.sec.pages.old ++ hit.filter (fun k => k ∉ s.sec.pages.old) } } }

/-- Everything but durable state is gone; the flash of grants whose modules are gone is freed (02 R83; 13 R446; 16 R526). -/
def State.afterStop (s : State) : State :=
  let open_ := openBlocks s.dies
  let s := s.reopenSecurity open_
  State.freeFlash { s with
    media := { s.media.afterStop s.now open_ with
      reclaim := s.media.reclaim ++ (open_.filter (fun k => decide (k % 2112 < systemBlocks ∧ k ∉ s.sec.pages.held))).map (fun k => (k, s.media.cpNum)) }
    compute := Compute.reset
    steps := Steps.reset
    tiers := Tiers.reset
    items := s.items.afterStop
    serv := s.serv.afterStop
    span := s.span.afterStop
    host := s.host.afterStop s.power.cfg.ownerPort
    regul := Regul.reset
    integ := s.integ.afterStop s.now
    smbus := Smbus.reset } s.flashOwned

/-- A firmware command in progress leaves the slot not running incomplete (16 R532). -/
def State.fwCut (s : State) : Bool := (Tab.vals s.host.cmds).any (fun c => c.opcode = 0x0902 || (c.opcode = 0x0901 && c.stage ≠ 0))

/-- The slot not running, and a change to it (17 R552). -/
def Security.other (x : Security) : FwSlot := if x.activeB then x.slotA else x.slotB
def Security.setOther (x : Security) (f : FwSlot → FwSlot) : Security := if x.activeB then { x with slotA := f x.slotA } else { x with slotB := f x.slotB }
/-- The slot running. -/
def Security.active (x : Security) : FwSlot := if x.activeB then x.slotB else x.slotA

/-- That slot is marked incomplete; its event follows at the start (16 R532). -/
def State.cutFw (s : State) : State :=
  if s.fwCut then { s with sec := { (s.sec.setOther (fun x => { x with st := .incomplete })) with fwBusy := true, nextB := s.sec.activeB } } else s

/-- Copies not acknowledged that the stop leaves present land; the module copies them to new pages before RDY_BLOCK (02 R58, R72). -/
def State.landSome (s : State) (keep : SecCopy → Bool) : State :=
  s.modMedia (fun m =>
    let mine := m.pend.filter (fun p => p.cmd.isSome && keep p.copy)
    let m := { m with pages := m.pages.filter (fun e => e.2.ok) }
    { (m.land s.now (mine.map (·.copy))) with pend := m.pend.map (fun p => if p ∈ mine then { p with cmd := none } else p) })

/-- Power is lost: what is in flight in the dies is cut short, and everything volatile goes (01 R34, R35; 02 R58; 19 R588). -/
def State.losePower (s : State) (landed : List (Nat × Nat)) : State :=
  let s := s.landSome (fun c => (c.owner, c.sector) ∈ landed)
  let s := s.cutFw
  let s := { s with dies := Tab.changeAll s.dies Die.cleared }
  let s := s.afterStop
  { s with power := { s.power.stay s.now with good := false, opTime := s.opTime, opTimeAt := s.now, ready := 0#6, readyAtEntry := 0#6, hib := none, wakeLatched := false } }

/-! ## Try-square (14 R470 to R473; 15 R600). -/

/-- The SOURCE of a unit of R600. -/
def unitSource (u i : Nat) : Nat :=
  if u = 0 then sourceOf 3 i
  else if u = 2 then sourceOf 1 (i / 16)
  else if u = 3 then sourceOf 6 i
  else if u = 4 then sourceOf 5 i
  else if u = 5 then sourceOf 4 i
  else if u ∈ [1, 6, 7, 8, 9] then sourceOf 2 i
  else if u = 12 then sourceOf 10 i
  else sourceOf 0 0

/-- What a failing unit's failure maps out (14 R473). -/
def State.mapOut (s : State) (u i : Nat) : State :=
  if u = 0 then s.retireEngine i 1
  else if u = 2 then
    (if i ∈ s.integ.jig.ways then s
     else ((s.jigChange (fun j => { j with ways := i :: j.ways })).retired 2 i 1 (sourceOf 1 (i / 16))))
  else if u = 3 then (if i ∈ s.integ.jig.hbmOut then s else (s.jigChange (fun j => { j with hbmOut := i :: j.hbmOut })).retired 3 i 1 (sourceOf 6 i))
  else if u = 4 then (if i ∈ s.integ.jig.decoders then s else (s.jigChange (fun j => { j with decoders := i :: j.decoders })).retired 4 i 1 (sourceOf 5 i))
  else if u = 5 then (if i ∈ s.integ.jig.comparators then s else (s.jigChange (fun j => { j with comparators := i :: j.comparators })).retired 5 i 1 (sourceOf 4 i))
  else if u ∈ [6, 7, 8, 9] then s.retireCore i 1
  else s

/-- One failure: its event, TRY_SQUARE, and what is mapped out; the Escapement, a configuration-block checker, a control core or the entropy source leaves
RDY_ADMIN alone (14 R470, R473; 17 R550). -/
def State.tryFail (s : State) (f : Nat × Nat) : State :=
  let s := (s.record 0x4004 (unitSource f.1 f.2) (leBytes 2 f.1 ++ leBytes 2 f.2)).setErr 11
  if f.1 ∈ [10, 11, 12, 13] then { s with power := { s.power with adminOnly := true } } else s.mapOut f.1 f.2

/-! ## Starts (16 R524). -/

/-- Whether a slot may boot: its image verifies and its security version is not below the fuse count (17 R553, R554). -/
def Security.boots (x : Security) (b : Bool) : Bool :=
  let slot := if b then x.slotB else x.slotA
  slot.st = .verified && x.fuses ≤ slot.secVer

/-- The slot a start runs: the next boot slot, else the other one, else none (17 R554). -/
def State.boot (s : State) : State :=
  if s.sec.boots s.sec.nextB then { s with sec := { s.sec with activeB := s.sec.nextB }, power := { s.power with noBoot := false } }
  else if s.sec.boots !s.sec.nextB then
    { s with sec := { s.sec with activeB := !s.sec.nextB, nextB := !s.sec.nextB }, power := { s.power with noBoot := false, bringUpFails := 0 } }
  else { s with power := { s.power with noBoot := true } }

/-- The configuration block is taken, or the factory defaults (16 R527, R528); the module number recorded with the item areas is always the present one. -/
def State.takeConfig (s : State) (ok : Bool) : State :=
  if ok then { s with power := { s.power with cfgDefaulted := false, idle := s.power.cfg.idle }, host := { s.host with owner := s.power.cfg.ownerPort } }
  else
    let cfg := { Config256.factory with seq := s.power.cfg.seq, moduleNumber := s.power.cfg.moduleNumber }
    let s := { s with power := { s.power with cfg := cfg, cfgDefaulted := true, idle := cfg.idle }, host := { s.host with owner := .a } }
    s.record 0x1001 (sourceOf 0 0) []

/-- The page of highest sequence of the security block is taken, with LOCK_SEQ never falling back (17 R541), or the block is counted lost: every volume is locked and the lock is in force with no owner key (17 R540). -/
def State.takeSecurity (s : State) (ok : Bool) : State :=
  let sec := { s.sec with drbg := true, drbgReqs := 0 }
  let i := s.sec.pages.image
  if ok then
    { s with sec := { sec with
      ownerKey := i.ownerKey, lockSeq := max i.lockSeq s.sec.lockSeq, locked := i.locked, policy := i.policy, volLocks := i.volLocks
      pages := { sec.pages with sent := [], homes := [], seq := sec.pages.newest } } }
  else { s with sec := { sec with lost := true, locked := true, ownerKey := [], volLocks := 0xFFFF#16 } }

/-- FW_INCOMPLETE for a firmware command a stop cut short (16 R532). -/
def State.fwEvent (s : State) : State :=
  if s.sec.fwBusy then ({ s with sec := { s.sec with fwBusy := false } }).record 0x7002 (sourceOf 0 0) (leBytes 1 (bit (!s.sec.activeB))) else s

/-- The copies of media and health values that SMBus and MEDIA_STATE show are made afresh (18 R570, R577). -/
def State.refreshCopies (s : State) : State :=
  let w := s.media.wearStats
  { s with smbus := { s.smbus with spareState := s.media.spareState.num, spares := s.media.spares, wearMean := w.1, wearMax := w.2, uncTotal := s.health.uncTotal } }

/-- Stripes of volumes and areas whose data was destroyed and whose MAP_CLEAR had not committed: it is recorded again (02 R87; log entry 81). -/
def Media.clearGone (m : Media) (now : Nat) : Media :=
  (m.map.filter (fun e => e.1 ∈ m.doomed)).foldl (fun (m : Media) e => m.journal now .mapClear e.1 0 0) m

/-- The rest of every start: the recorder, the registers at their Reset values, the configuration and security blocks, the boot slot, and Try-square,
which has ended when the step ends (00 R7, 14 R470, 16 R524). -/
def State.start (s : State) (o : StartOutcome) (lost : Bool) (first : List (Nat × Nat × List Byte)) : State :=
  let last := s.events.lastDurable
  let unclean := lost && s.events.loses
  let ev := if lost then s.events.afterLoss else s.events
  let s := { s with events := { ev with unstable := true } }
  let s := if unclean ∨ s.power.hardStop then s.record 0x0003 (sourceOf 0 0) (leBytes 8 last) else s
  let s := s.recordAll first
  let s := { s with power := { s.power with
    hardStop := false
    ready := 0#6
    readyAtEntry := 0#6
    hib := none
    wakeLatched := false
    powerCap := Power.reset.powerCap
    capBar := none
    capSmb := none
    mediaPolicy := Power.reset.mediaPolicy
    mhz := []
    stopped := []
    paced := []
    hot := []
    capping := false
    capPaced := false
    adminOnly := false
    trySquareDone := true
    inputW := 0
    startAt := s.now }, smbus := { s.smbus with errors := 0, out := [] }, health := { s.health with sensors := Tab.changeAll s.health.sensors (fun x => { x with current := 0#16 }) } }
  let s := (s.takeConfig o.configOk).takeSecurity o.securityOk
  let s := s.modMedia (fun m => (m.reload o.checkpointOk).clearGone s.now)
  let s := s.boot.fwEvent.refreshCopies
  (o.failed.foldl State.tryFail s).retrainAll

/-- A module reset: the dies keep their power and finish what they run, a suspended one is resumed, and the start follows; copies on their way to the veneer
may be found there, which is free (02 R58; 16 R530 to R532; 15 R495). -/
def State.resetModule (s : State) (o : StartOutcome) (first : List (Nat × Nat × List Byte)) : State :=
  let n := s.media.pend.length
  let kept := (s.media.pend.zipIdx.filter (fun e => Config.freeBits (s.freeCtr + e.2) 1 = 1#1)).map (·.1.copy)
  let s := (s.spend n).landSome (fun c => c ∈ kept)
  let s := s.cutFw
  let s := { s with dies := Tab.changeAll s.dies (fun (d : Die) =>
    let d := { d with op := d.op.map (fun (x : DieOp) => { x with prog := .none, er := .none }) }
    if d.susp then d.resumeOp s.now else d) }
  let s := s.afterStop
  let s := { s with power := { s.power.stay s.now with st := .a0 } }
  s.start o (!o.sramOk) first

/-- POWER_GOOD (16 R507, R508, R524; 19 R588): the counters are restored, one power cycle is counted, and a cold start runs. -/
def execPowerGood (slotId : BitVec 4) (smbAddrSel : Bool) (o : StartOutcome) (s : State) : Host.Outcome State Fault Refusal :=
  if s.power.good then .next s
  else
    let restored := max s.power.savedTime ((s.events.survivors.getLast?.map (·.opTime)).getD 0) + 1
    let s := { s with
      power := { s.power with
        good := true
        st := .a0
        since := s.now
        opTime := restored
        opTimeAt := s.now
        cycles := satAdd s.power.cycles 1 (2 ^ 24 - 1)
        slotId := slotId
        smbAlt := smbAddrSel }
      health := { s.health with sensors := Tab.changeAll s.health.sensors (fun x => { x with cyclePeak := 0x8000#16, cycleTime := 0 }) } }
    .next (s.start o true [])

/-- POWER_LOSS (19 R588, 01 R34, 02 R58): `landed` names the unacknowledged sectors that are present afterwards. -/
def execPowerLoss (landed : List (Nat × Nat)) (s : State) : Host.Outcome State Fault Refusal :=
  if s.power.good then .next (s.losePower landed) else .next s

/-- THERMAL_HARD_STOP (19 R593): conversion stops at 125 °C of a junction or 85 °C of a flash case; the Escapement keeps running. -/
def execThermalHardStop (sensor : Fin 32) (reading : W16) (landed : List (Nat × Nat)) (s : State) : Host.Outcome State Fault Refusal :=
  let hot := (sensor.val < 4 ∧ 500 ≤ reading.toInt) ∨ (20 ≤ sensor.val ∧ sensor.val < 28 ∧ 340 ≤ reading.toInt)
  if s.power.good ∧ hot then
    let s := (s.reading sensor.val reading false).losePower landed
    .next { s with power := { s.power with hardStop := true } }
  else .next s

/-- MODULE_RESET (16 R530, R532): key 0xA5 from the Owner. -/
def execModuleReset (w : RegW) (o : StartOutcome) (s : State) : Host.Outcome State Fault Refusal :=
  match mergedW w 0#64 with
  | none => .next s
  | some v => if s.power.good ∧ s.isOwner w.port ∧ v.toNat % 256 = 0xA5 then .next (s.resetModule o []) else .next s

/-- WATCHDOG_EXPIRED (16 R529): number 1 a control core, 2 the bring-up, 5 s after a start without RDY_ADMIN; after two consecutive bring-up expiries on one slot
the other boots, if it holds a verified image. -/
def execWatchdogExpired (bringUp : Bool) (o : StartOutcome) (s : State) : Host.Outcome State Fault Refusal :=
  if ¬ s.power.good ∨ s.power.st = .a2 ∨ s.power.st = .a3 then .next s
  else if bringUp then
    (if s.power.ready.getLsbD 0 then .next s
     else
       let s := s.at_ (s.power.startAt + 5 * secUnits)
       let fails := s.power.bringUpFails + 1
       let swap := 2 ≤ fails && (if s.sec.activeB then s.sec.slotA.st = .verified else s.sec.slotB.st = .verified)
       let s := { s with
         power := { s.power with bringUpFails := if swap then 0 else fails }
         sec := { s.sec with nextB := if swap then !s.sec.activeB else s.sec.nextB } }
       .next (s.resetModule o [(0x1002, sourceOf 0 0, leBytes 1 2)]))
  else .next (s.resetModule o [(0x1002, sourceOf 0 0, leBytes 1 1)])

/-- ENTROPY_HEALTH_TEST_FAILURE (17 R550): the DRBG stops and the module resets; the start seeds it anew. -/
def execEntropyHealthTestFailure (o : StartOutcome) (s : State) : Host.Outcome State Fault Refusal :=
  if s.power.good then .next ({ s with sec := { s.sec with drbg := false } }.resetModule o []) else .next s

/-- The boot models are loaded, with their weights (05 R164; 16 R527). -/
def State.loadBoot (s : State) : State :=
  { s with serv := { s.serv with models := s.serv.models.map (fun e => if BitVec.ofNat 64 e.1 ∈ s.power.cfg.boot then (e.1, { e.2 with loaded := true, weights := weightsOf e.2.bytes }) else e) } }

/-- READINESS_SET (14 R473; 15 R500; 16 R525): a bit is set when its condition holds: RDY_SEARCH, RDY_SPAN and RDY_ASK need RDY_COMPUTE, RDY_ASK loads the
boot models, and before RDY_BLOCK the recorder is stable and data in flight at the stop stands on new pages (02 R72). With no answer model to load, RDY_ASK comes with RDY_COMPUTE. -/
def State.setReady (s : State) (f : ReadyFn) : State :=
  let set := fun (s : State) (i : Nat) => { s with power := { s.power with ready := s.power.ready ||| BitVec.ofNat 6 (2 ^ i) } }
  let has := fun (i : Nat) => s.power.ready.getLsbD i
  let bootAnswer := s.power.cfg.boot.any (fun m => ((Tab.find s.serv.models m.toNat).map (·.answer)).getD false)
  if ¬ s.power.good ∨ s.power.noBoot ∨ s.power.st ≠ .a0 then s
  else
    match f with
    | .admin =>
      let s := set s 0
      { s with power := { s.power with bringUpFails := 0 } }
    | .block => if s.power.adminOnly ∨ !has 0 ∨ s.media.pend.any (fun p => p.cmd.isNone) then s else { set s 1 with events := { s.events with unstable := false } }
    | .compute =>
      if s.power.adminOnly ∨ !has 0 then s
      else
        let s := set s 2
        if bootAnswer then s else set s.loadBoot 5
    | .search => if has 2 then set s 3 else s
    | .span => if has 2 then set s 4 else s
    | .ask =>
      if has 2 then
        set s.loadBoot 5
      else s

/-- READINESS_SET (16 R525). -/
def execReadinessSet (f : ReadyFn) (s : State) : Host.Outcome State Fault Refusal := .next (s.setReady f)

end Sys2Proof.Machine
end

