-- ==== Sys2Proof/Machine/Power.lean ====
section
/-! DEFINITION. Power states, Hibernate and wake, power cap and thermal limits, and the Escapement's periodic work (15 R495, R505; 16 R507 to R523, R529;
17 R555; 18 R570; 19 R585). -/

namespace Sys2Proof.Machine

/-! ## The Escapement's periodic work. -/

/-- Whether the Escapement runs: in every power state, and after a thermal stop (16 R507, 19 R593). -/
def State.escapement (s : State) : Bool := s.power.good || s.power.hardStop

/-- OPERATING_TIME_SAVE (16 R508). -/
def execOperatingTimeSave (s : State) : Host.Outcome State Fault Refusal :=
  if s.escapement then .next { s with power := { s.power with savedTime := s.opTime } } else .next s

/-- TEMPERATURE_SAMPLE (15 R505): the readings of sensors 0 to 31, in quarter degrees. -/
def execTemperatureSample (readings : List W16) (s : State) : Host.Outcome State Fault Refusal :=
  if s.escapement then .next ((readings.take 32).zipIdx.foldl (fun s e => s.reading e.2 e.1 true) s) else .next s

/-- MEDIA_STATE_UPDATE (18 R570, R577): the control cores run in A0 and A1. -/
def execMediaStateUpdate (s : State) : Host.Outcome State Fault Refusal :=
  if s.power.good ∧ ¬ s.asleep then .next s.refreshCopies else .next s

/-- The recorder's tail image: the open page and the recorder's state become durable (15 R495). -/
def Events.tailImage (e : Events) : Events := { e with durRecs := e.recs, durMark := e.mark, durFull := e.logFull, durDropped := e.dropped }

/-- One tail image is programmed. -/
def State.makeTail (s : State) : State := ({ s with events := s.events.tailImage }).pagesProgrammed 1

/-- TAIL_IMAGE (15 R495). -/
def execTailImage (s : State) : Host.Outcome State Fault Refusal := if s.power.good then .next s.makeTail else .next s

/-- FUSE_BLOW (17 R555): 600 s after a start that set RDY_BLOCK, fuses are blown up to the running image's security version; a verified slot below the new count is rolled back. -/
def execFuseBlow (s : State) : Host.Outcome State Fault Refusal :=
  if s.power.good ∧ s.power.ready.getLsbD 1 then
    let s := s.at_ (s.power.startAt + 600 * secUnits)
    let n := min 64 (max s.sec.fuses s.sec.active.secVer)
    let roll := fun (x : FwSlot) => if x.st = .verified ∧ x.secVer < n then { x with st := .rolledBack } else x
    .next { s with sec := { s.sec with fuses := n, slotA := roll s.sec.slotA, slotB := roll s.sec.slotB } }
  else .next s

/-- The host's settings of a port's configuration space act: vectors that may signal from now on do, if they are pending (12 R372; 18 R574). -/
def State.configure (s : State) (p : Port) (config : PciConfig) : State :=
  let s := s.modPort p (fun x => { x with config := config })
  let due := (s.port p).pending.filter (fun v => !(s.port p).silent v)
  due.foldl (fun s v => s.signal p v) (s.modPort p (fun x => { x with pending := x.pending.filter (fun v => v ∉ due) }))

/-- PCIE_LINK_UP (12 R372; 16 R524; 18 R564): Gen3 to Gen5, 4, 8 or 16 lanes, and what the host has set in the port's configuration space. At a port whose link is up so already
it brings the host's later settings alone (log entry 149). -/
def execPcieLinkUp (p : Port) (speed : BitVec 3) (width : BitVec 5) (mps : BitVec 3) (config : PciConfig) (s : State) : Host.Outcome State Fault Refusal :=
  let ok := speed ∈ [3#3, 4#3, 5#3] ∧ width ∈ [4#5, 8#5, 16#5] ∧ mps.toNat ≤ 2 ∧ config.mrrs.toNat ≤ 5
  let same := (s.port p).linkUp → (s.port p).speed = speed ∧ (s.port p).width = width
  if s.power.good ∧ ¬ s.power.noBoot ∧ same ∧ ok then
    .next ((s.modPort p (fun x => { x with linkUp := true, speed := speed, width := width, mps := mps, perst := false })).configure p config)
  else .next s

/-! ## The hibernation image (16 R513, R514, R517). -/

/-- Bytes of an upper node: its header, its child pointers, its stored tiles (09 R286). -/
def nodeBytes (dims : Nat) : Node → Nat
  | .upper _ cs => 64 + (cs.flatMap Child.bytes).length + (centroidTiles dims cs).length
  | .leaf _ _ => 0

/-- Bytes that an entry to A3 would write now: mutable region 0x00 grants, region 0x03 grants, bitmaps, the fresh list, upper nodes and raised tiles. -/
def State.imageBytes (s : State) : Nat :=
  let sum := fun (l : List Nat) => l.foldl (· + ·) 0
  sum ((s.tiers.grants.filter (fun e => (e.2.region = 0 && !e.2.immutable) || e.2.region = 3)).map (fun e => e.2.len))
    + sum ((s.items.bitmaps ++ s.items.oldImages).map (fun e => e.2.len / 8))
    + s.items.fresh.length * (160 + s.items.width / 8)
    + sum (s.items.nodes.map (fun e => nodeBytes s.items.dims e.2.2))
    + (s.tiers.t2.filter (fun e => !e.2.lent)).length * 65536

/-- Bytes of immutable region 0x00 grants, whose loans are reloaded at exit. -/
def State.loanBytes (s : State) : Nat :=
  ((s.tiers.grants.filter (fun e => e.2.region = 0 && e.2.immutable)).map (fun e => e.2.len)).foldl (· + ·) 0

/-- Whether the spares hold the image: they stay at or above the read-only floor without the pSLC stripes it takes (02 R81, 16 R514). -/
def State.imageFits (s : State) : Bool := 12544 + 16 * ceilDiv s.imageBytes (15 * 1024 * 16384) ≤ s.media.spares

/-- A3_BLOCK: the first condition of R513 that applies (16 R517). -/
def State.a3Block (s : State) : Nat := if s.readOnly then 1 else if !s.imageFits then 2 else if s.span.member = .joined then 3 else 0

/-- Exit latencies in µs of A0 to A3 (16 R517). -/
def State.exitUs (s : State) : List Nat := [0, 2, 120, 400000 + ceilDiv (s.imageBytes + s.loanBytes) 240000]

/-- The POWER_STATES log (16 R517). -/
def State.powerLog (s : State) : List Byte :=
  let p := s.power.stay s.now
  let head := blockOf 16 [(0, 1, p.st.num), (1, 1, s.a3Block), (2, 2, bitsOf p.powerCap.toNat 0 11), (8, 8, s.imageBytes)]
  let recs := (List.range 4).flatMap (fun i => blockOf 32 [(0, 2, [900, 170, 65, 14].getD i 0), (4, 4, s.exitUs.getD i 0), (8, 8, Tab.at p.residency i 0), (0x10, 8, Tab.at p.entries i 0)])
  withCrc (head ++ recs ++ zeros 12)

/-! ## Entry and exit (16 R512 to R515). -/

/-- Whether the module has no work (16 R512). -/
def State.noWork (s : State) : Bool :=
  let idle := fun (x : PortState) => (Tab.vals x.rings).all (fun g => g.head = g.tail) && x.grants.isEmpty
  s.host.cmds.isEmpty && idle s.host.portA && idle s.host.portB && s.host.latched.isEmpty
    && (Tab.vals s.compute.jobs).all (fun j => !j.admitted) && s.serv.builds.isEmpty && (s.serv.adapt.map (fun a => decide (a.state = 1))).getD false = false
    && s.media.relocs.isEmpty && s.media.jPend.isEmpty && s.media.jPages.isEmpty && s.span.streams.isEmpty && s.integ.captures.isEmpty

/-- The state names a timer may still reach (16 R512). -/
def State.deepest (s : State) : Nat := bitsOf s.power.idle.toNat 96 2

/-- IDLE_TIMER_EXPIRY (16 R512, R513): one state down. Before A2 every die operation ends; a suspended one is resumed. The step to A3 begins its entry. -/
def execIdleTimerExpiry (s : State) : Host.Outcome State Fault Refusal :=
  let v := s.power.idle.toNat
  if ¬ s.power.good ∨ ¬ s.noWork ∨ s.power.hib.isSome then .next s
  else
    match s.power.st with
    | .a0 => if bitsOf v 0 32 = 0 ∨ s.deepest < 1 then .next s else .next (s.enter .a1)
    | .a1 =>
      if bitsOf v 32 32 = 0 ∨ s.deepest < 2 then .next s
      else if s.dies.any (fun e => e.2.st ≠ .idle) then
        .next { s with dies := Tab.changeAll s.dies (fun (d : Die) => if d.susp then d.resumeOp s.now else d) }
      else .next ((s.at_ (s.power.since + bitsOf v 32 32 * msUnits)).refreshCopies.enter .a2)
    | .a2 =>
      if bitsOf v 64 32 = 0 ∨ s.deepest < 3 ∨ s.a3Block ≠ 0 then .next s
      else
        let s := s.at_ (s.power.since + bitsOf v 64 32 * secUnits)
        .next { s with power := { s.power with hib := some .timer } }
    | .a3 => .next s

/-- Whether the newest checkpoint is complete and no record but that of a checkpoint follows it (16 R514 step 4, 02 R69). -/
def Media.checkpointed (m : Media) : Bool :=
  match m.cps.getLast? with
  | some c => m.jPend.isEmpty && m.jPages.isEmpty && m.cpBuild.isNone && m.jLog.all (fun r => decide (r.seq ≤ c.tables.seq) || decide (r.type = .checkpointed))
  | none => false

/-- Whether an entry to A3 may go on: commands in flight but those that ask for it, admitted jobs and folds have ended, the checkpoint stands, and the module is not
read-only (02 R82, 16 R514). -/
def State.entryReady (s : State) : Bool :=
  (Tab.vals s.host.cmds).all (fun c => c.opcode = 0x0108 && c.stage ≠ 0) && (Tab.vals s.compute.jobs).all (fun j => !j.admitted)
    && s.media.relocs.isEmpty && s.media.checkpointed && !s.readOnly

/-- HIBERNATE_ENTRY (16 R508, R513 to R515): the image, the checkpoint and the tail image are written, POWER_SET's reply is posted, and power goes off. A wake event before
that cancels a timer's entry. -/
def execHibernateEntry (s : State) : Host.Outcome State Fault Refusal :=
  match s.power.hib with
  | none => .next s
  | some why =>
    if s.power.wakeLatched ∧ why = .timer then .next { s with power := { s.power with hib := none, wakeLatched := false } }
    else if ¬ s.entryReady ∨ s.power.st = .a3 then .next s
    else
      let pages := ceilDiv s.imageBytes 16384
      let s := { s with
        tiers := { s.tiers with image := some (s.tiers.hbm, s.tiers.pinned), lines := [], t2 := s.tiers.t2.filter (fun e => !e.2.lent), streams := [], fetches := [] }
        items := { s.items with merge := none } }
      let s := (s.pagesProgrammed pages).refreshCopies
      let s := { s with power := { s.power with savedTime := s.opTime } }
      let s := (s.cmdsInOrder.filter (fun c => c.opcode = 0x0108)).foldl (fun s c => s.succeed c.ident []) s
      let s := s.enter .a3
      let s := s.makeTail
      .next { s with
        tiers := { s.tiers with hbm := [], pinned := [], hbmBad := [] }
        dies := Tab.changeAll s.dies Die.cleared
        span := { s.span with ports := Tab.changeAll s.span.ports (fun x => { (TPort.fresh .down) with replayed := x.replayed, corrected := x.corrected, discarded := x.discarded }) }
        power := { s.power with hib := none, readyAtEntry := s.power.ready, ready := 0#6 } }

/-- The latched doorbells and DATA_DONE act (16 R515). -/
def State.applyLatched (s : State) : State :=
  let l := s.host.latched
  let s := { s with host := { s.host with latched := [] } }
  l.foldl (fun s x =>
    if x.2.1 = 0x140000 then s.setDataDone x.1 x.2.2
    else if x.2.1 % 0x1000 = 0 then s.setTail x.1 ((x.2.1 - 0x100000) / 0x1000) (x.2.2 % 65536)
    else s.setReplyHead x.1 ((x.2.1 - 0x100000) / 0x1000) (x.2.2 % 65536)) s

/-- The module goes to A0; from A3 the image is reloaded, the dies are as after RESET, the DRBG is reseeded and the Tenon ports
train (01 R36; 11 R348; 16 R515; 17 R550). -/
def State.wakeUp (s : State) : State :=
  match s.power.st with
  | .a0 => s
  | .a1 => s.enter .a0
  | .a2 => (s.enter .a0).applyLatched
  | .a3 =>
    let s := { s with
      tiers := { s.tiers with
        hbm := (s.tiers.image.getD (s.tiers.hbm, s.tiers.pinned)).1
        pinned := (s.tiers.image.getD (s.tiers.hbm, s.tiers.pinned)).2
        image := none }
      sec := { s.sec with drbgReqs := 0 }
      power := { s.power with wakeLatched := false } }
    (s.enter .a0).applyLatched.retrainAll

/-- WAKE (16 R515): a Tenon packet wakes from A1 and A2 alone; while an entry to A3 runs, the event cancels a timer's or waits for the exit. -/
def execWake (e : WakeEvent) (s : State) : Host.Outcome State Fault Refusal :=
  if ¬ s.power.good then .next s
  else if s.power.hib = some .timer then .next { s with power := { s.power with hib := none } }.wakeUp
  else if s.power.hib.isSome then .next { s with power := { s.power with wakeLatched := true } }
  else if e = .tenonPacket ∧ s.power.st = .a3 then .next s
  else .next s.wakeUp

/-! ## Power cap and thermal limits (16 R519 to R521, R533). -/

/-- A quarter's array clock in MHz. -/
def State.mhzOf (s : State) (q : Nat) : Nat := Tab.at s.power.mhz q 2400

/-- The lowest array clock among the quarters; a stopped one runs at 0 (16 R523). -/
def State.arrayMhz (s : State) : Nat := ((List.range 4).map (fun q => if q ∈ s.power.stopped then 0 else s.mhzOf q)).foldl min 2400

/-- CAP_W and TJ_LIMIT (16 R519). -/
def State.capW (s : State) : Nat := bitsOf s.power.powerCap.toNat 0 11
def State.tjLimit (s : State) : Nat := bitsOf s.power.powerCap.toNat 16 8

/-- One step of a quarter's clock, 100 MHz, between 1,200 MHz, which is capping's floor and is taken as throttling's too, and 2,400 MHz (16 R520, R521; log entry 44). -/
def State.clockStep (s : State) (q : Nat) (up : Bool) : State :=
  let f := s.mhzOf q
  { s with power := { s.power with mhz := Tab.put s.power.mhz q (if up then min 2400 (f + 100) else max 1200 (f - 100)) } }

/-- POWER_CAP_CONTROL (16 R520, R533): one millisecond's step against the input power averaged over 10 ms. -/
def execPowerCapControl (watts : Nat) (s : State) : Host.Outcome State Fault Refusal :=
  if ¬ s.power.good then .next s
  else
    let old := s.arrayMhz
    let s := { s with power := { s.power with inputW := watts } }
    if s.capW < watts then
      let low := (List.range 4).all (fun q => s.mhzOf q = 1200)
      let was := s.power.capping
      let s := (List.range 4).foldl (fun s q => s.clockStep q false) { s with power := { s.power with capping := true, capPaced := s.power.capPaced || low } }
      .next (if was then s else s.policyActed 6 old s.arrayMhz)
    else if s.power.capping ∧ 100 * watts < 95 * s.capW then
      let s := (List.range 4).foldl (fun s q => if q ∈ s.power.hot then s else s.clockStep q true) { s with power := { s.power with capPaced := false } }
      if (List.range 4).all (fun q => q ∈ s.power.hot || s.mhzOf q = 2400) then
        .next ({ s with power := { s.power with capping := false } }.policyActed 6 old s.arrayMhz)
      else .next s
    else .next { s with power := { s.power with capPaced := false } }

/-- THERMAL_THROTTLE's event (16 R521). -/
def State.throttled (s : State) (sensor : Nat) (r : W16) : State := s.record 0x8001 (sourceOf 11 sensor) (leBytes 1 sensor ++ leBytes 2 r.toNat)

/-- A quarter's sensor against TJ_LIMIT (16 R521): at the limit the clock steps down until the sensor is 2 °C below it, then up; 10 °C above it the quarter's clocks stop
until 5 °C below. -/
def State.quarterHeat (s : State) (q sensor : Nat) (r : W16) : State :=
  let tj : Int := 4 * s.tjLimit
  let x := r.toInt
  let stopped := if tj + 40 ≤ x then (if q ∈ s.power.stopped then s.power.stopped else q :: s.power.stopped)
    else if x ≤ tj - 20 then s.power.stopped.filter (· ≠ q) else s.power.stopped
  let s := { s with power := { s.power with stopped := stopped } }
  if tj ≤ x ∧ q ∉ s.power.hot then ({ s with power := { s.power with hot := q :: s.power.hot } }.clockStep q false).throttled sensor r
  else if q ∈ s.power.hot ∧ tj - 8 < x then s.clockStep q false
  else if x ≤ tj - 8 then
    let s := { s with power := { s.power with hot := s.power.hot.filter (· ≠ q) } }
    if s.power.capping then s else s.clockStep q true
  else s

/-- A flash case sensor (16 R521): programs and erases of its group are paced from 70 °C until 67 °C. -/
def State.flashHeat (s : State) (g sensor : Nat) (r : W16) : State :=
  if 280 ≤ r.toInt ∧ g ∉ s.power.paced then ({ s with power := { s.power with paced := g :: s.power.paced } }).throttled sensor r
  else if r.toInt ≤ 268 then { s with power := { s.power with paced := s.power.paced.filter (· ≠ g) } }
  else s

/-- THERMAL_THROTTLE (16 R521): sensors 0 to 3 are the quarters', 20 to 27 the channel groups'. -/
def execThermalThrottle (sensor : Fin 32) (reading : W16) (s : State) : Host.Outcome State Fault Refusal :=
  if ¬ s.power.good then .next s
  else if sensor.val < 4 then .next (s.quarterHeat sensor.val sensor.val reading)
  else if 20 ≤ sensor.val ∧ sensor.val < 28 then .next (s.flashHeat (sensor.val - 20) sensor.val reading)
  else .next s

end Sys2Proof.Machine
end

