-- ==== Sys2Proof/Machine/Control.lean ====
section
/-! DEFINITION. Owner and Sentinel, the owner credential, takeover, the heartbeat and Stopwork (12 R375 to R378, R400 to R405; 17 R541 to R546). -/

namespace Sys2Proof.Machine

/-! ## Keys and credentials (17 R535, R542, R543). -/

/-- A key's KEY_ID (17 R535). -/
def keyId (key : List Byte) : List Byte := shake256 key 8

/-- Whether a signature over some bytes verifies under a key (17, opening). -/
def signed (key bytes sig : List Byte) : Bool := mldsaVerify key (shake256 bytes 64) sig

/-- Bytes of a credential descriptor. -/
def credBytes : Nat := 5328

/-- Whether a credential verifies: every field matches the command and this module, and its signature verifies under the owner key, or, for action 1 while no
lock is in force, under the key it registers (17 R542, R543). -/
def State.credOk (s : State) (d : List Byte) (action volume policy : Nat) : Bool :=
  let newKey := (d.drop 0x40).take 1952
  let key := if action = 1 ∧ ¬ s.sec.locked then newKey else s.sec.ownerKey
  d.length = credBytes && fieldAt d 0 1 = 1 && fieldAt d 1 1 = action && fieldAt d 2 1 = volume && fieldAt d 3 1 = 0 && fieldAt d 4 2 = policy && fieldAt d 6 2 = 0
    && fieldAt d 8 8 = s.sec.lockSeq && (d.drop 0x10).take 16 = Config.serial && (d.drop 0x20).take 8 = keyId key && allZero ((d.drop 0x28).take 24)
    && (action = 1 || allZero newKey) && allZero ((d.drop 0x14CD).take 3) && !key.isEmpty && signed key (d.take 0x7E0) ((d.drop 0x7E0).take 3309)

/-- Whether it is the turn of an OWNER_LOCK or TAKEOVER: they act one at a time in fetch order, TAKEOVER first within a tick (17 R546). -/
def State.credTurn (s : State) (c : Cmd) : Bool :=
  let first := fun (x y : Cmd) => if x.fetched = y.fetched ∧ x.opcode ≠ y.opcode then x.opcode = 0x0109 else x.before y
  (Tab.vals s.host.cmds).all (fun d => !((d.opcode = 0x0904 || d.opcode = 0x0109) && d.ident ≠ c.ident && first d c))

/-! ## Takeover (12 R377). -/

/-- The signals that a ring's replies are due by R385: one for each, or one for a run of COAL_COUNT. -/
def State.signalDue (s : State) (p : Port) (r : Nat) : State :=
  match s.ring? p r with
  | none => s
  | some g =>
    let n := if g.coalCount = 0 then g.unsig else if g.coalCount ≤ g.unsig then 1 else 0
    if n = 0 then s else (List.range n).foldl (fun (s : State) _ => s.signal p g.vector) (s.modRing p r (fun g => { g with unsig := 0 }))

/-- A ring's held replies are written as long as there is room, and signalled as R385 says, each or at COAL_COUNT. -/
def State.flushRing (s : State) (p : Port) (r : Nat) : Nat → State
  | 0 => s
  | n + 1 =>
    match s.ring? p r with
    | none => s
    | some g =>
      match g.held with
      | [] => s
      | x :: _ =>
        if g.full then s
        else
          State.flushRing ((s.writeReply p r g x).signalDue p r) p r n

/-- A RUN whose job still has operations to end completes at once, with the status its job ends by (12 R377). -/
def State.replyEnding (s : State) (id : Nat) : State :=
  match (s.jobOf id).bind s.job? with
  | some x => match x.ending with
    | some (.status st) => s.jobReply x st
    | _ => s.jobReply x .ownerChanged
  | none => s

/-- Steps 2 to 6 of a takeover by the Sentinel, and the commands ended (12 R377, 15 R492, 16 R527). -/
def State.takeOver (s : State) (auto : Bool) : Nat × State :=
  let old := s.host.owner
  let s := s.modPort old (fun x => x.revoke (fun _ => true))
  let cmds := s.cmdsOf old
  let s := cmds.foldl (fun s c => (s.endCmd c.ident .ownerChanged true).replyEnding c.ident) s
  let s := if (s.port old).linkUp && (s.port old).config.busMaster then (s.port old).rings.foldl (fun s e => (s.signalDue old e.1).flushRing old e.1 e.2.held.length) s else s
  let s := s.modPort old (fun x => { x with rings := [], nextRing := 0 })
  let s := { s with
    host := { s.host with
      owner := old.other
      takeovers := (s.host.takeovers + 1) % 65536
      errors := []
      halts := []
      hbPeriod := 0
      hbAuto := false }
    power := { s.power with cfg := { s.power.cfg with seq := s.power.cfg.seq + 1, ownerPort := old.other } } }
  (cmds.length, s.record 0x2003 (sourceOf 0 0) (leBytes 1 old.other.num ++ leBytes 1 (bit auto) ++ leBytes 4 cmds.length))

/-- TAKEOVER (12 R377, 13 R422, 17 R546): judged by its port's role when it acts; under the owner lock it needs a
credential, and the new LOCK_SEQ is in the security block before it completes (17 R540). -/
def execTakeover (id : Nat) (s : State) : Host.Outcome State Fault Refusal :=
  match s.acting id 0x0109 with
  | none => .next s
  | some c =>
    if c.stage = 1 then .next (if s.secured (c.aux.headD 0) then s.succeed id (resultAt [(0x0C, 4, c.aux.getD 1 0)]) else s)
    else if ¬ s.credTurn c then .next s
    else if s.isOwner c.port then .next (s.fail id .notOwner)
    else if s.sec.locked ∧ ¬ (c.field 0x10 8 ≠ 0 ∧ s.credOk (s.hostRead c.port (c.field 0x10 8) credBytes) 0x10 0 0) then .next (s.fail id .notOwner)
    else if s.late c then .next (s.fail id .deadlineExpired)
    else
      if s.sec.locked then
        let r := (({ s with sec := { s.sec with lockSeq := (s.sec.lockSeq + 1) % 2 ^ 64 } }).secure).takeOver false
        .next (r.2.stage id 1 [r.2.sec.pages.seq, r.1])
      else
        let r := s.takeOver false
        .next (r.2.succeed id (resultAt [(0x0C, 4, r.1)]))

/-! ## The heartbeat (12 R378). -/

/-- A write to HB_CONTROL: the Owner's alone; a new period starts. -/
def State.writeHbControl (s : State) (w : RegW) : State :=
  match mergedW w (BitVec.ofNat 64 (s.host.hbPeriod + bit s.host.hbAuto * 65536)) with
  | none => s
  | some v => if s.isOwner w.port then { s with host := { s.host with hbPeriod := bitsOf v.toNat 0 16, hbAuto := v.getLsbD 16, hbStart := s.now } } else s

/-- HB_CONTROL (12 R378, R380). -/
def execHbControl (w : RegW) (s : State) : Host.Outcome State Fault Refusal := .next (if s.power.good then s.writeHbControl w else s)

/-- A write to HB_KICK: any write of the Owner restarts the period. -/
def State.writeHbKick (s : State) (w : RegW) : State :=
  match mergedW w 0#64 with
  | none => s
  | some _ => if s.isOwner w.port then { s with host := { s.host with hbStart := s.now } } else s

/-- HB_KICK (12 R378, R380). -/
def execHbKick (w : RegW) (s : State) : Host.Outcome State Fault Refusal := .next (if s.power.good then s.writeHbKick w else s)

/-- HEARTBEAT_MISSED (12 R378, R406; 16 R509): a kick in the expiry tick is on time; a new period starts in that tick. With HB_AUTO, the Sentinel's link up and its
admin ring enabled, the module wakes to A0 and takes over without a credential. -/
def execHeartbeatMissed (s : State) : Host.Outcome State Fault Refusal :=
  if s.host.hbPeriod = 0 ∨ ¬ s.power.good then .next s
  else
    let due := s.host.hbStart / tickUnits + 25000 * s.host.hbPeriod
    let s := s.at_ ((due + 1) * tickUnits)
    let s := s.record 0x2004 (sourceOf 0 0) (leBytes 2 s.host.hbPeriod)
    let s := { s with host := { s.host with hbStart := due * tickUnits } }
    let p := s.host.owner.other
    if s.host.hbAuto ∧ (s.port p).linkUp ∧ (s.port p).adminEn then
      let r := s.wakeUp.takeOver true
      .next (r.2.hold p 0 ⟨0xFFFFFFFF#32, .success, false, 0#16, fit 20 (resultAt [(0x0C, 4, r.1)]), false, 0, 0x0109#16⟩)
    else .next s

/-! ## Stopwork (12 R400 to R405). -/

/-- The actions of SW_ACTION. -/
inductive SwAction where
  | halt | abort | abortHibernate | release
deriving DecidableEq, Repr, Inhabited

/-- The scope and action of a STOPWORK write; none where it is refused (12 R400). -/
def stopworkOf (w : RegW) : Option (Scope × SwAction) :=
  let v := w.value.toNat
  let target := bitsOf v 32 32
  let action : SwAction := match bitsOf v 3 2 with
    | 0 => .halt
    | 1 => .abort
    | 2 => .abortHibernate
    | _ => .release
  if w.size ≠ .full ∨ bitsOf v 8 8 ≠ 0xC3 ∨ bitsOf v 5 3 ≠ 0 ∨ bitsOf v 16 16 ≠ 0 then none
  else
    let scope : Option Scope := match bitsOf v 0 3 with
      | 1 => if 1 ≤ target ∧ target ≤ 63 then some (.ring target) else none
      | 2 => some (.session target)
      | 3 => if target < 3 then some (.cls (Cls.ofCode target)) else none
      | 4 => if target = 0 then some .all else none
      | _ => none
    match scope with
    | none => none
    | some x => if action = .abortHibernate ∧ x ≠ .all then none else some (x, action)

/-- Whether a target names something: an existing ring of the Owner, an open session, a class, or everything (12 R400). -/
def State.scopeExists (s : State) : Scope → Bool
  | .ring r => Tab.has (s.port s.host.owner).rings r
  | .session h => Tab.has s.serv.sessions h
  | .cls _ => true
  | .all => true

/-- An accepted write is counted. -/
def State.swAccept (s : State) : State := { s with host := { s.host with swAccepted := (s.host.swAccepted + 1) % 65536 } }
/-- A refused write is counted. -/
def State.swRefuse (s : State) : State := { s with host := { s.host with swRefused := (s.host.swRefused + 1) % 65536 } }

/-- HALT: the halt is recorded; commands and jobs in scope wait (12 R402). -/
def State.swHalt (s : State) (x : Scope) : State :=
  if s.scopeExists x then { s with host := { s.host with halts := s.host.halts.filter (fun h => h.1 ≠ x) ++ [(x, s.tick)] } } else s

/-- RELEASE: halts of the scope, or every one, go, but for those written in this tick (12 R402, R405). -/
def State.swRelease (s : State) (x : Scope) : State :=
  { s with host := { s.host with halts := s.host.halts.filter (fun h => !((h.1 = x || x = .all) && h.2 ≠ s.tick)) } }

/-- Background work of no command is abandoned: an adaptation job is aborted, cache builds end, an ITEM_PUT that waited for one is answered with a CACHE_STATE that is free, and
the next merge starts afresh (10 R323, R342; 12 R402; log entry 145). -/
def State.abandon (s : State) : State :=
  let t := { s with
    serv := ({ s.serv with adapt := s.serv.adapt.map (fun a => if a.state = 1 then { a with state := 3 } else a) } : Services).dropBuilds (fun _ => true)
    items := { s.items with merge := none } }
  (s.serv.builds.filterMap (·.waiter)).foldl (fun s id => (s.cacheReply id (s.freeBits 8).toNat 0).spend 1) t

/-- ABORT: every command in scope ends, and for Background or ALL the work of no command too (12 R402). -/
def State.swAbort (s : State) (x : Scope) : State :=
  let s := if s.scopeExists x then (s.cmdsInOrder.filter (fun c => c.inScope x)).foldl (fun s c => s.endCmd c.ident .abortedStopwork true) s else s
  if x = .all ∨ x = .cls .background then s.abandon else s

/-- ABORT_HIBERNATE: all work is aborted and the entry to A3 begins, unless R513 holds it up (12 R402, 16 R513). -/
def State.swHibernate (s : State) : State :=
  let s := s.swAbort .all
  if s.power.st = .a3 then s
  else if s.readOnly ∨ ¬ s.imageFits then s.record 0x2006 (sourceOf 0 0) []
  else { s with power := { s.power with hib := some .stopwork } }

/-- One STOPWORK write (12 R400, R402). -/
def State.writeStopwork (s : State) (w : RegW) : State :=
  if ¬ s.power.good then s
  else
    match stopworkOf w with
    | none => s.swRefuse
    | some (x, .halt) => (s.swHalt x).swAccept
    | some (x, .abort) => (s.swAbort x).swAccept
    | some (_, .abortHibernate) => s.swHibernate.swAccept
    | some (x, .release) => (s.swRelease x).swAccept

/-- A row of one action: it takes its own writes and the refused ones. -/
def State.swRow (s : State) (w : RegW) (a : SwAction) : State :=
  match stopworkOf w with
  | some (_, b) => if a = b then s.writeStopwork w else s
  | none => s.writeStopwork w

/-- STOPWORK_HALT (12 R400 to R403). -/
def execStopworkHalt (w : RegW) (s : State) : Host.Outcome State Fault Refusal := .next (s.swRow w .halt)
/-- STOPWORK_ABORT (12 R400 to R403). -/
def execStopworkAbort (w : RegW) (s : State) : Host.Outcome State Fault Refusal := .next (s.swRow w .abort)
/-- STOPWORK_ABORT_HIBERNATE (12 R400 to R403; 16 R513). -/
def execStopworkAbortHibernate (w : RegW) (s : State) : Host.Outcome State Fault Refusal := .next (s.swRow w .abortHibernate)
/-- STOPWORK_RELEASE (12 R400 to R402, R405). -/
def execStopworkRelease (w : RegW) (s : State) : Host.Outcome State Fault Refusal := .next (s.swRow w .release)

end Sys2Proof.Machine
end

