-- ==== Sys2Proof/Machine/Registers.lean ====
section
/-! DEFINITION. The registers of BAR0 and the SMBus map: their writes, and what a read of each gives (08 R272 to R274; 14 R464, R469, R488; 16 R519, R523, R534;
18 R557 to R580). -/

namespace Sys2Proof.Machine

/-! ## Policy registers (18 R558, R567, R568). -/

/-- A write to a policy register: the Owner's alone, with its POLICY_WRITE event even where the value stays (18 R568). `next` gives the value the write leaves. -/
def State.policyWrite (s : State) (w : RegW) (off : Nat) (old : W64) (next : W64 → W64) (put : State → W64 → State) : State :=
  match mergedW w old with
  | none => s
  | some v =>
    if s.power.good ∧ s.isOwner w.port then
      let new := next v
      (put s new).record 0x5001 (sourceOf 0 0) (leBytes 4 off ++ leBytes 8 old.toNat ++ leBytes 8 new.toNat)
    else s

/-- A register's next value under a range check: the RW bits of a value in range, else the old value. -/
def rangeNext (old mask : W64) (ok : Nat → Bool) (v : W64) : W64 := if ok v.toNat then v &&& mask else old

/-- Whether a field of a register lies in a range. -/
def inRange (v lo len a b : Nat) : Bool := a ≤ bitsOf v lo len && bitsOf v lo len ≤ b

/-- POWER_CAP's ranges (16 R519). -/
def powerCapOk (v : Nat) : Bool := inRange v 0 11 300 1000 && inRange v 16 8 85 105
/-- REG_POLICY's ranges (08 R274). -/
def regPolicyOk (v : Nat) : Bool :=
  inRange v 8 8 10 100 && inRange v 16 8 0 40 && inRange v 24 8 1 20 && inRange v 32 8 1 255 && inRange v 40 8 1 100
/-- PLANE_CONTROL's ranges (14 R464). -/
def planeControlOk (v : Nat) : Bool := inRange v 0 8 1 168 && inRange v 8 11 1 1440 && inRange v 20 6 1 60
/-- BUCKET_CONFIG's ranges (14 R469). -/
def bucketConfigOk (v : Nat) : Bool := inRange v 0 8 1 255 && inRange v 8 12 1 3600
/-- INTEGRITY_POLICY's ranges (14 R488). -/
def integrityPolicyOk (v : Nat) : Bool :=
  (bitsOf v 0 5 = 0 || inRange v 0 5 8 20) && bitsOf v 6 2 ≠ 3 && bitsOf v 9 2 ≠ 3 && inRange v 16 8 1 255
/-- MEDIA_POLICY's ranges (16 R534). -/
def mediaPolicyOk (v : Nat) : Bool :=
  (bitsOf v 0 16 = 0 || inRange v 0 16 768 32768) && inRange v 18 6 0 39 && inRange v 24 6 0 39 && inRange v 30 6 1 40
    && (!bitOf v 17 || bitsOf v 18 6 + bitsOf v 24 6 + bitsOf v 30 6 = 40)

/-- CAP_W where a BAR0 and an SMBus write fall in one tick: the lower of the two values (18 R579). -/
def lowerCap (same : Bool) (old new : W64) : W64 :=
  if same ∧ bitsOf old.toNat 0 11 < bitsOf new.toNat 0 11 then (new &&& 0xFFFFFFFFFFFFF800#64) ||| (old &&& 0x7FF#64) else new

/-- POWER_CAP as a write leaves it (16 R519, 18 R579). -/
def State.writePowerCap (s : State) (w : RegW) : State :=
  s.policyWrite w 0x1010 s.power.powerCap
    (fun v => if powerCapOk v.toNat then lowerCap (decide (s.power.capSmb = some s.tick)) s.power.powerCap (v &&& 0xFF07FF#64) else s.power.powerCap)
    (fun s v => { s with power := { s.power with powerCap := v, capBar := some s.tick } })

/-- REG_POLICY as a write leaves it (08 R274). -/
def State.writeRegPolicy (s : State) (w : RegW) : State :=
  s.policyWrite w 0x1020 s.regul.policy (rangeNext s.regul.policy 0xFFFFFFFFFF01#64 regPolicyOk) (fun s v => { s with regul := { s.regul with policy := v } })

/-- A PCSET register changed. -/
def Regul.setPcset (x : Regul) (c : Cls) (v : W64) : Regul :=
  match c with
  | .interactive => { x with pcsetI := v }
  | .background => { x with pcsetB := v }
  | .system => { x with pcsetS := v }

/-- A PCSET register as a write leaves it: a write of zero is ignored (08 R272). -/
def State.writePcset (s : State) (c : Cls) (w : RegW) : State :=
  let old := s.regul.pcset c
  s.policyWrite w (0x1028 + 8 * c.code) old (rangeNext old 0xFFFFFFFF#64 (fun v => v % 2 ^ 32 ≠ 0)) (fun s v => { s with regul := s.regul.setPcset c v })

/-- WAYS_Qn as it reads: a way mapped out reads 0 (14 R473). -/
def State.waysReg (s : State) (q : Nat) : W64 := BitVec.ofNat 64 (((List.range 16).map (fun w => s.wayCode q w * 16 ^ w)).foldl (· + ·) 0)

/-- A way's code after a write of one: pinned ways and ways mapped out keep theirs, and pinned or reserved codes are ignored (08 R273, 14 R473). -/
def State.nextWay (s : State) (q w code : Nat) : Nat :=
  if (16 * q + w) ∈ s.integ.jig.ways ∨ s.wayCode q w = 8 ∨ 8 ≤ code then s.wayCode q w else code

/-- WAYS_Qn as a write leaves it; the lines of a way assigned anew are written back and dropped (08 R273). -/
def State.writeWays (s : State) (q : Nat) (w : RegW) : State :=
  s.policyWrite w (0x1040 + 8 * q) (s.waysReg q)
    (fun v => BitVec.ofNat 64 (((List.range 16).map (fun i => s.nextWay q i (bitsOf v.toNat (4 * i) 4) * 16 ^ i)).foldl (· + ·) 0))
    (fun s' v => { s' with
      regul := { s'.regul with ways := Tab.put s'.regul.ways q v }
      tiers := { s'.tiers with lines := s'.tiers.lines.filter (fun e => !(e.2.quarter.val = q && bitsOf v.toNat (4 * e.2.way) 4 ≠ s.wayCode q e.2.way)) } })

/-- PLANE_CONTROL as a write leaves it (14 R464). -/
def State.writePlane (s : State) (w : RegW) : State :=
  s.policyWrite w 0x1060 s.integ.planeControl (rangeNext s.integ.planeControl 0x3FFFFFF#64 planeControlOk)
    (fun s v => { s with integ := { s.integ with planeControl := v } })

/-- BUCKET_CONFIG as a write leaves it: counts above a new DEPTH are set to it (14 R469). -/
def State.writeBucket (s : State) (w : RegW) : State :=
  s.policyWrite w 0x1068 s.integ.bucketConfig (rangeNext s.integ.bucketConfig 0xFFFFF#64 bucketConfigOk)
    (fun s v => { s with integ := { s.integ with bucketConfig := v, buckets := Tab.changeAll s.integ.buckets (fun n => min n (bitsOf v.toNat 0 8)) } })

/-- INTEGRITY_POLICY as a write leaves it (14 R488). -/
def State.writeIntegrity (s : State) (w : RegW) : State :=
  s.policyWrite w 0x1070 s.integ.policy (rangeNext s.integ.policy 0xFF07FF#64 integrityPolicyOk) (fun s v => { s with integ := { s.integ with policy := v } })

/-- MEDIA_POLICY as a write leaves it (16 R534). -/
def State.writeMediaPolicy (s : State) (w : RegW) : State :=
  s.policyWrite w 0x1078 s.power.mediaPolicy (rangeNext s.power.mediaPolicy 0xFFFFFFFFF#64 mediaPolicyOk)
    (fun s v => { s with power := { s.power with mediaPolicy := v } })

/-- ERR_SUMMARY: writing 1 to a bit clears it (14 R469, 18 R558, R559). -/
def State.clearErr (s : State) (w : RegW) : State :=
  match mergedW w 0#64 with
  | none => s
  | some v => if s.isOwner w.port then { s with integ := { s.integ with errSummary := s.integ.errSummary &&& ~~~(v.setWidth 12) } } else s

/-- PCSET (08 R272). -/
def execPcset (c : Cls) (w : RegW) (s : State) : Host.Outcome State Fault Refusal := .next (s.writePcset c w)
/-- WAYS (08 R273). -/
def execWays (q : QuarterNo) (w : RegW) (s : State) : Host.Outcome State Fault Refusal := .next (s.writeWays q.val w)
/-- REG_POLICY (08 R274). -/
def execRegPolicy (w : RegW) (s : State) : Host.Outcome State Fault Refusal := .next (s.writeRegPolicy w)
/-- POWER_CAP (16 R519). -/
def execPowerCap (w : RegW) (s : State) : Host.Outcome State Fault Refusal := .next (s.writePowerCap w)
/-- PLANE_CONTROL (14 R464). -/
def execPlaneControl (w : RegW) (s : State) : Host.Outcome State Fault Refusal := .next (s.writePlane w)
/-- BUCKET_CONFIG (14 R469). -/
def execBucketConfig (w : RegW) (s : State) : Host.Outcome State Fault Refusal := .next (s.writeBucket w)
/-- INTEGRITY_POLICY (14 R488). -/
def execIntegrityPolicy (w : RegW) (s : State) : Host.Outcome State Fault Refusal := .next (s.writeIntegrity w)
/-- MEDIA_POLICY (16 R534). -/
def execMediaPolicy (w : RegW) (s : State) : Host.Outcome State Fault Refusal := .next (s.writeMediaPolicy w)
/-- ERR_SUMMARY_CLEAR (14 R469). -/
def execErrSummaryClear (w : RegW) (s : State) : Host.Outcome State Fault Refusal := .next (s.clearErr w)

/-! ## The MSI-X table (18 R574). -/

/-- A quadword of a vector's entry: address, then data and vector control. -/
def MsixE.quad (e : MsixE) (high : Bool) : W64 := if high then BitVec.ofNat 64 (e.data.toNat + bit e.masked * 2 ^ 32) else e.addr

/-- A write to the MSI-X table of one's own port; a vector unmasked with its pending bit set signals (18 R558, R574). -/
def State.writeMsix (s : State) (off : Nat) (w : RegW) : State :=
  let v := (off - 0x200000) / 16
  let high := (off / 8) % 2 = 1
  let e := (s.port w.port).vector v
  match mergedW w (e.quad high) with
  | none => s
  | some x =>
    let e' : MsixE := if high then { e with data := x.setWidth 32, masked := x.getLsbD 32 } else { e with addr := x }
    let s := s.modPort w.port (fun p => { p with msix := Tab.put p.msix v e' })
    if !(s.port w.port).silent v ∧ v ∈ (s.port w.port).pending then (s.modPort w.port (fun p => { p with pending := p.pending.filter (· ≠ v) })).signal w.port v else s

/-! ## REGISTER_WRITE. -/

/-- A write to one's own admin base or size register, ignored while ADMIN_EN reads 1 (12 R380). -/
def State.writeAdminReg (s : State) (off : Nat) (w : RegW) : State :=
  let x := s.port w.port
  let old := if off = 0x3000 then x.adminCmdBase else if off = 0x3008 then x.adminReplyBase else x.adminSize
  match mergedW w old with
  | none => s
  | some v =>
    if x.adminEn then s
    else s.modPort w.port (fun x =>
      if off = 0x3000 then { x with adminCmdBase := v }
      else if off = 0x3008 then { x with adminReplyBase := v }
      else { x with adminSize := v &&& 0x1FFFF0001FFFF#64 })

/-- ERR_IRQ_EN: every field is RW (14 R469). -/
def State.writeErrIrq (s : State) (w : RegW) : State :=
  match mergedW w (s.integ.errIrqEn.setWidth 64) with
  | none => s
  | some v => if s.isOwner w.port then { s with integ := { s.integ with errIrqEn := v.setWidth 12 } } else s

/-- REGISTER_WRITE (18 R557, R558, R560): a write at a BAR0 offset. Registers with a row of their own take it as that row does, but for MODULE_RESET, whose start its own
row decides; RO, reserved and misaligned offsets ignore it. -/
def execRegisterWrite (offset : Nat) (w : RegW) (s : State) : Host.Outcome State Fault Refusal :=
  if ¬ s.power.good then .next s
  else if 0x2000 ≤ offset ∧ offset < 0x2008 then .next (if offset = 0x2000 then s.writeStopwork w else s.swRefuse)
  else if offset % 8 ≠ 0 ∨ w.size = .other then .next s
  else if offset = 0x1010 then .next (s.writePowerCap w)
  else if offset = 0x1020 then .next (s.writeRegPolicy w)
  else if offset = 0x1028 then .next (s.writePcset .interactive w)
  else if offset = 0x1030 then .next (s.writePcset .background w)
  else if offset = 0x1038 then .next (s.writePcset .system w)
  else if 0x1040 ≤ offset ∧ offset < 0x1060 then .next (s.writeWays ((offset - 0x1040) / 8) w)
  else if offset = 0x1060 then .next (s.writePlane w)
  else if offset = 0x1068 then .next (s.writeBucket w)
  else if offset = 0x1070 then .next (s.writeIntegrity w)
  else if offset = 0x1078 then .next (s.writeMediaPolicy w)
  else if offset = 0x1080 then .next (s.clearErr w)
  else if offset = 0x1088 then .next (s.writeErrIrq w)
  else if 0x3000 ≤ offset ∧ offset < 0x3018 then .next (s.writeAdminReg offset w)
  else if offset = 0x3018 then .next (s.writeAdminEn w)
  else if offset = 0x3020 then .next (s.writeHbControl w)
  else if offset = 0x3028 then .next (s.writeHbKick w)
  else if 0x100000 ≤ offset ∧ offset < 0x140000 ∧ offset % 0x1000 ≤ 8 ∧ w.size ≠ .high then
    .next (if offset % 0x1000 = 0 then s.writeTail w.port ((offset - 0x100000) / 0x1000) (w.value.toNat % 2 ^ 32)
      else s.writeReplyHead w.port ((offset - 0x100000) / 0x1000) (w.value.toNat % 2 ^ 32))
  else if offset = 0x140000 then .next (s.writeDataDone w)
  else if 0x200000 ≤ offset ∧ offset < 0x201000 then .next (s.writeMsix offset w)
  else .next s

/-! ## Reads of BAR0 (18 R559 to R575; 16 R516). -/

/-- POWER_STATUS (16 R523). -/
def State.powerStatus (s : State) : Nat :=
  s.power.st.num + bit s.power.capping * 4 + bit (!s.power.hot.isEmpty || !s.power.stopped.isEmpty || !s.power.paced.isEmpty) * 8 + bit s.power.cfgDefaulted * 16
    + bit s.sec.activeB * 32 + bit (s.a3Block ≠ 0) * 64 + s.arrayMhz * 2 ^ 16 + s.power.inputW % 65536 * 2 ^ 32

/-- READINESS (18 R566). -/
def State.readiness (s : State) : Nat := s.power.ready.toNat + bit s.power.trySquareDone * 2 ^ 16

/-- The highest SEQ in the event log; 0 in an empty one. -/
def State.seqHi (s : State) : Nat := (s.events.recs.getLast?.map (·.seq)).getD 0

/-- EVT_STATUS (18 R569). -/
def State.evtStatus (s : State) : Nat := s.seqHi + bit s.events.unstable * 2 ^ 48 + bit s.events.logFull * 2 ^ 49

/-- STOPWORK_STATUS (12 R400). -/
def State.stopworkStatus (s : State) : Nat :=
  bit (!s.host.halts.isEmpty) + bit s.power.hib.isSome * 2 + s.host.swAccepted * 2 ^ 16 + s.host.swRefused * 2 ^ 32

/-- PORT_ROLE (18 R563). -/
def State.portRole (s : State) (p : Port) : Nat :=
  bit (!s.isOwner p) + p.num * 2 + bit (s.port p.other).linkUp * 4 + bit s.sec.locked * 8 + s.host.takeovers % 65536 * 2 ^ 16

/-- LINK_STATE (18 R564). -/
def PortState.linkState (x : PortState) : Nat :=
  if x.linkUp then x.speed.toNat + x.width.toNat * 8 + x.mps.toNat * 2 ^ 8 + x.config.mrrs.toNat * 2 ^ 11 + min x.aerCorr 65535 * 2 ^ 16 else 0

/-- SLOT (18 R565). -/
def State.slotReg (s : State) : Nat := s.power.slotId.toNat + bit s.power.smbAlt * 16 + s.moduleNumber % 128 * 2 ^ 8

/-- MEDIA_STATE (18 R570). -/
def State.mediaState (s : State) : Nat := s.smbus.spareState + s.smbus.spares * 2 ^ 8 + s.smbus.wearMean % 65536 * 2 ^ 32 + s.smbus.wearMax % 65536 * 2 ^ 48

/-- A core's counters (18 R571). -/
def State.coreState (s : State) (c : Nat) : Core := Tab.at s.compute.cores c Core.reset

/-- Registers served in every power state (16 R516). -/
def alwaysServed (off : Nat) : Bool := off < 0x1000 || off ∈ [0x1000, 0x1008, 0x1090, 0x2008]

/-- A doorbell as it reads: the last value accepted (18 R573). -/
def State.doorbell (s : State) (p : Port) (off : Nat) : Nat :=
  let r := (off - 0x100000) / 0x1000
  if r ≠ 0 ∧ ¬ s.isOwner p then 0
  else
    match s.ring? p r with
    | none => 0
    | some g => if off % 0x1000 = 0 then g.tail else if off % 0x1000 = 8 then g.replyHead else 0

/-- The error log entry a read sees: entry 0 and those of rings that do not exist read as zero (18 R575). -/
def State.errBytes (s : State) (r : Nat) : List Byte :=
  if r = 0 ∨ !Tab.has (s.port s.host.owner).rings r then zeros 64
  else
    match Tab.find s.host.errors r with
    | some e => ({ e with frozen := ((s.ring? s.host.owner r).map (fun (g : Ring) => g.frozen)).getD false }).bytes
    | none => zeros 64

/-- A read of n bytes of BAR2, the push windows: it completes with zeros (12 R373). -/
def readBar2 (n : Nat) : List Byte := zeros n

/-- An aligned 64-bit read of BAR0 (18 R559, R560). -/
def State.readReg (s : State) (p : Port) (off : Nat) : Nat :=
  if ¬ s.power.good ∨ (s.asleep ∧ ¬ alwaysServed off) ∨ off % 8 ≠ 0 then 0
  else if off = 0x0 then 0x10A14C4D1F3D
  else if off = 0x8 then s.sec.active.version.toNat
  else if off = 0x10 then s.sec.active.build.toNat
  else if off = 0x18 then s.portRole p
  else if off = 0x20 then (s.port p).linkState
  else if off = 0x28 then s.slotReg
  else if off = 0x1000 then s.readiness
  else if off = 0x1008 then s.powerStatus
  else if off = 0x1010 then s.power.powerCap.toNat
  else if off = 0x1020 then s.regul.policy.toNat
  else if off = 0x1028 then s.regul.pcsetI.toNat
  else if off = 0x1030 then s.regul.pcsetB.toNat
  else if off = 0x1038 then s.regul.pcsetS.toNat
  else if 0x1040 ≤ off ∧ off < 0x1060 then (s.waysReg ((off - 0x1040) / 8)).toNat
  else if off = 0x1060 then s.integ.planeControl.toNat
  else if off = 0x1068 then s.integ.bucketConfig.toNat
  else if off = 0x1070 then s.integ.policy.toNat
  else if off = 0x1078 then s.power.mediaPolicy.toNat
  else if off = 0x1080 then s.integ.errSummary.toNat
  else if off = 0x1088 then s.integ.errIrqEn.toNat
  else if off = 0x1090 then s.evtStatus
  else if off = 0x1098 then s.mediaState
  else if 0x1200 ≤ off ∧ off < 0x1380 then min (s.coreState ((off - 0x1200) / 8)).sat (2 ^ 48 - 1)
  else if 0x1400 ≤ off ∧ off < 0x1580 then min (s.coreState ((off - 0x1400) / 8)).rescue (2 ^ 48 - 1)
  else if off = 0x2008 then s.stopworkStatus
  else if off = 0x3000 then (s.port p).adminCmdBase.toNat
  else if off = 0x3008 then (s.port p).adminReplyBase.toNat
  else if off = 0x3010 then (s.port p).adminSize.toNat
  else if off = 0x3018 then bit (s.port p).adminEn
  else if off = 0x3020 then s.host.hbPeriod + bit s.host.hbAuto * 65536
  else if 0x100000 ≤ off ∧ off < 0x140000 then s.doorbell p off
  else if 0x200000 ≤ off ∧ off < 0x201000 then (((s.port p).vector ((off - 0x200000) / 16)).quad ((off / 8) % 2 = 1)).toNat
  else if 0x201000 ≤ off ∧ off < 0x201020 then (((s.port p).pending.filter (fun v => v / 64 = (off - 0x201000) / 8)).map (fun v => 2 ^ (v % 64))).foldl (· + ·) 0
  else if 0x300000 ≤ off ∧ off < 0x301000 then fieldAt (s.errBytes ((off - 0x300000) / 64)) (off % 64) 8
  else 0

/-! ## SMBus (18 R576 to R580). -/

/-- An event record of 64 bytes (15 R489). -/
def Event.bytes (e : Event) : List Byte :=
  sealed (putAt (blockOf 64 [(0, 6, e.seq), (6, 6, e.opTime), (0x0C, 3, e.cycles), (0x0F, 1, e.severity), (0x10, 2, e.code), (0x12, 2, e.source),
    (0x14, 2, e.repeats), (0x16, 6, e.lastTime), (0x1C, 1, bit e.unstable)]) 0x20 (fit 24 e.payload))

/-- The byte map of SMBus, 0x00 to 0x7F (18 R578). -/
def State.smbMap (s : State) : List Byte :=
  let head := blockOf 128 [(0, 1, 0x10), (1, 1, bit s.host.portA.linkUp + bit s.host.portB.linkUp * 2 + bit (s.host.owner = .b) * 4), (2, 2, s.readiness % 65536),
    (4, 1, s.powerStatus % 256), (5, 1, s.smbus.spareState + bit s.events.logFull * 4 + bit s.events.unstable * 8), (6, 2, s.power.inputW), (8, 2, s.capW), (0x0A, 1, s.tjLimit),
    (0x0B, 1, s.slotReg % 256), (0x0C, 1, s.moduleNumber), (0x0D, 1, s.smbus.errors), (0x0E, 2, s.integ.errSummary.toNat), (0x10, 6, s.opTime), (0x16, 3, s.power.cycles),
    (0x1A, 2, s.smbus.wearMean), (0x1C, 2, s.smbus.wearMax), (0x20, 4, s.smbus.spares), (0x24, 4, s.smbus.uncTotal), (0x70, 6, s.seqHi)]
  putAt head 0x30 ((List.range 32).flatMap (fun k => leBytes 2 (Tab.at s.health.sensors k Sensor.reset).current.toNat))

/-- The sizes of the registers of the byte map, as (offset, size); every other offset is reserved (18 R578). -/
def smbRegs : List (Nat × Nat) :=
  [(0, 1), (1, 1), (2, 2), (4, 1), (5, 1), (6, 2), (8, 2), (0x0A, 1), (0x0B, 1), (0x0C, 1), (0x0D, 1), (0x0E, 2), (0x10, 6), (0x16, 3), (0x1A, 2), (0x1C, 2), (0x20, 4),
    (0x24, 4), (0x30, 64), (0x70, 6)]

/-- The CRC-8 of an SMBus PEC, polynomial x^8 + x^2 + x + 1, over some bytes (SMBus 3.1; log entry 45). -/
def pecOf (bs : List Byte) : Byte :=
  bs.foldl (fun c b => (List.range 8).foldl (fun (a : Byte) _ => if a.getLsbD 7 then (a <<< 1) ^^^ 0x07#8 else a <<< 1) (c ^^^ b)) 0#8

/-- The bytes a read transaction gives, from one sample (18 R576 to R578). -/
def State.smbData (s : State) (k : SmbRead) (code : Nat) : List Byte :=
  let src := if code < 0x80 then s.smbMap.drop code
    else if code < 0x88 then ((s.events.recs.reverse.drop (code - 0x80)).head?.map Event.bytes).getD (zeros 64)
    else []
  match k with
  | .byte => fit 1 src
  | .word => fit 2 src
  | .block =>
    let n := if code < 0x80 then ((smbRegs.find? (fun r => r.1 = code)).map (·.2)).getD 0 else if code < 0x88 then 64 else 0
    BitVec.ofNat 8 n :: fit n src

/-- SMBUS_READ (18 R576 to R580): the data and its PEC over the address, the code and the data. -/
def execSmbusRead (k : SmbRead) (code : Byte) (s : State) : Host.Outcome State Fault Refusal :=
  if s.escapement then
    let a : Byte := if s.power.smbAlt then 0xB6#8 else 0xB4#8
    let d := s.smbData k code.toNat
    .next { s with smbus := { s.smbus with out := d ++ [pecOf ([a, code, a ||| 1#8] ++ d)] } }
  else .next s

/-- A discarded SMBus write is counted, modulo 256 (18 R576). -/
def State.smbBad (s : State) : State := { s with smbus := { s.smbus with errors := (s.smbus.errors + 1) % 256 } }

/-- SMBUS_WRITE_WORD (18 R576, R579): CAP_W alone is writable, within its range and with a PEC that is absent or right; TJ_LIMIT keeps. -/
def execSmbusWriteWord (k : SmbWrite) (code : Byte) (value : W16) (pec : Option Bool) (s : State) : Host.Outcome State Fault Refusal :=
  if ¬ s.escapement then .next s
  else if k = .word ∧ code = 0x08#8 ∧ pec ≠ some false ∧ 300 ≤ value.toNat ∧ value.toNat ≤ 1000 then
    let old := s.power.powerCap
    let new := lowerCap (decide (s.power.capBar = some s.tick)) old ((old &&& 0xFFFFFFFFFFFFF800#64) ||| value.setWidth 64)
    .next ({ s with power := { s.power with powerCap := new, capSmb := some s.tick } }.record 0x5001 (sourceOf 0 0) (leBytes 4 0x1010 ++ leBytes 8 old.toNat ++ leBytes 8 new.toNat))
  else .next s.smbBad

/-- SMBUS_BUS_RELEASE (18 R576): the clock held low for more than 25 ms, the module lets the bus go; what it was sending is gone. -/
def execSmbusBusRelease (s : State) : Host.Outcome State Fault Refusal :=
  if s.escapement then .next { s.at_ (s.now + 25 * msUnits) with smbus := { s.smbus with out := [] } } else .next s

end Sys2Proof.Machine
end

