-- ==== Sys2Proof/Machine/Admin.lean ====
section
/-! DEFINITION. The admin commands: IDENTIFY, the logs of GET_LOG, features, rings and POWER_SET (13 R414 to R421; 14 R483; 16 R512, R517; 17 R556). -/

namespace Sys2Proof.Machine

/-- The checks of step 6 come before the deadline: a refusal ends the command, then a passed deadline does, else it goes on (13 R410). -/
def State.checked (s : State) (c : Cmd) (err : Option Status) (go : State → State) : State :=
  match err with
  | some st => s.fail c.ident st
  | none => if s.late c then s.endCmd c.ident .deadlineExpired false else go s

/-! ## IDENTIFY. -/

/-- Bit v for each volume v that exists (13 R414). -/
def State.volumeBits (s : State) : Nat := (s.media.volumes.map (fun e => 2 ^ e.1)).foldl (· + ·) 0

/-- Items of the archive that are committed and not deleted (13 R414). -/
def Items.live (x : Items) : Nat := (x.items.filter (fun e => e.2.ins ≠ 0 && e.2.del.isNone)).length

/-- The structure of R414. -/
def State.identity (s : State) (p : Port) : List Byte :=
  let own := s.isOwner p
  let b := blockOf 4096 [(0x28, 8, s.sec.active.version.toNat), (0x30, 8, s.sec.active.build.toNat), (0x38, 1, s.moduleNumber), (0x39, 1, p.num),
    (0x3A, 1, bit (!own)), (0x3C, 2, 0x0100), (0x40, 8, 480000847380480), (0x48, 4, stripesMax), (0x4C, 4, s.media.total), (0x50, 2, s.volumeBits),
    (0x52, 2, s.items.dims), (0x54, 2, s.items.width), (0x58, 8, s.items.epoch), (0x60, 8, s.items.live), (0x68, 1, if own then 63 else 0), (0x69, 1, 8),
    (0x6A, 1, 64), (0x6B, 1, s.coresMapped), (0x6C, 2, 1024), (0x6E, 2, s.enginesMapped), (0x70, 4, 65536), (0x74, 2, 4096)]
  let b := putAt b 0 (ascii ['S', 'X', '-', 'L', 'M', '4', '8', '0', '-', 'A'])
  let b := putAt b 0x10 (ascii ['A', '1'])
  let b := putAt b 0x18 (fit 16 Config.serial)
  sealed (putAt b 0x80 (fit 32 s.cfgDigest))

/-- IDENTIFY (13 R414). -/
def execIdentify (id : Nat) (s : State) : Host.Outcome State Fault Refusal :=
  match s.acting id 0x0101 with
  | none => .next s
  | some c => .next (s.checked c none (fun s => (s.hostWrite c.port (c.field 0x10 8) (s.identity c.port)).succeed id []))

/-! ## Logs. -/

/-- A firmware slot's record (17 R556). -/
def FwSlot.bytes (f : FwSlot) : List Byte :=
  let b := blockOf 64 [(0, 1, f.st.num), (1, 1, f.secVer), (8, 8, f.version.toNat), (0x10, 8, f.build.toNat), (0x18, 4, f.len)]
  if f.st = .verified ∨ f.st = .rolledBack then putAt b 0x20 (fit 32 f.digest) else b

/-- The owner key's KEY_ID, or zero while none is registered (17 R547, R556). -/
def Security.ownerKeyId (x : Security) : List Byte := if x.ownerKey.isEmpty then zeros 8 else fit 8 (keyId x.ownerKey)

/-- The FIRMWARE_SLOTS log (17 R556). -/
def State.slotLog (s : State) : List Byte :=
  let x := s.sec
  let b := blockOf 192 [(0, 1, bit x.activeB), (1, 1, bit x.nextB), (2, 1, x.fuses), (3, 1, bit x.locked + 2 * bit x.lost), (4, 2, x.policy.toNat),
    (6, 2, x.volLocks.toNat), (8, 8, x.lockSeq)]
  let b := putAt b 0x10 x.ownerKeyId
  let b := putAt b 0x18 (fit 8 Config.deviceKeyId)
  sealed (putAt b 0x20 (x.slotA.bytes ++ x.slotB.bytes))

/-- Bits of a list of numbers. -/
def bitsFrom (n : Nat) (on : Nat → Bool) : Nat := ((List.range n).map (fun i => if on i then 2 ^ i else 0)).foldl (· + ·) 0

/-- A core's record (14 R483). -/
def State.coreRecord (s : State) (c : Nat) : List Byte :=
  let j := s.integ.jig
  let out := Tab.find j.cores c
  blockOf 32 ([(0, 1, bit out.isSome), (1, 1, bitsFrom 8 (fun e => s.engineIn (8 * c + e))), (2, 1, (out.map (·.1)).getD 0), (0x10, 8, (out.map (·.2)).getD 0)]
    ++ (List.range 8).map (fun e => (4 + e, 1, s.strikesOf (8 * c + e)))
    ++ (List.range 8).map (fun e => (0x18 + e, 1, Tab.at j.engines (8 * c + e) 0)))

/-- A quarter's record (14 R483). -/
def Jig.quarterRecord (j : Jig) (q : Nat) : List Byte :=
  blockOf 16 [(0, 2, bitsFrom 16 (fun w => 16 * q + w ∈ j.ways)), (2, 1, bitsFrom 4 (fun k => 4 * q + k ∈ j.hbmOut)), (3, 1, bitsFrom 2 (fun g => 2 * q + g ∈ j.decoders))]

/-- The JIG_MAP log (14 R483). -/
def State.jigLog (s : State) : List Byte :=
  let j := s.integ.jig
  let head := sealed (putAt (blockOf 64 [(0, 8, j.seq), (8, 2, s.coresMapped), (0xA, 2, s.enginesMapped)]) 0x10 (fit 32 Config.jigPartition))
  head ++ (List.range 48).flatMap s.coreRecord ++ (List.range 4).flatMap j.quarterRecord ++ leBytes 128 (bitsFrom 1024 (fun d => d ∈ j.comparators))

/-- The log a LOG_ID names (13 R415). -/
def State.logOf (s : State) (n : Nat) : List Byte := if n = 1 then s.powerLog else if n = 2 then s.slotLog else s.jigLog

/-- GET_LOG (13 R415). -/
def execGetLog (id : Nat) (s : State) : Host.Outcome State Fault Refusal :=
  match s.acting id 0x0102 with
  | none => .next s
  | some c => .next (s.checked c none (fun s =>
      let l := s.logOf (c.field 0x10 2)
      (s.hostWrite c.port (c.field 0x18 8) (l.take (c.field 0x20 4))).succeed id (resultAt [(0x0C, 4, l.length)])))

/-! ## Features. -/

/-- GET_FEATURE (13 R416). -/
def execGetFeature (id : Nat) (s : State) : Host.Outcome State Fault Refusal :=
  match s.acting id 0x0103 with
  | none => .next s
  | some c => .next (s.checked c none (fun s =>
      let v := if c.field 0x10 2 = 1 then s.serv.cachePolicy else s.power.idle
      (s.hostWrite c.port (c.field 0x18 8) (leBytes 32 v.toNat)).succeed id []))

/-- Whether a feature value keeps its feature's definition: its reserved bits are zero (07 R249, 16 R512, 13 R416). -/
def featureOk (n v : Nat) : Bool :=
  if n = 1 then bitsOf v 6 26 = 0 && bitsOf v 192 64 = 0 else bitsOf v 98 158 = 0

/-! ## Rings. -/

/-- The ring pair a RING_CREATE describes (13 R418). -/
def Cmd.newRing (c : Cmd) : Ring :=
  Ring.make (c.field 0x18 8) (c.field 0x20 8) (c.field 0x28 4) (c.field 0x2C 4) (c.field 0x11 1) (c.field 0x12 2) (c.field 0x14 4)
    (if c.field 0x30 4 = 0xFFFFFFFF then none else some (c.field 0x30 4))

/-- RING_CREATE (13 R418). -/
def execRingCreate (id : Nat) (s : State) : Host.Outcome State Fault Refusal :=
  match s.acting id 0x0105 with
  | none => .next s
  | some c =>
    let r := c.field 0x10 1
    .next (s.checked c (if (s.ring? c.port r).isSome then some .invalidField else none) (fun s =>
      (s.modPort c.port (fun x => { x with rings := Tab.put x.rings r c.newRing })).succeed id []))

/-- RING_DELETE (13 R419). -/
def execRingDelete (id : Nat) (s : State) : Host.Outcome State Fault Refusal :=
  match s.acting id 0x0106 with
  | none => .next s
  | some c =>
    let r := c.field 0x10 1
    .next (s.checked c (if (s.ring? c.port r).isSome then none else some .invalidField) (fun s => (s.deleteRing c.port r).succeed id []))

/-- Whether every command fetched before a ring froze has completed and its reply has been written (12 R399). -/
def State.ringQuiet (s : State) (p : Port) (r : Nat) (g : Ring) : Bool := g.held.isEmpty && (s.cmdsOf p).all (fun c => c.ring ≠ r)

/-- RING_RESTART (12 R399, 13 R420). -/
def execRingRestart (id : Nat) (s : State) : Host.Outcome State Fault Refusal :=
  match s.acting id 0x0107 with
  | none => .next s
  | some c =>
    let r := c.field 0x10 1
    match s.ring? c.port r with
    | none => .next (s.fail id .invalidField)
    | some g =>
      .next (s.checked c (if g.frozen then none else some .invalidField) (fun s =>
        if s.ringQuiet c.port r g then
          let head := if c.field 0x11 1 = 1 then g.tail else g.head
          let s := s.modRing c.port r (fun g => { g with head := head, frozen := false })
          let s := { s with host := { s.host with errors := Tab.change s.host.errors r (fun e => { e with frozen := false }) } }
          s.succeed id (resultAt [(0x0C, 2, head)])
        else s.stage id 1 []))

/-! ## Power. -/

/-- POWER_SET (13 R421, 16 R513 to R515): A0 is reached at once; Hibernate begins its entry, or is refused. -/
def execPowerSet (id : Nat) (s : State) : Host.Outcome State Fault Refusal :=
  match s.acting id 0x0108 with
  | none => .next s
  | some c =>
    if c.stage ≠ 0 then .next s
    else if c.field 0x10 1 = 0 then .next (s.checked c none (fun s => s.wakeUp.succeed id []))
    else
      let err : Option Status := if s.readOnly then some .mediaReadOnly else if s.imageFits then none else some .resourceExhausted
      .next (s.checked c err (fun s => { (s.stage id 1 []) with power := { s.power with hib := some .command } }))

end Sys2Proof.Machine
end

