-- ==== Sys2Proof/Machine/Media.lean ====
section
/-! DEFINITION. Media management's own steps: veneer target, folds, merges, relocations, journal, checkpoints, decoding, suspension for reads,
patrol and rebuild (02). One execution of a fold, merge or relocation does the next step of R70 that its committed records allow. -/

namespace Sys2Proof.Machine

/-! ## Checkpoints. -/

/-- The tables as the committed records leave them (02 R69). -/
def Media.tables (m : Media) : Tables where
  map := m.map
  logs := m.logs.map (fun b => (b.1, b.2.lstripe, b.2.seq))
  subst := m.subst
  opens := (m.relocs.filter (fun r => r.2.step ≠ .opening)).map (fun r => (r.1, r.2.seen))
  spare := m.spareState.num
  seq := m.jDone

/-- A checkpoint of the tables begins: its pages follow, and its CHECKPOINT record once they have returned OK (02 R69). -/
def Media.beginCheckpoint (m : Media) (now : Nat) : Media :=
  { m with cpNum := m.cpNum + 1, cpAt := now, cpBuild := some ⟨m.cpNum + 1, m.tables, [], []⟩ }

/-- Whether a checkpoint falls due: none is being written, and 65,536 records or 10 s have passed since the newest (02 R69). -/
def Media.checkpointDue (m : Media) (now : Nat) : Bool :=
  m.cpBuild.isNone && (decide (m.cpAt + 10 * secUnits ≤ now) || decide (65536 < m.jNext - ((m.cps.getLast?.map (·.tables.seq)).getD 0)))

/-! ## The veneer target. -/

/-- The veneer's target in stripes of 1 GiB (02 R57), or the fixed one within the unallocated space less the merge reserve (16 R534). -/
def State.veneerWant (s : State) : Nat :=
  let fixed := bitsOf s.power.mediaPolicy.toNat 0 16
  if fixed = 0 then min 32768 (max 768 (s.media.spares / 64)) else min fixed (s.media.spares / 16 - 16)

/-- Once per second: the veneer holds as many stripes as the target, or as are in use; stripes are opened at the head as pages go to them, and one freed at the tail is opened
again only while the veneer holds fewer (02 R57); a checkpoint that has fallen due begins (02 R69). -/
def execVeneerTarget (s : State) : Host.Outcome State Fault Refusal :=
  let want := s.veneerWant
  let n := max want s.media.ring.length
  let s := s.modMedia (fun m => { m with veneerTarget := want, veneerStripes := n }.veneerFolded s.now)
  let s := if s.media.checkpointDue s.now then s.modMedia (fun m => m.beginCheckpoint s.now) else s
  let old := s.media.veneerRecorded
  if old + 256 ≤ n ∨ n + 256 ≤ old then
    .next ((s.modMedia (fun m => { m with veneerRecorded := n })).policyActed 1 old n)
  else .next s

/-! ## Folds, merges and relocations. -/

/-- The copies the veneer holds for an owner's stripe. -/
def Media.veneerOf (m : Media) (o : Owner) (os : Nat) : List SecCopy :=
  m.veneer.filter (fun c => c.owner = o && c.sector / stripeSectors o = os)

/-- The sectors of some copies, each once. -/
def sectorsOf (l : List SecCopy) : List Nat := sortBy (· < ·) (l.map (·.sector)).dedup

/-- The newest copy of each sector of some copies. -/
def newestOf (o : Owner) (l : List SecCopy) : List SecCopy := (sectorsOf l).filterMap (fun x => newestIn l o x)

/-- A target opens: TARGET_OPEN is recorded with the map entry seen (02 R67, R70). -/
def Media.openTarget (m : Media) (now : Nat) (r : Reloc) : Media :=
  let word := match r.seen with
    | some e =>
      let ls := m.logsOf r.lstripe
      e.word (match ls with
        | [] => 0
        | x :: _ => x.1) ls.length
    | none => 0
  { (m.journal now .targetOpen r.lstripe word (r.target + 2 ^ 24)) with relocs := Tab.put m.relocs r.lstripe r }

/-- A fold or relocation that opens its target. -/
def openReloc (l : Nat) (o : Owner) (os target : Nat) (slc : Bool) (source : Option Nat) (logs : List Nat) (seen : Option MapEntry) : Reloc :=
  ⟨l, o, os, target, slc, source, logs, .opening, seen, 0, [], List.replicate 16 0, List.replicate 16 0⟩

/-- What an opened target is to hold: for a fold the veneer's copies, for a relocation the source's, with those of the logs it merges; the newest of each sector
(02 R60, R65, R70). -/
def Media.copiesFor (m : Media) (r : Reloc) : List SecCopy :=
  newestOf r.owner (match r.source with
    | none => m.veneerOf r.owner r.ostripe
    | some p => Tab.at m.stripes p [] ++ (m.logs.filter (fun b => b.1 ∈ r.logs)).flatMap (fun b => b.2.copies))

/-- The copying begins. -/
def Media.beginCopy (m : Media) (r : Reloc) : Media :=
  let cs := m.copiesFor r
  { m with relocs := Tab.put m.relocs r.lstripe { r with step := .copying, copies := cs, upTo := cs.foldl (fun a c => max a c.seq) 0 } }

/-- The next step of R70 that committed records allow; the copying begins once the dies that hold the copies are free to be read, and reads their pages (02 R70, R75 to R77). -/
def State.advance (s : State) (r : Reloc) : State :=
  match r.step with
  | .opened =>
    let spots := s.media.copySpots r (s.media.copiesFor r)
    if s.spotsReady false spots then (s.modMedia (fun m => m.beginCopy r)).readSpots spots else s
  | .mapSet => s.modMedia (fun m => m.startErase s.now r)
  | _ => s

/-- Pages of a log block in use: those sent to its stripe and those on their way, or all of them if it is closed (02 R64, R72). -/
def Media.logUsed (m : Media) (k : Nat) : Nat :=
  m.stripeUsed (logStripe k) + (((m.logPend.filter (fun c => c.log = k)).map (·.copy.seq)).dedup.filter (fun q => !Tab.has m.pages q)).length

/-- The logs of the pool that are free: attached to no stripe, merged by no relocation that goes on, erased, and good (02 R64, R65). -/
def Media.freeLogs (m : Media) : List Nat :=
  let held := (Tab.vals m.relocs).flatMap (·.logs)
  (List.range 2048).filter (fun k => !Tab.has m.logs k && k ∉ held && !Tab.has m.toErase (logStripe k) && m.stripeGood (logStripe k))

/-- The free log of the least wear (02 R64, R78). -/
def Media.freeLog (m : Media) : Option Nat := (sortBy (fun a b => m.stripeWear (logStripe a) < m.stripeWear (logStripe b)) m.freeLogs).head?

/-- Updates of a mapped stripe go to its newest log block in SEQ order, four to a page; a new block needs its LOG_ATTACH committed first, and none is taken while a
relocation of the stripe merges its logs (02 R64, R65). -/
def Media.appendLog (m : Media) (now l : Nat) (e : MapEntry) : Media :=
  let vs := m.veneerOf e.owner e.ostripe
  if vs.isEmpty ∨ ((Tab.find m.relocs l).map (fun r => !r.logs.isEmpty)).getD false then m
  else
    let logs := m.logsOf l
    let attach := fun (m : Media) =>
      if 4 ≤ logs.length ∨ (m.jPend ++ m.jPages.flatMap (·.recs)).any (fun r => r.type = .logAttach && r.lstripe = l) then m
      else
        match m.freeLog with
        | some k => m.journal now .logAttach l 0 k
        | none => m
    match logs.getLast? with
    | none => attach m
    | some (k, _) =>
      let room := stripePages - m.logUsed k
      if room = 0 then attach m
      else
        let waiting := fun (c : SecCopy) => m.logPend.any (fun x => x.was = c.seq && x.copy.sector = c.sector && x.copy.owner = c.owner)
        let put := ((sortBy (fun a b => a.seq < b.seq) (vs.filter (fun c => !waiting c))).take (4 * room)).mapIdx (fun i c =>
          LogCopy.mk k c.seq { c with seq := m.writeSeq + i / 4 })
        { m with writeSeq := m.writeSeq + ceilDiv put.length 4, logPend := m.logPend ++ put }

/-- The fold of an unmapped stripe opens: after 10 s without a write, or with less than a quarter of the veneer free; a stripe with only ZERO
sectors is dropped and released from the count (02 R60, R83). -/
def Media.foldOpen (m : Media) (now : Nat) (c : Counted) (target : Nat) : Media :=
  let vs := m.veneerOf c.owner c.ostripe
  let due := c.lastWrite + 10 * secUnits ≤ now ∨ m.veneerFree * 4 < m.veneerSize * (stripePages * 16384)
  if vs.isEmpty ∨ ¬ due then m
  else if (newestOf c.owner vs).all (·.zero) then
    { m with
      veneer := m.veneer.filter (fun x => !(x.owner = c.owner && x.sector / stripeSectors c.owner = c.ostripe))
      counted := (m.counted.map (fun x => if x.lstripe = c.lstripe then { x with landed := false } else x)).filter
        (fun x => x.landed || !x.cmds.isEmpty) }
  else if m.targetOk target then m.openTarget now (openReloc c.lstripe c.owner c.ostripe target false none [] none)
  else m

/-- FOLD (02 R60, R61, R64, R83). -/
def execFold (lstripe : Nat) (pstripe : Nat) (s : State) : Host.Outcome State Fault Refusal :=
  let m := s.media
  match Tab.find m.relocs lstripe with
  | some r => .next (if r.source.isNone then s.advance r else s)
  | none =>
    match Tab.find m.map lstripe with
    | some e => .next (s.modMedia (fun m => (m.appendLog s.now lstripe e).veneerFolded s.now))
    | none =>
      match m.counted.find? (fun c => c.lstripe = lstripe) with
      | some c => .next (s.modMedia (fun m => (m.foldOpen s.now c pstripe).veneerFolded s.now))
      | none => .next s

/-- Whether a stripe is to be merged: its fourth log is full and the veneer holds more, the pool is short and its oldest log is the oldest, or one of its logs is to be
emptied (02 R65, R72, R77). -/
def Media.mergeDue (m : Media) (l : Nat) (e : MapEntry) : Bool :=
  let logs := m.logsOf l
  let full := logs.length = 4 && logs.all (fun b => stripePages ≤ m.logUsed b.1) && !(m.veneerOf e.owner e.ostripe).isEmpty
  let short := (match logs with
    | [] => false
    | x :: _ => m.logs.all (fun b => x.2.seq ≤ b.2.seq)) && m.freeLogs.length < 64
  full || (!logs.isEmpty && l ∈ m.relocNeeded) || short

/-- Whether a stripe is to be relocated: a page or log of it asks for it, or it holds static data on blocks worn too little (02 R74, R77, R78). -/
def Media.relocDue (m : Media) (l : Nat) (e : MapEntry) : Bool := l ∈ m.relocNeeded || m.belowMean e.pstripe

/-- The stripes that relocate with a stripe, and their targets: for a stripe of the sketch area the four of its quad, to the four of a quad; else it alone (02 R50, R77). -/
def Media.together (m : Media) (l : Nat) (e : MapEntry) (target : Nat) : List (Nat × MapEntry × Nat) :=
  if e.owner ≠ 17 then [(l, e, target)]
  else
    let base := target - bitsOf target 12 2 * 2 ^ 12
    (List.range 4).filterMap (fun c => (m.mapped? 17 (e.ostripe / 4 * 4 + c)).map (fun x => (x.1, x.2, base + c * 2 ^ 12)))

/-- A relocation of a mapped stripe opens, or goes on. -/
def State.relocate (s : State) (lstripe pstripe : Nat) (merge : Bool) : State :=
  let m := s.media
  match Tab.find m.relocs lstripe with
  | some r => if r.source.isSome then s.advance r else s
  | none =>
    match Tab.find m.map lstripe with
    | none => s
    | some e =>
      if merge then
        (if m.mergeDue lstripe e ∧ m.targetOk pstripe then
          s.modMedia (fun m => m.openTarget s.now (openReloc lstripe e.owner e.ostripe pstripe e.slc (some e.pstripe) ((m.logsOf lstripe).map (·.1)) (some e)))
         else s)
      else
        let us := m.together lstripe e pstripe
        if us.any (fun x => m.relocDue x.1 x.2.1) ∧ us.all (fun x => m.targetOk x.2.2 && !Tab.has m.relocs x.1) then
          s.modMedia (fun m => us.foldl (fun (m : Media) x =>
            m.openTarget s.now (openReloc x.1 x.2.1.owner x.2.1.ostripe x.2.2 x.2.1.slc (some x.2.1.pstripe) [] (some x.2.1))) m)
        else s

/-- MERGE_STRIPE (02 R65, R70). -/
def execMergeStripe (lstripe : Nat) (pstripe : Nat) (s : State) : Host.Outcome State Fault Refusal :=
  .next (s.relocate lstripe pstripe true)

/-- RELOCATION (02 R70, R74, R77, R78, R81). -/
def execRelocation (lstripe : Nat) (pstripe : Nat) (s : State) : Host.Outcome State Fault Refusal :=
  .next ((s.relocate lstripe pstripe false).spareCheck)

/-! ## The journal. -/

/-- JOURNAL_PROGRAM: the pending records, at most 512, go to a page in two copies; a checkpoint that has fallen due begins (02 R66, R68, R69). -/
def execJournalProgram (s : State) : Host.Outcome State Fault Refusal :=
  if s.media.jPend = [] then .next s
  else
    let s := s.modMedia (fun m =>
      { m with
        jPages := m.jPages ++ [⟨m.jPend.take 512, none, none, false, false⟩]
        jPend := m.jPend.drop 512
        jPendSince := s.now })
    .next (if s.media.checkpointDue s.now then s.modMedia (fun m => m.beginCheckpoint s.now) else s)

/-- CHECKPOINT (02 R69): it begins unless one is being written. The manual bounds how rarely one is written, by 65,536 records and by 10 s, not how often. -/
def execCheckpoint (s : State) : Host.Outcome State Fault Refusal :=
  if s.media.cpBuild.isSome then .next s else .next (s.modMedia (fun m => m.beginCheckpoint s.now))

/-! ## Decoding (02 R73, R74). -/

/-- A channel group's frame of 16 µs. -/
def frameUnits : Nat := 16 * usUnits

/-- The shares in force in a channel group: fixed by MEDIA_POLICY, moved by a rebuild, or 16, 16 and 8 (02 R73; 16 R533, R534). -/
def State.ldpcShares (s : State) (rebuilding : Bool) : Nat × Nat × Nat :=
  let p := s.power.mediaPolicy.toNat
  if bitOf p 17 then (bitsOf p 18 6, bitsOf p 24 6, bitsOf p 30 6)
  else if rebuilding then (16, 8, 16)
  else (16, 16, 8)

/-- A group's decoder in the frame that runs now. -/
def State.decoder (s : State) (g : Nat) : Ldpc :=
  let x := Tab.at s.media.ldpc g ⟨16, 16, 8, false, 16, 16, 8, 0⟩
  let sh := s.ldpcShares x.rebuilding
  let f := s.now / frameUnits
  if x.frame = f then { x with i := sh.1, b := sh.2.1, s := sh.2.2 }
  else ⟨sh.1, sh.2.1, sh.2.2, x.rebuilding, sh.1, sh.2.1, sh.2.2, f⟩

/-- The slots of a class left in the frame, and a change of them. -/
def Ldpc.left (x : Ldpc) : Cls → Nat
  | .interactive => x.leftI
  | .background => x.leftB
  | .system => x.leftS

def Ldpc.use (x : Ldpc) (c : Cls) (n : Nat) : Ldpc := match c with
  | .interactive => { x with leftI := x.leftI - n }
  | .background => { x with leftB := x.leftB - n }
  | .system => { x with leftS := x.leftS - n }

/-- n slots for a class: its own first, then those that the other classes leave unused beside their own waiting work, once waiting work of higher classes has had its part of
them: they go to it in the order Interactive, Background, System (02 R73; log entry 141). -/
def Ldpc.take (x : Ldpc) (need : Cls → Nat) (c : Cls) (n : Nat) : Option Ldpc :=
  let a := min (x.left c) n
  let others := ([.interactive, .background, .system] : List Cls).filter (· ≠ c)
  let spare := fun (k : Cls) => x.left k - need k
  let claims := ((others.filter (fun k => decide (k.code < c.code))).map (fun k => need k - x.left k)).foldl (· + ·) 0
  if (others.map spare).foldl (· + ·) 0 < n - a + (if n = a then 0 else claims) then none
  else some (others.foldl (fun (y : Ldpc × Nat) k => (y.1.use k (min (spare k) y.2), y.2 - min (spare k) y.2)) (x.use c a, n - a)).1

/-- Slots a ladder takes in the page's own group: a hard decode, one for each re-read, four consecutive ones for a soft decode (02 R73, R74; log entry 25). -/
def ladderSlots : Ladder → Nat
  | .hard => 1
  | .reread n => 2 + n.val
  | _ => 8

/-- Slots the fifteen companions of a reconstruction take, in the page's own group and in the other of its quarter (02 R51, R73, R74; log entry 25). -/
def companionSlots : Ladder → Nat × Nat
  | .parity => (7, 8)
  | .failed => (7, 8)
  | _ => (0, 0)

/-- The slots that waiting decodes of a class need in a group: those of the commands that wait (02 R73; log entry 141). -/
def State.decodesWaiting (s : State) (g : Nat) (c : Cls) : Nat :=
  (s.pending.map (fun i => match i with
    | .ldpcDecode d k _ _ l => if d.val / 128 = g ∧ k = c then ladderSlots l else 0
    | _ => 0)).foldl (· + ·) 0

/-- A decode in a group's frame; with too few slots left it takes those of the next frame (02 R73). -/
def State.decodeSlots (s : State) (g : Nat) (c : Cls) (n : Nat) : State :=
  match (s.decoder g).take (s.decodesWaiting g) c n with
  | some x => s.modMedia (fun m => { m with ldpc := Tab.put m.ldpc g x })
  | none =>
    let s := { s with now := (s.now / frameUnits + 1) * frameUnits }
    s.modMedia (fun m => { m with ldpc := Tab.put m.ldpc g (((s.decoder g).take (s.decodesWaiting g) c n).getD (s.decoder g)) })

/-- The decodes of a page's ladder, in its group's frame and in those of its companions' groups (02 R73, R74). -/
def State.ladderDecode (s : State) (die : Nat) (c : Cls) (l : Ladder) : State :=
  let g := die / 128
  let s := s.decodeSlots g c (ladderSlots l)
  let k := companionSlots l
  if k.2 = 0 then s else (s.decodeSlots g c k.1).decodeSlots (if g % 2 = 0 then g + 1 else g - 1) c k.2

/-- What a ladder's outcome means: the die's bucket, the counts, the relocation, and the uncorrectable sectors (02 R74, R77; 14 R467; 15 R503). -/
def State.ladderDone (s : State) (die : Nat) (p : Option Nat) (owner : Owner) (sectors : List Nat) (l : Ladder) : State :=
  let s := if l = .hard then s else s.correctable .flash die
  let s := if l = .parity then s.count 9 1 else s
  let s := match p with
    | some p => if l = .hard then s else s.modMedia (fun m => m.needReloc p)
    | none => s
  if l = .failed then s.uncorrectable owner sectors else s

/-- A page is read again with the stored sets of its bin up to one, and left with that one loaded (02 R74 step 1). -/
def State.reread (s : State) (x : Nat × Nat × Nat) (upTo : Nat) : State := (List.range (upTo + 1)).foldl (fun s n => s.readSpot x n) s

/-- A page is sensed at three offsets about the best set, which leaves none of the stored ones on its plane (02 R74 step 2). -/
def State.threeSenses (s : State) (x : Nat × Nat × Nat) : State :=
  let s := (List.range 3).foldl (fun s _ => s.readSpot x 0) s
  s.modMedia (fun m => { m with offsetsOn := m.offsetsOn.filter (fun y => y.1 ≠ (m.dieOf x).val * 4 + (m.blockOf x.1 x.2.1).2.plane.val) })

/-- The reads of a ladder beside the first: the re-reads, the senses about the best set, and those of the fifteen companions (02 R74). -/
def State.ladderReads (s : State) (x : Nat × Nat × Nat) (l : Ladder) : State :=
  let stored := (s.setsOf (s.media.blockOf x.1 x.2.1).1 (s.media.modeOf x.1) (s.media.blockOf x.1 x.2.1).2).length
  match l with
  | .hard => s
  | .reread n => s.reread x n.val
  | .soft => (s.reread x (min 2 (stored - 1))).threeSenses x
  | _ => ((s.reread x (min 2 (stored - 1))).threeSenses x).readSpots (((List.range 16).filter (· ≠ x.2.1)).map (fun k => (x.1, k, x.2.2)))

/-- LDPC_DECODE of a page of a die for a class; `sectors` are the owner's sectors on it (02 R73, R74). -/
def execLdpcDecode (d : DieNo) (c : Cls) (owner : Nat) (sectors : List Nat) (l : Ladder) (s : State) : Host.Outcome State Fault Refusal :=
  let s := s.ladderDecode d.val c l
  let spot := sectors.head?.bind (s.media.spotOf owner)
  let s := match spot with
    | some x => s.ladderReads x l
    | none => s
  .next (s.ladderDone d.val (spot.map (·.1)) owner sectors l)

/-! ## Suspension for reads (02 R75). -/

/-- The sectors that an Interactive command reads itself: of a READ, or of the embedding an ITEM_GET asks for (02 R75; 08 R254; 13 R424, R430). -/
def State.readsOf (s : State) (c : Cmd) : Owner × List Nat :=
  if c.opcode = 0x0201 then (c.object, (List.range (c.field 0x18 4)).map (c.field 0x10 8 + ·))
  else if c.opcode = 0x0304 ∧ bitOf (c.field 0x1C 4) 0 then (16, s.items.embAt (c.object % 2 ^ 34))
  else (0, [])

/-- A die running a QLC program or an erase with suspends left is suspended for queued reads and scans; never a pSLC program (02 R75). -/
def State.suspendFor (s : State) (d : DieNo) : State :=
  let x := s.die d
  match x.op with
  | some o =>
    if o.kind = .slc ∨ maxSuspends o.kind ≤ o.used ∨ o.st ≠ .running ∨ !x.takes .suspend then s
    else (s.setDie d (x.suspendOp s.now)).modMedia (fun m =>
      { m with susp := ⟨d.val, s.now + 100 * usUnits⟩ :: m.susp.filter (fun y => y.die ≠ d.val) })
  | none => s

/-! ## Read offsets (02 R76). -/

/-- Whether rows of one plane lie in blocks of one bin, so that they may stand in one chain (02 R76). -/
def State.oneBin (s : State) (d : DieNo) (rows : List Row) : Bool :=
  rows.all (fun r => rows.all (fun q => decide (q.plane ≠ r.plane) || decide (s.binOf d.val q = s.binOf d.val r)))

/-! ## Patrol and rebuild. -/

/-- Of the stored offset sets the newest three for each die, plane, bin and mode (02 R74, R76). -/
def keepThree : List (Nat × BMode × Nat × List Byte) → List (Nat × BMode × Nat × List Byte) → List (Nat × BMode × Nat × List Byte)
  | [], kept => kept
  | x :: xs, kept => keepThree xs (if (kept.filter (fun y => y.1 = x.1 && y.2.1 = x.2.1)).length < 3 then kept ++ [x] else kept)

/-- PATROL of a stripe's pages on a die, every one of which is read: weak or failing pages relocate it, and refined offset sets are stored while READ_CAL is 1 (02 R76, R77;
16 R533). -/
def execPatrol (d : DieNo) (pstripe : Nat) (heavy : Bool) (l : Ladder) (offsets : List (PlaneNo × BMode × Fin 8 × List Byte)) (s : State) :
    Host.Outcome State Fault Refusal :=
  let s := s.modMedia (fun m => { m with patrolled := Tab.put m.patrolled pstripe s.now })
  let rows := (List.range 16).filterMap (fun k => if (s.media.blockOf pstripe k).1 = d.val then some (s.media.blockOf pstripe k).2 else none)
  let mode := s.media.modeOf pstripe
  let s := s.loadSets d mode rows
  let s := rows.foldl (fun s r => s.countReads d.val mode r (match mode with
    | .slc => 1024
    | .qlc => 4096)) s
  let s := s.ladderDecode d.val .system l
  let s := s.ladderDone d.val (some pstripe) (match s.media.map.find? (fun e => e.2.pstripe = pstripe) with
    | some e => e.2.owner
    | none => 0) [] l
  let s := if heavy then s.modMedia (fun m => m.needReloc pstripe) else s
  if bitOf s.power.mediaPolicy.toNat 16 ∧ offsets ≠ [] then
    let key := fun (x : PlaneNo × BMode × Fin 8 × List Byte) => offsetKey d.val x.1.val x.2.2.1.val
    let s := s.modMedia (fun m => { m with
      offsets := keepThree (offsets.map (fun x => (key x, x.2.1, x.2.2.1.val, x.2.2.2)) ++ m.offsets) []
      offsetsOn := m.offsetsOn.filter (fun y => offsets.all (fun x => !(d.val * 4 + x.1.val = y.1 && x.2.1 = y.2.1))) })
    .next (s.policyActed 3 d.val offsets.length)
  else .next s

/-- Whether a plane-block may replace a retired member: good, outside the system region and the log pool, of a stripe that holds nothing (02 R80). -/
def Media.blockFree (m : Media) (die : Nat) (r : Row) : Bool :=
  let home := memberOf die r
  decide (systemBlocks + logBlocks ≤ r.block ∧ r.block < 2112 ∧ home ∉ m.retired ∧ home.1 ∉ m.taken ∧ wearKey die r ∉ m.lostSubst ∧ wearKey die r ∉ m.badBlocks)
    && m.subst.all (fun x => m.memberKey x.1 x.2.1 ≠ wearKey die r)

/-- Whether a free plane-block has the least wear of the free ones of its channel and plane (02 R78, R80). -/
def Media.leastBlock (m : Media) (ch : Nat) (r : Row) (pos : Nat) : Bool :=
  let w := fun (p b : Nat) => (Tab.at m.wear (wearKey (16 * ch + p) { r with block := b }) Wear.new).units
  w pos r.block = 0 || (List.range 16).all (fun p => (List.range 2112).all (fun b => w pos r.block ≤ w p b || !m.blockFree (16 * ch + p) { r with block := b }))

/-- A change of a mapped stripe's REBUILD is recorded (02 R53, R67, R80). -/
def Media.markRebuild (m : Media) (now p member : Nat) (b : Bool) : Media :=
  match m.map.find? (fun e => e.2.pstripe = p) with
  | none => m
  | some (l, e) =>
    let ls := m.logsOf l
    m.journal now .mapSet l (MapEntry.word { e with rebuild := b } ((ls.head?.map (fun x => x.1)).getD 0) ls.length) (p + member * 2 ^ 20)

/-- Units of a lost member that hold data: all of a QLC stripe's, else those every companion has programmed. -/
def State.unitsLost (s : State) (p member : Nat) : Nat :=
  match s.media.modeOf p with
  | .qlc => 1024
  | .slc => ((List.range 1024).filter (fun j => ((List.range 16).filter (· ≠ member)).all (fun k => s.pageReady p k j .slc))).length

/-- The decoder shares of a channel group move with a rebuild in it, unless MEDIA_POLICY fixes them (16 R533). -/
def State.rebuildShares (s : State) (group : Nat) (b : Bool) : State :=
  let d := s.decoder group
  let s := if bitOf s.power.mediaPolicy.toNat 17 ∨ d.rebuilding = b then s
    else
      let o := s.ldpcShares d.rebuilding
      let n := s.ldpcShares b
      s.policyActed 9 (o.1 + o.2.1 * 256 + o.2.2 * 65536) (n.1 + n.2.1 * 256 + n.2.2 * 65536)
  s.modMedia (fun m => { m with ldpc := Tab.put m.ldpc group { d with rebuilding := b } })

/-- REBUILD of a retired member: the first execution names a substitute on the same channel and plane and marks the stripe, with the group's System share raised; one after
every unit has been rebuilt ends it (02 R80; 16 R533). -/
def execRebuild (pstripe : Nat) (member : Fin 16) (pos : Fin 16) (block : Nat) (s : State) : Host.Outcome State Fault Refusal :=
  let m := s.media
  let home := m.blockOf pstripe member.val
  let group := home.1 / 128
  match m.rebuilding.find? (fun x => x.p = pstripe && x.member = member.val) with
  | some x =>
    if m.substituted pstripe member.val ∧ s.unitsLost pstripe member.val ≤ x.okd then
      let s := s.modMedia (fun m => { m with rebuilding := m.rebuilding.filter (fun y => !(y.p = pstripe && y.member = member.val)) })
      let s := if s.media.rebuilding.any (fun y => y.p = pstripe) then s else s.modMedia (fun m => m.markRebuild s.now pstripe member.val false)
      .next (s.rebuildShares group (s.media.rebuilding.any (fun y => (s.media.blockOf y.p y.member).1 / 128 = group)))
    else .next s
  | none =>
    if (pstripe, member.val) ∈ m.retired ∧ m.substituted pstripe member.val = false
        ∧ m.leastBlock (home.1 / 16) { home.2 with block := block } pos.val = true
        ∧ m.blockFree (home.1 / 16 * 16 + pos.val) { home.2 with block := block } = true then
      let s := s.modMedia (fun m =>
        let m := m.journal s.now .substitute 0xFFFFFFFF (pos.val + block * 16) (pstripe + member.val * 2 ^ 20)
        ({ m with rebuilding := ⟨pstripe, member.val, 0, 0⟩ :: m.rebuilding }).markRebuild s.now pstripe member.val true)
      .next (s.rebuildShares group true)
    else .next s

end Sys2Proof.Machine
end

