-- ==== Sys2Proof/Machine/Blocks.lean ====
section
/-! DEFINITION. Volumes and block commands (13 R423 to R426; 02 R54, R58, R74, R83, R84, R87; 17 R545). -/

namespace Sys2Proof.Machine

/-! ## What a command on a volume meets. -/

/-- Whether a volume is locked (17 R545). -/
def State.volLocked (s : State) (v : Nat) : Bool := s.sec.volLocks.getLsbD v

/-- The checks of a command on a volume: it exists, and was not being deleted when the command was fetched; it is not locked; the sectors lie in it
(13 R423, R424; 17 R545). -/
def State.volumeError (s : State) (c : Cmd) (v first n : Nat) : Option Status :=
  match Tab.find s.media.volumes v with
  | none => some .invalidField
  | some x =>
    if c.volGone then some .invalidField
    else if s.volLocked v then some .notOwner
    else if x.sectors < first + n then some .invalidField
    else none

/-- Whether an earlier command of some opcodes on the same volume is still in progress. -/
def State.earlierOn (s : State) (c : Cmd) (v : Nat) (ops : Nat → Bool) : Bool :=
  (Tab.vals s.host.cmds).any (fun d => d.before c && d.volume = some v && ops d.opcode)

/-- Whether a command waits for an earlier FLUSH of its volume (13 R426). -/
def State.flushWaits (s : State) (c : Cmd) (v : Nat) : Bool := !c.volGone && s.earlierOn c v (fun op => op = 0x0204)

/-! ## Volumes. -/

/-- VOLUME_CREATE (13 R423): after any deletion of the number that was in progress, its MAP_CLEARs committed (02 R87), a new volume of zeros with a fresh key; it completes
once the security block holds the key (17 R540). -/
def execVolumeCreate (id : Nat) (s : State) : Host.Outcome State Fault Refusal :=
  match s.acting id 0x010A with
  | none => .next s
  | some c =>
    let v := c.object
    if c.stage = 1 then .next (if s.secured (c.aux.headD 0) then s.succeed id [] else s)
    else if s.earlierOn c v (fun op => op = 0x010B || op = 0x0204) ∨ (!Tab.has s.media.volumes v ∧ s.media.map.any (fun e => e.2.owner = v)) then .next s
    else
      let err : Option Status := if s.volLocked v then some .notOwner else if Tab.has s.media.volumes v then some .invalidField else none
      .next (s.checked c err (fun s =>
        let s := (s.modMedia (fun m => { m with volumes := Tab.put m.volumes v ⟨c.field 0x10 8, m.keys⟩, keys := m.keys + 1 })).secure
        s.stage id 1 [s.sec.pages.seq]))

/-- VOLUME_DELETE (13 R423, 02 R87): once earlier commands on the volume have completed its key is destroyed and it is gone; the command completes
when its MAP_CLEAR records have committed and no block holds the key any more (17 R549). -/
def execVolumeDelete (id : Nat) (s : State) : Host.Outcome State Fault Refusal :=
  match s.acting id 0x010B with
  | none => .next s
  | some c =>
    let v := c.object
    if c.stage = 2 then .next (if c.aux.headD 0 ≤ s.media.jDone ∧ s.keysGone (c.aux.getD 1 0) then s.succeed id [] else s)
    else
      .next (s.checked c (if c.stage = 0 then s.volumeError c v 0 0 else none) (fun s =>
        if s.earlierOn c v (fun _ => true) then s.stage id 1 []
        else
          let s := s.cryptoErase v
          let s := s.modMedia (fun m => { m with volumes := Tab.del m.volumes v })
          s.stage id 2 [s.media.jNext - 1, s.sec.pages.seq]))

/-! ## READ. -/

/-- The entries of a READ's list: addresses and lengths (13 R424). -/
def State.readList (s : State) (c : Cmd) : List (Nat × Nat) :=
  if c.field 0x1C 4 = 0 then [(c.field 0x20 8, c.field 0x18 4 * 4096)]
  else (chunksOf 16 (s.hostRead c.port (c.field 0x20 8) (16 * c.field 0x28 4))).map (fun e => (fieldAt e 0 8, fieldAt e 8 4))

/-- Whether a READ's list is well made (13 R424). -/
def State.readListOk (s : State) (c : Cmd) : Bool :=
  let raw := chunksOf 16 (s.hostRead c.port (c.field 0x20 8) (16 * c.field 0x28 4))
  let l := s.readList c
  c.field 0x1C 4 = 0
    || (raw.all (fun e => fieldAt e 0xC 4 = 0) && l.all (fun e => e.1 % 4096 = 0 && e.2 % 4096 = 0) && (l.map (·.2)).foldl (· + ·) 0 = c.field 0x18 4 * 4096)

/-- Bytes written to a list of buffers in turn. -/
def State.scatter (s : State) (p : Port) : List (Nat × Nat) → List Byte → State
  | [], _ => s
  | e :: es, bs => State.scatter (s.hostWrite p e.1 (bs.take e.2)) p es (bs.drop e.2)

/-- Whether an unreadable sector of a READ shows: a sector that no copy holds, or whose newest copy is ZERO, reads as zeros without the array (02 R54). -/
def Media.stored (m : Media) (o x : Nat) : Bool := ((m.newest o x).map (fun c => !c.zero)).getD false

/-- Whether a page of a member is not there: its block is retired and has no substitute, or its unit has not been rebuilt yet (02 R80). -/
def Media.lostPage (m : Media) (x : Nat × Nat × Nat) : Bool :=
  ((x.1, x.2.1) ∈ m.retired && !m.substituted x.1 x.2.1)
    || m.rebuilding.any (fun y => decide (y.p = x.1 ∧ y.member = x.2.1 ∧ y.okd ≤ unitNo (m.modeOf x.1) x.2.2))

/-- Whether a sector's page is lost while the same page of another member of its stripe is lost too, so that no step of R74 finds it (02 R80). -/
def Media.twiceLost (m : Media) (o x : Nat) : Bool :=
  m.stored o x && ((m.spotOf o x).map (fun p =>
    m.lostPage p && (List.range 16).any (fun k => decide (k ≠ p.2.1) && m.lostPage (p.1, k, p.2.2)))).getD false

/-- The pages of some sectors that step 3 of R74 reconstructs because their member is lost (02 R80). -/
def Media.rebuiltReads (m : Media) (o : Nat) (xs : List Nat) : Nat :=
  ((xs.filter (fun x => m.stored o x && !m.twiceLost o x && ((m.spotOf o x).map m.lostPage).getD false)).map (· / 4)).dedup.length

/-- The sectors of a READ: unreadable ones' bytes are free (13 R425). -/
def State.readBytes (s : State) (v first n : Nat) (bad : List Nat) : List Byte :=
  (List.range n).flatMap (fun i =>
    if first + i ∈ bad then (List.range 4096).map (fun k => Config.freeBits (s.freeCtr + 4096 * i + k) 8) else s.media.sector v (first + i))

/-- READ (13 R424, R425; 02 R54, R74 to R77, R80), once the dies that hold its sectors are free to be read: `bad` names the sectors whose pages fail every step of R74, `fault` a faulted channel controller or decoder. -/
def execRead (id : Nat) (bad : List Nat) (fault : Bool) (s : State) : Host.Outcome State Fault Refusal :=
  match s.acting id 0x0201 with
  | none => .next s
  | some c =>
    let v := c.object
    let first := c.field 0x10 8
    let n := c.field 0x18 4
    let spots := s.media.spotsOf v ((List.range n).map (first + ·))
    if s.flushWaits c v then .next s
    else
      let err := match s.volumeError c v first n with
        | some st => some st
        | none => if s.readListOk c then none else some .invalidField
      if err.isNone ∧ !fault ∧ !s.spotsReady true spots then .next s
      else
      .next (s.checked c err (fun s =>
        if fault then s.fail id .mediaFault
        else
          let gone := ((List.range n).map (first + ·)).filter (s.media.twiceLost v)
          let lost := sortBy (· < ·) ((bad.filter (fun x => first ≤ x && x < first + n && s.media.stored v x)) ++ gone).dedup
          let xs := (List.range n).map (first + ·)
          let k := s.media.rebuiltReads v xs
          let bytes := s.readBytes v first n lost
          let s := ((s.readSpots spots).count 8 k).count 9 k
          let s := (s.scatter c.port (s.readList c) bytes).spend (if lost.isEmpty then 0 else 4096 * n)
          match lost with
          | [] => s.succeed id (resultAt [(0x0C, 4, n)])
          | x :: _ => (s.uncorrectable v lost).completeWith id .mediaUncorrectable 0 (resultAt [(0x0C, 4, n - lost.length), (0x10, 8, x)])))

/-! ## WRITE. -/

/-- The sectors of a command have all been acknowledged (02 R58). -/
def State.acknowledged (s : State) (id : Nat) : Bool := s.media.pend.all (fun p => p.cmd ≠ some id)

/-- Sectors of pushed data, as memories of 4,096 bytes. -/
def sectorsOfData (d : Mem) (n : Nat) : List (Option Mem) := (List.range n).map (fun i => some (Mem.write 0 [] 0 (Mem.read 0 d (4096 * i) 4096)))

/-- Sectors written or deallocated leave the uncorrectable list (15 R506). -/
def State.rewritten (s : State) (o first n : Nat) : State :=
  { s with health := s.health.leave o (fun x => first ≤ x && x < first + n) }

/-- WRITE (13 R424, R425; 02 R58, R83): admitted against the budget, then sent to the veneer when its data is whole, then complete when all of it is acknowledged. R58 lets
the sectors that arrived whole of a write whose data did not all arrive be present afterwards: in the model they are absent (DESIGN CHOICE, log entry 82). -/
def execWrite (id : Nat) (s : State) : Host.Outcome State Fault Refusal :=
  match s.acting id 0x0202 with
  | none => .next s
  | some c =>
    let v := c.object
    let first := c.field 0x10 8
    let n := c.field 0x18 4
    if c.stage = 0 then
      if s.flushWaits c v then .next s
      else
        let room := s.media.takeRoom s.now id (stripesOf v first n)
        let err := match s.volumeError c v first n with
          | some st => some st
          | none => if room.isNone then some .capacityExhausted else none
        .next (s.checked c err (fun s => ((s.modMedia (fun m => room.getD m)).stage id 1 []).modCmd id (fun c => { c with need := 4096 * n })))
    else if c.stage = 1 then
      if c.need ≤ c.got then .next ((s.modMedia (fun m => m.send id v first (sectorsOfData c.data n))).stage id 2 []) else .next s
    else if s.acknowledged id then
      .next (({ (s.rewritten v first n) with health := { (s.rewritten v first n).health with hostBytes := s.health.hostBytes + 4096 * n } }).succeed id [])
    else .next s

/-! ## DEALLOCATE and FLUSH. -/

/-- The logical stripes of an owner, mapped or counted, that a run of sectors covers whole (02 R84). -/
def Media.wholeStripes (m : Media) (o first n : Nat) : List Nat :=
  let sz := stripeSectors o
  let inside := fun os => first ≤ os * sz && (os + 1) * sz ≤ first + n
  (m.map.filter (fun e => e.2.owner = o && inside e.2.ostripe)).map (·.1) ++ (m.counted.filter (fun c => c.owner = o && c.landed && inside c.ostripe)).map (·.lstripe)

/-- Whether a sector of a stripe needs a ZERO slot: its stripe is mapped or has data in the veneer (02 R84). -/
def Media.needsZero (m : Media) (o os : Nat) : Bool :=
  (m.mapped? o os).isSome || m.veneer.any (fun c => c.owner = o && c.sector / stripeSectors o = os)

/-- The sectors of a run that lie in owner stripes it covers only in part, and need a ZERO slot (02 R84). -/
def Media.zeroSectors (m : Media) (o first n : Nat) : List Nat :=
  let sz := stripeSectors o
  let os := ([first / sz, (first + n - 1) / sz] : List Nat).dedup.filter (fun os => !(first ≤ os * sz && (os + 1) * sz ≤ first + n) && m.needsZero o os)
  os.flatMap (fun os => ((List.range sz).map (fun i => os * sz + i)).filter (fun x => first ≤ x && x < first + n))

/-- The records and ZERO slots of a DEALLOCATE leave. -/
def Media.deallocate (m : Media) (now id o first n : Nat) : Media :=
  let zs := m.zeroSectors o first n
  let m := (m.wholeStripes o first n).foldl (fun (m : Media) l => m.journal now .mapClear l 0 0) m
  (runsOf zs).foldl (fun (m : Media) r => m.send id o r.1 (List.replicate r.2 none)) m

/-- DEALLOCATE (13 R424, R425; 02 R84): MAP_CLEAR for whole stripes, ZERO slots for other sectors; complete when they are committed and acknowledged. -/
def execDeallocate (id : Nat) (s : State) : Host.Outcome State Fault Refusal :=
  match s.acting id 0x0203 with
  | none => .next s
  | some c =>
    let v := c.object
    let first := c.field 0x10 8
    let n := c.field 0x20 8
    if c.stage = 0 then
      if s.flushWaits c v then .next s
      else
        .next (s.checked c (s.volumeError c v first n) (fun s =>
          let whole := !(s.media.wholeStripes v first n).isEmpty
          let s := s.modMedia (fun m => m.deallocate s.now id v first n)
          let s := s.stage id 1 [if whole then s.media.jNext - 1 else 0]
          if !whole && s.acknowledged id then (s.rewritten v first n).succeed id [] else s))
    else if c.aux.headD 0 ≤ s.media.jDone ∧ s.acknowledged id then .next ((s.rewritten v first n).succeed id [])
    else .next s

/-- FLUSH (13 R426): complete when every WRITE and DEALLOCATE on the volume fetched before it has completed. -/
def execFlush (id : Nat) (s : State) : Host.Outcome State Fault Refusal :=
  match s.acting id 0x0204 with
  | none => .next s
  | some c =>
    let v := c.object
    if c.stage = 0 ∧ s.flushWaits c v then .next s
    else
      .next (s.checked c (if c.stage = 0 then s.volumeError c v 0 0 else none) (fun s =>
        if s.earlierOn c v (fun op => op = 0x0202 || op = 0x0203) then s.stage id 1 [] else s.succeed id []))

end Sys2Proof.Machine
end

