-- ==== Sys2Proof/Machine/ItemOps.lean ====
section
/-! DEFINITION. What the item commands share: handles, visibility, norms and sketches, the vector area, context caches that go, and the checks a search or an
ingest runs (09 R278 to R284; 07 R246, R250; 10 R321, R322; 14 R474 to R487). -/

namespace Sys2Proof.Machine

/-! ## Handles and visibility. -/

/-- An item handle (09 R278). -/
def itemNo (module gen index : Nat) : Nat := index + gen * 2 ^ 34 + module * 2 ^ 56

/-- The handle of an item of this module. -/
def State.itemHandle (s : State) (i : Nat) (x : Item) : Nat := itemNo s.moduleNumber x.gen i

/-- Whether an index holds a live item: committed and not deleted (09 R279, 13 R430). -/
def Item.live (x : Item) : Bool := x.ins ≠ 0 && x.del.isNone

/-- Whether a query at epoch e sees an item (09 R282). -/
def Item.visible (x : Item) (e : Nat) : Bool := x.ins ≠ 0 && decide (x.ins ≤ e) && ((x.del.map (fun d => decide (e < d))).getD true)

/-- The item a handle names, if it names one (09 R279). -/
def State.named (s : State) (h : Nat) : Option (Nat × Item) :=
  if h / 2 ^ 56 % 256 = s.moduleNumber then
    match Tab.find s.items.items (h % 2 ^ 34) with
    | some x => if x.live ∧ x.gen = bitsOf h 34 22 then some (h % 2 ^ 34, x) else none
    | none => none
  else none

/-- The item a group's lead names, whether it is still live or not (10 R326). -/
def Items.leadItem (x : Items) (lead : Nat) : Option Item := (Tab.find x.items (lead % 2 ^ 34)).filter (fun y => y.gen = lead / 2 ^ 34)

/-- Item state changed. -/
def State.modItems (s : State) (f : Items → Items) : State := { s with items := f s.items }

/-- Service state changed. -/
def State.modServ (s : State) (f : Services → Services) : State := { s with serv := f s.serv }

/-- Whether the item areas have been formatted (09 R280). -/
def State.formatted (s : State) : Bool := s.items.dims ≠ 0

/-- Whether an earlier ITEMS_FORMAT is in progress: no later command of families 0x03 to 0x05 starts before it completes (13 R433). -/
def State.formatBefore (s : State) (c : Cmd) : Bool := (Tab.vals s.host.cmds).any (fun d => d.before c && d.opcode = 0x0307)

/-- A command of families 0x03 to 0x05 ready to act (13 R433). -/
def State.actingItem (s : State) (id op : Nat) : Option Cmd := (s.acting id op).filter (fun c => !s.formatBefore c)

/-! ## Indices (09 R279). -/

/-- The greatest generation. -/
def genTop : Nat := 4194303

/-- The index the next item takes, with its generation: the lowest never used, else the lowest reclaimed one. -/
def Items.nextIndex (x : Items) : Option (Nat × Nat) :=
  match x.holes with
  | i :: _ => some (i, x.genFloor)
  | [] => if x.highWater < 2 ^ 34 then some (x.highWater, x.genFloor) else (x.reclaimed.find? (fun r => r.2 < genTop)).map (fun r => (r.1, r.2 + 1))

/-- The next index is taken. -/
def Items.takeIndex (x : Items) : Items :=
  match x.nextIndex with
  | none => x
  | some (i, g) =>
    { x with
      highWater := max x.highWater (i + 1)
      reclaimed := x.reclaimed.filter (fun r => r.1 ≠ i)
      holes := x.holes.filter (· ≠ i)
      genMax := max x.genMax (g + 1) }

/-- The next n indices with their generations, fewer where none is left, and what is left. -/
def Items.takeIndices : Nat → Items → List (Nat × Nat) × Items
  | 0, x => ([], x)
  | n + 1, x =>
    match x.nextIndex with
    | none => ([], x)
    | some i =>
      let r := Items.takeIndices n x.takeIndex
      (i :: r.1, r.2)

/-! ## The vector area (09 R280). -/

/-- The sector of the vector area that holds an item's entry in a column: 16 is START, 17 is END. -/
def columnSector (col i : Nat) : Nat := (458752 + 256 * col) * 245760 + 8 * i / 4096

/-- The owner stripes of the vector area that an item's embedding takes on a side. -/
def embStripes (dims side i : Nat) : List (Owner × Nat) := ((embAt dims side i).map (fun x => ((16 : Nat), x / 245760))).dedup

/-- The owner stripes an item's parts lie in, on the sides its embedding is written to (02 R83, 10 R340). -/
def itemStripes (dims : Nat) (sides : List Nat) (i : Nat) : List (Owner × Nat) :=
  (sides.flatMap (fun d => embStripes dims d i) ++ (List.range 18).map (fun c => ((16 : Nat), columnSector c i / 245760))).dedup

/-- A sector of the vector area sent to the veneer for a command (02 R56; 09 R280, R281). -/
def Media.sendSector (m : Media) (id sector : Nat) (data : List Byte) : Media := m.send id 16 sector [some (Mem.write 0 [] 0 (fit 4096 data))]

/-- What a sector of the vector area holds once everything sent has landed. -/
def Media.sentSector (m : Media) (sector : Nat) : List Byte :=
  match (m.pend.filter (fun p => decide (p.copy.owner = 16 ∧ p.copy.sector = sector))).getLast? with
  | some p => Mem.read 0 p.copy.data 0 4096
  | none => m.sector 16 sector

/-- An item's entry in a column sent: the value takes the place of the old one where the mask has ones. -/
def Media.sendColumn (m : Media) (id col i : Nat) (mask v : W64) : Media :=
  let b := m.sentSector (columnSector col i)
  let old := BitVec.ofNat 64 (fieldAt b (8 * i % 4096) 8)
  m.sendSector id (columnSector col i) (putAt b (8 * i % 4096) (leBytes 8 ((old &&& ~~~mask) ||| (v &&& mask)).toNat))

/-- The bytes of FP32 values. -/
def wordsBytes (l : List W32) : List Byte := l.flatMap (fun x => leBytes 4 x.toNat)

/-- FP32 values from bytes. -/
def wordsOf (n : Nat) (bs : List Byte) : List W32 := (List.range n).map (fun i => BitVec.ofNat 32 (fieldAt bs (4 * i) 4))

/-- An embedding sent to a side of the vector area for a command. -/
def Media.sendEmb (m : Media) (id dims side i : Nat) (v : List W32) : Media :=
  ((embAt dims side i).zipIdx).foldl (fun m x => m.sendSector id x.1 (wordsBytes ((v.drop (1024 * x.2)).take 1024))) m

/-- All parts of an item sent to the vector area for a command, its embedding under a REINDEX's set to the other side (09 R280, 10 R340). -/
def Media.sendItem (m : Media) (id dims side i : Nat) (x : Item) : Media :=
  let m := m.sendEmb id dims side i x.emb
  let m := match x.staged with
    | some v => m.sendEmb id dims (1 - side) i v.1
    | none => m
  ((x.attrs ++ [x.start, x.stop]).zipIdx).foldl (fun m a => m.sendColumn id a.2 i (BitVec.allOnes 64) a.1) m

/-! ## Norms and sketches (10 R321, R322). -/

/-- The whole part of a square root. -/
def isqrt (n : Nat) : Nat := (List.range (Nat.log2 n / 2 + 1)).foldr (fun i r => if (r + 2 ^ i) ^ 2 ≤ n then r + 2 ^ i else r) 0

/-- A finite FP32 value in units of 2^−149. -/
def fixed32 (x : W32) : Option Int :=
  match num32 x.toNat with
  | .fin s n d => some (if s then -((n * (2 ^ 149 / d) : Nat) : Int) else ((n * (2 ^ 149 / d) : Nat) : Int))
  | _ => none

/-- The sum of integers. -/
def sumInt (l : List Int) : Int := l.foldl (· + ·) 0

/-- Bits kept of a norm (10 R321; log entry 9). -/
def normBits : Nat := 53 + Config.normExtra

/-- The L2 norm of values in units of 2^−149, in units of 2^−149−normBits (10 R321; log entry 9). -/
def normOf (as : List Int) : Nat :=
  let r := isqrt ((sumInt (as.map (fun a => a * a))).toNat * 4 ^ normBits)
  let drop := Nat.log2 r + 1 - normBits
  r / 2 ^ drop * 2 ^ drop

/-- A vector divided by its L2 norm, each quotient rounded once to FP32; zeros and ZERO_NORM where the norm is zero or not finite (10 R321). -/
def unitOf (v : List W32) : List W32 × Bool :=
  match v.mapM fixed32 with
  | some as =>
    if as.all (· = 0) then (v.map (fun _ => 0#32), true)
    else
      let r := normOf as
      ((v.zip as).map (fun x => BitVec.ofNat 32 (fp32 .even (.fin (x.1.getLsbD 31) (x.2.natAbs * 2 ^ normBits) r))), false)
  | none => (v.map (fun _ => 0#32), true)

/-- A projection: mantissas and exponent codes of their blocks by sketch bit, and thresholds (10 R322). -/
structure Projection where
  mant : List (List Int)
  exps : List (List Byte)
  thresh : List W32
deriving DecidableEq, Repr, Inhabited

/-- Bit j of a sketch: P_j · e ≥ t_j, exactly (10 R322). -/
def sketchBit (row : List Int) (codes : List Byte) (t : W32) (as : List Int) : Bool :=
  let dot := fun (x : List Int × List Int) => sumInt (x.1.zipWith (· * ·) x.2)
  let x := sumInt ((((chunksOf 32 row).zip (chunksOf 32 as)).zip codes).map (fun b => 2 ^ b.2.toNat * dot b.1))
  match num32 t.toNat with
  | .fin s n d =>
    let t : Int := ((n * (2 ^ 149 / d) * 2 ^ 128 : Nat) : Int)
    decide ((if s then -t else t) ≤ x)
  | .inf s => s
  | .nan _ _ => false

/-- The sketch of an embedding (10 R322). -/
def Projection.sketch (p : Projection) (width : Nat) (e : List W32) : BitVec 512 :=
  let as := e.map (fun x => (fixed32 x).getD 0)
  BitVec.ofNat 512 (bitsFrom width (fun j => sketchBit (p.mant.getD j []) (p.exps.getD j []) (p.thresh.getD j 0#32) as))

/-- The projection in service. -/
def Items.projection (x : Items) : Projection := ⟨x.proj, x.projExp, x.thresh⟩

/-- P and t as the image of a projection model holds them (10 R322, R339; log entry 7). -/
def trainedOf (image : List Byte) (width dims : Nat) : Projection :=
  let p := Config.trainedProj image width dims
  ⟨p.1, p.2.1, p.2.2⟩

/-- The projection a REINDEX works under: that of the stored image it names, or the one in service (10 R340; log entry 55). -/
def State.jobProjection (s : State) (a : Adapt) : Projection :=
  if a.projModel = s.items.projModel then s.items.projection
  else match Tab.find s.serv.models a.projModel.toNat with
    | some m => trainedOf m.bytes s.items.width s.items.dims
    | none => s.items.projection

/-! ## Sources (10 R314 to R319). -/

/-- The bytes of an extent. -/
def State.extentBytes (s : State) (v first len : Nat) : List Byte :=
  ((List.range (ceilDiv len 4096)).flatMap (fun i => s.media.sector v (first + i))).take len

/-! ## Context caches that go (07 R250). -/

/-- Whether an open session has loaded a cache. -/
def State.cacheOpen (s : State) (key : Nat) : Bool := (Tab.vals s.serv.sessions).any (fun x => x.loaded.any (fun e => e.key = key))

/-! ## Region 0x01 (07 R225, R246). -/

/-- The ranges in use, and those that a command with pushed data has taken for it. -/
def State.flashUsed (s : State) : List (Nat × Nat) :=
  s.flashOwned.map (·.2) ++ ((Tab.vals s.host.cmds).filter (fun c => c.opcode ∈ [0x0601, 0x0604] && c.stage = 1)).map (fun c => (c.aux.getD 0 0, c.aux.getD 1 0))

/-- The lowest offset of region 0x01, on a move tile, where n bytes are free (log entry 52). -/
def State.flashPlace (s : State) (n : Nat) : Nat :=
  let used := s.flashUsed.filter (fun r => r.2 ≠ 0)
  let ends := 0 :: used.map (fun r => wholeTiles (r.1 + r.2))
  let fits := fun (a : Nat) => used.all (fun r => a + n ≤ r.1 || r.1 + r.2 ≤ a)
  ((sortBy (· < ·) ends).find? fits).getD 0

/-- The owner stripes a cache takes in the context-cache area. -/
def Cache.stripes (x : Cache) : List (Owner × Nat) := x.spans.flatMap (fun e => flashStripes 18 e.1 e.2)

/-- Stripes counted for data that is in flash at once; none where the budget would be passed (02 R83). -/
def Media.claim (m : Media) (now : Nat) (need : List (Owner × Nat)) : Option Media :=
  if stripesMax < m.total + (m.newStripes need).length then none
  else some ((m.newStripes need).foldl (fun (m : Media) x => { m with counted := m.counted ++ [⟨m.freeStripe, x.1, x.2, [], true, now⟩] }) m)

/-- A cache's flash is freed (07 R250). -/
def State.freeCache (s : State) (key : Nat) (x : Cache) : State :=
  ({ s with serv := { s.serv with caches := Tab.del s.serv.caches key } }).freeFlash (x.spans.map (fun e => (18, e)))

/-- A cache is deleted, at once or when the last open session that loaded it closes (07 R250, 13 R432). -/
def State.dropCache (s : State) (key : Nat) : State :=
  match Tab.find s.serv.caches key with
  | none => s
  | some x =>
    if s.cacheOpen key then s.modServ (fun v => { v with caches := Tab.put v.caches key { x with dropped := true } })
    else s.freeCache key x

/-- The caches of a lead item, of every model, that have not been deleted. -/
def State.cachesOf (s : State) (lead : Nat) : Tab Cache := s.serv.caches.filter (fun e => e.2.lead = lead && !e.2.dropped)

/-- Every cache of a lead item is deleted (07 R250). -/
def State.dropCaches (s : State) (lead : Nat) : State := ((s.cachesOf lead).map (·.1)).foldl State.dropCache s

/-! ## Checks of an ingest or a search (14 R474, R476, R484 to R487). -/

/-- One run of a command's unit, its plausibility check passing or not, after some failed runs: the advisory flags it goes on with, or none where it
starts again or has completed with CHECK_FAILED. The same value fails at the same site in each run, so the second on another placement is
overridden. The site, its model and the value are free (log entry 33). -/
def State.unitRun (s : State) (id failed : Nat) (ok : Bool) : Option Nat × State :=
  if ok ∨ s.plausMode = 2 then (some 0, s)
  else
    let s := (s.setErr 9).count 21 1
    let site := leBytes 8 (s.freeBits 64).toNat ++ leBytes 4 (Config.freeBits (s.freeCtr + 1) 32).toNat ++ leBytes 4 (Config.freeBits (s.freeCtr + 2) 32).toNat
    let s := (s.record 0x400A (sourceOf 0 0) site).spend 3
    if s.plausMode ≠ 0 then (some 0, s)
    else if 1 ≤ failed ∧ 2 ≤ s.coresMapped then
      let again := leBytes 8 (s.freeBits 64).toNat ++ leBytes 4 (Config.freeBits (s.freeCtr + 1) 32).toNat ++ leBytes 4 (Config.freeBits (s.freeCtr + 2) 32).toNat
        ++ leBytes 4 (Config.freeBits (s.freeCtr + 2) 32).toNat ++ leBytes 4 (Config.freeBits (s.freeCtr + 3) 32).toNat
      (some flagCheckOverridden, ((s.record 0x4008 (sourceOf 0 0) again).spend 4).count 22 1)
    else if failed < s.restartMax then (none, s.count 23 1)
    else (none, s.fail id .checkFailed)

end Sys2Proof.Machine
end

