-- ==== Sys2Proof/Machine/Items.lean ====
section
/-! DEFINITION. The item commands (09 R278 to R285; 10 R313 to R326; 13 R427 to R430, R433). -/

namespace Sys2Proof.Machine

/-! ## The source of an ITEM_PUT (10 R314 to R320). -/

/-- The plan of an ITEM_PUT of a source, or none where it is unusable or nothing of it decodes (10 R315, R317 to R320). -/
def putPlan (c : Cmd) (bs : List Byte) : Option PutPlan :=
  (sourceInfo bs (c.field 0x38 4)).map (fun i =>
    let base := signedOf 64 (c.field 0x20 8)
    let g := if c.field 0x34 2 = 0 then 10000000 else 1000 * c.field 0x34 2
    let segs := if i.image then [(0, 0)] else segments g i.durationUs
    { format := i.format
      iflags := bit i.ignored + bit i.audio.isNone * 2 + bit i.video.isNone * 4
      duration := if i.image then 0 else i.durationUs
      concealed := i.concealed segs
      base := if bitOf c.pflags 1 then (match i.timeRef with
        | some r => base + ((r.1 * 1000000 / r.2 : Nat) : Int)
        | none => base) else base
      segs := segs
      tokens := i.tokens bs
      firsts := segs.map (fun x => i.firstToken bs x.1) })

/-- The plan of kind VECTOR: one item, no cache (10 R324, 13 R427). -/
def vectorPlan (c : Cmd) : PutPlan where
  format := 8
  iflags := 0
  duration := c.field 0x18 8
  concealed := 0
  base := signedOf 64 (c.field 0x20 8)
  segs := [(0, c.field 0x18 8)]
  tokens := 0
  firsts := [0]

/-- The source bytes of an ITEM_PUT. -/
def State.putSource (s : State) (c : Cmd) : List Byte := if c.isVector then [] else s.extentBytes c.object (c.field 0x10 8) (c.field 0x18 8)

/-- The plan of an ITEM_PUT. -/
def State.planOf (s : State) (c : Cmd) : Option PutPlan := if c.isVector then some (vectorPlan c) else putPlan c (s.putSource c)

/-- Whether a plan can be carried out: at most 65,536 items, every END held in 64 bits, the record buffer large enough (10 R320, R324; 13 R427). -/
def PutPlan.fits (p : PutPlan) (c : Cmd) : Bool :=
  p.segs.length ≤ 65536 && p.segs.all (fun x => decide (p.base + (x.2 : Int) ≤ 2 ^ 63 - 1)) && 64 + 32 * p.segs.length ≤ c.field 0x30 4

/-- What refuses an ITEM_PUT (09 R280; 10 R315, R320, R324; 13 R427). -/
def State.putError (s : State) (c : Cmd) (p : Option PutPlan) : Option Status :=
  if !s.formatted then some .invalidField
  else
    match (if c.isVector then none else s.volumeError c c.object (c.field 0x10 8) (ceilDiv (c.field 0x18 8) 4096)), p with
    | some st, _ => some st
    | none, none => some .invalidField
    | none, some q => if q.fits c then none else some .invalidField

/-! ## The items of an ITEM_PUT. -/

/-- The attribute slots of a command (13 R427). -/
def Cmd.attrBlock (c : Cmd) : List W64 :=
  (List.range 16).map (fun i => if bitOf c.pflags 3 then BitVec.ofNat 64 (fieldAt c.pushed (8 * i) 8) else 0#64)

/-- The embedding of a segment before its division by its norm: the pushed one, or the encoders' (10 R321, 13 R427; log entry 6). -/
def State.rawEmbedding (s : State) (c : Cmd) (src : List Byte) (encV encA : W64) (seg : Nat × Nat) : List W32 :=
  if c.isVector then wordsOf s.items.dims (c.pushed.drop 128)
  else ((sourceInfo src (c.field 0x38 4)).map (fun i => i.embedding src encV encA seg.1 seg.2)).getD []

/-- The running or finished REINDEX, under which new items are ingested too (10 R340). -/
def State.reindexing (s : State) : Option Adapt := s.serv.adapt.filter (fun a => a.kind = 4 && (a.state = 1 || a.state = 2))

/-- An item of an ITEM_PUT: its parts under the set in service, and under a REINDEX's set beside it (09 R280; 10 R320 to R322, R340). -/
def State.makeItem (s : State) (c : Cmd) (p : PutPlan) (src : List Byte) (e lead gen : Nat) (seg : Nat × Nat) (first : Nat) : Item :=
  let u := unitOf (s.rawEmbedding c src s.items.encV s.items.encA seg)
  let other := s.reindexing.map (fun a =>
    let v := if c.isVector ∨ (a.encV = s.items.encV ∧ a.encA = s.items.encA) then u.1 else (unitOf (s.rawEmbedding c src a.encV a.encA seg)).1
    (v, (s.jobProjection a).sketch s.items.width v))
  { gen := gen
    emb := u.1
    sketch := s.items.projection.sketch s.items.width u.1
    attrs := c.attrBlock
    start := BitVec.ofInt 64 (p.base + (seg.1 : Int))
    stop := BitVec.ofInt 64 (p.base + (seg.2 : Int))
    extent := if c.isVector then none else some ⟨c.object, c.field 0x10 8, c.field 0x18 8, c.field 0x38 4⟩
    zeroNorm := u.2
    ins := e
    del := none
    lead := lead
    firstToken := first
    staged := other }

/-- Whether every embedding of a plan has the module's dimension, which Gimlet models need to be 1,024 (10 R313). -/
def State.dimsFit (s : State) (c : Cmd) (p : PutPlan) (src : List Byte) : Bool :=
  (c.isVector || ((sourceInfo src (c.field 0x38 4)).map (fun i => i.gimletFits s.items.encV s.items.encA s.items.dims)).getD false)
    && p.segs.all (fun seg => (s.rawEmbedding c src s.items.encV s.items.encA seg).length = s.items.dims)

/-! ## The ingest record (10 R324). -/

/-- The record's header. -/
def recordHeader (p : PutPlan) (e cacheState cacheTokens : Nat) : List Byte :=
  sealed (blockOf 64 [(0, 4, p.segs.length), (4, 1, p.format), (5, 1, p.iflags), (6, 1, cacheState), (8, 8, e), (0x10, 8, p.duration), (0x18, 4, p.concealed),
    (0x1C, 4, cacheTokens)])

/-- One item's entry. -/
def State.recordEntry (s : State) (i : Nat) (x : Item) : List Byte :=
  leBytes 8 (s.itemHandle i x) ++ leBytes 8 x.start.toNat ++ leBytes 8 x.stop.toNat ++ leBytes 4 x.firstToken ++ leBytes 4 (bit x.zeroNorm)

/-- Whether a cache policy wants a cache for a lead item's attributes (07 R249). -/
def policyWants (pol : Nat) (attrs : List W64) : Bool :=
  let mode := bitsOf pol 0 2
  mode = 1 || (mode = 2 && ((attrs.getD (bitsOf pol 2 4) 0#64) &&& BitVec.ofNat 64 (bitsOf pol 64 64)) = BitVec.ofNat 64 (bitsOf pol 128 64))

/-- The most tokens a cache holds (07 R247, 10 R324). -/
def cacheTokensTop : Nat := 2097152

/-- CACHE_STATE as an ITEM_PUT commits: 2 where a build follows (10 R324, R326). -/
def State.cacheStateAt (s : State) (c : Cmd) (p : PutPlan) : Nat :=
  if c.isVector || !policyWants (c.aux.getD 0 0) c.attrBlock then 0
  else if cacheTokensTop < p.tokens then 4
  else if s.readOnly then 5
  else 2

/-! ## ITEM_PUT. -/

/-- Entries the fresh list holds at most (09 R290). -/
def freshTop : Nat := 16777216

/-- The lowest free places of the fresh list (09 R290). -/
def Items.freshPlaces (x : Items) (n : Nat) : List Nat := ((List.range (x.fresh.length + n)).filter (fun k => x.fresh.all (fun f => f.slot ≠ k))).take n

/-- Items of the ITEM_PUTs that wait for their commit. -/
def Items.putsWaiting (x : Items) : Nat := (heldIndices x.muts).length

/-! ## The decode complexes (10 R316). -/

/-- Decode complexes, one in each quarter, and the streams each decodes at once. -/
def complexes : Nat := 4
def complexStreams : Nat := 8

/-- The complex a source goes to: the one with the least queued work among those with a free stream slot, the lowest of several; none where every slot is busy. Work is
counted in bytes of source (log entry 74). -/
def Services.complexFor (v : Services) : Option Nat :=
  let mine := fun (k : Nat) => v.decoders.filter (fun d => d.1 = k)
  let work := fun (k : Nat) => ((mine k).map (fun d => d.2.2)).foldl (· + ·) 0
  (sortBy (fun a b => work a < work b) ((List.range complexes).filter (fun k => (mine k).length < complexStreams))).head?

/-- Whether a source is in a decode complex. -/
def State.decodes (s : State) (w : Decoding) : Bool := s.serv.decoders.any (fun d => d.2.1 = w)

/-- A source goes to a decode complex, or waits (10 R316). -/
def State.startDecode (s : State) (w : Decoding) (bytes : Nat) : State :=
  match s.serv.complexFor with
  | some k => s.modServ (fun v => { v with decoders := v.decoders ++ [(k, w, bytes)] })
  | none => s

/-- The result of a Background pass is taken (08 R259, R260). -/
def State.passUsed (s : State) (p : Nat) : State := { s with steps := { s.steps with ran := s.steps.ran.filter (· ≠ p) } }

/-- A source has been decoded, its stream slot is free. -/
def State.endDecode (s : State) (w : Decoding) : State := s.modServ (fun v => { v with decoders := v.decoders.filter (fun d => d.2.1 ≠ w) })

/-- Items of the ITEM_PUTs that have been admitted and have not taken their indices: each takes the next ones, so a put counts the stripes of theirs and its own
(02 R83). -/
def State.putsAhead (s : State) : Nat :=
  ((Tab.vals s.host.cmds).map (fun c => if c.opcode = 0x0301 ∧ c.stage = 1 then ((s.planOf c).map (fun p => p.segs.length)).getD 0 else 0)).foldl (· + ·) 0

/-- The items of an ITEM_PUT, with their indices, as they stand at an epoch. -/
def State.newItems (s : State) (c : Cmd) (p : PutPlan) (e : Nat) (idx : List (Nat × Nat)) : List (Nat × Item) :=
  let src := s.putSource c
  let lead := itemNo 0 (idx.headD (0, 0)).2 (idx.headD (0, 0)).1
  (idx.zip (p.segs.zip p.firsts)).map (fun x => (x.1.1, s.makeItem c p src e lead x.1.2 x.2.1 x.2.2))

/-- The sides of the vector area that new embeddings go to: both while a REINDEX runs or is done (10 R340). -/
def State.embSides (s : State) : List Nat := if s.reindexing.isSome then [s.items.side, 1 - s.items.side] else [s.items.side]

/-- The parts of an ITEM_PUT's items go to the veneer, under the next indices, and its mutation waits until they are acknowledged and its group commits; none where no
index or no budget is left (09 R279 to R281; 02 R58, R83). -/
def State.sendPut (s : State) (c : Cmd) (p : PutPlan) : Option State :=
  let taken := s.items.takeIndices p.segs.length
  if taken.1.length < p.segs.length then none
  else
    (s.media.takeRoom s.now c.ident ((taken.1.map (·.1)).flatMap (itemStripes s.items.dims s.embSides))).map (fun (m : Media) =>
      { s with
        media := (s.newItems c p 0 taken.1).foldl (fun (m : Media) (x : Nat × Item) => m.sendItem c.ident s.items.dims s.items.side x.1 x.2) m
        items := { taken.2 with muts := s.items.muts ++ [⟨c.ident, .put (s.newItems c p 0 taken.1) p⟩] } })

/-- ITEM_PUT until its mutation waits for its group: its checks, its pushed data, its source in a decode complex, its items and their parts (09 R279 to R281, R290; 10 R313
to R324; 13 R427; 14 R474, R484). `pass` is one run of the decoders and encoders, which a step has included (08 R260). -/
def execItemPut (id : Nat) (pass : IngestPass) (s : State) : Host.Outcome State Fault Refusal :=
  match s.actingItem id 0x0301 with
  | none => .next s
  | some c =>
    let plan := s.planOf c
    let n := ((plan.map (fun p => p.segs.length)).getD 0)
    if c.stage = 0 then
      let room := s.media.takeRoom s.now id (((s.items.takeIndices (if s.putError c plan = none then s.putsAhead + n else 0)).1.map (·.1)).flatMap (itemStripes s.items.dims s.embSides))
      let err := match s.putError c plan with
        | some st => some st
        | none => if room.isNone then some .capacityExhausted else none
      let need := if c.isVector then 128 + 4 * s.items.dims else if bitOf c.pflags 3 then 128 else 0
      .next (s.checked c err (fun s =>
        ((s.modMedia (fun m => room.getD m)).stage id 1 [s.serv.cachePolicy.toNat, 0]).modCmd id (fun c => { c with need := need })))
    else if c.stage = 1 ∧ c.need ≤ c.got then
      match plan with
      | none => .next ((s.endDecode (.put id)).fail id .invalidField)
      | some p =>
        if freshTop < s.items.fresh.length + s.items.putsWaiting + n then .next s
        else if !c.isVector ∧ !s.decodes (.put id) then .next (s.startDecode (.put id) (c.field 0x18 8))
        else if !c.isVector ∧ id ∉ s.steps.ran then .next s
        else
          let s := (s.endDecode (.put id)).passUsed id
          let failed := c.aux.getD 1 0
          if !s.dimsFit c p (s.putSource c) then .next (s.fail id .invalidField)
          else
            match s.unitRun id failed pass.plausible with
            | (none, t) => .next (t.stage id 1 [c.aux.getD 0 0, failed + 1])
            | (some fl, t) =>
              match t.sendPut c p with
              | some u => .next (u.stage id 2 [c.aux.getD 0 0, failed, fl, n])
              | none => .next (t.fail id .capacityExhausted)
    else .next s

/-! ## ITEM_DELETE and ATTR_SET. -/

/-- Tombstones the module keeps at most (09 R283). -/
def tombTop : Nat := 1048576

/-- Deletions that wait for their commit. -/
def Items.delsWaiting (x : Items) : Nat := (x.muts.filter (fun m => match m.what with
  | .del _ => true
  | _ => false)).length

/-- ITEM_DELETE until its mutation waits for its group: it waits while the tombstones are full (09 R283, 13 R428). -/
def execItemDelete (id : Nat) (s : State) : Host.Outcome State Fault Refusal :=
  match s.actingItem id 0x0302 with
  | none => .next s
  | some c =>
    let go := fun (s : State) (i : Nat) =>
      if tombTop ≤ s.items.tombs.length + s.items.delsWaiting then s.stage id 1 [i]
      else (s.modItems (fun x => { x with muts := x.muts ++ [⟨id, .del i⟩] })).stage id 2 [i]
    if c.stage = 0 then
      match s.named c.object with
      | none => .next (s.fail id .invalidField)
      | some (i, _) => .next (s.checked c none (fun s => go s i))
    else if c.stage = 1 then .next (go s (c.aux.headD 0))
    else .next s

/-- ATTR_SET until its mutation waits for its group: its part goes to the veneer (09 R281, R285; 13 R429). -/
def execAttrSet (id : Nat) (s : State) : Host.Outcome State Fault Refusal :=
  match s.actingItem id 0x0303 with
  | none => .next s
  | some c =>
    if c.stage ≠ 0 then .next s
    else
      match s.named c.object with
      | none => .next (s.fail id .invalidField)
      | some (i, _) =>
        .next (s.checked c none (fun s =>
          let slot := c.field 0x10 1
          let mask := BitVec.ofNat 64 (c.field 0x20 8)
          let value := BitVec.ofNat 64 (c.field 0x18 8)
          ((s.modMedia (fun m => m.sendColumn id slot i mask value)).modItems (fun x => { x with muts := x.muts ++ [⟨id, .attr i slot mask value⟩] })).stage id 1 []))

/-! ## ITEM_GET. -/

/-- What ITEM_GET writes (13 R430). -/
def State.itemBytes (s : State) (i : Nat) (x : Item) (what : Nat) : List Byte :=
  let fresh := s.items.fresh.any (fun f => f.index = i)
  let lead := !(s.cachesOf (itemNo 0 x.gen i)).isEmpty
  let e := x.extent.getD ⟨0xFF, 0, 0, 0⟩
  let head := blockOf 64 [(0, 8, s.itemHandle i x), (8, 8, x.start.toNat), (0x10, 8, x.stop.toNat), (0x18, 8, x.ins), (0x20, 8, e.first), (0x28, 8, e.len),
    (0x30, 1, e.volume), (0x31, 1, bit x.zeroNorm + bit fresh * 2 + bit lead * 4)]
  sealed head ++ x.attrs.flatMap (fun a => leBytes 8 a.toNat)
    ++ (if bitOf what 0 then wordsBytes x.emb else []) ++ (if bitOf what 1 then leBytes (s.items.width / 8) x.sketch.toNat else [])

/-- The owner and sectors of an unreadable part: the embedding's, or the sketch's, whose sector is free (13 R430; log entry 49). -/
def State.lostPart (s : State) (i what : Nat) : Owner × List Nat :=
  if bitOf what 0 then (16, s.items.embAt i) else (17, [(s.freeBits 40).toNat])

/-- ITEM_GET (13 R430; 02 R75 to R77), once the dies that hold the embedding it asks for are free to be read; `unreadable` where a page it asks for fails every step of 02 R74. A fresh item's sketch is in HBM (09 R290). -/
def execItemGet (id : Nat) (unreadable : Bool) (s : State) : Host.Outcome State Fault Refusal :=
  match s.actingItem id 0x0304 with
  | none => .next s
  | some c =>
    let what := c.field 0x1C 4
    match s.named c.object with
    | none => .next (s.fail id .invalidField)
    | some (i, x) =>
      let b := s.itemBytes i x what
      let reads := bitOf what 0 || (bitOf what 1 && !s.items.fresh.any (fun f => f.index = i))
      let spots := if c.field 0x18 4 < b.length then [] else s.media.spotsOf (s.readsOf c).1 (s.readsOf c).2
      if !s.spotsReady true spots then .next s
      else
      .next (s.checked c (if c.field 0x18 4 < b.length then some .invalidField else none) (fun s =>
        let s := s.readSpots spots
        if unreadable && reads then
          let l := s.lostPart i what
          ((s.uncorrectable l.1 l.2).spend 1).fail id .mediaUncorrectable
        else (s.hostWrite c.port (c.field 0x10 8) b).succeed id []))

/-! ## ITEMS_FORMAT. -/

/-- The generation floor a format would set (13 R433). -/
def Items.nextFloor (x : Items) : Nat := max x.genFloor x.genMax

/-- What refuses an ITEMS_FORMAT (13 R433). -/
def State.formatError (s : State) : Option Status :=
  if !s.serv.sessions.isEmpty || s.serv.adapt.isSome then some .invalidField
  else if genTop < s.items.nextFloor then some .capacityExhausted
  else none

/-- Whether an earlier command of families 0x03 to 0x05 is in progress (13 R433). -/
def State.itemWork (s : State) (c : Cmd) : Bool := (Tab.vals s.host.cmds).any (fun d => d.before c && decide (d.opcode / 256 ∈ [3, 4, 5]))

/-- A new projection: signs drawn from the generator, mantissas of 64 under exponent code 0x7A, thresholds of zero (10 R322; log entry 3). -/
def State.drawProjection (s : State) (dims width : Nat) : Projection where
  mant := (List.range width).map (fun j => (List.range dims).map (fun i => if Config.freeBits (s.freeCtr + j * dims + i) 1 = 1#1 then 64 else -64))
  exps := List.replicate width (List.replicate (dims / 32) 0x7A#8)
  thresh := List.replicate width 0#32

/-- The item areas are formatted (13 R433, 02 R87, 10 R322). -/
def State.formatAreas (s : State) (dims width : Nat) : State :=
  let s := (Tab.keys s.serv.caches).foldl State.dropCache s
  let s := ([16, 17, 18, 19] : List Nat).foldl State.cryptoErase s
  let s := s.modMedia (fun m => { m with
    areaKeys := [(16, m.keys), (18, m.keys + 1), (19, m.keys + 2)], maskKey := some (m.keys + 3), keys := m.keys + 4 })
  let s := s.secure
  let p := s.drawProjection dims width
  (s.modItems (fun x => { x with
    dims := dims, width := width, epoch := 1, items := [], genFloor := x.nextFloor, highWater := 0, reclaimed := [], holes := [], fresh := [], tombs := [], gone := []
    nodes := [], nodeGens := [], nextNode := 0, roots := [], merge := none, stale := [], bitmaps := [], side := 0, old := false, aside := [], label := 1#64
    proj := p.mant, projExp := p.exps, thresh := p.thresh })).spend (dims * width)

/-- ITEMS_FORMAT (13 R433): its checks, the wait for earlier work, the checks again, the format, the commit of its MAP_CLEARs and the end of the destroyed keys (02 R87,
17 R549). -/
def execItemsFormat (id : Nat) (s : State) : Host.Outcome State Fault Refusal :=
  match s.acting id 0x0307 with
  | none => .next s
  | some c =>
    if c.stage = 2 then .next (if c.aux.headD 0 ≤ s.media.jDone ∧ s.keysGone (c.aux.getD 1 0) then s.succeed id [] else s)
    else
      .next (s.checked c (if c.stage = 0 ∨ !s.itemWork c then s.formatError else none) (fun s =>
        if s.itemWork c then s.stage id 1 []
        else
          let s := s.formatAreas (c.field 0x10 2) (if c.field 0x12 1 = 0 then 256 else 512)
          s.stage id 2 [s.media.jNext - 1, s.sec.pages.seq]))

end Sys2Proof.Machine
end

