-- ==== Sys2Proof/Machine/Filters.lean ====
section
/-! DEFINITION. Filters and stored bitmaps: terms, the time test, and what a build makes (09 R292 to R296). -/

namespace Sys2Proof.Machine

/-! ## Terms and times. -/

/-- The term 24 bytes hold. -/
def Term.ofBytes (b : List Byte) : Term := ⟨fieldAt b 0 1, fieldAt b 1 1, BitVec.ofNat 64 (fieldAt b 8 8), BitVec.ofNat 64 (fieldAt b 16 8)⟩

/-- Whether 24 bytes are a legal term (09 R294). -/
def termOk (b : List Byte) : Bool := fieldAt b 0 1 ≤ 15 && 1 ≤ fieldAt b 1 1 && fieldAt b 1 1 ≤ 8 && fieldAt b 2 6 = 0

/-- Whether an item passes a term (09 R294). -/
def Term.passes (t : Term) (attrs : List W64) : Bool :=
  let a := (attrs.getD t.slot 0#64) &&& t.mask
  match t.op with
  | 1 => a = t.value
  | 2 => a ≠ t.value
  | 3 => a.ult t.value
  | 4 => !a.ult t.value
  | 5 => a.slt t.value
  | 6 => !a.slt t.value
  | 7 => a ≠ 0#64
  | 8 => a = 0#64
  | _ => false

/-- Whether an item passes the time test: no test, window, overlap (09 R295). -/
def Filter.inTime (f : Filter) (x : Item) : Bool :=
  if f.mode = 1 then f.t0.sle x.start && x.start.slt f.t1
  else if f.mode = 2 then x.start.slt f.t1 && f.t0.slt x.stop
  else true

/-- Whether an item passes every term and the time test (09 R296). -/
def Filter.passes (f : Filter) (x : Item) : Bool := f.terms.all (fun t => t.passes x.attrs) && f.inTime x

/-- Whether a filter has anything to test. -/
def Filter.given (f : Filter) : Bool := !f.terms.isEmpty || f.mode ≠ 0

/-! ## Bitmaps. -/

/-- Whether a bitmap allows an index (09 R292). -/
def Bitmap.allows (b : Bitmap) (i : Nat) : Bool := if i < b.len then bitOf (Mem.get 0 b.bits (i / 8)).toNat (i % 8) else b.tail

/-- POP: ones below LEN (09 R292). -/
def Bitmap.pop (b : Bitmap) : Nat := (b.bits.map (fun c => popCount 8 c.2.toNat)).foldl (· + ·) 0

/-- The bit a build gives an index: r combined with the source's (09 R296). -/
def combineBit (op : Nat) (b r : Bool) : Bool :=
  match op with
  | 1 => b && r
  | 2 => b || r
  | 3 => b && !r
  | _ => r

/-- LEN of a build: the index high-water mark rounded up to 4,096, at least 4,096 (09 R292). -/
def Items.buildLen (x : Items) : Nat := max 4096 (4096 * ceilDiv x.highWater 4096)

/-- The image a build makes: no item visible now passes where an index holds none (09 R292, R296). -/
def Items.build (x : Items) (f : Filter) (op : Nat) (src : Option Bitmap) : Bitmap :=
  let r := fun (i : Nat) => match Tab.find x.items i with
    | some y => y.visible x.epoch && f.passes y
    | none => false
  let b := fun (i : Nat) => match src with
    | some y => y.allows i
    | none => true
  let byte := fun (k : Nat) => BitVec.ofNat 8 (bitsFrom 8 (fun j => combineBit op (b (8 * k + j)) (r (8 * k + j))))
  ⟨x.buildLen, false, Mem.write 0 [] 0 ((List.range (x.buildLen / 8)).map byte), x.images⟩

end Sys2Proof.Machine
end

