-- ==== Sys2Proof/Machine/Index.lean ====
section
/-! DEFINITION. The index: roots and the walk, the horizon, merges, reclamation, and the scans a die's queue issues (09 R282 to R291, R300, R302). -/

namespace Sys2Proof.Machine

/-! ## Nodes and roots. -/

/-- The node a child pointer names; a stale pointer names none (09 R289). -/
def Items.childNode (x : Items) (c : Child) : Option Node :=
  match Tab.find x.nodes c.node with
  | some (g, n) => if g = c.gen then some n else none
  | none => none

/-- The root current at an epoch (09 R288). -/
def Items.rootAt (x : Items) (e : Nat) : Option Root := (x.roots.filter (fun r => r.epoch ≤ e)).getLast?

/-- The children of an upper node. -/
def Items.childrenOf (x : Items) (n : Nat) : List Child :=
  match Tab.find x.nodes n with
  | some (_, .upper _ cs) => cs
  | _ => []

/-- The member table of a leaf (09 R287). -/
def Items.membersOf (x : Items) (n : Nat) : List (Option (Nat × Nat)) :=
  match Tab.find x.nodes n with
  | some (_, .leaf _ ms) => ms
  | _ => []

/-- Items a leaf holds at most: eight pages (09, The index tree). -/
def Items.leafTop (x : Items) : Nat := 8 * x.perPage

/-- The child pointers of a level: those of the upper nodes kept. -/
def Items.levelChildren (x : Items) (level : List Nat) : List Child := level.flatMap x.childrenOf

/-- Every child pointer under some upper nodes, level by level. -/
def Items.allChildren (x : Items) : Nat → List Nat → List Child
  | 0, _ => []
  | n + 1, level =>
    let cs := (x.levelChildren level).filter (fun c => (x.childNode c).isSome)
    cs ++ x.allChildren n ((cs.filter (fun c => !c.leaf)).map (·.node))

/-- Levels a walk can meet: more than the depth of 6 (09, The index tree). -/
def levelTop : Nat := 64

/-- The leaf pointers of a tree, in order. -/
def Items.leavesOf (x : Items) (root : Nat) : List Child := (x.allChildren levelTop [root]).filter (·.leaf)

/-- The nodes a tree reaches, its root among them. -/
def Items.reached (x : Items) (root : Nat) : List Nat := root :: (x.allChildren levelTop [root]).map (·.node)

/-! ## The walk (09 R300). -/

/-- A query vector in BI8: mantissas and an exponent code for each block of 32 (05 R152). -/
def toCentroid (v : List W32) : Centroid :=
  let bs := (chunksOf 32 v).map (fun b => toBlock .even 8 (b.map (fun x => num32 x.toNat)))
  ⟨bs.flatMap (fun b => b.2.1), bs.map (fun b => e8Code b.1)⟩

/-- The inner product of two BI8 vectors, exact and then rounded to FP32. -/
def Centroid.score (a b : Centroid) : Nat :=
  let dots := ((chunksOf 32 a.mant).zip (chunksOf 32 b.mant)).map (fun x => sumInt (x.1.zipWith (· * ·) x.2))
  let t := sumInt ((dots.zip (a.exps.zip b.exps)).map (fun x => x.1 * 2 ^ (x.2.1.toNat + x.2.2.toNat)))
  fp32 .even (.fin (decide (t < 0)) t.natAbs (2 ^ 256))

/-- Of two scored nodes, the better: larger score, smaller node number (09 R300). -/
def scoredBefore (a b : Nat × Nat) : Bool :=
  (num32 b.1).lt (num32 a.1) || (!(num32 a.1).lt (num32 b.1) && a.2 < b.2)

/-- The levels of a walk: the pool of leaves with their scores, and the stale pointers met (09 R289, R300). -/
def Items.walkLevels (x : Items) (q : Centroid) (beam : Nat) : Nat → List Nat → List (Nat × Nat) × List Nat
  | 0, _ => ([], [])
  | n + 1, level =>
    match level with
    | [] => ([], [])
    | _ =>
      let cs := x.levelChildren level
      let good := cs.filter (fun c => (x.childNode c).isSome)
      let stale := (cs.filter (fun c => (x.childNode c).isNone)).map (·.node)
      let scored := fun (leaf : Bool) => (good.filter (fun c => c.leaf == leaf)).map (fun c => (q.score c.cent, c.node))
      let r := x.walkLevels q beam n (((sortBy scoredBefore (scored false)).take beam).map (·.2))
      (scored true ++ r.1, stale ++ r.2)

/-- The leaves a query scans, best first, and the stale pointers it met (09 R289, R300). -/
def Items.walk (x : Items) (e : Nat) (v : List W32) (beam leaves : Nat) : List Nat × List Nat :=
  match x.rootAt e with
  | none => ([], [])
  | some r =>
    let p := x.walkLevels (toCentroid v) beam levelTop [r.node]
    (((sortBy scoredBefore p.1).take leaves).map (·.2), p.2)

/-- A node that fails its check is dropped: the pointers to it are stale (09 R289). -/
def Items.dropNode (x : Items) (n : Nat) : Items :=
  match Tab.find x.nodes n with
  | none => x
  | some (g, _) => { x with nodes := Tab.del x.nodes n, nodeGens := Tab.put x.nodeGens n (g + 1) }

/-! ## Merges (09 R284, R288, R291). -/

/-- Entries of a segment of the fresh list (09 R290). -/
def segEntries : Nat := 2097152

/-- The INDEX_BASE of a segment (09 R290). -/
def segBase (seg : Nat) : Nat := segEntries * seg

/-- A fresh entry's segment, and its KEEP16 index there (09 R290). -/
def FreshE.seg (f : FreshE) : Nat := f.slot / segEntries
def FreshE.entry (f : FreshE) : Nat := f.slot % segEntries

/-- Fresh entries not yet merged. -/
def Items.unmerged (x : Items) : List FreshE := x.fresh.filter (fun f => f.merged.isNone)
/-- Gone indices whose leaves no merge has written again. -/
def Items.unwritten (x : Items) : List Gone := x.gone.filter (fun g => g.rewritten.isNone)

/-- The time at which a merge is due: at once by number, else 60 s after the oldest; none with nothing to merge (09 R291). -/
def State.mergeDueAt (s : State) : Option Nat :=
  let f := s.items.unmerged
  let g := s.items.unwritten
  if 1048576 ≤ f.length ∨ 1048576 ≤ g.length then some s.now
  else
    match f.map (·.added) ++ g.map (·.entered) with
    | [] => none
    | t :: ts => some (ts.foldl min t + 60 * secUnits + 1)

/-- Whether an index is in the gone set. -/
def Items.isGone (x : Items) (i : Nat) : Bool := x.gone.any (fun g => g.index = i)

/-- The indices of a leaf's members. -/
def Items.leafItems (x : Items) (n : Nat) : List Nat := (x.membersOf n).filterMap (fun m => m.map (·.1))

/-- Leaves of the current tree a merge keeps: no item of theirs is in the plan, none is gone, and none of them waits for repair (09 R284, R289). -/
def Items.keptLeaves (x : Items) (p : TreePlan) : List Child :=
  match x.roots.getLast? with
  | none => []
  | some r =>
    let planned := p.leaves.flatten
    (x.leavesOf r.node).filter (fun c => c.node ∉ x.stale && (x.leafItems c.node).all (fun i => i ∉ planned && !x.isGone i))

/-- The items a merge must place: all that no kept leaf holds, less the gone ones. They are those of the fresh list not yet merged, those of the leaves it writes again, and
those that stale pointers have put out of reach (09 R288, R289, R291). -/
def Items.mustPlace (x : Items) (p : TreePlan) : List Nat :=
  let kept := (x.keptLeaves p).flatMap (fun c => x.leafItems c.node)
  (Tab.keys x.items).filter (fun i => i ∉ kept && !x.isGone i)

/-- Whether a plan is one a merge may carry out: each leaf within its capacity, every item that must be placed placed once, and no other. -/
def Items.planOk (x : Items) (p : TreePlan) : Bool :=
  let planned := p.leaves.flatten
  let must := x.mustPlace p
  decide planned.Nodup && planned.all (fun i => i ∈ must) && must.all (fun i => i ∈ planned)
    && p.leaves.all (fun l => !l.isEmpty && l.length ≤ x.leafTop)

/-- A free centroid: the manual binds only what it aims at (09 R288; log entry 3). -/
def freeCentroid (ctr dims : Nat) : Centroid :=
  ⟨(List.range dims).map (fun i => (Config.freeBits (ctr + i) 8).toInt), (List.range (dims / 32)).map (fun i => Config.freeBits (ctr + dims + i) 8)⟩

/-- Free values one centroid takes. -/
def centroidSpan (dims : Nat) : Nat := dims + dims / 32

/-- A new node takes a number freed before, or the next one, with the number's generation (09 R288). -/
def Items.addNode (x : Items) (n : Node) : (Nat × Nat) × Items :=
  let k := ((x.nodeGens.map (·.1)).find? (fun k => !(Tab.has x.nodes k))).getD x.nextNode
  let g := Tab.at x.nodeGens k 0
  ((k, g), { x with nodes := Tab.put x.nodes k (g, n), nextNode := max x.nextNode (k + 1) })

/-- Nodes made for some contents, as child pointers with free centroids. -/
def State.addNodes (s : State) (leaf : Bool) (l : List Node) : List Child × State :=
  l.foldl (fun (r : List Child × State) n =>
    let a := r.2.items.addNode n
    let c : Child := ⟨a.1.1, a.1.2, leaf, freeCentroid r.2.freeCtr r.2.items.dims⟩
    (r.1 ++ [c], ({ r.2 with items := a.2 }).spend (centroidSpan r.2.items.dims))) ([], s)

/-- Upper levels over some children, at most 256 to a node, until one node is left: the root (09 R286, R288). -/
def State.upperLevels (s : State) : Nat → Nat → List Child → Nat × State
  | 0, _, cs => (((cs.head?).map (·.node)).getD 0, s)
  | n + 1, level, cs =>
    let r := s.addNodes false (if cs.isEmpty then [.upper level []] else (chunksOf 256 cs).map (Node.upper level))
    match r.1 with
    | [c] => (c.node, r.2)
    | cs => r.2.upperLevels n (level + 1) cs

/-- The member table of a planned leaf. -/
def Items.memberTable (x : Items) (is : List Nat) : List (Option (Nat × Nat)) := is.map (fun i => (Tab.find x.items i).map (fun y => (i, y.gen)))

/-- New leaves for some runs of items; their pages are written next (09 R288, 02 R77). -/
def State.newLeaves (s : State) (l : List (List Nat)) : List Child × State :=
  s.addNodes true (l.map (fun is => .leaf none (s.items.memberTable is)))

/-- New upper nodes over some leaves; the root commits at a new epoch, and of the nodes that wait for repair those are left that it still reaches (09 R288, R289). -/
def State.commitTree (s : State) (leaves : List Child) (turn : Nat) : State :=
  let top := s.upperLevels levelTop 1 leaves
  let e := s.items.epoch + 1
  top.2.modItems (fun x => { x with epoch := e, roots := x.roots ++ [⟨top.1, e, turn⟩], stale := x.stale.filter (fun n => n ∈ leaves.map (·.node)) })

/-- How many re-indexings the tree in service has behind it. -/
def Items.turn (x : Items) : Nat := (x.roots.getLast?.map (·.turn)).getD 0

/-- Whether every page of a leaf has been programmed (09 R288, 02 R77). -/
def Items.leafWritten (x : Items) (n : Nat) : Bool :=
  match Tab.find x.nodes n with
  | some (_, .leaf (some p) _) => p.okd.all (· == true)
  | _ => false

/-- Leaves whose pages are not all programmed. -/
def Items.unwrittenLeaves (x : Items) : List Nat :=
  (x.nodes.filter (fun n => (match n.2.2 with
    | .leaf _ _ => true
    | .upper _ _ => false) && !x.leafWritten n.1)).map (·.1)

/-- New quads of the sketch area open: each takes four owner stripes, counted against the budget and mapped in pSLC to the four stripes of a physical quad (02 R49, R50,
R83). -/
def State.openQuads (s : State) (homes : List (Nat × Nat)) : State :=
  let four := homes.flatMap (fun h => (List.range 4).map (fun c => (4 * h.1 + c, h.2 + c * 2 ^ 12)))
  let m := s.media
  if four.all (fun x => (m.mapped? 17 x.1).isNone && (m.counted? 17 x.1).isNone && m.targetOk x.2) ∧ homes.all (fun h => bitsOf h.2 12 2 = 0)
      ∧ (four.map (·.1)).Nodup ∧ (four.map (·.2)).Nodup ∧ m.total + four.length ≤ stripesMax then
    s.modMedia (fun m => four.foldl (fun (m : Media) x =>
      let l := m.freeStripe
      { m with counted := m.counted ++ [Counted.mk l 17 x.1 [] true s.now] }.journal s.now .mapSet l ((MapEntry.mk x.2 true false 17 x.1).word 0 0) x.2) m)
  else s

/-- The merge that runs commits its root: its leaves have been written (09 R288, R291). -/
def State.commitMerge (s : State) (r : MergeRun) : State :=
  let e := s.items.epoch + 1
  (s.commitTree (r.kept ++ r.leaves) s.items.turn).modItems (fun x => { x with
    merge := none
    fresh := x.fresh.map (fun (f : FreshE) => if f.merged.isNone ∧ f.index ∈ r.written then { f with merged := some e } else f)
    gone := x.gone.map (fun (g : Gone) => if g.rewritten.isNone ∧ g.index ∈ r.gone then { g with rewritten := some e } else g) })

/-- INDEX_MERGE (09 R284, R288, R291; 02 R49): while leaves wait to be written it opens the quads the plan names. When a merge is due, and no halt covers the module's
Background work, it makes the leaves of a plan that places what must be placed; once their pages are programmed, it commits the new root. -/
def execIndexMerge (plan : TreePlan) (s : State) : Host.Outcome State Fault Refusal :=
  if s.backHalted ∨ !s.formatted then .next s
  else
    match s.items.merge with
    | some r =>
      if r.leaves.all (fun c => s.items.leafWritten c.node) then .next (s.commitMerge r) else .next (s.openQuads plan.homes)
    | none =>
      if s.items.unwrittenLeaves ≠ [] then .next (s.openQuads plan.homes)
      else
        match s.mergeDueAt with
        | none => .next s
        | some t =>
          let s := s.at_ t
          if !s.items.planOk plan then .next s
          else
            let kept := s.items.keptLeaves plan
            let run := fun (l : List Child) => MergeRun.mk l kept (s.items.unmerged.map (·.index)) (s.items.unwritten.map (·.index))
            let new := (s.openQuads plan.homes).newLeaves plan.leaves
            .next (new.2.modItems (fun x => { x with merge := some (run new.1) }))

/-! ## Reclamation (09 R279, R284, R288, R291). -/

/-- A deleted item's index returns to the free pool, or is retired at the last generation (09 R279). -/
def Items.freeIndex (x : Items) (i : Nat) : Items :=
  match Tab.find x.items i with
  | none => x
  | some y =>
    { x with
      items := Tab.del x.items i
      gone := x.gone.filter (fun g => g.index ≠ i)
      reclaimed := if y.gen < genTop then insertBy (fun a b => a.1 < b.1) (i, y.gen) (x.reclaimed.filter (fun r => r.1 ≠ i)) else x.reclaimed }

/-- An item is reclaimed: its index is free, its embedding's sectors are deallocated, its cache is deleted (09 R284). -/
def State.reclaimItem (s : State) (i : Nat) : State :=
  match Tab.find s.items.items i with
  | none => s
  | some y =>
    let l := s.items.embAt i ++ (if y.staged.isSome then embAt s.items.dims (1 - s.items.side) i else [])
    let s := s.dropCaches (itemNo 0 y.gen i)
    let s := s.modMedia (fun m => l.foldl (fun (m : Media) x => m.place s.now ⟨m.writeSeq, 16, x, true, [], m.keyOf 16⟩) m)
    ({ s with health := s.health.leave 16 (fun x => x ∈ l) }).modItems (fun x => x.freeIndex i)

/-- Roots a query may still walk: one goes when the horizon reaches the epoch of the root that replaced it (09 R288). -/
def keepRoots (h : Nat) : List Root → List Root
  | [] => []
  | [r] => [r]
  | r :: t :: ts => if t.epoch ≤ h then keepRoots h (t :: ts) else r :: t :: ts

/-- Nodes that neither a kept root reaches nor a merge or a REINDEX is writing are freed, their numbers' generations increased (09 R288). -/
def Items.freeNodes (x : Items) : Items :=
  let live := (x.roots.flatMap (fun r => x.reached r.node) ++ ((x.merge.map (fun r => r.leaves.map (·.node))).getD []) ++ x.aside.map (·.node)).dedup
  let dead := (Tab.keys x.nodes).filter (fun n => n ∉ live)
  { x with
    nodes := x.nodes.filter (fun n => n.1 ∈ live)
    nodeGens := dead.foldl (fun t n => Tab.put t n (((Tab.find x.nodes n).map (·.1)).getD 0 + 1)) x.nodeGens }

/-- The other side of the vector area is freed: its stripes' MAP_CLEARs are recorded, and what waits to be written there goes (02 R67, 10 R341). -/
def Media.freeSide (m : Media) (now side : Nat) : Media :=
  let mine := fun (os : Nat) => decide (side * sideStripes ≤ os ∧ os < (side + 1) * sideStripes)
  let sect := fun (x : Nat) => decide (side * sideSectors ≤ x ∧ x < (side + 1) * sideSectors)
  let m : Media := { m with
    pend := m.pend.filter (fun p => !(p.copy.owner = 16 && sect p.copy.sector))
    counted := m.counted.filter (fun c => c.landed || !(c.owner = 16 && mine c.ostripe)) }
  (m.map.filter (fun e => e.2.owner = 16 && mine e.2.ostripe)).foldl (fun (m : Media) e => m.journal now .mapClear e.1 0 0)
    ((m.counted.filter (fun c => c.owner = 16 && mine c.ostripe)).foldl (fun (m : Media) c => m.journal now .mapClear c.lstripe 0 0) m)

/-- The other index is gone: its embeddings, sketches and leaves (10 R339, R341). -/
def State.freeOther (s : State) : State :=
  (s.modMedia (fun m => m.freeSide s.now (1 - s.items.side))).modItems (fun x => { x with
    old := false, aside := [], items := Tab.changeAll x.items (fun (y : Item) => { y with staged := none }) })

/-- The last index goes once the horizon has reached the epoch of the switch (10 R341). -/
def State.freeOld (s : State) : State :=
  let since := ((s.items.roots.filter (fun r => r.turn = s.items.turn)).head?.map (·.epoch)).getD 0
  if s.items.old && decide (since ≤ s.items.horizon) then s.freeOther else s

/-- Quads of the sketch area that hold no leaf's pages are unmapped, once every leaf has its place (02 R49, R67). -/
def State.freeQuads (s : State) : State :=
  if s.items.unwrittenLeaves ≠ [] then s
  else
    let used := s.items.nodes.filterMap (fun n => match n.2.2 with
      | .leaf (some p) _ => some p.quad
      | _ => none)
    s.modMedia (fun m => (m.map.filter (fun e => e.2.owner = 17 && e.2.ostripe / 4 ∉ used && !Tab.has m.relocs e.1)).foldl
      (fun (m : Media) e => m.journal s.now .mapClear e.1 0 0) m)

/-- RECLAIM: everything the horizon allows (09 R283, R284, R288, R291). -/
def State.reclaim (s : State) : State :=
  let s := s.modItems (Items.retire s.now)
  let h := s.items.horizon
  let ready := (s.items.gone.filter (fun g => (g.rewritten.map (fun m => decide (m ≤ h))).getD false)).map (·.index)
  let s := s.modItems (fun x => { x with fresh := x.fresh.filter (fun f => !((f.merged.map (fun m => decide (m ≤ h))).getD false)), roots := keepRoots h x.roots })
  let s := ready.foldl State.reclaimItem s
  (s.freeOld.modItems Items.freeNodes).freeQuads

/-- RECLAIM (09 R284). -/
def execReclaim (s : State) : Host.Outcome State Fault Refusal := if s.backHalted then .next s else .next s.reclaim

/-! ## Leaf scans (09 R302). -/

/-- Whether a query's masks pass an item: visible by its tombstone, not gone, allowed (09 R301, R302). -/
def Items.passesMask (x : Items) (e : Nat) (allowed : Nat → Bool) (i : Nat) : Bool :=
  allowed i && !x.isGone i && x.tombs.all (fun t => !(t.1 = i && t.2 ≤ e))

/-- The allow masks of a leaf, 64 bytes a page (09 R302). -/
def Items.leafMasks (x : Items) (e : Nat) (allowed : Nat → Bool) (n : Nat) : List (List Byte) :=
  (chunksOf x.perPage (x.membersOf n)).map (fun p =>
    leBytes 64 (bitsFrom p.length (fun k => match p.getD k none with
      | some m => x.passesMask e allowed m.1
      | none => false)))

/-- The chain of a leaf: planes 0 to 3 of its first page, then of its second, as many as hold members; the blocks are those the sketch area's map gives (02 R77). -/
def State.leafChain (s : State) (n : Nat) : List W32 :=
  match Tab.find s.items.nodes n with
  | some (_, .leaf (some q) ms) =>
    (List.range (ceilDiv ms.length s.items.perPage)).map (fun c =>
      let block := ((s.media.mapped? 17 (4 * q.quad + c % 4)).map (fun e => (s.media.blockOf e.2.pstripe q.member).2.block)).getD 0
      BitVec.ofNat 32 (2 * q.pair + c / 4 + block * 2 ^ 12 + c % 4 * 2 ^ 24))
  | _ => []

/-- The order of a die's queue: class, earliest deadline, arrival (09 R302). -/
def scanBefore (a b : ScanReq) : Bool :=
  let d := fun (x : ScanReq) => x.deadline.getD (2 ^ 64)
  a.cls.code < b.cls.code || (a.cls.code = b.cls.code && (d a < d b || (d a = d b && a.arrival < b.arrival)))

/-- The state after a frame that always has a next state. -/
def State.sent (s : State) (o : Host.Outcome State Fault Refusal) : State :=
  match o with
  | .next t => t
  | _ => s

/-- The frames of one scan: queries under the mask, the chain, the scan (01 R39 to R41; 02 R86). -/
def State.issueScan (s : State) (d : DieNo) (l : List ScanReq) (chain : List W32) : State :=
  let wide := s.items.width = 512
  let s := l.zipIdx.foldl (fun (s : State) q =>
    s.sent (execLoadQuery d ⟨q.2 % 8, Nat.mod_lt _ (by decide)⟩ wide (leBytes (s.items.width / 8) (q.1.query ^^^ s.sketchMask).toNat) s)) s
  let s := s.sent (execLoadChain d chain s)
  s.sent (execScan d (BitVec.ofNat 8 (2 ^ l.length - 1)) ((l.head?.map (·.masks)).getD []) s)

/-- What a result block gives the request of a query slot (01 R45, R46). -/
def leafListOf (r : ScanReq) (q : Nat) (b : List Byte) : LeafList where
  leaf := r.leaf
  entries := (((chunksOf 4 ((b.drop (0x20 + 64 * q)).take 64)).map leNat).filter (fun w => bitOf w 31)).map (fun w => (bitsOf w 0 10, bitsOf w 19 5, bitsOf w 10 9))
  skipped := fieldAt b 4 2 ≠ 0
  compared := fieldAt b 8 4

/-- A die's scan has ended: each query it served takes its list from the result block; where the die has lost the block the requests wait again (01 R36, R44; 09 R302,
R303). -/
def State.collect (s : State) (d : DieNo) : State :=
  match Tab.find s.items.running d.val with
  | none => s
  | some l =>
    let b := (s.die d).result
    if (s.die d).scanRun.isSome then s
    else if b.length = 544 then
      s.modItems (fun x => { x with
        running := Tab.del x.running d.val
        queries := x.queries.map (fun y => { y with
          lists := y.lists ++ l.zipIdx.filterMap (fun r => match r.1 with
            | some q => if q.who = y.who then some (leafListOf q r.2 b) else none
            | none => none) }) })
    else s.modItems (fun x => { x with running := Tab.del x.running d.val, scans := l.filterMap id ++ x.scans })

/-- The scans that have ended on every die. -/
def State.collectAll (s : State) : State := (Tab.keys s.items.running).foldl (fun s k => s.collect ⟨k % 1024, Nat.mod_lt _ (by decide)⟩) s

/-- DIE_SCAN_ISSUE (09 R302; 02 R75, R76): what the die's last scan found is taken; then a free die takes the request at the head of its queue with every request alike, up to
eight, its offset sets loaded; for an Interactive one a QLC program or an erase is first suspended. A suspended die whose window has ended takes none, and neither does a leaf
whose pages are not yet programmed. -/
def execDieScanIssue (d : DieNo) (s : State) : Host.Outcome State Fault Refusal :=
  let s := s.collect d
  let q := sortBy scanBefore (s.items.scans.filter (fun r => s.leafDie r.leaf = some d.val && s.items.leafWritten r.leaf))
  match q with
  | [] => .next s
  | h :: _ =>
    let rows := (s.leafChain h.leaf).map chainRow
    if (s.die d).takes .other then
      if s.media.windowOver s.now d ∨ !s.oneBin d rows then .next s
      else
        let take := (q.filter (fun r => r.leaf = h.leaf && r.masks = h.masks)).take 8
        let t := (s.loadSets d .slc rows).issueScan d take (s.leafChain h.leaf)
        .next (if (t.die d).scanRun.isSome then
          t.modItems (fun y => { y with scans := y.scans.filter (fun r => r ∉ take), running := Tab.put y.running d.val (take.map some) }) else s)
    else if h.cls = .interactive then .next (s.suspendFor d)
    else .next s

end Sys2Proof.Machine
end

