-- ==== Sys2Proof/Machine/Search.lean ====
section
/-! DEFINITION. A search on one module: the query descriptor, the queries that run, the candidates, the rescoring, the result (09 R297 to R309; 02 R75). -/

namespace Sys2Proof.Machine

/-! ## The query descriptor (09 R297, R298). -/

/-- QFLAGS of a descriptor. -/
def descFlags (b : List Byte) : Nat := fieldAt b 8 2

/-- The bytes of a descriptor, with a vector where it carries one (09 R297). -/
def descLen (dims : Nat) (b : List Byte) : Nat := 256 + (if bitOf (descFlags b) 0 then 0 else 4 * dims)

/-- The term bytes of a descriptor. -/
def descTerms (b : List Byte) : List (List Byte) := chunksOf 24 ((b.drop 0x40).take (24 * fieldAt b 7 1))

/-- Whether the query vector holds a NaN or an infinity (09 R298). -/
def vecBad (v : List W32) : Bool := v.any (fun x => (fixed32 x).isNone)

/-- Whether the fields of a descriptor that do not name anything are legal (09 R297, R298). -/
def descOk (dims : Nat) (b : List Byte) : Bool :=
  let k := fieldAt b 0 2
  let fl := descFlags b
  let mode := bitsOf fl 3 2
  1 ≤ k && k ≤ 4096 && k ≤ fieldAt b 2 2 && fieldAt b 2 2 ≤ 4096 && 1 ≤ fieldAt b 4 2 && fieldAt b 4 2 ≤ 4096 && 1 ≤ fieldAt b 6 1 && fieldAt b 6 1 ≤ 64
    && fieldAt b 7 1 ≤ 8 && fl / 64 = 0 && mode ≠ 3 && (!bitOf fl 2 || fieldAt b 0xA 2 ≤ 255) && fieldAt b 0xC 2 = dims && fieldAt b 0x28 24 = 0
    && (descTerms b).all termOk && allZero (((b.drop 0x40).take 192).drop (24 * fieldAt b 7 1))
    && (!bitOf fl 1 || bitOf fl 0)
    && (mode = 0 || (BitVec.ofNat 64 (fieldAt b 0x10 8)).slt (BitVec.ofNat 64 (fieldAt b 0x18 8)))
    && (bitOf fl 0 || !vecBad (wordsOf dims (b.drop 256)))

/-- The query a legal descriptor describes, with its vector. -/
def queryOf (b : List Byte) (vec : List W32) : Query1 where
  k := fieldAt b 0 2
  rerank := fieldAt b 2 2
  leaves := fieldAt b 4 2
  beam := fieldAt b 6 1
  exact := fieldAt b 0xE 2
  filter := ⟨(descTerms b).map Term.ofBytes, bitsOf (descFlags b) 3 2, BitVec.ofNat 64 (fieldAt b 0x10 8), BitVec.ofNat 64 (fieldAt b 0x18 8)⟩
  bitmap := if bitOf (descFlags b) 2 then some (fieldAt b 0xA 2) else none
  exclude := if bitOf (descFlags b) 1 then some (fieldAt b 0x20 8) else none
  times := bitOf (descFlags b) 5
  vec := vec

/-- The bytes of a descriptor in host memory. -/
def State.descBytes (s : State) (c : Cmd) : List Byte :=
  let head := s.hostRead c.port (c.field 0x10 8) 256
  head ++ s.hostRead c.port (c.field 0x10 8 + 256) (descLen s.items.dims head - 256)

/-- Whether what a descriptor names exists here: its bitmap (09 R298). -/
def State.descNames (s : State) (b : List Byte) : Bool := !bitOf (descFlags b) 2 || Tab.has s.items.bitmaps (fieldAt b 0xA 2)

/-- Bytes of a result: the header, K entries, K time records where wanted, and member records of a span search (09 R307). -/
def resultLen (b : List Byte) (span : Bool) : Nat :=
  64 + 16 * fieldAt b 0 2 + (if bitOf (descFlags b) 5 then 16 * fieldAt b 0 2 else 0) + (if span then 2048 else 0)

/-! ## What a query may see (09 R282, R296, R341). -/

/-- Whether the index in service at an epoch is the one in service now (10 R341). -/
def Items.newIndex (x : Items) (e : Nat) : Bool := ((x.rootAt e).map (·.turn)).getD 0 = x.turn

/-- The embedding and sketch of an item in the index that was in service at an epoch (10 R341). -/
def Items.viewAt (x : Items) (e : Nat) (y : Item) : List W32 × BitVec 512 := if x.newIndex e then (y.emb, y.sketch) else y.staged.getD (y.emb, y.sketch)

/-- The sectors of an item's embedding in the index that was in service at an epoch (10 R341). -/
def Items.embAtOf (x : Items) (e i : Nat) : List Nat := Machine.embAt x.dims (if x.newIndex e then x.side else 1 - x.side) i

/-- The indices a query may return: visible at its epoch and allowed by its bitmap's image and its filter (09 R282, R293, R296). -/
def Items.allowedAt (x : Items) (e : Nat) (image : Option Bitmap) (q : Query1) : List Nat :=
  let inMap := fun (i : Nat) => match image with
    | some b => b.allows i
    | none => true
  (x.items.filter (fun i => i.2.visible e && inMap i.1 && q.filter.passes i.2)).map (·.1)

/-- Whether a query takes the exact path (09 R299): its limit is not 0, it names no bitmap with TAIL 1, and what is allowed lies within the limit. -/
def exactAt (image : Option Bitmap) (q : Query1) (allowed : List Nat) : Bool :=
  let n := match image with
    | some b => if q.filter.given then allowed.length else b.pop
    | none => allowed.length
  0 < q.exact && !((image.map (·.tail)).getD false) && n ≤ q.exact

/-- The query's sketch: that of its vector divided by its norm (10 R322). -/
def Items.querySketch (x : Items) (v : List W32) : BitVec 512 := x.projection.sketch x.width (unitOf v).1

/-- The admission of a query at an epoch, under an image of the bitmap it names (09 R282, R299, R300). -/
def Items.admitQuery (x : Items) (e : Nat) (image : Option Bitmap) (q : Query1) : Admitted :=
  let allowed := x.allowedAt e image q
  let exact := exactAt image q allowed
  let w := if exact then ([], []) else x.walk e q.vec q.beam q.leaves
  ⟨e, exact, x.querySketch q.vec, allowed, w.1, w.2⟩

/-! ## Queries that run (09 R282, R293, R302). -/

/-- The query of an asker. -/
def Items.query? (x : Items) (who : Asker) : Option Query := x.queries.find? (fun y => y.who = who)

/-- A query is admitted: it takes its epoch and the image of the bitmap it names; what it asks follows once its vector is known (09 R282, R293). -/
def State.openQuery (s : State) (who : Asker) (bitmap : Option Nat) (deadline : Option Nat) (flags : Nat) : State :=
  s.modItems (fun x => { x with
    queries := x.queries.filter (fun y => y.who ≠ who)
      ++ [⟨who, s.tick, x.epoch, bitmap.bind (fun k => (Tab.find x.bitmaps k).map (fun b => (k, b))), deadline, flags, none, []⟩] })

/-- What a query asks is known: its filter is compiled, the tree is walked, and its leaf scans join their dies' queues (09 R299, R300, R302). -/
def State.startQuery (s : State) (who : Asker) (q : Query1) : State :=
  match s.items.query? who with
  | none => s
  | some y =>
    let a := s.items.admitQuery y.epoch (y.image.map (·.2)) q
    let reqs := a.leaves.zipIdx.map (fun n =>
      ScanReq.mk who .interactive y.deadline (s.items.arrivals + n.2) n.1 (s.items.leafMasks a.epoch (fun i => i ∈ a.allowed) n.1) a.sketch)
    s.modItems (fun x => { x with
      queries := x.queries.map (fun z => if z.who = who then { z with ask := some (q, a), lists := [] } else z)
      arrivals := x.arrivals + a.leaves.length
      scans := x.scans ++ reqs })

/-- A change of the epoch or of a bitmap's image reaches the queries admitted in the same tick: each is admitted again under it (09 R282, R293). -/
def State.readmit (s : State) : State :=
  (s.items.queries.filter (fun y => y.tick = s.tick)).foldl (fun s y =>
    let image := y.image.map (fun p => (p.1, (Tab.find s.items.bitmaps p.1).getD p.2))
    let s := s.modItems (fun x =>
      let z := x.endQuery s.now y.who
      { x with scans := z.scans, running := z.running, queries := x.queries.map (fun z => if z.who = y.who then { z with epoch := x.epoch, image := image } else z) })
    match y.ask with
    | some (q, _) => s.startQuery y.who q
    | none => s) s

/-- Whether a query's leaf scans have all been done: none of them waits, and none runs. -/
def Items.scansDone (x : Items) (who : Asker) : Bool :=
  x.scans.all (fun r => r.who ≠ who) && x.running.all (fun e => e.2.all (fun r => (r.map (fun q => decide (q.who ≠ who))).getD true))

/-! ## Candidates (09 R301 to R304). -/

/-- A candidate: its agreement, its handle, and whether it came from the fresh list (09 R303, R308). -/
def candidate (agree handle pos : Nat) (fresh : Bool) : SelEl := ⟨agree, handle, agree + bit fresh * 1024, true, pos⟩

/-- The sixteen of highest agreement, the earlier first among equals (01 R43, 03 R101). -/
def best16 (l : List (Nat × Nat)) : List (Nat × Nat) := (sortBy (fun a b => b.1 < a.1) l).take 16

/-- The candidates of a leaf's list: agreement, and the handle of the member entry that CHAIN and SLOT name (09 R287, R303). An entry whose member the masks do not pass, or
which names no item, gives none; a scan under its masks leaves no such entry. -/
def State.leafCands (s : State) (a : Admitted) (l : LeafList) : List (Nat × Nat) :=
  l.entries.filterMap (fun e => (memberAt s.items.perPage (s.items.membersOf l.leaf) e.2.1 e.2.2).bind (fun m =>
    if m.1 ∈ a.allowed ∧ ((Tab.find s.items.items m.1).map (·.gen)) = some m.2 then some (e.1, itemNo s.moduleNumber m.2 m.1) else none))

/-- Whether a query's fresh scan takes an entry: its insert epoch is not past the query's, and the masks pass its item (09 R301). -/
def Items.freshSeen (x : Items) (a : Admitted) (f : FreshE) : Bool := f.ins ≤ a.epoch && x.passesMask a.epoch (fun i => i ∈ a.allowed) f.index

/-- The entry at a place that a query's fresh scan takes. -/
def Items.freshAt (x : Items) (a : Admitted) (k : Nat) : Option FreshE := x.fresh.find? (fun f => f.slot = k && x.freshSeen a f)

/-- The lists of the fresh scan, one for each segment and accumulation chain: the agreement and the place of at most 16 entries, in the order of their places; which chain
compares an entry is free (09 R290, R301; log entry 46). -/
def Items.freshLists (x : Items) (a : Admitted) : List (List (Nat × Nat)) :=
  let n := x.fresh.length
  let one := fun (f : FreshE) =>
    if x.freshSeen a f then
      (Tab.find x.items f.index).map (fun y => ((f.seg, Config.freshChain n f.slot), agreement x.width (x.viewAt a.epoch y).2 a.sketch, f.entry))
    else none
  let es := (sortBy (fun f g => f.slot < g.slot) x.fresh).filterMap one
  (es.map (·.1)).dedup.map (fun c => (best16 ((es.filter (fun e => e.1 = c)).map (·.2))).map (fun e => (e.1, segBase c.1 + e.2)))

/-- The merge of candidate lists in a tree, at most 64 lists and 65,536 entries to a merge: the entries left, and the copies removed (09 R304; log entry 50). -/
def mergeLists (rerank : Nat) : Nat → List (List SelEl) → List SelEl × Nat
  | 0, ls => (ls.flatten, 0)
  | n + 1, ls =>
    let per := max 2 (min 64 (65536 / max 1 ((ls.map List.length).foldl max 0)))
    let merged := (chunksOf per ls).map (fun g => selectK true true rerank (g.flatten.mapIdx (fun i e => { e with pos := i })))
    let dups := (merged.map (·.dups)).foldl (· + ·) 0
    match merged with
    | [] => ([], 0)
    | [m] => (m.sel, dups)
    | _ =>
      let r := mergeLists rerank n (merged.map (·.sel))
      (r.1, r.2 + dups)

/-! ## Rescoring and the result (09 R305 to R308). -/

/-- The FP32 inner product of two vectors: products and sums rounded to FP32, the sums in a free order (09 R305; log entry 4). -/
def innerProduct (ctr : Nat) (a b : List W32) : Nat :=
  let ps := (a.zip b).map (fun x => num32 (fp32 .even ((num32 x.1.toNat).mul (num32 x.2.toNat))))
  fp32 .even (sumAny (fun _ x y => (num32 (fp32 .even (x.add y)), false)) ps.length ctr ps 0).1

/-- What a search gives. -/
structure Found where
  epoch : Nat
  sel : Selected
  candidates : Nat
  scans : Nat
  compared : Nat
  stale : Nat
  staleNodes : List Nat
  lost : List Nat
  dups : Nat
  spent : Nat
deriving DecidableEq, Repr, Inhabited

/-- The handle of the item at an index. -/
def State.handleAt (s : State) (i : Nat) : Nat := ((Tab.find s.items.items i).map (fun y => s.itemHandle i y)).getD 0

/-- The candidates of a query with the copies removed and the sketches compared (09 R299, R303, R304). -/
def State.candidates (s : State) (q : Query1) (a : Admitted) (lists : List LeafList) : List SelEl × Nat × Nat :=
  let x := s.items
  if a.exact then (a.allowed.mapIdx (fun pos i => ⟨0, s.handleAt i, 0, true, pos⟩), 0, 0)
  else
    let leafs := lists.map (fun l => (s.leafCands a l).map (fun e => candidate e.1 e.2 0 false))
    let fresh := (x.freshLists a).map (fun l => l.filterMap (fun e => (x.freshAt a e.2).map (fun f => candidate e.1 (s.handleAt f.index) 0 true)))
    let m := mergeLists q.rerank 16 (leafs ++ fresh)
    (m.1, m.2, (lists.map (·.compared)).foldl (· + ·) 0 + x.fresh.length)

/-- The rescoring and the final selection of a query's candidates (09 R305, R306). -/
def State.finish (s : State) (q : Query1) (a : Admitted) (lists : List LeafList) (r : SearchReads) : Found :=
  let x := s.items
  let cs := s.candidates q a lists
  let read := cs.1.filter (fun c => BitVec.ofNat 64 c.index ∉ r.unreadable)
  let scored := read.mapIdx (fun pos c =>
    let v := ((Tab.find x.items (c.index % 2 ^ 34)).map (fun y => (x.viewAt a.epoch y).1)).getD []
    { c with value := innerProduct (s.freeCtr + pos * (2 * x.dims)) q.vec v, pos := pos })
  let kept := scored.filter (fun c => q.exclude ≠ some c.index)
  let skipped := (lists.filter (·.skipped)).map (·.leaf)
  let sel := selectK false true q.k kept
  { epoch := a.epoch
    sel := sel
    candidates := read.length
    scans := a.leaves.length
    compared := cs.2.2
    stale := a.stale.length + skipped.length
    staleNodes := a.stale ++ skipped
    lost := (cs.1.filter (fun c => BitVec.ofNat 64 c.index ∈ r.unreadable)).map (fun c => c.index % 2 ^ 34)
    dups := cs.2.1 + sel.dups
    spent := read.length * (2 * x.dims) }

/-- The flags a search's result carries (09 R306). -/
def Found.flags (f : Found) : Nat := f.sel.flags + (if f.stale ≠ 0 then flagStaleSkipped else 0)

/-- The result's header (09 R307). -/
def Found.header (f : Found) (flags : Nat) : List Byte :=
  sealed (blockOf 64 [(0, 2, f.sel.k), (2, 2, f.sel.sel.length), (4, 2, flags), (8, 8, f.epoch), (0x10, 4, selSum false .even f.sel.sel),
    (0x14, 4, selSum false .even f.sel.rest), (0x18, 4, f.candidates), (0x1C, 4, f.scans), (0x20, 8, f.compared), (0x28, 4, f.stale), (0x2C, 4, f.lost.length),
    (0x30, 4, f.sel.nans), (0x34, 4, f.dups), (0x38, 2, 1)])

/-- The K entries of a selection, those past the last all zeros (09 R308). -/
def Selected.entries (x : Selected) : List Byte := x.sel.flatMap SelEl.entry ++ zeros (16 * (x.k - x.sel.length))

/-- The time records of a selection (09 R308). -/
def State.timeRecords (s : State) (x : Selected) : List Byte :=
  x.sel.flatMap (fun e => match Tab.find s.items.items (e.index % 2 ^ 34) with
    | some y => leBytes 8 y.start.toNat ++ leBytes 8 y.stop.toNat
    | none => zeros 16) ++ zeros (16 * (x.k - x.sel.length))

/-- What the reads of a search leave behind: unreadable sectors are recorded, stale nodes queued for repair, free values spent (02 R74; 09 R289, R305). -/
def State.afterSearch (s : State) (f : Found) : State :=
  let lost := f.lost.flatMap (s.items.embAtOf f.epoch)
  let s := if lost.isEmpty then s else s.uncorrectable 16 lost
  (s.modItems (fun x => { x with stale := x.stale ++ f.staleNodes.filter (fun n => n ∉ x.stale) })).spend f.spent

/-! ## SEARCH. -/

/-- What refuses a SEARCH's descriptor and buffer (09 R280, R298, R307). -/
def State.searchError (s : State) (c : Cmd) (b : List Byte) (span : Bool) : Option Status :=
  if !s.formatted then some .invalidField
  else if descOk s.items.dims b && s.descNames b && resultLen b span ≤ c.field 0x20 4 then none
  else some .invalidField

/-- The query vector of a descriptor: its own, or the embedding of an item of this module; none where the handle names none (09 R297, R298). -/
def State.queryVec (s : State) (b : List Byte) : Option (List W32) :=
  if bitOf (descFlags b) 0 then (s.named (fieldAt b 0x20 8)).map (fun i => i.2.emb) else some (wordsOf s.items.dims (b.drop 256))

/-- The pages that hold the embeddings of a query's candidates, once its scans are done (09 R305). -/
def State.rerankSpots (s : State) (y : Query) : List (Nat × Nat × Nat) :=
  match y.ask with
  | none => []
  | some (q, a) =>
    s.media.spotsOf 16 ((s.candidates q a y.lists).1.flatMap (fun c => s.items.embAtOf a.epoch (c.index % 2 ^ 34)))

/-- Whether a query's scan path is faulted: its scans cannot be performed (09 R303). -/
def Query.faulted (y : Query) (r : SearchReads) : Bool := r.mediaFault && (y.ask.map (fun x => !x.2.leaves.isEmpty)).getD false

/-- A query goes on: what it asks and what it found, once its scans are done and its candidates' pages have been read; none while it waits for a die (02 R75; 09 R302 to
R306). -/
def State.runQuery (s : State) (who : Asker) (r : SearchReads) : State × Option (Query1 × Found) :=
  let s := s.collectAll
  match s.items.query? who with
  | none => (s, none)
  | some y =>
    match y.ask with
    | none => (s, none)
    | some (q, a) =>
      if !s.items.scansDone who || !s.spotsReady true (s.rerankSpots y) then (s, none)
      else
        let s := s.readSpots (s.rerankSpots y)
        let f := s.finish q a y.lists r
        (s.afterSearch f, some (q, f))

/-- SEARCH (09 R282, R297 to R309; 13 R434; 14 R474, R484): the first execution admits the query, one after its scans and reads are done delivers. -/
def execSearch (id : Nat) (r : SearchReads) (s : State) : Host.Outcome State Fault Refusal :=
  match s.actingItem id 0x0401 with
  | none => .next s
  | some c =>
    if c.stage = 0 then
      let b := s.descBytes c
      let v := s.queryVec b
      let err := match s.searchError c b false with
        | some st => some st
        | none => if v.isNone then some .invalidField else none
      .next (s.checked c err (fun s =>
        let v := v.getD []
        match s.unitRun id (c.aux.headD 0) (r.plausible || (unitOf v).2) with
        | (none, t) => t.stage id 0 [c.aux.headD 0 + 1]
        | (some fl, t) =>
          if r.queryUnreadable ∧ bitOf (descFlags b) 0 then
            (t.uncorrectable 16 (t.items.embAt (fieldAt b 0x20 8 % 2 ^ 34))).fail id .mediaUncorrectable
          else
            let q := queryOf b v
            let t := t.modItems (fun x => r.badNodes.foldl Items.dropNode x)
            ((t.openQuery (.cmd id) q.bitmap c.expiry fl).startQuery (.cmd id) q).stage id 1 [fl]))
    else
      match s.items.query? (.cmd id) with
      | none => .next s
      | some y =>
        if y.faulted r then .next ((s.dropWork id).fail id .mediaFault)
        else
          match s.runQuery (.cmd id) r with
          | (t, none) => .next t
          | (t, some (q, f)) =>
            let fl := f.flags + c.aux.headD 0
            let out := f.header fl ++ f.sel.entries ++ (if q.times then t.timeRecords f.sel else [])
            let t := (t.hostWrite c.port (c.field 0x18 8) out).dropWork id
            .next (t.completeWith id .success fl (resultAt [(0x0C, 2, f.sel.sel.length), (0x0E, 2, 1), (0x10, 8, f.epoch), (0x18, 4, f.candidates)]))

/-! ## Suspension for reads (02 R75). -/

/-- Whether an Interactive read or scan waits for a die: one of a READ or an ITEM_GET whose pages lie there, one of a rerank's vectors, or a leaf scan (02 R73, R75;
08 R254). -/
def State.waitsFor (s : State) (d : DieNo) : Bool :=
  (Tab.vals s.host.cmds).any (fun c => (s.media.spotsOf (s.readsOf c).1 (s.readsOf c).2).any (fun x => s.media.dieOf x = d))
    || s.items.queries.any (fun y => s.items.scansDone y.who && (s.rerankSpots y).any (fun x => s.media.dieOf x = d))
    || s.items.scans.any (fun q => decide (q.cls = .interactive ∧ s.leafDie q.leaf = some d.val))

/-- SUSPEND_FOR_READ (02 R75). -/
def execSuspendForRead (d : DieNo) (s : State) : Host.Outcome State Fault Refusal := .next (if s.waitsFor d then s.suspendFor d else s)

/-- RESUME_AFTER_READS: the operation is resumed when no read or scan waits, or when the 100 µs have passed (02 R75). -/
def execResumeAfterReads (d : DieNo) (s : State) : Host.Outcome State Fault Refusal :=
  let s := if s.waitsFor d then (match s.media.susp.find? (fun y => y.die = d.val) with
    | some y => s.at_ y.until_
    | none => s) else s
  let x := s.die d
  if x.st = .suspended ∧ s.media.susp.any (fun y => y.die = d.val) then
    .next ((s.setDie d (x.resumeOp s.now)).modMedia (fun m => { m with susp := m.susp.filter (fun y => y.die ≠ d.val) }))
  else .next s

end Sys2Proof.Machine
end

