-- ==== Sys2Proof/Machine/Commits.lean ====
section
/-! DEFINITION. What becomes visible in one step: the commit group, and a bitmap's new image (09 R281 to R285, R292, R293, R296; 10 R323; 13 R427 to R429, R435 to
R437). -/

namespace Sys2Proof.Machine

/-! ## The commit group (09 R281). -/

/-- An ITEM_PUT commits at epoch e: its items are there, under a REINDEX's set too where one runs, with their places on the fresh list, and its record follows (09 R279 to R281, R290; 10 R323 to R326). -/
def State.commitPut (s : State) (c : Cmd) (held : List (Nat × Item)) (p : PutPlan) (e : Nat) : State :=
    let n := p.segs.length
    let now := s.newItems c p e (held.map (fun x => (x.1, x.2.gen)))
    let new : List (Nat × Item) := held.map (fun x => (x.1, { x.2 with ins := e, staged := (Tab.find now x.1).bind (·.staged) }))
    let lead := (held.head?.map (fun x => itemNo 0 x.2.gen x.1)).getD 0
    let s := s.modItems (fun x => { x with
      items := new.foldl (fun (t : Tab Item) (x : Nat × Item) => Tab.put t x.1 x.2) x.items
      fresh := x.fresh ++ (new.zip (x.freshPlaces new.length)).map (fun y => FreshE.mk y.1.1 e s.now none y.2) })
    let st := s.cacheStateAt c p
    let waits := decide (st = 2) && bitOf c.pflags 2
    let s := if st = 2 then s.modServ (fun v => { v with builds := v.builds ++ [Build.mk v.nextCache lead none p.tokens false (if waits then some c.ident else none) s.now], nextCache := v.nextCache + 1 }) else s
    let h := (new.head?.map (fun (x : Nat × Item) => s.itemHandle x.1 x.2)).getD 0
    let hdr := recordHeader p e st 0
    let s := s.hostWrite c.port (c.field 0x28 8) (hdr ++ new.flatMap (fun (x : Nat × Item) => s.recordEntry x.1 x.2))
    if waits then s.stage c.ident 3 [c.aux.getD 0 0, 0, c.aux.getD 2 0, n, e, h, leNat hdr]
    else s.completeWith c.ident .success (c.aux.getD 2 0) (putResult n e h)

/-- A build of a deleted lead item stops (10 R324, R326). -/
def State.stopBuilds (s : State) (lead : Nat) : State :=
  let gone := s.serv.builds.filter (fun b => b.lead = lead)
  let s := s.modServ (fun v => v.dropBuilds (fun b => b.lead = lead))
  gone.foldl (fun s b => match b.waiter with
    | some id => s.cacheReply id 6 0
    | none => s) s

/-- A deletion commits: the item has its delete epoch and a tombstone, which retires where no query holds it back (09 R283). -/
def State.commitDel (s : State) (i e : Nat) : State :=
  match Tab.find s.items.items i with
  | none => s
  | some x =>
    if x.del.isSome then s
    else (s.modItems (fun y => ({ y with items := Tab.put y.items i { x with del := some e }, tombs := y.tombs ++ [(i, e)] } : Items).retire s.now)).stopBuilds (itemNo 0 x.gen i)

/-- An attribute slot changes where the mask has ones (13 R429). -/
def State.commitAttr (s : State) (i slot : Nat) (mask value : W64) : State :=
  match Tab.find s.items.items i with
  | none => s
  | some x =>
    let v := ((x.attrs.getD slot 0#64) &&& ~~~mask) ||| (value &&& mask)
    s.modItems (fun y => { y with items := Tab.put y.items i { x with attrs := x.attrs.set slot v } })

/-- One mutation commits at epoch e, and its command completes, or waits for its cache. -/
def State.commitOne (s : State) (e : Nat) (m : MutWait) : State :=
  match s.cmd? m.cmd with
  | none => s
  | some c =>
    let done := fun (s : State) => s.succeed c.ident (resultAt [(0x10, 8, e)])
    match m.what with
    | .put new p => s.commitPut c new p e
    | .del i => done (s.commitDel i e)
    | .attr i slot mask value => done (s.commitAttr i slot mask value)

/-- Whether a mutation may commit: its parts have been acknowledged, and no halt covers its command (09 R281; 12 R402). -/
def State.mutReady (s : State) (m : MutWait) : Bool := s.acknowledged m.cmd && ((s.cmd? m.cmd).map (fun c => !s.halted c)).getD false

/-- COMMIT_GROUP: every mutation whose parts have been acknowledged and that no halt covers commits at one new epoch, its reply follows, and a query admitted in the same tick
sees it (09 R281, R282; 12 R402). -/
def execCommitGroup (s : State) : Host.Outcome State Fault Refusal :=
  let go := s.items.muts.filter s.mutReady
  if go.isEmpty then .next s
  else
    let e := s.items.epoch + 1
    let t := s.modItems (fun x => { x with muts := x.muts.filter (fun m => !s.mutReady m), epoch := e })
    .next (go.foldl (fun (x : State) m => x.commitOne e m) t).readmit

/-! ## Bitmaps (09 R292, R293). -/

/-- The image of an ID is replaced in one step; a query admitted in the same tick uses the new one, one admitted before keeps the old (09 R293). The pool of T2 gives way
(07 R235). -/
def State.putBitmap (s : State) (k : Nat) (b : Bitmap) : State :=
  ((s.modItems (fun x => { x with bitmaps := Tab.put x.bitmaps k b, images := x.images + 1 })).readmit).fitPool

/-- BITMAP_LOAD (09 R292, R293; 13 R435): room in HBM, the pushed bytes, and the image of its ID replaced in one step; the pool of T2 gives way (07 R235). -/
def execBitmapLoad (id : Nat) (s : State) : Host.Outcome State Fault Refusal :=
  match s.actingItem id 0x0403 with
  | none => .next s
  | some c =>
    let len := c.field 0x18 8
    if c.stage = 0 then
      let err : Option Status := if !s.formatted then some .invalidField else if s.hbmRoom (len / 8) then none else some .resourceExhausted
      .next (s.checked c err (fun s => (s.stage id 1 []).modCmd id (fun c => { c with need := len / 8 })))
    else if c.need ≤ c.got then
      let b : Bitmap := ⟨len, c.field 0x11 1 = 1, Mem.write 0 [] 0 c.pushed, s.items.images⟩
      .next ((s.putBitmap (c.field 0x10 1) b).succeed id (resultAt [(0x10, 8, b.pop)]))
    else .next s

/-- The term bytes a BITMAP_BUILD names. -/
def State.buildTerms (s : State) (c : Cmd) : List (List Byte) := chunksOf 24 (s.hostRead c.port (c.field 0x28 8) (24 * c.field 0x14 1))

/-- BITMAP_BUILD: compiled and combined as the command is admitted (09 R285, R292, R293, R296; 13 R436). -/
def execBitmapBuild (id : Nat) (s : State) : Host.Outcome State Fault Refusal :=
  match s.actingItem id 0x0404 with
  | none => .next s
  | some c =>
    let raw := s.buildTerms c
    let fl := c.field 0x13 1
    let src := Tab.find s.items.bitmaps (c.field 0x12 1)
    let err : Option Status :=
      if !s.formatted then some .invalidField
      else if !raw.all termOk then some .invalidField
      else if bitOf fl 0 && src.isNone then some .invalidField
      else if s.hbmRoom (s.items.buildLen / 8) then none
      else some .resourceExhausted
    .next (s.checked c err (fun s =>
      let f : Filter := ⟨raw.map Term.ofBytes, bitsOf fl 1 2, BitVec.ofNat 64 (c.field 0x18 8), BitVec.ofNat 64 (c.field 0x20 8)⟩
      let b := s.items.build f (c.field 0x11 1) (if bitOf fl 0 then src else none)
      (s.putBitmap (c.field 0x10 1) b).succeed id (resultAt [(0x10, 8, b.pop), (0x18, 8, b.len)])))

/-- BITMAP_FREE (13 R437); queries in progress keep the image (09 R293). -/
def execBitmapFree (id : Nat) (s : State) : Host.Outcome State Fault Refusal :=
  match s.actingItem id 0x0405 with
  | none => .next s
  | some c =>
    .next (s.checked c none (fun s => (s.modItems (fun x => { x with bitmaps := Tab.del x.bitmaps (c.field 0x10 1) })).succeed id []))

end Sys2Proof.Machine
end

