-- ==== Sys2Proof/Machine/Caches.lean ====
section
/-! DEFINITION. Context caches: their place in flash, their building, the policy, CACHE_GET and CACHE_DROP; and SET_FEATURE, which sets the policy (07 R246 to
R251; 10 R325, R326; 13 R416, R417, R431, R432; 16 R533). -/

namespace Sys2Proof.Machine

/-! ## Building (10 R325, R326). -/

/-- The loaded answer model: the first, if several are (10 R326; log entry 53). -/
def State.answerModel (s : State) : Option W64 := (s.serv.models.find? (fun m => m.2.loaded && m.2.answer)).map (fun m => BitVec.ofNat 64 m.1)

/-- The model a build's cache is of: the one the ASK's session has, else the loaded answer model (07 R251; 10 R326). -/
def State.buildModel (s : State) (b : Build) : Option W64 := match b.model with
  | some m => some m
  | none => s.answerModel

/-- A cache built for a lead item from its source under a number of its own, which is placed and counted; none where flash capacity runs out (07 R246, R247; 10 R325, R326; log
entry 71). A cache of another model stays (07 R251). -/
def State.makeCache (s : State) (b : Build) (model : W64) : Option State :=
  (s.items.leadItem b.lead).bind (fun y => y.extent.bind (fun e =>
    let src := s.extentBytes e.volume e.first e.len
    let x : Cache := ⟨b.lead, BitVec.ofNat 64 (s.itemHandle (b.lead % 2 ^ 34) y), model, b.tokens, b.onDemand, Mem.write 0 [] 0 src, src.length, e.tracks, 0, 0, s.opTime, false⟩
    let base := s.flashPlace (69632 * x.count)
    let x := { x with dataBase := base, expBase := base + 65536 * x.count }
    (s.media.claim s.now x.stripes.dedup).map (fun m => { s with media := m, serv := { s.serv with caches := Tab.put s.serv.caches b.key x } })))

/-- The numbers of prefills: of the text of a SESSION_OPEN or the question of an ASK, of the question for its retrieval vector, and of a cache build (08 R261). -/
def textPrefill (cmd : Nat) : Nat := 4 * cmd
def scratchPrefill (cmd : Nat) : Nat := 4 * cmd + 2
def buildPrefill (key : Nat) : Nat := 2 * key + 1

/-- The Regulator forgets a prefill whose result has been taken (08 R261). -/
def State.unfilled (s : State) (p : Nat) : State :=
  { s with steps := { s.steps with known := s.steps.known.filter (· ≠ p), chunks := s.steps.chunks.filter (fun c => c.prefill ≠ p) } }

/-- Whether a prefill has taken all its layers: its chunks were cut at a step boundary, and none is left (08 R261). -/
def State.prefilled (s : State) (p : Nat) : Bool := p ∈ s.steps.known && !s.steps.chunks.any (fun c => c.prefill = p)

/-- Bytes of a cache. -/
def Cache.bytes (x : Cache) : Nat := 69632 * x.count

/-- Whether an ASK that has not placed its groups yet waits for a cache (10 R329). -/
def State.cacheAwaited (s : State) (x : Cache) : Bool :=
  (Tab.vals s.serv.sessions).any (fun y => y.model = x.model && (y.run.map (fun r => !r.placed && r.built.contains x.lead)).getD false)

/-- Of the on-demand caches that no session holds open or is about to load, the one of oldest use, if the total of those kept passes KEEP_GB (07 R250). -/
def State.overKept (s : State) : Option (Nat × Cache) :=
  let mine := s.serv.caches.filter (fun e => e.2.onDemand && !e.2.dropped)
  let total := (mine.map (fun e => e.2.bytes)).foldl (· + ·) 0
  if total ≤ bitsOf s.serv.cachePolicy.toNat 32 32 * 1000000000 then none
  else (mine.filter (fun e => !s.cacheOpen e.1 && !s.cacheAwaited e.2)).foldl (fun (b : Option (Nat × Cache)) e => match b with
    | none => some e
    | some x => if e.2.lastUse < x.2.lastUse then some e else b) none

/-- On-demand caches are deleted, oldest use first, until their total lies within KEEP_GB; each is recorded (07 R250, 16 R533). -/
def State.trimCaches : Nat → State → State
  | 0, s => s
  | n + 1, s =>
    match s.overKept with
    | none => s
    | some e => State.trimCaches n ((s.freeCache e.1 e.2).policyActed 8 e.2.handle.toNat e.2.bytes)

/-- As many trims as there are caches. -/
def State.trimmed (s : State) : State := State.trimCaches s.serv.caches.length s

/-- The bytes of the source a build reads. -/
def State.buildBytes (s : State) (b : Build) : Nat := (((s.items.leadItem b.lead).bind (·.extent)).map (·.len)).getD 0

/-- CACHE_BUILD: the first build of a lead item's caches takes a stream of a decode complex, and ends once its prefill has taken all its layers, or, `ok` false, flash capacity has
run out on the way (08 R261; 10 R316, R323, R324, R326; 07 R250). It waits for an answer model to be loaded (log entry 53). -/
def execCacheBuild (lead : Nat) (ok : Bool) (s : State) : Host.Outcome State Fault Refusal :=
  match s.serv.builds.find? (fun b => b.lead = lead) with
  | none => .next s
  | some b =>
    match s.buildModel b with
    | none => .next s
    | some m =>
      let on := ok && !s.readOnly
      if s.backHalted then .next s
      else if on ∧ !s.decodes (.build b.key) then .next (s.startDecode (.build b.key) (s.buildBytes b))
      else if on ∧ !s.prefilled (buildPrefill b.key) then .next s
      else
        let t := s.modServ (fun v => v.dropBuilds (fun x => x.key = b.key))
        let done := if s.readOnly ∨ !ok then none else t.makeCache b m
        let r : State × Nat := match done with
          | some u => (u.trimmed, 1)
          | none => (t, if s.readOnly then 5 else 3)
        match b.waiter with
        | some id => .next (r.1.cacheReply id r.2 (if r.2 = 1 then b.tokens else 0))
        | none => .next r.1

/-! ## Caches built on demand, and the policy (07 R249, R250). -/

/-- Caches built under the policy that the policy no longer chooses are deleted (07 R250; log entry 51). -/
def State.applyPolicy (s : State) : State :=
  let pol := s.serv.cachePolicy.toNat
  let gone := s.serv.caches.filter (fun e => !e.2.onDemand && !(match s.items.leadItem e.2.lead with
    | some y => policyWants pol y.attrs
    | none => false))
  ((gone.map (·.1)).foldl State.dropCache s).trimmed

/-- A feature takes a value; IDLE_TIMERS goes to the configuration block too (13 R416, 16 R512, R527). -/
def State.setFeature (s : State) (n : Nat) (v : BitVec 256) : State :=
  if n = 1 then ({ s with serv := { s.serv with cachePolicy := v } }).applyPolicy
  else { s with power := { s.power with idle := v, cfg := { s.power.cfg with seq := s.power.cfg.seq + 1, idle := v } } }

/-- SET_FEATURE (13 R416, R417). -/
def execSetFeature (id : Nat) (s : State) : Host.Outcome State Fault Refusal :=
  match s.acting id 0x0104 with
  | none => .next s
  | some c =>
    let v := leNat (s.hostRead c.port (c.field 0x18 8) 32)
    let n := c.field 0x10 2
    .next (s.checked c (if featureOk n v then none else some .invalidField) (fun s => (s.setFeature n (BitVec.ofNat 256 v)).succeed id []))

/-! ## CACHE_GET and CACHE_DROP (13 R431, R432). -/

/-- A cache's descriptor (07 R247). -/
def Cache.descriptor (x : Cache) : List Byte :=
  sealed (blockOf 64 [(0, 8, x.handle.toNat), (8, 8, x.model.toNat), (0x10, 4, x.tokens), (0x14, 4, cacheTiles x.tokens), (0x18, 2, (modelShape x.model).1),
    (0x1A, 2, (modelShape x.model).2), (0x1C, 2, bit x.onDemand), (0x20, 8, 2 ^ 56 + x.dataBase), (0x28, 8, 2 ^ 56 + x.expBase), (0x30, 8, x.lastUse)])

/-- The cache a lead item's handle names: that of the loaded answer model, else the one built last (07 R247, R251; log entry 71). -/
def State.cacheOf (s : State) (lead : Nat) : Option Cache :=
  let l := Tab.vals (s.cachesOf lead)
  match l.find? (fun x => s.answerModel = some x.model) with
  | some x => some x
  | none => l.getLast?

/-- CACHE_GET (13 R431). -/
def execCacheGet (id : Nat) (s : State) : Host.Outcome State Fault Refusal :=
  match s.actingItem id 0x0305 with
  | none => .next s
  | some c =>
    match s.named c.object with
    | none => .next (s.fail id .invalidField)
    | some (i, y) =>
      .next (s.checked c none (fun s =>
        match s.cacheOf (itemNo 0 y.gen i) with
        | some x => (s.hostWrite c.port (c.field 0x10 8) x.descriptor).succeed id (resultAt [(0x0C, 4, 1)])
        | none => s.succeed id (resultAt [(0x0C, 4, 0)])))

/-- CACHE_DROP (13 R432): of a lead item's caches, or of every cache of a model; the caches deleted are counted, those kept open by a session among them. -/
def execCacheDrop (id : Nat) (s : State) : Host.Outcome State Fault Refusal :=
  match s.actingItem id 0x0306 with
  | none => .next s
  | some c =>
    let one := c.field 0x10 1 = 0
    let item := s.named c.object
    let live := s.serv.caches.filter (fun e => !e.2.dropped)
    let which := if one then (live.filter (fun e => item.map (fun i => itemNo 0 i.2.gen i.1) = some e.2.lead)).map (·.1)
      else (live.filter (fun e => e.2.model = BitVec.ofNat 64 (c.field 0x18 8))).map (·.1)
    .next (s.checked c (if !s.formatted || (one && item.isNone) then some .invalidField else none) (fun s =>
      (which.foldl State.dropCache s).succeed id (resultAt [(0x0C, 4, which.length)])))

end Sys2Proof.Machine
end

