-- ==== Sys2Proof/Machine/Sessions.lean ====
section
/-! DEFINITION. Sessions and ASK (10 R327 to R334; 13 R438 to R442). What the answer model's layers compute is Config's (log entry 7). -/

namespace Sys2Proof.Machine

/-! ## UTF-8. -/

/-- The first bytes of characters: from, up to, bytes that follow, and the range of the next one. -/
def utf8Heads : List (Nat × Nat × Nat × Nat × Nat) :=
  [(0x00, 0x7F, 0, 0x80, 0xBF), (0xC2, 0xDF, 1, 0x80, 0xBF), (0xE0, 0xE0, 2, 0xA0, 0xBF), (0xE1, 0xEC, 2, 0x80, 0xBF), (0xED, 0xED, 2, 0x80, 0x9F),
    (0xEE, 0xEF, 2, 0x80, 0xBF), (0xF0, 0xF0, 3, 0x90, 0xBF), (0xF1, 0xF3, 3, 0x80, 0xBF), (0xF4, 0xF4, 3, 0x80, 0x8F)]

/-- What is open of a character after one more byte: how many bytes are still to come, and the range the next lies in; none where the bytes are no UTF-8. -/
def utf8Step (open_ : Option (Nat × Nat × Nat)) (b : Byte) : Option (Nat × Nat × Nat) :=
  open_.bind (fun o =>
    if o.1 = 0 then (utf8Heads.find? (fun h => h.1 ≤ b.toNat && b.toNat ≤ h.2.1)).map (fun h => h.2.2)
    else if o.2.1 ≤ b.toNat ∧ b.toNat ≤ o.2.2 then some (o.1 - 1, 0x80, 0xBF) else none)

/-- Whether bytes are valid UTF-8 that ends on a character. -/
def validUtf8 (bs : List Byte) : Bool :=
  (bs.foldl utf8Step (some (0, 0x80, 0xBF))).elim false (fun o => o.1 = 0)

/-- Bytes taken as UTF-8: the whole characters, and those of the one not whole yet. What begins no character is left out (10 R332; log entry 146). -/
def utf8Take (bs : List Byte) : List Byte × List Byte :=
  let start : Nat × Nat × Nat := (0, 0x80, 0xBF)
  let r := bs.foldl (fun (x : List Byte × List Byte × (Nat × Nat × Nat)) b =>
    match utf8Step (some x.2.2) b, utf8Step (some start) b with
    | some o, _ => if o.1 = 0 then (x.1 ++ x.2.1 ++ [b], [], start) else (x.1, x.2.1 ++ [b], o)
    | none, some o => if o.1 = 0 then (x.1 ++ [b], [], start) else (x.1, [b], o)
    | none, none => (x.1, [], start)) ([], [], start)
  (r.1, r.2.1)

/-! ## A session's key/value tiles (10 R327; 07 R225, R236). -/

/-- Tiles of ranges of region 0x01 stand in T2, raised above their home, which others give way to (07 R225, R236). -/
def State.raise (s : State) (ranges : List (Nat × Nat)) : State :=
  (ranges.flatMap (fun r => tilesOf (regionAddr 1 r.1) r.2)).foldl (fun (s : State) t =>
    if Tab.has s.tiers.t2 t then s.useTile t
    else
      let s := s.movedHome.makeRoom.movedHome
      s.modTiers (fun y => { y with t2 := Tab.put y.t2 t ⟨false, s.tick, false, false, s.pcMask .interactive⟩ })) s

/-- The stripes of the session area that some ranges take are counted, where the budget has them (02 R83; log entry 52). -/
def State.homeSession (s : State) (ranges : List (Nat × Nat)) : State :=
  s.modMedia (fun m => (m.claim s.now ((ranges.flatMap (fun r => flashStripes 19 r.1 r.2)).dedup)).getD m)

/-- A session takes tokens of its own: tiles with room for some, of which there are some (10 R327, R328). -/
def State.takeOwn (s : State) (h : Nat) (room tokens : Nat) : State :=
  match Tab.find s.serv.sessions h with
  | none => s
  | some x =>
    let base := s.flashPlace (69632 * (kvHeads x.model * cacheTiles room))
    let r : OwnRun := ⟨x.used, room, tokens, base, s.freeCtr⟩
    (((s.modSession h (fun x => { x with used := x.used + tokens, own := x.own ++ [r] })).homeSession (kvSpans x.model base r.tiles)).raise (kvSpans x.model base r.tiles)).spend 1

/-- A session loads tokens of a cache at its next position, moved there and rotated (10 R329, 07 R253). -/
def State.takeRun (s : State) (h lead key lo hi : Nat) : State :=
  match Tab.find s.serv.sessions h with
  | none => s
  | some x =>
    let r : LoadedRun := ⟨lead, x.used, key, lo, hi, 0⟩
    let base := s.flashPlace (69632 * (kvHeads x.model * r.tiles))
    ((s.modSession h (fun x => { x with used := x.used + (hi - lo), loaded := x.loaded ++ [{ r with base := base }] })).homeSession (kvSpans x.model base r.tiles)).raise
      (kvSpans x.model base r.tiles)

/-- More tokens of an answer stand in the run that has room for them. -/
def Session.grown (x : Session) (n : Nat) : Session :=
  { x with
    used := x.used + n
    own := x.own.zipIdx.map (fun r => if r.2 + 1 = x.own.length then { r.1 with tokens := r.1.tokens + n } else r.1) }

/-- Whether all tiles of a session are in T2 (07 R225). -/
def State.resident (s : State) (x : Session) : Bool := x.spans.all (fun r => (s.absentTiles (regionAddr 1 r.1) r.2).isEmpty)

/-- A use of all tiles of a session. -/
def State.useSession (s : State) (x : Session) : State := (x.spans.flatMap (fun r => tilesOf (regionAddr 1 r.1) r.2)).foldl State.useTile s

/-! ## SESSION_OPEN. -/

/-- Sessions open at most (10 R327). -/
def sessionTop : Nat := 1024

/-- Whether a model is a loaded answer model. -/
def State.answers (s : State) (m : Nat) : Bool := ((Tab.find s.serv.models m).map (fun x => x.loaded && x.answer)).getD false

/-- SESSION_OPEN (08 R261; 10 R327; 13 R439): its system text arrives, is prefilled at position 0, and the session is there. -/
def execSessionOpen (id : Nat) (s : State) : Host.Outcome State Fault Refusal :=
  match s.actingItem id 0x0501 with
  | none => .next s
  | some c =>
    let model := c.field 0x10 8
    let m := BitVec.ofNat 64 model
    let tokens := if c.need = 0 then 0 else Config.textTokens m c.pushed
    let err : Option Status :=
      if !s.answers model then some .invalidField else if sessionTop ≤ s.serv.sessions.length then some .resourceExhausted else none
    let make := fun (s : State) =>
      let h := s.serv.nextSession
      let x : Session := ⟨m, c.field 0x18 4, retrievalOf ((c.pkt.drop 0x20).take 16), 0, [], [], none, none, s.now⟩
      let s := s.modServ (fun v => { v with sessions := Tab.put v.sessions h x, nextSession := h + 1 })
      (if tokens = 0 then s else s.takeOwn h tokens tokens).succeed id (resultAt [(0x10, 8, h)])
    if c.stage = 0 then .next (s.checked c err (fun s => (s.stage id 1 []).modCmd id (fun c => { c with need := c.field 0x1C 4 })))
    else if c.got < c.need then .next s
    else
      match err with
      | some st => .next (s.fail id st)
      | none =>
        if !validUtf8 c.pushed then .next (s.fail id .invalidField)
        else if c.field 0x18 4 < tokens then .next (s.fail id .resourceExhausted)
        else if c.need = 0 ∨ (c.stage = 2 ∧ s.prefilled (textPrefill id)) then .next (make s)
        else if c.stage = 1 then .next (s.stage id 2 [s.now])
        else .next s

/-! ## Placing the groups of an ASK (10 R328 to R330). -/

/-- The retrieval parameters of an ASK: its own, or its session's (13 R440). -/
def askParams (c : Cmd) (x : Session) : Retrieval := if bitOf (c.field 0x38 4) 7 then x.defaults else retrievalOf ((c.pkt.drop 0x20).take 16)

/-- HCOUNT of an ASK. -/
def askHandles (c : Cmd) : Nat := bitsOf (c.field 0x38 4) 0 7

/-- The question. -/
def askQuestion (c : Cmd) : List Byte := c.pushed.drop (8 * askHandles c)

/-- Where an item's tokens end in its group's cache: at the first token of the item after it, or with the cache (10 R324). -/
def State.lastToken (s : State) (y : Item) (tokens : Nat) : Nat :=
  ((s.items.items.filter (fun e => e.2.lead = y.lead && decide (y.firstToken < e.2.firstToken))).map (fun e => e.2.firstToken)).foldl min tokens

/-- The tokens of a group that are loaded for a retrieved item: the whole cache, or the tiles over the item's tokens and the margins (10 R329). -/
def State.loadRange (s : State) (r : Retrieval) (y : Item) (tokens : Nat) : Nat × Nat :=
  if !r.window then (0, tokens)
  else (512 * ((y.firstToken - r.margin) / 512), min tokens (512 * ceilDiv (s.lastToken y tokens + r.margin) 512))

/-- The run of a session that holds an item's tokens, if one does: an earlier ASK has loaded them (10 R328). -/
def State.runOf (s : State) (x : Session) (y : Item) : Option LoadedRun :=
  x.loaded.find? (fun e => e.lead = y.lead && decide (e.lo ≤ y.firstToken)
    && decide (s.lastToken y (((Tab.find s.serv.caches e.key).map (·.tokens)).getD e.hi) ≤ e.hi))

/-- The tokens of the cache that may be built on demand for a group; else the outcome of 10 R330 (10 R326, R329). -/
def State.demandTokens (s : State) (pol lead : Nat) : Except Nat Nat :=
  match s.items.leadItem lead with
  | none => .error 3
  | some y =>
    match y.extent with
    | none => .error 3
    | some e =>
      if bitsOf pol 0 2 = 0 ∨ !y.live then .error 3
      else
        let bs := s.extentBytes e.volume e.first e.len
        match sourceInfo bs e.tracks with
        | none => .error 4
        | some i => if cacheTokensTop < i.tokens bs ∨ s.readOnly then .error 4 else .ok (i.tokens bs)

/-- The cache of a group for a session's model, with its number; that of another model counts as absent (07 R251). -/
def State.groupCache (s : State) (lead : Nat) (model : W64) : Option (Nat × Cache) := (s.cachesOf lead).find? (fun e => e.2.model = model)

/-- Whether the cache of a group for a model is being built. -/
def State.building (s : State) (lead : Nat) (model : W64) : Bool := s.serv.builds.any (fun b => b.lead = lead && s.buildModel b = some model)

/-- The build of a group's cache starts, unless there is one, it is being built already, or it may not be; whether the group waits for one (10 R326, R329). -/
def State.startBuild (s : State) (pol lead : Nat) (model : W64) : Bool × State :=
  if (s.groupCache lead model).isSome then (false, s)
  else if s.building lead model then (true, s)
  else
    match s.demandTokens pol lead with
    | .error _ => (false, s)
    | .ok n => (true, s.modServ (fun v => { v with builds := v.builds ++ [⟨v.nextCache, lead, some model, n, true, none, s.now⟩], nextCache := v.nextCache + 1 }))

/-- The addresses of region 0x01 that loading some tokens of a cache reads: its tiles of every layer and head, with their exponent blocks (07 R246, 10 R329). -/
def Cache.loadSpans (x : Cache) (lo hi : Nat) : List (Nat × Nat) :=
  let t := cacheTiles x.tokens
  let n := ceilDiv hi 512 - lo / 512
  (List.range (8 * (modelShape x.model).1)).flatMap (fun i =>
    [(x.dataBase + 65536 * (i * t + lo / 512), 65536 * n), (x.expBase + 4096 * (i * t + lo / 512), 4096 * n)])

/-- One retrieved item's group: already in the session, skipped, or loaded at the session's next position, with what that reads of region 0x01 (10 R329, R330; 07 R238).
`room` is what the question and MAX_TOKENS take; `built` are the groups whose cache was to be built for this ASK. -/
def State.placeGroup (s : State) (c : Cmd) (pol room : Nat) (r : Retrieval) (built : List Nat) (handle : Nat) (y : Item) : AskEntry × State :=
  match Tab.find s.serv.sessions c.object with
  | none => (⟨BitVec.ofNat 64 handle, 3, 0⟩, s)
  | some x =>
    match s.runOf x y, s.groupCache y.lead x.model with
    | some e, _ => (⟨BitVec.ofNat 64 handle, 1, e.pos⟩, s)
    | none, none =>
      (⟨BitVec.ofNat 64 handle, if y.lead ∈ built then 4 else match s.demandTokens pol y.lead with
        | .error o => o
        | .ok _ => 4, 0⟩, s)
    | none, some (key, k) =>
      let range := s.loadRange r y k.tokens
      let n := range.2 - range.1
      if x.ctxMax < x.used + n + room then (⟨BitVec.ofNat 64 handle, 2, 0⟩, s)
      else
        let s := s.modServ (fun v => { v with caches := Tab.change v.caches key (fun k => { k with lastUse := s.opTime }) })
        (⟨BitVec.ofNat 64 handle, 0, x.used⟩, (s.takeRun c.object y.lead key range.1 range.2).serviceReads c .interactive (k.loadSpans range.1 range.2))

/-- The first result of each group, in rank order (10 R328). -/
def firstOfGroups (l : List (Nat × Item)) : List (Nat × Item) := l.foldl (fun acc e => if acc.any (fun x => x.2.lead = e.2.lead) then acc else acc ++ [e]) []

/-- Every group of an ASK placed in rank order. -/
def State.placeAll (s : State) (c : Cmd) (pol room : Nat) (r : Retrieval) (built : List Nat) (l : List (Nat × Item)) : List AskEntry × State :=
  (firstOfGroups l).foldl (fun (acc : List AskEntry × State) e =>
    let p := acc.2.placeGroup c pol room r built e.1 e.2
    (acc.1 ++ [p.1], p.2)) ([], s)

/-! ## ASK. -/

/-- The query an ASK searches with (10 R328; log entry 7). -/
def askQuery (r : Retrieval) (vec : List W32) : Query1 where
  k := r.k
  rerank := r.rerank
  leaves := r.leaves
  beam := r.beam
  exact := 0
  filter := ⟨[], 0, 0#64, 0#64⟩
  bitmap := if r.useBitmap then some r.bitmap else none
  exclude := none
  times := false
  vec := vec

/-- The handles the pushed data of an ASK supplies. -/
def askSupplied (c : Cmd) : List Nat := (List.range (askHandles c)).map (fun i => fieldAt c.pushed (8 * i) 8)

/-- Whether an earlier ASK on the same session is still there: one runs at a time, in arrival order (10 R334). -/
def State.askBefore (s : State) (c : Cmd) : Bool := (Tab.vals s.host.cmds).any (fun d => d.before c && d.opcode = 0x0502 && d.object = c.object)

/-- The items an ASK's command supplies (10 R328). -/
def State.suppliedItems (s : State) (c : Cmd) : List (Nat × Item) := (askSupplied c).filterMap (fun h => (s.named h).map (fun i => (h, i.2)))

/-- The items a retrieval found, in rank order. -/
def State.itemsOf (s : State) (f : Found) : List (Nat × Item) := f.sel.sel.filterMap (fun e => (Tab.find s.items.items (e.index % 2 ^ 34)).map (fun y => (e.index, y)))

/-- The epoch an ASK took at its admission (09 R282, 10 R328). -/
def State.askEpoch (s : State) (id : Nat) : Nat := ((s.items.query? (.cmd id)).map (·.epoch)).getD s.items.epoch

/-- Whether the room for an ASK's question and answer is left in its session (10 R329). -/
def Session.roomFor (x : Session) (c : Cmd) : Bool := decide (x.used + Config.textTokens x.model (askQuestion c) + c.field 0x14 4 ≤ x.ctxMax)

/-- What refuses an ASK once its data is whole (09 R298; 10 R328; 13 R440). -/
def State.askError (s : State) (c : Cmd) (q : Retrieval) : Option Status :=
  if !validUtf8 (askQuestion c) || (askSupplied c).any (fun h => (s.named h).isNone) then some .invalidField
  else if askHandles c = 0 && q.useBitmap && !Tab.has s.items.bitmaps q.bitmap then some .invalidField
  else none

/-- The items that handles of an ASK's results name, those deleted since left out. -/
def State.foundItems (s : State) (l : List Nat) : List (Nat × Item) := l.filterMap (fun h => (Tab.find s.items.items (h % 2 ^ 34)).map (fun y => (h, y)))

/-- An ASK has its results: its query ends, and the caches its groups lack start to be built where they may be (10 R328, R329; 07 R251). -/
def State.beginAsk (s : State) (c : Cmd) (x : Session) (found : List (Nat × Item)) : State :=
  let e := s.askEpoch c.ident
  let go := (firstOfGroups found).foldl (fun (acc : List Nat × State) e =>
    if (s.runOf x e.2).isSome then acc
    else
      let b := acc.2.startBuild (c.aux.headD 0) e.2.lead x.model
      (if b.1 then acc.1 ++ [e.2.lead] else acc.1, b.2)) ([], s.dropWork c.ident)
  let run : AskRun := ⟨c.ident, e, found.map (·.1), go.1, false, none, [], 0, 0, [], [], [], 0, 0⟩
  (go.2.modSession c.object (fun x => { x with run := some run, lastStep := s.now })).stage c.ident 2 c.aux

/-- The groups of an ASK are placed, its question has its place after them with room for the answer, what has left T2 of the session comes back, and its record is written; caches
built for it and not loaded fall under R250 (10 R327 to R330; 13 R441; 07 R250). -/
def State.placeAsk (s : State) (c : Cmd) (x : Session) (run : AskRun) : State :=
  let qt := Config.textTokens x.model (askQuestion c)
  let placed := (s.serviceReads c .interactive x.spans).placeAll c (c.aux.headD 0) (qt + c.field 0x14 4) (askParams c x) run.built (s.foundItems run.found)
  let run := { run with entries := placed.1, placed := true }
  let s := ((placed.2.takeOwn c.object (qt + c.field 0x14 4) qt).modSession c.object (fun x => { x with run := some run, lastStep := s.now })).trimmed
  let used := ((Tab.find s.serv.sessions c.object).map (·.used)).getD 0
  (s.hostWrite c.port (c.field 0x18 8 + 0x40) (askRecord run used ++ zeros 32)).stage c.ident 3 c.aux

/-- An ASK fails, and its query ends. -/
def State.askFails (s : State) (id : Nat) (st : Status) : State := (s.dropWork id).fail id st

/-- ASK until it decodes (08 R261; 09 R280, R282; 10 R328 to R330, R334; 13 R440, R441; 14 R484): its epoch at admission, the prefill of its question in scratch, its retrieval
with its scans and reads, the wait for caches built on demand, and the placing of its groups. -/
def execAsk (id : Nat) (r : SearchReads) (s : State) : Host.Outcome State Fault Refusal :=
  match s.actingItem id 0x0502 with
  | none => .next s
  | some c =>
    match Tab.find s.serv.sessions c.object with
    | none => .next (s.askFails id .invalidField)
    | some x =>
      if c.stage = 0 then
        .next (s.checked c (if s.formatted then none else some .invalidField) (fun s =>
          let q := askParams c x
          ((s.openQuery (.cmd id) (if q.useBitmap then some q.bitmap else none) c.expiry 0).stage id 1 [s.serv.cachePolicy.toNat, 0]).modCmd id (fun c =>
            { c with need := 8 * askHandles c + c.field 0x10 4 })))
      else if c.stage = 5 then
        match s.items.query? (.cmd id) with
        | none => .next s
        | some y =>
          if y.faulted r then .next (s.askFails id .mediaFault)
          else
            match s.runQuery (.cmd id) r with
            | (t, none) => .next t
            | (t, some (_, f)) => .next (t.beginAsk c x (t.itemsOf f))
      else if (c.stage = 1 ∨ c.stage = 4) ∧ c.need ≤ c.got ∧ x.run.isNone ∧ (x.closing.bind s.cmd?).isNone ∧ !s.askBefore c then
        let q := askParams c x
        match s.askError c q with
        | some st => .next (s.askFails id st)
        | none =>
          let failed := c.aux.getD 1 0
          if askHandles c = 0 ∧ c.stage = 1 then .next (s.stage id 4 [c.aux.headD 0, failed, s.now])
          else if askHandles c = 0 ∧ !s.prefilled (scratchPrefill id) then .next s
          else
          let s := s.unfilled (scratchPrefill id)
          match s.unitRun id failed (r.plausible || askHandles c ≠ 0) with
          | (none, t) => .next (t.stage id 1 [c.aux.headD 0, failed + 1])
          | (some fl, t) =>
            let notes := [c.aux.headD 0, failed, fl]
            if !x.roomFor c then .next (t.askFails id .resourceExhausted)
            else if askHandles c ≠ 0 then .next (t.beginAsk { c with aux := notes } x (t.suppliedItems c))
            else
              let t := t.modItems (fun x => r.badNodes.foldl Items.dropNode x)
              .next ((t.startQuery (.cmd id) (askQuery q (Config.retrievalVector x.model (askQuestion c) t.items.dims))).stage id 5 notes)
      else
        match x.run with
        | none => .next s
        | some run => if run.cmd = id ∧ !run.placed ∧ run.built.all (fun l => !s.building l x.model) then .next (s.placeAsk c x run) else .next s

/-! ## Decoding (10 R331 to R333). -/

/-- The token with the greatest score, the first of equals (10 R331; log entry 146). -/
def greedyToken (l : List W32) : Nat :=
  ((l.zipIdx).foldl (fun (b : Option (W32 × Nat)) x => match b with
    | none => some x
    | some y => if (num32 y.1.toNat).lt (num32 x.1.toNat) then some x else some y) none).elim 0 (·.2)

/-- The next token of an answer: the greedy one, or with a temperature one drawn from the generator (10 R331, 13 R440). -/
def nextToken (model : W64) (temp ctr : Nat) : Nat :=
  let l := Config.tokenScores model ctr
  if temp = 0 then greedyToken l else Config.drawToken l temp (Config.freeBits (ctr + 1) 64)

/-- The item of a loaded group whose [START, END) holds a marker's time; an image is at its own (10 R333). -/
def State.citedItem (s : State) (lead us : Nat) : Option (Nat × Item) :=
  (s.items.leadItem lead).bind (fun z =>
    let t := z.start.toInt + us
    s.items.items.find? (fun e => e.2.lead = lead && (e.2.start = e.2.stop || decide (e.2.start.toInt ≤ t ∧ t < e.2.stop.toInt))))

/-- The record of a citation token, none where it names no loaded group or no item of it (10 R333; log entry 146). -/
def State.citeOf (s : State) (x : Session) (r : AskRun) (group mark : Nat) : Option Cite :=
  (x.loaded[group]?).bind (fun g => (s.citedItem g.lead (4000000 * mark)).map (fun y =>
    let from_ := (((s.items.leadItem g.lead).map (fun z => z.start.toInt)).getD 0 + (4000000 * mark : Nat) - y.2.start.toInt).toNat
    let whole := (y.2.stop.toInt - y.2.start.toInt).toNat
    { pos := r.text.length
      rank := ((List.range r.entries.length).find? (fun i => match r.entries[i]? with
        | some e => decide (e.outcome = 0 ∧ e.pos = g.pos)
        | none => false))
      handle := BitVec.ofNat 64 (s.itemHandle y.1 y.2)
      fromUs := if whole = 0 then 0 else from_
      toUs := if whole = 0 then 0 else min (from_ + 4000000) whole }))

/-- A token joins an answer: its text up to the last whole character, and its citation or the count of one dropped; none where an area has no room for it (10 R331 to R333). -/
def State.takeToken (s : State) (c : Cmd) (x : Session) (r : AskRun) (k : TokenInfo) : Option AskRun :=
  let u := utf8Take (r.partly ++ k.text)
  let cite := k.cites.bind (fun g => s.citeOf x r g.1 g.2)
  if c.field 0x30 4 < r.text.length + u.1.length ∨ c.field 0x34 4 < r.cites.length + cite.toList.length then none
  else some { r with
    tokens := r.tokens + 1
    text := r.text ++ u.1
    partly := u.2
    cites := r.cites ++ cite.toList
    dropped := r.dropped + bit (k.cites.isSome && cite.isNone) }

/-- What ends a run of tokens: nothing, the end-of-answer token, or a full area. -/
inductive TokenEnd where
  | more | ended | full
deriving DecidableEq, Repr, Inhabited

/-- At most n more tokens of an answer, in turn (10 R331). -/
def State.takeTokens (s : State) (c : Cmd) (x : Session) : Nat → Nat → AskRun → AskRun × TokenEnd
  | 0, _, r => (r, .more)
  | n + 1, ctr, r =>
    let k := Config.tokenInfo x.model (nextToken x.model (bitsOf (c.field 0x38 4) 8 8) ctr)
    if k.ends then (r, .ended)
    else
      match s.takeToken c x r k with
      | none => (r, .full)
      | some r => s.takeTokens c x n (ctr + 2) r

/-- Why an update ends an answer, if it does: a tier request that failed or was late, the end-of-answer token, a full area, MAX_TOKENS, or a full context (10 R331). -/
def stopOf (c : Cmd) (x : Session) (r : AskRun) (e : TokenEnd) : Option (Nat × Status) :=
  if r.lost = some false then some (6, .tierFailed)
  else if r.lost = some true then some (6, .tierLate)
  else if e = .full then some (2, .success)
  else if e = .ended then some (0, .success)
  else if c.field 0x14 4 ≤ r.tokens then some (1, .success)
  else if x.ctxMax ≤ x.used then some (3, .success)
  else none

/-- Whether the answer of an ASK is being decoded: its groups are placed and their tiles read, and its question has been prefilled (08 R260, R261; 10 R328). -/
def State.decoding (s : State) (r : AskRun) : Bool := r.placed && !s.serviceWaits r.cmd && s.prefilled (textPrefill r.cmd)

/-- The tokens an update may take: those the session's token steps have given, at most 16, within MAX_TOKENS and CTX_MAX; none once a tier request has failed
(10 R331, R332). -/
def updateTokens (c : Cmd) (x : Session) (r : AskRun) : Nat :=
  if r.lost.isSome then 0 else min (min (r.avail - r.tokens) 16) (min (c.field 0x14 4 - r.tokens) (x.ctxMax - x.used))

/-- ASK_PROGRESS_UPDATE: at most 16 more tokens, their text and citations where the areas hold them, and the progress block; or the end of the answer. Tiles of the session that
have left T2 are read first (07 R225, R238; 10 R327, R331 to R333; 13 R441). -/
def execAskProgressUpdate (session : Nat) (s : State) : Host.Outcome State Fault Refusal :=
  match Tab.find s.serv.sessions session with
  | none => .next s
  | some x =>
    match x.run with
    | none => .next s
    | some r =>
      match s.cmd? r.cmd with
      | none => .next s
      | some c =>
        if s.halted c ∨ (r.lost.isNone ∧ !s.decoding r) then .next s
        else if r.lost.isNone ∧ !s.resident x then .next (s.serviceReads c .interactive x.spans)
        else
          let n := updateTokens c x r
          let d := s.takeTokens c x n s.freeCtr r
          let y := { x.grown (d.1.tokens - r.tokens) with run := some d.1 }
          let s := ((s.useSession x).spend (2 * n)).modSession session (fun _ => y)
          match stopOf c y d.1 d.2 with
          | some (stop, st) => .next (s.askEnd session y d.1 stop st)
          | none =>
            let r := { d.1 with pseq := d.1.pseq + 1 }
            .next ((s.askUpdate c r y.used false 0).modSession session (fun x => { x with run := some r }))

/-! ## SESSION_CLOSE. -/

/-- A session closes: the ASKs that wait on it end, it is gone with its flash, and the caches it held open fall under R250 (10 R327, R334; 13 R442; 07 R250). -/
def State.closeSession (s : State) (h : Nat) (x : Session) : State :=
  let waiting := (Tab.vals s.host.cmds).filter (fun d => d.opcode = 0x0502 && d.object = h)
  let s := waiting.foldl (fun s d => s.askFails d.ident (if s.isOwner d.port then .abortedStopwork else .ownerChanged)) s
  let s := (s.modServ (fun v => { v with sessions := Tab.del v.sessions h })).freeFlash (x.spans.map (fun e => (19, e)))
  let s := x.loaded.foldl (fun s e => match Tab.find s.serv.caches e.key with
    | some k => if k.dropped ∧ !s.cacheOpen e.key then s.freeCache e.key k else s
    | none => s) s
  s.trimmed

/-- SESSION_CLOSE (10 R334, 13 R442). -/
def execSessionClose (id : Nat) (s : State) : Host.Outcome State Fault Refusal :=
  match s.actingItem id 0x0503 with
  | none => .next s
  | some c =>
    match Tab.find s.serv.sessions c.object with
    | none => .next (s.fail id .invalidField)
    | some x =>
      .next (s.checked c none (fun s =>
        if x.run.isSome then (s.stage id 1 []).modSession c.object (fun x => { x with closing := some id })
        else (s.closeSession c.object x).succeed id []))

end Sys2Proof.Machine
end

