-- ==== Sys2Proof/Machine/Adapt.lean ====
section
/-! DEFINITION. Adaptation and re-indexing (10 R336 to R342; 13 R450 to R452; 05 R178). -/

namespace Sys2Proof.Machine

/-! ## ADAPT_START. -/

/-- Bytes of master weights a kind and rank needs (13 R450). -/
def masterNeed (kind rank : Nat) : Nat := Config.masterBytes kind rank

/-- Whether a range lies in one mutable region 0x00 grant (13 R450). -/
def State.masterOk (s : State) (a n : Nat) : Bool :=
  a / 2 ^ 56 = 0 && s.tiers.grants.any (fun g => g.2.region = 0 && !g.2.immutable && g.2.base ≤ a && a + n ≤ g.2.base + g.2.len)

/-- Whether a model may be named in a set: stored, or the one in service (13 R450). -/
def State.setModel (s : State) (now : W64) (m : Nat) : Bool := Tab.has s.serv.models m || now = BitVec.ofNat 64 m

/-- The items visible at an epoch, in index order. -/
def Items.visibleAt (x : Items) (e : Nat) : List (Nat × Item) := x.items.filter (fun i => i.2.visible e)

/-- The command number under which staging stripes are counted. -/
def stagingCmd : Nat := 2 ^ 64

/-- Staging stripes counted for the embeddings of some items, on the side of the vector area that is not in service; none where the budget would be passed (10 R340, 02 R83). -/
def State.stage? (s : State) (is : List Nat) : Option Media := s.media.takeRoom s.now stagingCmd (is.flatMap (embStripes s.items.dims (1 - s.items.side)))

/-- What refuses an ADAPT_START, with the bytes needed where that is the reason; the staging side is not free while the last index stands there (10 R336, R340; 13 R450; log
entry 55). -/
def State.adaptError (s : State) (c : Cmd) (desc : List Byte) : Option (Status × Nat) :=
  let kind := c.field 0x10 1
  if !s.formatted then some (.invalidField, 0)
  else if s.serv.adapt.isSome then some (.resourceExhausted, 0)
  else if kind = 4 then
    if !(s.setModel s.items.encV (fieldAt desc 0 8) && s.setModel s.items.encA (fieldAt desc 8 8) && s.setModel s.items.projModel (fieldAt desc 16 8)) then some (.invalidField, 0)
    else if fieldAt desc 24 8 < 2 then some (.invalidField, 0)
    else if s.items.old || (s.stage? ((s.items.visibleAt s.items.epoch).map (·.1))).isNone then some (.capacityExhausted, 0)
    else none
  else if !Tab.has s.items.bitmaps (c.field 0x12 2) then some (.invalidField, 0)
  else if c.field 0x20 8 < masterNeed kind (c.field 0x11 1) then some (.invalidField, masterNeed kind (c.field 0x11 1))
  else if !s.masterOk (c.field 0x18 8) (c.field 0x20 8) then some (.invalidField, 0)
  else none

/-- The items a bitmap allows (09 R292, 10 R336). -/
def State.trainingItems (s : State) (k : Nat) : List Nat :=
  match Tab.find s.items.bitmaps k with
  | some b => (Tab.keys s.items.items).filter b.allows
  | none => []

/-- ADAPT_START (10 R336, R340; 13 R450). -/
def execAdaptStart (id : Nat) (s : State) : Host.Outcome State Fault Refusal :=
  match s.acting id 0x0701 with
  | none => .next s
  | some c =>
    let kind := c.field 0x10 1
    let desc := if kind = 4 then s.hostRead c.port (c.field 0x28 8) 32 else zeros 32
    match s.adaptError c desc with
    | some (st, need) => .next (s.completeWith id st 0 (resultAt [(0x10, 8, need)]))
    | none =>
      .next (s.checked c none (fun s =>
        let vis := (s.items.visibleAt s.items.epoch).map (·.1)
        let word := fun off => BitVec.ofNat 64 (fieldAt desc off 8)
        let a : Adapt := ⟨kind, 1, 0, c.field 0x11 1, if kind = 4 then vis else s.trainingItems (c.field 0x12 2), 0, if kind = 4 then vis.length else c.field 0x14 4, [], [],
          s.items.epoch, word 0, word 8, word 16, word 24, c.field 0x18 8, c.field 0x20 8, []⟩
        let s := if kind = 4 then s.modMedia (fun m => (s.stage? vis).getD m) else s
        (s.modServ (fun v => { v with adapt := some a })).succeed id []))

/-! ## ADAPT_STEP. -/

/-- Items one step of a REINDEX works on: a batch (10 R337; log entry 55). -/
def batchItems : Nat := 256

/-- The master copy of an adaptation job in HBM. -/
def State.masterBytes (s : State) (a : Adapt) : List Byte := Mem.read 0 s.tiers.hbm a.master (min a.masterLen (masterNeed a.kind a.rank))

/-- An item's source: what is taken of it, and its bytes (10 R319). -/
def State.itemSource (s : State) (y : Item) : Option (SourceInfo × List Byte) :=
  y.extent.bind (fun e =>
    let bs := s.extentBytes e.volume e.first e.len
    (sourceInfo bs e.tracks).map (fun i => (i, bs)))

/-- An item's window in its source, in µs from the group's start. -/
def State.itemWindow (s : State) (y : Item) : Nat × Nat :=
  let a := (y.start.toInt - ((s.items.leadItem y.lead).map (fun z => z.start.toInt)).getD y.start.toInt).toNat
  (a, a + (y.stop.toInt - y.start.toInt).toNat)

/-- Whether an item's source extent no longer decodes: it cannot be read, or holds no source any more (10 R337). -/
def State.sourceAbsent (s : State) (lost : List Nat) (i : Nat) (y : Item) : Bool := y.extent.isSome && (i ∈ lost || (s.itemSource y).isNone)

/-- Two views of one item for a kind, by draws: its embedding, different sampled pictures where it has two, or crops of its sound of at least 4 s (10 R337). -/
def State.viewsOf (s : State) (kind u : Nat) (y : Item) : TrainView × TrainView :=
  match s.itemSource y with
  | none => (.vec y.emb, .vec y.emb)
  | some (i, bs) =>
    let w := s.itemWindow y
    match kind, i.video, i.audio with
    | 2, some v, _ =>
      let ks := ((sampleTimes w.1 w.2).filterMap (pictureAt v)).dedup
      let a := Config.pick u % ks.length
      let b := if ks.length ≤ 1 then a else (a + 1 + Config.pick (u + 1) % (ks.length - 1)) % ks.length
      (.picture (i.picture bs v (ks.getD a 0)), .picture (i.picture bs v (ks.getD b 0)))
    | 3, _, some x =>
      let slack := w.2 - w.1 - 4000000
      let crop := fun (u : Nat) =>
        let a := w.1 + Config.pick u % (slack + 1)
        TrainView.sound x.rate (i.mono bs x a (min w.2 (a + 4000000 + Config.pick (u + 1) % (slack + 1))))
      (crop u, crop (u + 2))
    | _, _, _ => (.vec y.emb, .vec y.emb)

/-- The mean of the losses of the last 100 steps (10 R338). -/
def Adapt.meanLoss (a : Adapt) : W32 := if a.losses.isEmpty then 0#32 else (meanOf (a.losses.map (fun x => [x]))).headD 0#32

/-- Draws one training step takes for its batch: five for each item and its views (10 R337; log entry 55). -/
def batchSpan : Nat := 5 * batchItems

/-- A training step: a batch of the training items that are there, their views, the update of each master weight, added with stochastic rounding, and the loss; the quantised
weights are made again from the master copy. An item whose source no longer decodes is skipped and counted once (05 R160, R178; 10 R336 to R338; log entries 7, 55). -/
def State.trainStep (s : State) (a : Adapt) (lost : List Nat) : State :=
  let there := a.items.filterMap (fun i => (Tab.find s.items.items i).bind (fun y => if y.live then some (i, y) else none))
  let draw := (List.range batchItems).filterMap (fun k => there[Config.pick (s.freeCtr + 5 * k) % there.length]?)
  let bad := fun (e : Nat × Item) => decide (a.kind ≠ 1) && s.sourceAbsent lost e.1 e.2
  let batch := (draw.zipIdx.filter (fun e => !bad e.1)).map (fun e => s.viewsOf a.kind (s.freeCtr + 5 * e.2 + 1) e.1.2)
  let master := s.masterBytes a
  let u := Config.trainUpdate a.kind a.rank master batch
  let new := (List.range (master.length / 4)).flatMap (fun j =>
    leBytes 4 (encodeFloat 8 23 .stoch (Config.freeBits (s.freeCtr + batchSpan + j) 16).toNat ((num32 (fieldAt master (4 * j) 4)).add (num32 (u.1.getD j 0#32).toNat))).1)
  let s1 := s.hbmWrite a.master new
  let a := { a with
    done := a.done + 1
    losses := (a.losses ++ [u.2]).drop (a.losses.length + 1 - 100)
    absentItems := (a.absentItems ++ (draw.filter bad).map Prod.fst).dedup
    state := if a.total ≤ a.done + 1 then 2 else 1 }
  (s1.modServ (fun v => { v with adapt := some { a with working := weightsOf (s1.masterBytes a) } })).spend (batchSpan + master.length / 4)

/-- An item under a REINDEX's set: embedded again where the encoder set differs and it has content, and its new sketch (10 R340). -/
def State.restage (s : State) (a : Adapt) (y : Item) : List W32 × BitVec 512 :=
  let w := s.itemWindow y
  let v := if a.encV = s.items.encV ∧ a.encA = s.items.encA then y.emb
    else match s.itemSource y with
      | some (i, bs) => (unitOf (i.embedding bs a.encV a.encA w.1 w.2)).1
      | none => y.emb
  (v, (s.jobProjection a).sketch s.items.width v)

/-- The items a REINDEX has still to work on: those visible at its start epoch, and those committed since without parts under its set (10 R340). -/
def State.toStage (s : State) (a : Adapt) : List (Nat × Item) :=
  s.items.items.filter (fun e => e.2.staged.isNone && (e.2.visible a.startEpoch || e.2.live) && e.1 ∉ a.absentItems)

/-- A batch of a REINDEX: new embeddings go to the staging stripes, new sketches beside the old; an item with content whose source is gone is counted (10 R337, R340). -/
def State.reindexStep (s : State) (a : Adapt) (lost : List Nat) : State :=
  let batch := (s.toStage a).take batchItems
  let differs := !decide (a.encV = s.items.encV ∧ a.encA = s.items.encA)
  let gone := if differs then (batch.filter (fun e => s.sourceAbsent lost e.1 e.2)).map (·.1) else []
  let new := (batch.filter (fun e => e.1 ∉ gone)).map (fun e => (e.1, s.restage a e.2))
  let a := { a with done := min a.total (a.done + batch.length), absentItems := a.absentItems ++ gone }
  { s with
    media := new.foldl (fun (m : Media) e => m.sendEmb stagingCmd s.items.dims (1 - s.items.side) e.1 e.2.1) s.media
    items := { s.items with items := new.foldl (fun (t : Tab Item) e => Tab.change t e.1 (fun y => { y with staged := some e.2 })) s.items.items }
    serv := { s.serv with adapt := some a } }

/-- The items of each leaf of the second tree: those of the first tree's leaves that have parts under the new set (10 R340; log entry 56). -/
def Items.turnLeaves (x : Items) : List (List Nat) :=
  let root := (x.roots.getLast?.map (·.node)).getD 0
  let staged := fun (i : Nat) => ((Tab.find x.items i).map (fun y => y.staged.isSome)).getD false
  ((x.leavesOf root).map (fun c => (x.leafItems c.node).filter staged)).filter (fun l => !l.isEmpty)

/-- A REINDEX whose items all have their new parts builds the second tree's leaves aside; it is done once their pages have been programmed and the staged embeddings
acknowledged (09 R288, 10 R340). -/
def State.reindexEnd (s : State) (a : Adapt) : State :=
  if s.items.aside.isEmpty ∧ !s.items.turnLeaves.isEmpty then
    let new := s.newLeaves s.items.turnLeaves
    new.2.modItems (fun x => { x with aside := new.1 })
  else if s.items.aside.all (fun c => s.items.leafWritten c.node) ∧ s.acknowledged stagingCmd then s.modServ (fun v => { v with adapt := some { a with state := 2 } })
  else s

/-- A job fails with a status (10 R338). -/
def State.adaptFails (s : State) (a : Adapt) (st : Status) : State := s.modServ (fun v => { v with adapt := some { a with state := 4, status := st.num } })

/-- ADAPT_STEP: one batch of the running job, whose pass a step has included (08 R260), unless a halt covers it; where it reads content, a stream of a decode complex must be
free (10 R316). A job whose master weights have gone fails, and so does a REINDEX of a module that has become read-only. `lost` are the items whose source extent cannot be read
(10 R336 to R338, R340, R342). -/
def execAdaptStep (lost : List Nat) (s : State) : Host.Outcome State Fault Refusal :=
  match s.serv.adapt with
  | none => .next s
  | some a =>
    let reads := a.kind = 2 || a.kind = 3 || (a.kind = 4 && !decide (a.encV = s.items.encV ∧ a.encA = s.items.encA))
    if a.state ≠ 1 ∨ s.backHalted then .next s
    else if a.kind ≠ 4 ∧ !s.masterOk a.master a.masterLen then .next (s.adaptFails a .invalidField)
    else if a.kind = 4 ∧ s.readOnly then .next (s.adaptFails a .mediaReadOnly)
    else if 0 ∉ s.steps.ran ∨ (reads ∧ s.serv.complexFor.isNone) then .next s
    else if a.kind ≠ 4 then .next ((s.passUsed 0).trainStep a lost)
    else if (s.toStage a).isEmpty then .next ((s.passUsed 0).reindexEnd a)
    else .next ((s.passUsed 0).reindexStep a lost)

/-! ## ADAPT_STATUS. -/

/-- ADAPT_STATUS (10 R338, 13 R451). -/
def execAdaptStatus (id : Nat) (s : State) : Host.Outcome State Fault Refusal :=
  match s.acting id 0x0702 with
  | none => .next s
  | some _ =>
    let r := match s.serv.adapt with
      | none => zeros 20
      | some a => resultAt [(0x0C, 1, a.kind), (0x0D, 1, a.state), (0x10, 4, a.done), (0x14, 4, a.total), (0x18, 4, a.meanLoss.toNat), (0x1C, 4, a.absentItems.length)]
    .next (s.succeed id r)

/-! ## ADAPT_COMMIT. -/

/-- The job no longer exists, and staging stripes nothing was written to are counted no more (10 R339, 13 R452). -/
def State.endAdapt (s : State) : State := (s.modMedia (fun m => m.endCmd stagingCmd)).modServ (fun v => { v with adapt := none })

/-- The lowest MODEL_ID from a number on that no stored image has. -/
def Services.freeModel (v : Services) : Nat := ((List.range (v.models.length + 1)).map (v.nextModel + ·)).find? (fun m => !(Tab.has v.models m)) |>.getD v.nextModel

/-- A trained job's master copy becomes a stored model image under a MODEL_ID of its own, signed by this module (10 R339; 05 R178; 17 R537; log entry 7); none where it cannot be
stored. -/
def State.storeTrained (s : State) (a : Adapt) : Option (Nat × State) :=
  let m := s.serv.freeModel
  let body := Config.trainedImage (s.masterBytes a) (BitVec.ofNat 64 m)
  let image := body ++ fit 16 (leBytes 1 3 ++ zeros 7 ++ keyId Config.deviceKey) ++ fit 3312 (fit 3309 (Config.deviceSign (shake256 body 64)))
  let home := s.flashPlace image.length
  (s.media.claim s.now (flashStripes 18 home image.length)).map (fun x =>
    (m, ({ s with media := x, serv := { s.serv with
      models := Tab.put s.serv.models m ⟨Mem.write 0 [] 0 image, image.length, home, false, false, Config.isAnswerModel image, []⟩, nextModel := m + 1 } })))

/-- Items change to the other set, and keep the old one for queries before the switch (10 R341). -/
def Item.turned (y : Item) : Item :=
  match y.staged with
  | some (e, k) => { y with emb := e, sketch := k, staged := some (y.emb, y.sketch) }
  | none => y

/-- Live items that neither the second tree nor the fresh list holds: merges took them into the first tree meanwhile (10 R340, R341). -/
def Items.unturned (x : Items) : List Nat :=
  let held := x.aside.flatMap (fun c => x.leafItems c.node) ++ x.unmerged.map (·.index)
  (x.items.filter (fun e => e.2.live && e.1 ∉ held)).map (·.1)

/-- The switch of a done REINDEX at one epoch: root, directory, embeddings, projection, encoders, label; absent items are deleted in the same group; the last tree's leaves and
embeddings stay aside for the queries before it (10 R341). -/
def State.switchIndex (s : State) (a : Adapt) : State :=
  let e := s.items.epoch + 1
  let p := s.jobProjection a
  let s := a.absentItems.foldl (fun s i => s.commitDel i e) s
  let last := s.items.leavesOf ((s.items.roots.getLast?.map (·.node)).getD 0)
  let new := s.newLeaves (chunksOf s.items.leafTop s.items.unturned)
  (new.2.commitTree (s.items.aside ++ new.1) (s.items.turn + 1)).modItems (fun x => { x with
    merge := none, side := 1 - x.side, old := true, aside := last
    items := Tab.changeAll x.items Item.turned
    proj := p.mant, projExp := p.exps, thresh := p.thresh, label := a.label, encV := a.encV, encA := a.encA, projModel := a.projModel })

/-- ADAPT_COMMIT (10 R339, R341, R342; 13 R452). -/
def execAdaptCommit (id : Nat) (s : State) : Host.Outcome State Fault Refusal :=
  match s.acting id 0x0703 with
  | none => .next s
  | some c =>
    match s.serv.adapt with
    | none => .next (s.fail id .invalidField)
    | some a =>
      if a.state = 3 ∨ a.state = 4 then .next (s.checked c none (fun s => (if a.kind = 4 then s.endAdapt.freeOther else s.endAdapt).succeed id []))
      else if a.state ≠ 2 then .next (s.fail id .invalidField)
      else if a.kind = 4 then
        .next (s.checked c (if a.absentItems ≠ [] ∧ c.field 0x10 1 = 0 then some .invalidField else none) (fun s =>
          let s := s.endAdapt.switchIndex a
          s.succeed id (resultAt [(0x18, 8, s.items.epoch)])))
      else
        match s.storeTrained a with
        | none => .next (s.fail id .capacityExhausted)
        | some (m, t) => .next (s.checked c none (fun _ => t.endAdapt.succeed id (resultAt [(0x10, 8, m)])))

end Sys2Proof.Machine
end

