-- ==== Sys2Proof/Machine/Health.lean ====
section
/-! DEFINITION. EVENTS_READ, EVENTS_CLEAR and HEALTH (13 R458, R459; 15 R496 to R506). -/

namespace Sys2Proof.Machine

/-! ## Reading and clearing events. -/

/-- The placeholder of an unreadable record (15 R499). -/
def lostRecord (seq : Nat) : Event := ⟨seq, 0, 0, 3, 1, 0, 0, 0, false, zeros 24⟩

/-- Slots of the record area that lie in programmed pages; the open page is in SRAM (15 R495). -/
def Events.paged (e : Events) : Nat := (e.recs.length - 1) / 256 * 256

/-- Records of programmed pages that cannot be read become placeholders, in the area and in what a loss would leave (15 R499). -/
def Events.loseRecords (e : Events) (lost : List Nat) : Events :=
  let gone := ((e.recs.take e.paged).map (·.seq)).filter (· ∈ lost)
  let fix := fun (r : Event) => if r.seq ∈ gone then lostRecord r.seq else r
  { e with recs := e.recs.map fix, durRecs := e.durRecs.map fix }

/-- The records of a read: in ascending SEQ from a sequence number, up to a count (15 R498). -/
def Events.fromSeq (e : Events) (seq n : Nat) : List Event := (e.recs.filter (fun r => seq ≤ r.seq)).take n

/-- EVENTS_READ (13 R458, 15 R498 to R500): `lost` names records that cannot be read from either copy; their pages are rewritten. -/
def execEventsRead (id : Nat) (lost : List Nat) (s : State) : Host.Outcome State Fault Refusal :=
  match s.acting id 0x0A01 with
  | none => .next s
  | some c => .next (s.checked c none (fun s =>
      let want := c.field 0x10 8
      let e := s.events.loseRecords (lost.filter (fun q => (s.events.fromSeq want (c.field 0x20 4)).any (fun r => r.seq = q)))
      let rebuilt := decide (e.recs ≠ s.events.recs)
      let s := { s with events := e }
      let s := if rebuilt then s.pagesProgrammed 2 else s
      let rs := s.events.fromSeq want (c.field 0x20 4)
      let next := (rs.getLast?.map (fun r => r.seq + 1)).getD want
      (s.hostWrite c.port (c.field 0x18 8) (rs.flatMap Event.bytes)).succeed id
        (resultAt [(0x0C, 4, rs.length), (0x10, 8, next), (0x18, 4, bit s.events.logFull + 2 * bit (s.events.unstable || rebuilt)), (0x1C, 4, s.events.dropped)])))

/-- The recorder at the step of a clear (15 R497). -/
def Events.clear (e : Events) (upTo : Nat) : Events :=
  let keep := e.recs.filter (fun r => upTo < r.seq)
  { e with recs := keep, durRecs := e.durRecs.filter (fun r => upTo < r.seq), dropped := 0, logFull := e.logFull && decide (eventSlots ≤ keep.length) }

/-- EVENTS_CLEAR (13 R459, 15 R497). -/
def execEventsClear (id : Nat) (s : State) : Host.Outcome State Fault Refusal :=
  match s.acting id 0x0A02 with
  | none => .next s
  | some c => .next (s.checked c none (fun s =>
      let upTo := c.field 0x10 8
      let e := s.events.clear upTo
      let n := s.events.recs.length - e.recs.length
      let s' := { s with events := e }.record 0x0002 (sourceOf 0 0) (leBytes 8 n ++ leBytes 8 s.events.dropped ++ leBytes 8 upTo)
      s'.succeed id (resultAt [(0x0C, 4, n)])))

/-! ## The health log. -/

/-- The media part (15 R502). -/
def State.healthMedia (s : State) : List Byte :=
  let w := s.media.wearStats
  let h := s.health
  blockOf 64 [(0, 8, s.media.spares), (8, 1, s.media.spareState.num), (0x0C, 4, h.retired), (0x10, 2, w.1), (0x12, 2, w.2), (0x14, 4, h.uncTotal), (0x18, 8, h.hostBytes),
    (0x20, 8, h.flashBytes), (0x28, 8, h.qlcErases), (0x30, 8, h.slcErases)]

/-- A sensor's record (15 R505). -/
def Sensor.bytes (x : Sensor) (n : Nat) : List Byte :=
  (List.range 16).flatMap (fun i => leBytes 4 (Tab.at x.bins i 0)) ++
    blockOf 32 [(0, 2, x.peak.toNat), (2, 6, x.peakTime), (8, 2, x.cyclePeak.toNat), (0xA, 6, x.cycleTime), (0x10, 2, x.current.toNat), (0x12, 2, n)]

/-- An uncorrectable-list entry (15 R506). -/
def UncE.bytes (e : UncE) : List Byte := leBytes 8 (e.sector % 2 ^ 40 + e.owner % 32 * 2 ^ 40) ++ leBytes 6 e.time ++ zeros 2

/-- The body of the health log (15 R501). -/
def State.healthBody (s : State) : List Byte :=
  s.healthMedia ++ (List.range 32).flatMap (fun i => leBytes 8 (Tab.at s.health.counts i 0))
    ++ (List.range 32).flatMap (fun i => (Tab.at s.health.sensors i Sensor.reset).bytes i)
    ++ fit 4096 (s.health.unc.flatMap UncE.bytes)

/-- The health log of 7,552 bytes (15 R501). -/
def State.healthLog (s : State) : List Byte :=
  let body := s.healthBody
  sealed (blockOf 64 [(0, 4, 7552), (4, 2, 0x0100), (6, 2, 32), (8, 8, s.opTime), (0x10, 4, s.power.cycles), (0x14, 2, s.health.unc.length), (0x18, 4, (crc32c body).toNat)]) ++ body

/-- HEALTH (13 R459, 15 R501). -/
def execHealth (id : Nat) (s : State) : Host.Outcome State Fault Refusal :=
  match s.acting id 0x0A03 with
  | none => .next s
  | some c => .next (s.checked c none (fun s => (s.hostWrite c.port (c.field 0x10 8) s.healthLog).succeed id (resultAt [(0x0C, 4, 7552)])))

end Sys2Proof.Machine
end

