-- ==== Sys2Proof/Machine/Windows.lean ====
section
/-! DEFINITION. The exported window as other modules read and write it: grants' bytes, receiving streams, and the packets of RW_READ and RW_WRITE in their turn (07 R226, R228,
R229, R240; 11 R355, R356). -/

namespace Sys2Proof.Machine

/-- Bytes of a grant read. -/
def State.grantRead (s : State) (g : Grant) (x n : Nat) : List Byte :=
  if g.region = 0 then Mem.read 0 s.tiers.hbm (g.base + x) n else if g.region = 1 then s.flashRead (g.base + x) n else Mem.read 0 s.tiers.pinned (g.base + x) n

/-- Whether a read of a grant's bytes meets a block or word that fails (07 R240). -/
def State.grantBad (s : State) (g : Grant) (x n : Nat) : Bool :=
  if g.region = 0 then s.hbmFails (g.base + x) n else if g.region = 1 then s.flashFails (g.base + x) n else s.cacheWordFails (regionAddr 3 (g.base + x)) n

/-- Bytes of a grant written. -/
def State.grantWrite (s : State) (g : Grant) (x : Nat) (bs : List Byte) : State :=
  if g.region = 0 then s.hbmWrite (g.base + x) bs else if g.region = 1 then s.flashWrite (g.base + x) bs else s.pinnedWrite (g.base + x) bs

/-- Bytes written to pieces of the exported window, in order. -/
def State.exportWrite (s : State) (l : List (Grant × Nat × Nat)) (bs : List Byte) : State :=
  (l.foldl (fun (a : State × List Byte) (p : Grant × Nat × Nat) => (a.1.grantWrite p.1 p.2.1 (a.2.take p.2.2), a.2.drop p.2.2)) (s, bs)).1

/-- The key of what is received on a stream of a peer. -/
def rxKey (src stream : Nat) : Nat := 2 ^ 40 + src * 2 ^ 32 + stream

/-- The answer that a remote request has failed: it names the request's stream (11 R356; log entry 27). -/
def State.rwFails (s : State) (dest stream : Nat) : State := s.launch (s.packet dest 11 stream 0 (2 ^ 64 - 1) stream [])

/-- The answer that a range holds immutable and mutable bytes both, so that it can be neither lent nor moved as a whole (07 R228; log entry 27). -/
def State.rwMixed (s : State) (dest stream : Nat) : State := s.launch (s.packet dest 11 stream 0 (2 ^ 64 - 2) stream [])

/-- The device ranges of pieces of the exported window. -/
def windowRanges (l : List (Grant × Nat × Nat)) : List Range := l.map (fun x => ⟨regionAddr x.1.region (x.1.base + x.2.1), x.2.2⟩)

/-- The pieces a packet's range names: its body's of a write, or the length it carries of a read. -/
def State.rwRange (s : State) (p : Packet) : Option (List (Grant × Nat × Nat)) := s.exportRange p.addr.toNat (if p.ptype = 9#8 then p.body.length else p.aux.toNat)

/-- The move tiles of region 0x01 that T3 must give before a packet's range is read or written (07 R229). -/
def State.rwAbsent (s : State) (p : Packet) : List Nat := if p.ptype = 6#8 then [] else ((windowRanges ((s.rwRange p).getD [])).flatMap (fun x => s.absentTiles x.base x.len)).dedup

/-- The tiles and lines of a packet's range are used (07 R229, R236). -/
def State.rwUse (s : State) (l : List (Grant × Nat × Nat)) (write : Bool) : State := (windowRanges l).foldl (fun s x => s.useRange x.base x.len write) s

/-- A packet of a stream in its turn: a collective's data joins its part, a write lands in the window (11 R356), a read's data goes back on a stream of its own, which carries on the numbers of the request's earlier
answers. A read of mutable bytes vacates them when its answer is acknowledged (07 R226). -/
def State.rwApply (s : State) (p : Packet) : State :=
  let src := p.src.toNat
  if p.ptype = 6#8 then s.clTake p else
  match s.rwRange p with
  | none => s.rwFails src p.stream.toNat
  | some l =>
    if p.ptype = 9#8 then
      if l.any (fun x => x.1.immutable) then s.rwFails src p.stream.toNat else (s.rwUse l true).exportWrite l p.body
    else if l.any (fun x => s.grantBad x.1 x.2.1 x.2.2) then s.rwFails src p.stream.toNat
    else if l.any (fun x => x.1.immutable) && l.any (fun x => !x.1.immutable) then s.rwMixed src p.stream.toNat
    else
      let bs := l.flatMap (fun x => s.grantRead x.1 x.2.1 x.2.2)
      let s := s.rwUse l false
      let k := s.span.nextStream
      let moved := l.any (fun x => !x.1.immutable)
      let first := ((Tab.find s.span.streams (rxKey src p.stream.toNat)).map (·.len)).getD 0
      let parts := streamParts bs
      let s := s.modStream (rxKey src p.stream.toNat) (fun x => { x with len := first + parts.length })
      let s := (s.openStreamAt first src 11 (if moved then 2 ^ 63 + p.stream.toNat else p.stream.toNat) none parts).2
      if moved then s.modStream k (fun x => { x with vacate := some p.addr.toNat }) else s

/-- The request for the tiles that a receiving stream's next packet waits for (07 R229, R239). -/
def State.rwFetch (s : State) (k : Nat) (tiles : List Nat) : State :=
  if (Tab.vals s.tiers.reqs).any (fun q => q.kind = .remote && q.job = k) then s
  else (s.addReq ⟨.remote, 0, k, 0, none, 0#256, 0#64, 0#64, 0, 0, 0#64, 0#64, 0, 0, 0#64, none, .system, tiles, 0, 0, none, none, [], false, 0, tiles, 0⟩).2

/-- The packet of a receiving stream whose turn it is. -/
def TStream.next? (x : TStream) : Option Packet := x.unacked.find? (fun p => p.pseq.toNat = x.nextSeq)

/-- A receiving stream has dealt with a packet. -/
def TStream.took (x : TStream) (p : Packet) : TStream := { x with nextSeq := x.nextSeq + 1, unacked := x.unacked.filter (fun q => q.pseq ≠ p.pseq) }

/-- What is held of a receiving stream applies in PSEQ order (11 R355); one that touches absent tiles of region 0x01 waits for them (07 R229). -/
def State.rxDrain (s : State) (k : Nat) : Nat → State
  | 0 => s
  | n + 1 =>
    match Tab.find s.span.streams k with
    | none => s
    | some x =>
      match x.next? with
      | none => s
      | some p =>
        match s.rwAbsent p with
        | [] => ((s.modStream k (fun x => x.took p)).rwApply p).rxDrain k n
        | ts => s.rwFetch k ts

/-- An ACK of a stream: the last PSEQ received in order and the new window edge (11 R355; log entry 27). -/
def State.ackBack (s : State) (src stream n : Nat) : State :=
  if n = 0 then s else s.launch (s.packet src 8 stream (n - 1) 0 (n * 16096 + 262144) [])

/-- What a receiving stream has dealt with is acknowledged (11 R355). -/
def State.rxAck (s : State) (k : Nat) : State :=
  match Tab.find s.span.streams k with
  | some x => s.ackBack x.peer (k % 2 ^ 32) x.nextSeq
  | none => s

/-- The receiving streams whose tiles have come go on (07 R229; 11 R355). -/
def State.rxResume (s : State) : State :=
  let ready := s.tiers.reqs.filter (fun e => e.2.kind = .remote && e.2.tiles.isEmpty)
  ready.foldl (fun (s : State) (e : Nat × TierReq) =>
    ((s.dropReq e.1).rxDrain e.2.job (((Tab.find s.span.streams e.2.job).map (·.unacked.length)).getD 0)).rxAck e.2.job) s

/-- The request of a receiving stream whose fetch has failed: the packet that waited is answered so, and the stream goes on (07 R240; 11 R356). -/
def State.rxFails (s : State) (q : TierReq) : State :=
  match (Tab.find s.span.streams q.job).bind (fun x => x.next?.map (fun p => (x, p))) with
  | none => s
  | some (x, p) =>
    (((s.modStream q.job (fun x => x.took p)).rwFails p.src.toNat p.stream.toNat).rxDrain q.job x.unacked.length).rxAck q.job

end Sys2Proof.Machine
end

