-- ==== Sys2Proof/Machine/Moves.lean ====
section
/-! DEFINITION. The MV operations, the end of tier requests, and stream prefetchers (06 R209; 07 R225 to R244, R248, R252). -/

namespace Sys2Proof.Machine

/-! ## Fields (06 R209). -/

def mvOp (r : BitVec 256) : Nat := fld r 0 8
def mvSrc (r : BitVec 256) : Nat := fld r 32 5
def mvDst (r : BitVec 256) : Nat := fld r 37 5
def mvLen (r : BitVec 256) : Nat := fld r 42 32
def mvTranspose (r : BitVec 256) : Bool := flag r 74
def mvEfmt (r : BitVec 256) : Nat := fld r 75 4
def mvRows (r : BitVec 256) : Nat := fld r 79 13
def mvCols (r : BitVec 256) : Nat := fld r 92 13
def mvReblock (r : BitVec 256) : Bool := flag r 105
/-- The format REBLOCK makes: BI4 or BI8. -/
def mvRbFmt (r : BitVec 256) : Nat := if flag r 106 then 10 else 9
def mvRotary (r : BitVec 256) : Bool := flag r 107
def mvPos (r : BitVec 256) : Nat := fld r 108 5
def mvScales (r : BitVec 256) : Bool := flag r 113
def mvSsrc (r : BitVec 256) : Nat := fld r 114 5
def mvSdst (r : BitVec 256) : Nat := fld r 119 5
def mvDeadline (r : BitVec 256) : Nat := fld r 124 16

/-- Elements of the source. -/
def mvElems (r : BitVec 256) : Nat := 8 * mvLen r / fmtBits (mvEfmt r)

/-- Whether a move transposes: its LEN is the bytes of its rows and columns, and it is performed without transposing where it is not (07 R243). -/
def mvTurns (r : BitVec 256) : Bool := mvTranspose r && mvLen r * 8 = mvRows r * mvCols r * fmtBits (mvEfmt r)

/-- Whether the side registers are in use: SCALES, a blocked format, or REBLOCK (07 R244). -/
def mvSided (r : BitVec 256) : Bool := mvScales r || mvReblock r || blocked (mvEfmt r)

/-- Whether an MV record obeys the rules its own fields decide (06 R209, 07 R243, R244). -/
def mvOk (r : BitVec 256) : Bool :=
  let f := mvEfmt r
  fld r 140 116 = 0 && fld r 29 3 = 0 && mvLen r % 32 = 0 && f ≠ 15 &&
  (mvSided r || (mvSsrc r = 0 && mvSdst r = 0)) &&
  (if mvOp r = 3 ∨ mvOp r = 4 then mvDst r = 0
   else
    (!(mvTranspose r && blocked f) || mvReblock r) &&
    (!mvReblock r || (if mvTranspose r then mvRows r % 32 = 0 else mvElems r % 32 = 0)))

/-! ## Cache tiles (07 R246, R248, R252). -/

/-- The cache whose tile the 64 KiB from a device address are, with the tile's number in it (07 R246). -/
def State.tileCache (s : State) (a : Nat) : Option (Cache × Nat) :=
  if a % 65536 ≠ 0 ∨ a / 2 ^ 56 ≠ 1 then none
  else
    let o := a % 2 ^ 56
    ((Tab.vals s.serv.caches).find? (fun (c : Cache) => c.dataBase ≤ o && o < c.dataBase + 65536 * c.count)).map (fun c => (c, (o - c.dataBase) / 65536))

/-- The whole cache tiles in n bytes from a device address, as offsets from it with each tile's cache and number (07 R248, R252). -/
def State.cacheTilesIn (s : State) (a n : Nat) : List (Nat × Cache × Nat) :=
  let lo := wholeTiles a
  if a / 2 ^ 56 ≠ 1 ∨ s.serv.caches.isEmpty ∨ a + n < lo + 65536 then []
  else (List.range ((a + n - lo) / 65536)).filterMap (fun i => (s.tileCache (lo + 65536 * i)).map (fun c => (lo + 65536 * i - a, c)))

/-- Whether n bytes from a device address are whole cache tiles (07 R248). -/
def State.wholeCache (s : State) (a n : Nat) : Bool := n ≠ 0 && a % 65536 = 0 && n % 65536 = 0 && (s.cacheTilesIn a n).length = n / 65536

/-- Whether the side array is the exponent blocks of a source of whole cache tiles (07 R246, R248). -/
def State.matchingExps (s : State) (src n ssrc : Nat) : Bool :=
  (s.cacheTilesIn src n).all (fun x => ssrc + x.1 / 16 = regionAddr 1 (x.2.1.expBase + 4096 * x.2.2))

/-- Whether a move lands cache tiles in bench layout (07 R248). -/
def State.benchLayout (s : State) (r : BitVec 256) (src ssrc dst : Nat) : Bool :=
  mvScales r && s.wholeCache src (mvLen r) && s.matchingExps src (mvLen r) ssrc && dst / 2 ^ 56 = 2 && dst % 1024 = 0

/-- Bytes of the source side array: exponent blocks of cache tiles, exponents of a blocked tensor, or scale entries, one per 32 elements (07 R244, R248; log entry 40). -/
def State.sideLen (s : State) (r : BitVec 256) (src : Nat) : Nat :=
  if mvScales r ∧ s.wholeCache src (mvLen r) then mvLen r / 16
  else if mvScales r ∧ ¬ (blocked (mvEfmt r) ∧ !mvReblock r) then 8 * ceilDiv (mvElems r) 32
  else if blocked (mvEfmt r) then ceilDiv (mvElems r) 32
  else 0

/-- Bytes written at the destination. -/
def State.destLen (s : State) (r : BitVec 256) (src ssrc dst : Nat) : Nat :=
  if s.benchLayout r src ssrc dst then mvLen r / 65536 * 98304
  else if mvReblock r then mvElems r * fmtBits (mvRbFmt r) / 8
  else mvLen r

/-- Bytes written at the side destination. -/
def State.sideDestLen (s : State) (r : BitVec 256) (src ssrc dst : Nat) : Nat :=
  if s.benchLayout r src ssrc dst then 0 else if mvReblock r then mvElems r / 32 else s.sideLen r src

/-! ## The rotary stage (07 R252). -/

/-- The bytes of a list from an offset on replaced. -/
def splice (l : List Byte) (o : Nat) (x : List Byte) : List Byte := l.take o ++ x ++ l.drop (o + x.length)

/-- Every whole cache tile of a move rotated, with its exponents where they stand in the side array; other bytes as they are (07 R252). -/
def rotateTiles (delta : W64) : List (Nat × Cache × Nat) → List Byte × List Byte × Nat → List Byte × List Byte × Nat
  | [], x => x
  | (o, c, _) :: l, x =>
    let y := rotateTile c.model delta ((x.1.drop o).take 65536) ((x.2.1.drop (o / 16)).take 4096)
    rotateTiles delta l (splice x.1 o y.1, splice x.2.1 (o / 16) y.2.1, x.2.2 + y.2.2)

/-! ## What lands (07 R243, R244, R248). -/

/-- The source element that destination element i is. -/
def mvSource (r : BitVec 256) (i : Nat) : Nat := if mvTurns r then i % mvRows r * mvCols r + i / mvRows r else i

/-- The real value of destination element i, from its format and entry, or its mantissa and exponent; a mantissa with an entry is a code like any other (07 R244; 05 R161,
R173; log entry 40). -/
def mvValue (r : BitVec 256) (data side : List Byte) (i : Nat) : Num :=
  let j := mvSource r i
  let f := mvEfmt r
  if blocked f && !mvScales r then ofBlock (intValue f (elemAt f data j)) (e8 (side.getD (j / 32) 0#8))
  else if mvScales r then
    let e := ScaleE.ofNat (fieldAt side (8 * (i / 32)) 8)
    if fmtFloat f then (decodeFmt f (elemAt f data j)).mul (num32 e.scale)
    else (Num.ofInt (intValue f (elemAt f data j) - e.zp)).mul (num32 e.scale)
  else decodeFmt f (elemAt f data j)

/-- Re-blocking: mantissas, exponents, saturations (05 R152, 07 R244). -/
def mvBlocks (r : BitVec 256) (data side : List Byte) : List Byte × List Byte × Nat :=
  let w := if mvRbFmt r = 10 then 8 else 4
  let bs := (List.range (mvElems r / 32)).map (fun b => toBlock .even w ((List.range 32).map (fun i => mvValue r data side (32 * b + i))))
  (packElems (mvRbFmt r) (bs.flatMap (fun b => b.2.1.map (wrapTo w))), bs.map (fun b => e8Code b.1), (bs.map (fun b => b.2.2)).foldl (· + ·) 0)

/-- What a move writes at its destination and its side destination, with the saturations it counts. Every whole cache tile of a move with ROTARY is rotated: under the exponents that
stand in the side array where it is that of the tiles, or else under those of the cache itself (07 R252; log entry 40). -/
def State.landing (s : State) (q : TierReq) (data side : List Byte) : List Byte × List Byte × Nat :=
  let r := q.rcd
  let tiles := s.cacheTilesIn q.src.toNat q.len
  let x :=
    if !mvRotary r then (data, side, 0)
    else if side.length = q.len / 16 then rotateTiles q.pos tiles (data, side, 0)
    else
      let own := tiles.foldl (fun (e : List Byte) t => splice e (t.1 / 16) (s.flashRead (t.2.1.expBase + 4096 * t.2.2) 4096)) (zeros (ceilDiv q.len 16 + 4096))
      let y := rotateTiles q.pos tiles (data, own, 0)
      (y.1, side, y.2.2)
  if s.benchLayout r q.src.toNat q.ssrc.toNat q.dst.toNat then
    ((List.range (q.len / 65536)).flatMap (fun i => benchTile ((x.1.drop (65536 * i)).take 65536) ((x.2.1.drop (4096 * i)).take 4096)), [], x.2.2)
  else if mvReblock r then
    let b := mvBlocks r x.1 x.2.1
    (b.1, b.2.1, b.2.2 + x.2.2)
  else if mvTurns r then
    (packElems (mvEfmt r) ((List.range (mvElems r)).map (fun i => elemAt (mvEfmt r) x.1 (mvSource r i))), x.2.1, x.2.2)
  else x

/-! ## Issue (06 R188 to R190; 07 R228, R238). -/

/-- Whether every byte from a place on is immutable: lent lines of the core window, an immutable grant's, or a context cache's (07 R225, R227). Another module's bytes are
taken for lent until its answer says that they were moved (log entry 27). -/
def State.spotLent (s : State) (th : Thread) (x : Place × Nat) : Bool :=
  let held := fun (region o : Nat) => x.2 ≠ 0 && (List.range ((o + x.2 - 1) / 65536 + 1 - o / 65536)).all (fun i => s.tileImmutable (regionAddr region o / 65536 + i))
  match x.1 with
  | .win o => (s.gangOf? th).elim false (fun g => x.2 ≠ 0 && (List.range ((o + x.2 - 1) / 1024 + 1 - o / 1024)).all (fun i => (o / 1024 + i) ∈ s.winMarks g))
  | .hbm o => held 0 o
  | .flash o => held 1 o
  | .remote _ _ => true
  | _ => false

/-- Whether every byte of a range is immutable. -/
def State.rangeLent (s : State) (th : Thread) (a n : Nat) : Bool :=
  match s.resolve th a n .moveSrc with
  | .ok l => l.all (s.spotLent th)
  | .error _ => false

/-- A remote address: its module and offset. -/
def State.remoteOf (s : State) (a : Nat) : Option (Nat × Nat) :=
  let c := a / 2 ^ 56 % 256
  if 0x40 ≤ c ∧ c ≤ 0xBF ∧ c - 0x40 ≠ s.moduleNumber then some (c - 0x40, a % 2 ^ 56) else none

/-- A remote range against the last window size its member advertised (11 R356). -/
def State.remoteFits (s : State) (a n : Nat) : Bool :=
  match s.remoteOf a with
  | some (m, off) => s.viewOf m = .notMember || off + n ≤ ((Tab.find s.span.members m).map (·.window)).getD 0
  | none => true

/-- The fault of one range of an MV operation. -/
def State.mvFault (s : State) (th : Thread) (a n : Nat) (k : Access) : Option FaultCode :=
  if n = 0 then none
  else
    match s.addrFault th a n k with
    | some f => some f
    | none => if s.remoteFits a n then none else some .address

/-- Whether an operation moves: MV_MOVE, or MV_LEND of a mutable source (07 R228). -/
def State.mvMoves (s : State) (th : Thread) (r : BitVec 256) : Bool :=
  mvOp r = 1 || (mvOp r = 2 && !s.rangeLent th (th.reg (mvSrc r)).toNat (mvLen r))

/-- The source, the destination and the two side ranges of an operation. -/
def State.mvSpans (s : State) (th : Thread) (r : BitVec 256) : List Range :=
  let src := (th.reg (mvSrc r)).toNat
  let dst := (th.reg (mvDst r)).toNat
  let ssrc := (th.reg (mvSsrc r)).toNat
  if mvOp r = 3 ∨ mvOp r = 4 then [⟨src, mvLen r⟩]
  else [⟨src, mvLen r⟩, ⟨dst, s.destLen r src ssrc dst⟩, ⟨ssrc, s.sideLen r src⟩, ⟨(th.reg (mvSdst r)).toNat, s.sideDestLen r src ssrc dst⟩]

/-- The ranges an operation touches, its module's own window by the grants behind it (06 R187, R190). -/
def State.mvRanges (s : State) (th : Thread) (r : BitVec 256) : List Range := (s.mvSpans th r).flatMap (fun x => s.homeRanges x.base x.len)

/-- Whether a loan's destination is one a loan may have: the core window or a grant, not the privileged space (07 R228; log entry 73). A loan whose source is mutable is a move and
may go there; of another module's bytes that is not known before its answer. -/
def lendsWell (r : BitVec 256) (moves far : Bool) (dst : Nat) : Bool := mvOp r ≠ 2 || moves || far || dst / 2 ^ 56 ≠ 0xFF

/-- The faults of R188 at issue; the source of a move must be writable, since vacating writes it (07 R228). -/
def State.mvCheck (s : State) (th : Thread) (r : BitVec 256) : Option (FaultCode × Nat) :=
  let spans := s.mvSpans th r
  let moves := s.mvMoves th r
  let at_ := fun (i : Nat) => spans.getD i ⟨0, 0⟩
  let one := fun (i : Nat) (k : Access) => s.mvFault th (at_ i).base (at_ i).len k
  let found := [one 0 .moveSrc, if moves then one 0 .moveDst else none, one 1 .moveDst, one 2 .moveSrc, if moves then one 2 .moveDst else none, one 3 .moveDst]
  (found.findSome? id <|> if lendsWell r moves (s.remoteOf (at_ 0).base).isSome (at_ 1).base then none else some FaultCode.address).map (fun f => (f, 0))

/-- A stream that reads a remote range, for a range that is remote (11 R355, R356). -/
def State.readFar (s : State) (req a n : Nat) : Option Nat × State :=
  match s.remoteOf a with
  | some (m, off) => if n = 0 then (none, s) else
    let x := s.openStream m 10 0 (some req) [(off, leBytes 8 n)]
    (some x.1, x.2)
  | none => (none, s)

/-- The stream, or streams, that read a source and its side array where they are remote: one for both where one module holds them (11 R355). -/
def State.readBoth (s : State) (req : Nat) (src side : Range) : Option Nat × Option Nat × State :=
  match s.remoteOf src.base, s.remoteOf side.base with
  | some a, some b =>
    if a.1 = b.1 ∧ src.len ≠ 0 ∧ side.len ≠ 0 then
      let x := s.openStream a.1 10 0 (some req) [(a.2, leBytes 8 src.len), (b.2, leBytes 8 side.len)]
      (some x.1, some x.1, x.2)
    else
      let x := s.readFar req src.base src.len
      let y := x.2.readFar req side.base side.len
      (x.1, y.1, y.2)
  | _, _ =>
    let x := s.readFar req src.base src.len
    let y := x.2.readFar req side.base side.len
    (x.1, y.1, y.2)

/-- A module outside the span that one of some ranges names (06 R189). -/
def State.stranger (s : State) (spans : List Range) : Option Nat :=
  spans.findSome? (fun x => if x.len = 0 then none else (s.remoteOf x.base).bind (fun p => if s.viewOf p.1 = .notMember then some p.1 else none))

/-- An MV operation issues: it becomes a tier request (a prefetch is none) under its deadline, and fetches what T3 must give (07 R238, R239, R242). -/
def State.tierMove (s : State) (t op : Nat) : State :=
  s.issue t op s.mvRanges s.mvCheck (fun th r s0 =>
    let spans := s.mvSpans th r
    match s.stranger spans with
    | some m => s0.endJobFor th.job .spanMemberLost m
    | none =>
      let at_ := fun (i : Nat) => spans.getD i ⟨0, 0⟩
      let kind := if mvOp r = 3 then ReqKind.drop else if mvOp r = 4 then .fetching else if s.mvMoves th r then .move else .lend
      let jobDeadline := ((s0.job? th.job).bind (·.deadline))
      let deadline := if mvDeadline r = 0 then jobDeadline else some (s0.tick + 25 * mvDeadline r)
      let tiles := if mvOp r = 3 then [] else (spans.flatMap (fun x => s0.absentTiles x.base x.len)).dedup
      let ident := s0.compute.nextIdent
      let s1 := (s0.fly t (s.mvRanges th r)).modThread t (fun x => x.setting r .move)
      let q : TierReq := ⟨kind, t, th.job, ident, if setH r then some (handleOf r) else none, r, th.reg (mvSrc r), th.reg (mvDst r), mvLen r, (at_ 1).len,
        th.reg (mvSsrc r), th.reg (mvSdst r), (at_ 2).len, (at_ 3).len, th.reg (mvPos r), deadline, ((s0.job? th.job).map (·.cls)).getD .system, tiles, 0, 0, none, none, [], false, th.pc, tiles, 0⟩
      let x := s1.addReq q
      let far := if mvOp r = 1 ∨ mvOp r = 2 then x.2.readBoth x.1 (at_ 0) (at_ 2) else (none, none, x.2)
      let s2 := far.2.2.modTiers (fun y => { y with reqs := Tab.change y.reqs x.1 (fun q => { q with remote := far.1, sideRemote := far.2.1 }) })
      if mvOp r = 1 ∨ mvOp r = 2 then (spans.flatMap s.rangeTiles).foldl (fun s y => s.noteAccess t y) s2 else s2)

/-- MV_MOVE (07 R228). -/
def execMvMove (t : Nat) (s : State) : Host.Outcome State Fault Refusal := .next (s.tierMove t 0x0401)
/-- MV_LEND (07 R227, R228). -/
def execMvLend (t : Nat) (s : State) : Host.Outcome State Fault Refusal := .next (s.tierMove t 0x0402)
/-- MV_DROP (07 R228). -/
def execMvDrop (t : Nat) (s : State) : Host.Outcome State Fault Refusal := .next (s.tierMove t 0x0403)
/-- MV_PREFETCH (07 R242). -/
def execMvPrefetch (t : Nat) (s : State) : Host.Outcome State Fault Refusal := .next (s.tierMove t 0x0404)

/-! ## Completion (07 R226 to R230, R240). -/

/-- The data a request's range holds: brought by its stream, after `skip` bytes of another range of its own, or read here. -/
def State.rangeData (s : State) (th : Thread) (stream : Option Nat) (skip a n : Nat) : List Byte :=
  if n = 0 then []
  else
    match stream with
    | some k => (((((Tab.find s.span.streams k).map (·.waiting)).getD []).flatMap (·.2)).drop skip).take n
    | none =>
      match s.resolve th a n .moveSrc with
      | .ok l => s.spotsRead th l
      | .error _ => []

/-- Whether a range's stream, if any, has brought all of it. -/
def State.rangeHere (s : State) (stream : Option Nat) (n : Nat) : Bool :=
  match stream with
  | some k => n ≤ (((Tab.find s.span.streams k).map (·.waiting)).getD []).foldl (fun a x => a + x.2.length) 0
  | none => true

/-- Whether a source range of this module meets a block or word that fails every read (07 R240; 14 R463, R465). -/
def State.rangeBad (s : State) (th : Thread) (a n : Nat) : Bool :=
  match s.resolve th a n .moveSrc with
  | .ok l => s.spotsBad th l
  | .error _ => false

/-- The move tiles of a request, those of a window by its gang. -/
def State.tileKeys (s : State) (q : TierReq) : List (Nat × Nat × Nat) :=
  let gang := ((s.thread? q.thread).map (fun th => (th.job, th.gang))).getD (0, 0)
  (s.reqTiles q).map (fun y => (y, if y / 2 ^ 40 = 2 then gang else (0, 0)))

/-- Whether no earlier move of one of the same move tiles, side arrays among them, is still going (07 R230). -/
def State.tileOrder (s : State) (k : Nat) (q : TierReq) : Bool :=
  let mine := s.tileKeys q
  s.tiers.reqs.all (fun e => e.1 = k || !(e.2.kind = .move || e.2.kind = .lend) || q.order ≤ e.2.order || (s.tileKeys e.2).all (fun y => y ∉ mine))

/-- Whether the tier mover of a quarter has all it needs to serve a move: its tiles and data are here, and no earlier move of its tiles is still going (07 R230; 08 R275). -/
def State.servable (s : State) (k : Nat) (q : TierReq) : Bool :=
  (q.kind = .move || q.kind = .lend) && q.tiles.isEmpty && !q.sent && s.rangeHere q.remote q.len
    && s.rangeHere q.sideRemote (if q.remote = q.sideRemote then q.len + q.slen else q.slen) && s.tileOrder k q

/-- Of two requests of a tier mover, whether the first is served before the second: one that has waited 20 µs first, the oldest of those; then by the effective class of its
thread (08 R275). -/
def State.servedBefore (s : State) (a b : TierReq) : Bool :=
  let aged := fun (q : TierReq) => decide (q.since + 20 * usUnits ≤ s.now)
  let cls := fun (q : TierReq) => ((s.thread? q.thread).map s.threadCls).getD q.cls
  if aged a then !aged b || a.order < b.order else !aged b && (cls a).above (cls b)

/-- The tier mover that serves a request, the one of the quarter of its thread's core (07 R231). -/
def State.moverOf (s : State) (q : TierReq) : Option QuarterNo := (s.coreOf q.thread).map coreQuarter

/-- Whether a move is the next of its tier mover: no earlier one of the same move tiles is still going, and none that the mover could serve now comes before it (07 R230;
08 R275; log entry 140). -/
def State.tileTurn (s : State) (k : Nat) (q : TierReq) : Bool :=
  s.tileOrder k q && s.tiers.reqs.all (fun e => e.1 = k || s.moverOf e.2 ≠ s.moverOf q || !s.servable e.1 e.2 || !s.servedBefore e.2 q)

/-- Bytes written at a device address of this module. -/
def State.land (s : State) (th : Thread) (a : Nat) (bs : List Byte) : State :=
  if bs.isEmpty then s
  else
    match s.resolve th a bs.length .moveDst with
    | .ok l => s.spotsWrite th l bs
    | .error _ => s

/-- Whole lines of a loan into the core window are marked read-only (07 R227). -/
def State.markLoan (s : State) (th : Thread) (a n : Nat) : State :=
  if a / 2 ^ 56 ≠ 2 then s
  else
    let o := a % 2 ^ 56
    let lo := ceilDiv o 1024
    let hi := (o + n) / 1024
    s.markWin th.job th.gang (fun l => (l ++ (List.range (hi - lo)).map (· + lo)).dedup)

/-- A vacated range: every byte undefined, and its whole move tiles leave T1 and T2 (07 R226). A remote source is vacated by its own module. -/
def State.vacate (s : State) (th : Thread) (a n : Nat) : State :=
  if (s.remoteOf a).isSome then s else (s.homeRanges a n).foldl State.releaseTiles (s.smearAt th a n)

/-- A request's streams are closed. -/
def State.closeStreams (s : State) (q : TierReq) : State :=
  s.modSpan (fun x => { x with streams := x.streams.filter (fun e => some e.1 ≠ q.remote && some e.1 ≠ q.sideRemote) })

/-- A request whose operation faults: it has no effect, and its job stops (06 R188, R216). -/
def State.reqFaults (s : State) (k : Nat) (code : FaultCode) : State :=
  match Tab.find s.tiers.reqs k with
  | none => s
  | some q => (((s.closeStreams q).dropReq k).reqLands q).fault q.thread q.pc code 0

/-- Whether a request is a move. -/
def State.reqMoves (s : State) (k : Option Nat) : Bool := ((k.bind (Tab.find s.tiers.reqs)).map (fun q => decide (q.kind = .move))).getD false

/-- The fault of a move or a loan whose turn has come: a line lent since its issue where it writes, or a loan that goes to the privileged space (06 R188; 07 R227, R228). -/
def State.landFault (s : State) (th : Thread) (q : TierReq) : Option FaultCode :=
  let one := fun (a n : Nat) => if (s.remoteOf a).isSome then none else s.addrFault th a n .moveDst
  let moves := q.kind = .move
  one q.dst.toNat q.dlen <|> one q.sdst.toNat q.sdlen <|> (if moves then one q.src.toNat q.len <|> one q.ssrc.toNat q.slen else none)
    <|> (if lendsWell q.rcd moves false q.dst.toNat then none else some .address)

/-- The runs of a window that hold bytes moved from the master-weight region of the adaptation that trains, after a move (05 R160; log entry 36). -/
def State.noteMasters (s : State) (th : Thread) (q : TierReq) : State :=
  let window := fun (a : Nat) => decide (a / 2 ^ 56 = 2)
  let fromMaster := (s.serv.adapt.map (fun x => q.kind = .move && x.state = 1 && x.kind ≠ 4
    && (s.homeRanges q.src.toNat q.len).all (fun y => regionAddr 0 x.master ≤ y.base && y.base + y.len ≤ regionAddr 0 x.master + x.masterLen))).getD false
  if (window q.dst.toNat && fromMaster) || (((s.gangOf? th).map (fun g => !g.masters.isEmpty)).getD false) then
    s.modGang th.job th.gang (fun g =>
      let l := if q.kind = .move && window q.src.toNat then g.masters.flatMap (cutRange (q.src.toNat % 2 ^ 56) q.len) else g.masters
      let l := if window q.dst.toNat then l.flatMap (cutRange (q.dst.toNat % 2 ^ 56) q.dlen) else l
      { g with masters := if window q.dst.toNat && fromMaster then l ++ [(q.dst.toNat % 2 ^ 56, q.dlen)] else l })
  else s

/-- A request ends well. -/
def State.reqDone (s : State) (k : Nat) (q : TierReq) : State := (((s.closeStreams q).dropReq k).reqLands q).settle q.job

/-- A drop: a window's marks on the range are cleared and its bytes become undefined; at an immutable home address the lent copies go (07 R228). -/
def State.dropLoan (s : State) (th : Thread) (a n : Nat) : State :=
  if n = 0 then s
  else if a / 2 ^ 56 = 2 then
    let o := a % 2 ^ 56
    (if (s.gangOf? th).elim false (fun g => s.winLocked g o n) then
      let s := s.markWin th.job th.gang (fun l => l.filter (fun x => x < o / 1024 || (o + n - 1) / 1024 < x))
      s.smearAt th a n
    else s)
  else if s.rangeLent th a n then
    (s.homeRanges a n).foldl (fun (s : State) (x : Range) => s.modTiers (fun y => { y with
      t2 := y.t2.filter (fun e => !(e.2.lent && e.1 ∈ tilesOf x.base x.len))
      lines := y.lines.filter (fun e => !(x.base < (e.1 + 1) * 128 && e.1 * 128 < x.base + x.len)) })) s
  else s

/-- A prefetch completes: region 0x00 lines come into the class's ways (07 R234, R242); one of a tile that T3 has lost is abandoned (07 R240, R242). -/
def State.prefetchDone (s : State) (k : Nat) (q : TierReq) : State :=
  let grant := fun (o : Nat) => (Tab.vals s.tiers.grants).find? (fun g => g.region = 0 && g.base ≤ o && o < g.base + g.len)
  let lines := ((s.homeRanges q.src.toNat q.len).filter (fun x => x.base / 2 ^ 56 = 0 && x.len ≠ 0)).flatMap (fun x =>
    (List.range ((x.base + x.len - 1) / 128 + 1 - x.base / 128)).map (fun i => x.base / 128 + i))
  let lost := (s.homeRanges q.src.toNat q.len).any (fun x => x.base / 2 ^ 56 = 1 && (tilesOf x.base x.len).any s.tileLost)
  if lost then s.reqFails k .tierFailed
  else
  (lines.foldl (fun (s : State) (l : Nat) =>
    match grant (128 * l) with
    | some g => s.allocLine q.cls (s.quarterOf g (128 * l)) l false true
    | none => s) s).reqDone k q

/-! ## Scale entries that travel with their data (05 R163, R165). -/

/-- The key and offset a scale site knows a place by: a gang's window, or a device address of this module. -/
def entryKey (th : Thread) : Place → Option (Nat × Nat)
  | .win o => some (gangKey th.job th.gang + 1, o)
  | .hbm o => some (0, regionAddr 0 o)
  | .flash o => some (0, regionAddr 1 o)
  | .pinned o => some (0, regionAddr 3 o)
  | _ => none

/-- How far into a range an entry lies. -/
def entryPos (th : Thread) (e : Nat × Nat) : Spots → Nat → Option Nat
  | [], _ => none
  | x :: l, pos =>
    match entryKey th x.1 with
    | some k => if k.1 = e.1 ∧ k.2 ≤ e.2 ∧ e.2 + 8 ≤ k.2 + x.2 then some (pos + (e.2 - k.2)) else entryPos th e l (pos + x.2)
    | none => entryPos th e l (pos + x.2)

/-- The place that far into a range. -/
def entryAt (th : Thread) (pos : Nat) : Spots → Option (Nat × Nat)
  | [] => none
  | x :: l => if pos < x.2 then (entryKey th x.1).map (fun k => (k.1, k.2 + pos)) else entryAt th (pos - x.2) l

/-- Entries of scale sites in a source side array go with it to the destination side array, or are copied there (05 R163). -/
def State.carryEntries (s : State) (th : Thread) (src dst : Spots) (moved : Bool) : State :=
  s.modCompute (fun c => { c with sites := Tab.changeAll c.sites (fun x => { x with entries :=
    (x.entries.flatMap (fun e =>
      match entryPos th e src 0 with
      | none => [e]
      | some p => (if moved then [] else [e]) ++ (entryAt th p dst).toList)).dedup }) })

/-- The entries of a request's side arrays: those of scale tensors alone. -/
def State.moveEntries (s : State) (q : TierReq) (th : Thread) : State :=
  if mvScales q.rcd && !mvReblock q.rcd && q.slen = q.sdlen && q.slen ≠ 0 then
    match s.resolve th q.ssrc.toNat q.slen .moveSrc, s.resolve th q.sdst.toNat q.sdlen .moveDst with
    | .ok a, .ok b => s.carryEntries th a b (q.kind = .move)
    | _, _ => s
  else s

/-- The streams that take what a move writes to other modules: one for data and side data where they go to one module (11 R355). -/
def State.writeBoth (s : State) (req : Nat) (dst side : Nat × List Byte) : List Nat × State :=
  let parts := fun (off : Nat) (bs : List Byte) => (streamParts bs).map (fun p => (off + p.1, p.2))
  let far := fun (s : State) (x : Nat × List Byte) =>
    match s.remoteOf x.1 with
    | some (m, off) => if x.2.isEmpty then ([], s) else
      let y := s.openStream m 9 off (some req) (streamParts x.2)
      ([y.1], y.2)
    | none => (([] : List Nat), s)
  match s.remoteOf dst.1, s.remoteOf side.1 with
  | some a, some b =>
    if a.1 = b.1 ∧ !dst.2.isEmpty ∧ !side.2.isEmpty then
      let y := s.openStream a.1 9 0 (some req) (parts a.2 dst.2 ++ parts b.2 side.2)
      ([y.1], y.2)
    else
      let x := far s dst
      let y := far x.2 side
      (x.1 ++ y.1, y.2)
  | _, _ =>
    let x := far s dst
    let y := far x.2 side
    (x.1 ++ y.1, y.2)

/-- A move's or a loan's data and side data land; what goes to another module leaves on streams, and the move ends when they are acknowledged. -/
def State.moveLands (s : State) (k : Nat) (q : TierReq) (th : Thread) : State :=
  let data := s.rangeData th q.remote 0 q.src.toNat q.len
  let side := s.rangeData th q.sideRemote (if q.remote = q.sideRemote then q.len else 0) q.ssrc.toNat q.slen
  let out := s.landing q data side
  let x := s.writeBoth k (q.dst.toNat, out.1) (q.sdst.toNat, out.2.1)
  if x.1 ≠ [] ∧ ¬ q.sent then x.2.modTiers (fun t => { t with reqs := Tab.change t.reqs k (fun q => { q with outs := x.1, sent := true }) })
  else
    match s.landFault th q with
    | some f => s.reqFaults k f
    | none =>
    let s := (s.useRange q.src.toNat q.len false).useRange q.ssrc.toNat q.slen false
    let s := (s.moveEntries q th).noteMasters th q
    let s := if q.kind = .move then (s.vacate th q.src.toNat q.len).vacate th q.ssrc.toNat q.slen else s
    let s := ((s.land th q.dst.toNat out.1).land th q.sdst.toNat out.2.1).useRange q.dst.toNat q.dlen true |>.useRange q.sdst.toNat q.sdlen true
    let s := if q.kind = .lend then (s.markLoan th q.dst.toNat q.dlen).markLoan th q.sdst.toNat q.sdlen else s
    let core : Option CoreNo := (s.gangOf? th).map (·.core)
    let s := match core with
      | some c => s.saturated c th.job out.2.2
      | none => s
    s.reqDone k q

/-- Whether ROTARY names the cache of a model that is not loaded (07 R252). -/
def State.rotaryLost (s : State) (q : TierReq) : Bool :=
  mvRotary q.rcd && (s.cacheTilesIn q.src.toNat q.len).any (fun x => !((Tab.find s.serv.models x.2.1.model.toNat).elim false (·.loaded)))

/-- MV_COMPLETE (07 R226 to R230, R238, R240; 14 R461): a request whose tiles and data are all here is performed, or ends late or failed. -/
def execMvComplete (r : ReqEnd) (s : State) : Host.Outcome State Fault Refusal :=
  match Tab.find s.tiers.reqs r.req with
  | none => .next s
  | some q =>
    match s.thread? q.thread with
    | none => .next s
    | some th =>
      if q.kind = .pageIn ∨ q.kind = .service ∨ q.kind = .remote ∨ q.tiles ≠ [] then .next s
      else if (q.deadline.map (fun d => decide (d < s.tick))).getD false then .next (s.reqFails r.req .tierLate)
      else
        match q.kind with
        | .fetching => .next (s.prefetchDone r.req q)
        | .drop => .next ((s.dropLoan th q.src.toNat q.len).reqDone r.req q)
        | _ =>
          if !(s.rangeHere q.remote q.len && s.rangeHere q.sideRemote (if q.remote = q.sideRemote then q.len + q.slen else q.slen) && s.tileTurn r.req q) then .next s
          else if q.sent && q.outs.any (fun k => Tab.has s.span.streams k) then .next s
          else if s.rotaryLost q || s.rangeBad th q.src.toNat q.len || s.rangeBad th q.ssrc.toNat q.slen then .next (s.reqFails r.req .tierFailed)
          else if r.parity.lost then .next ((s.pathError r.parity).reqFails r.req .tierFailed)
          else .next ((s.pathError r.parity).moveLands r.req q th)

/-! ## Fetches, deadlines and prefetchers (07 R238 to R242). -/

/-- A page-in whose tile has come, or a service's read whose tiles have, is over: its scalar access issues when its thread next does, its command goes on; one whose deadline has
passed ends late (07 R238). What another module's move waited for goes on (07 R229). -/
def State.pagedIn (s : State) : State :=
  let late := s.tiers.reqs.filter (fun e => (e.2.kind = .pageIn || e.2.kind = .service) && e.2.tiles.isEmpty && (e.2.deadline.map (fun d => decide (d < s.tick))).getD false)
  let s := (late.foldl (fun (s : State) (e : Nat × TierReq) => s.reqFails e.1 .tierLate) s).rxResume
  s.modTiers (fun t => { t with reqs := t.reqs.filter (fun e => !((e.2.kind = .pageIn || e.2.kind = .service) && e.2.tiles.isEmpty)) })

/-- A fetch that fails ends its requests, and what another module's packet waited for is answered so (07 R239, R240; 11 R356). -/
def State.fetchLost (s : State) (f : Fetch) (lost : Bool) : State :=
  let far := f.reqs.filterMap (fun k => (Tab.find s.tiers.reqs k).filter (fun q => q.kind = .remote))
  far.foldl State.rxFails (s.fetchFails f lost)

/-- TIER_FETCH_COMPLETE (07 R239, R240; 14 R461): the request's first fetch ends, for every request that shares it; one whose repeat fails its parity too has failed. -/
def execTierFetchComplete (r : ReqEnd) (ends : FetchEnd) (s : State) : Host.Outcome State Fault Refusal :=
  match Tab.find s.tiers.reqs r.req with
  | none => .next s
  | some q =>
    match s.tiers.fetches.find? (fun f => f.tile ∈ q.tiles) with
    | none => .next s
    | some f =>
      if ends ≠ .good then .next (s.fetchLost f (ends = .uncorrectable))
      else if r.parity.lost then .next ((s.pathError r.parity).fetchLost f false)
      else .next (((s.pathError r.parity).fetchDone f).pagedIn)

/-- TIER_DEADLINE (07 R238, R240, R242): the request ends late; a prefetch is abandoned. Time comes to the tick after the deadline. -/
def execTierDeadline (req : Nat) (s : State) : Host.Outcome State Fault Refusal :=
  match (Tab.find s.tiers.reqs req).bind (·.deadline) with
  | none => .next s
  | some d => .next ((s.at_ ((d + 1) * tickUnits)).reqFails req .tierLate)

/-- PREFETCH_STREAM_RELEASE (07 R241): a stream with no access for 1 ms is released. -/
def execPrefetchStreamRelease (q : QuarterNo) (stream : Nat) (s : State) : Host.Outcome State Fault Refusal :=
  let tab := Tab.at s.tiers.streams q.val []
  match Tab.find tab stream with
  | none => .next s
  | some x =>
    .next ((s.at_ (x.lastUse + msUnits)).modTiers (fun t => { t with streams := Tab.put t.streams q.val (Tab.del tab stream) }))

end Sys2Proof.Machine
end

