-- ==== Sys2Proof/Machine/Security.lean ====
section
/-! DEFINITION. Firmware slots, attestation and the owner lock (13 R455 to R457; 17 R536 to R553). -/

namespace Sys2Proof.Machine

/-! ## Certificates (17 R536). -/

/-- Whether 5,328 bytes are a certificate of a kind, for the key they hold, issued by a key. -/
def certOk (b : List Byte) (kind : Nat) (issuer : List Byte) : Bool :=
  let key := (b.drop 0x40).take 1952
  b.length = 5328 && b.take 4 = [0x53#8, 0x58#8, 0x43#8, 0x54#8] && fieldAt b 4 2 = 0x0100 && fieldAt b 6 1 = kind && (b.drop 8).take 8 = keyId key
    && (b.drop 0x10).take 8 = keyId issuer && signed issuer (b.take 0x7E0) ((b.drop 0x7E0).take 3309)

/-! ## Firmware (17 R551 to R553, 13 R455). -/

/-- Bytes of the longest firmware image. -/
def fwMax : Nat := 67108864

/-- The slot's fields as its image gives them. -/
def FwSlot.refresh (f : FwSlot) : FwSlot :=
  let h := Mem.read 0 f.image 0 32
  { f with version := BitVec.ofNat 64 (fieldAt h 8 8), build := BitVec.ofNat 64 (fieldAt h 0x10 8), secVer := fieldAt h 0x1C 1 }

/-- Pages of an image. -/
def FwSlot.pageCount (f : FwSlot) : Nat := ceilDiv f.len 4096

/-- The 4 KiB pages that a piece covers, the last page as far as the image goes. -/
def FwSlot.covered (f : FwSlot) (off n : Nat) : List Nat :=
  (List.range f.pageCount).filter (fun p => off ≤ 4096 * p && min (4096 * (p + 1)) f.len ≤ off + n)

/-- A piece is written: the slot is downloaded once every page has been written, and no longer verified (17 R552). -/
def FwSlot.write (f : FwSlot) (off : Nat) (bs : List Byte) : FwSlot :=
  let f := { f with image := Mem.write 0 f.image off bs }
  let f := { f with pages := (f.covered off bs.length ++ f.pages).dedup }
  { f.refresh with digest := [], st := if f.pages.length = f.pageCount then .downloaded else .incomplete }

/-- The slot that a piece at OFFSET 0 begins (17 R552). -/
def Security.beginFw (x : Security) : Security := { (x.setOther (fun _ => { FwSlot.blank with st := .incomplete })) with nextB := x.activeB }

/-- FW_DOWNLOAD (13 R455, 17 R552): a piece for the slot not running, after any FW_COMMIT that runs. -/
def execFwDownload (id : Nat) (s : State) : Host.Outcome State Fault Refusal :=
  match s.acting id 0x0901 with
  | none => .next s
  | some c =>
    let off := c.field 0x10 4
    let n := c.field 0x14 4
    if c.stage = 0 then
      if (Tab.vals s.host.cmds).any (fun d => d.opcode = 0x0902 && d.before c) then .next s
      else
        let top := if off = 0 then fwMax else s.sec.other.len
        .next (s.checked c (if top < off + n then some .invalidField else none) (fun s =>
          let s := if off = 0 then { s with sec := s.sec.beginFw } else s
          (s.stage id 1 []).modCmd id (fun c => { c with need := n })))
    else if c.got < c.need then .next s
    else
      let len := fieldAt c.pushed 0x18 4
      if off = 0 then
        if fwMax < len ∨ len < n then .next (s.fail id .invalidField)
        else .next ({ s with sec := s.sec.setOther (fun f => { f with len := len }.write 0 c.pushed) }.succeed id [])
      else if s.sec.other.len < off + n then .next (s.fail id .invalidField)
      else
        .next ({ s with sec := { (s.sec.setOther (fun f => f.write off c.pushed)) with nextB := s.sec.activeB } }.succeed id [])

/-- Check 1 of R553. -/
def FwSlot.formOk (f : FwSlot) : Bool :=
  let h := Mem.read 0 f.image 0 0x40
  f.st = .downloaded && h.take 4 = [0x53#8, 0x58#8, 0x46#8, 0x57#8]
    && (h.drop 0x20).take 16 = fit 16 (ascii ['S', 'X', '-', 'L', 'M', '4', '8', '0', '-', 'A']) && (h.drop 0x30).take 2 = ascii ['A', '1']

/-- Check 2 of R553: the image's certificate is issued by the root key for code signing, and signs every byte before the signature (17 R551). -/
def FwSlot.signedOk (f : FwSlot) : Bool :=
  let cert := Mem.read 0 f.image 0x40 5328
  8704 ≤ f.len && certOk cert 3 Config.rootKey
    && signed ((cert.drop 0x40).take 1952) (Mem.read 0 f.image 0 (f.len - 3312)) (Mem.read 0 f.image (f.len - 3312) 3309)

/-- What FW_COMMIT meets (17 R553). -/
def State.fwError (s : State) (action : Nat) : Option Status :=
  let f := s.sec.other
  if action = 0 then
    if !f.formOk then some .invalidField else if !f.signedOk then some .signatureInvalid else if f.secVer < s.sec.fuses then some .rollbackRefused else none
  else if f.st = .rolledBack ∨ (f.st = .verified ∧ f.secVer < s.sec.fuses) then some .rollbackRefused
  else if f.st = .verified then none
  else some .invalidField

/-- FW_COMMIT (13 R455, 17 R553). -/
def execFwCommit (id : Nat) (s : State) : Host.Outcome State Fault Refusal :=
  match s.acting id 0x0902 with
  | none => .next s
  | some c =>
    let action := c.field 0x10 1
    .next (s.checked c (s.fwError action) (fun s =>
      let sec := { s.sec with nextB := !s.sec.activeB }
      if action = 1 then { s with sec := sec }.succeed id []
      else
        let f := s.sec.other
        let digest := shake256 (Mem.read 0 f.image 0 f.len) 32
        let s := { s with sec := sec.setOther (fun f => { f with st := .verified, digest := digest }) }
        (s.record 0x7001 (sourceOf 0 0) (leBytes 1 (bit (!s.sec.activeB)) ++ leBytes 8 f.version.toNat)).succeed id []))

/-! ## Attestation (17 R547, 13 R456). -/

/-- The loaded models, ascending. -/
def State.loadedModels (s : State) : List (Nat × Model) := s.serv.models.filter (fun e => e.2.loaded)

/-- The report, but for its signature. -/
def State.attestation (s : State) (nonce : List Byte) : List Byte :=
  let x := s.sec
  let ms := s.loadedModels
  let flags := bit x.locked + 2 * bit s.power.cfgDefaulted + 4 * bit (x.policy.getLsbD 0) + 8 * bit (x.policy.getLsbD 1) + 16 * bit x.lost
  let b := blockOf 256 [(4, 2, 0x0100), (6, 2, flags), (8, 4, 14224 + 40 * ms.length), (0x0C, 1, ms.length), (0x0D, 1, bit x.activeB), (0x0E, 1, x.fuses),
    (0x40, 8, s.opTime), (0x48, 4, s.power.cycles), (0x4C, 2, x.volLocks.toNat), (0x50, 8, x.active.version.toNat), (0x58, 8, x.active.build.toNat), (0xA8, 8, x.lockSeq)]
  let b := putAt b 0 [0x53#8, 0x58#8, 0x41#8, 0x54#8]
  let b := putAt b 0x10 (fit 32 nonce)
  let b := putAt b 0x30 (fit 16 Config.serial)
  let b := putAt b 0x60 (fit 32 x.active.digest)
  let b := putAt b 0x80 (fit 32 s.cfgDigest)
  putAt b 0xA0 x.ownerKeyId ++ ms.flatMap (fun e => leBytes 8 e.1 ++ fit 32 (shake256 e.2.bytes 32)) ++ fit 5328 Config.deviceCert ++ fit 5328 Config.caCert

/-- The whole report. -/
def State.signedReport (s : State) (nonce : List Byte) : List Byte :=
  let b := s.attestation nonce
  b ++ fit 3312 (fit 3309 (Config.deviceSign (shake256 b 64)))

/-- ATTEST (13 R408, R456). -/
def execAttest (id : Nat) (s : State) : Host.Outcome State Fault Refusal :=
  match s.acting id 0x0903 with
  | none => .next s
  | some c =>
    let n := 14224 + 40 * s.loadedModels.length
    .next (s.checked c (if c.field 0x38 4 < n then some .invalidField else none) (fun s =>
      (s.hostWrite c.port (c.field 0x30 8) (s.signedReport ((c.pkt.drop 0x10).take 32))).succeed id (resultAt [(0x0C, 4, n)])))

/-! ## The owner lock (17 R542 to R546, 13 R457). -/

/-- What an OWNER_LOCK meets: its credential first, then what the action asks for (17 R543, R544). -/
def State.lockError (s : State) (action volume policy : Nat) (cred : List Byte) : Option Status :=
  let needs := s.sec.locked || action = 1
  let vol := if action = 3 ∨ action = 4 then volume else 0
  let pol := if action = 5 then policy else 0
  if needs ∧ ¬ s.credOk cred action vol pol then some .notOwner
  else if action = 2 ∧ s.sec.locked ∧ s.sec.volLocks ≠ 0#16 then some .invalidField
  else if (action = 3 ∨ action = 4) ∧ (¬ s.sec.locked ∨ 15 < volume ∨ ¬ Tab.has s.media.volumes volume) then some .invalidField
  else none

/-- The security state after an action (17 R544); an accepted credential raises LOCK_SEQ (17 R541). -/
def Security.act (x : Security) (action volume policy : Nat) (newKey : List Byte) : Security :=
  let y := if x.locked ∨ action = 1 then { x with lockSeq := (x.lockSeq + 1) % 2 ^ 64 } else x
  let v := BitVec.ofNat 16 (2 ^ volume)
  if action = 1 then { y with ownerKey := newKey, locked := true }
  else if action = 2 then { y with ownerKey := [], locked := false }
  else if action = 3 then { y with volLocks := y.volLocks ||| v }
  else if action = 4 then { y with volLocks := y.volLocks &&& ~~~v }
  else { y with policy := BitVec.ofNat 2 policy }

/-- OWNER_LOCK (13 R457, 17 R540, R544, R546): each change of the security state writes LOCK_CHANGED, and is in the security block before the command completes. -/
def execOwnerLock (id : Nat) (s : State) : Host.Outcome State Fault Refusal :=
  match s.acting id 0x0904 with
  | none => .next s
  | some c =>
    if c.stage = 1 then .next (if s.secured (c.aux.headD 0) then s.succeed id [] else s)
    else if ¬ s.credTurn c then .next s
    else
      let action := c.field 0x10 1
      let volume := c.field 0x11 1
      let policy := c.field 0x12 2
      let cred := s.hostRead c.port (c.field 0x18 8) credBytes
      .next (s.checked c (s.lockError action volume policy cred) (fun s =>
        let sec := s.sec.act action volume policy ((cred.drop 0x40).take 1952)
        if sec = s.sec then s.succeed id []
        else
          let s := ({ s with sec := sec }.secure).record 0x7003 (sourceOf 0 0) (leBytes 1 action ++ leBytes 1 volume)
          s.stage id 1 [s.sec.pages.seq]))

end Sys2Proof.Machine
end

