-- ==== Sys2Proof/Machine/Container.lean ====
section
/-! DEFINITION. Signatures of containers and model images, and the validation of a Dratotin container (06 R200 to R222; 17 R537 to R539). -/

namespace Sys2Proof.Machine

/-! ## Signatures (06 R221, 17 R537, R538). -/

/-- Bytes of a signature section or trailer. -/
def sigBytes : Nat := 3328

/-- The public key a KEY_KIND names; none where no such key is there (17 R538). -/
def State.keyOf (s : State) : Nat → Option (List Byte)
  | 1 => if s.sec.ownerKey.isEmpty then none else some s.sec.ownerKey
  | 2 => some Config.codeKey
  | 3 => some Config.deviceKey
  | _ => none

/-- Whether a signature over some bytes is trusted: its zero bytes are zero, its KEY_ID names the key of its kind, and it verifies (17 R538). -/
def State.trusted (s : State) (sig bytes : List Byte) : Bool :=
  match s.keyOf (fieldAt sig 0 1) with
  | none => false
  | some key => sig.length = sigBytes && allZero ((sig.drop 1).take 7) && allZero (sig.drop 0xCFD) && (sig.drop 8).take 8 = keyId key
      && signed key bytes ((sig.drop 0x10).take 3309)

/-! ## The container's parts (06 R218 to R220). -/

/-- An entry of the section table. -/
structure Sect where
  kind : Nat
  pad : Nat
  off : Nat
  len : Nat
  crc : Nat
deriving DecidableEq, Repr, Inhabited

/-- The section table. -/
def sectsOf (b : List Byte) : List Sect :=
  (List.range (min 64 (fieldAt b 0x0C 2))).map (fun i => let a := 0x40 + 16 * i
                                                         ⟨fieldAt b a 2, fieldAt b (a + 2) 2, fieldAt b (a + 4) 4, fieldAt b (a + 8) 4, fieldAt b (a + 12) 4⟩)

/-- A section's content. -/
def Sect.bytes (x : Sect) (b : List Byte) : List Byte := (b.drop x.off).take x.len

/-- The content of the section of a type; nothing where there is none. -/
def sectBytes (b : List Byte) (kind : Nat) : List Byte := (((sectsOf b).find? (fun x => x.kind = kind)).map (fun x => x.bytes b)).getD []

/-- The place of the section of a type in the table. -/
def sectIndex (b : List Byte) (kind : Nat) : Nat := (sectsOf b).findIdx (fun x => x.kind = kind)

/-- The operation records of CODE (06 R200). -/
def codeOf (b : List Byte) : List (BitVec 256) := (chunksOf 32 (sectBytes b 1)).map (fun r => BitVec.ofNat 256 (leNat r))

/-- The records of SYMBOLS, SEMAPHORES and SCALE_SITES. -/
def symbolsOf (b : List Byte) : List (List Byte) := chunksOf 32 (sectBytes b 3)
def semsOf (b : List Byte) : List (List Byte) := chunksOf 8 (sectBytes b 4)
def sitesOf (b : List Byte) : List (List Byte) := chunksOf 16 (sectBytes b 5)

/-- Header flags (06 R218). -/
def headFlags (b : List Byte) : Nat := fieldAt b 6 2

/-! ## Sections (06 R222, codes 1 to 8). -/

/-- What a section's length is a multiple of, or is exactly where `true` (log entry 57). -/
def sectUnit : Nat → Nat × Bool
  | 1 => (32, false)
  | 3 => (32, false)
  | 4 => (8, false)
  | 5 => (16, false)
  | 6 => (32, true)
  | 7 => (sigBytes, true)
  | _ => (1, false)

/-- Whether a section lies apart from another, and after it where it is the signature (06 R218, R219). -/
def sectsApart (x y : Sect) : Bool := (x.off + x.len ≤ y.off || y.off + y.len ≤ x.off) && (x.kind ≠ 7 || y.off + y.len ≤ x.off)

/-- Whether entry i of the table is sound: its type known, its content aligned and within the container, past the table, of a whole number of records,
overlapping no other; a signature's content lies last (06 R218, R219, R221; log entry 57). -/
def sectOk (b : List Byte) (i : Nat) : Bool :=
  let l := sectsOf b
  let x := l.getD i default
  let u := sectUnit x.kind
  1 ≤ x.kind && x.kind ≤ 7 && x.pad = 0 && x.off % 32 = 0 && 0x40 + 16 * l.length ≤ x.off && x.off + x.len ≤ b.length
    && (if u.2 then x.len = u.1 else x.len % u.1 = 0)
    && (List.range l.length).all (fun j => i = j || sectsApart x (l.getD j default))

/-- Whether a type occurs as often as R219 asks. -/
def sectCountOk (b : List Byte) (kind : Nat) : Bool :=
  let n := ((sectsOf b).filter (fun x => x.kind = kind)).length
  if kind ∈ [1, 3, 6] then n = 1 else if kind = 7 then n = headFlags b % 2 else n ≤ 1

/-- The container's bytes before its signature, the signature's CRC entry read as zero (06 R221). -/
def signedPart (b : List Byte) : List Byte :=
  let i := sectIndex b 7
  let x := (sectsOf b).getD i default
  (putAt b (0x40 + 16 * i + 12) (zeros 4)).take x.off

/-- Whether the policy accepts a container's key kind (17 R539). -/
def State.moduleKindOk (s : State) (b : List Byte) (kind : Nat) : Bool :=
  !(s.sec.policy.getLsbD 1) || kind = 1 || (kind = 2 && bitOf (headFlags b) 1)

/-- Whether a container carries a Stonaxis signature (06 R221). -/
def stonaxisSigned (b : List Byte) : Bool := bitOf (headFlags b) 0 && fieldAt (sectBytes b 7) 0 1 = 2

/-! ## Records (06 R200 to R214, R222, codes 9 to 13). -/

/-- Whether an opcode is one of the contract's (06 R201). -/
def opKnown (op : Nat) : Bool :=
  let n := op % 256
  1 ≤ n && n ≤ (match op / 256 with
    | 1 => 3
    | 2 => 9
    | 3 => 1
    | 4 => 4
    | 5 => 6
    | 6 => 6
    | 7 => 7
    | 8 => 18
    | _ => 0)

/-- The reserved operand bits of an opcode: (lowest, count). -/
def reservedBits (op : Nat) : List (Nat × Nat) :=
  if op = 0x0101 then [(54, 2), (218, 33)] else if op = 0x0102 then [(32, 1), (63, 188)] else if op = 0x0103 then [(71, 180)]
  else if op / 256 = 2 then [(243, 8)] else if op / 256 = 3 then [(158, 93)] else if op / 256 = 4 then [(140, 116)] else if op / 256 = 5 then [(125, 131)]
  else if op = 0x0601 then [(36, 220)] else if op = 0x0603 then [(65, 191)] else if op = 0x0604 then [(60, 196)] else if op = 0x0605 then [(37, 219)]
  else if op = 0x0606 then [(40, 216)] else if op ∈ [0x0701, 0x0704] then [(64, 192)] else if op = 0x0702 then [(142, 114)] else if op = 0x0703 then [(69, 187)]
  else if op = 0x0707 then [(48, 208)] else if op / 256 = 8 then [(120, 136)] else [(32, 224)]

/-- Whether a record holds a reserved code in a field (00 R5). -/
def reservedCode (r : BitVec 256) : Bool :=
  let op := opcodeOf r
  if op ∈ [0x0101, 0x0102] then 5 ≤ fld r 33 3 || fld r 36 4 = 15
  else if op / 256 = 2 then fld r 34 2 = 3 || 6 ≤ fld r 36 3 || fld r 47 4 = 15 || fld r 51 4 = 15 || fld r 55 4 = 15 || fld r 59 4 = 15
  else if op / 256 = 3 then fld r 32 2 = 3 || fld r 34 4 = 15 || fld r 52 2 = 3
  else if op / 256 = 4 then fld r 75 4 = 15
  else if op / 256 = 5 then fld r 74 4 = 15 || fld r 78 2 = 3
  else if op = 0x0601 then fld r 32 2 = 3 || fld r 34 2 = 3
  else if op = 0x0812 then 5 ≤ fld r 117 3
  else false

/-- FIELD_RESERVED: reserved bits, flags and codes (00 R5, 06 R222). -/
def reservedOk (r : BitVec 256) : Bool := fld r 29 3 = 0 && (reservedBits (opcodeOf r)).all (fun e => fld r e.1 e.2 = 0) && !reservedCode r

/-- The flags a family may set (06 R200, R203). -/
def flagsOk (r : BitVec 256) : Bool :=
  let f := opcodeOf r / 256
  if 6 ≤ f then fld r 24 5 = 0 else f = 1 || setH r || handleOf r = 0

/-- SC's own fields (06 R213, R214). -/
def scOk (r : BitVec 256) : Bool :=
  let n := fld r 0 8
  if n < 0x10 then fld r 112 8 = 0
  else
    let o := fld r 114 2
    !flag r 47 && (if n = 0x10 then o ≤ 1 else if n = 0x11 then o = 0 || o = 2 else 2 ≤ fld r 112 2)

/-- The count of a semaphore operation: at least 1, and not above the maximum of the semaphore it names (06 R195, R211). -/
def semCountOk (sems : List (List Byte)) (r : BitVec 256) : Bool :=
  let n := fld r 44 16
  1 ≤ n && (match sems[fld r 32 12]? with
    | some d => n ≤ fieldAt d 2 2
    | none => true)

/-- Bytes of bench memory that no allotment passes (06 R180). -/
def benchTop : Nat := 8388608

/-- The inputs of a selection that its record alone names: all but the lists of a LIST, whose descriptor is there. -/
def slNamed (r : BitVec 256) : List (Nat × Nat) := if slMode r = 1 then [(slIn r 0, 8 * slCount r)] else slInputs r (fun _ _ => 0) 0

/-- The fields not offset by BREG lie within bench memory and overlap no result; of a vector operation that takes its columns from a register, with the one column it has at
least (03 R116; 04 R128, R130, R146; 06 R222). -/
def benchOk (r : BitVec 256) : Bool :=
  let f := opcodeOf r / 256
  if bregEn r then true
  else if f = 1 then piecesOk benchTop (mmPieces r 0)
  else if f = 2 then vxFits r 0 (if vxCregEn r then 1 else fld r 80 13) 0 benchTop
  else if f = 3 then
    (slResult r 0).1 + (slResult r 0).2 ≤ benchTop && (slNamed r).all (fun e => e.1 + e.2 ≤ benchTop) && !spansMeet [slResult r 0] (slNamed r)
  else true

/-- FIELD_RANGE: every other check of a record that depends on it alone (06 R222). -/
def rangeOk (sems : List (List Byte)) (r : BitVec 256) : Bool :=
  let op := opcodeOf r
  flagsOk r && benchOk r &&
  (match op / 256 with
   | 1 => mmOk r
   | 2 => vxOk r
   | 3 => slOk r
   | 4 => mvOk r
   | 5 => clOk r
   | 6 => (op ≠ 0x0603 && op ≠ 0x0604) || semCountOk sems r
   | 8 => scOk r
   | _ => true)

/-- Whether a CF operation at record i branches into CODE (06 R212). -/
def branchOk (n i : Nat) (r : BitVec 256) : Bool :=
  if opcodeOf r ∈ [0x0701, 0x0702, 0x0703, 0x0704] then
    let t : Int := (i : Int) + signedOf 32 (fld r 32 32)
    decide (0 ≤ t) && decide (t < n)
  else true

/-! ## Symbols, declarations, requirements (06 R220, R222, codes 14 to 18). -/

/-- A symbol's name without its padding. -/
def symName (b : List Byte) : List Byte := (b.take 24).takeWhile (· ≠ 0#8)

/-- Whether a symbol is well formed: a name of UTF-8, padded with zeros; a kind and a value that names something (log entry 57). -/
def symOk (b sym : List Byte) : Bool :=
  let name := symName sym
  let v := fieldAt sym 0x1C 4
  !name.isEmpty && validUtf8 name && allZero ((sym.take 24).drop name.length) && allZero ((sym.drop 0x19).take 3)
    && (match fieldAt sym 0x18 1 with
      | 0 => v < (codeOf b).length
      | 1 => v < (sectBytes b 2).length
      | 2 => v < (semsOf b).length
      | 3 => v < (sitesOf b).length
      | _ => false)

/-- Whether names are unique and there is an entry point. -/
def symsOk (b : List Byte) : Bool :=
  let l := symbolsOf b
  decide (l.map symName).Nodup && l.any (fun x => fieldAt x 0x18 1 = 0)

/-- Whether a semaphore declaration is well formed. -/
def semDeclOk (d : List Byte) : Bool := 1 ≤ fieldAt d 2 2 && fieldAt d 0 2 ≤ fieldAt d 2 2 && fieldAt d 4 1 ≤ 2 && allZero ((d.drop 5).take 3)

/-- Whether a scale-site declaration is well formed: its initial scale is positive and normal. -/
def siteDeclOk (d : List Byte) : Bool :=
  let x := fieldAt d 4 4
  fieldAt d 0 1 ∈ [2, 4, 6] && (fieldAt d 1 1 = 1 || fieldAt d 1 1 = 2) && fieldAt d 2 2 = 0 && allZero ((d.drop 8).take 8)
    && 0x00800000 ≤ x && x < 0x7F800000

/-- Whether a record names a declared semaphore, if it names one. -/
def declaredOk (sems : List (List Byte)) (r : BitVec 256) : Bool := !(opcodeOf r ∈ [0x0603, 0x0604]) || fld r 32 12 < sems.length

/-- Reserved bytes of REQUIREMENTS (00 R5; log entry 57). -/
def requireZero (q : List Byte) : Bool := fieldAt q 2 2 = 0 && fieldAt q 0x12 2 < 64 && allZero (q.drop 0x14)

/-- Whether requirements are within this part's limits (06 R180, R220). -/
def requireOk (q : List Byte) : Bool :=
  fieldAt q 0 2 ≤ 0x0100 && fieldAt q 4 4 ≤ 65536 && fieldAt q 8 4 ≤ 2048 && fieldAt q 0x0C 4 ≤ benchTop && fieldAt q 0x10 2 ≤ 16

/-- Module semaphores of the part (06 R180). -/
def semTop : Nat := 4096

/-! ## Validation. -/

/-- A failure: code, section, record (13 R445). -/
abbrev Invalid := Nat × Nat × Nat

/-- The failure of a whole check. -/
def failsIf (bad : Bool) (code sect : Nat) : Option Invalid := if bad then some (code, sect, 0xFFFFFFFF) else none

/-- The first section that fails a check. -/
def failsSect (n code : Nat) (ok : Nat → Bool) : Option Invalid := ((List.range n).find? (fun i => !ok i)).map (fun i => (code, i, 0xFFFFFFFF))

/-- The first record that fails a check. -/
def failsRec (code : Nat) (rs : List (BitVec 256)) (ok : Nat → BitVec 256 → Bool) : Option Invalid :=
  ((List.range rs.length).find? (fun i => !ok i (rs.getD i 0#256))).map (fun i => (code, 0xFFFF, i))

/-- Checks 1 to 8: the container and its signature. -/
def State.sectionsFail (s : State) (b : List Byte) : Option Invalid :=
  let none16 := 0xFFFF
  let n := (sectsOf b).length
  let sig := sectBytes b 7
  failsIf (b.take 4 ≠ [0x44#8, 0x52#8, 0x54#8, 0x4E#8]) 1 none16
    <|> failsIf (fieldAt b 4 2 / 256 ≠ 1) 2 none16
    <|> failsIf (fieldAt b 0x3C 4 ≠ (crc32c (b.take 0x3C)).toNat || headFlags b / 4 ≠ 0 || fieldAt b 0x0E 2 ≠ 0 || !allZero ((b.drop 0x1C).take 32)) 3 none16
    <|> failsIf (fieldAt b 8 4 ≠ b.length || n = 0 || fieldAt b 0x0C 2 ≠ n) 4 none16
    <|> failsSect n 4 (sectOk b)
    <|> failsSect n 5 (fun i => ((sectsOf b).getD i default).crc = (crc32c (((sectsOf b).getD i default).bytes b)).toNat)
    <|> ((List.range 7).find? (fun k => !sectCountOk b (k + 1))).map (fun k => (6, if n ≤ sectIndex b (k + 1) then none16 else sectIndex b (k + 1), 0xFFFFFFFF))
    <|> failsIf (!bitOf (headFlags b) 0 && s.sec.policy.getLsbD 1) 7 none16
    <|> failsIf (bitOf (headFlags b) 0 && !(fieldAt sig 0 1 ≠ 3 && s.trusted sig (signedPart b) && s.moduleKindOk b (fieldAt sig 0 1))) 8 (sectIndex b 7)

/-- Checks 9 to 13: the records. -/
def codeFails (b : List Byte) : Option Invalid :=
  let rs := codeOf b
  failsRec 9 rs (fun _ r => opKnown (opcodeOf r))
    <|> failsRec 10 rs (fun _ r => reservedOk r)
    <|> failsIf (!requireZero (sectBytes b 6)) 10 (sectIndex b 6)
    <|> failsRec 11 rs (fun _ r => rangeOk (semsOf b) r)
    <|> failsRec 12 rs (fun i r => branchOk rs.length i r)
    <|> (if (rs.getLast?.map (fun r => decide (opcodeOf r ∈ [0x0701, 0x0705, 0x0706]))).getD false then none else some (13, sectIndex b 1, rs.length - 1))

/-- Checks 14 to 18: symbols, declarations, regions, requirements, semaphores left. -/
def State.declsFail (s : State) (b : List Byte) : Option Invalid :=
  let q := sectBytes b 6
  failsIf (!((symbolsOf b).all (symOk b) && symsOk b)) 14 (sectIndex b 3)
    <|> failsIf (!(semsOf b).all semDeclOk) 15 (sectIndex b 4)
    <|> failsIf (!(sitesOf b).all siteDeclOk) 15 (sectIndex b 5)
    <|> failsRec 15 (codeOf b) (fun _ r => declaredOk (semsOf b) r)
    <|> failsIf ((bitOf (headFlags b) 1 || bitOf (fieldAt q 0x12 2) 5) && !stonaxisSigned b) 16 (sectIndex b 6)
    <|> failsIf (!requireOk q) 17 (sectIndex b 6)
    <|> failsIf (semTop < s.compute.sems.length + (semsOf b).length) 18 (sectIndex b 4)

/-- The first failure of a container (06 R222). -/
def State.containerFails (s : State) (b : List Byte) : Option Invalid := s.sectionsFail b <|> codeFails b <|> s.declsFail b

/-- The status of a validation code (06 R222). -/
def codeStatus (code : Nat) : Status := if code = 7 ∨ code = 8 then .signatureInvalid else if code = 18 then .resourceExhausted else .moduleInvalid

end Sys2Proof.Machine
end

