-- ==== Sys2Proof/Machine/Modules.lean ====
section
/-! DEFINITION. MODULE_LOAD, MODULE_UNLOAD, GRANT_MAKE, GRANT_FREE and RUN (06 R194, R219 to R223; 07 R225, R233, R235; 08 R256, R257, R273; 13 R445 to R449). -/

namespace Sys2Proof.Machine

/-! ## Grants. -/

/-- The lowest move tile from a start on where n bytes meet none of the ranges in use (log entry 52). -/
def placeFrom (start : Nat) (used : List (Nat × Nat)) (n : Nat) : Nat :=
  let used := used.filter (fun r => r.2 ≠ 0)
  let ends := start :: (used.map (fun r => wholeTiles (r.1 + r.2))).filter (start ≤ ·)
  ((sortBy (· < ·) ends).find? (fun a => used.all (fun r => a + n ≤ r.1 || r.1 + r.2 ≤ a))).getD start

/-- Where a grant of a region goes: region 0x00 from its second move tile on, so that no address in it is zero (log entry 52). -/
def State.grantPlace (s : State) (region n : Nat) : Nat :=
  if region = 1 then s.flashPlace n
  else placeFrom (if region = 0 then 65536 else 0) ((s.tiers.grants.filter (fun e => e.2.region = region)).map (fun e => (e.2.base, e.2.len))) n

/-- A chip-cache way's code set in WAYS_Qn. -/
def State.setWay (s : State) (k code : Nat) : State :=
  let q := k / 16
  let w := k % 16
  let v := (Tab.at s.regul.ways q 0#64).toNat
  { s with regul := { s.regul with ways := Tab.put s.regul.ways q (BitVec.ofNat 64 (v - bitsOf v (4 * w) 4 * 2 ^ (4 * w) + code * 2 ^ (4 * w))) } }

/-- A way is pinned: it reads 0x8, and its lines are written back and dropped (08 R273). -/
def State.pinWay (s : State) (k : Nat) : State :=
  let old := s.wayCode (k / 16) (k % 16)
  let s := s.setWay k 8
  { s with
    regul := { s.regul with wayPrev := Tab.put s.regul.wayPrev k old }
    tiers := { s.tiers with lines := s.tiers.lines.filter (fun e => !(e.2.quarter.val = k / 16 && e.2.way = k % 16)) } }

/-- A pinned way returns to its previous code (08 R273). -/
def State.unpinWay (s : State) (k : Nat) : State :=
  let s := s.setWay k (Tab.at s.regul.wayPrev k 0)
  { s with regul := { s.regul with wayPrev := Tab.del s.regul.wayPrev k } }

/-- The ways a region 0x03 grant pins: the lowest of its class's in its quarter; none where fewer than 2 would be left (08 R273; log entry 52). -/
def State.waysFor (s : State) (q : Nat) (cls : Cls) (n : Nat) : Option (List Nat) :=
  let have_ := s.waysOf q cls
  let k := ceilDiv n (4 * 2 ^ 20)
  if have_.length < k + 2 then none else some ((have_.take k).map (fun w => 16 * q + w))

/-- A region's bytes written. -/
def Tiers.fill (t : Tiers) (region a : Nat) (bs : List Byte) : Tiers :=
  if region = 0 then { t with hbm := Mem.write 0 t.hbm a bs } else if region = 1 then { t with flash := Mem.write 0 t.flash a bs } else { t with pinned := Mem.write 0 t.pinned a bs }

/-- A region's bytes returned to zero. -/
def Tiers.wipe (t : Tiers) (region a n : Nat) : Tiers :=
  if region = 0 then { t with hbm := Mem.clear t.hbm a n } else if region = 1 then { t with flash := Mem.clear t.flash a n } else { t with pinned := Mem.clear t.pinned a n }

/-- A grant's bytes, and their flash copy, have been written whole (07 R240). -/
def State.healGrant (s : State) (g : Grant) : State :=
  let s := s.healRange g.region g.base g.len
  match g.home with
  | some h => s.healRange 1 h g.len
  | none => s

/-- A grant is made: zeros, then its contents if it is given any, and their flash copy where they are immutable in region 0x00; an exported one takes the next offset of the
exported window; what no longer has room in T2's pool is evicted (07 R225, R235; 13 R447). -/
def State.addGrant (s : State) (g : Grant) (data : List Byte) : Nat × State :=
  let k := s.tiers.nextGrant
  let g := { g with exported := g.exported.map (fun _ => s.tiers.windowSize) }
  let s := g.ways.foldl State.pinWay s
  let fill := fun (t : Tiers) =>
    let t := (t.wipe g.region g.base g.len).fill g.region g.base data
    match g.home with
    | some h => (t.wipe 1 h g.len).fill 1 h data
    | none => t
  (k, (s.modTiers (fun t => { (fill t) with
    grants := Tab.put t.grants k g
    nextGrant := k + 1
    windowSize := if g.exported.isSome then t.windowSize + g.len else t.windowSize })).healGrant g |>.fitPool)

/-- A grant is freed: its ways, its flash and its tiles; its part of the exported window stays a hole (08 R273, 13 R447). -/
def State.dropGrant (s : State) (k : Nat) : State :=
  match Tab.find s.tiers.grants k with
  | none => s
  | some g =>
    let s := s.modTiers (fun t => { (t.wipe g.region g.base g.len) with
      grants := Tab.del t.grants k
      lines := t.lines.filter (fun e => !(g.region = 0 && g.base ≤ e.1 * 128 && e.1 * 128 < g.base + g.len)) })
    let s := g.ways.foldl State.unpinWay s
    let s := match g.home with
      | some h => s.modTiers (fun t => t.wipe 1 h g.len)
      | none => s
    let s := s.healGrant g
    match g.inFlash with
    | some x => s.freeFlash [x]
    | none => s

/-- The loaded module a handle names. -/
def State.dmodule (s : State) (h : Nat) : Option DModule := Tab.find s.compute.mods h

/-- The class GRANT_MAKE names (13 R447). -/
def Cmd.grantCls (c : Cmd) : Cls := Cls.ofCode (c.field 0x14 1)

/-- The grant that GRANT_MAKE asks for, on the pseudo-channels of its class as they are now (08 R272, 13 R447). -/
def Cmd.grant (c : Cmd) (base : Nat) (ways : List Nat) (mask : Nat) (home : Option Nat) : Grant :=
  let fl := c.field 0x11 1
  ⟨c.object, c.field 0x10 1, base, c.field 0x18 8, bitOf fl 0, if bitOf fl 1 then some 0 else none, c.field 0x12 1, c.field 0x13 1, c.grantCls, false, ways, mask, home⟩

/-- What GRANT_MAKE meets apart from flash capacity (07 R235, 08 R273, 13 R447). -/
def State.grantError (s : State) (c : Cmd) : Option Status :=
  let n := c.field 0x18 8
  if (s.dmodule c.object).isNone then some .invalidField
  else if c.field 0x10 1 = 0 && !s.hbmRoom n then some .resourceExhausted
  else if c.field 0x10 1 = 3 && (s.waysFor (c.field 0x13 1) c.grantCls n).isNone then some .resourceExhausted
  else none

/-- Whether GRANT_MAKE takes flash: region 0x01, or an immutable grant of region 0x00, whose home is T3 (07 R225). -/
def Cmd.grantFlash (c : Cmd) : Bool := c.field 0x10 1 = 1 || (c.field 0x10 1 = 0 && bitOf (c.field 0x11 1) 0)

/-- The grant is made and the command completes; `home` is the place in region 0x01 it has taken. -/
def State.finishGrant (s : State) (c : Cmd) (home : Nat) (data : List Byte) : State :=
  let region := c.field 0x10 1
  let ways := if region = 3 then (s.waysFor (c.field 0x13 1) c.grantCls (c.field 0x18 8)).getD [] else []
  let base := if region = 1 then home else s.grantPlace region (c.field 0x18 8)
  let g := c.grant base ways (s.pcMask c.grantCls) (if region = 0 && c.grantFlash then some home else none)
  let need := (g.inFlash.map (fun x => flashStripes x.1 x.2.1 x.2.2)).getD []
  let s := s.modMedia (fun m =>
    { m with counted := m.counted.map (fun x => if (x.owner, x.ostripe) ∈ need then { x with landed := true, lastWrite := s.now } else x) })
  let window := if g.exported.isSome then s.tiers.windowSize else 2 ^ 64 - 1
  (s.addGrant g data).2.succeed c.ident (resultAt [(0x10, 8, region * 2 ^ 56 + base), (0x18, 8, window)])

/-- GRANT_MAKE (13 R447): an immutable grant waits for its contents. -/
def execGrantMake (id : Nat) (s : State) : Host.Outcome State Fault Refusal :=
  match s.acting id 0x0604 with
  | none => .next s
  | some c =>
    let n := c.field 0x18 8
    let imm := bitOf (c.field 0x11 1) 0
    if c.stage = 0 then
      match s.grantError c with
      | some st => .next (s.fail id st)
      | none =>
        let home := s.flashPlace n
        match (if c.grantFlash then s.media.takeRoom s.now id (flashStripes (if imm then 18 else 19) home n) else some s.media) with
        | none => .next (s.fail id .capacityExhausted)
        | some m =>
          .next (s.checked c none (fun s =>
            let s := { s with media := m }
            if imm then (s.stage id 1 [home, n]).modCmd id (fun c => { c with need := n }) else s.finishGrant c home []))
    else if c.got < c.need then .next s
    else .next (s.checked c (s.grantError c) (fun s => s.finishGrant c (c.aux.getD 0 0) c.pushed))

/-- Whether a job of a module is admitted. -/
def State.moduleRuns (s : State) (h : Nat) : Bool := (Tab.vals s.compute.jobs).any (fun j => j.modh = h && j.admitted)

/-- Whether a job of a module is admitted or waiting. -/
def State.moduleBusy (s : State) (h : Nat) : Bool := (Tab.vals s.compute.jobs).any (fun j => j.modh = h)

/-- GRANT_FREE (13 R448). -/
def execGrantFree (id : Nat) (s : State) : Host.Outcome State Fault Refusal :=
  match s.acting id 0x0605 with
  | none => .next s
  | some c =>
    let a := c.field 0x10 8
    let g := s.tiers.grants.find? (fun e => e.2.modh = c.object && e.2.region * 2 ^ 56 + e.2.base = a && !e.2.isData)
    .next (s.checked c (if (s.dmodule c.object).isNone || s.moduleRuns c.object || g.isNone then some .invalidField else none) (fun s =>
      ((g.map (fun e => s.dropGrant e.1)).getD s).succeed id []))

/-! ## Loading and unloading modules. -/

/-- Modules loaded at most (13 R445). -/
def moduleTop : Nat := 64

/-- The results of MODULE_LOAD (13 R445). -/
def loadResult (v : Invalid) (h : Nat) : List Byte := resultAt [(0x0C, 2, v.1), (0x0E, 2, v.2.1), (0x10, 4, v.2.2), (0x18, 8, h)]

/-- No failure. -/
def validCode : Invalid := (0, 0xFFFF, 0xFFFFFFFF)

/-- The first number of a module's semaphores, and of its scale sites: no two modules share one. -/
def declBase (h : Nat) : Nat := 65536 * h

/-- A symbol's kind and value. -/
def symbolOf (x : List Byte) : Symbol := ⟨fieldAt x 0x18 1, fieldAt x 0x1C 4⟩

/-- A declared semaphore at its initial count (06 R194, R220). -/
def semOf (h : Nat) (d : List Byte) : Sem := ⟨h, fieldAt d 0 2, fieldAt d 2 2, Cls.ofCode (fieldAt d 4 1), false, []⟩

/-- A declared scale site before any step has ended (05 R165, 06 R220). -/
def siteOf (h : Nat) (d : List Byte) : ScaleSite := ⟨h, fieldAt d 0 1, fieldAt d 1 1, BitVec.ofNat 32 (fieldAt d 4 4), List.replicate 16 0#32, 0, [], []⟩

/-- A valid container is loaded: its semaphores and sites are allocated, its DATA image becomes its first grant, lent for as long as it is loaded (06 R194, R219; 07 R225;
13 R445). -/
def State.loadModule (s : State) (b : List Byte) : Nat × State :=
  let h := s.compute.nextMod
  let q := sectBytes b 6
  let data := sectBytes b 2
  let place := s.grantPlace 0 (wholeTiles data.length)
  let s := if data.isEmpty then s else
    (s.addGrant ⟨h, 0, place, wholeTiles data.length, true, none, 0, 0, .interactive, true, [], s.pcMask .interactive, some (s.flashPlace (wholeTiles data.length))⟩ data).2
  let m : DModule := ⟨BitVec.ofNat 64 (fieldAt b 0x10 8), BitVec.ofNat 32 (fieldAt b 0x18 4), codeOf b, (symbolsOf b).map symbolOf, declBase h, (semsOf b).length, declBase h,
    (sitesOf b).length, if data.isEmpty then 0 else place, fieldAt q 4 4, fieldAt q 8 4, fieldAt q 0x0C 4, bitOf (headFlags b) 1, stonaxisSigned b⟩
  (h, s.modCompute (fun c => { c with
    mods := Tab.put c.mods h m
    nextMod := h + 1
    sems := ((semsOf b).mapIdx (fun i d => (declBase h + i, semOf h d))).foldl (fun t e => Tab.put t e.1 e.2) c.sems
    sites := ((sitesOf b).mapIdx (fun i d => (declBase h + i, siteOf h d))).foldl (fun t e => Tab.put t e.1 e.2) c.sites }))

/-- MODULE_LOAD (06 R222, 13 R445). -/
def execModuleLoad (id : Nat) (s : State) : Host.Outcome State Fault Refusal :=
  match s.acting id 0x0602 with
  | none => .next s
  | some c =>
    if moduleTop ≤ s.compute.mods.length then .next (s.completeWith id .resourceExhausted 0 (loadResult validCode 0))
    else if c.stage = 0 then .next (s.checked c none (fun s => (s.stage id 1 []).modCmd id (fun c => { c with need := c.field 0x10 4 })))
    else if c.got < c.need then .next s
    else
      match s.containerFails c.pushed with
      | some v => .next (s.completeWith id (codeStatus v.1) 0 (loadResult v 0))
      | none =>
        if !(sectBytes c.pushed 2).isEmpty && !s.hbmRoom (sectBytes c.pushed 2).length then .next (s.completeWith id .resourceExhausted 0 (loadResult validCode 0))
        else
          let n := wholeTiles (sectBytes c.pushed 2).length
          match s.media.claim s.now (flashStripes 18 (s.flashPlace n) n) with
          | none => .next (s.completeWith id .capacityExhausted 0 (loadResult validCode 0))
          | some m =>
            .next (s.checked c none (fun s => let r := { s with media := m }.loadModule c.pushed
                                              r.2.succeed id (loadResult validCode r.1)))

/-- A module is unloaded: its grants, semaphores and scale sites are freed (13 R446). -/
def State.unloadModule (s : State) (h : Nat) : State :=
  let s := ((s.tiers.grants.filter (fun e => e.2.modh = h)).map (·.1)).foldl State.dropGrant s
  s.modCompute (fun c => { c with
    mods := Tab.del c.mods h
    sems := c.sems.filter (fun e => e.2.modh ≠ h)
    sites := c.sites.filter (fun e => e.2.modh ≠ h) })

/-- MODULE_UNLOAD (13 R446). -/
def execModuleUnload (id : Nat) (s : State) : Host.Outcome State Fault Refusal :=
  match s.acting id 0x0607 with
  | none => .next s
  | some c =>
    .next (s.checked c (if (s.dmodule c.object).isNone || s.moduleBusy c.object then some .invalidField else none) (fun s =>
      (s.unloadModule c.object).succeed id []))

/-! ## RUN. -/

/-- Threads a core holds at most (06 R180). -/
def coreThreads : Nat := 2048

/-- Gangs of a size and an allotment that one empty core holds (06 R180, R182). -/
def gangsPerCore (g allot : Nat) : Nat := min (coreThreads / g) (benchTop / allot)

/-- The record index of a module's entry point, if the symbol is one (06 R220). -/
def DModule.entry (m : DModule) (sym : Nat) : Option Nat := (m.symbols[sym]?).bind (fun x => if x.kind = 0 then some x.value else none)

/-- What RUN meets (06 R223, 08 R256, R257; 13 R449). -/
def State.runError (s : State) (c : Cmd) : Option Status :=
  match s.dmodule c.object with
  | none => some .invalidField
  | some m =>
    let cls := Cls.ofCode (c.field 0x12 1)
    let n := c.field 0x14 4
    let g := c.field 0x18 2
    let allot := 65536 * c.field 0x1A 2
    if (m.entry (c.field 0x10 2)).isNone then some .invalidField
    else if cls = .system && !m.stonaxis then some .invalidField
    else if (Tab.vals s.compute.sems).any (fun x => x.modh = c.object && cls.above x.ceiling) then some .invalidField
    else if m.maxThreads < n || m.maxGang < g || allot < m.benchBytes then some .invalidField
    else if s.coresMapped * gangsPerCore g allot < n / g then some .resourceExhausted
    else none

/-- RUN: the job waits for its admission (08 R257, 13 R449). -/
def execRun (id : Nat) (s : State) : Host.Outcome State Fault Refusal :=
  match s.acting id 0x0603 with
  | none => .next s
  | some c =>
    if c.stage ≠ 0 then .next s
    else
      .next (s.checked c (s.runError c) (fun s =>
        let entry := ((s.dmodule c.object).bind (fun m => m.entry (c.field 0x10 2))).getD 0
        let j : Job := ⟨id, c.object, entry, c.field 0x14 4, c.field 0x18 2, Cls.ofCode (c.field 0x12 1), 65536 * c.field 0x1A 2, BitVec.ofNat 64 (c.field 0x20 8), c.field 0x28 8,
          c.expiry, s.compute.arrivals, false, 0, [], none, 0, 0, 0, 0, 0, 0, 0, none, 0, [], false, 0, 0, 0⟩
        (s.stage id 1 []).modCompute (fun k => { k with jobs := Tab.put k.jobs k.nextJob j, nextJob := k.nextJob + 1, arrivals := k.arrivals + 1 })))

end Sys2Proof.Machine
end

