-- ==== Sys2Proof/Machine/Regulator.lean ====
section
/-! DEFINITION. The Regulator: admission, pre-emption, engine contexts, shares and steps (08 R254 to R277; 05 R165; 14 R485). -/

namespace Sys2Proof.Machine

/-! ## Gangs and their allotments (06 R182; 08 R255, R264 to R268). -/

/-- Every gang of an admitted job: (job, gang, place). -/
def State.gangs (s : State) : List (Nat × Nat × Gang) :=
  s.compute.jobs.flatMap (fun j => if j.2.admitted then j.2.gangs.map (fun g => (j.1, g.1, g.2)) else [])

/-- The gangs on a core. -/
def State.gangsOn (s : State) (c : CoreNo) : List (Nat × Nat × Gang) := s.gangs.filter (fun x => x.2.2.core = c)

/-- The threads of a gang. -/
def State.gangThreads (s : State) (j g : Nat) : List (Nat × Thread) := s.compute.threads.filter (fun e => e.2.job = j && e.2.gang = g)

/-- A gang's effective class: the highest among its threads (08 R255). -/
def State.gangCls (s : State) (j g : Nat) : Cls :=
  ((s.gangThreads j g).map (fun e => s.threadCls e.2)).foldl Cls.higher (((s.job? j).map (·.cls)).getD .system)

/-- Whether a gang has a thread that has not ended. -/
def State.gangLive (s : State) (j g : Nat) : Bool := (s.gangThreads j g).any (fun e => e.2.st ≠ .ended && e.2.st ≠ .stopped)

/-- Whether every unit is at a boundary for a gang: nothing of it that has started is still running (03 R117; 04 R134, R145; 08 R266). -/
def State.atBoundary (s : State) (j g : Nat) : Bool :=
  let ts := (s.gangThreads j g).map (·.1)
  !(Tab.vals s.compute.ctxs).any (fun k => k.thread ∈ ts && k.busy)
    && !(Tab.vals s.compute.cores).any (fun c => ((c.vxRun.map (fun u => decide (u.1.thread ∈ ts))).getD false) || ((c.slRun.map (fun u => decide (u.uop.thread ∈ ts))).getD false))

/-- Of two gangs, whether the first is the victim before the second: lower class, then the job admitted later (08 R265). -/
def State.victimBefore (s : State) (a b : Nat × Nat × Gang) : Bool :=
  let x := s.gangCls a.1 a.2.1
  let y := s.gangCls b.1 b.2.1
  let o := fun (j : Nat) => ((s.job? j).map (·.order)).getD 0
  y.above x || (x = y && o b.1 < o a.1)

/-- The allotments that lie in a core's bench memory. -/
def State.benchUsed (s : State) (c : CoreNo) : List (Nat × Nat) :=
  (s.gangsOn c).filterMap (fun x => if x.2.2.saved.isSome then none else some (x.2.2.allotAt, ((s.job? x.1).map (·.allot)).getD 0))

/-- The lowest place for an allotment in a core's bench memory, in steps of 64 KiB. -/
def State.benchPlace (s : State) (c : CoreNo) (n : Nat) : Option Nat :=
  let used := s.benchUsed c
  ((List.range 128).map (65536 * ·)).find? (fun a => a + n ≤ benchTop && used.all (fun r => a + n ≤ r.1 || r.1 + r.2 ≤ a))

/-- A gang's allotment is saved whole to its image, its read-only marks with it (07 R227; 08 R266, R268). -/
def State.saveGang (s : State) (j g : Nat) : State :=
  match (s.job? j).bind (fun x => (Tab.find x.gangs g).map (fun y => (x.allot, y))) with
  | none => s
  | some (n, y) =>
    if y.saved.isSome then s
    else
      let lo := y.allotAt / 1024
      let bench := (s.core y.core).bench
      let image : Mem := (Mem.part bench y.allotAt n).map (fun e => (e.1 - y.allotAt, e.2))
      let ro := (s.winMarks y).filter (· < n / 1024)
      let s := s.modCore y.core (fun c => { c with
        bench := Mem.clear c.bench y.allotAt n
        readOnly := c.readOnly.filter (fun l => l < lo || lo + n / 1024 ≤ l) })
      s.modGang j g (fun y => { y with saved := some image, savedRo := ro })

/-- A saved allotment comes back at a place, to the same offsets of its window (08 R268). -/
def State.restoreGang (s : State) (j g at0 : Nat) : State :=
  match (s.job? j).bind (fun x => (Tab.find x.gangs g).map (fun y => (x.allot, y))) with
  | none => s
  | some (n, y) =>
    match y.saved with
    | none => s
    | some m =>
      let s := s.modCore y.core (fun c => { c with
        bench := c.bench.filter (fun e => e.1 < at0) ++ (Mem.part m 0 n).map (fun e => (e.1 + at0, e.2)) ++ c.bench.filter (fun e => at0 + n ≤ e.1)
        readOnly := c.readOnly ++ y.savedRo.map (· + at0 / 1024) })
      s.modGang j g (fun y => { y with allotAt := at0, saved := none, savedRo := [] })

/-- Whether a gang of a class may take what a pre-empted gang of a core holds: it ranks above it, or the core has been given to its class (08 R265, R275). -/
def State.takesFrom (s : State) (c : CoreNo) (cls : Cls) (x : Nat × Nat × Gang) : Bool :=
  x.2.2.preempted && (cls.above (s.gangCls x.1 x.2.1) || ((s.core c).given.map (fun g => decide (g.1 = cls))).getD false)

/-- Room for an allotment of a gang of class `cls` on a core: free as it is, or after the allotments of pre-empted gangs it may take from have been saved at a boundary,
the first victim first (08 R265, R266, R275). -/
def State.benchRoom (s : State) (c : CoreNo) (cls : Cls) (n : Nat) : Nat → Option (Nat × State)
  | 0 => (s.benchPlace c n).map (fun a => (a, s))
  | k + 1 =>
    match s.benchPlace c n with
    | some a => some (a, s)
    | none =>
      match sortBy s.victimBefore ((s.gangsOn c).filter (fun x =>
        x.2.2.saved.isNone && s.takesFrom c cls x && s.atBoundary x.1 x.2.1)) with
      | v :: _ => (s.saveGang v.1 v.2.1).benchRoom c cls n k
      | [] => none

/-! ## Admission (08 R257, R264; 06 R180 to R182; 14 R485). -/

/-- Bytes of one engine context in a save area: the words of two tiles with their marks and exponents, both drain files in full, and the lists of KEEP16 (03 R104, R117;
08 R264). -/
def contextBytes : Nat := 4096 + 1024 + 2 * 98304 + 4096

/-- Bytes of a selection's saved context (04 R145). -/
def selectBytes : Nat := 1280

/-- Bytes of a gang's save area (08 R264). -/
def saveBytes (allot : Nat) : Nat := allot + 8 * contextBytes + selectBytes

/-- Bytes of the save areas of a job's gangs. -/
def Job.areaBytes (x : Job) : Nat := x.n / x.g * saveBytes x.allot

/-- Whether a job's save areas can be reserved beside what HBM holds already (08 R264). -/
def State.saveRoom (s : State) (j : Job) : Bool := s.hbmGranted + j.areaBytes ≤ s.hbmBytes

/-- Of two waiting jobs of one class, whether the first is ahead in its queue (08 R257). -/
def aheadOf (a b : Job) : Bool :=
  match a.deadline, b.deadline with
  | some x, some y => x < y || (x = y && a.arrival < b.arrival)
  | some _, none => true
  | none, some _ => false
  | none, none => a.arrival < b.arrival

/-- Whether a job is the first of its class's queue. -/
def State.firstInQueue (s : State) (k : Nat) (x : Job) : Bool :=
  s.compute.jobs.all (fun e => e.1 = k || e.2.cls ≠ x.cls || e.2.admitted || s.jobHalted e.2 || e.2.ending.isSome || !aheadOf e.2 x)

/-- Whether the cores chosen for a job's gangs are allowed: mapped in, and where the other cores suffice none that a failed run was on (14 R485). -/
def State.coresAllowed (s : State) (x : Job) (cores : List CoreNo) : Bool :=
  let fresh := (List.range 48).filter (fun c => s.coreIn c && c ∉ x.failedCores)
  cores.length = x.n / x.g && cores.all (fun c => s.coreIn c.val)
    && (fresh.length * gangsPerCore x.g x.allot < x.n / x.g || cores.all (fun c => c.val ∉ x.failedCores))

/-- Live threads on a core: of every gang there, pre-empted or not, and of the gangs placed whose threads are still to be created (06 R180, R182). -/
def State.threadsOn (s : State) (c : CoreNo) : Nat :=
  ((s.gangsOn c).map (fun x =>
    match s.gangThreads x.1 x.2.1 with
    | [] => ((s.job? x.1).map (·.g)).getD 0
    | l => (l.filter (fun e => e.2.st ≠ .ended)).length)).foldl (· + ·) 0

/-- Live threads of the module. -/
def State.liveThreads (s : State) : Nat := ((Tab.vals s.compute.threads).filter (fun t => t.st ≠ .ended)).length

/-- A gang's place and its allotment as its first thread finds it: undefined, or zeros at a restart (06 R181, R182; 14 R485; log entry 3). -/
def State.placeGang (s : State) (j : Nat) (x : Job) (g : Nat) (c : CoreNo) : Option State :=
  if coreThreads < s.threadsOn c + x.g then none
  else
    (s.benchRoom c x.cls x.allot (s.gangsOn c).length).map (fun r =>
      let s := r.2
      let bytes := if x.restarts = 0 then s.freeBytes x.allot else zeros x.allot
      let s := s.modCore c (fun k => { k with
        bench := Mem.write 0 k.bench r.1 bytes
        readOnly := k.readOnly.filter (fun l => l < r.1 / 1024 || (r.1 + x.allot) / 1024 ≤ l) })
      (if x.restarts = 0 then s.spend x.allot else s).modJob j (fun y => { y with gangs := Tab.put y.gangs g ⟨c, r.1, false, 0, none, [], []⟩, admitted := true }))

/-- The gangs of a job placed one after another. -/
def State.placeGangs (s : State) (j : Nat) (x : Job) : Nat → List CoreNo → Option State
  | _, [] => some s
  | g, c :: cs => (s.placeGang j x g c).bind (fun t => t.placeGangs j x (g + 1) cs)

/-- A thread at its first operation (06 R181). -/
def State.newThread (s : State) (j : Nat) (x : Job) (i : Nat) : Thread :=
  let data := ((Tab.find s.compute.mods x.modh).map (·.dataBase)).getD 0
  let regs : Tab W64 := [(0, BitVec.ofNat 64 i), (1, BitVec.ofNat 64 x.n), (2, x.arg), (3, BitVec.ofNat 64 s.moduleNumber), (4, BitVec.ofNat 64 (i % x.g)),
    (5, BitVec.ofNat 64 (i / x.g)), (6, BitVec.ofNat 64 data)]
  ⟨j, i, i / x.g, x.entry, regs, [], [], [], [], .ready⟩

/-- The JOB_RESTART events of a restart: both placements of each gang (14 R485, 15 R492). -/
def State.restartEvents (s : State) (x : Job) (cores : List CoreNo) : State :=
  if x.restarts = 0 then s
  else
    let tag := ((s.cmd? x.cmd).map (fun c => c.tag.toNat)).getD 0
    (x.failedCores.zip cores).foldl (fun s e =>
      s.record 0x4009 (sourceOf 2 e.2.val) (leBytes 4 tag ++ leBytes 1 e.1 ++ leBytes 1 e.2.val ++ leBytes 1 x.restarts)) s

/-- A job admitted on the cores chosen for its gangs, if it can be and its deadline has not passed; its gangs' save areas are homed in the System pseudo-channels
(08 R257, R258, R264). -/
def State.admitJob (s : State) (j : Nat) (cores : List CoreNo) : Option State :=
  match s.job? j with
  | none => none
  | some x =>
    if x.admitted || x.ending.isSome || s.jobHalted x || !s.firstInQueue j x || !s.coresAllowed x cores || !s.saveRoom x || 65536 < s.liveThreads + x.n
      || (x.deadline.map (fun d => decide (d < s.tick))).getD false then none
    else
      (s.placeGangs j x 0 cores).map (fun t =>
        let first := t.compute.nextThread
        let t := t.modCompute (fun c => { c with
          threads := c.threads ++ (List.range x.n).map (fun i => (first + i, t.newThread j x i))
          nextThread := first + x.n
          arrivals := c.arrivals + 1 })
        let t := t.modJob j (fun y =>
          { y with admitted := true, started := if x.restarts = 0 then t.now else y.started, order := t.compute.arrivals, saveArea := x.areaBytes, saveMask := t.pcMask .system })
        t.fitPool.restartEvents x cores)

/-- JOB_ADMISSION (08 R257): the first job of its class's queue is admitted on these cores, one for each gang in order. -/
def execJobAdmission (job : Nat) (cores : List CoreNo) (s : State) : Host.Outcome State Fault Refusal := .next ((s.admitJob job cores).getD s)

/-! ## Pre-emption (08 R265 to R271, R277). -/

/-- How many allotments of n bytes have a place beside some that lie in a core's bench memory. -/
def benchSlots (n : Nat) : Nat → List (Nat × Nat) → Nat
  | 0, _ => 0
  | k + 1, used =>
    match ((List.range 128).map (65536 * ·)).find? (fun a => a + n ≤ benchTop && used.all (fun r => a + n ≤ r.1 || r.1 + r.2 ≤ a)) with
    | none => 0
    | some a => 1 + benchSlots n k ((a, n) :: used)

/-- How many allotments a core takes for gangs of a class, beside those of gangs it may not take from; what it takes is saved first. -/
def State.benchFit (s : State) (c : CoreNo) (cls : Cls) (n : Nat) : Nat :=
  benchSlots n 128 ((s.gangsOn c).filterMap (fun x =>
    if x.2.2.saved.isSome || s.takesFrom c cls x then none else some (x.2.2.allotAt, ((s.job? x.1).map (·.allot)).getD 0)))

/-- How many gangs of a job a core takes as it stands, and how many its threads alone would let it take (06 R180; 08 R257). -/
def State.coreFit (s : State) (x : Job) (c : CoreNo) : Nat × Nat :=
  let threads := (coreThreads - s.threadsOn c) / x.g
  if s.coreIn c.val then (min threads (s.benchFit c x.cls x.allot), threads) else (0, 0)

/-- The gangs of a job that the cores would take as they stand. -/
def State.gangsFit (s : State) (x : Job) : Nat := ((List.finRange 48).map (fun c => (s.coreFit x c).1)).foldl (· + ·) 0

/-- The engine contexts of a core that wait for an engine: with operations queued, of gangs not pre-empted (08 R263). -/
def State.waitingCtxs (s : State) (c : CoreNo) : List Ctx :=
  (Tab.vals s.compute.ctxs).filter (fun k => k.core = c && k.engine.isNone && !k.queue.isEmpty && !s.ctxOut k)

/-- Whether a gang ranking above a class needs what gangs of a core hold: bench memory for the first job of its class's queue, if the cores do not take its gangs as they stand
and this one would take more, or for a saved gang of the core that has no place to come back to; or engines, where a context of it waits and no engine is idle
(08 R263, R265, R266). -/
def State.rankWaits (s : State) (c : CoreNo) (cls : Cls) : Bool :=
  s.compute.jobs.any (fun e => !e.2.admitted && e.2.ending.isNone && !s.jobHalted e.2 && e.2.cls.above cls && s.firstInQueue e.1 e.2
      && decide (s.gangsFit e.2 < e.2.n / e.2.g) && decide ((s.coreFit e.2 c).1 < (s.coreFit e.2 c).2))
    || (s.gangsOn c).any (fun x => x.2.2.preempted && x.2.2.saved.isSome && (s.gangCls x.1 x.2.1).above cls && s.gangLive x.1 x.2.1 && s.jobRuns x.1
      && s.benchFit c (s.gangCls x.1 x.2.1) (((s.job? x.1).map (·.allot)).getD 0) = 0)
    || (s.idleEngines c = [] && (s.waitingCtxs c).any (fun k => (s.ctxCls k).above cls))

/-- A running selection of some threads stops within its pass at the next multiple of 262,144 bytes (04 R145). -/
def State.cutSelection (s : State) (ts : List Nat) (x : Core) : Core :=
  match x.slRun with
  | none => x
  | some q =>
    if q.uop.thread ∉ ts ∨ q.cut.isSome then x
    else
      let left := ceilDiv (q.due - s.now) arrayUnits
      match slCut (slBytes q.uop.rcd (s.reader q.uop.thread) q.uop.base) q.done left with
      | none => x
      | some n =>
        let at0 := slPassCycles q.uop.rcd (s.reader q.uop.thread) q.uop.base q.done - left
        { x with slRun := some { q with cut := some n, due := s.now + (ceilDiv (n - q.done) 256 - at0) * arrayUnits } }

/-- The streams of some threads give back the credits they have drawn and not used (08 R270; 11 R350). -/
def State.dropCredits (s : State) (ts : List Nat) : State :=
  (s.span.streams.filter (fun e => e.2.sending && ((s.streamThread e.2).map (fun t => decide (t ∈ ts))).getD false)).foldl (fun (s : State) (e : Nat × TStream) => s.returnCredits e.1) s

/-- A gang's issue stops; its engine contexts at a boundary leave their engines, its selection goes to its next boundary, and its streams
give back their credits (04 R145; 08 R266, R270). -/
def State.preempt (s : State) (j g : Nat) : State :=
  let ts := (s.gangThreads j g).map (·.1)
  ((s.dropCredits ts).modGang j g (fun y => { y with preempted := true })).modCompute (fun c =>
    { c with
      ctxs := c.ctxs.map (fun k => if k.2.thread ∈ ts && !k.2.busy then (k.1, k.2.saved k.1) else k)
      cores := Tab.changeAll c.cores (s.cutSelection ts) })

/-- The least run of a resumed gang, 100 µs (08 R275, R277). -/
def resumedRun : Nat := 100 * usUnits

/-- Whether a gang that is not pre-empted has still to have its run of 100 µs: since it resumed, or since its core was given to its class (08 R275, R277). -/
def State.mustRun (s : State) (j g : Nat) (x : Gang) : Bool :=
  (x.since ≠ 0 && s.now < x.since + resumedRun) || ((s.core x.core).given.map (fun y => decide (y.1 = s.gangCls j g ∧ s.now < y.2 + resumedRun))).getD false

/-- PREEMPTION (08 R265, R266, R277): the victim of its core, for a gang ranking above it that still needs it; or a gang of a job that Stopwork halts. -/
def execPreemption (job : Nat) (gang : Nat) (s : State) : Host.Outcome State Fault Refusal :=
  match (s.job? job).bind (fun x => (Tab.find x.gangs gang).map (fun g => (x, g))) with
  | none => .next s
  | some (x, g) =>
    if !x.admitted || g.preempted then .next s
    else if s.jobHalted x then .next (s.preempt job gang)
    else
      let first := (s.gangsOn g.core).all (fun y => (y.1 = job && y.2.1 = gang) || y.2.2.preempted || !s.victimBefore y (job, gang, g))
      if s.rankWaits g.core (s.gangCls job gang) && first && !s.mustRun job gang g then .next (s.preempt job gang)
      else .next s

/-- The streams of a gang that resumes: each sends again from its first packet not acknowledged, then goes on (08 R270). -/
def State.kickStreams (s : State) (ts : List Nat) : State :=
  s.span.streams.foldl (fun (s : State) (e : Nat × TStream) =>
    if e.2.sending && ((s.streamThread e.2).map (fun t => decide (t ∈ ts))).getD false then
      s.streamAgain e.1
    else s) s

/-- A pre-empted gang resumes on its core, its allotment restored first where it was saved; it stays where there is no room. Its contexts with operations queued go to
idle engines, its streams go on, and the instances it leads are checked (08 R263, R266, R268, R270). -/
def State.resumeGang (s : State) (j g : Nat) : State :=
  match (s.job? j).bind (fun x => (Tab.find x.gangs g).map (fun y => (x, y))) with
  | none => s
  | some (x, y) =>
    let ts := (s.gangThreads j g).map (·.1)
    let go := fun (s : State) =>
      let s := s.modGang j g (fun y => { y with preempted := false, since := s.now })
      let back := s.compute.ctxs.filter (fun k => k.2.thread ∈ ts && !k.2.queue.isEmpty)
      let s := (back.foldl (fun (s : State) (k : Nat × Ctx) => s.placeCtx k.1) s).kickStreams ts
      (s.span.insts.filter (fun i => (i.thread.map (fun t => decide (t ∈ ts))).getD false)).foldl (fun s i => s.leaderCheck i.key) s
    match y.saved with
    | none => go s
    | some _ =>
      match s.benchRoom y.core (s.gangCls j g) x.allot (s.gangsOn y.core).length with
      | some r => go (r.2.restoreGang j g r.1)
      | none => s

/-- Pre-empted gangs of a core that nothing ranking above keeps out resume, the highest class and the earliest admission first (08 R266; log entry 59). -/
def State.resumeCore (s : State) (c : CoreNo) : State :=
  (sortBy (fun a b => s.victimBefore b a) ((s.gangsOn c).filter (fun x => x.2.2.preempted && s.jobRuns x.1))).foldl (fun s x =>
    let cls := s.gangCls x.1 x.2.1
    let kept := (s.gangsOn c).any (fun y => !y.2.2.preempted && s.gangLive y.1 y.2.1 && s.jobRuns y.1 && (s.gangCls y.1 y.2.1).above cls)
    if kept then s else s.resumeGang x.1 x.2.1) s

/-! ## Minimum shares (08 R274, R275). -/

/-- Array cycles of one unit in one share window, and the engines a core has for it (08 R275). -/
def State.windowCycles (s : State) (c : CoreNo) : Nat × Nat :=
  (bitsOf s.regul.policy.toNat 40 8 * msUnits / arrayUnits, ((List.range 8).filter (fun e => s.engineIn (8 * c.val + e))).length)

/-- The share of a class in percent (08 R274). -/
def State.shareOf (s : State) (cls : Cls) : Nat := if cls = .background then bitsOf s.regul.policy.toNat 16 8 else bitsOf s.regul.policy.toNat 24 8

/-- Whether a class has had less than its share of a core's engine time in this window, and of its vector cycles (08 R275). -/
def State.enginesShort (s : State) (c : CoreNo) (cls : Cls) : Bool :=
  (if cls = .background then (s.core c).bgUsed else (s.core c).sysUsed) * 100 < s.shareOf cls * ((s.windowCycles c).1 * (s.windowCycles c).2)

def State.vectorShort (s : State) (c : CoreNo) (cls : Cls) : Bool :=
  (if cls = .background then (s.core c).bgVx else (s.core c).sysVx) * 100 < s.shareOf cls * (s.windowCycles c).1

/-- Whether a class has work waiting for a core as a whole: a pre-empted gang, or the first job of its queue where the cores do not take its gangs as they stand and this one
would take more (08 R275, R276). -/
def State.gangWaits (s : State) (c : CoreNo) (cls : Cls) : Bool :=
  (s.gangsOn c).any (fun y => y.2.2.preempted && s.gangCls y.1 y.2.1 = cls && s.gangLive y.1 y.2.1 && s.jobRuns y.1)
    || s.compute.jobs.any (fun e => !e.2.admitted && e.2.ending.isNone && !s.jobHalted e.2 && e.2.cls = cls && s.firstInQueue e.1 e.2
      && decide (s.gangsFit e.2 < e.2.n / e.2.g) && decide ((s.coreFit e.2 c).1 < (s.coreFit e.2 c).2))

/-- Whether a class waits for an engine of a core, and for its vector unit. -/
def State.engineWaits (s : State) (c : CoreNo) (cls : Cls) : Bool := s.idleEngines c = [] && (s.waitingCtxs c).any (fun k => s.ctxCls k = cls)
def State.vectorWaits (s : State) (c : CoreNo) (cls : Cls) : Bool := (s.core c).vxWait.any (fun u => s.unitCls u = cls)

/-- Whether a class has work waiting on a core and has not had its share of this window, of engine time or of vector cycles (08 R275). -/
def State.starved (s : State) (c : CoreNo) (cls : Cls) : Bool :=
  (s.gangWaits c cls && (s.enginesShort c cls || s.vectorShort c cls)) || (s.engineWaits c cls && s.enginesShort c cls) || (s.vectorWaits c cls && s.vectorShort c cls)

/-- A core goes to a class: the gangs ranking above it are pre-empted, but for those that have still to have their run, and its own resume (08 R275, R277). -/
def State.giveCore (s : State) (c : CoreNo) (cls : Cls) : State :=
  let s := ((s.gangsOn c).filter (fun y => !y.2.2.preempted && (s.gangCls y.1 y.2.1).above cls && !s.mustRun y.1 y.2.1 y.2.2)).foldl (fun s y => s.preempt y.1 y.2.1) s
  let s := s.modCore c (fun x => { x with given := some (cls, s.now) })
  ((s.gangsOn c).filter (fun y => y.2.2.preempted && s.gangCls y.1 y.2.1 = cls && s.jobRuns y.1)).foldl (fun s y => s.resumeGang y.1 y.2.1) s

/-- SHARE_WINDOW (08 R275): a core's window, started anew once it has passed; Background and System get their minimum shares, in runs of 100 µs, and pre-empted gangs that
nothing keeps out resume. -/
def execShareWindow (c : CoreNo) (s : State) : Host.Outcome State Fault Refusal :=
  let w := bitsOf s.regul.policy.toNat 40 8 * msUnits
  let s := if (s.core c).shareSince + w ≤ s.now then s.modCore c (fun x => { x with bgUsed := 0, sysUsed := 0, bgVx := 0, sysVx := 0, shareSince := s.now }) else s
  .next (if ((s.core c).given.map (fun g => decide (s.now < g.2 + resumedRun))).getD false then s
    else if s.starved c .background then s.giveCore c .background
    else if s.starved c .system then s.giveCore c .system
    else (s.modCore c (fun x => { x with given := none })).resumeCore c)

/-! ## Engine contexts (08 R263). -/

/-- Whether a waiting context displaces a resident one at a boundary: one with nothing queued, or of a pre-empted gang; the lowest-ranked one, for a higher class; in its own
class the one that has held its engine longest, after 40 µs (08 R263). -/
def State.displaces (s : State) (inn out : Ctx) : Bool :=
  let res := (Tab.vals s.compute.ctxs).filter (fun k => k.core = out.core && k.engine.isSome)
  let a := s.ctxCls inn
  let b := s.ctxCls out
  out.queue.isEmpty || s.ctxOut out
    || (a.above b && res.all (fun k => !b.above (s.ctxCls k)))
    || (a = b && out.since + 40 * usUnits ≤ s.now && res.all (fun k => s.ctxCls k ≠ b || out.since ≤ k.since))

/-- CONTEXT_SWITCH (08 R263, 03 R117): a context goes out at its boundary and another of the core takes its engine. -/
def execContextSwitch (c : CoreNo) (out : Nat) (inn : Nat) (s : State) : Host.Outcome State Fault Refusal :=
  match Tab.find s.compute.ctxs out, Tab.find s.compute.ctxs inn with
  | some x, some y =>
    match x.engine with
    | none => .next s
    | some e =>
      if x.core = c ∧ y.core = c ∧ y.engine = none ∧ y.queue ≠ [] ∧ ¬ s.ctxOut y ∧ ¬ x.busy ∧ s.idleEngines c = [] ∧ s.displaces y x then
        let s := s.modCtx out (fun k => k.saved out)
        .next (s.modCtx inn (fun k => { k with engine := some e, since := s.now }))
      else .next s
  | _, _ => .next s

/-! ## Steps (05 R165, R173; 08 R259 to R262). -/

/-- The Regulator's step state replaced. -/
def State.withSteps (s : State) (x : Steps) : State := { s with steps := x }

/-- A prefill: its number, class, tokens and model, and when it began (08 R261). -/
structure Prefill where
  ident : Nat
  cls : Cls
  tokens : Nat
  model : W64
  since : Nat
deriving DecidableEq, Repr, Inhabited

/-- The prefills there are: the questions of running ASKs whose groups are in place, those of ASKs that wait for their retrieval vector, the system text of sessions that open,
and the builds of context caches (08 R261; 10 R326 to R328). -/
def State.prefills (s : State) : List Prefill :=
  (s.serv.sessions.filterMap (fun e => (e.2.run.filter (fun r => r.placed && !s.serviceWaits r.cmd)).map (fun r =>
      ⟨textPrefill r.cmd, .interactive, ((s.cmd? r.cmd).map (fun c => Config.textTokens e.2.model (askQuestion c))).getD 0, e.2.model, e.2.lastStep⟩)))
    ++ ((Tab.vals s.host.cmds).filter (fun c => c.opcode = 0x0502 && c.stage = 4)).filterMap (fun c => (Tab.find s.serv.sessions c.object).map (fun x =>
      ⟨scratchPrefill c.ident, .interactive, Config.textTokens x.model (askQuestion c), x.model, c.aux.getD 2 0⟩))
    ++ ((Tab.vals s.host.cmds).filter (fun c => c.opcode = 0x0501 && c.stage = 2)).map (fun c =>
      ⟨textPrefill c.ident, .interactive, Config.textTokens (BitVec.ofNat 64 (c.field 0x10 8)) c.pushed, BitVec.ofNat 64 (c.field 0x10 8), c.aux.headD 0⟩)
    ++ (s.serv.builds.filter (fun b => s.decodes (.build b.key))).filterMap (fun b => (s.buildModel b).map (fun m => ⟨buildPrefill b.key, .background, b.tokens, m, b.since⟩))

/-- The chunks of a prefill: 512 tokens each, the last one shorter (08 R261). -/
def chunksFor (p : Prefill) : List Chunk :=
  (List.range (ceilDiv p.tokens 512)).map (fun i => ⟨p.ident, i, 0, (modelShape p.model).1, p.cls, 0⟩)

/-- The chunks that wait before a step: those of prefills gone and those that have taken all their layers are dropped, new prefills are cut, the oldest first, and each chunk
notes what its predecessor has taken (08 R261, R262). -/
def State.waitingChunks (s : State) : List Chunk × List Nat :=
  let ps := s.prefills
  let ids := ps.map (·.ident)
  let fresh := sortBy (fun a b => a.since < b.since) (ps.filter (fun p => p.ident ∉ s.steps.known))
  let l := s.steps.chunks.filter (fun c => c.prefill ∈ ids && c.nextLayer < c.layers) ++ fresh.flatMap chunksFor
  (l.map (fun c => { c with prevDone := match l.find? (fun d => d.prefill = c.prefill ∧ d.num + 1 = c.num) with
      | some d => d.nextLayer
      | none => c.layers }), ids)

/-- The composition of a step as it goes: chunks done with, slices admitted, engine time used, times left, and whether it has stopped (08 R262). -/
structure Composing where
  done : List Chunk
  slices : List (Nat × Nat × Nat)
  used : Nat
  times : List Nat
  stopped : Bool
deriving DecidableEq, Repr, Inhabited

/-- The slices of one chunk: while it has a next layer allowed, and within the budget unless the step has no slice yet (08 R262). -/
def composeChunk (budget : Option Nat) (c : Chunk) : Nat → Composing → Chunk × Composing
  | 0, x => (c, x)
  | n + 1, x =>
    if x.stopped || c.layers ≤ c.nextLayer || c.prevDone ≤ c.nextLayer then (c, x)
    else
      let t := x.times.headD 0
      let past : Bool := match budget with
        | some b => b < x.used + t && !x.slices.isEmpty
        | none => false
      if past then (c, { x with stopped := true })
      else composeChunk budget { c with nextLayer := c.nextLayer + 1 } n { x with slices := x.slices ++ [(c.prefill, c.num, c.nextLayer)], used := x.used + t, times := x.times.drop 1 }

/-- A step composed from the chunks in order: Interactive before Background, then the oldest prefill (08 R262). -/
def compose (budget : Option Nat) (tokenTime : Nat) (times : List Nat) (cs : List Chunk) : Composing :=
  (sortBy (fun a b => a.cls.above b.cls) cs).foldl (fun x c =>
    let r := composeChunk budget c c.layers x
    { r.2 with done := r.2.done ++ [r.1] }) ⟨[], [], tokenTime, times, false⟩

/-- The sessions ready for a token step: their answers are being decoded (08 R260). -/
def State.readySessions (s : State) : Tab Session := s.serv.sessions.filter (fun e => (e.2.run.map s.decoding).getD false)

/-- Those in the batch, the one whose last is oldest first, at most STEP_BATCH_MAX (08 R260). -/
def State.readyBatch (s : State) : List Nat :=
  ((sortBy (fun a b => a.2.lastStep < b.2.lastStep) s.readySessions).map (·.1)).take (bitsOf s.regul.policy.toNat 32 8)

/-- The Background passes that wait: the encoder passes of the ITEM_PUTs being ingested, by command, and the pass of an adaptation job, 0 (08 R260). -/
def State.wantedPasses (s : State) : List Nat :=
  s.serv.decoders.filterMap (fun d => match d.2.1 with
    | .put id => some id
    | .build _ => none) ++ (if (s.serv.adapt.map (fun a => decide (a.state = 1))).getD false then [0] else [])

/-- Those of them that have not run yet, which follow a batch. -/
def State.backPasses (s : State) : List Nat := s.wantedPasses.filter (· ∉ s.steps.ran)

/-- The layers of a Background pass, those of the encoder for pictures (08 R259; log entry 75). -/
def State.passLayers (s : State) (p : Nat) : Nat :=
  max 1 (modelShape (if p = 0 then (s.serv.adapt.map (·.encV)).getD s.items.encV else s.items.encV)).1

/-- The Background passes of a step that is over have run (08 R259). -/
def State.passesTaken (s : State) : State := s.withSteps { s.steps with ran := (s.steps.ran ++ s.steps.passes).dedup.filter (· ∈ s.wantedPasses), passes := [] }

/-- The token steps of a step that is over: each gives its session one token more (08 R259). -/
def State.tokensTaken (s : State) : State :=
  { s with serv := { s.serv with sessions := s.serv.sessions.map (fun e =>
    if e.1 ∈ s.steps.batch then (e.1, { e.2 with run := e.2.run.map (fun r => { r with avail := r.avail + 1 }) }) else e) } }

/-- The sessions of a batch have had their turn (08 R260). -/
def State.turnTaken (s : State) (batch : List Nat) : State :=
  { s with serv := { s.serv with sessions := s.serv.sessions.map (fun e => if e.1 ∈ batch then (e.1, { e.2 with lastStep := s.now }) else e) } }

/-- A step in step mode: the batch, then the chunk slices that the budget takes (08 R260 to R262). -/
def State.stepMode (s : State) (hbmTime tokenTime : Nat) (sliceTimes : List Nat) (w : List Chunk × List Nat) : State :=
  let batch := s.readyBatch
  let budget := if batch.isEmpty then none else some (bitsOf s.regul.policy.toNat 8 8 * hbmTime / 100)
  let x := compose budget tokenTime sliceTimes w.1
  (s.turnTaken batch).withSteps { s.steps with
    index := s.steps.index + 1, svcKernel := false, batch := batch, admitted := x.slices, chunks := x.done, known := w.2, pass := none, passes := s.backPasses, back := none }

/-- The chunk that takes its next layer in kernel mode: the first allowed one, Interactive before Background, then the oldest prefill (08 R259, R261). -/
def nextChunk (cs : List Chunk) : Option Chunk := (sortBy (fun a b => a.cls.above b.cls) cs).find? (fun c => c.nextLayer < c.layers && c.nextLayer < c.prevDone)

/-- A layer of a Background pass, which has run once it takes its last one (08 R259, R260). -/
def State.backLayer (s : State) (base : Steps) : State :=
  match (match s.steps.back.filter (fun p => p.1 ∈ s.backPasses) with
    | some p => some p
    | none => s.backPasses.head?.map (fun p => (p, 0))) with
  | none => s.withSteps { base with back := none }
  | some (p, l) => if l + 1 < s.passLayers p then s.withSteps { base with back := some (p, l + 1) } else s.withSteps { base with back := none, passes := [p] }

/-- A step in kernel mode: one layer of one model pass, either of a chunk or of the token step of one session, whose batch it is once the pass takes its last layer. Where both
wait they take turns; where neither does, a Background pass takes a layer (08 R259, R260; DESIGN CHOICE, log entry 75). -/
def State.kernelStep (s : State) (w : List Chunk × List Nat) : State :=
  let base := { s.steps with index := s.steps.index + 1, svcKernel := true, batch := [], admitted := [], chunks := w.1, known := w.2, passes := [] }
  let token := match s.steps.pass.filter (fun p => Tab.has s.readySessions p.1) with
    | some p => some p
    | none => s.readyBatch.head?.map (fun h => (h, 0))
  match nextChunk w.1, token with
  | some c, none => s.withSteps { base with
      admitted := [(c.prefill, c.num, c.nextLayer)], pass := none
      chunks := w.1.map (fun d => if d = c then { d with nextLayer := d.nextLayer + 1 } else d) }
  | none, none => s.backLayer { base with pass := none }
  | chunk, some (h, l) =>
    match chunk.filter (fun _ => s.steps.turn) with
    | some c => s.withSteps { base with
        admitted := [(c.prefill, c.num, c.nextLayer)], pass := some (h, l), turn := false
        chunks := w.1.map (fun d => if d = c then { d with nextLayer := d.nextLayer + 1 } else d) }
    | none =>
      let layers := ((Tab.find s.serv.sessions h).map (fun x => (modelShape x.model).1)).getD 0
      if l + 1 < layers then s.withSteps { base with pass := some (h, l + 1), turn := true }
      else (s.turnTaken [h]).withSteps { base with batch := [h], pass := none, turn := true }

/-- STEP_COMPOSE (08 R259 to R262, R274): the next step: the operands are the Regulator's predictions of the step's HBM time, of its token steps'
engine time, and of each slice in turn. -/
def execStepCompose (hbmTime : Nat) (tokenTime : Nat) (sliceTimes : List Nat) (s : State) : Host.Outcome State Fault Refusal :=
  let s := s.tokensTaken.passesTaken
  let w := s.waitingChunks
  let s := s.withSteps { s.steps with chunks := w.1, known := w.2 }
  .next (if bitOf s.regul.policy.toNat 0 then s.kernelStep w else s.stepMode hbmTime tokenTime sliceTimes w)

end Sys2Proof.Machine
end

