-- ==== Sys2Proof/Machine/Integrity.lean ====
section
/-! DEFINITION. The Plane scrubber, the leak of the buckets, shadow comparisons, arbitration, strikes and calibration (14 R461 to R488). -/

namespace Sys2Proof.Machine

/-! ## The scrubber (14 R463 to R466). -/

/-- The health count of a class's uncorrectable words (15 R503); the class's code in UNCORRECTABLE_WORD is its place in the same order. -/
def RegionCls.uncorrected (k : RegionCls) : Nat := 2 * k.idx + 1

/-- The region of the HBM buckets that a device address lies in now: by its grant, or by the tile of T2's pool that holds it (07 R233; 08 R272; 14 R467; log entry 72). -/
def State.hbmRegion (s : State) (a : Nat) : Option Nat :=
  if a / 2 ^ 56 = 0 then
    ((Tab.vals s.tiers.grants).find? (fun g => g.region = 0 && g.base ≤ a && a < g.base + g.len)).map (fun g => 32 * s.stackOf g a + s.channelOf g a)
  else (Tab.find s.tiers.t2 (a / 65536)).map (fun x => s.poolRegion x a)

/-- The tile kind of an HBM block: 0 lent, of an immutable grant or cache, 1 mutable, 2 not HBM (14 R465; log entry 63). -/
def State.blockKind (s : State) (k : RegionCls) (addr : Nat) : Nat := if k ≠ .hbm then 2 else if s.tileImmutable (addr / 65536) then 0 else 1

/-- What an uncorrectable word leaves behind: a lent block's copy is dropped from T2's pool and fetched again, one of an immutable region 0x00 grant at once; a mutable block, a
word of bench memory and a word of pinned ways fail every read until they are written; a clean line is dropped and a dirty one stays, not evictable (07 R225, R240;
14 R463, R465). -/
def State.wordLost (s : State) (k : RegionCls) (region addr : Nat) : State :=
  let bad := fun (c : Nat) (a : Nat) => { s with integ := { s.integ with
    badWords := if (c, region, a) ∈ s.integ.badWords then s.integ.badWords else s.integ.badWords ++ [(c, region, a)] } }
  match k with
  | .bench => bad 0 (addr / 8 * 8)
  | .hbm =>
    if s.blockKind k addr = 0 then s.modTiers (fun t => { t with t2 := Tab.del t.t2 (addr / 65536) })
    else s.modTiers (fun t => { t with hbmBad := if addr / 64 ∈ t.hbmBad then t.hbmBad else t.hbmBad ++ [addr / 64] })
  | .cache =>
    if addr / 2 ^ 56 = 3 then bad 1 (addr / 8 * 8)
    else
      match Tab.find s.tiers.lines (addr / 128) with
      | none => s
      | some x =>
        if x.dirty then (bad 1 (addr / 8 * 8)).modTiers (fun t => { t with lines := Tab.put t.lines (addr / 128) { x with stuck := true } })
        else s.modTiers (fun t => { t with lines := Tab.del t.lines (addr / 128) })
  | _ => s

/-- The end of a region's pass: without an overflow in it the divisor falls by 1 (14 R466). -/
def State.passEnds (s : State) (k : RegionCls) (region : Nat) : State :=
  let n := regionKey k region
  let quiet := n ∉ s.integ.overflowed
  let s := { s with integ := { s.integ with overflowed := s.integ.overflowed.filter (· ≠ n) } }
  if s.adaptEn && quiet then s.setDivisor k region (Tab.at s.integ.divisors n 0 - 1) else s

/-- PLANE_SCRUB (14 R464 to R466, R468): one word or block of its region read, corrected and counted, or found uncorrectable and recorded. -/
def execPlaneScrub (k : RegionCls) (region : Nat) (addr : Nat) (found : ScrubFind) (passEnd : Bool) (s : State) : Host.Outcome State Fault Refusal :=
  if ¬ s.power.good ∨ k.regions ≤ region ∨ k ∈ ([.path, .tenon, .pcie] : List RegionCls) ∨ (k = .hbm ∧ (s.hbmRegion addr).getD region ≠ region) then .next s
  else
    let s := match found with
      | .clean => s
      | .correctable => if k = .flash then s else s.correctable k region
      | .uncorrectable =>
        if k = .flash then s
        else
          let s := (s.count (RegionCls.uncorrected k) 1).record 0x4002 (k.source region) (leBytes 1 k.idx ++ leBytes 8 addr ++ leBytes 1 (s.blockKind k addr))
          s.wordLost k region addr
    .next (if passEnd then s.passEnds k region else s)

/-- BUCKET_LEAK (14 R468): LEAK_S after the last leak every non-zero count falls by 1. -/
def execBucketLeak (s : State) : Host.Outcome State Fault Refusal :=
  if ¬ s.power.good then .next s
  else
    let s := s.at_ (s.integ.leakAt + s.leakS * secUnits)
    .next { s with integ := { s.integ with leakAt := s.now, buckets := Tab.changeAll s.integ.buckets (fun n => n - 1) } }

/-! ## Shadow samples (14 R478 to R482). -/

/-- Whether a sampled operation has had its last cycle. -/
def State.sampleRun (s : State) (x : Capture) : Bool :=
  match Tab.find s.compute.ctxs x.ctx with
  | none => true
  | some k => !((k.running.map (fun r => decide (r.1.op = x.op))).getD false)

/-- A core's capture buffer is free again, and jobs that waited for the decision may end (14 R479). -/
def State.dropCapture (s : State) (c : Nat) : State :=
  State.settleAll { s with integ := { s.integ with captures := Tab.del s.integ.captures c } }

/-- SHADOW_COMPARE (14 R479, R480): an equal comparison has no further effect; a difference sets MISMATCH and waits for the third run. -/
def execShadowCompare (c : CoreNo) (equal : Bool) (s : State) : Host.Outcome State Fault Refusal :=
  match Tab.find s.integ.captures c.val with
  | none => .next s
  | some x =>
    if x.mismatch ∨ !s.sampleRun x then .next s
    else
      let s := s.count 17 1
      if equal then .next (s.dropCapture c.val)
      else
        let s := (s.count 19 1).setErr 8
        .next { s with integ := { s.integ with captures := Tab.put s.integ.captures c.val { x with mismatch := true } } }

/-- An engine receives a strike (14 R480, R481): the third live one retires it at its next boundary, or is only recorded. -/
def State.strike (s : State) (c : CoreNo) (e : EngNo) : State :=
  let n := 8 * c.val + e.val
  let s := (s.jigChange (fun j => { j with strikes := j.strikes ++ [⟨c.val, e.val, s.opTime⟩] })).count 20 1
  let s := s.record 0x4005 (sourceOf 3 n) (leBytes 2 n ++ leBytes 1 (s.strikesOf n))
  if s.strikesOf n < 3 then s
  else if s.retireEn then s.retireRipe c e
  else s.record 0x4007 (sourceOf 3 n) (leBytes 2 n)

/-- A core whose three runs all disagree is retired, and every job with a gang there restarts; while RETIRE_EN is 0 that is only recorded, under its primary engine, and the
sample's job fails its check (14 R480 to R482). -/
def State.suspectCore (s : State) (c : CoreNo) (x : Capture) : State :=
  if s.retireEn then
    let jobs := (s.compute.jobs.filter (fun j => (Tab.vals j.2.gangs).any (fun g => g.core = c))).map (·.1)
    ((s.retireCore c.val 2).checkFails x.job |> fun s => (jobs.filter (· ≠ x.job)).foldl State.checkFails s)
  else (s.record 0x4007 (sourceOf 3 (8 * c.val + x.primary)) (leBytes 2 (8 * c.val + x.primary))).checkFails x.job

/-- Whether an engine other than the primary and the shadow is idle for the third run (14 R480). -/
def State.thirdEngine (s : State) (c : CoreNo) (x : Capture) : Bool :=
  (List.finRange 48).any (fun d => (s.idleEngines d).any (fun e => d ≠ c || (e.val ≠ x.primary && e.val ≠ x.shadow)))

/-- ARBITRATION (14 R480 to R482, R484): the third run equals the primary, the shadow, or neither. -/
def execArbitration (c : CoreNo) (eqPrimary : Bool) (eqShadow : Bool) (s : State) : Host.Outcome State Fault Refusal :=
  match Tab.find s.integ.captures c.val with
  | none => .next s
  | some x =>
    if !x.mismatch ∨ !s.thirdEngine c x then .next s
    else
      let eng := fun (n : Nat) => (⟨n % 8, Nat.mod_lt _ (by decide)⟩ : EngNo)
      let s := { s with integ := { s.integ with captures := Tab.del s.integ.captures c.val } }
      let s := if eqPrimary then s.strike c (eng x.shadow)
        else if eqShadow then (s.checkFails x.job).strike c (eng x.primary)
        else s.suspectCore c x
      .next s.settleAll

/-- STRIKE_DAYS (14 R488). -/
def State.strikeDays (s : State) : Nat := bitsOf s.integ.policy.toNat 16 8

/-- STRIKE_EXPIRY (14 R481): an engine's oldest strike expires STRIKE_DAYS of operating time after it was given. -/
def execStrikeExpiry (c : CoreNo) (e : EngNo) (s : State) : Host.Outcome State Fault Refusal :=
  match s.integ.jig.strikes.find? (fun k => k.core = c.val && k.engine = e.val) with
  | none => .next s
  | some k =>
    let due := k.at_ + s.strikeDays * 86400000
    let s := s.at_ (s.now + (due - s.opTime) * msUnits)
    .next (s.jigChange (fun j => { j with strikes := j.strikes.erase k }))

/-! ## Calibration (14 R475). -/

/-- CALIBRATION (14 R475): a loaded image's sites get their bounds, stored with the image, so that a later load of it does not calibrate again. -/
def execCalibration (model : W64) (bounds : List (Nat × W32 × W32)) (s : State) : Host.Outcome State Fault Refusal :=
  match Tab.find s.serv.models model.toNat with
  | none => .next s
  | some x =>
    if !x.loaded ∨ x.calibrated then .next s
    else
      let s := { s with serv := { s.serv with models := Tab.put s.serv.models model.toNat { x with calibrated := true } } }
      .next { s with integ := { s.integ with
        sites := s.integ.sites.filter (fun y => y.model ≠ model) ++ bounds.map (fun b => ⟨model, b.1, b.2.1, b.2.2⟩) } }

end Sys2Proof.Machine
end

