-- ==== Sys2Proof/Machine/Models.lean ====
section
/-! DEFINITION. MODEL_LOAD and MODEL_UNLOAD: stored model images, their signatures, and what is loaded (13 R443, R444; 16 R527; 17 R537 to R539). -/

namespace Sys2Proof.Machine

/-- Models loaded at most (13 R443). -/
def modelTop : Nat := 8

/-- What a model image's signature and the policy refuse: a trailer of zeros is none (17 R537 to R539; log entry 58). -/
def State.imageRefused (s : State) (b : List Byte) : Bool :=
  let sig := b.drop (b.length - sigBytes)
  let body := b.take (b.length - sigBytes)
  let kind := fieldAt sig 0 1
  if b.length < sigBytes then true
  else if allZero sig then s.sec.policy.getLsbD 0
  else !s.trusted sig body || (s.sec.policy.getLsbD 0 && kind ≠ 1 && kind ≠ 3)

/-- Whether n bytes of one more model can be loaded: at most 8, and room in HBM (07 R235, 13 R443). -/
def State.modelRoom (s : State) (n : Nat) : Bool := s.loadedModels.length < modelTop && s.hbmRoom n

/-- The configuration block's list of boot models: those loaded (16 R527). -/
def State.noteBoot (s : State) : State :=
  let ids := s.loadedModels.map (fun e => BitVec.ofNat 64 e.1)
  if ids = s.power.cfg.boot then s else { s with power := { s.power with cfg := { s.power.cfg with seq := s.power.cfg.seq + 1, boot := ids } } }

/-- A stored model is loaded, its weights made as the engines store them, or it is loaded no longer (05 R152, R164; 13 R443, R444). -/
def State.setLoaded (s : State) (m : Nat) (on : Bool) : State :=
  (s.modServ (fun v => { v with models := Tab.change v.models m (fun x => { x with loaded := on, weights := if on then weightsOf x.bytes else [] }) })).noteBoot.fitPool

/-- A stored image is deleted: its flash is free and its bounds are gone (13 R444, 14 R475). -/
def State.deleteImage (s : State) (m : Nat) : State :=
  match Tab.find s.serv.models m with
  | none => s
  | some x =>
    let s := { s with integ := { s.integ with sites := s.integ.sites.filter (fun y => y.model ≠ BitVec.ofNat 64 m) } }
    (s.modServ (fun v => { v with models := Tab.del v.models m })).freeFlash [(18, x.home, x.len)]

/-- An image is stored at its place, in the stead of an earlier one of its MODEL_ID (13 R443; log entry 58). -/
def State.storeImage (s : State) (m home : Nat) (b : List Byte) : State :=
  let was := ((Tab.find s.serv.models m).map (·.loaded)).getD false
  let need := flashStripes 18 home b.length
  let s := (s.deleteImage m).modMedia (fun k =>
    { k with counted := k.counted.map (fun c => if (c.owner, c.ostripe) ∈ need then { c with landed := true, lastWrite := s.now } else c) })
  s.modServ (fun v => { v with models := Tab.put v.models m ⟨Mem.write 0 [] 0 b, b.length, home, was, false, Config.isAnswerModel b, if was then weightsOf b else []⟩ })

/-- What loading a stored model meets (13 R443). -/
def State.loadError (s : State) (m : Nat) : Option Status :=
  match Tab.find s.serv.models m with
  | none => some .invalidField
  | some x => if s.imageRefused x.bytes then some .signatureInvalid else if x.loaded || s.modelRoom x.len then none else some .resourceExhausted

/-- What storing an image meets once its bytes are there (13 R443, 17 R539). -/
def State.pushedError (s : State) (mode : Nat) (b : List Byte) : Option Status :=
  let m := (Config.imageId b).toNat
  let loaded := ((Tab.find s.serv.models m).map (·.loaded)).getD false
  if s.imageRefused b then some .signatureInvalid else if mode = 1 && !loaded && !s.modelRoom b.length then some .resourceExhausted else none

/-- MODEL_LOAD (13 R443): the stripes of an image to be stored are counted before its data is granted (02 R83). -/
def execModelLoad (id : Nat) (s : State) : Host.Outcome State Fault Refusal :=
  match s.acting id 0x0601 with
  | none => .next s
  | some c =>
    let mode := c.field 0x10 1
    let m := c.field 0x18 8
    let n := c.field 0x20 8
    if mode = 0 then .next (s.checked c (s.loadError m) (fun s => (s.setLoaded m true).succeed id (resultAt [(0x10, 8, m)])))
    else if c.stage = 0 then
      let home := s.flashPlace n
      if mode = 1 && !s.modelRoom n then .next (s.fail id .resourceExhausted)
      else
        match s.media.takeRoom s.now id (flashStripes 18 home n) with
        | none => .next (s.fail id .capacityExhausted)
        | some k => .next (s.checked c none (fun s => (({ s with media := k }).stage id 1 [home, n]).modCmd id (fun c => { c with need := n })))
    else if c.got < c.need then .next s
    else
      let m := (Config.imageId c.pushed).toNat
      .next (s.checked c (s.pushedError mode c.pushed) (fun s =>
        let s := s.storeImage m (c.aux.getD 0 0) c.pushed
        (if mode = 1 then s.setLoaded m true else s).succeed id (resultAt [(0x10, 8, m)])))

/-- Whether something still uses a model: a session, the encoder set or the projection in service, or an adaptation job (13 R444). -/
def State.modelUsed (s : State) (m : Nat) : Bool :=
  let w := BitVec.ofNat 64 m
  (Tab.vals s.serv.sessions).any (fun x => x.model = w) || s.items.encV = w || s.items.encA = w || s.items.projModel = w
    || (match s.serv.adapt with
        | some a => a.kind = 4 && (a.encV = w || a.encA = w || a.projModel = w)
        | none => false)

/-- MODEL_UNLOAD (13 R444; log entry 58). -/
def execModelUnload (id : Nat) (s : State) : Host.Outcome State Fault Refusal :=
  match s.acting id 0x0606 with
  | none => .next s
  | some c =>
    let m := c.field 0x18 8
    .next (s.checked c (if s.modelUsed m || !Tab.has s.serv.models m then some .invalidField else none) (fun s =>
      let s := s.setLoaded m false
      (if bitOf (c.field 0x10 1) 0 then s.deleteImage m else s).succeed id []))

end Sys2Proof.Machine
end

