-- ==== Sys2Proof/Machine/Select.lean ====
section
/-! DEFINITION. The selection unit's commands: issue of SL_SELECT and the end of a pass (04 R144 to R146; 06 R208). -/

namespace Sys2Proof.Machine

/-- Whether a selection comes before another of its class: the older one (04 R146). -/
def slBefore (a b : UnitOp) : Bool := a.order < b.order

/-- The fault the unit finds before an operation starts (04 R146; 07 R227). -/
def State.slFault (s : State) (u : UnitOp) : Option FaultCode :=
  let lim := ((s.thread? u.thread).map s.allotOf).getD 0
  let d := slResult u.rcd u.base
  if !slFits u.rcd (s.reader u.thread) u.base u.count lim then some .operand
  else if s.pieceLocked u.thread d.1 d.2 then some .address
  else none

/-- The selection unit, if idle, takes the next eligible operation, at the pass it had reached (04 R145, R146). -/
def State.slTake (s : State) (c : CoreNo) : State :=
  let x := s.core c
  if x.slRun.isSome then s
  else
    match s.chooseUnit slBefore (x.slWait.map (·.uop)) with
    | none => s
    | some u =>
      let q := (x.slWait.find? (fun q => q.uop.op = u.op)).getD ⟨u, 0, 0, 0, none⟩
      let s := s.modCore c (fun x => { x with slWait := x.slWait.filter (fun v => v.uop.op ≠ u.op) })
      match (if q.pass = 0 ∧ q.done = 0 then s.slFault u else none) with
      | some f => (s.unitEnd u).fault u.thread u.pc f 0
      | none => s.modCore c (fun x => { x with slRun := some ⟨u, q.pass, s.now + slPassCycles u.rcd (s.reader u.thread) u.base q.done * arrayUnits, q.done, none⟩ })

/-- The ranges a selection touches (06 R190). -/
def State.slRanges (s : State) (t : Nat) (th : Thread) (r : BitVec 256) : List Range :=
  (slResult r (bregBase th r) :: slInputs r (s.reader t) (bregBase th r)).map (fun p => ⟨winAddr p.1, p.2⟩)

/-- A selection is issued: it waits at its core's selection unit, which takes it if idle. -/
def State.queueSl (s : State) (t pc : Nat) (th : Thread) (r : BitVec 256) : State :=
  match s.coreOf t with
  | none => s
  | some c =>
    let ibase := if slMode r = 1 then 0 else (th.reg (fld r 97 5)).toNat
    let u : UnitOp := ⟨t, s.compute.nextIdent, pc, r, bregBase th r, ibase, [], 8, s.compute.arrivals⟩
    let s := (s.modThread t (fun x => x.setting r .unit)).fly t (s.slRanges t th r)
    let s := s.modCompute (fun k => { k with arrivals := k.arrivals + 1 })
    (s.modCore c (fun x => { x with slWait := x.slWait ++ [⟨u, 0, 0, 0, none⟩] })).slTake c

/-- SL_SELECT (04 R136, 06 R208). -/
def execSlSelect (t : Nat) (s : State) : Host.Outcome State Fault Refusal :=
  .next (s.issue t 0x0301 (s.slRanges t) noCheck (fun th r s => s.queueSl t th.pc th r))

/-- SL_PASS_END: the pass has come to the boundary at which a pre-empted gang yields, or to its end; after the last pass the result stands in bench memory; a selection of a gang that must yield waits at its pass, and one of a stopping job goes on (06 R216; 04 R140 to R145). Sums that saturate count (05 R158); a result whose
place has a line lent read-only since it started faults instead (07 R227). -/
def execSlPassEnd (c : CoreNo) (s : State) : Host.Outcome State Fault Refusal :=
  match (s.core c).slRun with
  | none => .next (s.slTake c)
  | some q =>
    let s := s.at_ q.due
    let u := q.uop
    let r := u.rcd
    if q.cut.isSome ∨ q.pass + 1 < slPasses r then
      let stopping := ((((s.thread? u.thread).bind (fun th => s.job? th.job)).map (·.ending)).getD none).isSome
      let p : SelRun := match q.cut with
        | some n => ⟨u, q.pass, 0, n, none⟩
        | none => ⟨u, q.pass + 1, 0, 0, none⟩
      if stopping then
        .next (s.modCore c (fun x => { x with slRun := some { p with due := s.now + slPassCycles r (s.reader u.thread) u.base p.done * arrayUnits } }))
      else
        let s := s.modCore c (fun x => { x with slRun := none, slWait := p :: x.slWait })
        .next (s.slTake c)
    else
      let x := selectK (slInt r) (slDedup r) (slK r) (slElems r (s.reader u.thread) u.base u.count)
      let s := s.benchFails u.thread (slInputs r (s.reader u.thread) u.base)
      let s :=
        if s.pieceLocked u.thread (slResult r u.base).1 (slResult r u.base).2 then s.fault u.thread u.pc .address 0
        else (s.benchWrite u.thread (slRes r u.base) (x.bytes (slInt r) (slRnd r))).saturated c (((s.thread? u.thread).map (·.job)).getD 0) (x.sats (slInt r) (slRnd r))
      let s := (s.modCore c (fun x => { x with slRun := none })).unitEnd u
      .next (s.settleAll.slTake c)

end Sys2Proof.Machine
end

