-- ==== Sys2Proof/Machine/SpanRows.lean ====
section
/-! DEFINITION. The span's commands and packets: cages and ports going down (11 R348, R353; 19 R586), membership (11 R357 to R361; 13 R453, R454),
collectives from other members (11 R363 to R371), streams (11 R355, R356) and SEARCH_SPAN (09 R310, R311; 13 R434). -/

namespace Sys2Proof.Machine

/-! ## A port goes down (11 R348, R353). -/

/-- The whole packets in a run of flits of one lane; one whose first flits are gone is not whole. -/
def wholePackets (fs : List OutFlit) : List (List OutFlit) :=
  (fs.foldl (fun (a : List (List OutFlit) × Option (List OutFlit)) f =>
    match (if f.flit.sop then some [f] else a.2.map (· ++ [f])) with
    | some c => if f.flit.eop then (a.1 ++ [c], none) else (a.1, some c)
    | none => (a.1, none)) ([], none)).1

/-- The flits of a lane that have not reached the next module, in the order they would have gone: those to be replayed, then those that wait. -/
def TPort.laneFlits (x : TPort) (vl : Nat) : List OutFlit :=
  let begun := match Tab.find x.mid vl with
    | some i => [i]
    | none => []
  (x.replay.filter (fun f => f.ftype = 1#2 ∧ f.vl.toNat = vl)).map (fun f => ⟨f, false, none⟩) ++ (begun ++ (List.range 5).filter (fun i => i ∉ begun)).flatMap (x.queue vl)

/-- A packet a port could not send takes its route again (11 R353); the buffer it fills at the port it came by stays filled until it leaves, and is freed where it has no route. -/
def State.reroute (s : State) (p : TPortNo) (vl : Nat) (fs : List OutFlit) : State :=
  let pk := packetOf (fs.flatMap (fun f => f.flit.payload.take f.flit.fbytes.toNat))
  match s.routePort none pk.dest.toNat with
  | none => fs.foldl State.freeHeld s
  | some out =>
    let c := s.nextClass (some p) out ((fs.head?.map (·.flit.dclass)).getD false)
    s.enqueue out vl 4 (fs.map (fun f => { f with flit := { f.flit with dclass := c }, paid := false }))

/-- The buffers at a port that goes Down count no more: no flit still held frees one, and no stream holds credits drawn there (11 R350; log entry 147). -/
def State.forgetPort (s : State) (p : TPortNo) : State :=
  s.modSpan (fun x => { x with
    ports := Tab.changeAll x.ports (fun (y : TPort) => { y with
      out := Tab.changeAll y.out (fun l => l.map (fun (f : OutFlit) => { f with held := f.held.filter (fun h => h.1 ≠ p.val) })) })
    streams := Tab.changeAll x.streams (fun (y : TStream) => if (y.pool.map (fun e => e.1 % 4)) = some p.val then { y with drawn := 0, pool := none } else y) })

/-- A port goes Down and trains again: its whole packets take other routes, and members no route reaches are Lost (11 R348, R353, R360). -/
def State.tportDown (s : State) (p : TPortNo) : State :=
  let s := s.forgetPort p
  let x := s.tport p
  let pks := (List.range 4).flatMap (fun vl => (wholePackets (x.laneFlits vl)).map (fun fs => (vl, fs)))
  let s := s.modTport p (fun x => { (TPort.fresh .down) with replayed := x.replayed, corrected := x.corrected, discarded := x.discarded })
  ((pks.foldl (fun (s : State) (k : Nat × List OutFlit) => s.reroute p k.1 k.2) s).retrain p).loseUnreachable

/-- PORT_DOWN (11 R348): a lane loses lock, no flit comes intact for 10 µs, or one FSEQ is replayed 8 times unacknowledged. Word that another module's link is down changes the
routes, and members that none reaches are Lost (11 R353, R360; log entry 147). -/
def execPortDown (p : TPortNo) (c : DownCause) (s : State) : Host.Outcome State Fault Refusal :=
  let x := s.tport p
  match c with
  | .lockLost => if x.st = .down then .next s else .next (s.tportDown p)
  | .timeout => if x.st = .aligned ∨ x.st = .up then .next ((s.at_ (x.lastArrival + 10 * usUnits)).tportDown p) else .next s
  | .replays => if x.tries.any (fun e => 8 ≤ e.2) then .next (s.tportDown p) else .next s
  | .far m => .next (s.modSpan (fun x => { x with linksDown := (x.linksDown.filter (fun e => e ≠ (m.val, p.val))) ++ [(m.val, p.val)] })).loseUnreachable

/-- QSFP_CAGE_CHANGE (19 R586): what is fitted is powered up to 12 W; the port goes Down, and one with power may then train. -/
def execQsfpCageChange (cage : Bool) (fitted : Option Nat) (s : State) : Host.Outcome State Fault Refusal :=
  if ¬ s.power.good then .next s
  else
    let x : Cage := ⟨fitted, fitted.any (fun w => w ≤ 12)⟩
    if cage then .next ((s.modSpan (fun y => { y with cage3 := x })).tportDown 3)
    else .next ((s.modSpan (fun y => { y with cage2 := x })).tportDown 2)

/-! ## Membership (11 R357 to R361). -/

/-- Whether a module is another member of this module's span. -/
def State.peer (s : State) (m : Nat) : Bool :=
  s.span.member = .joined && m ≠ s.moduleNumber && (s.span.desc.map (fun d => d.members.getLsbD m)).getD false

/-- PRESENCE (11 R360): a matching descriptor makes the sender Joined; another makes it Absent and is recorded. -/
def execPresence (src : ModuleNo) (_ : Byte) (descDigest : List Byte) (cfgDigest : List Byte) (window : Nat) (s : State) : Host.Outcome State Fault Refusal :=
  match s.span.desc, s.peer src.val with
  | some d, true =>
    if descDigest = d.digest then
      .next (s.modSpan (fun x => { x with members := Tab.put x.members src.val ⟨.joined, s.now, window, cfgDigest⟩ }))
    else
      let s := s.record 0x6001 (sourceOf 0 0) [BitVec.ofNat 8 src.val]
      .next (s.modSpan (fun x => { x with members := Tab.put x.members src.val ⟨.absent, s.now, window, cfgDigest⟩ })).endGaps
  | _, _ => .next s

/-- The body of a PRESENCE packet (11 R360; log entry 27). -/
def State.presenceBody (s : State) : List Byte :=
  [BitVec.ofNat 8 s.span.member.num] ++ zeros 7 ++ fit 32 ((s.span.desc.map SpanDesc.digest).getD []) ++ fit 32 s.cfgDigest ++ leBytes 8 s.tiers.windowSize

/-- PRESENCE_SEND (11 R360): once per millisecond to every member. -/
def execPresenceSend (s : State) : Host.Outcome State Fault Refusal :=
  if s.span.member ≠ .joined then .next s
  else
    let s := s.at_ (s.span.presenceAt + msUnits)
    .next ((s.modSpan (fun x => { x with presenceAt := s.now })).postAll (s.groupMembers 0) 1 0 0 s.presenceBody)

/-- MEMBER_LOST (11 R360, R370): a Joined member not heard for 8 ms. -/
def execMemberLost (m : ModuleNo) (s : State) : Host.Outcome State Fault Refusal :=
  match Tab.find s.span.members m.val with
  | none => .next s
  | some x =>
    if s.peer m.val ∧ x.view = .joined then
      .next ((s.at_ (x.heard + 8 * msUnits)).modSpan (fun y => { y with members := Tab.put y.members m.val { x with view := .lost } })).endGaps
    else .next s

/-- SPAN_CTL leave (11 R361): the sender is Absent. -/
def execSpanCtl (src : ModuleNo) (s : State) : Host.Outcome State Fault Refusal :=
  if s.peer src.val then
    .next (s.modSpan (fun x => { x with members := Tab.change x.members src.val (fun (m : Member) => { m with view := .absent }) })).endGaps
  else .next s

/-- The descriptor some bytes hold (11 R358). -/
def spanDescOf (b : List Byte) : SpanDesc where
  spanId := BitVec.ofNat 64 (fieldAt b 0 8)
  topology := fieldAt b 8 1
  shelves := fieldAt b 9 1
  slots := fieldAt b 0xA 1
  shelf := fieldAt b 0xB 1
  defTimeout := fieldAt b 0xC 2
  members := BitVec.ofNat 128 (fieldAt b 0x10 16)
  groups := (List.range (fieldAt b 0xE 1)).map (fun i => BitVec.ofNat 128 (fieldAt b (0x20 + 16 * i) 16))
  raw := b

/-- Whether a topology has these shelves and slots (11 R352). -/
def shapeOk (topology h n : Nat) : Bool :=
  if topology = 1 then h = 1 && n = 1
  else if topology = 2 ∨ topology = 3 then h = 1 && 2 ≤ n && n ≤ 16
  else topology = 4 && 2 ≤ h && h ≤ 8 && 1 ≤ n && n ≤ 16

/-- Whether a descriptor is legal, with this module in slot `slot` among its members (11 R352, R358). -/
def SpanDesc.ok (d : SpanDesc) (slot : Nat) : Bool :=
  d.spanId ≠ 0#64 && shapeOk d.topology d.shelves d.slots && d.shelf < d.shelves && 1 ≤ d.defTimeout && fieldAt d.raw 0xF 1 = 0
    && slot < d.slots && d.members.getLsbD (16 * d.shelf + slot)
    && (modulesOf d.members).all (fun m => m / 16 < d.shelves && m % 16 < d.slots)
    && d.groups.all (fun g => g ≠ 0#128 && g &&& d.members = g)

/-- Whether a port's HELLO, if it has one, names a neighbour: its slot and port, and the module number of one that has joined the same span (11 R359; log entry 61). -/
def helloFits (d : SpanDesc) (x : TPort) (e : Nat × Nat) : Bool :=
  match x.hello with
  | none => true
  | some y => x.st = .down || (y.slot.toNat = e.1 % 16 && y.port.toNat = e.2 && (y.state ≠ 1#8 || (y.span = d.spanId && y.moduleNo.toNat = e.1)))

/-- What refuses a SPAN_JOIN (11 R357 to R359, 13 R453). -/
def State.joinError (s : State) (len : Nat) (d : SpanDesc) : Option Status :=
  let slot := s.power.slotId.toNat
  let ports := ([0, 1, 2, 3] : List TPortNo)
  if s.span.member ≠ .alone then some .invalidField
  else if len ≠ 32 + 16 * d.groups.length ∨ !d.ok slot then some .invalidField
  else if 16 * d.shelf + slot ≠ s.moduleNumber ∧ s.items.live ≠ 0 then some .invalidField
  else if ports.all (fun p => (d.neighbour (16 * d.shelf + slot) p).all (helloFits d (s.tport p))) then none
  else some .invalidField

/-- The module is Joined under a descriptor: counts start at 0, and the configuration block keeps its number (11 R357, R359, R364). -/
def State.join (s : State) (d : SpanDesc) : State :=
  let n := 16 * d.shelf + s.power.slotId.toNat
  let cfg := if n = s.moduleNumber then s.power.cfg else { s.power.cfg with seq := s.power.cfg.seq + 1, moduleNumber := n }
  { s with
    span := { s.span with member := .joined, desc := some d, members := [], jobCount := [], svcCount := [], presenceAt := s.now }
    power := { s.power with cfg := cfg } }

/-- SPAN_JOIN (11 R357 to R359; 13 R453). -/
def execSpanJoin (id : Nat) (s : State) : Host.Outcome State Fault Refusal :=
  match s.acting id 0x0801 with
  | none => .next s
  | some c =>
    let head := s.hostRead c.port (c.field 0x10 8) 32
    let d := spanDescOf (head ++ s.hostRead c.port (c.field 0x10 8 + 32) (16 * fieldAt head 0xE 1))
    .next (s.checked c (s.joinError (c.field 0x18 4) d) (fun s =>
      let s := s.join d
      s.succeed id (resultAt [(0x0C, 1, s.moduleNumber)])))

/-- SPAN_LEAVE (11 R361; 13 R453): the descriptor stays for the packets the ports forward. -/
def execSpanLeave (id : Nat) (s : State) : Host.Outcome State Fault Refusal :=
  match s.acting id 0x0802 with
  | none => .next s
  | some c =>
    .next (s.checked c none (fun s =>
      if s.span.member = .alone then s.succeed id []
      else
        let others := s.groupMembers 0
        let s := s.span.insts.foldl (fun s i => s.endInst i .spanMemberLost s.moduleNumber) s
        let s := s.postAll others 2 0 0 [1#8]
        (s.modSpan (fun x => { x with member := .alone, members := [], insts := [] })).succeed id []))

/-- A port record of SPAN_STATUS (13 R454). -/
def TPort.statusRecord (x : TPort) : List Byte :=
  let n : Nat × Nat := match x.hello with
    | some h => if x.st = TPState.down then (0xFF, 0xFF) else (h.moduleNo.toNat, h.port.toNat)
    | none => (0xFF, 0xFF)
  blockOf 16 [(0, 1, x.st.num), (1, 1, n.1), (2, 1, n.2), (4, 4, x.replayed), (8, 8, x.corrected)]

/-- A member record of SPAN_STATUS (13 R454): a member never heard reads as saturated, this module itself as 0. -/
def State.memberRecord (s : State) (m : Nat) : List Byte :=
  let v := s.viewOf m
  let ms := if v = .notMember ∨ m = s.moduleNumber then 0
    else match Tab.find s.span.members m with
      | some x => min ((s.now - x.heard) / msUnits) (2 ^ 32 - 1)
      | none => 2 ^ 32 - 1
  blockOf 8 [(0, 1, v.num), (4, 4, ms)]

/-- The 1,152 bytes of SPAN_STATUS (13 R454). -/
def State.spanStatusBytes (s : State) : List Byte :=
  let d := if s.span.member = .alone then none else s.span.desc
  let head := putAt (blockOf 64 [(0, 8, (d.map (·.spanId.toNat)).getD 0), (8, 1, s.span.member.num), (9, 1, (d.map (·.topology)).getD 0), (0xA, 1, s.moduleNumber),
    (0xB, 1, (d.map (·.shelf)).getD 0)]) 0x10 (fit 32 s.cfgDigest)
  sealed head ++ ([0, 1, 2, 3] : List TPortNo).flatMap (fun p => (s.tport p).statusRecord) ++ (List.range 128).flatMap s.memberRecord

/-- SPAN_STATUS (13 R454). -/
def execSpanStatus (id : Nat) (s : State) : Host.Outcome State Fault Refusal :=
  match s.acting id 0x0803 with
  | none => .next s
  | some c => .next (s.checked c none (fun s => (s.hostWrite c.port (c.field 0x10 8) s.spanStatusBytes).succeed id []))

/-! ## Collectives: what comes from other members (11 R363 to R371). -/

/-- Whether an instance of a key has been over here: its place in the count is passed. -/
def State.keyPast (s : State) (k : InstKey) : Bool :=
  match k with
  | .job g n => n < Tab.at s.span.jobCount g 0
  | .service g n => n < Tab.at s.span.svcCount g 0
  | .search c q => c = s.moduleNumber && q < s.span.queryCount

/-- CL_HEADER (11 R363, R366): the leader keeps the header, also before its own operation issues, and checks once it has all. -/
def execClHeader (src : ModuleNo) (key : InstKey) (digest : List Byte) (params : ClParams) (s : State) : Host.Outcome State Fault Refusal :=
  if !s.peer src.val then .next s
  else
    let s := if (s.inst? key).isNone && !s.keyPast key then s.modSpan (fun x => { x with insts := x.insts ++ [earlyInst key (keyGroup key)] }) else s
    match s.inst? key with
    | none => .next s
    | some i =>
      if i.go then .next s
      else
        let s := s.modInst key (fun i => { i with headers := (i.headers.filter (fun h => h.1 ≠ src.val)) ++ [(src.val, digest, params)] })
        .next (if i.issued ∧ i.restartAt.isNone then (s.leaderCheck key).partDone key else s)

/-- CL_GO (11 R366). -/
def execClGo (key : InstKey) (s : State) : Host.Outcome State Fault Refusal :=
  match s.inst? key with
  | none => .next s
  | some i => if i.issued ∧ i.restartAt.isNone then .next ((s.instGo key).partDone key) else .next s

/-- CL_REFUSE (11 R363, R366; 09 R310): CONFIG_MISMATCH naming the odd member, else INVALID_FIELD; a coordinator whose descriptor a member refuses tells the others. -/
def execClRefuse (key : InstKey) (odd : Option ModuleNo) (s : State) : Host.Outcome State Fault Refusal :=
  match s.inst? key, odd with
  | none, _ => .next s
  | some i, some m => .next (s.endInst i .configMismatch m.val)
  | some i, none =>
    let s := if i.cmd.isSome then s.postAll (s.groupMembers i.group) 5 (keyNum key) 0 [] else s
    .next (s.endInst i .invalidField 0)

/-- CL_ABORT (11 R369): restart r of the instance, or after the third its end (log entry 29). -/
def execClAbort (src : ModuleNo) (key : InstKey) (r : Nat) (s : State) : Host.Outcome State Fault Refusal :=
  match s.inst? key with
  | none => .next s
  | some i =>
    if !s.peer src.val then .next s
    else if !i.issued then .next (s.modInst key (fun i => { i with headers := [] }))
    else if 4 ≤ r then .next (s.endInst i .spanMemberLost (s.missing i))
    else if i.restarts < r then .next (s.backOff key r)
    else .next s

/-- STOP (11 R371): this member's part ends with ABORTED_STOPWORK. -/
def execStop (src : ModuleNo) (key : InstKey) (s : State) : Host.Outcome State Fault Refusal :=
  match s.inst? key with
  | none => .next s
  | some i => if s.peer src.val then .next (s.endInst i .abortedStopwork 0) else .next s

/-! ## Streams and remote windows (11 R355, R356). -/

/-- A packet of a receiving stream: a duplicate is discarded, one ahead of its turn waits, and what applies is acknowledged (11 R355). -/
def State.rxTake (s : State) (p : Packet) : State :=
  let src := p.src.toNat
  let k := rxKey src p.stream.toNat
  let s := if Tab.has s.span.streams k then s
    else s.modSpan (fun x => { x with streams := Tab.put x.streams k ⟨src, false, p.ptype.toNat, 0, 0, 0, 0, 262144, [], s.now, none, [], none, 0, none⟩ })
  let s := s.modStream k (fun x =>
    if p.pseq.toNat < x.nextSeq ∨ x.unacked.any (fun q => q.pseq = p.pseq) then x else { x with unacked := x.unacked ++ [p] })
  (s.rxDrain k (((Tab.find s.span.streams k).map (·.unacked.length)).getD 0)).rxAck k

/-- CL_DATA (11 R355, R366 to R368): a packet of a member's part, in its stream's order and acknowledged; with every part the operation completes. -/
def execClData (src : ModuleNo) (key : InstKey) (part : ClPart) (s : State) : Host.Outcome State Fault Refusal :=
  if s.span.member ≠ .joined then .next s
  else .next (s.rxTake ⟨BitVec.ofNat 8 s.moduleNumber, BitVec.ofNat 8 src.val, 6#8, BitVec.ofNat 32 part.stream, part.pseq, BitVec.ofNat 64 (keyNum key), BitVec.ofNat 64 part.total,
    part.data⟩)

/-- RW_WRITE (11 R355, R356; 08 R268). -/
def execRwWrite (src : ModuleNo) (stream : Nat) (pseq : W32) (offset : Nat) (data : List Byte) (s : State) : Host.Outcome State Fault Refusal :=
  if s.span.member ≠ .joined then .next s
  else .next (s.rxTake ⟨BitVec.ofNat 8 s.moduleNumber, BitVec.ofNat 8 src.val, 9#8, BitVec.ofNat 32 stream, pseq, BitVec.ofNat 64 offset, 0#64, data⟩)

/-- RW_READ (11 R355, R356). -/
def execRwRead (src : ModuleNo) (stream : Nat) (pseq : W32) (offset : Nat) (len : Nat) (s : State) : Host.Outcome State Fault Refusal :=
  if s.span.member ≠ .joined then .next s
  else .next (s.rxTake ⟨BitVec.ofNat 8 s.moduleNumber, BitVec.ofNat 8 src.val, 10#8, BitVec.ofNat 32 stream, pseq, BitVec.ofNat 64 offset, BitVec.ofNat 64 len, []⟩)

/-- RW_RESP (07 R228; 11 R355, R356): data of a read in order, or the failure of a request, which ends with TIER_FAILED. A loan whose source turns out mutable is a move; a move
whose source is immutable, and a range that is both, is a write to a lent tile, which faults with ADDRESS. -/
def execRwResp (src : ModuleNo) (stream : Nat) (req : Nat) (pseq : W32) (ans : RwAnswer) (data : List Byte) (s : State) : Host.Outcome State Fault Refusal :=
  match Tab.find s.span.streams req with
  | none => .next s
  | some x =>
    if !x.sending ∨ x.peer ≠ src.val then .next s
    else if ans = .failed then
      .next (match x.req with
        | some r => (s.dropStream req).reqFails r .tierFailed
        | none => s.dropStream req)
    else if x.ptype ≠ 10 ∨ x.nextSeq = 0 then .next s
    else if ans = .mixed ∨ (ans = .lent ∧ s.reqMoves x.req) then
      .next (match x.req with
        | some r => (s.dropStream req).reqFaults r .address
        | none => s.dropStream req)
    else
      let n := x.waiting.length
      let fresh := pseq.toNat = n
      let s := match x.req with
        | some r => if ans = RwAnswer.moved then s.modTiers (fun t => { t with reqs := Tab.change t.reqs r (fun q => if q.kind = ReqKind.lend then { q with kind := ReqKind.move } else q) }) else s
        | none => s
      let s := if fresh then s.modStream req (fun x => { x with waiting := x.waiting ++ [(16096 * n, data)] }) else s
      .next (s.ackBack src.val stream (if fresh then n + 1 else n))

/-- A stream with nothing left to send or to be acknowledged is over; a read's waits for its data. The mutable bytes that a read has taken are left
undefined, and their whole tiles leave T1 and T2 (07 R226). -/
def State.streamDone (s : State) (k : Nat) (x : TStream) : State :=
  if x.ptype = 10 ∨ !x.unacked.isEmpty ∨ !x.waiting.isEmpty then s
  else
    let s := s.dropStream k
    match x.vacate.bind (fun off => s.exportRange off x.len) with
    | some l =>
      let l := l.filter (fun p => !p.1.immutable)
      (windowRanges l).foldl State.releaseTiles ((s.exportWrite l (s.freeBytes x.len)).spend x.len)
    | none => s

/-- ACK (11 R355): packets up to PSEQ are no longer kept, the window edge moves on, and what it allows is sent. -/
def execAck (stream : Nat) (pseq : W32) (edge : Nat) (s : State) : Host.Outcome State Fault Refusal :=
  match Tab.find s.span.streams stream with
  | none => .next s
  | some x =>
    if !x.sending ∨ x.nextSeq ≤ pseq.toNat then .next s
    else
      let s := s.modStream stream (fun x =>
        { x with unacked := x.unacked.filter (fun p => pseq.toNat < p.pseq.toNat), acked := max x.acked (pseq.toNat + 1), edge := max x.edge edge, lastSent := s.now })
      let s := s.streamSend stream x.waiting.length
      match Tab.find s.span.streams stream with
      | some y => .next (s.streamDone stream y)
      | none => .next s

/-- STREAM_RETRANSMIT (11 R355): 100 µs without an acknowledgement, a stream sends again from its first packet not acknowledged; one of a pre-empted gang waits (08 R270). -/
def execStreamRetransmit (stream : Nat) (s : State) : Host.Outcome State Fault Refusal :=
  match Tab.find s.span.streams stream with
  | none => .next s
  | some x =>
    if !x.sending ∨ s.streamPaused x then .next s
    else
      let s := if x.unacked.isEmpty then s else s.at_ (x.lastSent + 100 * usUnits)
      .next (s.streamAgain stream)

/-! ## SEARCH_SPAN (09 R310, R311; 13 R434). -/

/-- The parameters of a span search's merge (09 R310, 11 R368). -/
def spanParams (k : Nat) : ClParams := ⟨5, 16 * k, 11, 0, 0, k, true⟩

/-- What one member contributes: its result's header, its entries, and their time records where wanted (09 R310, R311). -/
def State.contribution (s : State) (q : Query1) (f : Found) (fl : Nat) : List Byte :=
  f.header (f.flags + fl) ++ f.sel.entries ++ (if q.times then s.timeRecords f.sel else [])

/-- Runs of a member's part until one passes its check or the last allowed has failed (14 R484, R486, R487). -/
def State.partRuns (s : State) (ok : Bool) (failed : Nat) : Nat → Option Nat × State
  | 0 => (none, s)
  | n + 1 =>
    match s.unitRun s.host.nextCmd failed ok with
    | (some fl, t) => (some fl, t)
    | (none, t) => if failed < t.restartMax then t.partRuns ok (failed + 1) n else (none, t)

/-- This module's part of a span search becomes an instance. -/
def State.searchInst (s : State) (key : InstKey) (g k : Nat) (cmd : Option Nat) (own : List Byte) : State :=
  let timeout := (s.span.desc.map (·.defTimeout)).getD 0
  s.issueInst ⟨key, g, spanParams k, none, cmd, none, 0, 0#64, own, [], false, [], [], none, 0, 0, none, timeout, s.tick, 0⟩

/-- A query has ended. -/
def State.endQuery (s : State) (who : Asker) : State := s.modItems (fun x => x.endQuery s.now who)

/-- A member's part of a span search goes on: once its scans and reads are done it joins the merge; one whose scan path is faulted contributes nothing (09 R302 to R306, R310;
log entry 62). -/
def State.partTurn (s : State) (key : InstKey) (who : Asker) (g : Nat) (y : Query) (r : SearchReads) : State :=
  if y.faulted r then s.endQuery who
  else
    match s.runQuery who r with
    | (t, none) => t
    | (t, some (q, f)) =>
      ((t.endQuery who).searchInst key g q.k none (t.contribution q f y.flags)).partDone key

/-- The bytes of a request for an item's embedding, which a coordinator sends the module that its handle names: the handle alone (09 R310; log entry 144). -/
def handleAsked (desc : List Byte) : Option Nat := if desc.length = 8 then some (leNat desc) else none

/-- SERVICE (09 R310): the member runs the search at its own epoch and joins the merge, in as many turns as its scans and reads take; it refuses a descriptor that fails here.
A part whose check or paths fail contributes nothing (log entry 62). A request for an embedding is answered with it, or with nothing where the handle names no item. -/
def execService (src : ModuleNo) (query : Nat) (group : Nat) (desc : List Byte) (r : SearchReads) (s : State) : Host.Outcome State Fault Refusal :=
  let key := InstKey.search src.val query
  let who := Asker.part src.val query
  let early : Bool := match s.inst? key with
    | some i => !i.issued
    | none => true
  if !s.peer src.val ∨ !s.groupOk group ∨ src.val ∉ s.groupMembers group ∨ !early then .next s
  else
  match handleAsked desc, s.items.query? who with
  | some h, _ => .next (s.post src.val 12 (keyNum key) 0 (((s.named h).map (fun i => wordsBytes i.2.emb)).getD []))
  | none, some y => .next (s.partTurn key who group y r)
  | none, none =>
  if !(s.formatted && descOk s.items.dims desc && s.descNames desc) then .next (s.post src.val 5 (keyNum key) 0 [])
  else
    match s.partRuns (r.plausible || (unitOf (wordsOf s.items.dims (desc.drop 256))).2) 0 4 with
    | (none, t) => .next t
    | (some fl, t) =>
      let q := queryOf desc (wordsOf t.items.dims (desc.drop 256))
      let t := t.modItems (fun x => r.badNodes.foldl Items.dropNode x)
      .next ((t.openQuery who q.bitmap none fl).startQuery who q)

/-- The query vector of a span search: the descriptor's own, this module's item, or what another module answers (09 R310). -/
def State.spanVec (s : State) (b : List Byte) (r : SearchReads) : Except (Status × Nat) (List W32) :=
  let m := fieldAt b 0x20 8 / 2 ^ 56 % 256
  if !bitOf (descFlags b) 0 ∨ m = s.moduleNumber then
    (match s.queryVec b with
      | some v => .ok v
      | none => .error (.invalidField, 0))
  else if s.viewOf m = .notMember then .error (.invalidField, 0)
  else if s.viewOf m ≠ .joined then .error (.spanMemberLost, m)
  else
    match r.far with
    | some v => .ok v
    | none => .error (.invalidField, 0)

/-- What refuses a SEARCH_SPAN before anything is sent (09 R298, R307; 13 R434). -/
def State.spanError (s : State) (c : Cmd) (b : List Byte) (r : SearchReads) : Option (Status × Nat) :=
  if !s.groupOk (c.field 0x24 1) then some (.invalidField, 0)
  else
    match s.searchError c b true, s.spanVec b r with
    | some st, _ => some (st, 0)
    | none, .error e => some e
    | none, .ok _ => none

/-- The module that must answer with the embedding a descriptor names by handle: another one (09 R310). -/
def State.farModule (s : State) (b : List Byte) : Option Nat :=
  let m := fieldAt b 0x20 8 / 2 ^ 56 % 256
  if bitOf (descFlags b) 0 ∧ m ≠ s.moduleNumber then some m else none

/-- The parts of a span search as (header, entries with their time records), by member. -/
def State.searchParts (s : State) (i : Inst) : List (Nat × List Byte × List (SelEl × List Byte)) :=
  (s.groupMembers i.group).map (fun m =>
    let b := (s.dataOf i m).getD []
    let n := fieldAt b 2 2
    let k := i.params.k
    (m, b.take 64, (List.range n).map (fun j => (SelEl.ofEntry ((b.drop (64 + 16 * j)).take 16) 0, (b.drop (64 + 16 * k + 16 * j)).take 16))))

/-- The result of a span search: bytes, returned entries, members, epoch, candidates and flags (09 R311). -/
def State.spanResult (s : State) (i : Inst) (times : Bool) (fl : Nat) : List Byte × Nat × Nat × Nat × Nat × Nat :=
  let parts := s.searchParts i
  let all := (parts.flatMap (fun p => p.2.2)).mapIdx (fun pos e => ({ e.1 with pos := pos }, e.2))
  let m := selectK false true i.params.k (all.map (·.1))
  let sum := fun (off n : Nat) => (parts.map (fun p => fieldAt p.2.1 off n)).foldl (· + ·) 0
  let rest := fp32 .even (((parts.map (fun p => num32 (fieldAt p.2.1 0x14 4))) ++ [num32 (selSum false .even m.rest)]).foldl Num.add .zero)
  let stale := parts.any (fun p => bitOf (fieldAt p.2.1 4 2) 4)
  let flags := m.flags + bit stale * flagStaleSkipped + fl
  let epoch := fieldAt i.own 8 8
  let head := sealed (blockOf 64 [(0, 2, i.params.k), (2, 2, m.sel.length), (4, 2, flags), (8, 8, epoch), (0x10, 4, selSum false .even m.sel), (0x14, 4, rest),
    (0x18, 4, sum 0x18 4), (0x1C, 4, sum 0x1C 4), (0x20, 8, sum 0x20 8), (0x28, 4, sum 0x28 4), (0x2C, 4, sum 0x2C 4), (0x30, 4, sum 0x30 4), (0x34, 4, sum 0x34 4),
    (0x38, 2, parts.length)])
  let recs := if times then m.sel.flatMap (fun e => fit 16 (((all.find? (fun x => x.1.pos = e.pos)).map (·.2)).getD [])) ++ zeros (16 * (m.k - m.sel.length)) else []
  let mods := parts.flatMap (fun p => blockOf 16 [(0, 1, p.1), (8, 8, fieldAt p.2.1 8 8)])
  (head ++ m.entries ++ recs ++ mods, m.sel.length, parts.length, epoch, sum 0x18 4, flags)

/-- A span search starts, once its descriptor has been accepted: SERVICE to the members, and the coordinator's own query (09 R310). -/
def State.spanStart (s : State) (c : Cmd) (b : List Byte) (v : List W32) (fl : Nat) : State :=
  let g := c.field 0x24 1
  let n := s.span.queryCount
  let key := InstKey.search s.moduleNumber n
  match s.groupGap g with
  | some m => s.completeWith c.ident .spanMemberLost 0 (resultAt [(0x1C, 1, m)])
  | none =>
    let q := queryOf b v
    let s := s.modSpan (fun x => { x with queryCount := n + 1, insts := x.insts ++ [{ earlyInst key g with cmd := some c.ident }] })
    let s := s.postAll (s.groupMembers g) 12 (keyNum key) g (b.take 256 ++ wordsBytes v)
    ((s.openQuery (.cmd c.ident) q.bitmap c.expiry fl).startQuery (.cmd c.ident) q).stage c.ident 2 [fl, bit q.times]

/-- The coordinator's own part of a span search goes on: once its scans and reads are done it joins the merge (09 R302 to R306, R310). -/
def State.spanTurn (s : State) (c : Cmd) (i : Inst) (y : Query) (r : SearchReads) : State :=
  if y.faulted r then (s.dropInst i.key |>.dropWork c.ident).fail c.ident .mediaFault
  else
    match s.runQuery (.cmd c.ident) r with
    | (t, none) => t
    | (t, some (q, f)) => ((t.dropWork c.ident).stage c.ident 1 c.aux).searchInst i.key i.group q.k (some c.ident) (t.contribution q f y.flags)

/-- SEARCH_SPAN (09 R310, R311; 13 R434): the first execution starts the search, or first asks another module for the embedding that its handle names; a later one delivers
once every member's part is here. -/
def execSearchSpan (id : Nat) (r : SearchReads) (s : State) : Host.Outcome State Fault Refusal :=
  match s.actingItem id 0x0402 with
  | none => .next s
  | some c =>
    if c.stage = 0 ∧ (s.farModule (s.descBytes c)).isSome then
      let b := s.descBytes c
      match s.spanError c b { r with far := some [] } with
      | some e => .next (s.completeWith id e.1 0 (if e.1 = .spanMemberLost then resultAt [(0x1C, 1, e.2)] else []))
      | none =>
        .next (s.checked c none (fun s =>
          (s.post ((s.farModule b).getD 0) 12 (keyNum (.search s.moduleNumber s.span.queryCount)) 0 ((b.drop 0x20).take 8)).stage id 3 c.aux))
    else if c.stage = 0 ∨ c.stage = 3 then
      let b := s.descBytes c
      match s.spanError c b r with
      | some e => .next (s.completeWith id e.1 0 (if e.1 = .spanMemberLost then resultAt [(0x1C, 1, e.2)] else []))
      | none =>
        .next (s.checked c none (fun s =>
          let v := match s.spanVec b r with
            | .ok v => v
            | .error _ => []
          if r.queryUnreadable ∧ bitOf (descFlags b) 0 then
            let s := if fieldAt b 0x20 8 / 2 ^ 56 % 256 = s.moduleNumber then s.uncorrectable 16 (s.items.embAt (fieldAt b 0x20 8 % 2 ^ 34)) else s
            s.fail id .mediaUncorrectable
          else
            match s.unitRun id (c.aux.headD 0) (r.plausible || (unitOf v).2) with
            | (none, t) => t.stage id c.stage [c.aux.headD 0 + 1]
            | (some fl, t) => (t.modItems (fun x => r.badNodes.foldl Items.dropNode x)).spanStart c b v fl))
    else if c.stage = 2 then
      match s.span.insts.find? (fun i => i.cmd = some id), s.items.query? (.cmd id) with
      | some i, some y => .next (s.spanTurn c i y r)
      | _, _ => .next s
    else
      match s.span.insts.find? (fun i => i.cmd = some id) with
      | none => .next s
      | some i =>
        if !s.instReady i then .next s
        else
          let x := s.spanResult i (c.aux.getD 1 0 = 1) (c.aux.headD 0)
          let s := (s.dropInst i.key).hostWrite c.port (c.field 0x18 8) x.1
          .next (s.completeWith id .success x.2.2.2.2.2 (resultAt [(0x0C, 2, x.2.1), (0x0E, 2, x.2.2.1), (0x10, 8, x.2.2.2.1), (0x18, 4, x.2.2.2.2.1)]))

end Sys2Proof.Machine
end

