-- ==== Sys2Proof/Machine/Threads.lean ====
section
/-! DEFINITION. The synchronisation, control-flow and scalar operations of a thread (06 R183, R186, R190 to R199, R211 to R214). -/

namespace Sys2Proof.Machine

/-! ## Semaphores (06 R194 to R198). -/

/-- The module semaphore an operation's SEM field names: its number among all modules' (06 R194). -/
def State.semKey (s : State) (th : Thread) (i : Nat) : Nat :=
  let m := (s.job? th.job).bind (fun j => Tab.find s.compute.mods j.modh)
  ((m.map (·.semBase)).getD 0) + i

/-- Waiters in the order they are granted: class, arrival, job, thread index (06 R195). -/
def State.waiterBefore (s : State) (a b : SemWaiter) : Bool :=
  let k := fun (w : SemWaiter) =>
    match s.thread? w.thread with
    | some th => ((s.threadCls th).code, w.arrival, th.job, th.index)
    | none => (3, 0, 0, 0)
  let x := k a
  let y := k b
  x.1 < y.1 || (x.1 = y.1 && (x.2.1 < y.2.1 || (x.2.1 = y.2.1 && (x.2.2.1 < y.2.2.1 || (x.2.2.1 = y.2.2.1 && x.2.2.2 < y.2.2.2)))))

/-- A waiter is granted: the count falls, the thread holds, its BROKEN_REG says whether the mark stood, and the mark clears (06 R195, R198). -/
def State.grantOne (s : State) (k : Nat) (w : SemWaiter) : State :=
  let broken := ((Tab.find s.compute.sems k).map (·.broken)).getD false
  let s := s.modCompute (fun c => { c with sems := Tab.change c.sems k (fun x =>
    { x with count := x.count - w.count, broken := false, waiters := x.waiters.filter (fun y => y.thread ≠ w.thread) }) })
  s.modThread w.thread (fun th =>
    { (th.setReg w.brokenReg (if broken then 1#64 else 0#64)) with st := .ready, held := th.held ++ [⟨k, w.count, 0⟩] })

/-- Waiters are granted in order until one cannot be; it blocks those behind it (06 R195). -/
def State.grantSems (s : State) (k : Nat) : Nat → State
  | 0 => s
  | n + 1 =>
    match Tab.find s.compute.sems k with
    | none => s
    | some x =>
      match sortBy s.waiterBefore x.waiters with
      | w :: _ => if w.count ≤ x.count then (s.grantOne k w).grantSems k n else s
      | [] => s

/-- The waiters of a semaphore. -/
def State.semWaiters (s : State) (k : Nat) : Nat := ((Tab.find s.compute.sems k).map (fun x => x.waiters.length)).getD 0

/-- SY_SEM_ACQ (06 R195 to R198, R211): a grant that nothing blocks comes at once. -/
def execSySemAcq (t : Nat) (s : State) : Host.Outcome State Fault Refusal :=
  .next (s.issue t 0x0603 noRanges
    (fun th r =>
      let k := s.semKey th (fld r 32 12)
      if 4 ≤ th.held.length || th.held.any (fun h => k ≤ h.sem) then some (.semOrder, 0) else none)
    (fun th r s =>
      let k := s.semKey th (fld r 32 12)
      let s := s.modCompute (fun c => { c with sems := Tab.change c.sems k (fun x =>
        { x with waiters := x.waiters ++ [⟨t, fld r 44 16, fld r 60 5, s.now / arrayUnits⟩] }) })
      let s := s.modThread t (fun x => { x with st := .semWait k })
      s.grantSems k (s.semWaiters k)))

/-- SEMAPHORE_GRANT (06 R195). -/
def execSemaphoreGrant (sem : Nat) (s : State) : Host.Outcome State Fault Refusal := .next (s.grantSems sem (s.semWaiters sem))

/-- An amount released from what a thread holds; a hold of nothing ends (log entry 38). -/
def releaseHold (k n : Nat) (l : List Hold) : List Hold :=
  (l.map (fun h => if h.sem = k then { h with amount := h.amount - n } else h)).filter (fun h => h.sem ≠ k || h.amount ≠ 0)

/-- SY_SEM_REL (06 R195, R211): a release waits for every earlier operation of its thread (06 R192). -/
def execSySemRel (t : Nat) (s : State) : Host.Outcome State Fault Refusal :=
  if ((s.thread? t).map (fun th => !th.flights.isEmpty)).getD false then .next s
  else
    .next (s.issue t 0x0604 noRanges
      (fun th r =>
        let k := s.semKey th (fld r 32 12)
        let tooMany := match Tab.find s.compute.sems k with
          | some x => decide (x.maximum < x.count + fld r 44 16)
          | none => true
        if th.held.all (fun h => h.sem ≠ k) || tooMany then some (.semState, 0) else none)
      (fun th r s =>
        let k := s.semKey th (fld r 32 12)
        let s := s.modThread t (fun x => { x with held := releaseHold k (fld r 44 16) x.held })
        s.modCompute (fun c => { c with sems := Tab.change c.sems k (fun x => { x with count := x.count + fld r 44 16 }) })))

/-! ## Fences, waits and barriers (06 R186, R192, R199). -/

/-- Whether a thread still has operations in flight. -/
def State.flying (s : State) (t : Nat) : Bool := ((s.thread? t).map (fun th => !th.flights.isEmpty)).getD false

/-- SY_FENCE (06 R192, R211): a release or full fence waits for every earlier operation; memory here is always visible. -/
def execSyFence (t : Nat) (s : State) : Host.Outcome State Fault Refusal :=
  let release : Bool := ((s.issuing t 0x0601).map (fun x => decide (fld x.2 32 2 ≠ 0))).getD false
  if release ∧ s.flying t then .next s else .next (s.issue t 0x0601 noRanges noCheck (fun _ _ s => s))

/-- SY_WAIT (06 R185, R211): waits on WAIT_MASK. -/
def execSyWait (t : Nat) (s : State) : Host.Outcome State Fault Refusal := .next (s.issue t 0x0602 noRanges noCheck (fun _ _ s => s))

/-- SY_BARRIER (06 R199, R211): arrival acts as a release. -/
def execSyBarrier (t : Nat) (s : State) : Host.Outcome State Fault Refusal :=
  if s.flying t ∧ ((s.thread? t).map (fun th => th.held.isEmpty)).getD false then .next s
  else
    .next (s.issue t 0x0605 noRanges noCheck (fun _ r s =>
      s.modThread t (fun x => { x with st := .barrierWait (flag r 36) (fld r 32 4) })))

/-- The threads a barrier instance asks for: a gang's, or the whole job's, that have not ended (06 R199). -/
def State.participants (s : State) (job : Nat) (gang : Option Nat) : List (Nat × Thread) :=
  s.compute.threads.filter (fun e => e.2.job = job && e.2.st ≠ .ended && (match gang with
    | some g => e.2.gang = g
    | none => true))

/-- BARRIER_COMPLETE (06 R199): every participant has arrived, and all go on. -/
def execBarrierComplete (job : Nat) (gang : Option Nat) (barrier : Fin 16) (s : State) : Host.Outcome State Fault Refusal :=
  let ps := s.participants job gang
  let here := ThState.barrierWait gang.isNone barrier.val
  if ps ≠ [] ∧ ps.all (fun e => e.2.st = here) then
    .next (s.modCompute (fun c => { c with threads := Tab.changeAll c.threads (fun th =>
      if th.job = job ∧ th.st = here ∧ (gang.isNone ∨ gang = some th.gang) then { th with st := .ready } else th) }))
  else .next s

/-- Bindings of handles are released: their contexts are gone (06 R184). -/
def State.unbind (s : State) (t : Nat) (hs : List Nat) : State :=
  let ks := hs.filterMap (fun h => ((s.thread? t).map (fun th => (th.handle h).ctx)).getD none)
  let s := s.modCompute (fun c => { c with ctxs := c.ctxs.filter (fun e => e.1 ∉ ks) })
  s.modThread t (fun th => hs.foldl (fun th h => th.modHandle h (fun x => { x with ctx := none })) th)

/-- Whether a handle's context has work left. -/
def State.ctxWorking (s : State) (t h : Nat) : Bool :=
  match ((s.thread? t).map (fun th => (th.handle h).ctx)).getD none with
  | some k => ((Tab.find s.compute.ctxs k).map (fun x => x.busy || !x.queue.isEmpty)).getD false
  | none => false

/-- SY_UNBIND (06 R184, R186, R211): waits until each handle's count is zero and its operations have ended (log entry 39). -/
def execSyUnbind (t : Nat) (s : State) : Host.Outcome State Fault Refusal :=
  match s.issuing t 0x0606 with
  | none => .next s
  | some (th, r) =>
    let hs := maskHandles (fld r 32 8)
    if !th.ready (fld r 32 8) || hs.any (s.ctxWorking t) then .next s
    else .next (s.issue t 0x0606 noRanges noCheck (fun _ _ s => s.unbind t hs))

/-! ## Control flow (06 R212). -/

/-- The record OFFSET names, relative to the operation's own. -/
def target (pc : Nat) (r : BitVec 256) : Nat := ((pc : Int) + signedOf 32 (fld r 32 32)).toNat

/-- A thread goes to a record. -/
def State.goTo (s : State) (t pc : Nat) : State := s.modThread t (fun th => { th with pc := pc })

/-- The conditions of R212. -/
def condHolds (cond : Nat) (a b : W64) : Bool :=
  match cond with
  | 0 => a = b
  | 1 => a ≠ b
  | 2 => a.slt b
  | 3 => a.sle b
  | 4 => b.slt a
  | 5 => b.sle a
  | 6 => a.ult b
  | _ => b.ule a

/-- CF_BR. -/
def execCfBr (t : Nat) (s : State) : Host.Outcome State Fault Refusal :=
  .next (s.issue t 0x0701 noRanges noCheck (fun th r s => s.goTo t (target th.pc r)))

/-- CF_BRC. -/
def execCfBrc (t : Nat) (s : State) : Host.Outcome State Fault Refusal :=
  .next (s.issue t 0x0702 noRanges noCheck (fun th r s =>
    let b := if flag r 77 then BitVec.ofNat 64 (fld r 78 64) else th.reg (fld r 69 5)
    if condHolds (fld r 74 3) (th.reg (fld r 64 5)) b then s.goTo t (target th.pc r) else s))

/-- CF_LOOP. -/
def execCfLoop (t : Nat) (s : State) : Host.Outcome State Fault Refusal :=
  .next (s.issue t 0x0703 noRanges noCheck (fun th r s =>
    let n := th.reg (fld r 64 5) - 1#64
    let s := s.modThread t (fun x => x.setReg (fld r 64 5) n)
    if n ≠ 0#64 then s.goTo t (target th.pc r) else s))

/-- CF_CALL: faults beyond the call depth of 16 (06 R180). -/
def execCfCall (t : Nat) (s : State) : Host.Outcome State Fault Refusal :=
  .next (s.issue t 0x0704 noRanges (fun th _ => if 16 ≤ th.calls.length then some (.callDepth, 0) else none) (fun th r s =>
    (s.modThread t (fun x => { x with calls := (th.pc + 1) :: x.calls })).goTo t (target th.pc r)))

/-- CF_RET. -/
def execCfRet (t : Nat) (s : State) : Host.Outcome State Fault Refusal :=
  .next (s.issue t 0x0705 noRanges (fun th _ => if th.calls.isEmpty then some (.callDepth, 0) else none) (fun th _ s =>
    (s.modThread t (fun x => { x with calls := x.calls.drop 1 })).goTo t (th.calls.headD 0)))

/-- CF_END (06 R183): every asynchronous operation of the thread has completed; the job ends with its last thread. -/
def execCfEnd (t : Nat) (s : State) : Host.Outcome State Fault Refusal :=
  if s.flying t ∧ ((s.thread? t).map (fun th => th.held.isEmpty)).getD false then .next s
  else
    .next (s.issue t 0x0706 noRanges (fun th _ => if th.held.isEmpty then none else some (.endHeld, 0)) (fun th _ s =>
      let s := (s.unbind t (List.range 8)).modThread t (fun x => { x with st := .ended })
      if (s.compute.threads.filter (fun e => e.2.job = th.job)).all (fun e => e.2.st = .ended) then s.endJob th.job .success else s))

/-- CF_TRAP. -/
def execCfTrap (t : Nat) (s : State) : Host.Outcome State Fault Refusal :=
  .next (s.issue t 0x0707 noRanges (fun _ r => some (.trap, fld r 32 16)) (fun _ _ s => s))

/-! ## Scalar arithmetic (06 R213, R214). -/

/-- The second operand. -/
def scOperand (th : Thread) (r : BitVec 256) : W64 := if flag r 47 then BitVec.ofNat 64 (fld r 48 64) else th.reg (fld r 42 5)

/-- An arithmetic operation writes DST from the first register and the second operand. -/
def State.scalar (s : State) (t op : Nat) (f : W64 → W64 → W64) : State :=
  s.issue t op noRanges noCheck (fun th r s => s.modThread t (fun x => x.setReg (fld r 32 5) (f (th.reg (fld r 37 5)) (scOperand th r))))

/-- SC_ADD. -/
def execScAdd (t : Nat) (s : State) : Host.Outcome State Fault Refusal := .next (s.scalar t 0x0801 (fun a b => a + b))
/-- SC_SUB. -/
def execScSub (t : Nat) (s : State) : Host.Outcome State Fault Refusal := .next (s.scalar t 0x0802 (fun a b => a - b))
/-- SC_MUL: the low 64 bits. -/
def execScMul (t : Nat) (s : State) : Host.Outcome State Fault Refusal := .next (s.scalar t 0x0803 (fun a b => a * b))
/-- SC_DIVU: all ones if b is 0. -/
def execScDivu (t : Nat) (s : State) : Host.Outcome State Fault Refusal :=
  .next (s.scalar t 0x0804 (fun a b => if b = 0#64 then BitVec.allOnes 64 else a / b))
/-- SC_REMU: the first register if b is 0. -/
def execScRemu (t : Nat) (s : State) : Host.Outcome State Fault Refusal :=
  .next (s.scalar t 0x0805 (fun a b => if b = 0#64 then a else a % b))
/-- SC_AND. -/
def execScAnd (t : Nat) (s : State) : Host.Outcome State Fault Refusal := .next (s.scalar t 0x0806 (fun a b => a &&& b))
/-- SC_OR. -/
def execScOr (t : Nat) (s : State) : Host.Outcome State Fault Refusal := .next (s.scalar t 0x0807 (fun a b => a ||| b))
/-- SC_XOR. -/
def execScXor (t : Nat) (s : State) : Host.Outcome State Fault Refusal := .next (s.scalar t 0x0808 (fun a b => a ^^^ b))
/-- SC_SHL: the count modulo 64. -/
def execScShl (t : Nat) (s : State) : Host.Outcome State Fault Refusal := .next (s.scalar t 0x0809 (fun a b => a <<< (b.toNat % 64)))
/-- SC_SHR. -/
def execScShr (t : Nat) (s : State) : Host.Outcome State Fault Refusal := .next (s.scalar t 0x080A (fun a b => a >>> (b.toNat % 64)))
/-- SC_SAR. -/
def execScSar (t : Nat) (s : State) : Host.Outcome State Fault Refusal := .next (s.scalar t 0x080B (fun a b => a.sshiftRight (b.toNat % 64)))
/-- SC_MIN, signed. -/
def execScMin (t : Nat) (s : State) : Host.Outcome State Fault Refusal := .next (s.scalar t 0x080C (fun a b => if b.slt a then b else a))
/-- SC_MAX, signed. -/
def execScMax (t : Nat) (s : State) : Host.Outcome State Fault Refusal := .next (s.scalar t 0x080D (fun a b => if a.slt b then b else a))
/-- SC_SLT, signed. -/
def execScSlt (t : Nat) (s : State) : Host.Outcome State Fault Refusal :=
  .next (s.scalar t 0x080E (fun a b => if a.slt b then 1#64 else 0#64))
/-- SC_MOVI. -/
def execScMovi (t : Nat) (s : State) : Host.Outcome State Fault Refusal :=
  .next (s.issue t 0x080F noRanges noCheck (fun _ r s => s.modThread t (fun x => x.setReg (fld r 32 5) (BitVec.ofNat 64 (fld r 48 64)))))

/-! ## Scalar accesses (06 R188, R190, R192, R213, R214; 07 R234, R238). -/

/-- The address of a scalar access: s[SRC1] + IMM modulo 2^64. -/
def scAddr (th : Thread) (r : BitVec 256) : Nat := (th.reg (fld r 37 5) + BitVec.ofNat 64 (fld r 48 64)).toNat
/-- The width in bytes. -/
def scWidth (r : BitVec 256) : Nat := 2 ^ fld r 112 2
/-- The range touched. -/
def scRanges (th : Thread) (r : BitVec 256) : List Range := [⟨scAddr th r, scWidth r⟩]

/-- The fault of an access: not naturally aligned, or R188's. -/
def State.scFault (s : State) (k : Access) (th : Thread) (r : BitVec 256) : Option (FaultCode × Nat) :=
  if scAddr th r % scWidth r ≠ 0 then some (.address, 0)
  else
    match s.resolve th (scAddr th r) (scWidth r) k with
    | .error f => some (f, 0)
    | .ok _ => none

/-- The page-in an access to region 0x01 needs, if its tile is absent: the thread waits for it, under the job's deadline (07 R238). -/
def State.pageIn (s : State) (t op : Nat) : Option State :=
  match s.issuing t op with
  | none => none
  | some (th, r) =>
    let a := scAddr th r
    match s.absentTiles a (scWidth r) with
    | [] => none
    | ts =>
      if (Tab.vals s.tiers.reqs).any (fun q => q.kind = .pageIn && q.thread = t) then some s
      else
        match s.job? th.job with
        | some j =>
          some (s.addReq ⟨.pageIn, t, th.job, 0, none, r, BitVec.ofNat 64 a, 0#64, scWidth r, 0, 0#64, 0#64, 0, 0, 0#64, j.deadline, j.cls, ts, 0, 0, none,
            none, [], false, 0, ts, 0⟩).2
        | none => some s

/-- An access that touches region 0x00 allocates its line; one of region 0x01 uses its tile; either may form a stream (07 R234, R236, R241). -/
def State.scTouch (s : State) (t : Nat) (th : Thread) (a : Nat) (write : Bool) : State :=
  let cls := s.threadCls th
  let modh := ((s.job? th.job).map (·.modh)).getD 0
  if a / 2 ^ 56 = 0 then
    match s.grantAt modh 0 a 1 with
    | some g => (s.allocLine cls (s.quarterOf g.2 a) (a / 128) write false).noteAccess t (a / 65536)
    | none => s
  else if a / 2 ^ 56 = 1 then (s.useTile (a / 65536)).noteAccess t (a / 65536)
  else s

/-- One scalar access: it waits for its page-in, or issues with its check and effect. -/
def State.access (s : State) (t op : Nat) (k : Access) (body : Thread → BitVec 256 → Spots → State → State) : State :=
  match s.issuing t op with
  | none => s
  | some (th, r) =>
    if (s.scFault k th r).isNone ∧ ¬ th.mustWait op r (scRanges th r) ∧ (th.holdFault op r).isNone then
      match s.pageIn t op with
      | some s => s
      | none =>
        s.issue t op scRanges (s.scFault k) (fun th r s =>
          match s.resolve th (scAddr th r) (scWidth r) k with
          | .ok l => (body th r l s).scTouch t th (scAddr th r) k.writes
          | .error _ => s)
    else s.issue t op scRanges (s.scFault k) (fun _ _ s => s)

/-- SC_LD (06 R214). -/
def execScLd (t : Nat) (s : State) : Host.Outcome State Fault Refusal :=
  .next (s.access t 0x0810 .load (fun th r l s =>
    if s.spotsBad th l then s.endJob th.job .tierFailed else
    let x := leNat (s.spotsRead th l)
    let v := if flag r 116 then BitVec.ofInt 64 (signedOf (8 * scWidth r) x) else BitVec.ofNat 64 x
    s.modThread t (fun y => y.setReg (fld r 32 5) v)))

/-- Whether an access of this order waits for the thread's earlier operations: release (06 R192). -/
def State.mustDrain (s : State) (t op : Nat) : Bool :=
  ((s.issuing t op).map (fun x => bitOf (fld x.2 114 2) 1 && !x.1.flights.isEmpty)).getD false

/-- SC_ST (06 R214): the low WIDTH bytes of s[SRC2]. -/
def execScSt (t : Nat) (s : State) : Host.Outcome State Fault Refusal :=
  if s.mustDrain t 0x0811 then .next s
  else
    .next (s.access t 0x0811 .store (fun th r l s => s.spotsWrite th l (leBytes (scWidth r) (th.reg (fld r 42 5)).toNat)))

/-- The value an atomic operation writes, if it writes (06 R214). -/
def atomValue (aop w : Nat) (old src dst : Nat) : Option Nat :=
  match aop with
  | 0 => some ((old + src) % 2 ^ w)
  | 1 => some (src % 2 ^ w)
  | 2 => if old = dst % 2 ^ w then some (src % 2 ^ w) else none
  | 3 => some (wrapTo w (max (signedOf w old) (signedOf w src)))
  | _ => some (wrapTo w (min (signedOf w old) (signedOf w src)))

/-- SC_ATOM (06 R214): DST takes the old value. -/
def execScAtom (t : Nat) (s : State) : Host.Outcome State Fault Refusal :=
  if s.mustDrain t 0x0812 then .next s
  else
    .next (s.access t 0x0812 .atom (fun th r l s =>
      let w := scWidth r
      if s.spotsBad th l then s.endJob th.job .tierFailed else
      let old := leNat (s.spotsRead th l)
      let s := match atomValue (fld r 117 3) (8 * w) old (th.reg (fld r 42 5)).toNat (th.reg (fld r 32 5)).toNat with
        | some v => s.spotsWrite th l (leBytes w v)
        | none => s
      s.modThread t (fun y => y.setReg (fld r 32 5) (BitVec.ofNat 64 old))))

end Sys2Proof.Machine
end

