-- ==== Sys2Proof/Machine/Dispatch.lean ====
section
/-! DEFINITION. Each command's meaning, one arm per constructor of Instr. -/

namespace Sys2Proof.Machine

def exec (i : Instr) (s : State) : Host.Outcome State Fault Refusal :=
  match i with
  | .powerGood slotId smbAddrSel o => Sys2Proof.Machine.execPowerGood slotId smbAddrSel o s
  | .powerLoss landed => Sys2Proof.Machine.execPowerLoss landed s
  | .readinessSet f => Sys2Proof.Machine.execReadinessSet f s
  | .operatingTimeSave => Sys2Proof.Machine.execOperatingTimeSave s
  | .temperatureSample readings => Sys2Proof.Machine.execTemperatureSample readings s
  | .idleTimerExpiry => Sys2Proof.Machine.execIdleTimerExpiry s
  | .hibernateEntry => Sys2Proof.Machine.execHibernateEntry s
  | .wake e => Sys2Proof.Machine.execWake e s
  | .powerCapControl watts => Sys2Proof.Machine.execPowerCapControl watts s
  | .thermalThrottle sensor reading => Sys2Proof.Machine.execThermalThrottle sensor reading s
  | .thermalHardStop sensor reading landed => Sys2Proof.Machine.execThermalHardStop sensor reading landed s
  | .watchdogExpired bringUp o => Sys2Proof.Machine.execWatchdogExpired bringUp o s
  | .moduleReset w o => Sys2Proof.Machine.execModuleReset w o s
  | .fuseBlow => Sys2Proof.Machine.execFuseBlow s
  | .portReset p c => Sys2Proof.Machine.execPortReset p c s
  | .qsfpCageChange cage fitted => Sys2Proof.Machine.execQsfpCageChange cage fitted s
  | .adminEn w => Sys2Proof.Machine.execAdminEn w s
  | .cmdTail p ring value => Sys2Proof.Machine.execCmdTail p ring value s
  | .replyHead p ring value => Sys2Proof.Machine.execReplyHead p ring value s
  | .commandFetch p => Sys2Proof.Machine.execCommandFetch p s
  | .replyWrite p ring => Sys2Proof.Machine.execReplyWrite p ring s
  | .msixSignal p ring => Sys2Proof.Machine.execMsixSignal p ring s
  | .xrdy => Sys2Proof.Machine.execXrdy s
  | .pushWrite p offset data => Sys2Proof.Machine.execPushWrite p offset data s
  | .dataDone w => Sys2Proof.Machine.execDataDone w s
  | .dataDoneWaitEnd grant => Sys2Proof.Machine.execDataDoneWaitEnd grant s
  | .hbKick w => Sys2Proof.Machine.execHbKick w s
  | .hbControl w => Sys2Proof.Machine.execHbControl w s
  | .heartbeatMissed => Sys2Proof.Machine.execHeartbeatMissed s
  | .stopworkHalt w => Sys2Proof.Machine.execStopworkHalt w s
  | .stopworkAbort w => Sys2Proof.Machine.execStopworkAbort w s
  | .stopworkAbortHibernate w => Sys2Proof.Machine.execStopworkAbortHibernate w s
  | .stopworkRelease w => Sys2Proof.Machine.execStopworkRelease w s
  | .commandDeadlineExpired id => Sys2Proof.Machine.execCommandDeadlineExpired id s
  | .errSummaryClear w => Sys2Proof.Machine.execErrSummaryClear w s
  | .pcset c w => Sys2Proof.Machine.execPcset c w s
  | .ways q w => Sys2Proof.Machine.execWays q w s
  | .regPolicy w => Sys2Proof.Machine.execRegPolicy w s
  | .powerCap w => Sys2Proof.Machine.execPowerCap w s
  | .planeControl w => Sys2Proof.Machine.execPlaneControl w s
  | .bucketConfig w => Sys2Proof.Machine.execBucketConfig w s
  | .integrityPolicy w => Sys2Proof.Machine.execIntegrityPolicy w s
  | .mediaPolicy w => Sys2Proof.Machine.execMediaPolicy w s
  | .registerWrite offset w => Sys2Proof.Machine.execRegisterWrite offset w s
  | .smbusRead k code => Sys2Proof.Machine.execSmbusRead k code s
  | .smbusWriteWord k code value pec => Sys2Proof.Machine.execSmbusWriteWord k code value pec s
  | .identify id => Sys2Proof.Machine.execIdentify id s
  | .getLog id => Sys2Proof.Machine.execGetLog id s
  | .getFeature id => Sys2Proof.Machine.execGetFeature id s
  | .setFeature id => Sys2Proof.Machine.execSetFeature id s
  | .ringCreate id => Sys2Proof.Machine.execRingCreate id s
  | .ringDelete id => Sys2Proof.Machine.execRingDelete id s
  | .ringRestart id => Sys2Proof.Machine.execRingRestart id s
  | .powerSet id => Sys2Proof.Machine.execPowerSet id s
  | .takeover id => Sys2Proof.Machine.execTakeover id s
  | .volumeCreate id => Sys2Proof.Machine.execVolumeCreate id s
  | .volumeDelete id => Sys2Proof.Machine.execVolumeDelete id s
  | .read id bad fault => Sys2Proof.Machine.execRead id bad fault s
  | .write id => Sys2Proof.Machine.execWrite id s
  | .deallocate id => Sys2Proof.Machine.execDeallocate id s
  | .flush id => Sys2Proof.Machine.execFlush id s
  | .itemPut id pass => Sys2Proof.Machine.execItemPut id pass s
  | .itemDelete id => Sys2Proof.Machine.execItemDelete id s
  | .attrSet id => Sys2Proof.Machine.execAttrSet id s
  | .itemGet id unreadable => Sys2Proof.Machine.execItemGet id unreadable s
  | .cacheGet id => Sys2Proof.Machine.execCacheGet id s
  | .cacheDrop id => Sys2Proof.Machine.execCacheDrop id s
  | .itemsFormat id => Sys2Proof.Machine.execItemsFormat id s
  | .search id r => Sys2Proof.Machine.execSearch id r s
  | .searchSpan id r => Sys2Proof.Machine.execSearchSpan id r s
  | .bitmapLoad id => Sys2Proof.Machine.execBitmapLoad id s
  | .bitmapBuild id => Sys2Proof.Machine.execBitmapBuild id s
  | .bitmapFree id => Sys2Proof.Machine.execBitmapFree id s
  | .sessionOpen id => Sys2Proof.Machine.execSessionOpen id s
  | .ask id r => Sys2Proof.Machine.execAsk id r s
  | .sessionClose id => Sys2Proof.Machine.execSessionClose id s
  | .modelLoad id => Sys2Proof.Machine.execModelLoad id s
  | .moduleLoad id => Sys2Proof.Machine.execModuleLoad id s
  | .run id => Sys2Proof.Machine.execRun id s
  | .grantMake id => Sys2Proof.Machine.execGrantMake id s
  | .grantFree id => Sys2Proof.Machine.execGrantFree id s
  | .modelUnload id => Sys2Proof.Machine.execModelUnload id s
  | .moduleUnload id => Sys2Proof.Machine.execModuleUnload id s
  | .adaptStart id => Sys2Proof.Machine.execAdaptStart id s
  | .adaptStatus id => Sys2Proof.Machine.execAdaptStatus id s
  | .adaptCommit id => Sys2Proof.Machine.execAdaptCommit id s
  | .spanJoin id => Sys2Proof.Machine.execSpanJoin id s
  | .spanLeave id => Sys2Proof.Machine.execSpanLeave id s
  | .spanStatus id => Sys2Proof.Machine.execSpanStatus id s
  | .fwDownload id => Sys2Proof.Machine.execFwDownload id s
  | .fwCommit id => Sys2Proof.Machine.execFwCommit id s
  | .attest id => Sys2Proof.Machine.execAttest id s
  | .ownerLock id => Sys2Proof.Machine.execOwnerLock id s
  | .eventsRead id lost => Sys2Proof.Machine.execEventsRead id lost s
  | .eventsClear id => Sys2Proof.Machine.execEventsClear id s
  | .health id => Sys2Proof.Machine.execHealth id s
  | .readPage d mask rows prefetching => Sys2Proof.Machine.execReadPage d mask rows prefetching s
  | .readNext d => Sys2Proof.Machine.execReadNext d s
  | .readChain d m => Sys2Proof.Machine.execReadChain d m s
  | .dataOut d plane col len => Sys2Proof.Machine.execDataOut d plane col len s
  | .programSlc d mask rows data why => Sys2Proof.Machine.execProgramSlc d mask rows data why s
  | .programQlc d mask rows data why => Sys2Proof.Machine.execProgramQlc d mask rows data why s
  | .erase d mask rows m why => Sys2Proof.Machine.execErase d mask rows m why s
  | .suspend d => Sys2Proof.Machine.execSuspend d s
  | .resume d => Sys2Proof.Machine.execResume d s
  | .loadQuery d slot wide data => Sys2Proof.Machine.execLoadQuery d slot wide data s
  | .loadChain d entries => Sys2Proof.Machine.execLoadChain d entries s
  | .scan d mask allow => Sys2Proof.Machine.execScan d mask allow s
  | .resultOut d => Sys2Proof.Machine.execResultOut d s
  | .readStatus d => Sys2Proof.Machine.execReadStatus d s
  | .dieGetFeature d addr => Sys2Proof.Machine.execDieGetFeature d addr s
  | .dieSetFeature d addr data => Sys2Proof.Machine.execDieSetFeature d addr data s
  | .readId d => Sys2Proof.Machine.execReadId d s
  | .reset d => Sys2Proof.Machine.execReset d s
  | .dieReservedOpcode d op => Sys2Proof.Machine.execDieReservedOpcode d op s
  | .senseComplete d flips => Sys2Proof.Machine.execSenseComplete d flips s
  | .dieProgramComplete d verified => Sys2Proof.Machine.execDieProgramComplete d verified s
  | .eraseComplete d verified => Sys2Proof.Machine.execEraseComplete d verified s
  | .suspendStart d => Sys2Proof.Machine.execSuspendStart d s
  | .suspended d => Sys2Proof.Machine.execSuspended d s
  | .scanStepCompare d => Sys2Proof.Machine.execScanStepCompare d s
  | .resetComplete d => Sys2Proof.Machine.execResetComplete d s
  | .veneerTarget => Sys2Proof.Machine.execVeneerTarget s
  | .fold lstripe pstripe => Sys2Proof.Machine.execFold lstripe pstripe s
  | .mergeStripe lstripe pstripe => Sys2Proof.Machine.execMergeStripe lstripe pstripe s
  | .journalProgram => Sys2Proof.Machine.execJournalProgram s
  | .checkpoint => Sys2Proof.Machine.execCheckpoint s
  | .relocation lstripe pstripe => Sys2Proof.Machine.execRelocation lstripe pstripe s
  | .ldpcDecode d c owner sectors l => Sys2Proof.Machine.execLdpcDecode d c owner sectors l s
  | .suspendForRead d => Sys2Proof.Machine.execSuspendForRead d s
  | .resumeAfterReads d => Sys2Proof.Machine.execResumeAfterReads d s
  | .patrol d pstripe heavy l offsets => Sys2Proof.Machine.execPatrol d pstripe heavy l offsets s
  | .rebuild pstripe member pos block => Sys2Proof.Machine.execRebuild pstripe member pos block s
  | .mmRun t => Sys2Proof.Machine.execMmRun t s
  | .mmLoad t => Sys2Proof.Machine.execMmLoad t s
  | .mmEmit t => Sys2Proof.Machine.execMmEmit t s
  | .mmCycle0 c e => Sys2Proof.Machine.execMmCycle0 c e s
  | .mmLastCycle c e stale => Sys2Proof.Machine.execMmLastCycle c e stale s
  | .shadowLoadComplete c e => Sys2Proof.Machine.execShadowLoadComplete c e s
  | .emissionComplete c e => Sys2Proof.Machine.execEmissionComplete c e s
  | .tileQueueRemove c => Sys2Proof.Machine.execTileQueueRemove c s
  | .add t => Sys2Proof.Machine.execAdd t s
  | .mul t => Sys2Proof.Machine.execMul t s
  | .fma t => Sys2Proof.Machine.execFma t s
  | .cmp t => Sys2Proof.Machine.execCmp t s
  | .sel t => Sys2Proof.Machine.execSel t s
  | .min t => Sys2Proof.Machine.execMin t s
  | .max t => Sys2Proof.Machine.execMax t s
  | .compress t => Sys2Proof.Machine.execCompress t s
  | .expand t => Sys2Proof.Machine.execExpand t s
  | .vxComplete c => Sys2Proof.Machine.execVxComplete c s
  | .slSelect t => Sys2Proof.Machine.execSlSelect t s
  | .slPassEnd c => Sys2Proof.Machine.execSlPassEnd c s
  | .mvMove t => Sys2Proof.Machine.execMvMove t s
  | .mvLend t => Sys2Proof.Machine.execMvLend t s
  | .mvDrop t => Sys2Proof.Machine.execMvDrop t s
  | .mvPrefetch t => Sys2Proof.Machine.execMvPrefetch t s
  | .mvComplete r => Sys2Proof.Machine.execMvComplete r s
  | .tierFetchComplete r ends => Sys2Proof.Machine.execTierFetchComplete r ends s
  | .tierDeadline req => Sys2Proof.Machine.execTierDeadline req s
  | .prefetchStreamRelease q stream => Sys2Proof.Machine.execPrefetchStreamRelease q stream s
  | .clAllreduce t => Sys2Proof.Machine.execClAllreduce t s
  | .clAllgather t => Sys2Proof.Machine.execClAllgather t s
  | .clBroadcast t => Sys2Proof.Machine.execClBroadcast t s
  | .clReduceScatter t => Sys2Proof.Machine.execClReduceScatter t s
  | .clTopk t => Sys2Proof.Machine.execClTopk t s
  | .clBarrier t => Sys2Proof.Machine.execClBarrier t s
  | .clTimeout key => Sys2Proof.Machine.execClTimeout key s
  | .syFence t => Sys2Proof.Machine.execSyFence t s
  | .syWait t => Sys2Proof.Machine.execSyWait t s
  | .sySemAcq t => Sys2Proof.Machine.execSySemAcq t s
  | .semaphoreGrant sem => Sys2Proof.Machine.execSemaphoreGrant sem s
  | .sySemRel t => Sys2Proof.Machine.execSySemRel t s
  | .syBarrier t => Sys2Proof.Machine.execSyBarrier t s
  | .barrierComplete job gang barrier => Sys2Proof.Machine.execBarrierComplete job gang barrier s
  | .syUnbind t => Sys2Proof.Machine.execSyUnbind t s
  | .cfBr t => Sys2Proof.Machine.execCfBr t s
  | .cfBrc t => Sys2Proof.Machine.execCfBrc t s
  | .cfLoop t => Sys2Proof.Machine.execCfLoop t s
  | .cfCall t => Sys2Proof.Machine.execCfCall t s
  | .cfRet t => Sys2Proof.Machine.execCfRet t s
  | .cfEnd t => Sys2Proof.Machine.execCfEnd t s
  | .cfTrap t => Sys2Proof.Machine.execCfTrap t s
  | .scAdd t => Sys2Proof.Machine.execScAdd t s
  | .scSub t => Sys2Proof.Machine.execScSub t s
  | .scMul t => Sys2Proof.Machine.execScMul t s
  | .scDivu t => Sys2Proof.Machine.execScDivu t s
  | .scRemu t => Sys2Proof.Machine.execScRemu t s
  | .scAnd t => Sys2Proof.Machine.execScAnd t s
  | .scOr t => Sys2Proof.Machine.execScOr t s
  | .scXor t => Sys2Proof.Machine.execScXor t s
  | .scShl t => Sys2Proof.Machine.execScShl t s
  | .scShr t => Sys2Proof.Machine.execScShr t s
  | .scSar t => Sys2Proof.Machine.execScSar t s
  | .scMin t => Sys2Proof.Machine.execScMin t s
  | .scMax t => Sys2Proof.Machine.execScMax t s
  | .scSlt t => Sys2Proof.Machine.execScSlt t s
  | .scMovi t => Sys2Proof.Machine.execScMovi t s
  | .scLd t => Sys2Proof.Machine.execScLd t s
  | .scSt t => Sys2Proof.Machine.execScSt t s
  | .scAtom t => Sys2Proof.Machine.execScAtom t s
  | .jobAdmission job cores => Sys2Proof.Machine.execJobAdmission job cores s
  | .preemption job gang => Sys2Proof.Machine.execPreemption job gang s
  | .contextSwitch c out inn => Sys2Proof.Machine.execContextSwitch c out inn s
  | .stepCompose hbmTime tokenTime sliceTimes => Sys2Proof.Machine.execStepCompose hbmTime tokenTime sliceTimes s
  | .shareWindow c => Sys2Proof.Machine.execShareWindow c s
  | .commitGroup => Sys2Proof.Machine.execCommitGroup s
  | .indexMerge plan => Sys2Proof.Machine.execIndexMerge plan s
  | .reclaim => Sys2Proof.Machine.execReclaim s
  | .dieScanIssue d => Sys2Proof.Machine.execDieScanIssue d s
  | .cacheBuild lead ok => Sys2Proof.Machine.execCacheBuild lead ok s
  | .askProgressUpdate session => Sys2Proof.Machine.execAskProgressUpdate session s
  | .adaptStep lost => Sys2Proof.Machine.execAdaptStep lost s
  | .portAligned p lock => Sys2Proof.Machine.execPortAligned p lock s
  | .portDown p c => Sys2Proof.Machine.execPortDown p c s
  | .flitReceive p f => Sys2Proof.Machine.execFlitReceive p f s
  | .hello p moduleNo slot port state span => Sys2Proof.Machine.execHello p moduleNo slot port state span s
  | .nak p expected => Sys2Proof.Machine.execNak p expected s
  | .presence src state descDigest cfgDigest window => Sys2Proof.Machine.execPresence src state descDigest cfgDigest window s
  | .presenceSend => Sys2Proof.Machine.execPresenceSend s
  | .memberLost m => Sys2Proof.Machine.execMemberLost m s
  | .spanCtl src => Sys2Proof.Machine.execSpanCtl src s
  | .clHeader src key digest params => Sys2Proof.Machine.execClHeader src key digest params s
  | .clGo key => Sys2Proof.Machine.execClGo key s
  | .clRefuse key odd => Sys2Proof.Machine.execClRefuse key odd s
  | .clData src key part => Sys2Proof.Machine.execClData src key part s
  | .clAbort src key r => Sys2Proof.Machine.execClAbort src key r s
  | .ack stream pseq edge => Sys2Proof.Machine.execAck stream pseq edge s
  | .rwWrite src stream pseq offset data => Sys2Proof.Machine.execRwWrite src stream pseq offset data s
  | .rwRead src stream pseq offset len => Sys2Proof.Machine.execRwRead src stream pseq offset len s
  | .rwResp src stream req pseq ans data => Sys2Proof.Machine.execRwResp src stream req pseq ans data s
  | .service src query group desc r => Sys2Proof.Machine.execService src query group desc r s
  | .stop src key => Sys2Proof.Machine.execStop src key s
  | .streamRetransmit stream => Sys2Proof.Machine.execStreamRetransmit stream s
  | .planeScrub k region addr found passEnd => Sys2Proof.Machine.execPlaneScrub k region addr found passEnd s
  | .bucketLeak => Sys2Proof.Machine.execBucketLeak s
  | .shadowCompare c equal => Sys2Proof.Machine.execShadowCompare c equal s
  | .arbitration c eqPrimary eqShadow => Sys2Proof.Machine.execArbitration c eqPrimary eqShadow s
  | .strikeExpiry c e => Sys2Proof.Machine.execStrikeExpiry c e s
  | .calibration model bounds => Sys2Proof.Machine.execCalibration model bounds s
  | .tailImage => Sys2Proof.Machine.execTailImage s
  | .instanceRestart key => Sys2Proof.Machine.execInstanceRestart key s
  | .pcieLinkUp p speed width mps config => Sys2Proof.Machine.execPcieLinkUp p speed width mps config s
  | .smbusBusRelease => Sys2Proof.Machine.execSmbusBusRelease s
  | .entropyHealthTestFailure o => Sys2Proof.Machine.execEntropyHealthTestFailure o s
  | .mediaStateUpdate => Sys2Proof.Machine.execMediaStateUpdate s

end Sys2Proof.Machine
end

