-- ==== Sys2Proof/Machine/Leds.lean ====
section
/-! DEFINITION. The front panel's LEDs, which show the state in every power state (19 R587; log entry 70). -/

namespace Sys2Proof.Machine

/-- What an LED shows (19 R587). -/
inductive Pattern where
  | off | steady | hz4 | hz1 | halfHz | flash
deriving DecidableEq, Repr, Inhabited

/-- The LEDs of the front panel (19 R587). -/
inductive Led where
  | power | fault | link2 | link3
deriving DecidableEq, Repr, Inhabited

/-- POWER: off with the input outside its window, which leaves the Escapement without power (19 R588); 1 Hz until RDY_ADMIN; then by power state. -/
def State.powerLed (s : State) : Pattern :=
  if !s.escapement then .off
  else match s.power.st with
    | .a3 => .flash
    | .a2 => .halfHz
    | .a1 => .steady
    | .a0 => if s.power.ready.getLsbD 0 then .steady else .hz1

/-- FAULT: the first cause that applies (02 R81; 14 R473; 16 R521, R528; 17 R554; 18 R567). -/
def State.faultLed (s : State) : Pattern :=
  if !s.escapement then .off
  else if s.readOnly || s.power.noBoot || (s.power.trySquareDone && s.power.adminOnly) then .steady
  else if !s.power.hot.isEmpty || !s.power.stopped.isEmpty || !s.power.paced.isEmpty then .hz4
  else if s.integ.errSummary ≠ 0#12 || s.media.spareState = .low || s.power.cfgDefaulted then .hz1
  else .off

/-- LINK2 and LINK3, beside the cages of Tenon ports 2 and 3 (11 R348). -/
def State.linkLed (s : State) (port : Nat) : Pattern :=
  if !s.escapement then .off
  else match (Tab.at s.span.ports port (TPort.fresh .down)).st with
    | .up => .steady
    | .down => .off
    | _ => .hz1

/-- The pattern of an LED. -/
def State.ledPattern (s : State) : Led → Pattern
  | .power => s.powerLed
  | .fault => s.faultLed
  | .link2 => s.linkLed 2
  | .link3 => s.linkLed 3

/-- Whether a pattern is lit `t` after it began: a blinking one for half its period, the flash 100 ms in every 4 s. -/
def Pattern.lit (p : Pattern) (t : Nat) : Bool :=
  match p with
  | .off => false
  | .steady => true
  | .hz4 => t % (250 * msUnits) < 125 * msUnits
  | .hz1 => t % (1000 * msUnits) < 500 * msUnits
  | .halfHz => t % (2000 * msUnits) < 1000 * msUnits
  | .flash => t % (4000 * msUnits) < 100 * msUnits

end Sys2Proof.Machine
end

