-- ==== Sys2Proof/Safety.lean ====
section
/-! DEFINITION. What the claims speak of: safe states, the parts of a state and what a command leaves alone, and how a command's completion shows. -/

namespace Sys2Proof

open Machine

/-- The memories of a state in canonical form with unlisted bytes zero: HBM, flash home space, pinned cache, privileged space, the image of HBM and pinned cache that
A3 keeps (16 R514), and host memory. -/
def memoriesOk (s : State) : Prop :=
  Mem.wf 0 s.tiers.hbm = true ∧ Mem.wf 0 s.tiers.flash = true ∧ Mem.wf 0 s.tiers.pinned = true ∧ Mem.wf 0 s.tiers.priv = true ∧
    (∀ x, s.tiers.image = some x → Mem.wf 0 x.1 = true ∧ Mem.wf 0 x.2 = true) ∧ Mem.wf 0 s.host.hostMem = true

/-! ## Frames. -/

/-- The commands that start the module anew (16 R524; 17 R550). -/
def Instr.starts : Instr → Bool
  | .powerGood _ _ _ => true
  | .moduleReset _ _ => true
  | .watchdogExpired _ _ => true
  | .entropyHealthTestFailure _ => true
  | _ => false

/-- The parts of a state, one for each of its fields. -/
inductive Part where
  | pending | now | freeCtr | dies | media | compute | steps | tiers | items | serv | span | host | regul | integ | events | health | power | sec | smbus
deriving DecidableEq, Repr

/-- One part is the same in two states. -/
def Part.same (p : Part) (s t : State) : Prop :=
  match p with
  | .pending => t.pending = s.pending
  | .now => t.now = s.now
  | .freeCtr => t.freeCtr = s.freeCtr
  | .dies => t.dies = s.dies
  | .media => t.media = s.media
  | .compute => t.compute = s.compute
  | .steps => t.steps = s.steps
  | .tiers => t.tiers = s.tiers
  | .items => t.items = s.items
  | .serv => t.serv = s.serv
  | .span => t.span = s.span
  | .host => t.host = s.host
  | .regul => t.regul = s.regul
  | .integ => t.integ = s.integ
  | .events => t.events = s.events
  | .health => t.health = s.health
  | .power => t.power = s.power
  | .sec => t.sec = s.sec
  | .smbus => t.smbus = s.smbus

/-- The frame of a command: every part of the state but those listed is as before. -/
def Frame (ks : List Part) (s t : State) : Prop := ∀ p : Part, p ∉ ks → p.same s t

/-- Every die but one is as before. -/
def OtherDies (s t : State) (d : DieNo) : Prop := ∀ e : DieNo, e ≠ d → t.die e = s.die e

/-- Host memory reads as before outside n bytes from a key. -/
def HostOutside (s t : State) (k n : Nat) : Prop := ∀ a, a < k ∨ k + n ≤ a → Mem.get 0 t.host.hostMem a = Mem.get 0 s.host.hostMem a

/-- Host memory is as before. -/
def HostSame (s t : State) : Prop := t.host.hostMem = s.host.hostMem

/-- Bytes stand in the host memory of a port at an address, and every other byte of host memory is as before. -/
def HostHolds (s t : State) (p : Port) (a : Nat) (bs : List Byte) : Prop :=
  Mem.read 0 t.host.hostMem (hostKey p a) bs.length = bs ∧ HostOutside s t (hostKey p a) bs.length

/-- One event has been recorded, with the time and power cycles of the state before (15 R489, R493). -/
def Recorded (s t : State) (code src : Nat) (payload : List Byte) : Prop := t.events = s.events.add s.opTime s.power.cycles code src payload

/-- A write to the policy register at an offset is recorded with the values before and after (18 R568). -/
def PolicyRecorded (s t : State) (off : Nat) (old new : W64) : Prop :=
  Recorded s t 0x5001 (sourceOf 0 0) (leBytes 4 off ++ leBytes 8 old.toNat ++ leBytes 8 new.toNat)

/-- One ring has a new value, and every other ring, and all of its port but its rings, is as before. -/
structure OnlyRing (s t : State) (p : Port) (r : Nat) (g : Ring) : Prop where
  there : t.ring? p r = some g
  rings : ∀ q k, (q ≠ p ∨ k ≠ r) → t.ring? q k = s.ring? q k
  port : t.port p = { s.port p with rings := (t.port p).rings }
  other : t.port p.other = s.port p.other

/-- A command has completed with one reply: it is gone, its ring holds the reply last, and its grants are revoked (12 R384, R394). No other command, ring or
port changes, and of the host's state only rings, grants, the commands in progress and host memory do. -/
structure Replied (s t : State) (id : Nat) (c : Cmd) (x : Reply) : Prop where
  gone : t.cmd? id = none
  held : ∀ g, s.ring? c.port c.ring = some g → t.ring? c.port c.ring = some { g with held := g.held ++ [x] }
  rings : ∀ p r, (p ≠ c.port ∨ r ≠ c.ring) → t.ring? p r = s.ring? p r
  cmds : ∀ j, j ≠ id → t.cmd? j = s.cmd? j
  revoked : ∀ g ∈ (t.port c.port).grants, g.cmd ≠ id
  port : t.port c.port = { s.port c.port with rings := (t.port c.port).rings, grants := (t.port c.port).grants, ended := (t.port c.port).ended }
  other : t.port c.port.other = s.port c.port.other
  rest : t.host = { s.host with portA := t.host.portA, portB := t.host.portB, cmds := t.host.cmds, hostMem := t.host.hostMem }

/-- A command of an opcode goes on (12 R386, R402, R406): in progress under its number, no halt over it, FENCE open, its deadline not passed. -/
def Runs (s : State) (id op : Nat) (c : Cmd) : Prop := s.acting id op = some c ∧ c.ident = id ∧ s.late c = false

/-- A command has succeeded with a result: replied, no other part of the state changed than those listed, and media management only let go of what it counted for the
command (02 R83). -/
structure Succeeded (ks : List Part) (s t : State) (id : Nat) (c : Cmd) (result : List Byte) : Prop where
  replied : Replied s t id c (c.reply .success 0 result)
  frame : Frame (.host :: .media :: ks) s t

/-- The loss of a member leaves an instance alone: its group, or for what another coordinator's span search has sent early that coordinator, is another (11 R370). -/
def Spared (t : State) (m : Nat) (i : Inst) : Prop :=
  match i.key with
  | .search c _ => if i.issued || i.cmd.isSome then m ∉ t.groupMembers i.group else c ≠ m
  | _ => m ∉ t.groupMembers i.group

/-! ## Threads. -/

/-- An operation of a thread takes its effect: the thread may issue its record of the opcode, no hold forbids it, and nothing it waits for is missing (06 R185, R190, R197). -/
structure Issues (s : State) (n op : Nat) (ranges : List Machine.Range) (th : Thread) (r : BitVec 256) : Prop where
  here : s.issuing n op = some (th, r)
  unheld : th.holdFault op r = none
  free : th.mustWait op r ranges = false

/-- A thread past its record, with the operation counted against its holds (06 R197). -/
def passed (th : Thread) (op : Nat) : Thread :=
  { th with pc := th.pc + 1, held := if counted op then th.held.map (fun h => { h with ops := h.ops + 1 }) else th.held }

/-- An operation has issued: its thread is as said, its job has counted it, and every other thread and job is as before (06 R217). -/
structure Ran (s t : State) (n : Nat) (th th' : Thread) : Prop where
  thread : t.thread? n = some th'
  threads : ∀ k, k ≠ n → t.thread? k = s.thread? k
  job : t.job? th.job = (s.job? th.job).map (fun j => { j with ops := j.ops + 1 })
  jobs : ∀ k, k ≠ th.job → t.job? k = s.job? k

/-- Nothing of the cores' state but threads and jobs has changed, and no other part of the state. -/
def OnlyThreads (s t : State) : Prop := t.compute = { s.compute with threads := t.compute.threads, jobs := t.compute.jobs } ∧ Frame [.compute] s t

/-- A command issues a scalar operation that writes a function of its two operands to DST, and changes nothing else (06 R213, R214). -/
def Computes (i : Nat → Instr) (op : Nat) (f : W64 → W64 → W64) : Prop :=
  ∀ (s : State) (n : Nat) (th : Thread) (r : BitVec 256), Issues s n op [] th r →
    ∃ t, exec (i n) s = .next t ∧ OnlyThreads s t ∧
      Ran s t n th ((passed th op).setReg (fld r 32 5) (f (th.reg (fld r 37 5)) (if flag r 47 then BitVec.ofNat 64 (fld r 48 64) else th.reg (fld r 42 5))))

/-- One byte's place lies outside n bytes at a place. -/
def Clear (p : Place) (n : Nat) (q : Place) : Prop :=
  match p, q with
  | .win a, .win b => b < a ∨ a + n ≤ b
  | .hbm a, .hbm b => b < a ∨ a + n ≤ b
  | .flash a, .flash b => b < a ∨ a + n ≤ b
  | .pinned a, .pinned b => b < a ∨ a + n ≤ b
  | .priv a, .priv b => b < a ∨ a + n ≤ b
  | _, _ => True

/-- No byte of n at a place belongs to a context cache or a session: caches, sessions and other grants of region 0x01 have space of their own (07 R225, R246; 10 R327). -/
def ClearOfCaches (s : State) (p : Place) (n : Nat) : Prop := ∀ o, p = .flash o → ∀ i < n, s.serv.byte? (o + i) = none

/-- Bytes stand at a place of a thread, and every other byte of its window, of the tiers and of the cores' bench memories reads as before. -/
structure Stored (s t : State) (th : Thread) (p : Place) (bs : List Byte) : Prop where
  there : t.placeRead th p bs.length = bs
  rest : ∀ q, Clear p bs.length q → t.placeRead th q 1 = s.placeRead th q 1
  bench : ∀ c a, (∀ o g, p = .win o → s.gangOf? th = some g → c = g.core → a < g.allotAt + o ∨ g.allotAt + o + bs.length ≤ a) →
    Mem.get 0 (t.core c).bench a = Mem.get 0 (s.core c).bench a

/-- Every byte of the tiers and of the bench memories is as before. -/
def BytesSame (s t : State) : Prop :=
  t.tiers.hbm = s.tiers.hbm ∧ t.tiers.flash = s.tiers.flash ∧ t.tiers.pinned = s.tiers.pinned ∧ t.tiers.priv = s.tiers.priv ∧
    ∀ c, (t.core c).bench = (s.core c).bench

/-- A job stops with a status, or with DEADLINE_EXPIRED where its deadline has come: it waits for its started operations, or has closed, and its threads are gone
(06 R216; 08 R258). -/
def Stops (t : State) (j : Nat) (st : Status) : Prop :=
  (∃ x, t.job? j = some x ∧ (x.ending = some (.status st) ∨ (x.ending = some (.status .deadlineExpired) ∧ ∃ d, x.deadline = some d ∧ d ≤ t.tick))) ∨ (t.job? j = none ∧ ∀ n th, t.thread? n = some th → th.job ≠ j)

/-! ## Commands that wait. -/

/-- A command of the item families goes on: as `Runs`, and no earlier ITEMS_FORMAT holds it back (13 R433). -/
def RunsItem (s : State) (id op : Nat) (c : Cmd) : Prop := s.actingItem id op = some c ∧ c.ident = id ∧ s.late c = false

/-- A command goes on waiting, its own record as said: no other command and nothing else of the host's state has changed, and no other part of the state than those
listed. -/
structure Waits (ks : List Part) (s t : State) (id : Nat) (c : Cmd) : Prop where
  there : t.cmd? id = some c
  cmds : ∀ j, j ≠ id → t.cmd? j = s.cmd? j
  host : t.host = { s.host with cmds := t.host.cmds }
  frame : Frame (.host :: ks) s t

/-- A command has failed with a status before it changed anything. -/
def Failed (s t : State) (id : Nat) (c : Cmd) (st : Status) : Prop := Replied s t id c (c.reply st 0 []) ∧ HostSame s t ∧ Frame [.host, .media] s t

end Sys2Proof
end

