-- ==== Sys2Proof/WellFormed.lean ====
section
/-! DEFINITION. Which commands are well formed: operands whose sizes and ranges the manual fixes beside their types. A command that is not well formed is nothing the block is
sent; exec gives it a next state all the same. -/

namespace Sys2Proof

/-- A page's or wordline's data for every plane of a mask (01 R12, R18, R20). -/
def planesOk (mask : BitVec 4) (data : List (List Byte)) (n : Nat) : Bool :=
  data.length = 4 && (List.range 4).all (fun p => !mask.getLsbD p || (data.getD p []).length = n)

/-- Well-formedness of a command: frame data (01 R12), readings (15 R504), flits, packets and digests (11 R345, R354, R360, R366), regions (14 R467), and lists without a
repeat. -/
def Instr.wf : Instr → Bool
  | .temperatureSample rs => rs.length = 32
  | .pushWrite _ _ data => 1 ≤ data.bytes.length
  | .read _ bad _ => decide bad.Nodup
  | .eventsRead _ lost => decide lost.Nodup
  | .dataOut _ _ col len => col + len ≤ 18432
  | .programSlc _ mask _ data _ => planesOk mask data 18432
  | .programQlc _ mask _ data _ => planesOk mask data 73728
  | .loadQuery _ _ wide data => data.length = if wide then 64 else 32
  | .loadChain _ es => 1 ≤ es.length && es.length ≤ 32
  | .scan _ _ allow => allow.all (fun m => m.length = 64)
  | .dieSetFeature _ _ data => data.length = 16
  | .senseComplete _ flips => flips.all (fun f => f.2 < 8 * 18432)
  | .indexMerge p => p.leaves.all (fun l => decide l.Nodup)
  | .flitReceive _ f => f.payload.length = f.fbytes.toNat && f.fbytes.toNat ≤ 1008
  | .presence _ _ d c w => d.length = 32 && c.length = 32 && w < 2 ^ 64
  | .clHeader _ _ d p => d.length = 32 && p.len < 2 ^ 32 && p.root < 128
  | .rwWrite _ _ _ off data => data.length ≤ 16096 && off < 2 ^ 56
  | .rwRead _ _ _ off n => off + n ≤ 2 ^ 56
  | .rwResp _ _ _ _ _ data => data.length ≤ 16096
  | .planeScrub k region _ _ _ => region < k.regions
  | .calibration _ bs => decide (bs.map (·.1)).Nodup
  | .powerGood _ _ _ | .powerLoss _ | .readinessSet _ | .operatingTimeSave | .idleTimerExpiry | .hibernateEntry | .wake _ | .powerCapControl _
  | .thermalThrottle _ _ | .thermalHardStop _ _ _ | .watchdogExpired _ _ | .moduleReset _ _ | .fuseBlow | .portReset _ _ | .qsfpCageChange _ _ | .adminEn _
  | .cmdTail _ _ _ | .replyHead _ _ _ | .commandFetch _ | .replyWrite _ _ | .msixSignal _ _ | .xrdy | .dataDone _ | .dataDoneWaitEnd _ | .hbKick _ | .hbControl _
  | .heartbeatMissed | .stopworkHalt _ | .stopworkAbort _ | .stopworkAbortHibernate _ | .stopworkRelease _ | .commandDeadlineExpired _ | .errSummaryClear _
  | .pcset _ _ | .ways _ _ | .regPolicy _ | .powerCap _ | .planeControl _ | .bucketConfig _ | .integrityPolicy _ | .mediaPolicy _ | .registerWrite _ _
  | .smbusRead _ _ | .smbusWriteWord _ _ _ _ | .identify _ | .getLog _ | .getFeature _ | .setFeature _ | .ringCreate _ | .ringDelete _ | .ringRestart _
  | .powerSet _ | .takeover _ | .volumeCreate _ | .volumeDelete _ | .write _ | .deallocate _ | .flush _ | .itemPut _ _ | .itemDelete _ | .attrSet _ | .itemGet _ _
  | .cacheGet _ | .cacheDrop _ | .itemsFormat _ | .search _ _ | .searchSpan _ _ | .bitmapLoad _ | .bitmapBuild _ | .bitmapFree _ | .sessionOpen _ | .ask _ _
  | .sessionClose _ | .modelLoad _ | .moduleLoad _ | .run _ | .grantMake _ | .grantFree _ | .modelUnload _ | .moduleUnload _ | .adaptStart _ | .adaptStatus _
  | .adaptCommit _ | .spanJoin _ | .spanLeave _ | .spanStatus _ | .fwDownload _ | .fwCommit _ | .attest _ | .ownerLock _ | .eventsClear _ | .health _
  | .readPage _ _ _ _ | .readNext _ | .readChain _ _ | .erase _ _ _ _ _ | .suspend _ | .resume _ | .resultOut _ | .readStatus _ | .dieGetFeature _ _ | .readId _
  | .reset _ | .dieReservedOpcode _ _ | .dieProgramComplete _ _ | .eraseComplete _ _ | .suspendStart _ | .suspended _ | .scanStepCompare _ | .resetComplete _
  | .veneerTarget | .fold _ _ | .mergeStripe _ _ | .journalProgram | .checkpoint | .relocation _ _ | .ldpcDecode _ _ _ _ _ | .suspendForRead _
  | .resumeAfterReads _ | .patrol _ _ _ _ _ | .rebuild _ _ _ _ | .mmRun _ | .mmLoad _ | .mmEmit _ | .mmCycle0 _ _ | .mmLastCycle _ _ _ | .shadowLoadComplete _ _
  | .emissionComplete _ _ | .tileQueueRemove _ | .add _ | .mul _ | .fma _ | .cmp _ | .sel _ | .min _ | .max _ | .compress _ | .expand _ | .vxComplete _
  | .slSelect _ | .slPassEnd _ | .mvMove _ | .mvLend _ | .mvDrop _ | .mvPrefetch _ | .mvComplete _ | .tierFetchComplete _ _ | .tierDeadline _
  | .prefetchStreamRelease _ _ | .clAllreduce _ | .clAllgather _ | .clBroadcast _ | .clReduceScatter _ | .clTopk _ | .clBarrier _ | .clTimeout _ | .syFence _
  | .syWait _ | .sySemAcq _ | .semaphoreGrant _ | .sySemRel _ | .syBarrier _ | .barrierComplete _ _ _ | .syUnbind _ | .cfBr _ | .cfBrc _ | .cfLoop _ | .cfCall _
  | .cfRet _ | .cfEnd _ | .cfTrap _ | .scAdd _ | .scSub _ | .scMul _ | .scDivu _ | .scRemu _ | .scAnd _ | .scOr _ | .scXor _ | .scShl _ | .scShr _ | .scSar _
  | .scMin _ | .scMax _ | .scSlt _ | .scMovi _ | .scLd _ | .scSt _ | .scAtom _ | .jobAdmission _ _ | .preemption _ _ | .contextSwitch _ _ _ | .stepCompose _ _ _
  | .shareWindow _ | .commitGroup | .reclaim | .dieScanIssue _ | .cacheBuild _ _ | .askProgressUpdate _ | .adaptStep _ | .portAligned _ _ | .portDown _ _
  | .hello _ _ _ _ _ _ | .nak _ _ | .presenceSend | .memberLost _ | .spanCtl _ | .clGo _ | .clRefuse _ _ | .clData _ _ _ | .clAbort _ _ _ | .ack _ _ _
  | .service _ _ _ _ _ | .stop _ _ | .streamRetransmit _ | .bucketLeak | .shadowCompare _ _ | .arbitration _ _ _ | .strikeExpiry _ _ | .tailImage
  | .instanceRestart _ | .pcieLinkUp _ _ _ _ _ | .smbusBusRelease | .entropyHealthTestFailure _ | .mediaStateUpdate => true

end Sys2Proof
end

