-- ==== Sys2Proof/Certificates/Slice0/Obligations.lean ====
section
/-! DEFINITION. What the model claims of the block, one definition for each obligation. -/

open Sys2Proof Sys2Proof.Machine

/-! ## Flash dies (01). -/

/-- Reads, chain walks and READ_NEXT on a die that takes them start the senses of R25, R26 and R28, due one tR later; the end of a page read puts
the sensed pages into the page registers. No other die and no cell changes. -/
def Obligations.DieReadsSense : Prop :=
  (∀ (s : State) (d : DieNo) (mask : BitVec 4) (rows : Rows) (pf : Bool) (m : BMode),
    s.diesOn = true → (s.die d).takes .other = true → (s.die d).addressOk s.freeCtr mask rows = true →
    (∀ r ∈ rowsOf mask rows, (s.die d).modeOf s.freeCtr r = m) →
    ∃ t, exec (.readPage d mask rows pf) s = .next t ∧
      t.die d = { s.die d with sense := some ⟨.page, rowsOf mask rows, m, false, s.now + senseTime m⟩, preOn := pf, preReady := false, walk := none, answer := .ok } ∧
      OtherDies s t d ∧ Frame [.dies, .freeCtr] s t) ∧
  (∀ (s : State) (d : DieNo) (r : Row) (rs cur : List Row),
    s.diesOn = true → (s.die d).takes .readNext = true → (s.die d).sense = none → (s.die d).preReady = true → (s.die d).walk = none →
    (s.die d).curRows = r :: rs → nextRows ((s.die d).modeOf s.freeCtr r) (r :: rs) = some cur → (cur.map Row.plane).Nodup →
    ∃ t, exec (.readNext d) s = .next t ∧
      (∀ q ∈ cur, Tab.find (t.die d).regs q.plane.val = Tab.find (s.die d).pre q.plane.val ∧ Tab.find (t.die d).pre q.plane.val = Tab.find (s.die d).regs q.plane.val) ∧
      (t.die d).curRows = cur ∧ (t.die d).code = .ok ∧ (t.die d).cells = (s.die d).cells ∧
      (t.die d).sense = (nextRows ((s.die d).modeOf s.freeCtr r) cur).map (fun nxt =>
        ⟨.prefetched, nxt, (s.die d).modeOf s.freeCtr r, true, s.now + senseTime ((s.die d).modeOf s.freeCtr r)⟩) ∧
      OtherDies s t d ∧ Frame [.dies, .freeCtr] s t) ∧
  (∀ (s : State) (d : DieNo) (m : BMode),
    s.diesOn = true → (s.die d).takes .other = true → (s.die d).chain ≠ [] →
    ∃ t, exec (.readChain d m) s = .next t ∧
      t.die d = { s.die d with sense := some ⟨.chain, chainRows (s.die d).chain (chainStep (s.die d).chain 0), m, false, s.now + senseTime m⟩,
                               walk := some ((chainStep (s.die d).chain 0).length, m), preOn := false, preReady := false, answer := .ok } ∧
      OtherDies s t d ∧ Frame [.dies, .freeCtr] s t) ∧
  (∀ (s : State) (d : DieNo) (flips : List (PlaneNo × Nat)) (rows : List Row) (m : BMode) (due : Nat),
    (s.die d).sense = some ⟨.page, rows, m, false, due⟩ → (s.die d).preOn = false →
    ∃ t, exec (.senseComplete d flips) s = .next t ∧
      t.die d = { s.die d with sense := none, regs := (s.die d).sensedInto s.freeCtr ⟨.page, rows, m, false, due⟩ flips (s.die d).regs,
                               curRows := rows, preReady := false, code := .ok, answer := .ok } ∧
      t.now = max s.now due ∧ OtherDies s t d ∧ Frame [.dies, .freeCtr, .media, .now] s t)

/-- Programs and erases that pass the die's checks start: the operation stands in the die, a program first sets its units' program-started flags and adds
its pages to FLASH_BYTES, and no cell and no block's mode changes yet (R13, R20 to R22; 15 R502). A program that belongs to the module's own work holds the pages
`State.plan` gives, and that work's tables advance as it says; one of no purpose holds the frame's data. A running program or erase ends with the outcome of R23: FAIL and CODE, the programmed bytes in the cells when the verify passes, an erased block
reading all ones in its new mode. Suspension (R29, R31): SUSPEND starts the 20 µs latency once run time has reached the minimum and waits for it before that; when the latency
ends SUSP is set and the suspend counts; RESUME continues at once and adds 10 µs. -/
def Obligations.DieProgramsAndErases : Prop :=
  (∀ (s u : State) (d : DieNo) (mask : BitVec 4) (rows : Rows) (data pages : List (List Byte)) (why : ProgPurpose),
    s.diesOn = true → (s.die d).takes .writes = true → (s.die d).programRefusal s.freeCtr .slc mask rows = none →
    s.plan d .slc (rowsOf mask rows) data why = some (pages, u) → (why = .none → pages = data ∧ u = s) ∧
    ∃ t, exec (.programSlc d mask rows data why) s = .next t ∧
      (t.die d).op = some ⟨.slc, rowsOf mask rows, pages, why, .none, 110 * usUnits, 0, s.now, 0, .running⟩ ∧
      (∀ r ∈ rowsOf mask rows, unitKey r.key r.page ∈ (t.die d).started) ∧
      (t.die d).cells = (s.die d).cells ∧ (t.die d).qlc = (s.die d).qlc ∧ (t.die d).fail = (s.die d).fail ∧ (t.die d).code = (s.die d).code ∧
      t.health = { s.health with flashBytes := s.health.flashBytes + 16384 * (planesOf mask).length } ∧ t.media = { u.media with wear := t.media.wear } ∧
      OtherDies s t d ∧ Frame [.dies, .freeCtr, .health, .media] u t ∧ Frame [.dies, .freeCtr, .health, .media, .items, .sec] s t) ∧
  (∀ (s u : State) (d : DieNo) (mask : BitVec 4) (rows : Rows) (data pages : List (List Byte)) (why : ProgPurpose),
    s.diesOn = true → (s.die d).takes .writes = true → (s.die d).programRefusal s.freeCtr .qlc mask rows = none →
    s.plan d .qlc (rowsOf mask rows) data why = some (pages, u) → (why = .none → pages = data ∧ u = s) ∧
    ∃ t, exec (.programQlc d mask rows data why) s = .next t ∧
      (t.die d).op = some ⟨.qlc, rowsOf mask rows, pages, why, .none, 2200 * usUnits, 0, s.now, 0, .running⟩ ∧
      (∀ r ∈ rowsOf mask rows, unitKey r.key (r.page / 4) ∈ (t.die d).started) ∧
      (t.die d).cells = (s.die d).cells ∧ (t.die d).qlc = (s.die d).qlc ∧ (t.die d).fail = (s.die d).fail ∧ (t.die d).code = (s.die d).code ∧
      t.health = { s.health with flashBytes := s.health.flashBytes + 16384 * ((planesOf mask).length * 4) } ∧ t.media = { u.media with wear := t.media.wear } ∧
      OtherDies s t d ∧ Frame [.dies, .freeCtr, .health, .media] u t ∧ Frame [.dies, .freeCtr, .health, .media, .items, .sec] s t) ∧
  (∀ (s : State) (d : DieNo) (mask : BitVec 4) (rows : Rows) (m : BMode) (why : ErasePurpose),
    s.diesOn = true → (s.die d).takes .writes = true → (s.die d).addressOk s.freeCtr mask rows = true → s.eraseDue d (rowsOf mask rows) why = true →
    ∃ t, exec (.erase d mask rows m why) s = .next t ∧
      t.die d = { s.die d with op := some ⟨.erase m, rowsOf mask rows, [], .none, why, 4000 * usUnits, 0, s.now, 0, .running⟩, answer := .ok } ∧
      OtherDies s t d ∧ Frame [.dies, .freeCtr] s t) ∧
  (∀ (s : State) (d : DieNo) (o : DieOp) (ok : Bool),
    (s.die d).op = some o → o.st = .running → (o.kind = .slc ∨ o.kind = .qlc) →
    ∃ t, exec (.dieProgramComplete d ok) s = .next t ∧ t.now = max s.now (o.since + (o.needed - o.ran)) ∧
      (t.die d).op = none ∧ (t.die d).fail = !ok ∧ (t.die d).code = (if ok then .ok else .programFail) ∧ (t.die d).qlc = (s.die d).qlc ∧
      (t.die d).cells = (if ok then o.rows.foldl (fun c r => programCells c r (o.data.getD r.plane.val [])) (s.die d).cells else (s.die d).cells) ∧
      OtherDies s t d ∧ Frame [.dies, .freeCtr, .now, .media, .items, .health, .events, .sec, .smbus] s t) ∧
  (∀ (s : State) (d : DieNo) (o : DieOp) (m : BMode) (ok : Bool),
    (s.die d).op = some o → o.st = .running → o.kind = .erase m →
    ∃ t, exec (.eraseComplete d ok) s = .next t ∧ t.now = max s.now (o.since + (o.needed - o.ran)) ∧
      (t.die d).op = none ∧ (t.die d).fail = !ok ∧ (t.die d).code = (if ok then .ok else .eraseFail) ∧
      (ok = true → ∀ r ∈ o.rows, (r.key ∈ (t.die d).qlc ↔ m = .qlc) ∧ (∀ u ∈ (t.die d).started, u / 1024 ≠ r.key) ∧
        ∀ i < 4096 * pageBytes, Mem.get 0xFF (t.die d).cells (pageBase r.key 0 + i) = 0xFF) ∧
      (ok = false → (t.die d).cells = (s.die d).cells) ∧
      OtherDies s t d ∧ Frame [.dies, .now, .media, .health, .events, .sec, .smbus] s t) ∧
  (∀ (s : State) (d : DieNo) (o : DieOp), s.diesOn = true → (s.die d).takes .suspend = true → (s.die d).op = some o → o.st = .running →
    o.used < maxSuspends o.kind →
    ∃ t, exec (.suspend d) s = .next t ∧
      t.die d = { s.die d with code := .ok, answer := .ok, op := some (
        if minRun o.kind ≤ s.now - o.since then { o with ran := o.ran + (s.now - o.since), st := .latency (s.now + 20 * usUnits) false } else { o with st := .pending }) } ∧
      OtherDies s t d ∧ Frame [.dies, .freeCtr] s t) ∧
  (∀ (s : State) (d : DieNo) (o : DieOp), (s.die d).op = some o → o.st = .pending → minRun o.kind < o.needed - o.ran → s.now ≤ o.since + minRun o.kind →
    ∃ t, exec (.suspendStart d) s = .next t ∧ t.now = o.since + minRun o.kind ∧
      t.die d = { s.die d with op := some { o with ran := o.ran + minRun o.kind, st := .latency (o.since + minRun o.kind + 20 * usUnits) true } } ∧
      OtherDies s t d ∧ Frame [.dies, .now] s t) ∧
  (∀ (s : State) (d : DieNo) (o : DieOp) (due : Nat) (pend : Bool), (s.die d).op = some o → o.st = .latency due pend →
    ∃ t, exec (.suspended d) s = .next t ∧ t.now = max s.now due ∧
      t.die d = { s.die d with op := some { o with st := .suspended, used := o.used + 1 } } ∧ (t.die d).susp = true ∧
      OtherDies s t d ∧ Frame [.dies, .now] s t) ∧
  (∀ (s : State) (d : DieNo) (o : DieOp), s.diesOn = true → (s.die d).takes .other = true → (s.die d).op = some o → o.st = .suspended →
    ∃ t, exec (.resume d) s = .next t ∧
      t.die d = { s.die d with code := .ok, answer := .ok, op := some { o with st := .running, since := s.now, needed := o.needed + 10 * usUnits } } ∧
      OtherDies s t d ∧ Frame [.dies, .freeCtr] s t)

/-- The comparator's commands: LOAD_QUERY fills a slot, LOAD_CHAIN replaces the branch cache up to its end, SCAN starts the walk's first step in pSLC, the
comparator's last step makes the result block stand, and RESULT_OUT sends it (R27, R39 to R45). -/
def Obligations.DieComparator : Prop :=
  (∀ (s : State) (d : DieNo) (slot : Fin 8) (wide : Bool) (data : List Byte), s.diesOn = true → (s.die d).takes .other = true →
    ∃ t, exec (.loadQuery d slot wide data) s = .next t ∧
      (t.die d).queries = Tab.put (s.die d).queries slot.val ⟨wide, BitVec.ofNat 512 (leNat (data.take (if wide then 64 else 32)))⟩ ∧
      t.die d = { s.die d with queries := (t.die d).queries, code := .ok, answer := .ok } ∧ OtherDies s t d ∧ Frame [.dies, .freeCtr] s t) ∧
  (∀ (s : State) (d : DieNo) (entries : List W32), s.diesOn = true → (s.die d).takes .other = true →
    (∀ e ∈ entries, (s.die d).chainEntryOk s.freeCtr e = true) →
    ∃ t, exec (.loadChain d entries) s = .next t ∧
      t.die d = { s.die d with chain := chainEnd (entries.take 32), walk := (t.die d).walk, preReady := (t.die d).preReady, code := .ok, answer := .ok } ∧
      ((s.die d).walk = none → (t.die d).walk = none ∧ (t.die d).preReady = (s.die d).preReady) ∧ OtherDies s t d ∧ Frame [.dies, .freeCtr] s t) ∧
  (∀ (s : State) (d : DieNo) (mask : BitVec 8) (allow : List (List Byte)) (wide : Bool), s.diesOn = true → (s.die d).takes .other = true → mask ≠ 0#8 →
    (∀ i < 8, mask.getLsbD i = true → Tab.has (s.die d).queries i = true) → (∀ q ∈ (s.die d).selected mask, q.2.wide = wide) → (s.die d).chain ≠ [] →
    ∃ t, exec (.scan d mask allow) s = .next t ∧
      (t.die d).sense = some ⟨.scan, chainRows (s.die d).chain (chainStep (s.die d).chain 0), .slc, false, s.now + senseTime .slc⟩ ∧
      (t.die d).scanRun = some ⟨mask, allow, (chainStep (s.die d).chain 0).length, [], false, false, 0, 0, 0, []⟩ ∧
      (t.die d).result = [] ∧ (t.die d).cells = (s.die d).cells ∧ (t.die d).queries = (s.die d).queries ∧ (t.die d).chain = (s.die d).chain ∧
      (t.die d).regs = (s.die d).regs ∧
      (∀ p : PlaneNo, (∀ e ∈ (s.die d).chain, (chainRow e).plane ≠ p) → Tab.find (t.die d).pre p.val = Tab.find (s.die d).pre p.val) ∧ OtherDies s t d ∧ Frame [.dies, .freeCtr] s t) ∧
  (∀ (s : State) (d : DieNo) (r x : ScanRun), (s.die d).scanRun = some r → r.ready = true → (s.die d).sense = none →
    x = r.step.foldl (fun y i => y.page ((s.die d).selected r.mask) (wideOf ((s.die d).selected r.mask))
      ((s.die d).modeOf s.freeCtr (chainRow ((s.die d).chain.getD i 0)) ≠ .slc) i (Tab.at (s.die d).regs (chainRow ((s.die d).chain.getD i 0)).plane.val [])) r →
    ∃ t, exec (.scanStepCompare d) s = .next t ∧
      t.die d = { s.die d with scanRun := none, result := x.block, code := (if x.mismatch then .modeMismatch else .ok), answer := (if x.mismatch then .modeMismatch else .ok) } ∧
      OtherDies s t d ∧ Frame [.dies] s t) ∧
  (∀ (s : State) (d : DieNo), s.diesOn = true → (s.die d).takes .other = true → (s.die d).result ≠ [] →
    ∃ t, exec (.resultOut d) s = .next t ∧ t.die d = { s.die d with out := (s.die d).result, answer := .ok } ∧ OtherDies s t d ∧ Frame [.dies, .freeCtr] s t)

/-- Transfers, features, identity, status and RESET of a die (R12 to R18, R36): what each sends or sets, and that CODE keeps its value over every transfer. -/
def Obligations.DieTransfers : Prop :=
  (∀ (s : State) (d : DieNo) (p : PlaneNo) (col len : Nat) (m : Mem), s.diesOn = true → (s.die d).takes .dataOut = true →
    Tab.find (s.die d).regs p.val = some m → col + len ≤ 18432 →
    ∃ t, exec (.dataOut d p col len) s = .next t ∧ t.die d = { s.die d with out := Mem.read 0xFF m col len, answer := .ok } ∧
      OtherDies s t d ∧ Frame [.dies, .freeCtr] s t) ∧
  (∀ (s : State) (d : DieNo), s.diesOn = true →
    ∃ t, exec (.readStatus d) s = .next t ∧ t.die d = { s.die d with out := leBytes 2 (s.die d).status.toNat } ∧ (t.die d).status = (s.die d).status ∧
      OtherDies s t d ∧ Frame [.dies, .freeCtr] s t) ∧
  (∀ (s : State) (d : DieNo) (a : Byte), s.diesOn = true → (s.die d).takes .getFeature = true →
    ∃ t, exec (.dieGetFeature d a) s = .next t ∧ t.die d = { s.die d with temp := (t.die d).temp, out := (t.die d).out, answer := .ok } ∧
      (t.die d).out.length = 16 ∧ (∀ v, (t.die d).feature a.toNat = some v → (t.die d).out = v) ∧
      (a ≠ 3#8 → (t.die d).feature a.toNat = (s.die d).feature a.toNat) ∧ OtherDies s t d ∧ Frame [.dies, .freeCtr] s t) ∧
  (∀ (s : State) (d : DieNo) (p : PlaneNo) (data : List Byte), s.diesOn = true → (s.die d).takes .other = true →
    ∃ t, exec (.dieSetFeature d (BitVec.ofNat 8 (0x10 + p.val)) data) s = .next t ∧
      Tab.find (t.die d).qlcOffs p.val = some (data.take 15) ∧ (∀ q : PlaneNo, q ≠ p → Tab.find (t.die d).qlcOffs q.val = Tab.find (s.die d).qlcOffs q.val) ∧
      t.die d = { s.die d with qlcOffs := (t.die d).qlcOffs, code := .ok, answer := .ok } ∧ t.media = { s.media with offsetsOn := t.media.offsetsOn } ∧
      OtherDies s t d ∧ Frame [.dies, .freeCtr, .media] s t) ∧
  (∀ (s : State) (d : DieNo), s.diesOn = true → (s.die d).takes .other = true →
    ∃ t, exec (.readId d) s = .next t ∧ t.die d = { s.die d with out := [0x53, 0x58, 0x41, 0x04, 0x40, 0x08, 0x0E, 0x01], answer := .ok } ∧
      OtherDies s t d ∧ Frame [.dies, .freeCtr] s t) ∧
  (∀ (s : State) (d : DieNo), s.diesOn = true →
    ∃ t, exec (.reset d) s = .next t ∧
      ((∀ o, (s.die d).op = some o → o.st ≠ .suspended) → (t.die d).resetDue = some (s.now + (if (s.die d).op.isSome then 500 else 10) * usUnits)) ∧
      (t.die d).regs = [] ∧ (t.die d).pre = [] ∧ (t.die d).chain = [] ∧ (t.die d).queries = [] ∧ (t.die d).result = [] ∧ (t.die d).op = none ∧
      (t.die d).qlcOffs = [] ∧ (t.die d).slcOffs = [] ∧ (t.die d).code = .ok ∧ (t.die d).cells = (s.die d).cells ∧ t.media = { s.media with offsetsOn := t.media.offsetsOn } ∧
      OtherDies s t d ∧ Frame [.dies, .freeCtr, .media] s t) ∧
  (∀ (s : State) (d : DieNo) (due : Nat), (s.die d).resetDue = some due →
    ∃ t, exec (.resetComplete d) s = .next t ∧ t.die d = { s.die d with resetDue := none } ∧ t.now = max s.now due ∧ OtherDies s t d ∧ Frame [.dies, .now] s t) ∧
  (∀ (s : State) (d : DieNo) (op : Byte), s.diesOn = true → (s.die d).takes .other = true →
    op.toNat ∉ [0x01, 0x02, 0x03, 0x04, 0x10, 0x11, 0x20, 0x30, 0x31, 0x40, 0x41, 0x42, 0x43, 0x70, 0x71, 0x72, 0x73, 0xFF] →
    ∃ t, exec (.dieReservedOpcode d op) s = .next t ∧ t.die d = { s.die d with code := .opcodeInvalid, answer := .opcodeInvalid } ∧
      OtherDies s t d ∧ Frame [.dies, .freeCtr] s t)

/-- The program-order guard (R22): in pSLC the unit is the page, in QLC the wordline; a target whose program-started flag is set, or whose unit before it is not
started, refuses the whole program with PROGRAM_ORDER, and nothing but CODE changes in the die; and the guard refuses for no other reason. -/
def Obligations.ProgramOrderGuard : Prop :=
  (∀ (s : State) (d : DieNo) (mask : BitVec 4) (rows : Rows) (data : List (List Byte)) (why : ProgPurpose) (q : Row),
    s.diesOn = true → (s.die d).takes .writes = true → (s.die d).addressOk s.freeCtr mask rows = true →
    (s.die d).undefModes = [] → (∀ r ∈ rowsOf mask rows, r.key ∉ (s.die d).qlc) → q ∈ rowsOf mask rows →
    (unitKey q.key q.page ∈ (s.die d).started ∨ (q.page ≠ 0 ∧ unitKey q.key (q.page - 1) ∉ (s.die d).started)) →
    s.plan d .slc (rowsOf mask rows) data why ≠ none →
    ∃ t, exec (.programSlc d mask rows data why) s = .next t ∧ t.die d = { s.die d with code := .programOrder, answer := .programOrder } ∧ OtherDies s t d) ∧
  (∀ (s : State) (d : DieNo) (mask : BitVec 4) (rows : Rows) (data : List (List Byte)) (why : ProgPurpose) (q : Row),
    s.diesOn = true → (s.die d).takes .writes = true → (s.die d).addressOk s.freeCtr mask rows = true →
    (s.die d).undefModes = [] → (∀ r ∈ rowsOf mask rows, r.key ∈ (s.die d).qlc ∧ r.page % 4 = 0) → q ∈ rowsOf mask rows →
    (unitKey q.key (q.page / 4) ∈ (s.die d).started ∨ (q.page / 4 ≠ 0 ∧ unitKey q.key (q.page / 4 - 1) ∉ (s.die d).started)) →
    s.plan d .qlc (rowsOf mask rows) data why ≠ none →
    ∃ t, exec (.programQlc d mask rows data why) s = .next t ∧ t.die d = { s.die d with code := .programOrder, answer := .programOrder } ∧ OtherDies s t d) ∧
  (∀ (x : Die) (ctr : Nat) (m : BMode) (mask : BitVec 4) (rows : Rows), x.undefModes = [] → x.programRefusal ctr m mask rows = some .programOrder →
    ∃ q ∈ rowsOf mask rows, unitKey q.key (unitNo m q.page) ∈ x.started ∨ (unitNo m q.page ≠ 0 ∧ unitKey q.key (unitNo m q.page - 1) ∉ x.started))

/-- R43: each selected slot's list takes the compared sketch and keeps the 16 of highest agreement of the scan, in descending agreement, equals in scan order, so that
a later equal of the sixteenth does not displace it; with fewer than 16 compared the rest is empty. -/
def Obligations.ComparatorKeepsBest : Prop :=
  (∀ (r : ScanRun) (qs : Tab QSlot) (w chain slot : Nat) (x : BitVec 512), (qs.map Prod.fst).Nodup →
    (∀ q ∈ qs, Tab.at (r.compareOne qs w chain slot x).lists q.1 [] = keepBest (Tab.at r.lists q.1 []) ⟨agreement w x q.2.bits, slot, chain⟩) ∧
    (∀ k, k ∉ qs.map Prod.fst → Tab.at (r.compareOne qs w chain slot x).lists k [] = Tab.at r.lists k [])) ∧
  (∀ ks : List Kept, ks.foldl keepBest [] = (sortBy (fun a b => b.agree < a.agree) ks).take 16 ∧
    (ks.foldl keepBest []).Pairwise (fun a b => b.agree ≤ a.agree) ∧ (ks.foldl keepBest []).length = min 16 ks.length ∧
    (sortBy (fun a b => b.agree < a.agree) ks).Perm ks ∧
    (∀ n, (sortBy (fun a b => b.agree < a.agree) ks).filter (fun k => k.agree = n) = ks.filter (fun k => k.agree = n)))

/-! ## Power, starts and the Escapement (16, 17, 19). -/

/-- Losses of power and starts: a loss leaves only what is durable (19 R588, R593); POWER_GOOD restores the operating time, counts a power cycle and starts
with the map and the substitutes that the checkpoint and the journal give (02 R69);
MODULE_RESET, a watchdog and a failed entropy test reset the module, whose dies keep their cells (16 R524 to R532, 17 R550). -/
def Obligations.StopsAndStarts : Prop :=
  (∀ (s : State) (landed : List (Nat × Nat)), s.power.good = true →
    ∃ t, exec (.powerLoss landed) s = .next t ∧ t.power.good = false ∧ t.power.ready = 0#6 ∧ t.compute = Compute.reset ∧ t.steps = Steps.reset ∧
      t.tiers = Tiers.reset ∧ t.regul = Regul.reset ∧ t.host.cmds = [] ∧ t.host.portA = PortState.reset ∧ t.host.portB = PortState.reset ∧
      t.host.owner = s.power.cfg.ownerPort ∧ t.items.items = s.items.items ∧ t.media.map = s.media.map ∧ t.media.volumes = s.media.volumes ∧
      (∀ d : DieNo, (t.die d).cells = (s.die d).cells ∧ (t.die d).regs = [] ∧ (t.die d).op = none) ∧ t.power.opTime = s.opTime ∧
      Frame [.dies, .media, .compute, .steps, .tiers, .items, .serv, .span, .host, .regul, .integ, .power, .sec, .smbus] s t) ∧
  (∀ (s : State) (x : Fin 32) (r : W16) (landed : List (Nat × Nat)), s.power.good = true → x.val < 4 → 500 ≤ r.toInt →
    ∃ t, exec (.thermalHardStop x r landed) s = .next t ∧ t.power.good = false ∧ t.power.hardStop = true ∧ t.compute = Compute.reset ∧ t.host.cmds = [] ∧
      (Tab.at t.health.sensors x.val Sensor.reset).current = r ∧
      Frame [.dies, .media, .compute, .steps, .tiers, .items, .serv, .span, .host, .regul, .integ, .power, .sec, .smbus, .health] s t) ∧
  (∀ (s : State) (slot : BitVec 4) (alt : Bool) (o : StartOutcome), s.power.good = false →
    ∃ t, exec (.powerGood slot alt o) s = .next t ∧ t.power.good = true ∧ t.power.st = .a0 ∧ t.power.ready = 0#6 ∧ t.power.trySquareDone = true ∧
      t.power.cycles = min (s.power.cycles + 1) (2 ^ 24 - 1) ∧ s.power.savedTime < t.power.opTime ∧ t.power.slotId = slot ∧ t.power.smbAlt = alt ∧
      t.power.powerCap = 0x006903E8#64 ∧ t.events.unstable = true ∧ t.dies = s.dies ∧ t.power.inputW = 0 ∧
      t.media.map = (s.media.replayed o.checkpointOk).map ∧ t.media.subst = (s.media.replayed o.checkpointOk).subst ∧ t.media.volumes = s.media.volumes ∧
      t.media.veneer = s.media.veneer ∧ Frame [.media, .span, .host, .integ, .events, .health, .power, .sec, .smbus] s t) ∧
  (∀ (s : State) (p : Port) (o : StartOutcome), s.power.good = true → s.isOwner p = true →
    ∃ t, exec (.moduleReset ⟨p, .full, 0xA5#64⟩ o) s = .next t ∧ t.power.good = true ∧ t.power.st = .a0 ∧ t.power.ready = 0#6 ∧ t.compute = Compute.reset ∧
      t.host.cmds = [] ∧ t.items.items = s.items.items ∧ (∀ d : DieNo, (t.die d).cells = (s.die d).cells) ∧ t.power.cycles = s.power.cycles ∧
      t.pending = s.pending ∧ t.now = s.now) ∧
  (∀ (s : State) (o : StartOutcome), s.power.good = true → s.power.st = .a0 →
    ∃ t, exec (.watchdogExpired false o) s = .next t ∧ t.power.good = true ∧ t.power.ready = 0#6 ∧ t.compute = Compute.reset ∧ t.host.cmds = [] ∧
      (∀ d : DieNo, (t.die d).cells = (s.die d).cells) ∧ t.pending = s.pending ∧ t.now = s.now) ∧
  (∀ (s : State) (o : StartOutcome), s.power.good = true →
    ∃ t, exec (.entropyHealthTestFailure o) s = .next t ∧ t.power.ready = 0#6 ∧ t.sec.drbg = true ∧ t.sec.drbgReqs = 0 ∧ t.compute = Compute.reset ∧ t.host.cmds = [] ∧
      (∀ d : DieNo, (t.die d).cells = (s.die d).cells) ∧ t.pending = s.pending ∧ t.now = s.now)

/-- Readiness, the saved operating time, the sensors, the status copies, the tail image, the security fuses and the links (15 R495, R505; 16 R508, R525; 17 R555; 18 R564,
R570). -/
def Obligations.EscapementWork : Prop :=
  (∀ s : State, s.power.good = true → s.power.noBoot = false → s.power.st = .a0 →
    ∃ t, exec (.readinessSet .admin) s = .next t ∧ t.power = { s.power with ready := s.power.ready ||| 1#6, bringUpFails := 0 } ∧ Frame [.power] s t) ∧
  (∀ s : State, s.power.good = true → s.power.noBoot = false → s.power.st = .a0 → s.power.adminOnly = false → s.power.ready.getLsbD 0 = true →
    (∀ p ∈ s.media.pend, p.cmd ≠ none) →
    ∃ t, exec (.readinessSet .block) s = .next t ∧ t.power = { s.power with ready := s.power.ready ||| 2#6 } ∧ t.events = { s.events with unstable := false } ∧
      Frame [.power, .events] s t) ∧
  (∀ s : State, s.power.good = true → ∃ t, exec .operatingTimeSave s = .next t ∧ t.power = { s.power with savedTime := s.opTime } ∧ Frame [.power] s t) ∧
  (∀ (s : State) (rs : List W16) (k : Nat) (h : k < rs.length), s.power.good = true → k < 32 →
    ∃ t, exec (.temperatureSample rs) s = .next t ∧ (Tab.at t.health.sensors k Sensor.reset) = (Tab.at s.health.sensors k Sensor.reset).take s.opTime rs[k] true ∧
      t.health = { s.health with sensors := t.health.sensors } ∧ Frame [.health] s t) ∧
  (∀ s : State, s.power.good = true → s.asleep = false →
    ∃ t, exec .mediaStateUpdate s = .next t ∧ t.smbus = { s.smbus with
        spareState := s.media.spareState.num, spares := s.media.spares, wearMean := s.media.wearStats.1, wearMax := s.media.wearStats.2, uncTotal := s.health.uncTotal } ∧ Frame [.smbus] s t) ∧
  (∀ s : State, s.power.good = true →
    ∃ t, exec .tailImage s = .next t ∧ t.events = { s.events with durRecs := s.events.recs, durMark := s.events.mark, durFull := s.events.logFull, durDropped := s.events.dropped } ∧
      t.health = { s.health with flashBytes := s.health.flashBytes + 16384 } ∧ Frame [.events, .health] s t) ∧
  (∀ s : State, s.power.good = true → s.power.ready.getLsbD 1 = true → s.sec.fuses ≤ 64 → s.sec.active.secVer ≤ 64 →
    ∃ t, exec .fuseBlow s = .next t ∧ t.sec.fuses = max s.sec.fuses s.sec.active.secVer ∧ t.now = max s.now (s.power.startAt + 600 * secUnits) ∧
      (s.sec.slotB.st = .verified → s.sec.slotB.secVer < t.sec.fuses → t.sec.slotB = { s.sec.slotB with st := .rolledBack }) ∧
      t.sec = { s.sec with fuses := t.sec.fuses, slotA := t.sec.slotA, slotB := t.sec.slotB } ∧ Frame [.sec, .now] s t) ∧
  (∀ (s : State) (p : Port) (sp : BitVec 3) (w : BitVec 5) (mps : BitVec 3) (x : PciConfig), s.power.good = true → s.power.noBoot = false →
    ((s.port p).linkUp = false ∨ ((s.port p).speed = sp ∧ (s.port p).width = w)) → sp ∈ [3#3, 4#3, 5#3] → w ∈ [4#5, 8#5, 16#5] → mps.toNat ≤ 2 → x.mrrs.toNat ≤ 5 →
    ∃ t, exec (.pcieLinkUp p sp w mps x) s = .next t ∧
      t.port p = { s.port p with linkUp := true, speed := sp, width := w, mps := mps, config := x, perst := false, pending := (t.port p).pending } ∧
      (∀ v, v ∈ (t.port p).pending ↔ v ∈ (s.port p).pending ∧ (t.port p).silent v = true) ∧
      t.host.msgs = s.host.msgs ++ ((s.port p).pending.filter (fun v => !(t.port p).silent v)).map (fun v => (p, v)) ∧ t.port p.other = s.port p.other ∧ Frame [.host] s t) ∧
  (∀ (s : State) (p : Port) (sp : BitVec 3) (w : BitVec 5) (mps : BitVec 3) (x : PciConfig), s.power.good = false →
    exec (.pcieLinkUp p sp w mps x) s = .next s)

/-- Power states: an idle timer's step down, a wake, and the entry to A3, which keeps HBM and pinned cache in the image (16 R512 to R518). The power cap and the thermal limits: input power above the cap steps every quarter's clock down by 100 MHz, no further than the floor the model takes (log entry 44);
a quarter's sensor at TJ_LIMIT steps its quarter down, and a flash case at 70 °C paces its group (16 R520, R521). -/
def Obligations.PowerStatesAndLimits : Prop :=
  (∀ s : State, s.power.good = true → s.noWork = true → s.power.hib = none → s.power.st = .a0 → bitsOf s.power.idle.toNat 0 32 ≠ 0 → 1 ≤ s.deepest →
    ∃ t, exec .idleTimerExpiry s = .next t ∧ t.power.st = .a1 ∧ Tab.at t.power.entries 1 0 = Tab.at s.power.entries 1 0 + 1 ∧
      t.events = s.events.add s.opTime s.power.cycles 0x1003 (sourceOf 0 0) (leBytes 1 0 ++ leBytes 1 1) ∧ Frame [.power, .events] s t) ∧
  (∀ (s : State) (e : WakeEvent), s.power.good = true → s.power.hib = none → s.power.st = .a1 →
    ∃ t, exec (.wake e) s = .next t ∧ t.power.st = .a0 ∧ Tab.at t.power.entries 0 0 = Tab.at s.power.entries 0 0 + 1 ∧
      t.events = s.events.add s.opTime s.power.cycles 0x1003 (sourceOf 0 0) (leBytes 1 1 ++ leBytes 1 0) ∧ Frame [.power, .events] s t) ∧
  (∀ s : State, s.power.good = true → s.power.hib = some .timer → s.power.wakeLatched = false → s.entryReady = true → s.power.st ≠ .a3 → s.host.cmds = [] →
    ∃ t, exec .hibernateEntry s = .next t ∧ t.power.st = .a3 ∧ t.power.hib = none ∧ t.power.ready = 0#6 ∧ t.power.readyAtEntry = s.power.ready ∧
      t.tiers.image = some (s.tiers.hbm, s.tiers.pinned) ∧ t.tiers.hbm = [] ∧ t.tiers.pinned = [] ∧ t.tiers.flash = s.tiers.flash ∧
      (∀ d : DieNo, (t.die d).cells = (s.die d).cells ∧ (t.die d).regs = []) ∧ t.media.jPend = [] ∧ t.items = { s.items with merge := none } ∧
      Frame [.dies, .tiers, .items, .span, .events, .health, .power, .smbus] s t) ∧
  (∀ (s : State) (watts : Nat), s.power.good = true → s.capW < watts →
    ∃ t, exec (.powerCapControl watts) s = .next t ∧ t.power.capping = true ∧ t.power.inputW = watts ∧
      (∀ q < 4, t.mhzOf q = max 1200 (s.mhzOf q - 100)) ∧ Frame [.power, .events] s t) ∧
  (∀ (s : State) (x : Fin 32) (r : W16), s.power.good = true → x.val < 4 → (4 * s.tjLimit : Int) ≤ r.toInt → r.toInt < 4 * s.tjLimit + 40 → x.val ∉ s.power.hot →
    ∃ t, exec (.thermalThrottle x r) s = .next t ∧ t.mhzOf x.val = max 1200 (s.mhzOf x.val - 100) ∧ x.val ∈ t.power.hot ∧ t.power.stopped = s.power.stopped ∧
      t.events = s.events.add s.opTime s.power.cycles 0x8001 (sourceOf 11 x.val) (leBytes 1 x.val ++ leBytes 2 r.toNat) ∧ Frame [.power, .events] s t) ∧
  (∀ (s : State) (x : Fin 32) (r : W16), s.power.good = true → 20 ≤ x.val → x.val < 28 → 280 ≤ r.toInt → x.val - 20 ∉ s.power.paced →
    ∃ t, exec (.thermalThrottle x r) s = .next t ∧ t.power = { s.power with paced := (x.val - 20) :: s.power.paced } ∧ Frame [.power, .events] s t)


/-! ## Host transport (12). -/

/-- Rings, doorbells, replies and signals (12 R380, R382, R384, R385): ADMIN_EN makes ring 0, an accepted doorbell takes its value, a held reply is written in
its slot, and a reply's signal leaves. -/
def Obligations.RingsAndReplies : Prop :=
  (∀ (s : State) (p : Port) (v : W64), v.getLsbD 0 = true → (s.port p).adminEn = false → ringSizeOk (bitsOf (s.port p).adminSize.toNat 0 17) = true →
    ringSizeOk (bitsOf (s.port p).adminSize.toNat 32 17) = true →
    ∃ t g, exec (.adminEn ⟨p, .full, v⟩) s = .next t ∧ OnlyRing s t p 0 g ∧ g.cmdBase = (s.port p).adminCmdBase.toNat / 4096 * 4096 ∧
      g.replyBase = (s.port p).adminReplyBase.toNat / 4096 * 4096 ∧ g.cmdSize = bitsOf (s.port p).adminSize.toNat 0 17 ∧
      g.replySize = bitsOf (s.port p).adminSize.toNat 32 17 ∧ g.head = 0 ∧ g.tail = 0 ∧ g.replyHead = 0 ∧ g.replyNext = 0 ∧ g.phase = true ∧
      g.held = [] ∧ g.frozen = false ∧ HostSame s t ∧ Frame [.host] s t) ∧
  (∀ (s : State) (p : Port) (r : RingNo) (v : W32) (g : Ring), (r.val = 0 ∨ s.isOwner p = true) → s.asleep = false → s.ring? p r.val = some g →
    g.tailOk (v.toNat % 65536) = true →
    ∃ t, exec (.cmdTail p r v) s = .next t ∧ OnlyRing s t p r.val { g with tail := v.toNat % 65536 } ∧ HostSame s t ∧ Frame [.host] s t) ∧
  (∀ (s : State) (p : Port) (r : RingNo) (v : W32) (g : Ring), (r.val = 0 ∨ s.isOwner p = true) → s.asleep = false → s.ring? p r.val = some g →
    g.headOk (v.toNat % 65536) = true →
    ∃ t, exec (.replyHead p r v) s = .next t ∧ OnlyRing s t p r.val { g with replyHead := v.toNat % 65536 } ∧ HostSame s t ∧ Frame [.host] s t) ∧
  (∀ (s : State) (p : Port) (r : RingNo) (g : Ring) (x : Reply) (xs : List Reply), s.ring? p r.val = some g → g.held = x :: xs → g.full = false →
    (x.xrdy = true ∨ x.status.good = true) →
    ∃ t, exec (.replyWrite p r) s = .next t ∧ OnlyRing s t p r.val (g.wrote s.now x) ∧ (g.wrote s.now x).held = xs ∧
      (g.wrote s.now x).replyNext = (g.replyNext + 1) % g.replySize ∧
      HostHolds s t p (g.replyBase + 32 * g.replyNext) (x.bytes g.phase g.head) ∧ Frame [.host] s t) ∧
  (∀ (s : State) (p : Port) (r : RingNo) (g : Ring), s.ring? p r.val = some g → g.unsig ≠ 0 → g.coalCount = 0 → (s.port p).silent g.vector = false →
    ∃ t, exec (.msixSignal p r) s = .next t ∧ OnlyRing s t p r.val { g with unsig := g.unsig - 1 } ∧ t.host.msgs = s.host.msgs ++ [(p, g.vector)] ∧
      HostSame s t ∧ Frame [.host] s t)

/-- Fetching and pushed data (12 R383, R386, R391 to R394): a fetch takes the packet at the ring's head, a grant is offered with XRDY, a write inside a grant lands
in its command's data, or ends the command if its transfer failed (14 R461), and DATA_DONE counts a whole grant as received; after 100 µs a grant with a unit missing ends its command. -/
def Obligations.FetchingAndPushes : Prop :=
  (∀ (s : State) (p : Port) (r : Nat) (g : Ring), s.fetchRing p = some r → s.ring? p r = some g → s.fetchable p r g = true → g.tail = (g.head + 1) % g.cmdSize →
    (∀ c : Cmd, c.pkt = s.hostRead p (g.cmdBase + 64 * g.head) 64 → c.port = p → c.ring = r → s.admissionError c = none) →
    ∃ t c, exec (.commandFetch p) s = .next t ∧ t.cmd? s.host.nextCmd = some c ∧ c.ident = s.host.nextCmd ∧ c.pkt = s.hostRead p (g.cmdBase + 64 * g.head) 64 ∧
      c.port = p ∧ c.ring = r ∧ c.slot = g.head ∧ c.fetched = s.tick ∧ c.stage = 0 ∧ t.host.nextCmd = s.host.nextCmd + 1 ∧
      t.ring? p r = some { g with head := (g.head + 1) % g.cmdSize } ∧ (∀ q k, (q ≠ p ∨ k ≠ r) → t.ring? q k = s.ring? q k) ∧
      (∀ j, j ≠ s.host.nextCmd → t.cmd? j = s.cmd? j) ∧ HostSame s t ∧ Frame [.host] s t) ∧
  (∀ (s : State) (c : Cmd) (g : Ring), s.waitingGrant = some c → s.cmd? c.ident = some c → s.ring? c.port c.ring = some g → 4096 ≤ (s.port c.port).budget → 2 ^ 30 ≤ s.media.veneerFree →
    ∃ t x y, exec .xrdy s = .next t ∧ (t.port c.port).grants = (s.port c.port).grants ++ [x] ∧ x.cmd = c.ident ∧ x.ring = c.ring ∧ x.dataOffset = c.granted ∧
      x.len = min (min 1048576 (c.need - c.granted)) ((s.port c.port).budget / 4096 * 4096) ∧ x.written = [] ∧ x.doneAt = none ∧
      t.cmd? c.ident = some { c with granted := c.granted + x.len } ∧
      t.ring? c.port c.ring = some { g with held := g.held ++ [y] } ∧ y.tag = c.tag ∧ y.xrdy = true ∧
      y.result = leBytes 8 x.offset ++ leBytes 4 x.len ++ leBytes 4 c.granted ++ leBytes 2 x.ident ++ zeros 2 ∧ HostSame s t ∧ Frame [.host] s t) ∧
  (∀ (s : State) (p : Port) (off : Nat) (data : List Byte) (y : Parity) (g : PGrant) (c : Cmd), y.lost = false → (s.port p).grants = [g] → g.written = [] → g.doneAt = none → data ≠ [] →
    g.offset ≤ off → off + data.length ≤ g.offset + g.len → s.cmd? g.cmd = some c →
    ∃ t d, exec (.pushWrite p off ⟨data, y⟩) s = .next t ∧ t.cmd? g.cmd = some { c with data := d } ∧ Mem.read 0 d (g.dataOffset + (off - g.offset)) data.length = data ∧
      (∀ a, a < g.dataOffset + (off - g.offset) ∨ g.dataOffset + (off - g.offset) + data.length ≤ a → Mem.get 0 d a = Mem.get 0 c.data a) ∧
      (t.port p).grants = [{ g with written := [(off - g.offset, data.length)] }] ∧ HostSame s t ∧ Frame [.host, .freeCtr, .integ, .events, .health] s t ∧
      (y = .good → Frame [.host, .freeCtr] s t)) ∧
  (∀ (s : State) (p : Port) (off : Nat) (data : List Byte) (q : QuarterNo) (g : PGrant) (c : Cmd), (s.port p).grants = [g] → data ≠ [] →
    g.offset ≤ off → off + data.length ≤ g.offset + g.len → s.cmd? g.cmd = some c →
    ∃ t, exec (.pushWrite p off ⟨data, .twice q⟩) s = .next t ∧ Replied (s.pathError (.twice q)) t g.cmd c (c.reply .tierFailed 0 []) ∧ HostSame s t ∧
      Tab.at t.health.counts 12 0 = min (Tab.at s.health.counts 12 0 + 1) (2 ^ 64 - 1) ∧ Frame [.host, .media, .integ, .events, .health] s t) ∧
  (∀ (s : State) (p : Port) (g : PGrant) (c : Cmd), s.isOwner p = true → s.asleep = false → (s.port p).grants = [g] → g.doneAt = none → g.complete = true →
    g.ident < 65536 → g.ring < 64 → s.cmd? g.cmd = some c →
    ∃ t, exec (.dataDone ⟨p, .full, BitVec.ofNat 64 (g.ident + g.ring * 65536)⟩) s = .next t ∧ t.cmd? g.cmd = some { c with got := c.got + g.len } ∧
      (t.port p).grants = [] ∧ HostSame s t ∧ Frame [.host] s t) ∧
  (∀ (s : State) (g : PGrant) (c : Cmd) (at0 : Nat), (s.port s.host.owner).grants = [g] → g.doneAt = some at0 → g.complete = false → s.cmd? g.cmd = some c →
    ∃ t, exec (.dataDoneWaitEnd g.ident) s = .next t ∧ t.now = max s.now (at0 + 100 * usUnits) ∧
      Replied s t g.cmd c (c.reply .invalidField 0 (leBytes 4 (g.dataOffset + g.gap) ++ leBytes 2 g.ident ++ zeros 14)) ∧ HostSame s t ∧
      t.media = s.media.endCmd g.cmd ∧ Frame [.host, .media, .now] s t)

/-- The heartbeat (12 R378, R380): HB_CONTROL sets the period and restarts it, HB_KICK restarts it, and a period that passes without a kick is recorded with
HEARTBEAT_MISSED; without HB_AUTO nothing else happens. Stopwork, deadlines and port resets (12 R374, R400 to R406): HALT records its scope, RELEASE lifts it, ABORT and a passed deadline end a command with their status
and leave host memory but the buffer of a search (09 R309),
ABORT_HIBERNATE begins the entry to A3, and a port reset leaves no ring. -/
def Obligations.HeartbeatAndStopwork : Prop :=
  (∀ (s : State) (p : Port) (v : W64), s.power.good = true → s.isOwner p = true →
    ∃ t, exec (.hbControl ⟨p, .full, v⟩) s = .next t ∧ t.host = { s.host with hbPeriod := v.toNat % 65536, hbAuto := v.getLsbD 16, hbStart := s.now } ∧ Frame [.host] s t) ∧
  (∀ (s : State) (p : Port) (v : W64), s.power.good = true → s.isOwner p = true →
    ∃ t, exec (.hbKick ⟨p, .full, v⟩) s = .next t ∧ t.host = { s.host with hbStart := s.now } ∧ Frame [.host] s t) ∧
  (∀ (s : State) (p : Port) (v : W64), s.isOwner p = false ∨ s.power.good = false → exec (.hbControl ⟨p, .full, v⟩) s = .next s ∧ exec (.hbKick ⟨p, .full, v⟩) s = .next s) ∧
  (∀ s : State, s.power.good = true → s.host.hbPeriod ≠ 0 → s.host.hbAuto = false →
    ∃ t, exec .heartbeatMissed s = .next t ∧ t.now = max s.now ((s.host.hbStart / tickUnits + 25000 * s.host.hbPeriod + 1) * tickUnits) ∧
      t.host = { s.host with hbStart := (s.host.hbStart / tickUnits + 25000 * s.host.hbPeriod) * tickUnits } ∧
      Recorded { s with now := t.now } t 0x2004 (sourceOf 0 0) (leBytes 2 s.host.hbPeriod) ∧ Frame [.host, .now, .events] s t) ∧
  (∀ (s : State) (w : RegW) (x : Scope), s.power.good = true → stopworkOf w = some (x, .halt) → s.scopeExists x = true →
    ∃ t, exec (.stopworkHalt w) s = .next t ∧ t.host = { s.host with halts := s.host.halts.filter (fun h => h.1 ≠ x) ++ [(x, s.tick)], swAccepted := (s.host.swAccepted + 1) % 65536 } ∧
      Frame [.host] s t) ∧
  (∀ (s : State) (w : RegW), s.power.good = true → stopworkOf w = some (.all, .release) → (∀ h ∈ s.host.halts, h.2 ≠ s.tick) →
    ∃ t, exec (.stopworkRelease w) s = .next t ∧ t.host = { s.host with halts := [], swAccepted := (s.host.swAccepted + 1) % 65536 } ∧ Frame [.host] s t) ∧
  (∀ (s : State) (w : RegW) (r : Nat) (c : Cmd), s.power.good = true → stopworkOf w = some (.ring r, .abort) → s.scopeExists (.ring r) = true →
    s.cmdsInOrder.filter (fun c => c.inScope (.ring r)) = [c] → s.cmd? c.ident = some c → s.instsOf c.ident = [] → s.jobOf c.ident = none → s.askSession c.ident = none →
    ∃ t u, exec (.stopworkAbort w) s = .next t ∧ Replied s u c.ident c (c.reply .abortedStopwork 0 []) ∧
      t.host = { u.host with swAccepted := (s.host.swAccepted + 1) % 65536 } ∧ (c.opcode ≠ 0x0401 → c.opcode ≠ 0x0402 → HostSame s t ∧ t.freeCtr = s.freeCtr) ∧
      HostOutside s t (hostKey c.port (c.field 0x18 8)) (c.field 0x20 4) ∧ Frame [.host, .media, .items, .serv, .span, .freeCtr] s t) ∧
  (∀ (s : State) (w : RegW), s.power.good = true → stopworkOf w = some (.all, .abortHibernate) → s.cmdsInOrder = [] → s.power.st ≠ .a3 → s.readOnly = false → s.imageFits = true →
    ∃ t, exec (.stopworkAbortHibernate w) s = .next t ∧ t.power = { s.power with hib := some .stopwork } ∧
      t.host = { s.host with swAccepted := (s.host.swAccepted + 1) % 65536 } ∧ t.serv.builds = [] ∧ t.items = { s.items with merge := none } ∧ Frame [.host, .power, .serv, .items, .freeCtr] s t) ∧
  (∀ (s : State) (id e : Nat) (c : Cmd), s.cmd? id = some c → c.expiry = some e → c.stage ≠ 0 → s.jobOf id = none → s.askSession id = none →
    ∃ t, exec (.commandDeadlineExpired id) s = .next t ∧ Replied s t id c (c.reply .deadlineExpired 0 []) ∧ t.now = max s.now ((e + 1) * tickUnits) ∧
      (c.opcode ≠ 0x0401 → c.opcode ≠ 0x0402 → HostSame s t ∧ t.freeCtr = s.freeCtr) ∧ HostOutside s t (hostKey c.port (c.field 0x18 8)) (c.field 0x20 4) ∧
      Frame [.host, .media, .items, .serv, .span, .now, .freeCtr] s t) ∧
  (∀ (s : State) (p : Port), s.cmdsOf p = [] →
    ∃ t, exec (.portReset p .linkLoss) s = .next t ∧ (t.port p).rings = [] ∧ (t.port p).grants = [] ∧ (t.port p).linkUp = false ∧ (t.port p).msix = [] ∧ (t.port p).config = PciConfig.reset ∧
      t.port p.other = s.port p.other ∧ t.host.cmds = s.host.cmds ∧ HostSame s t ∧ Recorded s t 0x2002 (sourceOf 7 p.num) (leBytes 1 p.num ++ leBytes 1 2) ∧
      Frame [.host, .events] s t)


/-! ## Registers and the SMBus map (14, 16, 18). -/

/-- Writes of the policy registers by the Owner, of any size: a value in range takes effect at once, one out of range leaves the register, and either writes POLICY_WRITE with the
value before and the value after; a bit of ERR_SUMMARY written 1 clears; ERR_IRQ_EN takes the value; REGISTER_WRITE at a register's offset is that register's write, and at RO or
reserved offsets nothing (08 R272 to R274; 14 R464, R469, R488; 16 R519, R534; 18 R558, R560, R568, R579). The Sentinel's writes, and accesses that are neither 64 bits nor an aligned
half, leave every one of them. -/
def Obligations.PolicyRegisters : Prop :=
  (∀ (s : State) (w : RegW) (v : W64), s.power.good = true → s.isOwner w.port = true → mergedW w (s.power.powerCap) = some v →
    ∃ t x, exec (.powerCap w) s = .next t ∧ x = (if powerCapOk v.toNat then lowerCap (decide (s.power.capSmb = some s.tick)) s.power.powerCap (v &&& 0xFF07FF#64) else s.power.powerCap) ∧ t.power = { s.power with powerCap := x, capBar := some s.tick } ∧ PolicyRecorded s t (0x1010) (s.power.powerCap) x ∧ Frame [.power, .events] s t) ∧
  (∀ (s : State) (w : RegW) (v : W64), s.power.good = true → s.isOwner w.port = true → mergedW w (s.regul.policy) = some v →
    ∃ t x, exec (.regPolicy w) s = .next t ∧ x = (if regPolicyOk v.toNat then v &&& 0xFFFFFFFFFF01#64 else s.regul.policy) ∧ t.regul = { s.regul with policy := x } ∧ PolicyRecorded s t (0x1020) (s.regul.policy) x ∧ Frame [.regul, .events] s t) ∧
  (∀ (s : State) (w : RegW) (v : W64) (c : Cls), s.power.good = true → s.isOwner w.port = true → mergedW w (s.regul.pcset c) = some v →
    ∃ t x, exec (.pcset c w) s = .next t ∧ x = (if v.toNat % 2 ^ 32 = 0 then s.regul.pcset c else v &&& 0xFFFFFFFF#64) ∧ t.regul.pcset c = x ∧ (∀ k, k ≠ c → t.regul.pcset k = s.regul.pcset k) ∧ t.regul.ways = s.regul.ways ∧ t.regul.policy = s.regul.policy ∧ PolicyRecorded s t (0x1028 + 8 * c.code) (s.regul.pcset c) x ∧ Frame [.regul, .events] s t) ∧
  (∀ (s : State) (w : RegW) (v : W64) (q : QuarterNo), s.power.good = true → s.isOwner w.port = true → mergedW w (s.waysReg q.val) = some v →
    ∃ t x, exec (.ways q w) s = .next t ∧ t.regul = { s.regul with ways := Tab.put s.regul.ways q.val x } ∧
      (∀ i < 16, bitsOf x.toNat (4 * i) 4 = s.nextWay q.val i (bitsOf v.toNat (4 * i) 4)) ∧
      t.tiers = { s.tiers with lines := s.tiers.lines.filter (fun e => !(e.2.quarter.val = q.val && bitsOf x.toNat (4 * e.2.way) 4 ≠ s.wayCode q.val e.2.way)) } ∧
      PolicyRecorded s t (0x1040 + 8 * q.val) (s.waysReg q.val) x ∧ Frame [.regul, .tiers, .events] s t) ∧
  (∀ (s : State) (w : RegW) (v : W64), s.power.good = true → s.isOwner w.port = true → mergedW w (s.integ.planeControl) = some v →
    ∃ t x, exec (.planeControl w) s = .next t ∧ x = (if planeControlOk v.toNat then v &&& 0x3FFFFFF#64 else s.integ.planeControl) ∧ t.integ = { s.integ with planeControl := x } ∧ PolicyRecorded s t (0x1060) (s.integ.planeControl) x ∧ Frame [.integ, .events] s t) ∧
  (∀ (s : State) (w : RegW) (v : W64), s.power.good = true → s.isOwner w.port = true → mergedW w s.integ.bucketConfig = some v →
    ∃ t x, exec (.bucketConfig w) s = .next t ∧ x = (if bucketConfigOk v.toNat then v &&& 0xFFFFF#64 else s.integ.bucketConfig) ∧
      t.integ = { s.integ with bucketConfig := x, buckets := t.integ.buckets } ∧ (∀ k, Tab.at t.integ.buckets k 0 = min (Tab.at s.integ.buckets k 0) (x.toNat % 256)) ∧
      PolicyRecorded s t 0x1068 s.integ.bucketConfig x ∧ Frame [.integ, .events] s t) ∧
  (∀ (s : State) (w : RegW) (v : W64), s.power.good = true → s.isOwner w.port = true → mergedW w (s.integ.policy) = some v →
    ∃ t x, exec (.integrityPolicy w) s = .next t ∧ x = (if integrityPolicyOk v.toNat then v &&& 0xFF07FF#64 else s.integ.policy) ∧ t.integ = { s.integ with policy := x } ∧ PolicyRecorded s t (0x1070) (s.integ.policy) x ∧ Frame [.integ, .events] s t) ∧
  (∀ (s : State) (w : RegW) (v : W64), s.power.good = true → s.isOwner w.port = true → mergedW w (s.power.mediaPolicy) = some v →
    ∃ t x, exec (.mediaPolicy w) s = .next t ∧ x = (if mediaPolicyOk v.toNat then v &&& 0xFFFFFFFFF#64 else s.power.mediaPolicy) ∧ t.power = { s.power with mediaPolicy := x } ∧ PolicyRecorded s t (0x1078) (s.power.mediaPolicy) x ∧ Frame [.power, .events] s t) ∧
  (∀ (s : State) (w : RegW) (v : W64), s.isOwner w.port = true → mergedW w 0#64 = some v →
    ∃ t, exec (.errSummaryClear w) s = .next t ∧ t.integ = { s.integ with errSummary := s.integ.errSummary &&& ~~~(v.setWidth 12) } ∧ Frame [.integ] s t) ∧
  (∀ (s : State) (w : RegW) (v : W64), s.power.good = true → s.isOwner w.port = true → mergedW w (s.integ.errIrqEn.setWidth 64) = some v →
    ∃ t, exec (.registerWrite 0x1088 w) s = .next t ∧ t.integ = { s.integ with errIrqEn := v.setWidth 12 } ∧ Frame [.integ] s t) ∧
  (∀ (s : State) (w : RegW) (v : W64), s.power.good = true → (s.port w.port).adminEn = false → mergedW w (s.port w.port).adminCmdBase = some v →
    ∃ t, exec (.registerWrite 0x3000 w) s = .next t ∧ t.port w.port = { s.port w.port with adminCmdBase := v } ∧ t.port w.port.other = s.port w.port.other ∧ Frame [.host] s t) ∧
  (∀ (s : State) (w : RegW), s.power.good = true → w.size ≠ .other →
    exec (.registerWrite 0x1010 w) s = exec (.powerCap w) s ∧ exec (.registerWrite 0x1020 w) s = exec (.regPolicy w) s ∧
    (∀ c : Cls, exec (.registerWrite (0x1028 + 8 * c.code) w) s = exec (.pcset c w) s) ∧ (∀ q : QuarterNo, exec (.registerWrite (0x1040 + 8 * q.val) w) s = exec (.ways q w) s) ∧
    exec (.registerWrite 0x1060 w) s = exec (.planeControl w) s ∧ exec (.registerWrite 0x1068 w) s = exec (.bucketConfig w) s ∧
    exec (.registerWrite 0x1070 w) s = exec (.integrityPolicy w) s ∧ exec (.registerWrite 0x1078 w) s = exec (.mediaPolicy w) s ∧
    exec (.registerWrite 0x1080 w) s = exec (.errSummaryClear w) s ∧ exec (.registerWrite 0x3018 w) s = exec (.adminEn w) s ∧
    exec (.registerWrite 0x3020 w) s = exec (.hbControl w) s ∧ exec (.registerWrite 0x3028 w) s = exec (.hbKick w) s ∧ exec (.registerWrite 0x140000 w) s = exec (.dataDone w) s ∧
    (∀ off ∈ [0x0, 0x8, 0x10, 0x18, 0x20, 0x28, 0x1000, 0x1008, 0x1090, 0x1098, 0x1200, 0x1400, 0x2008, 0x1380, 0x2010, 0x3030, 0x201000, 0x300000],
      exec (.registerWrite off w) s = .next s)) ∧
  (∀ (s : State) (w : RegW), s.isOwner w.port = false ∨ w.size = .other →
    exec (.powerCap w) s = .next s ∧ exec (.regPolicy w) s = .next s ∧ (∀ c, exec (.pcset c w) s = .next s) ∧ (∀ q, exec (.ways q w) s = .next s) ∧
    exec (.planeControl w) s = .next s ∧ exec (.bucketConfig w) s = .next s ∧ exec (.integrityPolicy w) s = .next s ∧ exec (.mediaPolicy w) s = .next s ∧
    exec (.errSummaryClear w) s = .next s)

/-- The SMBus map (18 R576 to R579): a read sends the register's bytes and a PEC, CAP_W alone is writable, any other write is counted and dropped, and a bus held low is
let go. -/
def Obligations.SmbusTransactions : Prop :=
  (∀ (s : State) (k : SmbRead) (code : Byte), s.power.good = true →
    ∃ t d, exec (.smbusRead k code) s = .next t ∧ d = s.smbData k code.toNat ∧ (k = .byte → d.length = 1) ∧ (k = .word → d.length = 2) ∧
      t.smbus = { s.smbus with out := d ++ [pecOf ([if s.power.smbAlt then 0xB6#8 else 0xB4#8, code, (if s.power.smbAlt then 0xB6#8 else 0xB4#8) ||| 1#8] ++ d)] } ∧
      Frame [.smbus] s t) ∧
  (∀ (s : State) (v : W16) (pec : Option Bool), s.power.good = true → 300 ≤ v.toNat → v.toNat ≤ 1000 → pec ≠ some false →
    ∃ t, exec (.smbusWriteWord .word 0x08#8 v pec) s = .next t ∧ t.capW = (if s.power.capBar = some s.tick then min s.capW v.toNat else v.toNat) ∧ t.tjLimit = s.tjLimit ∧
      t.power = { s.power with powerCap := t.power.powerCap, capSmb := some s.tick } ∧ PolicyRecorded s t 0x1010 s.power.powerCap t.power.powerCap ∧
      Frame [.power, .events] s t) ∧
  (∀ (s : State) (k : SmbWrite) (code : Byte) (v : W16) (pec : Option Bool), s.power.good = true →
    (k ≠ .word ∨ code ≠ 0x08#8 ∨ pec = some false ∨ v.toNat < 300 ∨ 1000 < v.toNat) →
    ∃ t, exec (.smbusWriteWord k code v pec) s = .next t ∧ t.smbus = { s.smbus with errors := (s.smbus.errors + 1) % 256 } ∧ Frame [.smbus] s t) ∧
  (∀ s : State, s.power.good = true →
    ∃ t, exec .smbusBusRelease s = .next t ∧ t.smbus = { s.smbus with out := [] } ∧ t.now = s.now + 25 * msUnits ∧ Frame [.smbus, .now] s t)

/-! ## Admin commands (13 R414 to R422). -/

/-- Features, rings and power commands: IDLE_TIMERS is set in the module and in the configuration block, RING_CREATE, RING_DELETE and RING_RESTART change one ring of the
command's port, and POWER_SET to Hibernate begins the entry (13 R416 to R421). TAKEOVER (12 R377): the Sentinel becomes Owner, the old Owner's rings are gone, its commands ended with OWNER_CHANGED are counted in the reply, no
halt and no heartbeat stands, the change of Owner enters the configuration block and its event is written; of a locked module it needs the Owner's credential, and completes once the security
block holds the new LOCK_SEQ (17 R540, R546). -/
def Obligations.RingPowerTakeover : Prop :=
  (∀ (s : State) (id : Nat) (c : Cmd) (v : Nat), Runs s id 0x0104 c → c.field 0x10 2 = 2 → v = leNat (s.hostRead c.port (c.field 0x18 8) 32) → bitsOf v 98 158 = 0 →
    ∃ t, exec (.setFeature id) s = .next t ∧ Succeeded [.power] s t id c [] ∧
      t.power = { s.power with idle := BitVec.ofNat 256 v, cfg := { s.power.cfg with seq := s.power.cfg.seq + 1, idle := BitVec.ofNat 256 v } } ∧ HostSame s t) ∧
  (∀ (s : State) (id : Nat) (c : Cmd), Runs s id 0x0105 c → s.ring? c.port (c.field 0x10 1) = none →
    ∃ t u, exec (.ringCreate id) s = .next t ∧ OnlyRing s u c.port (c.field 0x10 1) c.newRing ∧ c.newRing.cmdBase = c.field 0x18 8 ∧ c.newRing.cmdSize = c.field 0x28 4 ∧
      c.newRing.head = 0 ∧ c.newRing.tail = 0 ∧ c.newRing.phase = true ∧ Succeeded [] u t id c [] ∧ u.host.cmds = s.host.cmds ∧ HostSame s t ∧ Frame [.host, .media] s t) ∧
  (∀ (s : State) (id : Nat) (c : Cmd) (g : Ring), Runs s id 0x0106 c → s.ring? c.port (c.field 0x10 1) = some g → c.ring ≠ c.field 0x10 1 →
    (∀ d ∈ s.cmdsOf c.port, d.ring ≠ c.field 0x10 1) →
    ∃ t u, exec (.ringDelete id) s = .next t ∧ u.ring? c.port (c.field 0x10 1) = none ∧
      (∀ p r, (p ≠ c.port ∨ r ≠ c.field 0x10 1) → u.ring? p r = s.ring? p r) ∧ Succeeded [] u t id c [] ∧ u.host.cmds = s.host.cmds ∧ HostSame s t ∧ Frame [.host, .media] s t) ∧
  (∀ (s : State) (id : Nat) (c : Cmd) (g : Ring), Runs s id 0x0107 c → s.ring? c.port (c.field 0x10 1) = some g → g.frozen = true → s.ringQuiet c.port (c.field 0x10 1) g = true →
    ∃ t u, exec (.ringRestart id) s = .next t ∧
      OnlyRing s u c.port (c.field 0x10 1) { g with head := if c.field 0x11 1 = 1 then g.tail else g.head, frozen := false } ∧
      Succeeded [] u t id c (resultAt [(0x0C, 2, if c.field 0x11 1 = 1 then g.tail else g.head)]) ∧ u.host.cmds = s.host.cmds ∧ HostSame s t ∧ Frame [.host, .media] s t) ∧
  (∀ (s : State) (id : Nat) (c : Cmd), Runs s id 0x0108 c → c.stage = 0 → c.field 0x10 1 = 0 → s.power.st = .a0 →
    ∃ t, exec (.powerSet id) s = .next t ∧ Succeeded [] s t id c [] ∧ HostSame s t) ∧
  (∀ (s : State) (id : Nat) (c : Cmd), Runs s id 0x0108 c → c.stage = 0 → c.field 0x10 1 = 3 → s.readOnly = false → s.imageFits = true →
    ∃ t, exec (.powerSet id) s = .next t ∧ t.power = { s.power with hib := some .command } ∧ t.cmd? id = some { c with stage := 1, aux := [] } ∧
      (∀ j, j ≠ id → t.cmd? j = s.cmd? j) ∧ HostSame s t ∧ Frame [.host, .power] s t) ∧
  (∀ (s : State) (id : Nat) (c : Cmd), Runs s id 0x0109 c → c.stage = 0 → s.credTurn c = true → s.isOwner c.port = false → s.sec.locked = false →
    s.cmdsOf s.host.owner = [] → ((s.port s.host.owner).linkUp && (s.port s.host.owner).config.busMaster) = false →
    ∃ t u, exec (.takeover id) s = .next t ∧ t.host.owner = c.port ∧ (t.port s.host.owner).rings = [] ∧ (t.port s.host.owner).grants = [] ∧
      t.host.takeovers = (s.host.takeovers + 1) % 65536 ∧ t.host.halts = [] ∧ t.host.errors = [] ∧ t.host.hbPeriod = 0 ∧ t.host.hbAuto = false ∧
      t.power = { s.power with cfg := { s.power.cfg with seq := s.power.cfg.seq + 1, ownerPort := c.port } } ∧
      Recorded s t 0x2003 (sourceOf 0 0) (leBytes 1 c.port.num ++ leBytes 1 0 ++ leBytes 4 0) ∧
      Replied u t id c (c.reply .success 0 (resultAt [(0x0C, 4, 0)])) ∧ HostSame s t ∧ Frame [.host, .media, .power, .events] s t) ∧
  (∀ (s : State) (id : Nat) (c : Cmd) (ok : Bool), Runs s id 0x0109 c → c.stage = 0 → s.credTurn c = true → s.isOwner c.port = false → s.sec.locked = true → c.field 0x10 8 ≠ 0 →
    s.credOk (s.hostRead c.port (c.field 0x10 8) 5328) 0x10 0 0 = ok → s.cmdsOf s.host.owner = [] → ((s.port s.host.owner).linkUp && (s.port s.host.owner).config.busMaster) = false →
    (ok = true → ∃ t, exec (.takeover id) s = .next t ∧ t.host.owner = c.port ∧ t.cmd? id = some { c with stage := 1, aux := [s.sec.pages.seq + 1, 0] } ∧
      t.sec = { s.sec with lockSeq := (s.sec.lockSeq + 1) % 2 ^ 64, pages := { s.sec.pages with seq := s.sec.pages.seq + 1 } } ∧
      HostSame s t ∧ Frame [.host, .power, .events, .sec] s t) ∧
    (ok = false → ∃ t, exec (.takeover id) s = .next t ∧ Failed s t id c .notOwner)) ∧
  (∀ (s : State) (id : Nat) (c : Cmd), Runs s id 0x0109 c → c.stage = 1 → s.secured (c.aux.headD 0) = true →
    ∃ t, exec (.takeover id) s = .next t ∧ Succeeded [] s t id c (resultAt [(0x0C, 4, c.aux.getD 1 0)]) ∧ HostSame s t)

/-- The commands of rings, power and role, and the searches, complete (12 R377; 13 R410, R416 to R422, R434; 09 R306, R307, R311): in progress with nothing in their way, SET_FEATURE with
a value that keeps its feature's definition, RING_CREATE of a ring that is not there, RING_DELETE of one that is, RING_RESTART of a frozen one that is quiet, POWER_SET to A0, TAKEOVER
by the Sentinel of a module that is not locked, SEARCH whose scans and pages are there, and SEARCH_SPAN whose parts are there, each have their effect, and end with their reply. -/
def Obligations.RingPowerSearchComplete : Prop :=
  (∀ (s : State) (id : Nat) (c : Cmd) (v : Nat), Runs s id 0x0104 c → v = leNat (s.hostRead c.port (c.field 0x18 8) 32) → featureOk (c.field 0x10 2) v = true →
    ∃ t, exec (.setFeature id) s = .next t ∧ Replied s t id c (c.reply .success 0 []) ∧ (c.field 0x10 2 = 1 → t.serv.cachePolicy = BitVec.ofNat 256 v ∧ t.power = s.power) ∧
      (c.field 0x10 2 ≠ 1 → t.power.idle = BitVec.ofNat 256 v ∧ t.power.cfg.idle = BitVec.ofNat 256 v ∧ t.serv = s.serv) ∧ HostSame s t ∧
      Frame [.host, .media, .serv, .tiers, .power, .events] s t) ∧
  (∀ (s : State) (id : Nat) (c : Cmd) (v : Nat), Runs s id 0x0104 c → v = leNat (s.hostRead c.port (c.field 0x18 8) 32) → featureOk (c.field 0x10 2) v = false →
    ∃ t, exec (.setFeature id) s = .next t ∧ Failed s t id c .invalidField) ∧
  (∀ (s : State) (id : Nat) (c : Cmd) (g : Ring), Runs s id 0x0105 c → s.ring? c.port (c.field 0x10 1) = none → s.ring? c.port c.ring = some g →
    ∃ t, exec (.ringCreate id) s = .next t ∧ t.ring? c.port (c.field 0x10 1) = some c.newRing ∧
      t.ring? c.port c.ring = some { g with held := g.held ++ [c.reply .success 0 []] } ∧
      (∀ p r, (p ≠ c.port ∨ (r ≠ c.field 0x10 1 ∧ r ≠ c.ring)) → t.ring? p r = s.ring? p r) ∧ t.cmd? id = none ∧ (∀ j, j ≠ id → t.cmd? j = s.cmd? j) ∧ HostSame s t ∧
      Frame [.host, .media] s t) ∧
  (∀ (s : State) (id : Nat) (c : Cmd) (g h : Ring), Runs s id 0x0106 c → s.ring? c.port (c.field 0x10 1) = some h → s.ring? c.port c.ring = some g → c.ring ≠ c.field 0x10 1 →
    (∀ d ∈ s.cmdsOf c.port, d.ring ≠ c.field 0x10 1) →
    ∃ t, exec (.ringDelete id) s = .next t ∧ t.ring? c.port (c.field 0x10 1) = none ∧ t.ring? c.port c.ring = some { g with held := g.held ++ [c.reply .success 0 []] } ∧
      (∀ p r, (p ≠ c.port ∨ (r ≠ c.field 0x10 1 ∧ r ≠ c.ring)) → t.ring? p r = s.ring? p r) ∧ t.cmd? id = none ∧ (∀ j, j ≠ id → t.cmd? j = s.cmd? j) ∧ HostSame s t ∧
      Frame [.host, .media] s t) ∧
  (∀ (s : State) (id n : Nat) (c : Cmd) (g h : Ring), Runs s id 0x0107 c → s.ring? c.port (c.field 0x10 1) = some h → s.ring? c.port c.ring = some g → c.ring ≠ c.field 0x10 1 →
    h.frozen = true → s.ringQuiet c.port (c.field 0x10 1) h = true → n = (if c.field 0x11 1 = 1 then h.tail else h.head) →
    ∃ t, exec (.ringRestart id) s = .next t ∧ t.ring? c.port (c.field 0x10 1) = some { h with head := n, frozen := false } ∧
      t.ring? c.port c.ring = some { g with held := g.held ++ [c.reply .success 0 (resultAt [(0x0C, 2, n)])] } ∧
      (∀ p r, (p ≠ c.port ∨ (r ≠ c.field 0x10 1 ∧ r ≠ c.ring)) → t.ring? p r = s.ring? p r) ∧ t.cmd? id = none ∧ (∀ j, j ≠ id → t.cmd? j = s.cmd? j) ∧ HostSame s t ∧
      Frame [.host, .media] s t) ∧
  (∀ (s : State) (id : Nat) (c : Cmd), Runs s id 0x0108 c → c.stage = 0 → c.field 0x10 1 = 0 → s.host.latched = [] →
    ∃ t, exec (.powerSet id) s = .next t ∧ t.power.st = .a0 ∧ Replied s t id c (c.reply .success 0 []) ∧ HostSame s t ∧
      Frame [.host, .media, .power, .events, .tiers, .sec, .span] s t) ∧
  (∀ (s : State) (id : Nat) (c : Cmd), Runs s id 0x0109 c → c.stage = 0 → s.credTurn c = true → s.isOwner c.port = false → s.sec.locked = false →
    ∃ t, exec (.takeover id) s = .next t ∧ t.host.owner = c.port ∧ (t.port s.host.owner).rings = [] ∧ t.host.halts = [] ∧ t.host.errors = [] ∧ t.host.hbPeriod = 0 ∧
      t.host.hbAuto = false ∧ t.cmd? id = none) ∧
  (∀ (s : State) (id : Nat) (r : SearchReads) (c : Cmd) (y : Query) (q : Query1) (a : Admitted) (f : Found), RunsItem s id 0x0401 c → c.stage = 1 → s.items.running = [] →
    s.items.query? (.cmd id) = some y → y.ask = some (q, a) → y.faulted r = false → s.items.scansDone (.cmd id) = true → s.spotsReady true (s.rerankSpots y) = true →
    f = (s.readSpots (s.rerankSpots y)).finish q a y.lists r →
    ∃ t, exec (.search id r) s = .next t ∧ t.cmd? id = none ∧
      HostHolds s t c.port (c.field 0x18 8) (f.header (f.flags + c.aux.headD 0) ++ f.sel.entries ++ (if q.times then s.timeRecords f.sel else [])) ∧
      Replied s t id c (c.reply .success (f.flags + c.aux.headD 0) (resultAt [(0x0C, 2, f.sel.sel.length), (0x0E, 2, 1), (0x10, 8, f.epoch), (0x18, 4, f.candidates)]))) ∧
  (∀ (s : State) (id fl n ms e cs : Nat) (b : List Byte) (r : SearchReads) (c : Cmd) (i : Inst), RunsItem s id 0x0402 c → c.stage = 1 →
    s.span.insts.find? (fun i => i.cmd = some id) = some i → s.instReady i = true → s.spanResult i (c.aux.getD 1 0 = 1) (c.aux.headD 0) = (b, n, ms, e, cs, fl) →
    ∃ t, exec (.searchSpan id r) s = .next t ∧ t.cmd? id = none ∧ t.inst? i.key = none ∧ HostHolds s t c.port (c.field 0x18 8) b ∧
      Replied s t id c (c.reply .success fl (resultAt [(0x0C, 2, n), (0x0E, 2, ms), (0x10, 8, e), (0x18, 4, cs)])))

/-! ## Firmware and the owner lock (13 R455, R457; 17). -/

/-- Firmware and the owner lock: FW_DOWNLOAD takes its piece's room and then its bytes for the slot not running, FW_COMMIT verifies that slot or chooses it, and OWNER_LOCK
acts under its credential, raises LOCK_SEQ and completes once the security block holds the change (17 R540 to R544, R551 to R553). While the owner lock is in force, and for its first LOCK, an OWNER_LOCK whose credential does not verify answers NOT_OWNER and changes no security state (17 R543, R544). -/
def Obligations.FirmwareAndOwnerLock : Prop :=
  (∀ (s : State) (id : Nat) (c : Cmd), Runs s id 0x0901 c → c.stage = 0 → (∀ d ∈ Tab.vals s.host.cmds, d.opcode ≠ 0x0902) →
    c.field 0x10 4 ≠ 0 → c.field 0x10 4 + c.field 0x14 4 ≤ s.sec.other.len →
    ∃ t, exec (.fwDownload id) s = .next t ∧ t.cmd? id = some { c with stage := 1, aux := [], need := c.field 0x14 4 } ∧ t.sec = s.sec ∧ HostSame s t ∧ Frame [.host] s t) ∧
  (∀ (s : State) (id : Nat) (c : Cmd), Runs s id 0x0901 c → c.stage ≠ 0 → c.need ≤ c.got → c.field 0x10 4 ≠ 0 → c.field 0x10 4 + c.field 0x14 4 ≤ s.sec.other.len →
    ∃ t, exec (.fwDownload id) s = .next t ∧ Succeeded [.sec] s t id c [] ∧ Mem.read 0 t.sec.other.image (c.field 0x10 4) c.pushed.length = c.pushed ∧
      t.sec.active = s.sec.active ∧ t.sec.nextB = s.sec.activeB ∧ t.sec.lockSeq = s.sec.lockSeq ∧ HostSame s t) ∧
  (∀ (s : State) (id : Nat) (c : Cmd) (ok : Bool), Runs s id 0x0902 c → c.field 0x10 1 = 0 → s.sec.other.formOk = true → s.sec.other.signedOk = ok → s.sec.fuses ≤ s.sec.other.secVer →
    ∃ t, exec (.fwCommit id) s = .next t ∧ Replied s t id c (c.reply (if ok then .success else .signatureInvalid) 0 []) ∧ t.sec.active = s.sec.active ∧
      (ok = true → t.sec.other.st = .verified ∧ t.sec.nextB = !s.sec.activeB ∧
        Recorded s t 0x7001 (sourceOf 0 0) (leBytes 1 (bit (!s.sec.activeB)) ++ leBytes 8 s.sec.other.version.toNat)) ∧
      (ok = false → t.sec = s.sec) ∧ HostSame s t ∧ Frame [.host, .media, .sec, .events] s t) ∧
  (∀ (s : State) (id : Nat) (c : Cmd), Runs s id 0x0902 c → c.field 0x10 1 = 1 → s.sec.other.st = .verified → s.sec.fuses ≤ s.sec.other.secVer →
    ∃ t, exec (.fwCommit id) s = .next t ∧ Succeeded [.sec] s t id c [] ∧ t.sec = { s.sec with nextB := !s.sec.activeB } ∧ HostSame s t) ∧
  (∀ (s : State) (id : Nat) (c : Cmd) (ok : Bool), Runs s id 0x0904 c → c.stage = 0 → s.credTurn c = true → c.field 0x10 1 = 1 →
    s.credOk (s.hostRead c.port (c.field 0x18 8) 5328) 1 0 0 = ok →
    (ok = false → ∃ t, exec (.ownerLock id) s = .next t ∧ Failed s t id c .notOwner) ∧
    (ok = true → ∃ t, exec (.ownerLock id) s = .next t ∧ Waits [.sec, .events] s t id { c with stage := 1, aux := [s.sec.pages.seq + 1] } ∧
      t.sec = { s.sec with locked := true, lockSeq := (s.sec.lockSeq + 1) % 2 ^ 64, ownerKey := ((s.hostRead c.port (c.field 0x18 8) 5328).drop 0x40).take 1952,
                           pages := { s.sec.pages with seq := s.sec.pages.seq + 1 } } ∧
      Recorded s t 0x7003 (sourceOf 0 0) (leBytes 1 1 ++ leBytes 1 (c.field 0x11 1)))) ∧
  (∀ (s : State) (id : Nat) (c : Cmd), Runs s id 0x0904 c → c.stage = 0 → s.credTurn c = true → c.field 0x10 1 = 5 → s.sec.locked = false →
    BitVec.ofNat 2 (c.field 0x12 2) ≠ s.sec.policy →
    ∃ t, exec (.ownerLock id) s = .next t ∧ Waits [.sec, .events] s t id { c with stage := 1, aux := [s.sec.pages.seq + 1] } ∧
      t.sec = { s.sec with policy := BitVec.ofNat 2 (c.field 0x12 2), pages := { s.sec.pages with seq := s.sec.pages.seq + 1 } }) ∧
  (∀ (s : State) (id : Nat) (c : Cmd), Runs s id 0x0904 c → c.stage = 1 → s.secured (c.aux.headD 0) = true →
    ∃ t, exec (.ownerLock id) s = .next t ∧ Succeeded [] s t id c [] ∧ HostSame s t) ∧
  (∀ (s : State) (id : Nat) (c : Cmd), s.acting id 0x0904 = some c → c.ident = id → c.stage = 0 → s.credTurn c = true → (s.sec.locked = true ∨ c.field 0x10 1 = 1) →
    s.credOk (s.hostRead c.port (c.field 0x18 8) 5328) (c.field 0x10 1) (if c.field 0x10 1 = 3 ∨ c.field 0x10 1 = 4 then c.field 0x11 1 else 0)
      (if c.field 0x10 1 = 5 then c.field 0x12 2 else 0) = false →
    ∃ t, exec (.ownerLock id) s = .next t ∧ Replied s t id c (c.reply .notOwner 0 []) ∧ t.sec = s.sec ∧ HostSame s t ∧ Frame [.host, .media] s t)

/-! ## Events (13 R458, R459; 15). -/

/-- EVENTS_READ sends the records from a sequence number up to a count; EVENTS_CLEAR removes every record up to one and writes EVENTS_CLEARED (15 R497, R498). The commands that report: IDENTIFY, GET_LOG, GET_FEATURE, HEALTH and ATTEST write their structure to host memory and succeed, changing nothing else (13 R414 to R416,
R456, R459; 15 R501; 17 R547). -/
def Obligations.ReportsAndEventLog : Prop :=
  (∀ (s : State) (id : Nat) (c : Cmd) (rs : List Event), Runs s id 0x0A01 c → rs = (s.events.recs.filter (fun r => c.field 0x10 8 ≤ r.seq)).take (c.field 0x20 4) →
    ∃ t, exec (.eventsRead id []) s = .next t ∧
      Succeeded [] s t id c (resultAt [(0x0C, 4, rs.length), (0x10, 8, (rs.getLast?.map (fun r => r.seq + 1)).getD (c.field 0x10 8)),
        (0x18, 4, bit s.events.logFull + 2 * bit s.events.unstable), (0x1C, 4, s.events.dropped)]) ∧
      HostHolds s t c.port (c.field 0x18 8) (rs.flatMap Event.bytes)) ∧
  (∀ (s : State) (id n : Nat) (c : Cmd), Runs s id 0x0A02 c → n = (s.events.recs.filter (fun r => r.seq ≤ c.field 0x10 8)).length →
    ∃ t, exec (.eventsClear id) s = .next t ∧ Succeeded [.events] s t id c (resultAt [(0x0C, 4, n)]) ∧ HostSame s t ∧
      t.events = (s.events.clear (c.field 0x10 8)).add s.opTime s.power.cycles 0x0002 (sourceOf 0 0) (leBytes 8 n ++ leBytes 8 s.events.dropped ++ leBytes 8 (c.field 0x10 8)) ∧
      (∀ r ∈ (s.events.clear (c.field 0x10 8)).recs, c.field 0x10 8 < r.seq)) ∧
  (∀ (s : State) (id : Nat) (c : Cmd), Runs s id 0x0101 c →
    ∃ t, exec (.identify id) s = .next t ∧ Succeeded [] s t id c [] ∧ HostHolds s t c.port (c.field 0x10 8) (s.identity c.port) ∧ t.media = s.media.endCmd id) ∧
  (∀ (s : State) (id : Nat) (c : Cmd), Runs s id 0x0102 c →
    ∃ t, exec (.getLog id) s = .next t ∧ Succeeded [] s t id c (resultAt [(0x0C, 4, (s.logOf (c.field 0x10 2)).length)]) ∧
      HostHolds s t c.port (c.field 0x18 8) ((s.logOf (c.field 0x10 2)).take (c.field 0x20 4)) ∧ t.media = s.media.endCmd id) ∧
  (∀ (s : State) (id : Nat) (c : Cmd), Runs s id 0x0103 c →
    ∃ t, exec (.getFeature id) s = .next t ∧ Succeeded [] s t id c [] ∧
      HostHolds s t c.port (c.field 0x18 8) (leBytes 32 (if c.field 0x10 2 = 1 then s.serv.cachePolicy else s.power.idle).toNat) ∧ t.media = s.media.endCmd id) ∧
  (∀ (s : State) (id : Nat) (c : Cmd), Runs s id 0x0A03 c →
    ∃ t, exec (.health id) s = .next t ∧ Succeeded [] s t id c (resultAt [(0x0C, 4, 7552)]) ∧ HostHolds s t c.port (c.field 0x10 8) s.healthLog ∧
      t.media = s.media.endCmd id) ∧
  (∀ (s : State) (id : Nat) (c : Cmd), Runs s id 0x0903 c → 14224 + 40 * s.loadedModels.length ≤ c.field 0x38 4 →
    ∃ t, exec (.attest id) s = .next t ∧ Succeeded [] s t id c (resultAt [(0x0C, 4, 14224 + 40 * s.loadedModels.length)]) ∧
      HostHolds s t c.port (c.field 0x30 8) (s.signedReport ((c.pkt.drop 0x10).take 32)) ∧ t.media = s.media.endCmd id)

/-! ## Volumes and blocks (13 R423 to R426). -/

/-- Volumes: VOLUME_CREATE makes one with a fresh key and completes once the security block holds it (17 R540); VOLUME_DELETE destroys the key, drops every copy and records a
MAP_CLEAR for each mapped stripe, and completes once they have committed and no block holds the key (02 R87; 17 R549); READ gives the newest copies of its sectors, zeros where none
stands (02 R54; 13 R423, R425). WRITE, DEALLOCATE and FLUSH (13 R425, R426; 02 R58, R83, R84): a WRITE is admitted against the budget, sends its sectors to the veneer when its data is whole, and completes
when every one of them is acknowledged; a DEALLOCATE records a MAP_CLEAR for each whole stripe; a FLUSH completes once no earlier WRITE or DEALLOCATE of its volume is in progress. -/
def Obligations.VolumesReadsWrites : Prop :=
  (∀ (s : State) (id : Nat) (c : Cmd), Runs s id 0x010A c → c.stage = 0 → s.earlierOn c c.object (fun op => op = 0x010B || op = 0x0204) = false → s.volLocked c.object = false →
    Tab.find s.media.volumes c.object = none → (∀ e ∈ s.media.map, e.2.owner ≠ c.object) →
    ∃ t, exec (.volumeCreate id) s = .next t ∧ Waits [.media, .sec] s t id { c with stage := 1, aux := [s.sec.pages.seq + 1] } ∧
      Tab.find t.media.volumes c.object = some ⟨c.field 0x10 8, s.media.keys⟩ ∧ (∀ v, v ≠ c.object → Tab.find t.media.volumes v = Tab.find s.media.volumes v) ∧
      t.media = { s.media with volumes := t.media.volumes, keys := s.media.keys + 1 } ∧ t.sec = { s.sec with pages := { s.sec.pages with seq := s.sec.pages.seq + 1 } }) ∧
  (∀ (s : State) (id : Nat) (c : Cmd), Runs s id 0x010A c → c.stage = 1 → s.secured (c.aux.headD 0) = true →
    ∃ t, exec (.volumeCreate id) s = .next t ∧ Succeeded [] s t id c [] ∧ t.media = s.media.endCmd id ∧ HostSame s t) ∧
  (∀ (s : State) (id : Nat) (c : Cmd) (v : Volume), Runs s id 0x010B c → c.stage = 0 → Tab.find s.media.volumes c.object = some v → c.volGone = false →
    s.volLocked c.object = false → s.earlierOn c c.object (fun _ => true) = false →
    ∃ t, exec (.volumeDelete id) s = .next t ∧ Waits [.media, .health, .sec] s t id { c with stage := 2, aux := [t.media.jNext - 1, s.sec.pages.seq + 1] } ∧
      Tab.find t.media.volumes c.object = none ∧ (∀ w, w ≠ c.object → Tab.find t.media.volumes w = Tab.find s.media.volumes w) ∧
      (∀ k, k ∈ t.media.veneer ↔ k ∈ s.media.veneer ∧ k.owner ≠ c.object) ∧ (∀ k ∈ t.media.pend, k.copy.owner ≠ c.object) ∧
      (∀ e ∈ s.media.map, e.2.owner = c.object → ∃ r ∈ t.media.jPend, r.type = .mapClear ∧ r.lstripe = e.1) ∧ t.media.map = s.media.map ∧
      (∀ e ∈ t.health.unc, e.owner ≠ c.object) ∧ (∀ k ∈ s.sec.pages.held, k ∈ t.sec.pages.old ∧ k ∈ t.media.badBlocks)) ∧
  (∀ (s : State) (id : Nat) (c : Cmd), Runs s id 0x010B c → c.stage = 2 → c.aux.headD 0 ≤ s.media.jDone → s.keysGone (c.aux.getD 1 0) = true →
    ∃ t, exec (.volumeDelete id) s = .next t ∧ Succeeded [] s t id c [] ∧ t.media = s.media.endCmd id ∧ HostSame s t) ∧
  (∀ (s : State) (id : Nat) (c : Cmd), Runs s id 0x0201 c → s.flushWaits c c.object = false → s.volumeError c c.object (c.field 0x10 8) (c.field 0x18 4) = none →
    c.field 0x1C 4 = 0 → (∀ i < c.field 0x18 4, s.media.twiceLost c.object (c.field 0x10 8 + i) = false) →
    s.spotsReady true (s.media.spotsOf c.object ((List.range (c.field 0x18 4)).map (c.field 0x10 8 + ·))) = true →
    ∃ t, exec (.read id [] false) s = .next t ∧ Succeeded [.dies, .health] s t id c (resultAt [(0x0C, 4, c.field 0x18 4)]) ∧
      HostHolds s t c.port (c.field 0x20 8) ((List.range (c.field 0x18 4)).flatMap (fun i => s.media.sector c.object (c.field 0x10 8 + i))) ∧
      (∀ d : DieNo, (t.die d).cells = (s.die d).cells) ∧ t.health = { s.health with counts := t.health.counts }) ∧
  (∀ (s : State) (id : Nat) (bad : List Nat) (c : Cmd), Runs s id 0x0201 c → s.flushWaits c c.object = false → s.volumeError c c.object (c.field 0x10 8) (c.field 0x18 4) = none →
    s.readListOk c = true → s.spotsReady true (s.media.spotsOf c.object ((List.range (c.field 0x18 4)).map (c.field 0x10 8 + ·))) = false →
    exec (.read id bad false) s = .next s) ∧
  (∀ (s : State) (id : Nat) (bad : List Nat) (c : Cmd), Runs s id 0x0201 c → s.flushWaits c c.object = false →
    s.volumeError c c.object (c.field 0x10 8) (c.field 0x18 4) = none → s.readListOk c = true →
    ∃ t, exec (.read id bad true) s = .next t ∧ Failed s t id c .mediaFault) ∧
  (∀ (s : State) (id : Nat) (c : Cmd) (m : Media), Runs s id 0x0202 c → c.stage = 0 → s.flushWaits c c.object = false →
    s.volumeError c c.object (c.field 0x10 8) (c.field 0x18 4) = none →
    s.media.takeRoom s.now id (stripesOf c.object (c.field 0x10 8) (c.field 0x18 4)) = some m →
    ∃ t, exec (.write id) s = .next t ∧ t.media = m ∧ t.cmd? id = some { c with stage := 1, aux := [], need := 4096 * c.field 0x18 4 } ∧ HostSame s t ∧ Frame [.host, .media] s t) ∧
  (∀ (s : State) (id : Nat) (c : Cmd), Runs s id 0x0202 c → c.stage = 1 → c.need ≤ c.got →
    ∃ t, exec (.write id) s = .next t ∧ t.cmd? id = some { c with stage := 2, aux := [] } ∧
      t.media.pend = s.media.pend ++ (List.range (c.field 0x18 4)).map (fun i =>
        ⟨some id, ⟨s.media.writeSeq + pageOf (stripeSectors c.object) (c.field 0x10 8) i, c.object, c.field 0x10 8 + i, false,
          Mem.write 0 [] 0 (Mem.read 0 c.data (4096 * i) 4096), s.media.keyOf c.object⟩, none⟩) ∧
      t.media.veneer = s.media.veneer ∧ t.media.map = s.media.map ∧ HostSame s t ∧ Frame [.host, .media] s t) ∧
  (∀ (s : State) (id : Nat) (c : Cmd), Runs s id 0x0202 c → c.stage = 2 → s.acknowledged id = true →
    ∃ t, exec (.write id) s = .next t ∧ Succeeded [.health] s t id c [] ∧ t.health.hostBytes = s.health.hostBytes + 4096 * c.field 0x18 4 ∧
      (∀ e ∈ t.health.unc, ¬ (e.owner = c.object ∧ c.field 0x10 8 ≤ e.sector ∧ e.sector < c.field 0x10 8 + c.field 0x18 4)) ∧ t.media = s.media.endCmd id ∧ HostSame s t) ∧
  (∀ (s : State) (id : Nat) (c : Cmd), Runs s id 0x0203 c → c.stage = 0 → s.flushWaits c c.object = false →
    s.volumeError c c.object (c.field 0x10 8) (c.field 0x20 8) = none → s.media.wholeStripes c.object (c.field 0x10 8) (c.field 0x20 8) ≠ [] →
    ∃ t, exec (.deallocate id) s = .next t ∧ t.cmd? id = some { c with stage := 1, aux := [t.media.jNext - 1] } ∧
      t.media.jNext = s.media.jNext + (s.media.wholeStripes c.object (c.field 0x10 8) (c.field 0x20 8)).length ∧
      t.media.veneer = s.media.veneer ∧ t.media.map = s.media.map ∧ HostSame s t ∧ Frame [.host, .media] s t) ∧
  (∀ (s : State) (id : Nat) (c : Cmd), Runs s id 0x0203 c → c.stage ≠ 0 → c.aux.headD 0 ≤ s.media.jDone → s.acknowledged id = true →
    ∃ t, exec (.deallocate id) s = .next t ∧ Succeeded [.health] s t id c [] ∧ t.media = s.media.endCmd id ∧ HostSame s t) ∧
  (∀ (s : State) (id : Nat) (c : Cmd), Runs s id 0x0204 c → c.stage = 0 → s.flushWaits c c.object = false → s.volumeError c c.object 0 0 = none →
    s.earlierOn c c.object (fun op => op = 0x0202 || op = 0x0203) = false →
    ∃ t, exec (.flush id) s = .next t ∧ Succeeded [] s t id c [] ∧ t.media = s.media.endCmd id ∧ HostSame s t)


/-! ## Threads (06). -/

/-- The scalar arithmetic operations: the thread passes its record and DST takes the result, modulo 2^64 with shift counts modulo 64; nothing else changes (06 R213, R214). Scalar accesses at s[SRC1] + IMM (06 R188, R192, R214): a load brings WIDTH bytes, zero- or sign-extended; a store puts the low WIDTH bytes of s[SRC2] there and touches
no other byte; an atomic gives the old value and writes what AOP asks. -/
def Obligations.ScalarOperations : Prop :=
  (Computes .scAdd 0x0801 (fun a b => BitVec.ofNat 64 (a.toNat + b.toNat)) ∧
  Computes .scSub 0x0802 (fun a b => BitVec.ofInt 64 (a.toInt - b.toInt)) ∧
  Computes .scMul 0x0803 (fun a b => BitVec.ofNat 64 (a.toNat * b.toNat)) ∧
  Computes .scDivu 0x0804 (fun a b => if b.toNat = 0 then BitVec.allOnes 64 else BitVec.ofNat 64 (a.toNat / b.toNat)) ∧
  Computes .scRemu 0x0805 (fun a b => if b.toNat = 0 then a else BitVec.ofNat 64 (a.toNat % b.toNat)) ∧
  Computes .scAnd 0x0806 (fun a b => a &&& b) ∧
  Computes .scOr 0x0807 (fun a b => a ||| b) ∧
  Computes .scXor 0x0808 (fun a b => a ^^^ b) ∧
  Computes .scShl 0x0809 (fun a b => BitVec.ofNat 64 (a.toNat * 2 ^ (b.toNat % 64))) ∧
  Computes .scShr 0x080A (fun a b => BitVec.ofNat 64 (a.toNat / 2 ^ (b.toNat % 64))) ∧
  Computes .scSar 0x080B (fun a b => BitVec.ofInt 64 (a.toInt / 2 ^ (b.toNat % 64))) ∧
  Computes .scMin 0x080C (fun a b => BitVec.ofInt 64 (min a.toInt b.toInt)) ∧
  Computes .scMax 0x080D (fun a b => BitVec.ofInt 64 (max a.toInt b.toInt)) ∧
  Computes .scSlt 0x080E (fun a b => if a.toInt < b.toInt then 1#64 else 0#64) ∧
  (∀ (s : State) (n : Nat) (th : Thread) (r : BitVec 256), Issues s n 0x080F [] th r →
    ∃ t, exec (.scMovi n) s = .next t ∧ OnlyThreads s t ∧ Ran s t n th ((passed th 0x080F).setReg (fld r 32 5) (BitVec.ofNat 64 (fld r 48 64))))) ∧
  (∀ (s : State) (n : Nat) (th : Thread) (r : BitVec 256) (p : Place), Issues s n 0x0810 (scRanges th r) th r → scAddr th r % scWidth r = 0 →
    s.resolve th (scAddr th r) (scWidth r) .load = .ok [(p, scWidth r)] → s.absentTiles (scAddr th r) (scWidth r) = [] →
    s.placeBad th p (scWidth r) = false →
    ∃ t, exec (.scLd n) s = .next t ∧ Ran s t n th ((passed th 0x0810).setReg (fld r 32 5)
        (if flag r 116 then BitVec.ofInt 64 (signedOf (8 * scWidth r) (leNat (s.placeRead th p (scWidth r)))) else BitVec.ofNat 64 (leNat (s.placeRead th p (scWidth r))))) ∧
      BytesSame s t ∧ Frame [.compute, .tiers] s t) ∧
  (∀ (s : State) (n : Nat) (th : Thread) (r : BitVec 256) (p : Place), Issues s n 0x0811 (scRanges th r) th r → scAddr th r % scWidth r = 0 →
    s.resolve th (scAddr th r) (scWidth r) .store = .ok [(p, scWidth r)] → ClearOfCaches s p (scWidth r) → s.absentTiles (scAddr th r) (scWidth r) = [] → (bitOf (fld r 114 2) 1 = true → th.flights = []) →
    ∃ t, exec (.scSt n) s = .next t ∧ Stored s t th p (leBytes (scWidth r) (th.reg (fld r 42 5)).toNat) ∧ t.thread? n = some (passed th 0x0811) ∧
      (∀ k, k ≠ n → t.thread? k = s.thread? k) ∧ Frame [.compute, .tiers, .integ] s t) ∧
  (∀ (s : State) (n : Nat) (th : Thread) (r : BitVec 256) (p : Place) (old : Nat), Issues s n 0x0812 (scRanges th r) th r → scAddr th r % scWidth r = 0 →
    s.resolve th (scAddr th r) (scWidth r) .atom = .ok [(p, scWidth r)] → ClearOfCaches s p (scWidth r) → s.absentTiles (scAddr th r) (scWidth r) = [] → (bitOf (fld r 114 2) 1 = true → th.flights = []) →
    s.placeBad th p (scWidth r) = false → old = leNat (s.placeRead th p (scWidth r)) →
    ∃ t, exec (.scAtom n) s = .next t ∧ t.thread? n = some ((passed th 0x0812).setReg (fld r 32 5) (BitVec.ofNat 64 old)) ∧
      (∀ k, k ≠ n → t.thread? k = s.thread? k) ∧
      (fld r 117 3 = 0 → Stored s t th p (leBytes (scWidth r) (old + (th.reg (fld r 42 5)).toNat))) ∧
      (fld r 117 3 = 1 → Stored s t th p (leBytes (scWidth r) (th.reg (fld r 42 5)).toNat)) ∧
      (fld r 117 3 = 2 → old = (th.reg (fld r 32 5)).toNat % 2 ^ (8 * scWidth r) → Stored s t th p (leBytes (scWidth r) (th.reg (fld r 42 5)).toNat)) ∧
      (fld r 117 3 = 2 → old ≠ (th.reg (fld r 32 5)).toNat % 2 ^ (8 * scWidth r) → BytesSame s t) ∧
      (fld r 117 3 = 3 → Stored s t th p (leBytes (scWidth r) (wrapTo (8 * scWidth r) (max (signedOf (8 * scWidth r) old) (signedOf (8 * scWidth r) (th.reg (fld r 42 5)).toNat))))) ∧
      (fld r 117 3 = 4 → Stored s t th p (leBytes (scWidth r) (wrapTo (8 * scWidth r) (min (signedOf (8 * scWidth r) old) (signedOf (8 * scWidth r) (th.reg (fld r 42 5)).toNat))))) ∧
      Frame [.compute, .tiers, .integ] s t)

/-- Control flow (06 R183, R212): branches by OFFSET from the record, conditions, the loop counter, the call stack, and the end of a thread and of its job. Synchronisation (06 R184 to R186, R192, R195, R198, R199): fences and waits pass, semaphores are taken, waited for, granted and released, a barrier holds its
threads until the last has arrived, and an unbind lets engine contexts go. -/
def Obligations.ControlAndSynchronisation : Prop :=
  (∀ (s : State) (n : Nat) (th : Thread) (r : BitVec 256), Issues s n 0x0701 [] th r →
    ∃ t, exec (.cfBr n) s = .next t ∧ OnlyThreads s t ∧ Ran s t n th { passed th 0x0701 with pc := target th.pc r }) ∧
  (∀ (s : State) (n : Nat) (th : Thread) (r : BitVec 256) (a b : W64), Issues s n 0x0702 [] th r → a = th.reg (fld r 64 5) →
    b = (if flag r 77 then BitVec.ofNat 64 (fld r 78 64) else th.reg (fld r 69 5)) →
    ∃ t x, exec (.cfBrc n) s = .next t ∧ OnlyThreads s t ∧ Ran s t n th x ∧ x = { passed th 0x0702 with pc := x.pc } ∧
      (fld r 74 3 = 0 → x.pc = if a.toNat = b.toNat then target th.pc r else th.pc + 1) ∧ (fld r 74 3 = 1 → x.pc = if a.toNat ≠ b.toNat then target th.pc r else th.pc + 1) ∧
      (fld r 74 3 = 2 → x.pc = if a.toInt < b.toInt then target th.pc r else th.pc + 1) ∧ (fld r 74 3 = 3 → x.pc = if a.toInt ≤ b.toInt then target th.pc r else th.pc + 1) ∧
      (fld r 74 3 = 4 → x.pc = if b.toInt < a.toInt then target th.pc r else th.pc + 1) ∧ (fld r 74 3 = 5 → x.pc = if b.toInt ≤ a.toInt then target th.pc r else th.pc + 1) ∧
      (fld r 74 3 = 6 → x.pc = if a.toNat < b.toNat then target th.pc r else th.pc + 1) ∧ (fld r 74 3 = 7 → x.pc = if b.toNat ≤ a.toNat then target th.pc r else th.pc + 1)) ∧
  (∀ (s : State) (n : Nat) (th : Thread) (r : BitVec 256) (v : W64), Issues s n 0x0703 [] th r → v = th.reg (fld r 64 5) - 1#64 →
    ∃ t, exec (.cfLoop n) s = .next t ∧ OnlyThreads s t ∧
      Ran s t n th { (passed th 0x0703).setReg (fld r 64 5) v with pc := if v ≠ 0#64 then target th.pc r else th.pc + 1 }) ∧
  (∀ (s : State) (n : Nat) (th : Thread) (r : BitVec 256), Issues s n 0x0704 [] th r → th.calls.length < 16 →
    ∃ t, exec (.cfCall n) s = .next t ∧ OnlyThreads s t ∧ Ran s t n th { passed th 0x0704 with calls := (th.pc + 1) :: th.calls, pc := target th.pc r }) ∧
  (∀ (s : State) (n : Nat) (th : Thread) (r : BitVec 256) (p : Nat) (ps : List Nat), Issues s n 0x0705 [] th r → th.calls = p :: ps →
    ∃ t, exec (.cfRet n) s = .next t ∧ OnlyThreads s t ∧ Ran s t n th { passed th 0x0705 with calls := ps, pc := p }) ∧
  (∀ (s : State) (n : Nat) (th : Thread) (r : BitVec 256), Issues s n 0x0706 [] th r → th.held = [] → th.flights = [] →
    (∃ k x, k ≠ n ∧ s.thread? k = some x ∧ x.job = th.job ∧ x.st ≠ .ended) →
    ∃ t x, exec (.cfEnd n) s = .next t ∧ Ran s t n th x ∧ x = { passed th 0x0706 with st := .ended, handles := x.handles } ∧
      (∀ h < 8, (x.handle h).ctx = none ∧ ∀ k, (th.handle h).ctx = some k → Tab.find t.compute.ctxs k = none) ∧ Frame [.compute] s t) ∧
  (∀ (s : State) (n : Nat) (th : Thread) (r : BitVec 256), Issues s n 0x0706 [] th r → th.held = [] → th.flights = [] →
    (∀ e ∈ s.compute.threads, e.2.job = th.job → e.1 ≠ n → e.2.st = .ended) →
    ∃ t, exec (.cfEnd n) s = .next t ∧ Stops t th.job .success) ∧
  (∀ (s : State) (n : Nat) (th : Thread) (r : BitVec 256), Issues s n 0x0707 [] th r →
    ∃ t, exec (.cfTrap n) s = .next t ∧ Stops t th.job .moduleInvalid ∧
      (∀ x, t.job? th.job = some x → x.fault.isSome = true ∧ ((s.job? th.job).bind (·.fault) = none → x.fault = some (0xA, fld r 32 16, th.index, th.pc)))) ∧
  (∀ (s : State) (n : Nat) (th : Thread) (r : BitVec 256), Issues s n 0x0601 [] th r → (fld r 32 2 = 0 ∨ th.flights = []) →
    ∃ t, exec (.syFence n) s = .next t ∧ OnlyThreads s t ∧ Ran s t n th (passed th 0x0601)) ∧
  (∀ (s : State) (n : Nat) (th : Thread) (r : BitVec 256), Issues s n 0x0602 [] th r →
    ∃ t, exec (.syWait n) s = .next t ∧ OnlyThreads s t ∧ Ran s t n th (passed th 0x0602)) ∧
  (∀ (s : State) (n : Nat) (th : Thread) (r : BitVec 256) (k : Nat) (x : Sem), Issues s n 0x0603 [] th r → k = s.semKey th (fld r 32 12) → th.held.length < 4 →
    (∀ h ∈ th.held, h.sem < k) → Tab.find s.compute.sems k = some x → x.waiters = [] → fld r 44 16 ≤ x.count →
    ∃ t, exec (.sySemAcq n) s = .next t ∧ Tab.find t.compute.sems k = some { x with count := x.count - fld r 44 16, broken := false } ∧
      (∀ j, j ≠ k → Tab.find t.compute.sems j = Tab.find s.compute.sems j) ∧
      Ran s t n th { (passed th 0x0603).setReg (fld r 60 5) (if x.broken then 1#64 else 0#64) with st := .ready, held := th.held ++ [⟨k, fld r 44 16, 0⟩] } ∧ Frame [.compute] s t) ∧
  (∀ (s : State) (n : Nat) (th : Thread) (r : BitVec 256) (k : Nat) (x : Sem), Issues s n 0x0603 [] th r → k = s.semKey th (fld r 32 12) → th.held.length < 4 →
    (∀ h ∈ th.held, h.sem < k) → Tab.find s.compute.sems k = some x → x.waiters = [] → x.count < fld r 44 16 →
    ∃ t w, exec (.sySemAcq n) s = .next t ∧ Tab.find t.compute.sems k = some { x with waiters := [w] } ∧ w.thread = n ∧ w.count = fld r 44 16 ∧
      w.brokenReg = fld r 60 5 ∧ (∀ j, j ≠ k → Tab.find t.compute.sems j = Tab.find s.compute.sems j) ∧ Ran s t n th { passed th 0x0603 with st := .semWait k } ∧ Frame [.compute] s t) ∧
  (∀ (s : State) (n : Nat) (th : Thread) (r : BitVec 256) (k : Nat) (x : Sem), Issues s n 0x0604 [] th r → th.flights = [] → k = s.semKey th (fld r 32 12) →
    (∃ h ∈ th.held, h.sem = k) → Tab.find s.compute.sems k = some x → x.count + fld r 44 16 ≤ x.maximum →
    ∃ t y, exec (.sySemRel n) s = .next t ∧ Tab.find t.compute.sems k = some { x with count := x.count + fld r 44 16 } ∧
      (∀ j, j ≠ k → Tab.find t.compute.sems j = Tab.find s.compute.sems j) ∧ Ran s t n th y ∧ y = { passed th 0x0604 with held := y.held } ∧
      y.held = releaseHold k (fld r 44 16) th.held ∧ Frame [.compute] s t) ∧
  (∀ (s : State) (k : Nat) (x : Sem) (w : SemWaiter) (th : Thread), Tab.find s.compute.sems k = some x → x.waiters = [w] → w.count ≤ x.count → s.thread? w.thread = some th →
    ∃ t, exec (.semaphoreGrant k) s = .next t ∧ Tab.find t.compute.sems k = some { x with count := x.count - w.count, broken := false, waiters := [] } ∧
      t.thread? w.thread = some { th.setReg w.brokenReg (if x.broken then 1#64 else 0#64) with st := .ready, held := th.held ++ [⟨k, w.count, 0⟩] } ∧
      (∀ j, j ≠ w.thread → t.thread? j = s.thread? j) ∧ (∀ j, j ≠ k → Tab.find t.compute.sems j = Tab.find s.compute.sems j) ∧ Frame [.compute] s t) ∧
  (∀ (s : State) (k : Nat) (x : Sem) (w : SemWaiter) (ws : List SemWaiter), Tab.find s.compute.sems k = some x → sortBy s.waiterBefore x.waiters = w :: ws → x.count < w.count →
    exec (.semaphoreGrant k) s = .next s) ∧
  (∀ (s : State) (n : Nat) (th : Thread) (r : BitVec 256), Issues s n 0x0605 [] th r → th.flights = [] →
    ∃ t, exec (.syBarrier n) s = .next t ∧ OnlyThreads s t ∧ Ran s t n th { passed th 0x0605 with st := .barrierWait (flag r 36) (fld r 32 4) }) ∧
  (∀ (s : State) (j : Nat) (g : Option Nat) (b : Fin 16), s.participants j g ≠ [] → (∀ e ∈ s.participants j g, e.2.st = .barrierWait g.isNone b.val) →
    ∃ t, exec (.barrierComplete j g b) s = .next t ∧ (∀ n th, s.thread? n = some th → th.job = j → (g = none ∨ g = some th.gang) → th.st = .barrierWait g.isNone b.val →
        t.thread? n = some { th with st := .ready }) ∧
      (∀ n th, s.thread? n = some th → (th.job ≠ j ∨ th.st ≠ .barrierWait g.isNone b.val ∨ (g ≠ none ∧ g ≠ some th.gang)) → t.thread? n = some th) ∧
      t.compute = { s.compute with threads := t.compute.threads } ∧ Frame [.compute] s t) ∧
  (∀ (s : State) (j : Nat) (g : Option Nat) (b : Fin 16), (∃ e ∈ s.participants j g, e.2.st ≠ .barrierWait g.isNone b.val) → exec (.barrierComplete j g b) s = .next s) ∧
  (∀ (s : State) (n : Nat) (th : Thread) (r : BitVec 256), Issues s n 0x0606 [] th r → th.ready (fld r 32 8) = true → (∀ h ∈ maskHandles (fld r 32 8), s.ctxWorking n h = false) →
    ∃ t x, exec (.syUnbind n) s = .next t ∧ Ran s t n th x ∧ x = { passed th 0x0606 with handles := x.handles } ∧
      (∀ h ∈ maskHandles (fld r 32 8), (x.handle h).ctx = none ∧ ∀ k, (th.handle h).ctx = some k → Tab.find t.compute.ctxs k = none) ∧
      (∀ h, h ∉ maskHandles (fld r 32 8) → x.handle h = th.handle h) ∧ Frame [.compute] s t)

/-- Faults (06 R195, R197, R215, R216): the operation that faults has no effect of its own and its job stops with MODULE_INVALID. -/
def Obligations.OperationsFault : Prop :=
  (∀ (s : State) (n : Nat) (th : Thread) (r : BitVec 256), Issues s n 0x0704 [] th r → 16 ≤ th.calls.length →
    ∃ t, exec (.cfCall n) s = .next t ∧ Stops t th.job .moduleInvalid ∧ ∀ y, t.thread? n = some y → y.job = th.job → y.calls = th.calls ∧ y.pc = th.pc) ∧
  (∀ (s : State) (n : Nat) (th : Thread) (r : BitVec 256), Issues s n 0x0705 [] th r → th.calls = [] →
    ∃ t, exec (.cfRet n) s = .next t ∧ Stops t th.job .moduleInvalid ∧ ∀ y, t.thread? n = some y → y.job = th.job → y.pc = th.pc) ∧
  (∀ (s : State) (n : Nat) (th : Thread) (r : BitVec 256), Issues s n 0x0706 [] th r → th.held ≠ [] →
    ∃ t, exec (.cfEnd n) s = .next t ∧ Stops t th.job .moduleInvalid ∧ ∀ y, t.thread? n = some y → y.job = th.job → y.st ≠ .ended) ∧
  (∀ (s : State) (n : Nat) (th : Thread) (r : BitVec 256), s.issuing n 0x0605 = some (th, r) → th.held ≠ [] →
    ∃ t, exec (.syBarrier n) s = .next t ∧ Stops t th.job .moduleInvalid ∧ ∀ y, t.thread? n = some y → y.job = th.job → y.st = .ready) ∧
  (∀ (s : State) (n : Nat) (th : Thread) (r : BitVec 256), Issues s n 0x0603 [] th r → (4 ≤ th.held.length ∨ ∃ h ∈ th.held, s.semKey th (fld r 32 12) ≤ h.sem) →
    ∃ t, exec (.sySemAcq n) s = .next t ∧ Stops t th.job .moduleInvalid ∧ ∀ y, t.thread? n = some y → y.job = th.job → y.st = .ready) ∧
  (∀ (s : State) (n : Nat) (th : Thread) (r : BitVec 256), Issues s n 0x0604 [] th r → th.flights = [] → (∀ h ∈ th.held, h.sem ≠ s.semKey th (fld r 32 12)) →
    ∃ t, exec (.sySemRel n) s = .next t ∧ Stops t th.job .moduleInvalid) ∧
  (∀ (s : State) (n : Nat) (th : Thread) (r : BitVec 256), s.issuing n 0x0201 = some (th, r) → (∃ h ∈ th.held, 256 ≤ h.ops) →
    ∃ t, exec (.add n) s = .next t ∧ Stops t th.job .moduleInvalid) ∧
  (∀ (s : State) (n : Nat) (th : Thread) (r : BitVec 256), Issues s n 0x0810 (scRanges th r) th r → scAddr th r % scWidth r ≠ 0 →
    ∃ t, exec (.scLd n) s = .next t ∧ Stops t th.job .moduleInvalid ∧ ∀ y, t.thread? n = some y → y.job = th.job → y.regs = th.regs)

/-- `SY_UNBIND` of a handle whose count is not zero waits until the count reaches zero (06 R186). -/
def Obligations.UnbindWaits : Prop :=
  ∀ (s : State) (n : Nat) (th : Thread) (r : BitVec 256) (h : Nat), s.issuing n 0x0606 = some (th, r) → h < 8 → bitOf (fld r 32 8) h = true → (th.handle h).count ≠ 0 →
    exec (.syUnbind n) s = .next s


/-! ## Matrix engines, vector and selection units (03, 04). -/

/-- Bit-serial results (03 R93): the sum over bit planes, the top plane subtracted for signed elements, is the sum of products of stored values and streamed elements. -/
def Obligations.BitPlanesMultiply : Prop :=
  ∀ (sgn : Bool) (p : Nat) (ws : List Int) (xs : List Nat), 1 ≤ p → (∀ x ∈ xs, x < 2 ^ p) →
    planes sgn p ws xs = (List.zipWith (fun (w : Int) (x : Nat) => w * (if sgn then signedOf p x else (x : Int))) ws xs).foldl (· + ·) 0

/-- MM operations are queued in order to the engine context their handle is bound to, the streamed bytes noted, their handle set; a handle not yet bound is bound to a new
context of the gang's core (03 R97; 06 R184, R185, R190, R204, R205). An engine at work (03 R97, R98, R105, R110 to R112; 04 R131, R132): cycle 0 starts a run of B × p′ + 40 cycles, a shadow load of 48 or an emission; the last cycle leaves the
results in the drain; a load's end writes the shadow tile; an emission's end writes what it emits and lets it go; an error of the accumulator file
fails the check of its job (14 R461); and the vector unit removes one filled entry of the queues of finished tiles. -/
def Obligations.MatrixOperations : Prop :=
  (∀ (s : State) (n : Nat) (th : Thread) (r : BitVec 256) (k : Nat) (x : Ctx), Issues s n 0x0101 (s.mmRanges n th r) th r →
    s.bregFault th r (mmPieces r (bregBase th r)) = none → (th.handle (handleOf r)).ctx = some k → Tab.find s.compute.ctxs k = some x →
    ∃ t y o, exec (.mmRun n) s = .next t ∧ Tab.find t.compute.ctxs k = some y ∧ y = { x with queue := x.queue ++ [o], engine := y.engine, since := y.since } ∧
      (x.engine.isSome = true → y.engine = x.engine ∧ y.since = x.since) ∧
      o = ⟨s.compute.nextIdent, n, th.pc, r, bregBase th r, s.benchRead n (benchField (bregBase th r) 1024 (mmXLine r)) (mmXBytes r)⟩ ∧
      (∀ j, j ≠ k → Tab.find t.compute.ctxs j = Tab.find s.compute.ctxs j) ∧
      Ran s t n th { (passed th 0x0101).setting r .mm with flights := th.flights ++ [⟨s.compute.nextIdent, s.mmRanges n th r⟩] } ∧
      BytesSame s t ∧ Frame [.compute, .integ, .health] s t) ∧
  (∀ (s : State) (n : Nat) (th : Thread) (r : BitVec 256) (g : Gang), Issues s n 0x0101 (s.mmRanges n th r) th r →
    s.bregFault th r (mmPieces r (bregBase th r)) = none → (th.handle (handleOf r)).ctx = none → s.gangOf? th = some g →
    ∃ t y, exec (.mmRun n) s = .next t ∧ Tab.find t.compute.ctxs s.compute.nextCtx = some y ∧ y.core = g.core ∧ y.thread = n ∧ y.handle = handleOf r ∧ y.queue.length = 1 ∧
      (∀ o ∈ y.queue, o.rcd = r ∧ o.thread = n ∧ o.pc = th.pc) ∧ y.running = none ∧ y.loads = [] ∧ y.emissions = [] ∧
      (∃ z, t.thread? n = some z ∧ (z.handle (handleOf r)).ctx = some s.compute.nextCtx ∧ z.pc = th.pc + 1) ∧
      (∀ j, j ≠ s.compute.nextCtx → Tab.find t.compute.ctxs j = Tab.find s.compute.ctxs j) ∧ (∀ j, j ≠ n → t.thread? j = s.thread? j) ∧
      BytesSame s t ∧ Frame [.compute, .integ, .health, .freeCtr] s t) ∧
  (∀ (s : State) (n : Nat) (th : Thread) (r : BitVec 256) (k : Nat) (x : Ctx), Issues s n 0x0102 (s.mmRanges n th r) th r →
    s.bregFault th r (mmPieces r (bregBase th r)) = none → (th.handle (handleOf r)).ctx = some k → Tab.find s.compute.ctxs k = some x → x.queue ≠ [] →
    ∃ t y o, exec (.mmLoad n) s = .next t ∧ Tab.find t.compute.ctxs k = some y ∧ y = { x with queue := x.queue ++ [o], engine := y.engine, since := y.since } ∧
      o = ⟨s.compute.nextIdent, n, th.pc, r, bregBase th r, []⟩ ∧ (∀ j, j ≠ k → Tab.find t.compute.ctxs j = Tab.find s.compute.ctxs j) ∧
      Ran s t n th { (passed th 0x0102).setting r .mm with flights := th.flights ++ [⟨s.compute.nextIdent, s.mmRanges n th r⟩] } ∧
      BytesSame s t ∧ Frame [.compute, .integ, .health] s t) ∧
  (∀ (s : State) (n : Nat) (th : Thread) (r : BitVec 256) (k : Nat) (x : Ctx), Issues s n 0x0103 (s.mmRanges n th r) th r →
    s.bregFault th r (mmPieces r (bregBase th r)) = none → (th.handle (handleOf r)).ctx = some k → Tab.find s.compute.ctxs k = some x →
    ∃ t y o, exec (.mmEmit n) s = .next t ∧ Tab.find t.compute.ctxs k = some y ∧ y = { x with queue := x.queue ++ [o], engine := y.engine, since := y.since } ∧
      o = ⟨s.compute.nextIdent, n, th.pc, r, bregBase th r, []⟩ ∧ (∀ j, j ≠ k → Tab.find t.compute.ctxs j = Tab.find s.compute.ctxs j) ∧
      Ran s t n th { (passed th 0x0103).setting r .mm with flights := th.flights ++ [⟨s.compute.nextIdent, s.mmRanges n th r⟩] } ∧
      BytesSame s t ∧ Frame [.compute, .integ, .health] s t) ∧
  (∀ (s : State) (c : CoreNo) (e : EngNo) (k : Nat) (x : Ctx) (mm : MmOp) (rest : List MmOp) (th : Thread) (g : Gang), s.ctxOn c e = some (k, x) → Tab.find s.compute.ctxs k = some x →
    x.queue = mm :: rest → x.running = none → s.thread? mm.thread = some th → s.jobRuns th.job = true → s.gangOf? th = some g → g.preempted = false →
    s.tileRoom c e mm = true → s.mmFault k x mm = none → opcodeOf mm.rcd = 0x0101 → mmLoadNext mm.rcd = false → (mmSwap mm.rcd = true → x.loads = []) → x.slotsPending mm.rcd = false →
    ∃ t y, exec (.mmCycle0 c e) s = .next t ∧ Tab.find t.compute.ctxs k = some y ∧ y.queue = rest ∧
      y.running = some (mm, s.now + (mmB mm.rcd * mmP' mm.rcd + 40) * arrayUnits) ∧ y.loads = x.loads ∧ y.emissions = x.emissions ∧ y.engine = x.engine ∧
      (mmSwap mm.rcd = true → y.active = x.shadow ∧ y.shadow = x.active) ∧ (mmSwap mm.rcd = false → y.active = x.active ∧ y.shadow = x.shadow) ∧
      (∀ j, j ≠ k → Tab.find t.compute.ctxs j = Tab.find s.compute.ctxs j) ∧ t.compute.threads = s.compute.threads ∧ t.compute.jobs = s.compute.jobs ∧
      BytesSame s t ∧ Frame [.compute, .integ, .health, .freeCtr] s t) ∧
  (∀ (s : State) (c : CoreNo) (e : EngNo) (k : Nat) (x : Ctx) (mm : MmOp) (rest : List MmOp) (th : Thread) (g : Gang), s.ctxOn c e = some (k, x) → Tab.find s.compute.ctxs k = some x →
    x.queue = mm :: rest → x.running = none → s.thread? mm.thread = some th → s.jobRuns th.job = true → s.gangOf? th = some g → g.preempted = false →
    s.tileRoom c e mm = true → s.mmFault k x mm = none → opcodeOf mm.rcd = 0x0102 → x.loads = [] →
    ∃ t, exec (.mmCycle0 c e) s = .next t ∧ Tab.find t.compute.ctxs k = some { x with queue := rest, loads := [(mm, s.now + 48 * arrayUnits)] } ∧
      (∀ j, j ≠ k → Tab.find t.compute.ctxs j = Tab.find s.compute.ctxs j) ∧ t.compute.threads = s.compute.threads ∧ BytesSame s t ∧ Frame [.compute] s t) ∧
  (∀ (s : State) (c : CoreNo) (e : EngNo) (k : Nat) (x : Ctx) (mm : MmOp) (rest : List MmOp) (th : Thread) (g : Gang), s.ctxOn c e = some (k, x) → Tab.find s.compute.ctxs k = some x →
    x.queue = mm :: rest → x.running = none → s.thread? mm.thread = some th → s.jobRuns th.job = true → s.gangOf? th = some g → g.preempted = false →
    s.tileRoom c e mm = true → s.mmFault k x mm = none → opcodeOf mm.rcd = 0x0103 →
    ∃ t m, exec (.mmCycle0 c e) s = .next t ∧ Tab.find t.compute.ctxs k = some { x with queue := rest, emissions := x.emissions ++ [m] } ∧ m.mm = mm ∧
      m.row = flag mm.rcd 32 ∧ m.slotBase = fld mm.rcd 33 10 ∧ m.desc = benchField mm.base 32 (fld mm.rcd 53 18) ∧
      (∀ j, j ≠ k → Tab.find t.compute.ctxs j = Tab.find s.compute.ctxs j) ∧ t.compute.threads = s.compute.threads ∧ BytesSame s t ∧ Frame [.compute] s t) ∧
  (∀ (s : State) (c : CoreNo) (e : EngNo) (stale : List Nat) (k : Nat) (x : Ctx) (mm : MmOp) (due : Nat) (xs : List Byte), s.ctxOn c e = some (k, x) → Tab.find s.compute.ctxs k = some x →
    x.running = some (mm, due) → mmEmitAfter mm.rcd = false → mmXblocked mm.rcd = false → mmZpEn mm.rcd = false → mmAllowEn mm.rcd = false →
    xs = streamed mm.old (s.benchRead mm.thread (benchField mm.base 1024 (mmXLine mm.rcd)) (mmXBytes mm.rcd)) stale → s.integ.badWords = [] →
    s.strikesOf (8 * c.val + e.val) < 3 → s.ctxYields x = false → (∀ j ∈ s.compute.jobs, j.2.ending = none) →
    ∃ t, exec (.mmLastCycle c ⟨e, false⟩ stale) s = .next t ∧ t.now = max s.now due ∧ Tab.find t.compute.ctxs k = some { (x.accumulate mm.rcd xs [] [] 0).1 with running := none } ∧
      (∀ j, j ≠ k → Tab.find t.compute.ctxs j = Tab.find s.compute.ctxs j) ∧ BytesSame s t ∧ Frame [.compute, .now] s t) ∧
  (∀ (s : State) (c : CoreNo) (e : EngNo) (k : Nat) (x : Ctx) (mm : MmOp) (due : Nat) (rest : List (MmOp × Nat)) (tile : Tile), s.ctxOn c e = some (k, x) → Tab.find s.compute.ctxs k = some x →
    x.loads = (mm, due) :: rest → opcodeOf mm.rcd = 0x0102 →
    tile = Tile.ofBytes (s.benchRead mm.thread (benchField mm.base 1024 (fld mm.rcd 40 13)) (1024 * tileLines (mmSfmt mm.rcd))) (mmLane mm.rcd) (mmSfmt mm.rcd) (fld mm.rcd 53 5) (fld mm.rcd 58 5) →
    s.integ.badWords = [] → s.strikesOf (8 * c.val + e.val) < 3 → s.ctxYields x = false → (∀ j ∈ s.compute.jobs, j.2.ending = none) →
    ∃ t, exec (.shadowLoadComplete c e) s = .next t ∧ t.now = max s.now due ∧
      Tab.find t.compute.ctxs k = some { x with loads := rest, shadow := tile } ∧
      (∀ j, j ≠ k → Tab.find t.compute.ctxs j = Tab.find s.compute.ctxs j) ∧ BytesSame s t ∧ Frame [.compute, .now] s t) ∧
  (∀ (s : State) (c : CoreNo) (e : EngNo) (k : Nat) (x : Ctx) (m : Emission) (rest : List Emission) (th : Thread) (g : Gang) (d n : Nat) (bs : List Byte), s.ctxOn c e = some (k, x) →
    Tab.find s.compute.ctxs k = some x → x.emissions = m :: rest → s.thread? m.mm.thread = some th → s.gangOf? th = some g → m.binary = some n → x.counts ≠ [] →
    d = (EmitDesc.ofBytes (s.benchRead m.mm.thread m.desc 64)).dest → bs = fit n (x.counts.flatMap (fun v => leBytes 2 v)) →
    s.pieceLocked m.mm.thread d n = false → s.ctxYields x = false → s.strikesOf (8 * c.val + e.val) < 3 → (∀ j ∈ s.compute.jobs, j.2.ending = none) →
    ∃ t, exec (.emissionComplete c ⟨e, false⟩) s = .next t ∧ t.now = max s.now m.due ∧ Tab.find t.compute.ctxs k = some { x with emissions := rest } ∧ Stored s t th (.win d) bs ∧
      (∀ j, j ≠ k → Tab.find t.compute.ctxs j = Tab.find s.compute.ctxs j) ∧ Frame [.compute, .integ, .now] s t) ∧
  (∀ (s : State) (c : CoreNo) (e : EngNo) (k : Nat) (x : Ctx) (m : Emission) (rest : List Emission) (th : Thread) (g : Gang) (d : EmitDesc) (o : Emitted), s.ctxOn c e = some (k, x) →
    Tab.find s.compute.ctxs k = some x → x.emissions = m :: rest → s.thread? m.mm.thread = some th → s.gangOf? th = some g → m.binary = none →
    d = EmitDesc.ofBytes (s.benchRead m.mm.thread m.desc 64) →
    o = emitSlots d (ScaleE.ofNat (leNat (s.benchRead m.mm.thread d.oentry 8)))
      (if d.form = 2 then (List.range m.results).map (fun i => fieldAt (s.benchRead m.mm.thread (d.ascale + 4 * i) 4) 0 4) else []) []
      (if d.corrEn then some ((List.range m.results).map (fun i => signedOf 48 (leNat (s.benchRead m.mm.thread (d.corr + 8 * i) 8)))) else none) (x.emitted m) →
    d.outlEn = false → o.side = [] → o.entry = none → s.pieceLocked m.mm.thread d.dest o.bytes.length = false → s.ctxYields x = false → s.plausMode = 2 → s.strikesOf (8 * c.val + e.val) < 3 → (∀ j ∈ s.compute.jobs, j.2.ending = none) →
    ∃ t, exec (.emissionComplete c ⟨e, false⟩) s = .next t ∧ t.now = max s.now m.due ∧ Tab.find t.compute.ctxs k = some { x with emissions := rest } ∧
      Stored s t th (.win d.dest) o.bytes ∧ (∀ j, j ≠ k → Tab.find t.compute.ctxs j = Tab.find s.compute.ctxs j) ∧ Frame [.compute, .integ, .now] s t) ∧
  (∀ (s : State) (c : CoreNo) (e : EngNo) (k : Nat) (x : Ctx) (mm : MmOp) (due : Nat) (stale : List Nat) (th : Thread) (j : Job), s.ctxOn c e = some (k, x) →
    Tab.find s.compute.ctxs k = some x → x.running = some (mm, due) → s.thread? mm.thread = some th → s.job? th.job = some j → j.ending = none → s.integ.badWords = [] →
    ∃ t, exec (.mmLastCycle c ⟨e, true⟩ stale) s = .next t ∧
      (t.job? th.job = none ∨ ∃ y, t.job? th.job = some y ∧ (y.ending ≠ none ∨ y.restarts = j.restarts + 1))) ∧
  (∀ (s : State) (c : CoreNo) (e : Fin 8) (q : TileEntry) (rest : List TileEntry) (th : Thread), (s.core c).rrQueue = e.val → Tab.find (s.core c).queues e.val = some (q :: rest) →
    q.filled = true → (∀ y ∈ rest, y.op ≠ q.op) → s.thread? q.thread = some th →
    ∃ t, exec (.tileQueueRemove c) s = .next t ∧ t.tiles c e = rest ∧ (∀ f, f ≠ e → t.tiles c f = s.tiles c f) ∧ (t.core c).rrQueue = (e.val + 1) % 8 ∧
      (∃ y, t.thread? q.thread = some y ∧ y = { th with handles := y.handles } ∧ y.handle q.handle = { th.handle q.handle with count := (th.handle q.handle).count - 1, engine := some e } ∧
        ∀ h, h ≠ q.handle → y.handle h = th.handle h) ∧
      (∀ j, j ≠ q.thread → t.thread? j = s.thread? j) ∧ (∀ b, b ≠ c → t.core b = s.core b) ∧ BytesSame s t ∧ Frame [.compute] s t)

/-- VX operations of every kind are issued to their core's vector unit (04 R130, R133; 06 R185, R203, R207): an idle one starts, a busy one keeps them waiting, and one that
breaks a rule of its operands faults with OPERAND. VX_COMPLETE (04 R121 to R127): the operation's results stand in its gang's bench memory, no byte outside them changes, its handle settles and the unit is free. -/
def Obligations.VectorOperations : Prop :=
  (∀ e ∈ [(0x0201, Instr.add), (0x0202, Instr.mul), (0x0203, Instr.fma), (0x0204, Instr.cmp), (0x0205, Instr.sel), (0x0206, Instr.min), (0x0207, Instr.max),
      (0x0208, Instr.compress), (0x0209, Instr.expand)],
    ∀ (s : State) (n : Nat) (th : Thread) (r : BitVec 256) (g : Gang) (u : UnitOp), Issues s n e.1 (vxRanges th r) th r → s.gangOf? th = some g →
      u = ⟨n, s.compute.nextIdent, th.pc, r, bregBase th r, if vxCregEn r then (th.reg (fld r 94 5)).toNat else fld r 80 13,
        (List.range 3).map (fun k => if vxForm r k = 3 then th.reg (vxAddr r k % 32) else 0#64), vxSource th r, s.compute.arrivals⟩ →
      ((s.core g.core).vxRun.isSome = true →
        ∃ t, exec (e.2 n) s = .next t ∧ t.core g.core = { s.core g.core with vxWait := (s.core g.core).vxWait ++ [u] } ∧ (∀ b, b ≠ g.core → t.core b = s.core b) ∧
          Ran s t n th { (passed th e.1).setting r .unit with flights := th.flights ++ [⟨s.compute.nextIdent, vxRanges th r⟩] } ∧ Frame [.compute] s t) ∧
      ((s.core g.core).vxRun = none → (s.core g.core).vxWait = [] → s.vxFault u = none →
        ∃ t, exec (e.2 n) s = .next t ∧ (t.core g.core).vxRun = some (u, s.now + vxCycles r u.count * arrayUnits) ∧ (t.core g.core).vxWait = [] ∧
          (t.core g.core).vxLast = u.source ∧ (∀ b, b ≠ g.core → t.core b = s.core b) ∧ BytesSame s t ∧
          Ran s t n th { (passed th e.1).setting r .unit with flights := th.flights ++ [⟨s.compute.nextIdent, vxRanges th r⟩] } ∧ Frame [.compute] s t) ∧
      ((s.core g.core).vxRun = none → (s.core g.core).vxWait = [] → (s.vxFault u).isSome = true →
        ∃ t, exec (e.2 n) s = .next t ∧ Stops t th.job .moduleInvalid)) ∧
  (∀ (s : State) (c : CoreNo) (u : UnitOp) (due : Nat) (d : VxDone) (th : Thread) (g : Gang), (s.core c).vxRun = some (u, due) → (s.core c).vxWait = [] →
    s.thread? u.thread = some th → s.gangOf? th = some g → g.saved = none → (∀ j ∈ s.compute.jobs, j.2.ending = none) → s.integ.badWords = [] →
    d = vxRun u.rcd (s.vxRounding u.thread u.rcd u.base u.count) s.freeCtr (s.reader u.thread) u.base u.count u.scalars →
    d.writes.Pairwise (fun a b => a.1 + a.2.length ≤ b.1 ∨ b.1 + b.2.length ≤ a.1) → (∀ w ∈ d.writes, s.pieceLocked u.thread w.1 w.2.length = false) →
    ∃ t y, exec (.vxComplete c) s = .next t ∧ t.now = max s.now due ∧ (t.core c).vxRun = none ∧ (t.core c).vxWait = [] ∧
      (∀ w ∈ d.writes, t.benchRead u.thread w.1 w.2.length = w.2) ∧
      (∀ a, (∀ w ∈ d.writes, a < g.allotAt + w.1 ∨ g.allotAt + w.1 + w.2.length ≤ a) → Mem.get 0 (t.core g.core).bench a = Mem.get 0 (s.core g.core).bench a) ∧
      (∀ b, b ≠ g.core → (t.core b).bench = (s.core b).bench) ∧
      t.thread? u.thread = some y ∧ y.flights = th.flights.filter (fun f => f.ident ≠ u.op) ∧ y.pc = th.pc ∧
      (setH u.rcd = true → (y.handle (handleOf u.rcd)).count = (th.handle (handleOf u.rcd)).count - 1) ∧ (setH u.rcd = false → y.handles = th.handles) ∧
      (∀ n, d.count = some n → y.reg (fld u.rcd 238 5) = BitVec.ofNat 64 n) ∧ (d.count = none → y.regs = th.regs) ∧
      (∀ j, j ≠ u.thread → t.thread? j = s.thread? j) ∧ Frame [.compute, .integ, .freeCtr, .now] s t)

/-- The selection unit (04 R140 to R146; 06 R208): a selection is issued to it; a pass takes ⌈bytes ÷ 256⌉ + 48 cycles; the last pass writes the header and K entries. What a selection keeps (04 R137 to R139, R142): at most K elements, all valid ones of its input, as many as there are up to K when duplicates stay, no index twice when
they go, integers largest first; its result is a header of 64 bytes and K entries. -/
def Obligations.Selections : Prop :=
  (∀ (s : State) (n : Nat) (th : Thread) (r : BitVec 256) (g : Gang) (u : UnitOp), Issues s n 0x0301 (s.slRanges n th r) th r → s.gangOf? th = some g →
    u = ⟨n, s.compute.nextIdent, th.pc, r, bregBase th r, if slMode r = 1 then 0 else (th.reg (fld r 97 5)).toNat, [], 8, s.compute.arrivals⟩ →
    (s.core g.core).slRun = none → (s.core g.core).slWait = [] → s.slFault u = none →
    ∃ t, exec (.slSelect n) s = .next t ∧ (t.core g.core).slRun = some ⟨u, 0, s.now + slPassCycles r (s.reader n) u.base 0 * arrayUnits, 0, none⟩ ∧ (t.core g.core).slWait = [] ∧
      (∀ b, b ≠ g.core → t.core b = s.core b) ∧ BytesSame s t ∧
      Ran s t n th { (passed th 0x0301).setting r .unit with flights := th.flights ++ [⟨s.compute.nextIdent, s.slRanges n th r⟩] } ∧ Frame [.compute] s t) ∧
  (∀ (s : State) (c : CoreNo) (q : SelRun) (th : Thread) (g : Gang) (bs : List Byte), (s.core c).slRun = some q → (s.core c).slWait = [] → q.cut = none → slPasses q.uop.rcd ≤ q.pass + 1 →
    s.thread? q.uop.thread = some th → s.gangOf? th = some g → (∀ j ∈ s.compute.jobs, j.2.ending = none) → s.integ.badWords = [] →
    s.pieceLocked q.uop.thread (slResult q.uop.rcd q.uop.base).1 (slResult q.uop.rcd q.uop.base).2 = false →
    bs = (selectK (slInt q.uop.rcd) (slDedup q.uop.rcd) (slK q.uop.rcd) (slElems q.uop.rcd (s.reader q.uop.thread) q.uop.base q.uop.count)).bytes (slInt q.uop.rcd) (slRnd q.uop.rcd) →
    ∃ t, exec (.slPassEnd c) s = .next t ∧ t.now = max s.now q.due ∧ (t.core c).slRun = none ∧ Stored s t th (.win (slRes q.uop.rcd q.uop.base)) bs ∧
      (∃ y, t.thread? q.uop.thread = some y ∧ y.flights = th.flights.filter (fun f => f.ident ≠ q.uop.op) ∧ y.pc = th.pc ∧ y.regs = th.regs) ∧
      (∀ j, j ≠ q.uop.thread → t.thread? j = s.thread? j) ∧ Frame [.compute, .integ, .now] s t) ∧
  (∀ (s : State) (c : CoreNo) (q : SelRun) (th : Thread) (j : Job), (s.core c).slRun = some q → q.cut = none → q.pass + 1 < slPasses q.uop.rcd → s.thread? q.uop.thread = some th →
    s.job? th.job = some j → j.ending.isSome = true →
    ∃ t, exec (.slPassEnd c) s = .next t ∧ t.now = max s.now q.due ∧ (∃ w, (t.core c).slRun = some ⟨q.uop, q.pass + 1, w, 0, none⟩) ∧ BytesSame s t ∧ Frame [.compute, .now] s t) ∧
  (∀ (int dedup : Bool) (k : Nat) (l : List SelEl), (∀ e ∈ (selectK int dedup k l).sel, e ∈ l ∧ e.valid int = true) ∧ (selectK int dedup k l).sel.length ≤ k) ∧
  (∀ (int : Bool) (k : Nat) (l : List SelEl), (selectK int false k l).sel.length = min k (l.filter (fun e => e.valid int)).length) ∧
  (∀ (int : Bool) (k : Nat) (l : List SelEl), ((selectK int true k l).sel.map (·.index)).Nodup) ∧
  (∀ (dedup : Bool) (k : Nat) (l : List SelEl), (selectK true dedup k l).sel.Pairwise (fun a b => signedOf 32 b.value ≤ signedOf 32 a.value)) ∧
  (∀ (int dedup : Bool) (k : Nat) (rnd : Rnd) (l : List SelEl), ((selectK int dedup k l).bytes int rnd).length = 64 + 16 * k)


/-! ## Memory tiers (07). -/

/-- MV operations (06 R189, R190, R209; 07 R228, R238, R242): each becomes a tier request under its deadline, with its handle set; a lend of a mutable range is a move; no byte
changes at issue. A request whose tiles and data are here (07 R226 to R228, R238, R242): a move leaves its bytes at the destination and its source undefined, a loan leaves its source as it
was, no other byte changes; a prefetch only ends; a late one ends its job with TIER_LATE. Tier requests (07 R225, R238 to R242): a fetched tile is in T2 and no request waits for it any longer; a failed fetch ends its jobs with TIER_FAILED; a transfer whose repeat fails its parity too ends its job with TIER_FAILED (14 R461); a passed deadline ends
its job with TIER_LATE, but only drops a prefetch; and a stream idle for 1 ms is released. -/
def Obligations.TierMoves : Prop :=
  (∀ e ∈ [(0x0401, Instr.mvMove), (0x0402, Instr.mvLend), (0x0403, Instr.mvDrop), (0x0404, Instr.mvPrefetch)],
    ∀ (s : State) (n : Nat) (th : Thread) (r : BitVec 256) (j : Job), Issues s n e.1 (s.mvRanges th r) th r → s.mvCheck th r = none → s.stranger (s.mvSpans th r) = none →
      s.job? th.job = some j →
      ∃ t q, exec (e.2 n) s = .next t ∧ Tab.find t.tiers.reqs s.tiers.nextReq = some q ∧ q.thread = n ∧ q.job = th.job ∧ q.rcd = r ∧ q.src = th.reg (mvSrc r) ∧
        q.dst = th.reg (mvDst r) ∧ q.len = mvLen r ∧ q.handle = (if setH r then some (handleOf r) else none) ∧ q.cls = j.cls ∧
        q.deadline = (if mvDeadline r = 0 then j.deadline else some (s.tick + 25 * mvDeadline r)) ∧
        (e.1 = 0x0401 → q.kind = .move) ∧
        (e.1 = 0x0402 → q.kind = if s.rangeLent th (th.reg (mvSrc r)).toNat (mvLen r) then .lend else .move) ∧
        (e.1 = 0x0403 → q.kind = .drop ∧ q.tiles = []) ∧ (e.1 = 0x0404 → q.kind = .fetching) ∧
        Ran s t n th (({ passed th e.1 with flights := th.flights ++ [⟨s.compute.nextIdent, s.mvRanges th r⟩] } : Thread).setting r .move) ∧
        BytesSame s t ∧ Frame [.compute, .tiers, .span] s t) ∧
  (∀ (s : State) (k : Nat) (q : TierReq) (th : Thread) (y0 : Parity) (p d : Place), Tab.find s.tiers.reqs k = some q → q.kind = .move ∨ q.kind = .lend → y0.lost = false → s.thread? q.thread = some th →
    q.tiles = [] → q.deadline = none → q.remote = none → q.sideRemote = none → q.outs = [] → q.slen = 0 → q.sdlen = 0 → q.dlen = q.len → q.len ≠ 0 → s.tileTurn k q = true →
    mvTranspose q.rcd = false → mvReblock q.rcd = false → mvRotary q.rcd = false → mvScales q.rcd = false → s.remoteOf q.src.toNat = none → s.remoteOf q.dst.toNat = none →
    s.resolve th q.src.toNat q.len .moveSrc = .ok [(p, q.len)] → (q.kind = .move → s.resolve th q.src.toNat q.len .moveDst = .ok [(p, q.len)]) →
    s.resolve th q.dst.toNat q.len .moveDst = .ok [(d, q.len)] → s.placeBad th p q.len = false → ClearOfCaches s d q.len → (q.kind = .lend → q.dst.toNat / 2 ^ 56 ≠ 0xFF) → (∀ j ∈ s.compute.jobs, j.2.ending = none) →
    ∃ t y, exec (.mvComplete ⟨k, y0⟩) s = .next t ∧ t.placeRead th d q.len = s.placeRead th p q.len ∧
      (∀ x, Clear d q.len x → (q.kind = .move → Clear p q.len x) → t.placeRead th x 1 = s.placeRead th x 1) ∧
      Tab.find t.tiers.reqs k = none ∧ t.thread? q.thread = some y ∧ y.flights = th.flights.filter (fun f => f.ident ≠ q.op) ∧ y.pc = th.pc ∧ y.regs = th.regs ∧
      (∀ h, q.handle = some h → (y.handle h).count = (th.handle h).count - 1) ∧ (∀ i, i ≠ q.thread → t.thread? i = s.thread? i) ∧
      Frame [.compute, .tiers, .span, .host, .integ, .events, .health, .freeCtr] s t ∧ (y0 = .good → Frame [.compute, .tiers, .span, .integ, .freeCtr] s t)) ∧
  (∀ (s : State) (k : Nat) (q : TierReq) (th : Thread) (y0 : Parity), Tab.find s.tiers.reqs k = some q → q.kind = .fetching → s.thread? q.thread = some th → q.tiles = [] → q.deadline = none →
    q.src.toNat / 2 ^ 56 = 1 → (∀ y ∈ tilesOf q.src.toNat q.len, s.tileLost y = false) → (∀ j ∈ s.compute.jobs, j.2.ending = none) →
    ∃ t y, exec (.mvComplete ⟨k, y0⟩) s = .next t ∧ Tab.find t.tiers.reqs k = none ∧ t.thread? q.thread = some y ∧ y.flights = th.flights.filter (fun f => f.ident ≠ q.op) ∧
      (∀ h, q.handle = some h → (y.handle h).count = (th.handle h).count - 1) ∧ BytesSame s t ∧ Frame [.compute, .tiers, .span] s t) ∧
  (∀ (s : State) (k : Nat) (q : TierReq) (th : Thread) (y0 : Parity), Tab.find s.tiers.reqs k = some q → q.kind = .drop → s.thread? q.thread = some th → q.tiles = [] → q.deadline = none →
    q.src.toNat / 2 ^ 56 = 1 → (∀ j ∈ s.compute.jobs, j.2.ending = none) →
    ∃ t, exec (.mvComplete ⟨k, y0⟩) s = .next t ∧ Tab.find t.tiers.reqs k = none ∧ BytesSame s t ∧
      (s.rangeLent th q.src.toNat q.len = true → ∀ e ∈ t.tiers.t2, e.2.lent = true → e.1 ∉ tilesOf q.src.toNat q.len) ∧ Frame [.compute, .tiers, .span] s t) ∧
  (∀ (s : State) (k d : Nat) (q : TierReq) (th : Thread) (j : Job) (y0 : Parity), Tab.find s.tiers.reqs k = some q → q.kind ≠ .fetching → q.kind ≠ .pageIn → q.kind ≠ .service → q.kind ≠ .remote → s.thread? q.thread = some th →
    q.tiles = [] → q.deadline = some d → d < s.tick → s.job? q.job = some j → j.ending = none →
    ∃ t, exec (.mvComplete ⟨k, y0⟩) s = .next t ∧ Tab.find t.tiers.reqs k = none ∧ Stops t q.job .tierLate) ∧
  (∀ (s : State) (k : Nat) (q : TierReq) (th : Thread) (j : Job) (y0 : Parity), Tab.find s.tiers.reqs k = some q → q.kind = .move ∨ q.kind = .lend → y0.lost = true → s.thread? q.thread = some th →
    q.tiles = [] → q.deadline = none → q.sent = false → s.rangeHere q.remote q.len = true → s.rangeHere q.sideRemote (if q.remote = q.sideRemote then q.len + q.slen else q.slen) = true → s.tileTurn k q = true → s.job? q.job = some j → j.ending = none →
    ∃ t, exec (.mvComplete ⟨k, y0⟩) s = .next t ∧ Tab.find t.tiers.reqs k = none ∧ Stops t q.job .tierFailed) ∧
  (∀ (s : State) (k : Nat) (q : TierReq) (f : Fetch) (y0 : Parity), y0.lost = false → Tab.find s.tiers.reqs k = some q → s.tiers.fetches.find? (fun f => f.tile ∈ q.tiles) = some f → s.tiers.t2.length < s.poolTiles →
    (∀ e ∈ s.tiers.reqs, e.2.kind ≠ .remote) → (∀ e ∈ s.tiers.reqs, e.2.deadline.all (fun d => s.tick ≤ d) = true) →
    ∃ t x, exec (.tierFetchComplete ⟨k, y0⟩ .good) s = .next t ∧ Tab.find t.tiers.t2 f.tile = some x ∧ x.lent = s.tileImmutable f.tile ∧ x.lastUse = s.tick ∧
      (∀ y z, y ≠ f.tile → Tab.find s.tiers.t2 y = some z → z.homing = false → Tab.find t.tiers.t2 y = some z) ∧ (∀ e ∈ t.tiers.reqs, f.tile ∉ e.2.tiles) ∧ (∀ y ∈ t.tiers.fetches, y.tile ≠ f.tile) ∧
      BytesSame s t ∧ Frame [.tiers, .host, .integ, .events, .health] s t ∧ (y0 = .good → Frame [.tiers] s t)) ∧
  (∀ (s : State) (k : Nat) (q : TierReq) (f : Fetch) (j : Job) (x : FetchEnd) (y0 : Parity), (x ≠ .good ∨ y0.lost = true) → Tab.find s.tiers.reqs k = some q → s.tiers.fetches.find? (fun f => f.tile ∈ q.tiles) = some f → f.reqs = [k] →
    q.kind ≠ .fetching → q.kind ≠ .service → q.kind ≠ .remote → (∀ d, q.deadline = some d → s.tick < d) → s.job? q.job = some j → j.ending = none →
    ∃ t, exec (.tierFetchComplete ⟨k, y0⟩ x) s = .next t ∧ Tab.find t.tiers.reqs k = none ∧ (∀ y ∈ t.tiers.fetches, y.tile ≠ f.tile) ∧ Stops t q.job .tierFailed) ∧
  (∀ (s : State) (k d : Nat) (q : TierReq) (j : Job), Tab.find s.tiers.reqs k = some q → q.deadline = some d → q.kind ≠ .fetching → q.kind ≠ .service → q.kind ≠ .remote → s.job? q.job = some j → j.ending = none →
    ∃ t, exec (.tierDeadline k) s = .next t ∧ t.now = max s.now ((d + 1) * tickUnits) ∧ Tab.find t.tiers.reqs k = none ∧ Stops t q.job .tierLate) ∧
  (∀ (s : State) (k d : Nat) (q : TierReq) (j : Job), Tab.find s.tiers.reqs k = some q → q.deadline = some d → q.kind = .fetching → s.job? q.job = some j →
    ∃ t, exec (.tierDeadline k) s = .next t ∧ t.now = max s.now ((d + 1) * tickUnits) ∧ Tab.find t.tiers.reqs k = none ∧
      t.job? q.job = some { j with dropped := j.dropped + 1 } ∧ BytesSame s t ∧ Frame [.compute, .tiers, .now] s t) ∧
  (∀ (s : State) (q : QuarterNo) (k : Nat) (x : Machine.Stream), Tab.find (Tab.at s.tiers.streams q.val []) k = some x →
    ∃ t, exec (.prefetchStreamRelease q k) s = .next t ∧ t.now = max s.now (x.lastUse + msUnits) ∧ Tab.find (Tab.at t.tiers.streams q.val []) k = none ∧
      (∀ i, i ≠ k → Tab.find (Tab.at t.tiers.streams q.val []) i = Tab.find (Tab.at s.tiers.streams q.val []) i) ∧ BytesSame s t ∧ Frame [.tiers, .now] s t)


/-! ## Tenon link and span (11, 19). -/

/-- Tenon ports (11 R346 to R348, R353; 19 R586): 1,000 codewords on every lane align a port in training, which sends its HELLO; with the neighbour's it is Up; a NAK has the flits kept
sent again, and is counted; a port goes Down on lost lock, 10 µs of silence or 8 replays, and when its cage changes, and trains again where its cage has power. Other ports keep
their state. Flits received (11 R345, R346, R350): a data flit in order joins its packet, moves the expected sequence on and is acknowledged; one that is damaged or out of order is
discarded, counted, and answered with one NAK; an idle flit brings credits. Word of another module's link changes the routes, and members that none reaches are Lost (R353, R360; log
entry 147 says how that word comes). -/
def Obligations.LinksAndFlits : Prop :=
  (∀ (s : State) (p : TPortNo) (n : Nat), (s.tport p).st = .training → 1000 ≤ n → (s.tport p).hello = none → (s.tport p).ctl = [] → (s.tport p).replay.length < 1024 →
    ∃ t f, exec (.portAligned p (.own n)) s = .next t ∧ (t.tport p).st = .aligned ∧ (t.tport p).helloSent = true ∧ (t.tport p).replay = (s.tport p).replay ++ [f] ∧
      (t.tport p).wire = (s.tport p).wire ++ [f] ∧ f.payload = s.helloBytes p ∧ f.ftype = 2#2 ∧ f.fseq = (s.tport p).nextSend ∧
      (t.tport p).nextSend = (s.tport p).nextSend + 1#12 ∧ (t.tport p).corrected = (s.tport p).corrected + n ∧ (∀ q, q ≠ p → t.tport q = s.tport q) ∧ Frame [.span] s t) ∧
  (∀ (s : State) (p : TPortNo) (l : Lock), (s.tport p).st ≠ .training → (∀ m, l ≠ .far m) → exec (.portAligned p l) s = .next s) ∧
  (∀ (s : State) (p : TPortNo) (m : ModuleNo),
    ∃ t, exec (.portAligned p (.far m)) s = .next t ∧ t.span = { s.span with linksDown := s.span.linksDown.filter (fun e => e ≠ (m.val, p.val)) } ∧ Frame [.span] s t) ∧
  (∀ (s : State) (p : TPortNo) (m : ModuleNo), s.span.insts = [] →
    ∃ t, exec (.portDown p (.far m)) s = .next t ∧ (m.val, p.val) ∈ t.span.linksDown ∧ (∀ e, e ≠ (m.val, p.val) → (e ∈ t.span.linksDown ↔ e ∈ s.span.linksDown)) ∧
      (∀ k x, Tab.find s.span.members k = some x →
        Tab.find t.span.members k = some (if x.view = .joined ∧ (t.routePort none k).isNone then { x with view := .lost } else x)) ∧
      t.span = { s.span with linksDown := t.span.linksDown, members := t.span.members } ∧ Frame [.span] s t) ∧
  (∀ (s : State) (p : TPortNo) (m sl po st : Byte) (sp : W64), (s.tport p).st = .aligned →
    ∃ t, exec (.hello p m sl po st sp) s = .next t ∧ (t.tport p).hello = some ⟨m, sl, po, st, sp⟩ ∧ (t.tport p).st = (if (s.tport p).helloSent then .up else .aligned) ∧
      ((s.tport p).helloSent = false → ∀ q, q ≠ p → t.tport q = s.tport q) ∧ Frame [.span] s t) ∧
  (∀ (s : State) (p : TPortNo) (e : BitVec 12) (f : Flit) (fs : List Flit), (s.tport p).st = .up → (s.tport p).replay = f :: fs → f.fseq = e →
    ∃ t, exec (.nak p e) s = .next t ∧ (t.tport p).wire = (s.tport p).wire ++ f :: fs ∧ (t.tport p).replayed = (s.tport p).replayed + 1 ∧ (t.tport p).replay = f :: fs ∧
      (∀ g ∈ f :: fs, Tab.at (s.tport p).tries g.fseq.toNat 0 < Tab.at (t.tport p).tries g.fseq.toNat 0) ∧
      (∀ k, (∀ g ∈ f :: fs, g.fseq.toNat ≠ k) → Tab.find (t.tport p).tries k = Tab.find (s.tport p).tries k) ∧ (∀ q, q ≠ p → t.tport q = s.tport q) ∧
      Frame [.span, .integ, .events, .health, .host] s t) ∧
  (∀ (s : State) (p : TPortNo), (s.tport p).st ≠ .down →
    ∃ t, exec (.portDown p .lockLost) s = .next t ∧ (t.tport p).st = (if s.power.good && s.cageOn p then .training else .down) ∧ (t.tport p).replay = [] ∧ (t.tport p).wire = [] ∧
      (t.tport p).tries = [] ∧ (t.tport p).rx = [] ∧ (t.tport p).hello = none ∧ (t.tport p).helloSent = false ∧ (t.tport p).nextSend = 0#12 ∧ (t.tport p).nextExp = 0#12 ∧
      (t.tport p).replayed = (s.tport p).replayed ∧ (t.tport p).corrected = (s.tport p).corrected ∧ (t.tport p).discarded = (s.tport p).discarded ∧
      ((∀ e ∈ s.compute.sites, e.2.reported = false) → BytesSame s t) ∧ Frame [.span, .compute, .health, .host, .media, .tiers, .integ] s t) ∧
  (∀ (s : State) (p : TPortNo), (s.tport p).st = .up →
    ∃ t, exec (.portDown p .timeout) s = .next t ∧ (t.tport p).st = (if s.power.good && s.cageOn p then .training else .down) ∧ (t.tport p).replay = [] ∧
      t.now = max s.now ((s.tport p).lastArrival + 10 * usUnits)) ∧
  (∀ (s : State) (p : TPortNo), (∃ e ∈ (s.tport p).tries, 8 ≤ e.2) →
    ∃ t, exec (.portDown p .replays) s = .next t ∧ (t.tport p).st = (if s.power.good && s.cageOn p then .training else .down) ∧ (t.tport p).replay = [] ∧ t.now = s.now) ∧
  (∀ (s : State) (w : Option Nat), s.power.good = true →
    ∃ t, exec (.qsfpCageChange true w) s = .next t ∧ t.span.cage3 = ⟨w, w.any (fun x => x ≤ 12)⟩ ∧ t.span.cage2 = s.span.cage2 ∧
      (t.tport 3).st = (if w.any (fun x => x ≤ 12) then .training else .down)) ∧
  (∀ (s : State) (w : Option Nat), s.power.good = true →
    ∃ t, exec (.qsfpCageChange false w) s = .next t ∧ t.span.cage2 = ⟨w, w.any (fun x => x ≤ 12)⟩ ∧ t.span.cage3 = s.span.cage3 ∧
      (t.tport 2).st = (if w.any (fun x => x ≤ 12) then .training else .down)) ∧
  (∀ (s : State) (p : TPortNo) (f : Flit), (s.tport p).st = .up → f.intact = true → f.ftype = 1#2 → f.fseq = (s.tport p).nextExp → f.eop = false →
    ∃ t, exec (.flitReceive p f) s = .next t ∧ (t.tport p).nextExp = (s.tport p).nextExp + 1#12 ∧ (t.tport p).nakSent = false ∧ (t.tport p).st = .up ∧
      Tab.find (t.tport p).rx (bufKey f.vl.toNat f.dclass) = some ((if f.sop then [] else Tab.at (s.tport p).rx (bufKey f.vl.toNat f.dclass) []) ++ [f]) ∧
      (∀ k, k ≠ bufKey f.vl.toNat f.dclass → Tab.find (t.tport p).rx k = Tab.find (s.tport p).rx k) ∧ (t.tport p).lastArrival = s.now ∧ (t.tport p).ackSent = f.fseq ∧
      ((s.tport p).out = [] → ∀ q, q ≠ p → t.tport q = (s.tport q).idle) ∧ Frame [.span] s t) ∧
  (∀ (s : State) (p : TPortNo) (f : Flit), (s.tport p).st = .up → (f.intact = false ∨ (f.ftype ≠ 0#2 ∧ f.fseq ≠ (s.tport p).nextExp) ∨ (f.ftype = 0#2 ∧ f.fseq + 1#12 ≠ (s.tport p).nextExp)) →
    (s.tport p).nakSent = false →
    ∃ t, exec (.flitReceive p f) s = .next t ∧ (t.tport p).discarded = (s.tport p).discarded + 1 ∧ (t.tport p).nakSent = true ∧ (t.tport p).nextExp = (s.tport p).nextExp ∧
      (t.tport p).rx = (s.tport p).rx ∧
      ((s.tport p).ctl = [] → (s.tport p).replay.length < 1024 → ∃ g, (t.tport p).replay = (s.tport p).replay ++ [g] ∧ (t.tport p).wire = (s.tport p).wire ++ [g] ∧
        g.ftype = 2#2 ∧ g.payload = [2#8] ++ leBytes 2 (s.tport p).nextExp.toNat) ∧
      (∀ q, q ≠ p → t.tport q = s.tport q) ∧ Frame [.span] s t) ∧
  (∀ (s : State) (p : TPortNo) (f : Flit), (s.tport p).st = .up → (f.intact = false ∨ (f.ftype ≠ 0#2 ∧ f.fseq ≠ (s.tport p).nextExp) ∨ (f.ftype = 0#2 ∧ f.fseq + 1#12 ≠ (s.tport p).nextExp)) →
    (s.tport p).nakSent = true →
    ∃ t, exec (.flitReceive p f) s = .next t ∧ (t.tport p).discarded = (s.tport p).discarded + 1 ∧ (t.tport p).nextExp = (s.tport p).nextExp ∧
      (t.tport p).replay = (s.tport p).replay ∧ (t.tport p).wire = (s.tport p).wire ∧ (t.tport p).rx = (s.tport p).rx ∧ (∀ q, q ≠ p → t.tport q = s.tport q) ∧ Frame [.span] s t) ∧
  (∀ (s : State) (p : TPortNo) (f : Flit) (k n : Nat), (s.tport p).st = .up → f.intact = true → f.ftype = 0#2 → f.fseq + 1#12 = (s.tport p).nextExp → (s.tport p).out = [] →
    f.credits ≠ 0#8 → k = bufKey f.crvl.toNat f.crclass → n = Tab.at (s.tport p).credits k 0 + f.credits.toNat →
    ∃ t, exec (.flitReceive p f) s = .next t ∧ Tab.at (t.tport p).credits k 0 = min (laneBuffer (k / 2)) n ∧ (t.tport p).nextExp = (s.tport p).nextExp ∧
      (t.tport p).discarded = (s.tport p).discarded ∧ (t.tport p).rx = (s.tport p).rx ∧ (∀ q, q ≠ p → t.tport q = (s.tport q).idle) ∧ Frame [.span] s t)

/-- Span membership (11 R357 to R361, R370; 13 R453): presence makes a member Joined or, with another descriptor, Absent and recorded; a member lost or leaving ends every instance
on a group that includes it; join and leave change this module's own membership. A module that is Alone, or hears a module that is no member, keeps its members as they are (11 R357, R360). -/
def Obligations.SpanMembership : Prop :=
  (∀ (s : State) (m : ModuleNo) (st : Byte) (dd cd : List Byte) (w : Nat) (d : SpanDesc), s.span.desc = some d → s.peer m.val = true → dd = d.digest →
    ∃ t, exec (.presence m st dd cd w) s = .next t ∧ t.span = { s.span with members := Tab.put s.span.members m.val ⟨.joined, s.now, w, cd⟩ } ∧ Frame [.span] s t) ∧
  (∀ (s : State) (m : ModuleNo) (st : Byte) (dd cd : List Byte) (w : Nat) (d : SpanDesc), s.span.desc = some d → s.peer m.val = true → dd ≠ d.digest →
    ∃ t, exec (.presence m st dd cd w) s = .next t ∧ Tab.find t.span.members m.val = some ⟨.absent, s.now, w, cd⟩ ∧
      (∀ k, k ≠ m.val → Tab.find t.span.members k = Tab.find s.span.members k) ∧ (∀ i ∈ t.span.insts, Spared t m.val i) ∧
      Recorded s t 0x6001 (sourceOf 0 0) [BitVec.ofNat 8 m.val]) ∧
  (∀ s : State, s.span.member = .joined →
    ∃ t, exec .presenceSend s = .next t ∧ t.now = max s.now (s.span.presenceAt + msUnits) ∧ t.span.presenceAt = t.now ∧
      t.span.sent = s.span.sent ++ ((s.groupMembers 0).filter (· ≠ s.moduleNumber)).map (fun m => ⟨m, 1, s.presenceBody⟩) ∧ Frame [.span, .now] s t) ∧
  (∀ (s : State) (m : ModuleNo) (x : Member), Tab.find s.span.members m.val = some x → x.view = .joined → s.peer m.val = true →
    ∃ t, exec (.memberLost m) s = .next t ∧ t.now = max s.now (x.heard + 8 * msUnits) ∧ Tab.find t.span.members m.val = some { x with view := .lost } ∧
      (∀ k, k ≠ m.val → Tab.find t.span.members k = Tab.find s.span.members k) ∧ (∀ i ∈ t.span.insts, Spared t m.val i)) ∧
  (∀ (s : State) (m : ModuleNo) (x : Member), Tab.find s.span.members m.val = some x → s.peer m.val = true →
    ∃ t, exec (.spanCtl m) s = .next t ∧ Tab.find t.span.members m.val = some { x with view := .absent } ∧ (∀ i ∈ t.span.insts, Spared t m.val i)) ∧
  (∀ (s : State) (id : Nat) (c : Cmd) (head : List Byte) (d : SpanDesc), Runs s id 0x0801 c → head = s.hostRead c.port (c.field 0x10 8) 32 →
    d = spanDescOf (head ++ s.hostRead c.port (c.field 0x10 8 + 32) (16 * fieldAt head 0xE 1)) → s.joinError (c.field 0x18 4) d = none →
    ∃ t, exec (.spanJoin id) s = .next t ∧
      t.span = { s.span with member := .joined, desc := some d, members := [], jobCount := [], svcCount := [], presenceAt := s.now } ∧
      t.moduleNumber = 16 * d.shelf + s.power.slotId.toNat ∧ Succeeded [.span, .power] s t id c (resultAt [(0x0C, 1, 16 * d.shelf + s.power.slotId.toNat)])) ∧
  (∀ (s : State) (id : Nat) (c : Cmd), Runs s id 0x0802 c → s.span.member = .joined → s.span.insts = [] →
    ∃ t, exec (.spanLeave id) s = .next t ∧ t.span.member = .alone ∧ t.span.desc = s.span.desc ∧ t.span.members = [] ∧
      t.span.sent = s.span.sent ++ ((s.groupMembers 0).filter (· ≠ s.moduleNumber)).map (fun m => ⟨m, 2, [1#8]⟩) ∧ Succeeded [.span] s t id c []) ∧
  (∀ (s : State) (id : Nat) (c : Cmd), Runs s id 0x0803 c →
    ∃ t, exec (.spanStatus id) s = .next t ∧ HostHolds s t c.port (c.field 0x10 8) s.spanStatusBytes ∧ s.spanStatusBytes.length = 1152 ∧ Succeeded [] s t id c []) ∧
  (∀ (s : State) (m : ModuleNo), s.peer m.val = false →
    (∀ st dd cd w, exec (.presence m st dd cd w) s = .next s) ∧ exec (.memberLost m) s = .next s ∧ exec (.spanCtl m) s = .next s ∧
    (∀ k d q, exec (.clHeader m k d q) s = .next s) ∧ (∀ k r, exec (.clAbort m k r) s = .next s) ∧ (∀ k, exec (.stop m k) s = .next s) ∧
    (∀ q g d r, exec (.service m q g d r) s = .next s))

/-- CL operations (11 R364 to R366): the next place in the group's count is taken, the instance holds the bytes the member contributes, and its header goes to the leader. Collectives between members (11 R363, R366 to R369, R371): headers are kept for the leader's check, CL_GO opens an instance and has this member's part
sent, parts come packet by packet and are acknowledged, the last completes it at its destination,
a refusal or a stop ends it, a time-out restarts it up to three times after 2^(r − 1) ms and a draw. -/
def Obligations.Collectives : Prop :=
  (∀ e ∈ [(0x0501, Instr.clAllreduce), (0x0502, Instr.clAllgather), (0x0503, Instr.clBroadcast), (0x0504, Instr.clReduceScatter), (0x0505, Instr.clTopk), (0x0506, Instr.clBarrier)],
    ∀ (s : State) (n : Nat) (th : Thread) (r : BitVec 256) (key : InstKey), Issues s n e.1 (s.clRanges th r) th r → s.clCheck th r = none → s.groupGap (clGroup r) = none →
      s.leaderOf (clGroup r) ≠ s.moduleNumber → s.leaderOf (clGroup r) < 128 → key = .job (clGroup r) (Tab.at s.span.jobCount (clGroup r) 0) →
      ∃ t i, exec (e.2 n) s = .next t ∧ t.inst? key = some i ∧ i.group = clGroup r ∧ i.params = clParams r ∧ i.thread = some n ∧ i.go = false ∧ i.datas = [] ∧ i.parts = [] ∧ i.shelf = none ∧ i.restarts = 0 ∧
        i.started = s.tick ∧ i.dst = th.reg (clDst r) ∧ i.handle = (if setH r then some (handleOf r) else none) ∧
        (∀ p, s.resolve th (th.reg (clSrc r)).toNat (clLen r) .coll = .ok p → i.own = s.spotsRead th p) ∧
        (∀ k, k ≠ key → t.inst? k = s.inst? k) ∧ t.span.jobCount = Tab.put s.span.jobCount (clGroup r) (Tab.at s.span.jobCount (clGroup r) 0 + 1) ∧
        t.span.sent = s.span.sent ++ [⟨s.leaderOf (clGroup r), 3, fit 32 s.cfgDigest ++ clParamBytes (clParams r)⟩] ∧
        Ran s t n th (({ passed th e.1 with flights := th.flights ++ [⟨s.compute.nextIdent, s.clRanges th r⟩] } : Thread).setting r .collective) ∧
        BytesSame s t ∧ Frame [.compute, .span] s t) ∧
  (∀ (s : State) (m : ModuleNo) (key : InstKey) (dg : List Byte) (ps : ClParams) (i : Inst), s.peer m.val = true → s.inst? key = some i → i.go = false → i.issued = false →
    ∃ t, exec (.clHeader m key dg ps) s = .next t ∧ t.inst? key = some { i with headers := i.headers.filter (fun h => h.1 ≠ m.val) ++ [(m.val, dg, ps)] } ∧
      (∀ k, k ≠ key → t.inst? k = s.inst? k) ∧ Frame [.span] s t) ∧
  (∀ (s : State) (key : InstKey) (i : Inst) (n : Nat), s.inst? key = some i → i.thread = some n → i.restartAt = none → i.go = false → s.instReady { i with go := true } = false →
    ∃ t j, exec (.clGo key) s = .next t ∧ t.inst? key = some j ∧ j = { i with go := true, shelf := j.shelf, sats := j.sats } ∧
      (s.shelfPart { i with go := true } = none → j.shelf = i.shelf ∧ j.sats = i.sats ∧ t.freeCtr = s.freeCtr) ∧
      (s.moduleNumber ∈ s.needsData i → ∀ m ∈ s.ownTo i, ∃ k x, Tab.find t.span.streams k = some x ∧ x.peer = m ∧ x.ptype = 6 ∧ x.addr = keyNum key ∧ x.len = i.own.length) ∧
      (∀ k, k ≠ key → t.inst? k = s.inst? k) ∧ BytesSame s t ∧ Frame [.span, .freeCtr] s t) ∧
  (∀ (s : State) (m : ModuleNo) (key : InstKey) (part : ClPart) (i j l : Inst) (c n : Nat) (x : List Byte) (th : Thread) (g : Gang) (p : Place),
    s.span.member = .joined → Tab.find s.span.streams (rxKey m.val part.stream) = none → part.stream < 2 ^ 32 → part.pseq = 0#32 → part.total = part.data.length →
    part.total < 2 ^ 64 → keyNum key < 2 ^ 64 → s.span.insts.find? (fun y => keyNum y.key = keyNum key) = some i → i.key = key → s.inst? key = some i → i.thread = some n →
    i.cmd = none → i.restartAt = none → m.val ≠ s.moduleNumber → m.val ∈ s.needsData i →
    j = { i with parts := i.parts.filter (fun e => e.1 ≠ m.val), datas := i.datas.filter (fun d => d.1 ≠ m.val) ++ [(m.val, part.data)] } →
    ((s.shelfPart j = none ∧ l = j ∧ c = 0) ∨ ∃ r, s.shelfPart j = some r ∧ l = { j with shelf := some r.1, sats := r.2.1 } ∧ c = r.2.2) → s.instReady l = true →
    x = ((s.spend c).instResult l).1 → s.thread? n = some th → s.gangOf? th = some g → s.resolve th i.dst.toNat x.length .coll = .ok [(p, x.length)] →
    s.addrFault th i.dst.toNat x.length .moveDst = none → (∀ e ∈ s.compute.jobs, e.2.ending = none) →
    ∃ t y, exec (.clData m key part) s = .next t ∧ Stored s t th p x ∧ t.inst? key = none ∧ t.thread? n = some y ∧
      y.flights = th.flights.filter (fun f => f.ident ≠ i.ident) ∧ (∀ h, i.handle = some h → (y.handle h).count = (th.handle h).count - 1) ∧ y.pc = th.pc ∧ y.regs = th.regs ∧
      (∀ k, k ≠ key → t.inst? k = s.inst? k) ∧ ⟨m.val, 8, []⟩ ∈ t.span.sent) ∧
  (∀ (s : State) (m : ModuleNo) (key : InstKey) (part : ClPart) (i : Inst), s.span.member = .joined → Tab.find s.span.streams (rxKey m.val part.stream) = none →
    part.stream < 2 ^ 32 → part.pseq = 0#32 → part.data.length < part.total → part.total < 2 ^ 64 → keyNum key < 2 ^ 64 →
    s.span.insts.find? (fun y => keyNum y.key = keyNum key) = some i → i.key = key → i.thread.isSome = true → i.restartAt = none → m.val ≠ s.moduleNumber → m.val ∈ s.needsData i →
    ∃ t, exec (.clData m key part) s = .next t ∧
      t.inst? key = some { i with parts := i.parts.filter (fun e => e.1 ≠ m.val) ++ [(m.val, part.stream, part.data)] } ∧ t.span.sent = s.span.sent ++ [⟨m.val, 8, []⟩] ∧
      (∃ y, Tab.find t.span.streams (rxKey m.val part.stream) = some y ∧ y.nextSeq = 1 ∧ y.unacked = []) ∧ BytesSame s t ∧ Frame [.span] s t) ∧
  (∀ (s : State) (key : InstKey) (o : ModuleNo) (i : Inst) (n : Nat) (th : Thread) (j : Job), s.inst? key = some i → i.thread = some n → i.cmd = none → s.thread? n = some th →
    s.job? th.job = some j → j.ending = none →
    (∃ t, exec (.clRefuse key (some o)) s = .next t ∧ t.inst? key = none ∧ Stops t th.job .configMismatch) ∧
    (∃ t, exec (.clRefuse key none) s = .next t ∧ t.inst? key = none ∧ Stops t th.job .invalidField) ∧
    (s.peer o.val = true → ∃ t, exec (.stop o key) s = .next t ∧ t.inst? key = none ∧ Stops t th.job .abortedStopwork) ∧
    (s.peer o.val = true → ∃ t, exec (.clAbort o key 4) s = .next t ∧ t.inst? key = none ∧ Stops t th.job .spanMemberLost)) ∧
  (∀ (s : State) (m : ModuleNo) (key : InstKey) (r : Nat) (i : Inst), s.inst? key = some i → s.peer m.val = true → i.thread.isSome = true → i.restarts < r → r < 4 →
    ∃ t w, exec (.clAbort m key r) s = .next t ∧ t.inst? key = some { i with go := false, headers := [], parts := [], datas := [], shelf := none, sats := 0, restarts := r, restartAt := some w } ∧
      s.now + 2 ^ (r - 1) * msUnits ≤ w ∧ w ≤ s.now + 2 ^ (r - 1) * msUnits + msUnits ∧ (∀ k, k ≠ key → t.inst? k = s.inst? k) ∧ BytesSame s t ∧
      Frame [.span, .compute, .freeCtr] s t) ∧
  (∀ (s : State) (key : InstKey) (i : Inst), s.inst? key = some i → i.thread.isSome = true → i.restartAt = none → s.instReady i = false → i.restarts < 3 →
    s.threadOut i.thread = false →
    ∃ t w, exec (.clTimeout key) s = .next t ∧ t.now = max s.now ((i.expiry + 1) * tickUnits) ∧
      t.inst? key = some { i with go := false, headers := [], parts := [], datas := [], shelf := none, sats := 0, restarts := i.restarts + 1, restartAt := some w } ∧
      t.now + 2 ^ i.restarts * msUnits ≤ w ∧ w ≤ t.now + 2 ^ i.restarts * msUnits + msUnits ∧ BytesSame s t ∧ Frame [.span, .compute, .freeCtr, .now] s t) ∧
  (∀ (s : State) (key : InstKey) (i : Inst) (n : Nat) (th : Thread) (j : Job), s.inst? key = some i → i.thread = some n → i.cmd = none → i.restartAt = none →
    s.instReady i = false → i.restarts = 3 → s.threadOut i.thread = false → s.thread? n = some th → s.job? th.job = some j → j.ending = none →
    ∃ t, exec (.clTimeout key) s = .next t ∧ t.inst? key = none ∧ Stops t th.job .spanMemberLost) ∧
  (∀ (s : State) (key : InstKey) (i : Inst) (due : Nat), s.inst? key = some i → i.restartAt = some due → s.leaderOf i.group ≠ s.moduleNumber → s.leaderOf i.group < 128 →
    s.threadOut i.thread = false →
    ∃ t, exec (.instanceRestart key) s = .next t ∧ t.now = max s.now due ∧ t.inst? key = some { i with started := t.tick, restartAt := none } ∧
      t.span.sent = s.span.sent ++ [⟨s.leaderOf i.group, 3, fit 32 s.cfgDigest ++ clParamBytes i.params⟩] ∧ BytesSame s t ∧ Frame [.span, .now] s t)

/-- Streams and remote windows (11 R355, R356; 07 R226): a write in its turn lands in the exported window and is acknowledged, one ahead of its turn waits; a read's data goes back; an
acknowledgement drops packets and moves the window edge; 100 µs without one, what is not acknowledged goes out again. -/
def Obligations.StreamsAndWindows : Prop :=
  (∀ (s : State) (m : ModuleNo) (k off : Nat) (data : List Byte) (g : Grant) (x : Nat), s.span.member = .joined → Tab.find s.span.streams (rxKey m.val k) = none → k < 2 ^ 32 →
    off < 2 ^ 64 → data ≠ [] → s.exportRange off data.length = some [(g, x, data.length)] → s.absentTiles (regionAddr g.region (g.base + x)) data.length = [] → g.immutable = false → ClearOfCaches s (g.placeAt x) data.length →
    ∃ t, exec (.rwWrite m k 0#32 off data) s = .next t ∧
      (∀ th, Stored s t th (g.placeAt x) data) ∧
      t.span.sent = s.span.sent ++ [⟨m.val, 8, []⟩] ∧ (∃ y, Tab.find t.span.streams (rxKey m.val k) = some y ∧ y.nextSeq = 1 ∧ y.unacked = []) ∧ Frame [.tiers, .integ, .span] s t) ∧
  (∀ (s : State) (m : ModuleNo) (k off : Nat) (q : W32) (data : List Byte), s.span.member = .joined → Tab.find s.span.streams (rxKey m.val k) = none → k < 2 ^ 32 → q ≠ 0#32 →
    ∃ t y p, exec (.rwWrite m k q off data) s = .next t ∧ Tab.find t.span.streams (rxKey m.val k) = some y ∧ y.nextSeq = 0 ∧ y.unacked = [p] ∧ p.pseq = q ∧ p.body = data ∧
      BytesSame s t ∧ Frame [.span] s t) ∧
  (∀ (s : State) (m : ModuleNo) (k off n : Nat) (g : Grant) (x : Nat), s.span.member = .joined → Tab.find s.span.streams (rxKey m.val k) = none → k < 2 ^ 32 → off < 2 ^ 64 →
    n < 2 ^ 64 → s.exportRange off n = some [(g, x, n)] → s.absentTiles (regionAddr g.region (g.base + x)) n = [] → s.grantBad g x n = false → s.span.nextStream < 2 ^ 32 →
    ∃ t y, exec (.rwRead m k 0#32 off n) s = .next t ∧ Tab.find t.span.streams s.span.nextStream = some y ∧ y.peer = m.val ∧ y.ptype = 11 ∧ y.len = n ∧
      y.addr = (if g.immutable then k else 2 ^ 63 + k) ∧ y.vacate = (if g.immutable then none else some off) ∧ t.span.nextStream = s.span.nextStream + 1 ∧ BytesSame s t ∧ Frame [.span, .tiers] s t) ∧
  (∀ (s : State) (m : ModuleNo) (k off n : Nat) (g : Grant) (x : Nat) (l : List Nat), s.span.member = .joined → Tab.find s.span.streams (rxKey m.val k) = none → k < 2 ^ 32 →
    off < 2 ^ 64 → n < 2 ^ 64 → s.exportRange off n = some [(g, x, n)] → l = (s.absentTiles (regionAddr g.region (g.base + x)) n).dedup → l ≠ [] →
    (∀ e ∈ s.tiers.reqs, e.2.kind ≠ .remote) →
    ∃ t q, exec (.rwRead m k 0#32 off n) s = .next t ∧ Tab.find t.tiers.reqs s.tiers.nextReq = some q ∧ q.kind = .remote ∧ q.tiles = l ∧
      (∀ y ∈ l, ∃ f ∈ t.tiers.fetches, f.tile = y) ∧ t.span.sent = s.span.sent ∧ BytesSame s t ∧ Frame [.span, .tiers] s t) ∧
  (∀ (s : State) (m : ModuleNo) (k off n : Nat), s.span.member = .joined → Tab.find s.span.streams (rxKey m.val k) = none → k < 2 ^ 32 → off < 2 ^ 64 → n < 2 ^ 64 →
    s.exportRange off n = none →
    ∃ t, exec (.rwRead m k 0#32 off n) s = .next t ∧ t.span.sent = s.span.sent ++ [⟨m.val, 11, []⟩, ⟨m.val, 8, []⟩] ∧ BytesSame s t ∧ Frame [.span] s t) ∧
  (∀ (s : State) (m : ModuleNo) (k r : Nat) (q : W32) (ans : RwAnswer) (data : List Byte) (x : TStream), Tab.find s.span.streams r = some x → x.sending = true → x.peer = m.val →
    x.ptype = 10 → x.nextSeq ≠ 0 → q.toNat = x.waiting.length → ans = .moved ∨ (ans = .lent ∧ s.reqMoves x.req = false) →
    ∃ t, exec (.rwResp m k r q ans data) s = .next t ∧ Tab.find t.span.streams r = some { x with waiting := x.waiting ++ [(16096 * x.waiting.length, data)] } ∧
      t.span.sent = s.span.sent ++ [⟨m.val, 8, []⟩] ∧ BytesSame s t ∧
      (∀ i z, x.req = some i → Tab.find s.tiers.reqs i = some z →
        Tab.find t.tiers.reqs i = some (if ans = .moved ∧ z.kind = .lend then { z with kind := .move } else z)) ∧
      (ans = .lent → Frame [.span] s t) ∧ Frame [.span, .tiers] s t) ∧
  (∀ (s : State) (m : ModuleNo) (k r i : Nat) (q : W32) (data : List Byte) (x : TStream) (y : TierReq) (j : Job), Tab.find s.span.streams r = some x → x.sending = true →
    x.peer = m.val → x.req = some i → Tab.find s.tiers.reqs i = some y → y.kind ≠ .fetching → y.kind ≠ .service → y.kind ≠ .remote →
    (∀ d, y.deadline = some d → s.tick < d) → s.job? y.job = some j → j.ending = none →
    ∃ t, exec (.rwResp m k r q .failed data) s = .next t ∧ Tab.find t.span.streams r = none ∧ Tab.find t.tiers.reqs i = none ∧ Stops t y.job .tierFailed) ∧
  (∀ (s : State) (m : ModuleNo) (k r i : Nat) (q : W32) (ans : RwAnswer) (data : List Byte) (x : TStream) (y : TierReq) (th : Thread) (j : Job), Tab.find s.span.streams r = some x →
    x.sending = true → x.peer = m.val → x.ptype = 10 → x.nextSeq ≠ 0 → x.req = some i → Tab.find s.tiers.reqs i = some y → s.thread? y.thread = some th → th.job = y.job →
    ans = .mixed ∨ (ans = .lent ∧ y.kind = .move) → s.job? y.job = some j → j.ending = none →
    ∃ t, exec (.rwResp m k r q ans data) s = .next t ∧ Tab.find t.tiers.reqs i = none ∧ BytesSame s t ∧ Stops t y.job .moduleInvalid) ∧
  (∀ (s : State) (k : Nat) (q : W32) (e : Nat) (x : TStream), Tab.find s.span.streams k = some x → x.sending = true → x.waiting = [] → q.toNat < x.nextSeq →
    (∃ p ∈ x.unacked, q.toNat < p.pseq.toNat) →
    ∃ t y, exec (.ack k q e) s = .next t ∧ Tab.find t.span.streams k = some y ∧
      y = { x with unacked := x.unacked.filter (fun p => q.toNat < p.pseq.toNat), acked := max x.acked (q.toNat + 1), edge := max x.edge e, lastSent := s.now, drawn := y.drawn, pool := y.pool } ∧
      (∀ i, i ≠ k → Tab.find t.span.streams i = Tab.find s.span.streams i) ∧ BytesSame s t ∧ Frame [.span] s t) ∧
  (∀ (s : State) (k : Nat) (x : TStream) (p : Packet) (ps : List Packet), Tab.find s.span.streams k = some x → x.sending = true → s.streamPaused x = false → x.waiting = [] →
    x.unacked = p :: ps →
    ∃ t y, exec (.streamRetransmit k) s = .next t ∧ t.now = max s.now (x.lastSent + 100 * usUnits) ∧
      t.span.sent = s.span.sent ++ x.unacked.map (fun p => ⟨p.dest.toNat, p.ptype.toNat, p.body⟩) ∧ Tab.find t.span.streams k = some y ∧
      y = { x with lastSent := t.now, drawn := y.drawn, pool := y.pool } ∧
      BytesSame s t ∧ Frame [.span, .now] s t)

/-- A member's part of a span search (09 R302, R310): a descriptor that fails here is refused to the coordinator; otherwise the member takes its own epoch and queues its scans, waits for
them and for its candidates' pages, and joins the merge with its header and entries; one whose scan path is faulted contributes nothing, and its query ends. A request for an
embedding is answered with it (log entry 144). -/
def Obligations.SpanSearchMember : Prop :=
  (∀ (s : State) (m : ModuleNo) (q g : Nat) (desc : List Byte) (r : SearchReads), s.peer m.val = true → s.groupOk g = true → m.val ∈ s.groupMembers g →
    s.inst? (.search m.val q) = none → desc.length ≠ 8 → s.items.query? (.part m.val q) = none → (s.formatted && descOk s.items.dims desc && s.descNames desc) = false →
    ∃ t, exec (.service m q g desc r) s = .next t ∧ t.span.sent = s.span.sent ++ [⟨m.val, 5, []⟩] ∧ t.span.insts = s.span.insts ∧ Frame [.span] s t) ∧
  (∀ (s : State) (m : ModuleNo) (q g : Nat) (desc : List Byte) (r : SearchReads), s.peer m.val = true → s.groupOk g = true → m.val ∈ s.groupMembers g →
    s.inst? (.search m.val q) = none → desc.length = 8 →
    ∃ t, exec (.service m q g desc r) s = .next t ∧ t.span.insts = s.span.insts ∧ Frame [.span] s t ∧
      t.span.sent = s.span.sent ++ [⟨m.val, 12, ((s.named (leNat desc)).map (fun i => wordsBytes i.2.emb)).getD []⟩]) ∧
  (∀ (s : State) (m : ModuleNo) (q g fl : Nat) (desc : List Byte) (r : SearchReads) (y : Query1) (image : Option (Nat × Bitmap)) (a : Admitted), s.peer m.val = true →
    s.groupOk g = true → m.val ∈ s.groupMembers g → s.inst? (.search m.val q) = none → desc.length ≠ 8 → s.items.query? (.part m.val q) = none →
    (s.formatted && descOk s.items.dims desc && s.descNames desc) = true →
    s.partRuns (r.plausible || (unitOf (wordsOf s.items.dims (desc.drop 256))).2) 0 4 = (some fl, s) → r.badNodes = [] →
    y = queryOf desc (wordsOf s.items.dims (desc.drop 256)) → image = y.bitmap.bind (fun k => (Tab.find s.items.bitmaps k).map (fun b => (k, b))) →
    a = s.items.admitQuery s.items.epoch (image.map (·.2)) y →
    ∃ t, exec (.service m q g desc r) s = .next t ∧
      t.items.query? (.part m.val q) = some ⟨.part m.val q, s.tick, s.items.epoch, image, none, fl, some (y, a), []⟩ ∧
      (∃ new, t.items.scans = s.items.scans ++ new ∧ new.map (·.leaf) = a.leaves ∧ ∀ x ∈ new, x.who = .part m.val q ∧ x.cls = .interactive ∧ x.query = a.sketch) ∧
      t.items = { s.items with queries := t.items.queries, arrivals := t.items.arrivals, scans := t.items.scans } ∧ Frame [.items] s t) ∧
  (∀ (s : State) (m : ModuleNo) (q g : Nat) (desc : List Byte) (r : SearchReads) (z : Query), s.peer m.val = true → s.groupOk g = true → m.val ∈ s.groupMembers g →
    s.inst? (.search m.val q) = none → desc.length ≠ 8 → s.items.query? (.part m.val q) = some z → z.faulted r = false →
    s.collectAll.items.scansDone (.part m.val q) = false → exec (.service m q g desc r) s = .next s.collectAll) ∧
  (∀ (s : State) (m : ModuleNo) (q g : Nat) (desc : List Byte) (r : SearchReads) (z : Query), s.peer m.val = true → s.groupOk g = true → m.val ∈ s.groupMembers g →
    s.inst? (.search m.val q) = none → desc.length ≠ 8 → s.items.query? (.part m.val q) = some z → z.faulted r = true →
    ∃ t, exec (.service m q g desc r) s = .next t ∧ (∀ x ∈ t.items.queries, x.who ≠ .part m.val q) ∧ (∀ x ∈ t.items.scans, x.who ≠ .part m.val q) ∧ Frame [.items] s t) ∧
  (∀ (s u : State) (m : ModuleNo) (q g : Nat) (desc : List Byte) (r : SearchReads) (z w : Query) (y : Query1) (a : Admitted), s.peer m.val = true → s.groupOk g = true →
    m.val ∈ s.groupMembers g → s.inst? (.search m.val q) = none → desc.length ≠ 8 → s.items.query? (.part m.val q) = some z → z.faulted r = false → u = s.collectAll →
    u.items.query? (.part m.val q) = some w → w.ask = some (y, a) → u.items.scansDone (.part m.val q) = true → u.spotsReady true (u.rerankSpots w) = true →
    s.groupGap g = none → s.leaderOf g ≠ s.moduleNumber →
    ∃ t i, exec (.service m q g desc r) s = .next t ∧ t.inst? (.search m.val q) = some i ∧ i.group = g ∧ i.params = spanParams y.k ∧ i.cmd = none ∧ i.thread = none ∧
      i.go = false ∧ i.own = (u.readSpots (u.rerankSpots w)).contribution y ((u.readSpots (u.rerankSpots w)).finish y a w.lists r) w.flags ∧
      (∀ x ∈ t.items.queries, x.who ≠ .part m.val q))

/-! ## The Regulator (08). -/

/-- Admission (06 R181; 08 R257, R264): the first job of its class's queue gets a place for each gang on the core chosen for it and one thread for each index, at the entry
record with its registers set; a job that is not first stays. Pre-emption and shares (08 R263, R265, R266, R275): a gang under a halt, or the victim of a gang ranking above it, stops issuing and its idle contexts leave their engines; a
context goes out at its boundary for one that displaces it; and a class short of its share gets its core, but for gangs that
have still to have their run of 100 µs (08 R277). -/
def Obligations.JobsGangsContexts : Prop :=
  (∀ (s : State) (j : Nat) (x : Job) (cores : List CoreNo), s.job? j = some x → x.admitted = false → x.ending = none → s.jobHalted x = false → s.firstInQueue j x = true →
    s.coresAllowed x cores = true → s.saveRoom x = true → s.liveThreads + x.n ≤ 65536 → (∀ d, x.deadline = some d → s.tick ≤ d) → (s.placeGangs j x 0 cores).isSome = true → (∀ e ∈ s.compute.threads, e.1 < s.compute.nextThread) →
    ∃ t y, exec (.jobAdmission j cores) s = .next t ∧ t.job? j = some y ∧ y.admitted = true ∧ y.started = (if x.restarts = 0 then s.now else x.started) ∧ y.saveArea = x.areaBytes ∧
      (∀ g c, cores[g]? = some c → ∃ a, Tab.find y.gangs g = some ⟨c, a, false, 0, none, [], []⟩) ∧
      (∀ i, i < x.n → ∃ th, t.thread? (s.compute.nextThread + i) = some th ∧ th.job = j ∧ th.index = i ∧ th.gang = i / x.g ∧ th.pc = x.entry ∧ th.st = .ready ∧ th.held = [] ∧
        th.calls = [] ∧ th.flights = [] ∧ th.reg 0 = BitVec.ofNat 64 i ∧ th.reg 1 = BitVec.ofNat 64 x.n ∧ th.reg 2 = x.arg ∧ th.reg 3 = BitVec.ofNat 64 s.moduleNumber ∧
        th.reg 4 = BitVec.ofNat 64 (i % x.g) ∧ th.reg 5 = BitVec.ofNat 64 (i / x.g) ∧ ∀ k, 7 ≤ k → th.reg k = 0#64) ∧
      (∀ k, k < s.compute.nextThread → t.thread? k = s.thread? k) ∧ t.compute.nextThread = s.compute.nextThread + x.n ∧ Frame [.compute, .freeCtr, .events, .tiers] s t) ∧
  (∀ (s : State) (j : Nat) (x : Job) (cores : List CoreNo), s.job? j = some x →
    (x.admitted = true ∨ s.firstInQueue j x = false ∨ s.coresAllowed x cores = false ∨ s.saveRoom x = false ∨ (∃ d, x.deadline = some d ∧ d < s.tick)) →
    exec (.jobAdmission j cores) s = .next s) ∧
  (∀ (s : State) (j gi : Nat) (x : Job) (g : Gang), s.job? j = some x → Tab.find x.gangs gi = some g → x.admitted = true → g.preempted = false → s.jobHalted x = true →
    ∃ t y, exec (.preemption j gi) s = .next t ∧ t.job? j = some y ∧ y = { x with gangs := y.gangs } ∧ Tab.find y.gangs gi = some { g with preempted := true } ∧
      (∀ k, k ≠ gi → Tab.find y.gangs k = Tab.find x.gangs k) ∧ (∀ k, k ≠ j → t.job? k = s.job? k) ∧
      (∀ k c, Tab.find s.compute.ctxs k = some c → c.busy = false → (∃ e ∈ s.gangThreads j gi, e.1 = c.thread) → Tab.find t.compute.ctxs k = some (c.saved k)) ∧
      (∀ k c, Tab.find s.compute.ctxs k = some c → (c.busy = true ∨ ∀ e ∈ s.gangThreads j gi, e.1 ≠ c.thread) → Tab.find t.compute.ctxs k = some c) ∧
      t.compute.threads = s.compute.threads ∧ BytesSame s t ∧ Frame [.compute] s t) ∧
  (∀ (s : State) (j gi : Nat) (x : Job) (g : Gang), s.job? j = some x → Tab.find x.gangs gi = some g → s.jobHalted x = false → s.rankWaits g.core (s.gangCls j gi) = false →
    exec (.preemption j gi) s = .next s) ∧
  (∀ (s : State) (c : CoreNo) (out inn : Nat) (x y : Ctx) (e : EngNo), Tab.find s.compute.ctxs out = some x → Tab.find s.compute.ctxs inn = some y → x.engine = some e → x.core = c →
    y.core = c → y.engine = none → y.queue ≠ [] → s.ctxOut y = false → x.busy = false → s.idleEngines c = [] → s.displaces y x = true →
    ∃ t, exec (.contextSwitch c out inn) s = .next t ∧ Tab.find t.compute.ctxs out = some (x.saved out) ∧
      Tab.find t.compute.ctxs inn = some { y with engine := some e, since := s.now } ∧ (∀ k, k ≠ out → k ≠ inn → Tab.find t.compute.ctxs k = Tab.find s.compute.ctxs k) ∧
      t.compute = { s.compute with ctxs := t.compute.ctxs } ∧ Frame [.compute] s t) ∧
  (∀ (s : State) (c : CoreNo) (out inn : Nat) (x : Ctx), Tab.find s.compute.ctxs out = some x → x.busy = true → exec (.contextSwitch c out inn) s = .next s) ∧
  (∀ (s : State) (c : CoreNo), (s.core c).shareSince + bitsOf s.regul.policy.toNat 40 8 * msUnits ≤ s.now → (∀ y ∈ s.gangsOn c, y.2.2.preempted = false) →
    (∀ cls, s.gangWaits c cls = false ∧ s.engineWaits c cls = false ∧ s.vectorWaits c cls = false) → (∀ g, (s.core c).given = some g → g.2 + 100 * usUnits ≤ s.now) →
    ∃ t, exec (.shareWindow c) s = .next t ∧ t.core c = { s.core c with bgUsed := 0, sysUsed := 0, bgVx := 0, sysVx := 0, shareSince := s.now, given := none } ∧ (∀ d, d ≠ c → t.core d = s.core d) ∧
      t.compute = { s.compute with cores := t.compute.cores } ∧ Frame [.compute] s t) ∧
  (∀ (s : State) (c : CoreNo) (j gi : Nat) (x : Job) (g : Gang), s.now < (s.core c).shareSince + bitsOf s.regul.policy.toNat 40 8 * msUnits → s.starved c .background = true →
    s.job? j = some x → x.admitted = true → Tab.find x.gangs gi = some g → g.core = c → g.preempted = false → (s.gangCls j gi).above .background = true →
    s.mustRun j gi g = false → (∀ y, (s.core c).given = some y → y.2 + 100 * usUnits ≤ s.now) → (∀ i ∈ s.span.insts, i.go = true) →
    ∃ t y h, exec (.shareWindow c) s = .next t ∧ t.job? j = some y ∧ Tab.find y.gangs gi = some h ∧ h.preempted = true)

/-- Steps (08 R259, R260, R262): each session of the step that ends has taken its token step; the next step's batch keeps to STEP_BATCH_MAX and has its turn now, and a Background pass
of the step that ends has run. In kernel
mode a step is one layer, of a chunk, of a token step or of a Background pass. The slices a step admits keep within the budget, but for a lone first one. -/
def Obligations.StepsComposed : Prop :=
  (∀ (s : State) (h k : Nat) (l : List Nat), s.compute.sites = [] → bitOf s.regul.policy.toNat 0 = false →
    ∃ t, exec (.stepCompose h k l) s = .next t ∧ t.steps.index = s.steps.index + 1 ∧ t.steps.svcKernel = false ∧ t.steps.pass = none ∧
      t.steps.batch.length ≤ bitsOf s.regul.policy.toNat 32 8 ∧ (∀ b ∈ t.steps.batch, ∃ x, Tab.find t.serv.sessions b = some x ∧ x.lastStep = s.now) ∧ Frame [.steps, .serv] s t) ∧
  (∀ (s : State) (h k : Nat) (l : List Nat), s.compute.sites = [] → bitOf s.regul.policy.toNat 0 = true →
    ∃ t, exec (.stepCompose h k l) s = .next t ∧ t.steps.index = s.steps.index + 1 ∧ t.steps.svcKernel = true ∧ t.steps.batch.length + t.steps.admitted.length + t.steps.passes.length ≤ 1 ∧
      Frame [.steps, .serv] s t) ∧
  (∀ (s : State) (h k n : Nat) (l : List Nat) (x : Session) (r : AskRun), s.compute.sites = [] → n ∈ s.steps.batch → Tab.find s.serv.sessions n = some x → x.run = some r →
    ∃ t y u, exec (.stepCompose h k l) s = .next t ∧ Tab.find t.serv.sessions n = some y ∧ y.run = some u ∧ u.avail = r.avail + 1) ∧
  (∀ (s : State) (h k p : Nat) (l : List Nat), p ∈ s.steps.passes → p ∈ s.wantedPasses →
    ∃ t, exec (.stepCompose h k l) s = .next t ∧ p ∈ t.steps.ran ∧ p ∉ t.steps.passes) ∧
  (∀ (b k : Nat) (l : List Nat) (cs : List Chunk), (compose (some b) k l cs).used = k + (l.take (compose (some b) k l cs).slices.length).foldl (· + ·) 0) ∧
  (∀ (b k : Nat) (l : List Nat) (cs : List Chunk), 2 ≤ (compose (some b) k l cs).slices.length → (compose (some b) k l cs).used ≤ b)


/-! ## Media management (02). -/

/-- Folds (02 R60, R67, R70, R83): the fold of a counted stripe opens its target with a TARGET_OPEN record once due, then takes the newest copy of each sector; once its target is
whole MAP_SET is recorded. A stripe with only ZERO sectors leaves the veneer and, with no command left, the count. Merges and relocations (02 R50, R65, R70, R77): a merge takes a
stripe with all its logs when it is due, a relocation any mapped stripe that asks for it, and for one of the sketch area the four of its quad; the next step waits for its
record and for the dies its pages lie on (02 R75), and once MAP_SET has committed the release of the merged logs and the erase of each source is recorded. -/
def Obligations.FoldsMergesRelocations : Prop :=
  (∀ (s : State) (l p : Nat) (c : Counted), Tab.find s.media.relocs l = none → Tab.find s.media.map l = none → s.media.counted.find? (fun c => c.lstripe = l) = some c → c.lstripe = l →
    s.media.veneerOf c.owner c.ostripe ≠ [] → c.lastWrite + 10 * secUnits ≤ s.now → (∃ x ∈ newestOf c.owner (s.media.veneerOf c.owner c.ostripe), x.zero = false) →
    s.media.targetOk p = true →
    ∃ t rest, exec (.fold l p) s = .next t ∧ Tab.find t.media.relocs l = some (openReloc l c.owner c.ostripe p false none [] none) ∧
      t.media.jPend = s.media.jPend ++ ⟨s.media.jNext, .targetOpen, l, 0, p + 2 ^ 24⟩ :: rest ∧ (∀ v ∈ rest, v.type = .veneerFolded) ∧ t.media.map = s.media.map ∧
      t.media.veneer = s.media.veneer ∧ t.media.counted = s.media.counted ∧ (∀ k, k ≠ l → Tab.find t.media.relocs k = Tab.find s.media.relocs k) ∧ Frame [.media] s t) ∧
  (∀ (s : State) (l p : Nat) (r : Reloc), Tab.find s.media.relocs l = some r → r.lstripe = l → r.source = none → r.step = .opened →
    s.spotsReady false (s.media.copySpots r (newestOf r.owner (s.media.veneerOf r.owner r.ostripe))) = true →
    ∃ t u, exec (.fold l p) s = .next t ∧
      Tab.find t.media.relocs l = some { r with step := .copying, upTo := u, copies := newestOf r.owner (s.media.veneerOf r.owner r.ostripe) } ∧
      (∀ c ∈ newestOf r.owner (s.media.veneerOf r.owner r.ostripe), c.seq ≤ u) ∧ t.media.map = s.media.map ∧ t.media.jPend = s.media.jPend ∧
      (∀ k, k ≠ l → Tab.find t.media.relocs k = Tab.find s.media.relocs k) ∧ Frame [.media, .dies] s t) ∧
  (∀ (s : State) (l p : Nat) (r : Reloc), Tab.find s.media.relocs l = some r → r.source = none → r.step = .opened →
    s.spotsReady false (s.media.copySpots r (newestOf r.owner (s.media.veneerOf r.owner r.ostripe))) = false → exec (.fold l p) s = .next s) ∧
  (∀ (m : Media) (now l : Nat) (r : Reloc), m.relocs = [(l, r)] → r.lstripe = l → r.step = .copying → r.owner ≠ 17 → (∀ n ∈ r.okd, 1024 ≤ n) → m.logs = [] →
    ∃ w, (m.targetsWhole now).jPend = m.jPend ++ [⟨m.jNext, .mapSet, l, w, r.target + 2 ^ 24⟩] ∧ Tab.find (m.targetsWhole now).relocs l = some { r with step := .copied } ∧
      (m.targetsWhole now).map = m.map ∧ ((r.target < 2 ^ 20 ∧ r.owner < 32 ∧ r.ostripe < 2 ^ 19) → mapEntryOf w = ⟨r.target, r.slc, false, r.owner, r.ostripe⟩)) ∧
  (∀ (m : Media) (now : Nat), (∀ r ∈ Tab.vals m.relocs, r.step ≠ .copying ∨ ∃ n ∈ r.okd, n < 1024) → m.targetsWhole now = m) ∧
  (∀ (s : State) (l p : Nat) (c : Counted), Tab.find s.media.relocs l = none → Tab.find s.media.map l = none → s.media.counted.find? (fun c => c.lstripe = l) = some c → c.lstripe = l →
    c.cmds = [] → s.media.veneerOf c.owner c.ostripe ≠ [] → c.lastWrite + 10 * secUnits ≤ s.now → (∀ x ∈ newestOf c.owner (s.media.veneerOf c.owner c.ostripe), x.zero = true) →
    ∃ t, exec (.fold l p) s = .next t ∧ t.media.veneerOf c.owner c.ostripe = [] ∧ c ∉ t.media.counted ∧ t.media.map = s.media.map ∧ t.media.relocs = s.media.relocs ∧
      Frame [.media] s t) ∧
  (∀ (s : State) (l p : Nat) (r : Reloc), Tab.find s.media.relocs l = some r →
    (r.step = .opening ∨ r.step = .copying ∨ r.step = .copied ∨ r.step = .starting ∨ r.step = .erasing) → exec (.fold l p) s = .next s) ∧
  (∀ (s : State) (l p : Nat) (e : MapEntry), Tab.find s.media.relocs l = none → Tab.find s.media.map l = some e → s.media.mergeDue l e = true → s.media.targetOk p = true →
    ∃ t w, exec (.mergeStripe l p) s = .next t ∧
      Tab.find t.media.relocs l = some (openReloc l e.owner e.ostripe p e.slc (some e.pstripe) ((s.media.logsOf l).map (·.1)) (some e)) ∧
      t.media.jPend = s.media.jPend ++ [⟨s.media.jNext, .targetOpen, l, w, p + 2 ^ 24⟩] ∧ t.media.map = s.media.map ∧ Frame [.media] s t) ∧
  (∀ (s : State) (l p : Nat) (e : MapEntry), Tab.find s.media.relocs l = none → Tab.find s.media.map l = some e → s.media.mergeDue l e = false → exec (.mergeStripe l p) s = .next s) ∧
  (∀ (s : State) (l p : Nat) (e : MapEntry) (us : List (Nat × MapEntry × Nat)), Tab.find s.media.relocs l = none → Tab.find s.media.map l = some e → us = s.media.together l e p →
    (us.map (·.1)).Nodup → (∃ x ∈ us, s.media.relocDue x.1 x.2.1 = true) → (∀ x ∈ us, s.media.targetOk x.2.2 = true ∧ Tab.find s.media.relocs x.1 = none) →
    s.media.spareNow = s.media.spareState →
    ∃ t, exec (.relocation l p) s = .next t ∧
      (∀ x ∈ us, Tab.find t.media.relocs x.1 = some (openReloc x.1 x.2.1.owner x.2.1.ostripe x.2.2 x.2.1.slc (some x.2.1.pstripe) [] (some x.2.1)) ∧
        ∃ q w, (⟨q, .targetOpen, x.1, w, x.2.2 + 2 ^ 24⟩ : JRecord) ∈ t.media.jPend) ∧
      (t.media.jPend.take s.media.jPend.length = s.media.jPend ∧ t.media.jPend.length = s.media.jPend.length + us.length) ∧ t.media.map = s.media.map ∧ Frame [.media] s t) ∧
  (∀ (s : State) (l p q : Nat) (r : Reloc), Tab.find s.media.relocs l = some r → r.lstripe = l → r.source = some q → r.step = .opened → s.media.spareNow = s.media.spareState →
    s.spotsReady false (s.media.copySpots r (s.media.copiesFor r)) = true →
    ∃ t u, exec (.relocation l p) s = .next t ∧ Tab.find t.media.relocs l = some { r with
        step := .copying, upTo := u,
        copies := newestOf r.owner (Tab.at s.media.stripes q [] ++ (s.media.logs.filter (fun b => b.1 ∈ r.logs)).flatMap (fun b => b.2.copies)) } ∧
      t.media.map = s.media.map ∧ Frame [.media, .dies, .events, .smbus] s t) ∧
  (∀ (s : State) (l p q : Nat) (r : Reloc), Tab.find s.media.relocs l = some r → r.lstripe = l → r.source = some q → r.logs = [] → r.step = .mapSet → s.media.spareNow = s.media.spareState →
    ∃ t, exec (.relocation l p) s = .next t ∧ Tab.find t.media.relocs l = some { r with step := .starting } ∧
      t.media.jPend = s.media.jPend ++ [⟨s.media.jNext, .eraseStart, l, 0, q + 2 ^ 24⟩] ∧ t.media.map = s.media.map ∧ Frame [.media] s t) ∧
  (∀ (s : State) (l p q k : Nat) (r : Reloc), Tab.find s.media.relocs l = some r → r.lstripe = l → r.source = some q → r.logs = [k] → r.step = .mapSet →
    ∃ t, exec (.mergeStripe l p) s = .next t ∧ Tab.find t.media.relocs l = some { r with step := .starting } ∧
      t.media.jPend = s.media.jPend ++ [⟨s.media.jNext, .logDetach, l, 0, k⟩, ⟨s.media.jNext + 1, .eraseStart, l, 0, logStripe k + 2 ^ 24⟩,
        ⟨s.media.jNext + 2, .eraseStart, l, 0, q + 2 ^ 24⟩] ∧ t.media.map = s.media.map ∧ Frame [.media] s t)

/-- The map takes a relocation's or fold's entry at its committed MAP_SET only if the entry is still the one its target was opened with; the target then holds its copies, and
those of a fold leave the veneer. Otherwise the target awaits erase and the map stands (02 R61, R67, R70). A record that is no MAP_SET or MAP_CLEAR leaves the map alone. -/
def Obligations.MapSetGuarded : Prop :=
  (∀ (m : Media) (l : Nat) (e : MapEntry) (r : Reloc), Tab.find m.map l = r.seen →
    Tab.find (m.mapSet l e r).map l = some e ∧ (∀ k, k ≠ l → Tab.find (m.mapSet l e r).map k = Tab.find m.map k) ∧ Tab.find (m.mapSet l e r).stripes r.target = some r.copies ∧
    (∀ k ∈ r.logs, Tab.find (m.mapSet l e r).logs k = none) ∧
    (r.source = none → ∀ c ∈ (m.mapSet l e r).veneer, ¬ (c.owner = r.owner ∧ c.sector / stripeSectors r.owner = r.ostripe ∧ c.seq ≤ r.upTo)) ∧
    (∀ c ∈ (m.mapSet l e r).counted, ¬ (c.owner = r.owner ∧ c.ostripe = r.ostripe))) ∧
  (∀ (m : Media) (l : Nat) (e : MapEntry) (r : Reloc), Tab.find m.relocs l = some r → Tab.find m.map l ≠ r.seen →
    (m.mapSet l e r).map = m.map ∧ Tab.find (m.mapSet l e r).toErase r.target = some [] ∧ (m.mapSet l e r).veneer = m.veneer ∧ Tab.find (m.mapSet l e r).relocs l = none) ∧
  (∀ (m : Media) (v : JRecord), v.type ≠ .mapSet → v.type ≠ .mapClear → (m.applyRecord v).map = m.map)

/-- The journal (02 R66, R68, R69): a page takes the pending records, at most 512, in their order; nothing of a page applies before both copies are OK and every page before it
has committed. A checkpoint holds the tables as the committed records left them, one is written at a time and begins by itself once due, its record
follows its last page's OK, and two are kept. -/
def Obligations.JournalPages : Prop :=
  (∀ (s : State), s.media.jPend ≠ [] → s.media.checkpointDue s.now = false →
    ∃ t q, exec .journalProgram s = .next t ∧ t.media.jPages = s.media.jPages ++ [⟨q, none, none, false, false⟩] ∧ q.length ≤ 512 ∧ q ≠ [] ∧ q ++ t.media.jPend = s.media.jPend ∧
      t.media = { s.media with jPages := t.media.jPages, jPend := t.media.jPend, jPendSince := s.now } ∧ Frame [.media] s t) ∧
  (∀ (s : State), s.media.jPend ≠ [] → s.media.checkpointDue s.now = true →
    ∃ t, exec .journalProgram s = .next t ∧ t.media.cpBuild = some ⟨s.media.cpNum + 1, s.media.tables, [], []⟩ ∧ t.media.cpAt = s.now ∧ Frame [.media] s t) ∧
  (∀ s : State, s.media.checkpointDue s.now = true →
    ∃ t b, exec .veneerTarget s = .next t ∧ t.media.cpBuild = some b ∧ b.num = s.media.cpNum + 1 ∧ t.media.cpAt = s.now) ∧
  (∀ (m : Media) (c : Bool) (n : Nat) (p : JPage) (ps : List JPage), m.jPages = p :: ps → (if c then p.ok0 else p.ok1) = false →
    (m.journalOk c n).map = m.map ∧ (m.journalOk c n).jLog = m.jLog) ∧
  (∀ (m : Media) (p : JPage) (ps : List JPage), commitPages (p :: ps) m = (if p.ok0 && p.ok1 then commitPages ps (p.recs.foldl Media.applyRecord m) else (p :: ps, m))) ∧
  (∀ s : State, s.media.cpBuild = none →
    ∃ t, exec .checkpoint s = .next t ∧
      t.media = { s.media with cpNum := s.media.cpNum + 1, cpAt := s.now, cpBuild := some ⟨s.media.cpNum + 1, s.media.tables, [], []⟩ } ∧ Frame [.media] s t) ∧
  (∀ (s : State) (b : CpBuild), s.media.cpBuild = some b → exec .checkpoint s = .next s) ∧
  (∀ (s : State) (d : DieNo) (rows : List Row) (b : CpBuild) (i : Nat), s.media.cpBuild = some b →
    (s.programOutcome d rows (.checkpoint i) true).media.jPend =
      s.media.jPend ++ (if b.done.length + 1 = b.pages then [⟨s.media.jNext, .checkpointed, 0xFFFFFFFF, b.num, 0⟩] else [])) ∧
  (∀ (m : Media) (n : Nat), m.cps.length ≤ 2 → (m.keepCheckpoint n).cps.length ≤ 2)

/-- Decoding, suspension, patrol, rebuild and the veneer's target (02 R57, R73 to R76, R80): a hard decode takes one slot of its group's frame; a failed ladder lists its sector;
a running program or erase is suspended only while reads or scans wait, and resumed when none does or the window is over; a patrolled stripe is noted, a weak one to be
relocated, and refined offsets are kept; a rebuild names its substitute by record and marks its stripe until its units are done. -/
def Obligations.MediaUpkeep : Prop :=
  (∀ (s : State) (d : DieNo) (c : Cls) (o : Nat) (xs : List Nat) (x : Ldpc), (s.decoder (d.val / 128)).take (s.decodesWaiting (d.val / 128)) c 1 = some x →
    ∃ t, exec (.ldpcDecode d c o xs .hard) s = .next t ∧ t.media = { s.media with ldpc := Tab.put s.media.ldpc (d.val / 128) x } ∧
      x.leftI + x.leftB + x.leftS + 1 = (s.decoder (d.val / 128)).leftI + (s.decoder (d.val / 128)).leftB + (s.decoder (d.val / 128)).leftS ∧ Frame [.media] s t) ∧
  (∀ (s : State) (d : DieNo) (c : Cls) (o x : Nat),
    ∃ t, exec (.ldpcDecode d c o [x] .failed) s = .next t ∧ (∃ e ∈ t.health.unc, e.owner = o ∧ e.sector = x)) ∧
  (∀ (s : State) (d : DieNo) (o : DieOp), s.waitsFor d = true → (s.die d).op = some o → o.kind ≠ .slc → o.used < maxSuspends o.kind → o.st = .running → (s.die d).takes .suspend = true →
    ∃ t, exec (.suspendForRead d) s = .next t ∧ t.die d = (s.die d).suspendOp s.now ∧ (∃ y ∈ t.media.susp, y.die = d.val ∧ y.until_ = s.now + 100 * usUnits) ∧ OtherDies s t d ∧
      Frame [.dies, .media] s t) ∧
  (∀ (s : State) (d : DieNo), s.waitsFor d = false → exec (.suspendForRead d) s = .next s) ∧
  (∀ (s : State) (d : DieNo) (o : DieOp), (s.die d).op = some o → (o.kind = .slc ∨ maxSuspends o.kind ≤ o.used) → exec (.suspendForRead d) s = .next s) ∧
  (∀ (s : State) (d : DieNo), s.waitsFor d = false → (s.die d).st = .suspended → (∃ y ∈ s.media.susp, y.die = d.val) →
    ∃ t, exec (.resumeAfterReads d) s = .next t ∧ t.die d = (s.die d).resumeOp s.now ∧ (∀ y ∈ t.media.susp, y.die ≠ d.val) ∧ OtherDies s t d ∧ Frame [.dies, .media] s t) ∧
  (∀ (s : State) (d : DieNo) (y : SuspFor), s.waitsFor d = true → (s.die d).st = .suspended → s.media.susp.find? (fun y => y.die = d.val) = some y →
    ∃ t, exec (.resumeAfterReads d) s = .next t ∧ t.now = max s.now y.until_ ∧ t.die d = (s.die d).resumeOp t.now ∧ (∀ y ∈ t.media.susp, y.die ≠ d.val) ∧ OtherDies s t d ∧
      Frame [.dies, .media, .now] s t) ∧
  (∀ (s : State) (d : DieNo) (p l : Nat) (e : MapEntry) (x : Ldpc), (s.decoder (d.val / 128)).take (s.decodesWaiting (d.val / 128)) .system 1 = some x →
    s.media.map.find? (fun e => e.2.pstripe = p) = some (l, e) →
    ∃ t, exec (.patrol d p true .hard []) s = .next t ∧ Tab.find t.media.patrolled p = some s.now ∧ l ∈ t.media.relocNeeded ∧ t.media.map = s.media.map ∧ OtherDies s t d ∧
      Frame [.media, .dies] s t) ∧
  (∀ (s : State) (d : DieNo) (p : Nat) (n : PlaneNo) (m : BMode) (b : Fin 8) (bs : List Byte) (x : Ldpc), (s.decoder (d.val / 128)).take (s.decodesWaiting (d.val / 128)) .system 1 = some x →
    bitOf s.power.mediaPolicy.toNat 16 = true →
    ∃ t, exec (.patrol d p false .hard [(n, m, b, bs)]) s = .next t ∧
      t.media.offsets.find? (fun y => y.1 = offsetKey d.val n.val b.val ∧ y.2.1 = m) = some (offsetKey d.val n.val b.val, m, b.val, bs) ∧ Frame [.media, .dies, .events] s t) ∧
  (∀ (s : State) (p : Nat) (m j : Fin 16) (b : Nat), (p, m.val) ∈ s.media.retired → s.media.substituted p m.val = false →
    (∀ y ∈ s.media.rebuilding, ¬ (y.p = p ∧ y.member = m.val)) →
    s.media.leastBlock ((s.media.blockOf p m.val).1 / 16) { (s.media.blockOf p m.val).2 with block := b } j.val = true →
    s.media.blockFree ((s.media.blockOf p m.val).1 / 16 * 16 + j.val) { (s.media.blockOf p m.val).2 with block := b } = true →
    ∃ t rest, exec (.rebuild p m j b) s = .next t ∧ (⟨p, m.val, 0, 0⟩ : Rebuild) ∈ t.media.rebuilding ∧
      t.media.jPend = s.media.jPend ++ ⟨s.media.jNext, .substitute, 0xFFFFFFFF, j.val + b * 16, p + m.val * 2 ^ 20⟩ :: rest ∧
      (∀ l e, s.media.map.find? (fun e => e.2.pstripe = p) = some (l, e) → s.media.logs = [] →
        ∃ w, rest = [⟨s.media.jNext + 1, .mapSet, l, w, p + m.val * 2 ^ 20⟩] ∧
          (p < 2 ^ 20 ∧ e.owner < 32 ∧ e.ostripe < 2 ^ 19 → mapEntryOf w = { e with rebuild := true })) ∧ t.media.map = s.media.map ∧ Frame [.media, .events] s t) ∧
  (∀ (s : State) (p : Nat) (m j : Fin 16) (b : Nat) (x : Rebuild), s.media.rebuilding.find? (fun x => x.p = p && x.member = m.val) = some x → s.media.substituted p m.val = true →
    s.unitsLost p m.val ≤ x.okd → (∀ y ∈ s.media.rebuilding, y.p = p → y.member = m.val) →
    ∃ t rest, exec (.rebuild p m j b) s = .next t ∧ (∀ y ∈ t.media.rebuilding, y.p ≠ p) ∧ t.media.jPend = s.media.jPend ++ rest ∧
      (∀ l e, s.media.map.find? (fun e => e.2.pstripe = p) = some (l, e) → s.media.logs = [] →
        ∃ w, rest = [⟨s.media.jNext, .mapSet, l, w, p + m.val * 2 ^ 20⟩] ∧
          (p < 2 ^ 20 ∧ e.owner < 32 ∧ e.ostripe < 2 ^ 19 → mapEntryOf w = { e with rebuild := false })) ∧ Frame [.media, .events] s t) ∧
  (∀ (s : State) (p : Nat) (m j : Fin 16) (b : Nat) (x : Rebuild), s.media.rebuilding.find? (fun x => x.p = p && x.member = m.val) = some x → x.okd < s.unitsLost p m.val →
    exec (.rebuild p m j b) s = .next s) ∧
  (∀ s : State, ∃ t, exec .veneerTarget s = .next t ∧ t.media.veneerTarget = s.veneerWant ∧ t.media.veneerStripes = max s.veneerWant s.media.ring.length ∧
    t.media.veneer = s.media.veneer ∧ t.media.map = s.media.map ∧ Frame [.media, .events] s t)

/-! ## Items and searches (09, 10, 13). -/

/-- The item commands until their mutation waits for its group (09 R279 to R281, R283, R285; 10 R323; 13 R427 to R429): ITEM_PUT counts its stripes and waits for its data, then, once
a decode complex, the one with the least queued work (10 R316), has had its source and a step has included its pass (08 R260), takes the next indices and sends its items'
parts to the veneer; ITEM_DELETE and ATTR_SET follow, the latter with its part; a handle that names no item is refused. -/
def Obligations.ItemMutations : Prop :=
  (∀ (s : State) (id : Nat) (pass : IngestPass) (c : Cmd) (p : PutPlan) (m : Media), RunsItem s id 0x0301 c → c.stage = 0 → s.planOf c = some p → s.putError c (some p) = none →
    s.media.takeRoom s.now id (((s.items.takeIndices (s.putsAhead + p.segs.length)).1.map (·.1)).flatMap (itemStripes s.items.dims s.embSides)) = some m →
    ∃ t, exec (.itemPut id pass) s = .next t ∧ t.media = m ∧
      Waits [.media] s t id { c with
        stage := 1, aux := [s.serv.cachePolicy.toNat, 0], need := if c.isVector then 128 + 4 * s.items.dims else if bitOf c.pflags 3 then 128 else 0 }) ∧
  (∀ (s : State) (id : Nat) (pass : IngestPass) (c : Cmd) (p : PutPlan) (new : List (Nat × Item)) (m : Media), RunsItem s id 0x0301 c → c.stage = 1 → c.need ≤ c.got →
    s.planOf c = some p → s.items.fresh.length + s.items.putsWaiting + p.segs.length ≤ 16777216 → s.dimsFit c p (s.putSource c) = true → pass.plausible = true →
    (c.isVector = true ∨ (s.decodes (.put id) = true ∧ id ∈ s.steps.ran)) → (s.items.takeIndices p.segs.length).1.length = p.segs.length →
    new = s.newItems c p 0 (s.items.takeIndices p.segs.length).1 →
    s.media.takeRoom s.now id (((s.items.takeIndices p.segs.length).1.map (·.1)).flatMap (itemStripes s.items.dims s.embSides)) = some m →
    ∃ t, exec (.itemPut id pass) s = .next t ∧ t.items = { (s.items.takeIndices p.segs.length).2 with muts := s.items.muts ++ [⟨id, .put new p⟩] } ∧
      t.media = new.foldl (fun (m : Media) (x : Nat × Item) => m.sendItem id s.items.dims s.items.side x.1 x.2) m ∧
      t.serv = { s.serv with decoders := s.serv.decoders.filter (fun d => d.2.1 ≠ .put id) } ∧ t.steps = { s.steps with ran := s.steps.ran.filter (· ≠ id) } ∧
      Waits [.media, .items, .serv, .steps] s t id { c with stage := 2, aux := [c.aux.getD 0 0, c.aux.getD 1 0, 0, p.segs.length] }) ∧
  (∀ (s : State) (id : Nat) (pass : IngestPass) (c : Cmd) (p : PutPlan), RunsItem s id 0x0301 c → c.stage = 1 → c.need ≤ c.got → s.planOf c = some p →
    s.items.fresh.length + s.items.putsWaiting + p.segs.length ≤ 16777216 → c.isVector = false → s.decodes (.put id) = false →
    (∀ k, s.serv.complexFor = some k →
      ∃ t, exec (.itemPut id pass) s = .next t ∧ t.serv = { s.serv with decoders := s.serv.decoders ++ [(k, .put id, c.field 0x18 8)] } ∧ Frame [.serv] s t) ∧
    (s.serv.complexFor = none → exec (.itemPut id pass) s = .next s)) ∧
  (∀ (s : State) (id : Nat) (pass : IngestPass) (c : Cmd) (p : PutPlan), RunsItem s id 0x0301 c → c.stage = 1 → c.need ≤ c.got → s.planOf c = some p →
    c.isVector = false → s.decodes (.put id) = true → id ∉ s.steps.ran → exec (.itemPut id pass) s = .next s) ∧
  (∀ (s : State) (id : Nat) (pass : IngestPass) (c : Cmd) (p : PutPlan), RunsItem s id 0x0301 c → c.stage = 1 → c.need ≤ c.got → s.planOf c = some p →
    16777216 < s.items.fresh.length + s.items.putsWaiting + p.segs.length → exec (.itemPut id pass) s = .next s) ∧
  (∀ (v : Services) (k : Nat), v.complexFor = some k → k < 4 ∧ (v.decoders.filter (fun d => d.1 = k)).length < 8 ∧
    ∀ j < 4, (v.decoders.filter (fun d => d.1 = j)).length < 8 →
      ((v.decoders.filter (fun d => d.1 = k)).map (fun d => d.2.2)).foldl (· + ·) 0 ≤ ((v.decoders.filter (fun d => d.1 = j)).map (fun d => d.2.2)).foldl (· + ·) 0) ∧
  (∀ v : Services, (∀ j < 4, 8 ≤ (v.decoders.filter (fun d => d.1 = j)).length) → v.complexFor = none) ∧
  (∀ (s : State) (id i : Nat) (c : Cmd) (x : Item), RunsItem s id 0x0302 c → c.stage = 0 → s.named c.object = some (i, x) →
    s.items.tombs.length + s.items.delsWaiting < 1048576 →
    ∃ t, exec (.itemDelete id) s = .next t ∧ t.items = { s.items with muts := s.items.muts ++ [⟨id, .del i⟩] } ∧ Waits [.items] s t id { c with stage := 2, aux := [i] }) ∧
  (∀ (s : State) (id i : Nat) (c : Cmd) (x : Item), RunsItem s id 0x0302 c → c.stage = 0 → s.named c.object = some (i, x) →
    1048576 ≤ s.items.tombs.length + s.items.delsWaiting →
    ∃ t, exec (.itemDelete id) s = .next t ∧ Waits [] s t id { c with stage := 1, aux := [i] }) ∧
  (∀ (s : State) (id i slot : Nat) (mask value : W64) (c : Cmd) (x : Item), RunsItem s id 0x0303 c → c.stage = 0 → s.named c.object = some (i, x) →
    slot = c.field 0x10 1 → mask = BitVec.ofNat 64 (c.field 0x20 8) → value = BitVec.ofNat 64 (c.field 0x18 8) →
    ∃ t, exec (.attrSet id) s = .next t ∧ Waits [.media, .items] s t id { c with stage := 1, aux := [] } ∧ t.media = s.media.sendColumn id slot i mask value ∧
      t.items = { s.items with muts := s.items.muts ++ [⟨id, .attr i slot mask value⟩] }) ∧
  (∀ (s : State) (id : Nat) (c : Cmd), RunsItem s id 0x0302 c → c.stage = 0 → s.named c.object = none →
    ∃ t, exec (.itemDelete id) s = .next t ∧ Failed s t id c .invalidField) ∧
  (∀ (s : State) (id : Nat) (c : Cmd), RunsItem s id 0x0303 c → c.stage = 0 → s.named c.object = none →
    ∃ t, exec (.attrSet id) s = .next t ∧ Failed s t id c .invalidField)

/-- A commit group of one mutation whose parts have been acknowledged (09 R279 to R283, R290; 13 R427 to R429): it commits at the next epoch and its reply follows. A VECTOR item
under the index it holds takes that epoch and a free place of the fresh list; a deletion gives its item the epoch and a tombstone, which retires where no query holds it back,
and ends the builds of its cache; an attribute changes where the mask has ones. No mutation whose parts have not been acknowledged commits. A query admitted in the same tick sees what commits; one admitted before keeps
its epoch. -/
def Obligations.GroupCommits : Prop :=
  (∀ (s : State) (id i : Nat) (c : Cmd) (x : Item) (p : PutPlan), s.items.muts = [⟨id, .put [(i, x)] p⟩] → s.cmd? id = some c → c.ident = id →
    s.mutReady ⟨id, .put [(i, x)] p⟩ = true → c.isVector = true → p.segs.length = 1 → (∀ q ∈ s.items.queries, q.tick ≠ s.tick) →
    ∃ t y k, exec .commitGroup s = .next t ∧ y = { x with ins := s.items.epoch + 1, staged := y.staged } ∧ t.items.items = Tab.put s.items.items i y ∧
      t.items.epoch = s.items.epoch + 1 ∧ t.items.muts = [] ∧ t.items.fresh = s.items.fresh ++ [⟨i, s.items.epoch + 1, s.now, none, k⟩] ∧
      (∀ f ∈ s.items.fresh, f.slot ≠ k) ∧ t.items.tombs = s.items.tombs ∧ t.items.roots = s.items.roots ∧
      HostHolds s t c.port (c.field 0x28 8) (recordHeader p (s.items.epoch + 1) 0 0 ++ s.recordEntry i y) ∧
      Replied s t id c (c.reply .success (c.aux.getD 2 0) (putResult 1 (s.items.epoch + 1) (s.itemHandle i y))) ∧ Frame [.host, .media, .items] s t) ∧
  (∀ (s : State) (id i : Nat) (c : Cmd) (x : Item), s.items.muts = [⟨id, .del i⟩] → s.cmd? id = some c → c.ident = id → s.mutReady ⟨id, .del i⟩ = true →
    Tab.find s.items.items i = some x → x.del = none → (∀ b ∈ s.serv.builds, b.lead = itemNo 0 x.gen i → b.waiter = none) → (∀ q ∈ s.items.queries, q.tick ≠ s.tick) →
    ∃ t, exec .commitGroup s = .next t ∧
      t.items = ({ s.items with
        muts := [], epoch := s.items.epoch + 1, items := Tab.put s.items.items i { x with del := some (s.items.epoch + 1) },
        tombs := s.items.tombs ++ [(i, s.items.epoch + 1)] } : Items).retire s.now ∧
      t.serv = s.serv.dropBuilds (fun b => b.lead = itemNo 0 x.gen i) ∧
      Replied s t id c (c.reply .success 0 (resultAt [(0x10, 8, s.items.epoch + 1)])) ∧ HostSame s t ∧ Frame [.host, .media, .items, .serv] s t) ∧
  (∀ (s : State) (id i slot : Nat) (mask value : W64) (c : Cmd) (x : Item), s.items.muts = [⟨id, .attr i slot mask value⟩] → s.cmd? id = some c → c.ident = id →
    s.mutReady ⟨id, .attr i slot mask value⟩ = true → Tab.find s.items.items i = some x → slot < x.attrs.length → (∀ q ∈ s.items.queries, q.tick ≠ s.tick) →
    ∃ t y, exec .commitGroup s = .next t ∧ t.items = { s.items with muts := [], epoch := s.items.epoch + 1, items := Tab.put s.items.items i y } ∧
      y = { x with attrs := y.attrs } ∧ y.attrs.getD slot 0#64 = (x.attrs.getD slot 0#64 &&& ~~~mask) ||| (value &&& mask) ∧
      (∀ k, k ≠ slot → y.attrs[k]? = x.attrs[k]?) ∧
      Replied s t id c (c.reply .success 0 (resultAt [(0x10, 8, s.items.epoch + 1)])) ∧ HostSame s t ∧ Frame [.host, .media, .items] s t) ∧
  (∀ (x : Items) (now : Nat), ((x.retire now).tombs = x.tombs.filter (fun u => x.horizon < u.2)) ∧ (x.queries = [] → x.horizon = x.epoch) ∧
    (∀ q ∈ x.queries, x.horizon ≤ q.epoch) ∧ (∀ u ∈ x.tombs, u.2 ≤ x.horizon → ⟨u.1, now, none⟩ ∈ (x.retire now).gone)) ∧
  (∀ s : State, (∀ m ∈ s.items.muts, s.mutReady m = false) → exec .commitGroup s = .next s) ∧
  (∀ (s : State) (y : Query), (∃ m ∈ s.items.muts, s.mutReady m = true) → s.items.query? y.who = some y → y.tick = s.tick → y.ask = none →
    ∃ t z, exec .commitGroup s = .next t ∧ t.items.query? y.who = some z ∧ z.epoch = s.items.epoch + 1 ∧ z.tick = y.tick ∧ z.deadline = y.deadline) ∧
  (∀ (s : State) (y : Query), s.items.query? y.who = some y → (∀ z ∈ s.items.queries, z.who = y.who → z.tick ≠ s.tick) →
    ∃ t, exec .commitGroup s = .next t ∧ t.items.query? y.who = some y)

/-- Items and caches read and dropped, and the item areas formatted (07 R247, R250; 13 R430 to R433): ITEM_GET and CACHE_GET write what they find, CACHE_DROP deletes a cache
or leaves it to the sessions that hold it open, and ITEMS_FORMAT leaves empty areas of the dimension and width it names, under new keys, and completes once its
MAP_CLEARs have committed and no block holds a destroyed key (02 R87, 17 R549). -/
def Obligations.ItemReadsAndFormat : Prop :=
  (∀ (s : State) (id i : Nat) (c : Cmd) (x : Item), RunsItem s id 0x0304 c → s.named c.object = some (i, x) → (s.itemBytes i x (c.field 0x1C 4)).length ≤ c.field 0x18 4 →
    s.spotsReady true (s.media.spotsOf (s.readsOf c).1 (s.readsOf c).2) = true →
    ∃ t, exec (.itemGet id false) s = .next t ∧ HostHolds s t c.port (c.field 0x10 8) (s.itemBytes i x (c.field 0x1C 4)) ∧ Succeeded [.dies] s t id c []) ∧
  (∀ (s : State) (id i : Nat) (c : Cmd) (x : Item), RunsItem s id 0x0304 c → s.named c.object = some (i, x) → (s.itemBytes i x (c.field 0x1C 4)).length ≤ c.field 0x18 4 →
    s.spotsReady true (s.media.spotsOf (s.readsOf c).1 (s.readsOf c).2) = true →
    bitOf (c.field 0x1C 4) 0 = true →
    ∃ t, exec (.itemGet id true) s = .next t ∧ Replied s t id c (c.reply .mediaUncorrectable 0 []) ∧ HostSame s t ∧
      Frame [.host, .dies, .media, .health, .events, .freeCtr] s t) ∧
  (∀ (s : State) (id i : Nat) (c : Cmd) (x : Item) (k : Cache), RunsItem s id 0x0305 c → s.named c.object = some (i, x) → s.cacheOf (itemNo 0 x.gen i) = some k →
    ∃ t, exec (.cacheGet id) s = .next t ∧ HostHolds s t c.port (c.field 0x10 8) k.descriptor ∧ Succeeded [] s t id c (resultAt [(0x0C, 4, 1)])) ∧
  (∀ (s : State) (id i : Nat) (c : Cmd) (x : Item), RunsItem s id 0x0305 c → s.named c.object = some (i, x) → s.cacheOf (itemNo 0 x.gen i) = none →
    ∃ t, exec (.cacheGet id) s = .next t ∧ HostSame s t ∧ Succeeded [] s t id c (resultAt [(0x0C, 4, 0)])) ∧
  (∀ (s : State) (id : Nat) (c : Cmd) (hit : Cache → Bool), RunsItem s id 0x0306 c → s.formatted = true → (Tab.keys s.serv.caches).Nodup →
    (c.field 0x10 1 ≠ 0 ∨ (s.named c.object).isSome = true) →
    hit = (fun (k : Cache) =>
      if c.field 0x10 1 = 0 then (s.named c.object).any (fun e => decide (k.lead = itemNo 0 e.2.gen e.1)) else decide (k.model = BitVec.ofNat 64 (c.field 0x18 8))) →
    ∃ t, exec (.cacheDrop id) s = .next t ∧ t.serv = { s.serv with caches := t.serv.caches } ∧
      (∀ j k, Tab.find s.serv.caches j = some k → Tab.find t.serv.caches j =
        if hit k = true ∧ k.dropped = false then (if s.cacheOpen j then some { k with dropped := true } else none) else some k) ∧
      (∀ j, Tab.find s.serv.caches j = none → Tab.find t.serv.caches j = none) ∧ t.tiers = { s.tiers with t2 := t.tiers.t2 } ∧
      Replied s t id c (c.reply .success 0 (resultAt [(0x0C, 4, (s.serv.caches.filter (fun e => hit e.2 && !e.2.dropped)).length)])) ∧ HostSame s t ∧
      Frame [.host, .media, .serv, .tiers] s t) ∧
  (∀ (s : State) (id : Nat) (c : Cmd), Runs s id 0x0307 c → c.stage = 0 → s.itemWork c = false → s.serv.sessions = [] → s.serv.adapt = none →
    max s.items.genFloor s.items.genMax ≤ 4194303 →
    ∃ t d k, exec (.itemsFormat id) s = .next t ∧ t.items.dims = c.field 0x10 2 ∧ t.items.width = (if c.field 0x12 1 = 0 then 256 else 512) ∧ t.items.epoch = 1 ∧
      t.items.items = [] ∧ t.items.genFloor = max s.items.genFloor s.items.genMax ∧ t.items.highWater = 0 ∧ t.items.holes = [] ∧ t.items.reclaimed = [] ∧ t.items.fresh = [] ∧ t.items.tombs = [] ∧
      t.items.gone = [] ∧ t.items.nodes = [] ∧ t.items.roots = [] ∧ t.items.merge = none ∧ t.items.bitmaps = [] ∧ t.items.side = 0 ∧ t.items.old = false ∧ t.items.aside = [] ∧ t.items.label = 1#64 ∧
      t.items.thresh = List.replicate t.items.width 0#32 ∧ (∀ k, Tab.find t.serv.caches k = none) ∧ t.cmd? id = some d ∧ d.stage = 2 ∧ d.aux = [t.media.jNext - 1, t.sec.pages.seq] ∧
      s.sec.pages.seq < t.sec.pages.seq ∧ s.media.keys ≤ k ∧ t.media.keys = k + 4 ∧ t.media.areaKeys = [(16, k), (18, k + 1), (19, k + 2)] ∧ t.media.maskKey = some (k + 3) ∧
      HostSame s t ∧ Frame [.host, .media, .items, .serv, .tiers, .freeCtr, .health, .sec] s t) ∧
  (∀ (s : State) (id : Nat) (c : Cmd), Runs s id 0x0307 c → c.stage = 2 → c.aux.headD 0 ≤ s.media.jDone → s.keysGone (c.aux.getD 1 0) = true →
    ∃ t, exec (.itemsFormat id) s = .next t ∧ HostSame s t ∧ Succeeded [] s t id c []) ∧
  (∀ (s : State) (id : Nat) (c : Cmd), Runs s id 0x0307 c → c.stage = 2 → (s.media.jDone < c.aux.headD 0 ∨ s.keysGone (c.aux.getD 1 0) = false) →
    exec (.itemsFormat id) s = .next s)

/-- Stored bitmaps (09 R292, R293, R296; 13 R435 to R437): BITMAP_LOAD waits for its bytes and replaces the image of its ID; an image BITMAP_BUILD makes allows just the indices
its combination of the source and the filter gives; BITMAP_FREE removes one. A query admitted in the same tick takes the image that BITMAP_LOAD puts under its ID; one admitted
before keeps its own. -/
def Obligations.BitmapCommands : Prop :=
  (∀ (s : State) (id : Nat) (c : Cmd), RunsItem s id 0x0403 c → c.stage = 0 → s.formatted = true → s.hbmRoom (c.field 0x18 8 / 8) = true →
    ∃ t, exec (.bitmapLoad id) s = .next t ∧ Waits [] s t id { c with stage := 1, aux := [], need := c.field 0x18 8 / 8 }) ∧
  (∀ (s : State) (id : Nat) (c : Cmd) (b : Bitmap), RunsItem s id 0x0403 c → c.stage = 1 → c.need ≤ c.got → (∀ q ∈ s.items.queries, q.tick ≠ s.tick) →
    b = ⟨c.field 0x18 8, c.field 0x11 1 = 1, Mem.write 0 [] 0 c.pushed, s.items.images⟩ →
    ∃ t, exec (.bitmapLoad id) s = .next t ∧ t.items = { s.items with bitmaps := Tab.put s.items.bitmaps (c.field 0x10 1) b, images := s.items.images + 1 } ∧
      t.tiers = { s.tiers with t2 := t.tiers.t2 } ∧ HostSame s t ∧ Succeeded [.items, .tiers] s t id c (resultAt [(0x10, 8, b.pop)])) ∧
  (∀ (s : State) (id : Nat) (c : Cmd) (f : Filter), RunsItem s id 0x0404 c → s.formatted = true → (s.buildTerms c).all termOk = true →
    (bitOf (c.field 0x13 1) 0 = true → Tab.has s.items.bitmaps (c.field 0x12 1) = true) → s.hbmRoom (s.items.buildLen / 8) = true →
    (∀ q ∈ s.items.queries, q.tick ≠ s.tick) → f = ⟨(s.buildTerms c).map Term.ofBytes, bitsOf (c.field 0x13 1) 1 2, BitVec.ofNat 64 (c.field 0x18 8), BitVec.ofNat 64 (c.field 0x20 8)⟩ →
    ∃ t b, exec (.bitmapBuild id) s = .next t ∧ t.items = { s.items with bitmaps := Tab.put s.items.bitmaps (c.field 0x10 1) b, images := s.items.images + 1 } ∧
      b.len = s.items.buildLen ∧ b.tail = false ∧ b.no = s.items.images ∧
      (∀ i, i < s.items.buildLen → b.allows i = combineBit (c.field 0x11 1)
        (if bitOf (c.field 0x13 1) 0 then ((Tab.find s.items.bitmaps (c.field 0x12 1)).map (fun y => y.allows i)).getD true else true)
        ((Tab.find s.items.items i).elim false (fun x => x.visible s.items.epoch && f.passes x))) ∧
      t.tiers = { s.tiers with t2 := t.tiers.t2 } ∧ HostSame s t ∧ Succeeded [.items, .tiers] s t id c (resultAt [(0x10, 8, b.pop), (0x18, 8, b.len)])) ∧
  (∀ (s : State) (id : Nat) (c : Cmd), RunsItem s id 0x0405 c →
    ∃ t, exec (.bitmapFree id) s = .next t ∧ t.items = { s.items with bitmaps := Tab.del s.items.bitmaps (c.field 0x10 1) } ∧ HostSame s t ∧ Succeeded [.items] s t id c []) ∧
  (∀ (s : State) (id : Nat) (c : Cmd) (y : Query), RunsItem s id 0x0403 c → c.stage = 1 → c.need ≤ c.got → s.items.query? y.who = some y →
    (∀ z ∈ s.items.queries, z.who = y.who → z.tick ≠ s.tick) → ∃ t, exec (.bitmapLoad id) s = .next t ∧ t.items.query? y.who = some y) ∧
  (∀ (s : State) (id : Nat) (c : Cmd) (y : Query) (old : Bitmap), RunsItem s id 0x0403 c → c.stage = 1 → c.need ≤ c.got →
    s.items.query? y.who = some y → (∀ z ∈ s.items.queries, z.who = y.who → z = y) → y.tick = s.tick → y.ask = none → y.image = some (c.field 0x10 1, old) →
    ∃ t z b, exec (.bitmapLoad id) s = .next t ∧ t.items.query? y.who = some z ∧ z.image = some (c.field 0x10 1, b) ∧ b.no = s.items.images)

/-- SEARCH and SEARCH_SPAN (09 R282, R297 to R303, R305 to R311; 13 R434). A search that is admitted takes the current epoch and its bitmap's image and queues its leaf scans; it waits
for them, and once they are done and the pages of its candidates may be read its result stands in the host's buffer and its query is gone; one whose scan path is faulted
ends with MEDIA_FAULT. A span search is sent to its members, or first asks the module that its handle names for the embedding; the coordinator's own query runs as a search
does, its result joins the merge, and the whole delivers once every part is here. -/
def Obligations.SearchCommands : Prop :=
  (∀ (s : State) (id : Nat) (r : SearchReads) (c : Cmd) (b : List Byte) (v : List W32) (q : Query1) (image : Option (Nat × Bitmap)) (a : Admitted),
    RunsItem s id 0x0401 c → c.stage = 0 → b = s.descBytes c → s.searchError c b false = none → s.queryVec b = some v → (bitOf (descFlags b) 0 = true → r.queryUnreadable = false) →
    r.plausible = true → r.badNodes = [] → q = queryOf b v → image = q.bitmap.bind (fun k => (Tab.find s.items.bitmaps k).map (fun x => (k, x))) →
    a = s.items.admitQuery s.items.epoch (image.map (·.2)) q →
    ∃ t, exec (.search id r) s = .next t ∧ Waits [.items] s t id { c with stage := 1, aux := [0] } ∧
      t.items.query? (.cmd id) = some ⟨.cmd id, s.tick, s.items.epoch, image, c.expiry, 0, some (q, a), []⟩ ∧ a.epoch = s.items.epoch ∧
      (∃ new, t.items.scans = s.items.scans ++ new ∧ new.map (·.leaf) = a.leaves ∧ ∀ x ∈ new, x.who = .cmd id ∧ x.cls = .interactive ∧ x.deadline = c.expiry ∧ x.query = a.sketch) ∧
      t.items = { s.items with queries := t.items.queries, arrivals := t.items.arrivals, scans := t.items.scans }) ∧
  (∀ (s u : State) (id : Nat) (r : SearchReads) (c : Cmd) (z y : Query) (q : Query1) (a : Admitted) (f : Found), RunsItem s id 0x0401 c → c.stage = 1 →
    s.items.query? (.cmd id) = some z → z.faulted r = false → u = s.collectAll → u.items.query? (.cmd id) = some y → y.ask = some (q, a) → u.items.scansDone (.cmd id) = true →
    u.spotsReady true (u.rerankSpots y) = true → f = (u.readSpots (u.rerankSpots y)).finish q a y.lists r →
    ∃ t, exec (.search id r) s = .next t ∧ (∀ x ∈ t.items.queries, x.who ≠ .cmd id) ∧
      HostHolds s t c.port (c.field 0x18 8) (f.header (f.flags + c.aux.headD 0) ++ f.sel.entries ++ (if q.times then s.timeRecords f.sel else [])) ∧
      Replied s t id c (c.reply .success (f.flags + c.aux.headD 0) (resultAt [(0x0C, 2, f.sel.sel.length), (0x0E, 2, 1), (0x10, 8, f.epoch), (0x18, 4, f.candidates)])) ∧
      t.items.items = s.items.items ∧ t.items.epoch = s.items.epoch ∧ Frame [.host, .dies, .media, .items, .serv, .health, .events, .freeCtr] s t) ∧
  (∀ (s : State) (id : Nat) (r : SearchReads) (c : Cmd) (z : Query), RunsItem s id 0x0401 c → c.stage = 1 → s.items.query? (.cmd id) = some z → z.faulted r = false →
    s.collectAll.items.scansDone (.cmd id) = false → exec (.search id r) s = .next s.collectAll) ∧
  (∀ (s : State) (id : Nat) (r : SearchReads) (c : Cmd) (z : Query), RunsItem s id 0x0401 c → c.stage = 1 → s.items.query? (.cmd id) = some z → z.faulted r = true →
    ∃ t, exec (.search id r) s = .next t ∧ (∀ x ∈ t.items.queries, x.who ≠ .cmd id) ∧ Replied s t id c (c.reply .mediaFault 0 []) ∧
      HostOutside s t (hostKey c.port (c.field 0x18 8)) (c.field 0x20 4) ∧ t.items.items = s.items.items ∧ Frame [.host, .media, .items, .serv, .freeCtr] s t) ∧
  (∀ (s : State) (id : Nat) (r : SearchReads) (c : Cmd) (st : Status), RunsItem s id 0x0401 c → c.stage = 0 → s.searchError c (s.descBytes c) false = some st →
    ∃ t, exec (.search id r) s = .next t ∧ Replied s t id c (c.reply st 0 []) ∧ HostOutside s t (hostKey c.port (c.field 0x18 8)) (c.field 0x20 4) ∧
      Frame [.host, .media, .freeCtr] s t) ∧
  (∀ (s : State) (id m : Nat) (r : SearchReads) (c : Cmd), RunsItem s id 0x0402 c → c.stage = 0 → s.spanError c (s.descBytes c) r = some (.spanMemberLost, m) →
    ∃ t, exec (.searchSpan id r) s = .next t ∧ HostOutside s t (hostKey c.port (c.field 0x18 8)) (c.field 0x20 4) ∧
      Replied s t id c (c.reply .spanMemberLost 0 (resultAt [(0x1C, 1, m)])) ∧ Frame [.host, .media, .freeCtr] s t) ∧
  (∀ (s : State) (id : Nat) (r : SearchReads) (c : Cmd) (b : List Byte) (v : List W32) (q : Query1) (g : Nat), RunsItem s id 0x0402 c → c.stage = 0 → b = s.descBytes c →
    s.farModule b = none → s.spanError c b r = none → s.spanVec b r = .ok v → (bitOf (descFlags b) 0 = true → r.queryUnreadable = false) → r.plausible = true → r.badNodes = [] →
    q = queryOf b v → g = c.field 0x24 1 → s.groupGap g = none →
    ∃ t y, exec (.searchSpan id r) s = .next t ∧ t.cmd? id = some { c with stage := 2, aux := [0, bit q.times] } ∧ t.span.queryCount = s.span.queryCount + 1 ∧
      t.span.sent = s.span.sent ++ ((s.groupMembers g).filter (· ≠ s.moduleNumber)).map (fun m => ⟨(BitVec.ofNat 8 m).toNat, 12, b.take 256 ++ wordsBytes v⟩) ∧
      t.items.query? (.cmd id) = some y ∧ y.epoch = s.items.epoch ∧ y.ask = some (q, s.items.admitQuery s.items.epoch (y.image.map (·.2)) q) ∧
      (∃ i ∈ t.span.insts, i.key = .search s.moduleNumber s.span.queryCount ∧ i.cmd = some id ∧ i.group = g) ∧ HostSame s t ∧ Frame [.host, .items, .span] s t) ∧
  (∀ (s : State) (id m : Nat) (r : SearchReads) (c : Cmd) (b : List Byte), RunsItem s id 0x0402 c → c.stage = 0 → b = s.descBytes c → s.farModule b = some m →
    s.spanError c b { r with far := some [] } = none →
    ∃ t, exec (.searchSpan id r) s = .next t ∧ t.cmd? id = some { c with stage := 3 } ∧ t.span.sent = s.span.sent ++ [⟨m % 256, 12, (b.drop 0x20).take 8⟩] ∧
      HostSame s t ∧ Frame [.host, .span] s t) ∧
  (∀ (s u : State) (id : Nat) (r : SearchReads) (c : Cmd) (i : Inst) (z y : Query) (q : Query1) (a : Admitted), RunsItem s id 0x0402 c → c.stage = 2 →
    s.span.insts.find? (fun i => i.cmd = some id) = some i → s.items.query? (.cmd id) = some z → z.faulted r = false → u = s.collectAll →
    u.items.query? (.cmd id) = some y → y.ask = some (q, a) → u.items.scansDone (.cmd id) = true → u.spotsReady true (u.rerankSpots y) = true → s.groupGap i.group = none →
    s.leaderOf i.group ≠ s.moduleNumber →
    ∃ t j, exec (.searchSpan id r) s = .next t ∧ t.inst? i.key = some j ∧ j.group = i.group ∧ j.params = spanParams q.k ∧ j.cmd = some id ∧ j.go = false ∧
      j.own = (u.readSpots (u.rerankSpots y)).contribution q ((u.readSpots (u.rerankSpots y)).finish q a y.lists r) y.flags ∧ (∀ x ∈ t.items.queries, x.who ≠ .cmd id) ∧
      t.cmd? id = some { c with stage := 1 } ∧ HostSame s t) ∧
  (∀ (s : State) (id : Nat) (r : SearchReads) (c : Cmd) (i : Inst), RunsItem s id 0x0402 c → c.stage = 1 → s.span.insts.find? (fun i => i.cmd = some id) = some i →
    s.instReady i = true →
    ∃ t, exec (.searchSpan id r) s = .next t ∧ HostHolds s t c.port (c.field 0x18 8) (s.spanResult i (c.aux.getD 1 0 = 1) (c.aux.headD 0)).1 ∧ t.cmd? id = none ∧
      t.inst? i.key = none) ∧
  (∀ (s : State) (id : Nat) (r : SearchReads) (c : Cmd) (i : Inst), RunsItem s id 0x0402 c → c.stage = 1 → s.span.insts.find? (fun i => i.cmd = some id) = some i →
    s.instReady i = false → exec (.searchSpan id r) s = .next s)

/-- Every result of a search (09 R282, R296, R306) is an item visible at the query's epoch that its bitmap's image allows and its filter passes, whatever lists the leaf scans gave;
none is the excluded one, none occurs twice, and there are at most K. -/
def Obligations.SearchReturnsAllowed : Prop :=
  ∀ (s : State) (e : Nat) (image : Option Bitmap) (q : Query1) (lists : List LeafList) (r : SearchReads),
    (∀ x ∈ (s.finish q (s.items.admitQuery e image q) lists r).sel.sel, q.exclude ≠ some x.index ∧
      ∃ y ∈ s.items.items, y.2.visible e = true ∧ q.filter.passes y.2 = true ∧ (∀ b, image = some b → b.allows y.1 = true) ∧
        x.index = ((Tab.find s.items.items y.1).map (s.itemHandle y.1)).getD 0) ∧
    ((s.finish q (s.items.admitQuery e image q) lists r).sel.sel.map (·.index)).Nodup ∧ (s.finish q (s.items.admitQuery e image q) lists r).sel.sel.length ≤ q.k

/-! ## Services (07, 08, 09, 10, 13). -/

/-- Sessions and answers (08 R261; 09 R282; 10 R327 to R334; 13 R439 to R442): SESSION_OPEN waits for its text and its prefill and makes a session of the next handle, which has
the text's tokens as its first own; an ASK takes its epoch at admission, has its question prefilled in scratch, retrieves with scans and reads, waits for the caches built for it, and places its
groups with room kept for its question and its answer; a progress update adds at most 16 of the tokens that token steps have given, within the context, once the session's tiles
are in T2; SESSION_CLOSE waits for a running answer. -/
def Obligations.SessionsAndAnswers : Prop :=
  (∀ (s : State) (id : Nat) (c : Cmd), RunsItem s id 0x0501 c → c.stage = 0 → s.answers (c.field 0x10 8) = true → s.serv.sessions.length < 1024 →
    ∃ t, exec (.sessionOpen id) s = .next t ∧ Waits [] s t id { c with stage := 1, aux := [], need := c.field 0x1C 4 }) ∧
  (∀ (s : State) (id tokens : Nat) (c : Cmd), RunsItem s id 0x0501 c → c.stage ≠ 0 → c.need ≤ c.got → s.answers (c.field 0x10 8) = true → s.serv.sessions.length < 1024 →
    tokens = (if c.need = 0 then 0 else Config.textTokens (BitVec.ofNat 64 (c.field 0x10 8)) c.pushed) → validUtf8 c.pushed = true → tokens ≤ c.field 0x18 4 →
    (c.need = 0 ∨ (c.stage = 2 ∧ s.prefilled (textPrefill id) = true)) →
    ∃ t own, exec (.sessionOpen id) s = .next t ∧ HostSame s t ∧ Succeeded [.serv, .tiers, .freeCtr] s t id c (resultAt [(0x10, 8, s.serv.nextSession)]) ∧
      t.serv = { s.serv with
        sessions := Tab.put s.serv.sessions s.serv.nextSession
          ⟨BitVec.ofNat 64 (c.field 0x10 8), c.field 0x18 4, retrievalOf ((c.pkt.drop 0x20).take 16), tokens, [], own, none, none, s.now⟩,
        nextSession := s.serv.nextSession + 1 } ∧
      (tokens = 0 → own = [] ∧ t.tiers = s.tiers ∧ t.freeCtr = s.freeCtr) ∧ (tokens ≠ 0 → ∃ base, own = [⟨0, tokens, tokens, base, s.freeCtr⟩] ∧ t.freeCtr = s.freeCtr + 1)) ∧
  (∀ (s : State) (id : Nat) (c : Cmd) (fits : Bool), RunsItem s id 0x0501 c → c.stage = 1 → c.need ≤ c.got → c.need ≠ 0 → s.answers (c.field 0x10 8) = true →
    s.serv.sessions.length < 1024 → validUtf8 c.pushed = true →
    fits = decide (Config.textTokens (BitVec.ofNat 64 (c.field 0x10 8)) c.pushed ≤ c.field 0x18 4) →
    ∃ t, exec (.sessionOpen id) s = .next t ∧ (fits = true → Waits [] s t id { c with stage := 2, aux := [s.now] }) ∧ (fits = false → Failed s t id c .resourceExhausted)) ∧
  (∀ (s : State) (id : Nat) (c : Cmd) (r : SearchReads) (x : Session) (image : Option (Nat × Bitmap)), RunsItem s id 0x0502 c → c.stage = 0 →
    Tab.find s.serv.sessions c.object = some x → s.formatted = true →
    image = (if (askParams c x).useBitmap then (Tab.find s.items.bitmaps (askParams c x).bitmap).map (fun b => ((askParams c x).bitmap, b)) else none) →
    ∃ t, exec (.ask id r) s = .next t ∧
      t.items = { s.items with queries := s.items.queries.filter (fun y => y.who ≠ .cmd id) ++ [⟨.cmd id, s.tick, s.items.epoch, image, c.expiry, 0, none, []⟩] } ∧
      Waits [.items] s t id { c with stage := 1, aux := [s.serv.cachePolicy.toNat, 0], need := 8 * askHandles c + c.field 0x10 4 }) ∧
  (∀ (s : State) (id : Nat) (c : Cmd) (r : SearchReads) (x : Session), RunsItem s id 0x0502 c → c.stage = 1 → c.need ≤ c.got → Tab.find s.serv.sessions c.object = some x →
    x.run = none → x.closing = none → s.askBefore c = false → s.askError c (askParams c x) = none → askHandles c = 0 →
    ∃ t, exec (.ask id r) s = .next t ∧ Waits [] s t id { c with stage := 4, aux := [c.aux.headD 0, c.aux.getD 1 0, s.now] }) ∧
  (∀ (s : State) (id : Nat) (c : Cmd) (r : SearchReads) (x : Session), RunsItem s id 0x0502 c → c.stage = 1 → c.need ≤ c.got → Tab.find s.serv.sessions c.object = some x →
    x.run = none → x.closing = none → s.askBefore c = false → s.askError c (askParams c x) = none → askHandles c ≠ 0 → x.roomFor c = true →
    ∃ t a, exec (.ask id r) s = .next t ∧ Tab.find t.serv.sessions c.object = some { x with run := some a, lastStep := s.now } ∧ a.cmd = id ∧ a.epoch = s.askEpoch id ∧
      a.found = (s.suppliedItems c).map (·.1) ∧ a.placed = false ∧ a.lost = none ∧ a.tokens = 0 ∧ a.avail = 0 ∧ a.text = [] ∧ a.partly = [] ∧ a.cites = [] ∧
      t.cmd? id = some { c with stage := 2, aux := [c.aux.headD 0, c.aux.getD 1 0, 0] } ∧ (∀ j, j ≠ id → t.cmd? j = s.cmd? j) ∧ t.serv.caches = s.serv.caches ∧
      (∀ y ∈ t.items.queries, y.who ≠ .cmd id) ∧ HostSame s t ∧ Frame [.host, .items, .serv, .steps] s t) ∧
  (∀ (s : State) (id : Nat) (c : Cmd) (r : SearchReads) (x : Session) (y : Query) (q : Query1) (a : Admitted), RunsItem s id 0x0502 c → c.stage = 4 → c.need ≤ c.got →
    Tab.find s.serv.sessions c.object = some x → askHandles c = 0 → s.prefilled (scratchPrefill id) = true → x.run = none → x.closing = none → s.askBefore c = false →
    s.askError c (askParams c x) = none → r.plausible = true → r.badNodes = [] → x.roomFor c = true → s.items.query? (.cmd id) = some y →
    q = askQuery (askParams c x) (Config.retrievalVector x.model (askQuestion c) s.items.dims) → a = s.items.admitQuery y.epoch (y.image.map (·.2)) q →
    ∃ t, exec (.ask id r) s = .next t ∧ t.cmd? id = some { c with stage := 5, aux := [c.aux.headD 0, c.aux.getD 1 0, 0] } ∧ (∀ j, j ≠ id → t.cmd? j = s.cmd? j) ∧
      t.items.query? (.cmd id) = some { y with ask := some (q, a), lists := [] } ∧
      (∃ new, t.items.scans = s.items.scans ++ new ∧ new.map (·.leaf) = a.leaves ∧ ∀ z ∈ new, z.who = .cmd id ∧ z.cls = .interactive ∧ z.query = a.sketch) ∧
      t.serv = s.serv ∧ HostSame s t ∧ Frame [.host, .items, .steps] s t) ∧
  (∀ (s : State) (id : Nat) (c : Cmd) (r : SearchReads) (x : Session) (y : Query), RunsItem s id 0x0502 c → c.stage = 5 → Tab.find s.serv.sessions c.object = some x →
    s.items.query? (.cmd id) = some y → y.faulted r = false → s.collectAll.items.scansDone (.cmd id) = false → exec (.ask id r) s = .next s.collectAll) ∧
  (∀ (s u : State) (id : Nat) (c : Cmd) (r : SearchReads) (x : Session) (z y : Query) (q : Query1) (a : Admitted) (f : Found), RunsItem s id 0x0502 c → c.stage = 5 →
    Tab.find s.serv.sessions c.object = some x → s.items.query? (.cmd id) = some z → z.faulted r = false → u = s.collectAll → u.items.query? (.cmd id) = some y →
    y.ask = some (q, a) → u.items.scansDone (.cmd id) = true → u.spotsReady true (u.rerankSpots y) = true → f = (u.readSpots (u.rerankSpots y)).finish q a y.lists r →
    ∃ t b, exec (.ask id r) s = .next t ∧ Tab.find t.serv.sessions c.object = some { x with run := some b, lastStep := s.now } ∧ b.cmd = id ∧ b.epoch = y.epoch ∧
      (∀ h ∈ b.found, ∃ e ∈ f.sel.sel, e.index = h) ∧ b.placed = false ∧ b.tokens = 0 ∧ t.cmd? id = some { c with stage := 2 } ∧ (∀ j, j ≠ id → t.cmd? j = s.cmd? j) ∧
      t.serv.caches = s.serv.caches ∧ (∀ w ∈ t.items.queries, w.who ≠ .cmd id) ∧ HostSame s t) ∧
  (∀ (s : State) (id : Nat) (c : Cmd) (r : SearchReads) (x : Session) (y : Query), RunsItem s id 0x0502 c → c.stage = 5 → Tab.find s.serv.sessions c.object = some x →
    s.items.query? (.cmd id) = some y → y.faulted r = true →
    ∃ t, exec (.ask id r) s = .next t ∧ Replied s t id c (c.reply .mediaFault 0 []) ∧ (∀ z ∈ t.items.queries, z.who ≠ .cmd id) ∧ HostSame s t ∧
      Frame [.host, .media, .items, .serv] s t) ∧
  (∀ (s : State) (id qt : Nat) (c : Cmd) (r : SearchReads) (x : Session) (a : AskRun), RunsItem s id 0x0502 c → c.stage = 2 → Tab.find s.serv.sessions c.object = some x →
    x.run = some a → a.cmd = id → a.placed = false → (∀ l ∈ a.built, s.building l x.model = false) → qt = Config.textTokens x.model (askQuestion c) →
    x.used + (qt + c.field 0x14 4) ≤ x.ctxMax →
    ∃ t y l new base no, exec (.ask id r) s = .next t ∧ Tab.find t.serv.sessions c.object = some y ∧ y.run = some { a with entries := l, placed := true } ∧
      l.length = (firstOfGroups (s.foundItems a.found)).length ∧ y.model = x.model ∧ y.ctxMax = x.ctxMax ∧ x.used + qt ≤ y.used ∧ y.used + c.field 0x14 4 ≤ y.ctxMax ∧
      y.loaded = x.loaded ++ new ∧ y.own = x.own ++ [⟨y.used - qt, qt + c.field 0x14 4, qt, base, no⟩] ∧
      HostHolds s t c.port (c.field 0x18 8 + 0x40) (askRecord { a with entries := l, placed := true } y.used ++ zeros 32) ∧
      t.cmd? id = some { c with stage := 3 } ∧ (∀ j, j ≠ id → t.cmd? j = s.cmd? j)) ∧
  (∀ (s : State) (id l : Nat) (c : Cmd) (r : SearchReads) (x : Session) (a : AskRun), RunsItem s id 0x0502 c → c.stage = 2 → Tab.find s.serv.sessions c.object = some x →
    x.run = some a → l ∈ a.built → s.building l x.model = true → exec (.ask id r) s = .next s) ∧
  (∀ (s : State) (id : Nat) (c : Cmd) (r : SearchReads) (x : Session), RunsItem s id 0x0502 c → c.need ≤ c.got → Tab.find s.serv.sessions c.object = some x →
    ((c.stage = 1 ∧ askHandles c ≠ 0) ∨ (c.stage = 4 ∧ askHandles c = 0 ∧ s.prefilled (scratchPrefill id) = true)) →
    x.run = none → x.closing = none → s.askBefore c = false → s.askError c (askParams c x) = none → r.plausible = true → x.roomFor c = false →
    ∃ t, exec (.ask id r) s = .next t ∧ Replied s t id c (c.reply .resourceExhausted 0 []) ∧ t.serv.sessions = s.serv.sessions ∧ HostSame s t ∧
      Frame [.host, .media, .items, .serv, .steps] s t) ∧
  (∀ (s : State) (h : Nat) (c : Cmd) (x : Session) (a : AskRun), Tab.find s.serv.sessions h = some x → x.run = some a → s.cmd? a.cmd = some c → s.halted c = false →
    a.lost = none → s.decoding a = true → s.resident x = true →
    ∃ t y, exec (.askProgressUpdate h) s = .next t ∧ Tab.find t.serv.sessions h = some y ∧ y.model = x.model ∧ y.loaded = x.loaded ∧ y.ctxMax = x.ctxMax ∧ x.used ≤ y.used ∧
      y.used ≤ x.used + 16 ∧ y.used ≤ x.used + (a.avail - a.tokens) ∧ y.used ≤ max x.used y.ctxMax ∧ y.own = (x.grown (y.used - x.used)).own ∧
      ((y.run = none ∧ t.cmd? a.cmd = none) ∨
        (∃ b, y.run = some b ∧ t.cmd? a.cmd = some c ∧ b.cmd = a.cmd ∧ b.epoch = a.epoch ∧ b.entries = a.entries ∧ b.pseq = a.pseq + 1 ∧
          b.tokens = a.tokens + (y.used - x.used) ∧ b.tokens < c.field 0x14 4 ∧ b.text.length ≤ max a.text.length (c.field 0x30 4) ∧
          b.cites.length ≤ max a.cites.length (c.field 0x34 4))) ∧
      Frame [.host, .media, .serv, .tiers, .health, .freeCtr] s t) ∧
  (∀ (s : State) (h : Nat) (c : Cmd) (x : Session) (a : AskRun), Tab.find s.serv.sessions h = some x → x.run = some a → s.cmd? a.cmd = some c → s.halted c = false →
    a.lost = none → s.decoding a = true → s.resident x = false → exec (.askProgressUpdate h) s = .next (s.serviceReads c .interactive x.spans)) ∧
  (∀ (s : State) (h : Nat) (c : Cmd) (x : Session) (a : AskRun) (b : Bool), Tab.find s.serv.sessions h = some x → x.run = some a → s.cmd? a.cmd = some c → s.halted c = false →
    a.lost = some b → ∃ t y, exec (.askProgressUpdate h) s = .next t ∧ Tab.find t.serv.sessions h = some y ∧ y.run = none ∧ y.used = x.used ∧ t.cmd? a.cmd = none) ∧
  (∀ (s : State) (h : Nat) (x : Session) (a : AskRun), Tab.find s.serv.sessions h = some x → x.run = some a → a.lost = none → s.decoding a = false →
    exec (.askProgressUpdate h) s = .next s) ∧
  (∀ (s : State) (h : Nat) (c : Cmd) (x : Session) (a : AskRun), Tab.find s.serv.sessions h = some x → x.run = some a → s.cmd? a.cmd = some c → s.halted c = true →
    exec (.askProgressUpdate h) s = .next s) ∧
  (∀ (s : State) (x : Session) (r : AskRun) (group mark : Nat) (k : Cite), s.citeOf x r group mark = some k →
    ∃ g i y, x.loaded[group]? = some g ∧ (i, y) ∈ s.items.items ∧ y.lead = g.lead ∧ k.handle = BitVec.ofNat 64 (s.itemHandle i y) ∧ k.pos = r.text.length ∧
      (y.start = y.stop → k.fromUs = 0 ∧ k.toUs = 0) ∧ (y.start ≠ y.stop → (k.toUs : Int) ≤ max 0 (y.stop.toInt - y.start.toInt))) ∧
  (∀ (s : State) (id : Nat) (c : Cmd) (x : Session) (a : AskRun), RunsItem s id 0x0503 c → Tab.find s.serv.sessions c.object = some x → x.run = some a →
    ∃ t, exec (.sessionClose id) s = .next t ∧ Waits [.serv] s t id { c with stage := 1, aux := [] } ∧
      Tab.find t.serv.sessions c.object = some { x with closing := some id } ∧ t.serv = { s.serv with sessions := t.serv.sessions }) ∧
  (∀ (s : State) (id : Nat) (c : Cmd) (x : Session), RunsItem s id 0x0503 c → Tab.find s.serv.sessions c.object = some x → x.run = none →
    (∀ d ∈ Tab.vals s.host.cmds, d.opcode = 0x0502 → d.object ≠ c.object) →
    ∃ t, exec (.sessionClose id) s = .next t ∧ Tab.find t.serv.sessions c.object = none ∧ (∀ h, h ≠ c.object → Tab.find t.serv.sessions h = Tab.find s.serv.sessions h) ∧
      Replied s t id c (c.reply .success 0 []) ∧ HostSame s t ∧ Frame [.host, .media, .serv, .tiers, .events] s t)

/-- The index and the caches kept up (09 R283, R284, R288, R291, R302; 10 R324, R326; 02 R76, R86): a merge that is due makes its leaves, and once their pages are programmed commits a
root at the next epoch and marks the fresh entries it took; RECLAIM retires tombstones and frees what the horizon has passed; a free die starts the scan at the head of its
queue; a cache build ends. -/
def Obligations.IndexUpkeep : Prop :=
  (∀ (s : State) (p : TreePlan) (due : Nat), s.mergeDueAt = some due → s.backHalted = false → s.formatted = true → s.items.merge = none → s.items.unwrittenLeaves = [] →
    s.items.planOk p = true →
    ∃ t m, exec (.indexMerge p) s = .next t ∧ t.now = max s.now due ∧ t.items.merge = some m ∧ m.leaves.length = p.leaves.length ∧ m.kept = s.items.keptLeaves p ∧
      m.written = s.items.unmerged.map (·.index) ∧ m.gone = s.items.unwritten.map (·.index) ∧
      (∀ c ∈ m.leaves, ∃ g l, Tab.find t.items.nodes c.node = some (g, .leaf none (s.items.memberTable l)) ∧ l ∈ p.leaves) ∧
      t.items = { s.items with nodes := t.items.nodes, nextNode := t.items.nextNode, merge := some m } ∧ Frame [.items, .media, .freeCtr, .now] s t) ∧
  (∀ (s : State) (p : TreePlan) (m : MergeRun), s.backHalted = false → s.formatted = true → s.items.merge = some m → (∀ c ∈ m.leaves, s.items.leafWritten c.node = true) →
    ∃ t n, exec (.indexMerge p) s = .next t ∧ t.items.epoch = s.items.epoch + 1 ∧ t.items.merge = none ∧
      t.items.roots = s.items.roots ++ [⟨n, s.items.epoch + 1, s.items.turn⟩] ∧ t.items.items = s.items.items ∧ t.items.tombs = s.items.tombs ∧
      t.items.fresh = s.items.fresh.map (fun f => if f.merged = none ∧ f.index ∈ m.written then { f with merged := some (s.items.epoch + 1) } else f) ∧
      t.items.gone = s.items.gone.map (fun g => if g.rewritten = none ∧ g.index ∈ m.gone then { g with rewritten := some (s.items.epoch + 1) } else g) ∧
      Frame [.items, .freeCtr] s t) ∧
  (∀ (s : State) (p : TreePlan) (m : MergeRun), s.items.merge = some m → (∃ c ∈ m.leaves, s.items.leafWritten c.node = false) →
    ∃ t, exec (.indexMerge p) s = .next t ∧ Frame [.media] s t ∧ t.media.map = s.media.map) ∧
  (∀ (s : State) (p : TreePlan), s.mergeDueAt = none → s.items.merge = none → s.items.unwrittenLeaves = [] → exec (.indexMerge p) s = .next s) ∧
  (∀ s : State, s.backHalted = false →
    ∃ t, exec .reclaim s = .next t ∧ t.items.tombs = s.items.tombs.filter (fun x => s.items.horizon < x.2) ∧
      t.items.fresh = s.items.fresh.filter (fun f => f.merged.elim true (fun m => s.items.horizon < m)) ∧ t.items.epoch = s.items.epoch ∧
      (∀ g ∈ s.items.gone, (∃ m, g.rewritten = some m ∧ m ≤ s.items.horizon) → Tab.find t.items.items g.index = none) ∧
      (∀ i, (∀ g ∈ s.items.gone, g.index = i → ∀ m, g.rewritten = some m → s.items.horizon < m) →
        (Tab.find t.items.items i).map (fun y => { y with staged := none }) = (Tab.find s.items.items i).map (fun y => { y with staged := none })) ∧
      HostSame s t ∧ Frame [.items, .media, .serv, .tiers, .health] s t) ∧
  (∀ s : State, s.backHalted = true → exec .reclaim s = .next s) ∧
  (∀ (s : State) (d : DieNo) (q : ScanReq), s.items.scans = [q] → Tab.find s.items.running d.val = none → s.leafDie q.leaf = some d.val → s.items.leafWritten q.leaf = true → s.diesOn = true →
    (s.die d).takes .other = true → (s.die d).undefModes = [] → s.media.windowOver s.now d = false → s.oneBin d ((s.leafChain q.leaf).map chainRow) = true →
    (∀ e ∈ s.leafChain q.leaf, (s.die d).chainEntryOk s.freeCtr e = true) → chainEnd ((s.leafChain q.leaf).take 32) ≠ [] →
    ∃ t, exec (.dieScanIssue d) s = .next t ∧ t.items = { s.items with scans := [], running := Tab.put s.items.running d.val [some q] } ∧
      (t.die d).chain = chainEnd ((s.leafChain q.leaf).take 32) ∧ (t.die d).scanRun.isSome = true ∧ (t.die d).sense.isSome = true ∧
      Tab.find (t.die d).queries 0 = some ⟨decide (s.items.width = 512), BitVec.ofNat 512 (leNat ((leBytes (s.items.width / 8) (q.query ^^^ s.sketchMask).toNat).take
        (if s.items.width = 512 then 64 else 32)))⟩ ∧
      (∀ e ∈ s.leafChain q.leaf, ((chainRow e).plane.val + 4 * d.val, BMode.slc, s.binOf d.val (chainRow e)) ∈ t.media.offsetsOn) ∧
      (t.die d).cells = (s.die d).cells ∧ OtherDies s t d ∧ t.media = { s.media with offsetsOn := t.media.offsetsOn } ∧ Frame [.dies, .items, .media, .freeCtr] s t) ∧
  (∀ (s : State) (d : DieNo), (∀ q ∈ (s.collect d).items.scans, s.leafDie q.leaf ≠ some d.val ∨ s.items.leafWritten q.leaf = false) →
    exec (.dieScanIssue d) s = .next (s.collect d)) ∧
  (∀ (s : State) (d : DieNo) (q : ScanReq) (y : Query), Tab.find s.items.running d.val = some [some q] → s.items.scans = [] → (s.die d).scanRun = none →
    (s.die d).result.length = 544 → s.items.query? q.who = some y →
    ∃ t, exec (.dieScanIssue d) s = .next t ∧ t.items.query? q.who = some { y with lists := y.lists ++ [leafListOf q 0 (s.die d).result] } ∧
      t.items = { s.items with queries := t.items.queries, running := Tab.del s.items.running d.val } ∧ Frame [.items] s t) ∧
  (∀ (s : State) (lead : Nat) (ok : Bool) (b : Build) (m : W64), s.serv.builds.find? (fun b => b.lead = lead) = some b → s.buildModel b = some m → s.backHalted = false →
    (s.readOnly = true ∨ ok = false) → b.waiter = none →
    ∃ t, exec (.cacheBuild lead ok) s = .next t ∧ t.serv = s.serv.dropBuilds (fun x => x.key = b.key) ∧ Frame [.serv] s t) ∧
  (∀ (s : State) (lead id : Nat) (ok : Bool) (b : Build) (m : W64) (c : Cmd), s.serv.builds.find? (fun b => b.lead = lead) = some b → s.buildModel b = some m →
    s.backHalted = false → (s.readOnly = true ∨ ok = false) → b.waiter = some id → s.cmd? id = some c →
    ∃ t, exec (.cacheBuild lead ok) s = .next t ∧ t.serv = s.serv.dropBuilds (fun x => x.key = b.key) ∧ Frame [.host, .media, .serv] s t ∧
      Replied s t id c (c.reply .success (c.aux.getD 2 0) (putResult (c.aux.getD 3 0) (c.aux.getD 4 0) (c.aux.getD 5 0)))) ∧
  (∀ (s : State) (lead : Nat) (b : Build) (m : W64), s.serv.builds.find? (fun b => b.lead = lead) = some b → s.buildModel b = some m → s.readOnly = false →
    s.decodes (.build b.key) = true → s.prefilled (buildPrefill b.key) = false → exec (.cacheBuild lead true) s = .next s) ∧
  (∀ (s : State) (lead : Nat) (b : Build) (m : W64), s.serv.builds.find? (fun b => b.lead = lead) = some b → s.buildModel b = some m → s.readOnly = false →
    s.backHalted = false → s.decodes (.build b.key) = false →
    ∃ t, exec (.cacheBuild lead true) s = .next t ∧ Frame [.serv] s t ∧
      t.serv = { s.serv with decoders := s.serv.decoders ++ (s.serv.complexFor.map (fun k => (k, Decoding.build b.key, s.buildBytes b))).toList } ∧
      (∀ k, s.serv.complexFor = some k → k < 4 ∧ (s.serv.decoders.filter (fun d => d.1 = k)).length < 8)) ∧
  (∀ (s u : State) (lead : Nat) (b : Build) (m : W64), s.serv.builds.find? (fun b => b.lead = lead) = some b → s.buildModel b = some m → s.backHalted = false →
    s.readOnly = false → b.waiter = none → s.decodes (.build b.key) = true → s.prefilled (buildPrefill b.key) = true →
    ({ s with serv := s.serv.dropBuilds (fun x => x.key = b.key) }).makeCache b m = some u → u.overKept = none →
    ∃ t k, exec (.cacheBuild lead true) s = .next t ∧ Tab.find t.serv.caches b.key = some k ∧ k.lead = lead ∧ k.model = m ∧ k.tokens = b.tokens ∧ k.onDemand = b.onDemand ∧
      k.dropped = false ∧ k.lastUse = s.opTime ∧ (∀ j, j ≠ b.key → Tab.find t.serv.caches j = Tab.find s.serv.caches j) ∧
      t.serv.builds = s.serv.builds.filter (fun x => x.key ≠ b.key) ∧ Frame [.media, .serv, .freeCtr] s t)

/-- Adaptation (10 R336 to R342; 13 R450 to R452): one job at a time starts, works batch by batch inside its own weights or on the side of the vector area that is not in service,
reports, fails where its weights or the media have gone, and is committed; the switch of a done REINDEX happens at one epoch, and every item keeps its old view for the queries
before it. -/
def Obligations.Adaptation : Prop :=
  (∀ (s : State) (id : Nat) (c : Cmd) (desc : List Byte), Runs s id 0x0701 c → desc = (if c.field 0x10 1 = 4 then s.hostRead c.port (c.field 0x28 8) 32 else zeros 32) →
    s.adaptError c desc = none →
    ∃ t a, exec (.adaptStart id) s = .next t ∧ t.serv = { s.serv with adapt := some a } ∧ a.kind = c.field 0x10 1 ∧ a.state = 1 ∧ a.rank = c.field 0x11 1 ∧ a.done = 0 ∧
      a.items = (if c.field 0x10 1 = 4 then (s.items.visibleAt s.items.epoch).map (·.1) else s.trainingItems (c.field 0x12 2)) ∧ a.startEpoch = s.items.epoch ∧
      a.losses = [] ∧ a.absentItems = [] ∧ a.master = c.field 0x18 8 ∧ a.masterLen = c.field 0x20 8 ∧
      a.total = (if c.field 0x10 1 = 4 then (s.items.visibleAt s.items.epoch).length else c.field 0x14 4) ∧ a.label = BitVec.ofNat 64 (fieldAt desc 24 8) ∧ HostSame s t ∧
      Succeeded [.serv] s t id c []) ∧
  (∀ (s : State) (id n : Nat) (c : Cmd) (st : Status), Runs s id 0x0701 c → st ≠ .checkFailed →
    s.adaptError c (if c.field 0x10 1 = 4 then s.hostRead c.port (c.field 0x28 8) 32 else zeros 32) = some (st, n) →
    ∃ t, exec (.adaptStart id) s = .next t ∧ HostSame s t ∧ Replied s t id c (c.reply st 0 (resultAt [(0x10, 8, n)])) ∧ Frame [.host, .media] s t) ∧
  (∀ (s : State) (lost : List Nat) (a : Adapt), s.serv.adapt = some a → a.state = 1 → s.backHalted = false → a.kind ≠ 4 → s.masterOk a.master a.masterLen = true →
    0 ∈ s.steps.ran → (s.serv.complexFor.isSome = true ∨ (a.kind ≠ 2 ∧ a.kind ≠ 3)) →
    ∃ t b, exec (.adaptStep lost) s = .next t ∧ t.serv = { s.serv with adapt := some b } ∧
      b = { a with done := a.done + 1, losses := b.losses, absentItems := b.absentItems, state := b.state, working := weightsOf (t.masterBytes a) } ∧
      b.losses.length = min 100 (a.losses.length + 1) ∧ (∀ i ∈ a.absentItems, i ∈ b.absentItems) ∧
      b.state = (if a.total ≤ a.done + 1 then 2 else 1) ∧ t.tiers = { s.tiers with hbm := t.tiers.hbm, hbmBad := t.tiers.hbmBad, lines := t.tiers.lines } ∧
      (∀ x, x < a.master ∨ a.master + a.masterLen ≤ x → Mem.get 0 t.tiers.hbm x = Mem.get 0 s.tiers.hbm x) ∧
      t.steps = { s.steps with ran := s.steps.ran.filter (· ≠ 0) } ∧ Frame [.serv, .tiers, .integ, .freeCtr, .steps] s t) ∧
  (∀ (s : State) (lost : List Nat) (a : Adapt), s.serv.adapt = some a → a.state = 1 → s.backHalted = false → a.kind = 4 → s.readOnly = false → 0 ∈ s.steps.ran →
    (s.serv.complexFor.isSome = true ∨ (a.encV = s.items.encV ∧ a.encA = s.items.encA)) → s.toStage a ≠ [] →
    ∃ t b, exec (.adaptStep lost) s = .next t ∧ t.serv = { s.serv with adapt := some b } ∧ b = { a with done := b.done, absentItems := b.absentItems } ∧
      b.done = min a.total (a.done + ((s.toStage a).take 256).length) ∧ (∀ i ∈ a.absentItems, i ∈ b.absentItems) ∧
      (∀ e ∈ (s.toStage a).take 256, e.1 ∈ b.absentItems ∨ ∃ y, Tab.find t.items.items e.1 = some y ∧ y.staged.isSome = true) ∧
      (∀ i y, Tab.find s.items.items i = some y → ∃ z, Tab.find t.items.items i = some z ∧ z = { y with staged := z.staged }) ∧
      t.items = { s.items with items := t.items.items } ∧ t.steps = { s.steps with ran := s.steps.ran.filter (· ≠ 0) } ∧ Frame [.serv, .items, .media, .steps] s t) ∧
  (∀ (s : State) (lost : List Nat) (a : Adapt), s.serv.adapt = some a → a.state = 1 → s.backHalted = false → a.kind = 4 → s.readOnly = false → 0 ∈ s.steps.ran →
    (s.serv.complexFor.isSome = true ∨ (a.encV = s.items.encV ∧ a.encA = s.items.encA)) → s.toStage a = [] →
    ∃ t, exec (.adaptStep lost) s = .next t ∧ Frame [.serv, .items, .freeCtr, .steps] s t ∧
      ((s.items.aside = [] ∧ s.items.turnLeaves ≠ []) → t.items.aside.length = s.items.turnLeaves.length ∧ t.serv = s.serv ∧ t.items.items = s.items.items) ∧
      ((s.items.aside ≠ [] ∨ s.items.turnLeaves = []) → t.items = s.items ∧
        t.serv = (if s.items.aside.all (fun c => s.items.leafWritten c.node) && s.acknowledged stagingCmd then { s.serv with adapt := some { a with state := 2 } } else s.serv))) ∧
  (∀ (s : State) (lost : List Nat) (a : Adapt), s.serv.adapt = some a → ((a.kind = 4 ∧ s.readOnly = false) ∨ (a.kind ≠ 4 ∧ s.masterOk a.master a.masterLen = true)) →
    0 ∉ s.steps.ran → exec (.adaptStep lost) s = .next s) ∧
  (∀ (s : State) (lost : List Nat) (a : Adapt), s.serv.adapt = some a → (a.state ≠ 1 ∨ s.backHalted = true) → exec (.adaptStep lost) s = .next s) ∧
  (∀ (s : State) (lost : List Nat) (a : Adapt) (st : Status), s.serv.adapt = some a → a.state = 1 → s.backHalted = false →
    ((a.kind ≠ 4 ∧ s.masterOk a.master a.masterLen = false ∧ st = .invalidField) ∨ (a.kind = 4 ∧ s.readOnly = true ∧ st = .mediaReadOnly)) →
    ∃ t, exec (.adaptStep lost) s = .next t ∧ t.serv = { s.serv with adapt := some { a with state := 4, status := st.num } } ∧ Frame [.serv] s t) ∧
  (∀ (s : State) (id : Nat) (c : Cmd), Runs s id 0x0702 c → s.serv.adapt = none → ∃ t, exec (.adaptStatus id) s = .next t ∧ HostSame s t ∧ Succeeded [] s t id c (zeros 20)) ∧
  (∀ (s : State) (id : Nat) (c : Cmd) (a : Adapt), Runs s id 0x0702 c → s.serv.adapt = some a →
    ∃ t, exec (.adaptStatus id) s = .next t ∧ HostSame s t ∧
      Succeeded [] s t id c (resultAt [(0x0C, 1, a.kind), (0x0D, 1, a.state), (0x10, 4, a.done), (0x14, 4, a.total), (0x18, 4, a.meanLoss.toNat),
        (0x1C, 4, a.absentItems.length)])) ∧
  (∀ (s : State) (id : Nat) (c : Cmd), Runs s id 0x0703 c → (s.serv.adapt.elim true (fun a => a.state = 1)) = true →
    ∃ t, exec (.adaptCommit id) s = .next t ∧ Failed s t id c .invalidField) ∧
  (∀ (s : State) (id : Nat) (c : Cmd) (a : Adapt), Runs s id 0x0703 c → s.serv.adapt = some a → (a.state = 3 ∨ a.state = 4) →
    ∃ t, exec (.adaptCommit id) s = .next t ∧ t.serv = { s.serv with adapt := none } ∧ HostSame s t ∧ Succeeded [.serv, .items] s t id c [] ∧
      (a.kind ≠ 4 → t.items = s.items) ∧ (a.kind = 4 → t.items = { s.items with old := false, aside := [], items := t.items.items } ∧
        ∀ i, Tab.find t.items.items i = (Tab.find s.items.items i).map (fun y => { y with staged := none }))) ∧
  (∀ (s : State) (id : Nat) (c : Cmd) (a : Adapt), Runs s id 0x0703 c → s.serv.adapt = some a → a.state = 2 → a.kind = 4 → a.absentItems ≠ [] → c.field 0x10 1 = 0 →
    ∃ t, exec (.adaptCommit id) s = .next t ∧ Failed s t id c .invalidField) ∧
  (∀ (s : State) (id : Nat) (c : Cmd) (a : Adapt), Runs s id 0x0703 c → s.serv.adapt = some a → a.state = 2 → a.kind = 4 → a.absentItems = [] →
    ∃ t n, exec (.adaptCommit id) s = .next t ∧ t.serv = { s.serv with adapt := none } ∧ t.items.epoch = s.items.epoch + 1 ∧ t.items.label = a.label ∧ t.items.encV = a.encV ∧
      t.items.encA = a.encA ∧ t.items.projModel = a.projModel ∧ t.items.side = 1 - s.items.side ∧ t.items.old = true ∧
      t.items.roots = s.items.roots ++ [⟨n, s.items.epoch + 1, s.items.turn + 1⟩] ∧
      (∀ i x v k, Tab.find s.items.items i = some x → x.staged = some (v, k) →
        Tab.find t.items.items i = some { x with emb := v, sketch := k, staged := some (x.emb, x.sketch) }) ∧
      (∀ i x, Tab.find s.items.items i = some x → x.staged = none → Tab.find t.items.items i = some x) ∧
      Replied s t id c (c.reply .success 0 (resultAt [(0x18, 8, s.items.epoch + 1)])) ∧ HostSame s t ∧ Frame [.host, .media, .serv, .items, .freeCtr] s t) ∧
  (∀ (s : State) (id m : Nat) (c : Cmd) (a : Adapt), Runs s id 0x0703 c → s.serv.adapt = some a → a.state = 2 → a.kind ≠ 4 → m = s.serv.freeModel →
    ∃ t, exec (.adaptCommit id) s = .next t ∧ HostSame s t ∧ Frame [.host, .media, .serv, .freeCtr] s t ∧
      ((Replied s t id c (c.reply .capacityExhausted 0 []) ∧ t.serv = s.serv) ∨
        (Replied s t id c (c.reply .success 0 (resultAt [(0x10, 8, m)])) ∧ t.serv.adapt = none ∧ t.serv.nextModel = m + 1 ∧ Tab.find s.serv.models m = none ∧
          (∃ x, Tab.find t.serv.models m = some x ∧ x.loaded = false ∧ x.calibrated = false) ∧
          ∀ k, k ≠ m → Tab.find t.serv.models k = Tab.find s.serv.models k)))

/-- Models (13 R443, R444): a stored image that passes its checks is loaded; an image to be stored first has its stripes counted, then waits for its bytes; an image in use is not
unloaded. -/
def Obligations.ModelsLoaded : Prop :=
  (∀ (s : State) (id : Nat) (c : Cmd) (x : Model), Runs s id 0x0601 c → c.field 0x10 1 = 0 → s.loadError (c.field 0x18 8) = none → Tab.find s.serv.models (c.field 0x18 8) = some x →
    ∃ t, exec (.modelLoad id) s = .next t ∧ Tab.find t.serv.models (c.field 0x18 8) = some { x with loaded := true, weights := weightsOf x.bytes } ∧
      (∀ k, k ≠ c.field 0x18 8 → Tab.find t.serv.models k = Tab.find s.serv.models k) ∧ t.serv = { s.serv with models := t.serv.models } ∧ HostSame s t ∧
      Succeeded [.serv, .power, .tiers] s t id c (resultAt [(0x10, 8, c.field 0x18 8)])) ∧
  (∀ (s : State) (id : Nat) (c : Cmd) (k : Media), Runs s id 0x0601 c → c.field 0x10 1 ≠ 0 → c.stage = 0 → (c.field 0x10 1 = 1 → s.modelRoom (c.field 0x20 8) = true) →
    s.media.takeRoom s.now id (flashStripes 18 (s.flashPlace (c.field 0x20 8)) (c.field 0x20 8)) = some k →
    ∃ t, exec (.modelLoad id) s = .next t ∧ t.media = k ∧
      Waits [.media] s t id { c with stage := 1, aux := [s.flashPlace (c.field 0x20 8), c.field 0x20 8], need := c.field 0x20 8 }) ∧
  (∀ (s : State) (id m : Nat) (c : Cmd), Runs s id 0x0601 c → c.field 0x10 1 ≠ 0 → c.stage = 1 → c.need ≤ c.got → s.pushedError (c.field 0x10 1) c.pushed = none →
    m = (Config.imageId c.pushed).toNat →
    ∃ t x, exec (.modelLoad id) s = .next t ∧ Tab.find t.serv.models m = some x ∧ x.image = Mem.write 0 [] 0 c.pushed ∧ x.len = c.pushed.length ∧ x.home = c.aux.getD 0 0 ∧
      x.calibrated = false ∧ x.loaded = (decide (c.field 0x10 1 = 1) || ((Tab.find s.serv.models m).map (·.loaded)).getD false) ∧
      (∀ k, k ≠ m → Tab.find t.serv.models k = Tab.find s.serv.models k) ∧ HostSame s t ∧
      Succeeded [.serv, .tiers, .integ, .power] s t id c (resultAt [(0x10, 8, m)])) ∧
  (∀ (s : State) (id : Nat) (c : Cmd) (x : Model), Runs s id 0x0606 c → s.modelUsed (c.field 0x18 8) = false → Tab.find s.serv.models (c.field 0x18 8) = some x →
    ∃ t, exec (.modelUnload id) s = .next t ∧
      Tab.find t.serv.models (c.field 0x18 8) = (if bitOf (c.field 0x10 1) 0 then none else some { x with loaded := false, weights := [] }) ∧
      (∀ k, k ≠ c.field 0x18 8 → Tab.find t.serv.models k = Tab.find s.serv.models k) ∧ HostSame s t ∧ Succeeded [.serv, .tiers, .integ, .power] s t id c []) ∧
  (∀ (s : State) (id : Nat) (c : Cmd), Runs s id 0x0606 c → s.modelUsed (c.field 0x18 8) = true → ∃ t, exec (.modelUnload id) s = .next t ∧ Failed s t id c .invalidField)

/-- Modules, grants and jobs (06 R222, R223; 07 R225; 08 R257; 13 R445 to R449): a container that fails answers its code; a valid one is loaded under the next handle; a module
that runs is not unloaded; a region 0x00 grant is apart from every other one and holds zeros, or, immutable, its contents, which its flash copy holds too; RUN makes a job that waits for its admission. -/
def Obligations.ModulesGrantsJobs : Prop :=
  (∀ (s : State) (id : Nat) (c : Cmd), Runs s id 0x0602 c → c.stage = 0 → s.compute.mods.length < 64 →
    ∃ t, exec (.moduleLoad id) s = .next t ∧ Waits [] s t id { c with stage := 1, aux := [], need := c.field 0x10 4 }) ∧
  (∀ (s : State) (id : Nat) (c : Cmd) (v : Invalid), Runs s id 0x0602 c → c.stage = 1 → c.need ≤ c.got → s.compute.mods.length < 64 → s.containerFails c.pushed = some v →
    ∃ t, exec (.moduleLoad id) s = .next t ∧ HostSame s t ∧ Replied s t id c (c.reply (codeStatus v.1) 0 (loadResult v 0)) ∧ Frame [.host, .media] s t) ∧
  (∀ (s : State) (id : Nat) (c : Cmd), Runs s id 0x0602 c → c.stage = 1 → c.need ≤ c.got → s.compute.mods.length < 64 → s.containerFails c.pushed = none →
    sectBytes c.pushed 2 = [] → s.media.total ≤ stripesMax →
    ∃ t m, exec (.moduleLoad id) s = .next t ∧ t.dmodule s.compute.nextMod = some m ∧ m.code = codeOf c.pushed ∧ t.compute.nextMod = s.compute.nextMod + 1 ∧
      (∀ h, h ≠ s.compute.nextMod → t.dmodule h = s.dmodule h) ∧ t.compute.jobs = s.compute.jobs ∧ t.compute.threads = s.compute.threads ∧
      (∀ k, (∀ i, i < (semsOf c.pushed).length → k ≠ 65536 * s.compute.nextMod + i) → Tab.find t.compute.sems k = Tab.find s.compute.sems k) ∧ HostSame s t ∧
      Succeeded [.compute] s t id c (loadResult validCode s.compute.nextMod)) ∧
  (∀ (s : State) (id : Nat) (c : Cmd) (m : DModule), Runs s id 0x0607 c → s.dmodule c.object = some m → s.moduleBusy c.object = false →
    ∃ t, exec (.moduleUnload id) s = .next t ∧ t.dmodule c.object = none ∧ (∀ h, h ≠ c.object → t.dmodule h = s.dmodule h) ∧
      (∀ k x, Tab.find s.tiers.grants k = some x → x.modh = c.object → Tab.find t.tiers.grants k = none) ∧
      (∀ x ∈ t.compute.sems, x.2.modh ≠ c.object) ∧ (∀ x ∈ t.compute.sites, x.2.modh ≠ c.object) ∧ HostSame s t ∧ Succeeded [.compute, .tiers, .regul] s t id c []) ∧
  (∀ (s : State) (id : Nat) (c : Cmd), Runs s id 0x0607 c → s.moduleBusy c.object = true → ∃ t, exec (.moduleUnload id) s = .next t ∧ Failed s t id c .invalidField) ∧
  (∀ (s : State) (id b n : Nat) (c : Cmd), Runs s id 0x0604 c → c.stage = 0 → c.field 0x10 1 = 0 → bitOf (c.field 0x11 1) 0 = false → s.grantError c = none →
    n = c.field 0x18 8 → b = s.grantPlace 0 n →
    ∃ t g, exec (.grantMake id) s = .next t ∧ Tab.find t.tiers.grants s.tiers.nextGrant = some g ∧ g.modh = c.object ∧ g.region = 0 ∧ g.base = b ∧ g.len = n ∧
      g.immutable = false ∧ t.tiers.nextGrant = s.tiers.nextGrant + 1 ∧ (∀ k, k ≠ s.tiers.nextGrant → Tab.find t.tiers.grants k = Tab.find s.tiers.grants k) ∧
      (∀ a, b ≤ a → a < b + n → Mem.get 0 t.tiers.hbm a = 0) ∧ (∀ a, a < b ∨ b + n ≤ a → Mem.get 0 t.tiers.hbm a = Mem.get 0 s.tiers.hbm a) ∧ 65536 ≤ b ∧
      (∀ e ∈ s.tiers.grants, e.2.region = 0 → e.2.len ≠ 0 → b + n ≤ e.2.base ∨ e.2.base + e.2.len ≤ b) ∧ HostSame s t ∧
      Succeeded [.tiers] s t id c (resultAt [(0x10, 8, b), (0x18, 8, if bitOf (c.field 0x11 1) 1 then s.tiers.windowSize else 2 ^ 64 - 1)])) ∧
  (∀ (s : State) (id n h : Nat) (c : Cmd) (m : Media), Runs s id 0x0604 c → c.stage = 0 → c.field 0x10 1 = 0 → bitOf (c.field 0x11 1) 0 = true → s.grantError c = none →
    n = c.field 0x18 8 → h = s.flashPlace n → s.media.takeRoom s.now id (flashStripes 18 h n) = some m →
    ∃ t, exec (.grantMake id) s = .next t ∧ t.media = m ∧ Waits [.media] s t id { c with stage := 1, aux := [h, n], need := n }) ∧
  (∀ (s : State) (id b n h : Nat) (c : Cmd), Runs s id 0x0604 c → c.stage = 1 → c.field 0x10 1 = 0 → bitOf (c.field 0x11 1) 0 = true → c.need ≤ c.got → s.grantError c = none →
    n = c.field 0x18 8 → c.pushed.length = n → b = s.grantPlace 0 n → h = c.aux.getD 0 0 →
    ∃ t g, exec (.grantMake id) s = .next t ∧ Tab.find t.tiers.grants s.tiers.nextGrant = some g ∧ g.modh = c.object ∧ g.region = 0 ∧ g.base = b ∧ g.len = n ∧
      g.immutable = true ∧ g.home = some h ∧ Mem.read 0 t.tiers.hbm b n = c.pushed ∧ Mem.read 0 t.tiers.flash h n = c.pushed ∧
      (∀ a, a < b ∨ b + n ≤ a → Mem.get 0 t.tiers.hbm a = Mem.get 0 s.tiers.hbm a) ∧ (∀ a, a < h ∨ h + n ≤ a → Mem.get 0 t.tiers.flash a = Mem.get 0 s.tiers.flash a) ∧ HostSame s t ∧
      Succeeded [.tiers] s t id c (resultAt [(0x10, 8, b), (0x18, 8, if bitOf (c.field 0x11 1) 1 then s.tiers.windowSize else 2 ^ 64 - 1)])) ∧
  (∀ (s : State) (id k : Nat) (c : Cmd) (g : Grant) (m : DModule), Runs s id 0x0605 c → s.dmodule c.object = some m → s.moduleRuns c.object = false →
    s.tiers.grants.find? (fun e => e.2.modh = c.object && e.2.region * 2 ^ 56 + e.2.base = c.field 0x10 8 && !e.2.isData) = some (k, g) → Tab.find s.tiers.grants k = some g →
    ∃ t, exec (.grantFree id) s = .next t ∧ Tab.find t.tiers.grants k = none ∧ (∀ j, j ≠ k → Tab.find t.tiers.grants j = Tab.find s.tiers.grants j) ∧ HostSame s t ∧
      Succeeded [.tiers, .regul] s t id c []) ∧
  (∀ (s : State) (id : Nat) (c : Cmd), Runs s id 0x0605 c → s.moduleRuns c.object = true → ∃ t, exec (.grantFree id) s = .next t ∧ Failed s t id c .invalidField) ∧
  (∀ (s : State) (id : Nat) (c : Cmd) (m : DModule), Runs s id 0x0603 c → c.stage = 0 → s.dmodule c.object = some m → s.runError c = none →
    ∃ t j, exec (.run id) s = .next t ∧ Waits [.compute] s t id { c with stage := 1, aux := [] } ∧ t.job? s.compute.nextJob = some j ∧ j.cmd = id ∧ j.modh = c.object ∧
      m.entry (c.field 0x10 2) = some j.entry ∧ j.n = c.field 0x14 4 ∧ j.g = c.field 0x18 2 ∧ j.cls = Cls.ofCode (c.field 0x12 1) ∧ j.arg = BitVec.ofNat 64 (c.field 0x20 8) ∧
      j.admitted = false ∧ j.gangs = [] ∧ (∀ k, k ≠ s.compute.nextJob → t.job? k = s.job? k) ∧ t.compute.nextJob = s.compute.nextJob + 1 ∧
      t.compute.threads = s.compute.threads)


/-! ## Integrity (14). -/

/-- Scrubbing and the buckets (14 R464 to R468): a clean word changes nothing; a correctable error is counted in its region's bucket, and at DEPTH halves it, sets the class's
bit and raises the divisor while ADAPT_EN is 1; an uncorrectable word is counted, recorded and marked; every LEAK_S each bucket falls by 1. -/
def Obligations.ScrubbingAndBuckets : Prop :=
  (∀ (s : State) (k : RegionCls) (region addr : Nat), exec (.planeScrub k region addr .clean false) s = .next s) ∧
  (∀ (s : State) (k : RegionCls) (region addr : Nat), s.power.good = true → region < k.regions → k ∈ [RegionCls.bench, .hbm, .cache, .sram] →
    (k = .hbm → (s.hbmRegion addr).getD region = region) →
    Tab.at s.integ.buckets (regionKey k region) 0 < s.depth →
    ∃ t, exec (.planeScrub k region addr .correctable false) s = .next t ∧
      t.integ = { s.integ with buckets := Tab.put s.integ.buckets (regionKey k region) (Tab.at s.integ.buckets (regionKey k region) 0 + 1) } ∧
      Tab.at t.health.counts k.corrected 0 = min (2 ^ 64 - 1) (Tab.at s.health.counts k.corrected 0 + 1) ∧ t.health = { s.health with counts := t.health.counts } ∧
      Frame [.integ, .health] s t) ∧
  (∀ (s : State) (k : RegionCls) (region addr : Nat), s.power.good = true → region < k.regions → k ∈ [RegionCls.bench, .hbm, .cache, .sram] →
    (k = .hbm → (s.hbmRegion addr).getD region = region) →
    s.depth ≤ Tab.at s.integ.buckets (regionKey k region) 0 →
    ∃ t, exec (.planeScrub k region addr .correctable false) s = .next t ∧ Tab.at t.integ.buckets (regionKey k region) 0 = s.depth / 2 ∧
      (∀ j, j ≠ regionKey k region → Tab.at t.integ.buckets j 0 = Tab.at s.integ.buckets j 0) ∧ t.integ.errSummary.getLsbD k.idx = true ∧ regionKey k region ∈ t.integ.overflowed ∧
      Tab.at t.integ.divisors (regionKey k region) 0 = (if s.adaptEn then min 3 (Tab.at s.integ.divisors (regionKey k region) 0 + 1) else Tab.at s.integ.divisors (regionKey k region) 0) ∧
      HostSame s t ∧ Frame [.integ, .health, .events, .host] s t) ∧
  (∀ (s : State) (region addr : Nat), s.power.good = true → region < RegionCls.regions .bench →
    ∃ t, exec (.planeScrub .bench region addr .uncorrectable false) s = .next t ∧ (0, region, addr / 8 * 8) ∈ t.integ.badWords ∧ t.integ = { s.integ with badWords := t.integ.badWords } ∧
      Recorded s t 0x4002 (RegionCls.source .bench region) (leBytes 1 (RegionCls.idx .bench) ++ leBytes 8 addr ++ leBytes 1 2) ∧ Frame [.integ, .health, .events] s t) ∧
  (∀ (s : State) (region addr : Nat), s.power.good = true → region < RegionCls.regions .hbm → (s.hbmRegion addr).getD region = region → s.blockKind .hbm addr = 1 →
    ∃ t, exec (.planeScrub .hbm region addr .uncorrectable false) s = .next t ∧ addr / 64 ∈ t.tiers.hbmBad ∧ t.tiers = { s.tiers with hbmBad := t.tiers.hbmBad } ∧
      Recorded s t 0x4002 (RegionCls.source .hbm region) (leBytes 1 (RegionCls.idx .hbm) ++ leBytes 8 addr ++ leBytes 1 1) ∧ Frame [.tiers, .health, .events] s t) ∧
  (∀ (s : State) (region addr : Nat) (x : CLine), s.power.good = true → region < RegionCls.regions .cache → addr / 2 ^ 56 ≠ 3 → Tab.find s.tiers.lines (addr / 128) = some x →
    ∃ t, exec (.planeScrub .cache region addr .uncorrectable false) s = .next t ∧
      Tab.find t.tiers.lines (addr / 128) = (if x.dirty then some { x with stuck := true } else none) ∧ t.tiers = { s.tiers with lines := t.tiers.lines } ∧
      Recorded s t 0x4002 (RegionCls.source .cache region) (leBytes 1 (RegionCls.idx .cache) ++ leBytes 8 addr ++ leBytes 1 2) ∧ Frame [.tiers, .integ, .health, .events] s t) ∧
  (∀ (s : State) (k : RegionCls) (region addr : Nat), s.power.good = true → region < k.regions → k ∈ [RegionCls.bench, .hbm, .cache, .sram] →
    (k = .hbm → (s.hbmRegion addr).getD region = region) → s.adaptEn = true →
    regionKey k region ∉ s.integ.overflowed →
    ∃ t, exec (.planeScrub k region addr .clean true) s = .next t ∧ Tab.at t.integ.divisors (regionKey k region) 0 = Tab.at s.integ.divisors (regionKey k region) 0 - 1 ∧
      t.integ.buckets = s.integ.buckets ∧ Frame [.integ, .events] s t) ∧
  (∀ s : State, s.power.good = true →
    ∃ t, exec .bucketLeak s = .next t ∧ t.now = max s.now (s.integ.leakAt + s.leakS * secUnits) ∧ (∀ k, Tab.at t.integ.buckets k 0 = Tab.at s.integ.buckets k 0 - 1) ∧
      t.integ = { s.integ with leakAt := t.now, buckets := t.integ.buckets } ∧ Frame [.integ, .now] s t)

/-- Samples, strikes and calibration (14 R475, R478 to R482, R488): an equal comparison frees the capture buffer; a difference is counted, sets MISMATCH and waits for the third run,
which strikes an engine or takes out the core; a strike expires STRIKE_DAYS later; a loaded image is calibrated once. -/
def Obligations.SamplesAndStrikes : Prop :=
  (∀ (s : State) (c : CoreNo) (x : Capture), Tab.find s.integ.captures c.val = some x → x.mismatch = false → s.sampleRun x = true →
    (∀ j ∈ s.compute.jobs, j.2.ending = none) →
    ∃ t, exec (.shadowCompare c true) s = .next t ∧ t.integ = { s.integ with captures := Tab.del s.integ.captures c.val } ∧ Frame [.integ, .health] s t) ∧
  (∀ (s : State) (c : CoreNo) (x : Capture), Tab.find s.integ.captures c.val = some x → x.mismatch = false → s.sampleRun x = true →
    ∃ t, exec (.shadowCompare c false) s = .next t ∧ Tab.find t.integ.captures c.val = some { x with mismatch := true } ∧ t.integ.errSummary = s.integ.errSummary ||| 0x100#12 ∧
      Tab.at t.health.counts 17 0 = min (2 ^ 64 - 1) (Tab.at s.health.counts 17 0 + 1) ∧ Tab.at t.health.counts 19 0 = min (2 ^ 64 - 1) (Tab.at s.health.counts 19 0 + 1) ∧
      t.integ = { s.integ with captures := t.integ.captures, errSummary := t.integ.errSummary } ∧ HostSame s t ∧ Frame [.integ, .health, .host] s t) ∧
  (∀ (s : State) (c : CoreNo) (equal : Bool), (Tab.find s.integ.captures c.val).elim true (fun x => x.mismatch || !s.sampleRun x) = true →
    exec (.shadowCompare c equal) s = .next s) ∧
  (∀ (s : State) (c : CoreNo) (sh : Bool) (x : Capture), Tab.find s.integ.captures c.val = some x → x.mismatch = true → s.thirdEngine c x = true →
    s.strikesOf (8 * c.val + x.shadow % 8) < 2 → (∀ j ∈ s.compute.jobs, j.2.ending = none) →
    ∃ t, exec (.arbitration c true sh) s = .next t ∧ t.integ.captures = Tab.del s.integ.captures c.val ∧
      t.integ.jig = { s.integ.jig with seq := s.integ.jig.seq + 1, strikes := s.integ.jig.strikes ++ [⟨c.val, x.shadow % 8, s.opTime⟩] } ∧
      Frame [.integ, .health, .events] s t) ∧
  (∀ (s : State) (c : CoreNo) (x : Capture), Tab.find s.integ.captures c.val = some x → x.mismatch = true → s.thirdEngine c x = true → s.retireEn = true →
    Tab.has s.integ.jig.cores c.val = false →
    ∃ t, exec (.arbitration c false false) s = .next t ∧ t.integ.captures = Tab.del s.integ.captures c.val ∧ Tab.find t.integ.jig.cores c.val = some (2, s.opTime) ∧
      t.integ.jig.strikes = s.integ.jig.strikes ∧ t.integ.errSummary.getLsbD 10 = true) ∧
  (∀ (s : State) (c : CoreNo) (x : Capture), Tab.find s.integ.captures c.val = some x → x.mismatch = true → s.thirdEngine c x = true → s.retireEn = false →
    ∃ t, exec (.arbitration c false false) s = .next t ∧ t.integ = { s.integ with captures := Tab.del s.integ.captures c.val } ∧
      Recorded s t 0x4007 (sourceOf 3 (8 * c.val + x.primary)) (leBytes 2 (8 * c.val + x.primary))) ∧
  (∀ (s : State) (c : CoreNo) (p sh : Bool), (Tab.find s.integ.captures c.val).elim true (fun x => !x.mismatch || !s.thirdEngine c x) = true → exec (.arbitration c p sh) s = .next s) ∧
  (∀ (s : State) (c : CoreNo) (e : EngNo) (k : Strike), s.integ.jig.strikes.find? (fun k => k.core = c.val && k.engine = e.val) = some k →
    ∃ t, exec (.strikeExpiry c e) s = .next t ∧ t.now = max s.now (s.now + (k.at_ + s.strikeDays * 86400000 - s.opTime) * msUnits) ∧
      t.integ.jig = { s.integ.jig with seq := s.integ.jig.seq + 1, strikes := s.integ.jig.strikes.erase k } ∧ t.integ = { s.integ with jig := t.integ.jig } ∧ Frame [.integ, .now] s t) ∧
  (∀ (s : State) (model : W64) (bounds : List (Nat × W32 × W32)) (x : Model), Tab.find s.serv.models model.toNat = some x → x.loaded = true → x.calibrated = false →
    ∃ t, exec (.calibration model bounds) s = .next t ∧ Tab.find t.serv.models model.toNat = some { x with calibrated := true } ∧ t.serv = { s.serv with models := t.serv.models } ∧
      t.integ = { s.integ with sites := s.integ.sites.filter (fun y => y.model ≠ model) ++ bounds.map (fun b => ⟨model, b.1, b.2.1, b.2.2⟩) } ∧ Frame [.serv, .integ] s t) ∧
  (∀ (s : State) (model : W64) (bounds : List (Nat × W32 × W32)) (x : Model), Tab.find s.serv.models model.toNat = some x → (x.loaded = false ∨ x.calibrated = true) →
    exec (.calibration model bounds) s = .next s)


/-! ## The whole block. -/

/-- A step takes the command at the front of the queue: it is that command's execution on the state with the queue's rest. With no command waiting one Escapement
tick of 40 ns passes and nothing else changes (16 R507; that an idle step is a tick is the model's choice, log entry 2). -/
def Obligations.StepRunsFront : Prop :=
  (∀ (s : State) (i : Instr) (rest : List Instr), s.pending = i :: rest → step s = exec i { s with pending := rest }) ∧
  (∀ s : State, s.pending = [] → step s = .next { s with now := s.now + 40 * 120 })

/-- Every command answers a next state in every state: none faults and none is refused (log entry 1). -/
def Obligations.EveryCommandAnswers : Prop := ∀ (i : Instr) (s : State), ∃ t, exec i s = .next t

/-- A command leaves the queue alone, and time never goes back, whether a command runs or the block idles (16 R507). -/
def Obligations.QueueKeptTimeForward : Prop :=
  (∀ (i : Instr) (s t : State), exec i s = .next t → t.pending = s.pending ∧ s.now ≤ t.now) ∧ (∀ s t : State, step s = .next t → s.now ≤ t.now)

/-- The invariant of memory: every step from a state whose memories are in canonical form (the model's form of the tiers' bytes, 07 R224) gives one whose memories are. -/
def Obligations.MemoriesStayCanonical : Prop := ∀ s t : State, memoriesOk s → step s = .next t → memoriesOk t

/-- The memories are in canonical form right after reset. -/
def Obligations.MemoriesCanonicalAtReset : Prop := memoriesOk State.reset

/-- The security state changes only as 17 R541, R544 and R555 say: fuses are only blown, and by FUSE_BLOW alone; the Owner's key and the volume locks change by OWNER_LOCK or are
lost with the device secret; the policy changes by OWNER_LOCK alone; LOCK_SEQ counts on by one, and by OWNER_LOCK and TAKEOVER alone. A start takes all of them from the
newest page of the security block, but never a lower LOCK_SEQ (17 R540, R541). -/
def Obligations.SecurityChangesByItsCommands : Prop :=
  ∀ (i : Instr) (s t : State), s.sec.fuses ≤ 64 → exec i s = .next t →
    s.sec.fuses ≤ t.sec.fuses ∧ t.sec.fuses ≤ 64 ∧ (t.sec.fuses ≠ s.sec.fuses → i = .fuseBlow) ∧
    ((t.sec.ownerKey ≠ s.sec.ownerKey ∨ t.sec.volLocks ≠ s.sec.volLocks) → (∃ id, i = .ownerLock id) ∨ t.sec.lost = true ∨
      (i.starts = true ∧ t.sec.ownerKey = s.sec.pages.image.ownerKey ∧ t.sec.volLocks = s.sec.pages.image.volLocks)) ∧
    (t.sec.policy ≠ s.sec.policy → (∃ id, i = .ownerLock id) ∨ (i.starts = true ∧ t.sec.policy = s.sec.pages.image.policy)) ∧
    (t.sec.lockSeq ≠ s.sec.lockSeq → (t.sec.lockSeq = (s.sec.lockSeq + 1) % 2 ^ 64 ∧ ((∃ id, i = .ownerLock id) ∨ ∃ id, i = .takeover id)) ∨
      (i.starts = true ∧ s.sec.lockSeq < t.sec.lockSeq ∧ t.sec.lockSeq = s.sec.pages.image.lockSeq))

/-- R494: an event that repeats the record of highest SEQ adds 1 to its REPEAT and sets its LAST_TIME, writes no record and takes no slot; any other event writes a new
record, unless no slot is free. -/
def Obligations.EventsMergeRepeats : Prop :=
  (∀ (e : Events) (rs : List Event) (r : Event) (op cycles code src : Nat) (payload : List Byte),
    e.recs = rs ++ [r] → (∀ q ∈ rs, q.seq < r.seq) → r.code = code → r.severity = severityOf code payload → r.source = src →
    r.payload = fit 24 payload → r.cycles = cycles → r.repeats < 65535 →
    e.add op cycles code src payload = { e with recs := rs ++ [{ r with repeats := r.repeats + 1, lastTime := op, unstable := r.unstable || e.unstable }] }) ∧
  (∀ (e : Events) (op cycles code src : Nat) (payload : List Byte),
    (∀ r, e.recs.getLast? = some r → ¬ (r.code = code ∧ r.severity = severityOf code payload ∧ r.source = src ∧ r.payload = fit 24 payload ∧ r.cycles = cycles ∧
      r.repeats < 65535)) → e.recs.length < 1048576 →
    (e.add op cycles code src payload).recs = e.recs ++ [⟨e.nextSeq, op, cycles, severityOf code payload, code, src, 0, op, e.unstable, fit 24 payload⟩] ∧
      (e.add op cycles code src payload).nextSeq = e.nextSeq + 1)

/-- Reset (16 R519, R534; 18 R566, R567): the registers hold the values their rules give, READINESS, POWER_STATUS and MODULE_RESET read as there, and no command
waits. -/
def Obligations.ResetValues : Prop :=
  State.reset.pending = [] ∧ State.reset.power.ready = 0#6 ∧ State.reset.power.powerCap = 0x006903E8#64 ∧ State.reset.power.mediaPolicy = 0x0000000210410000#64 ∧
    State.reset.regul.policy = 0x00000A80050A5A00#64 ∧ State.reset.regul.pcsetI = 0xFFFFFFFF#64 ∧ State.reset.regul.pcsetB = 0xFFFFFF00#64 ∧
    State.reset.regul.pcsetS = 0xFF000000#64 ∧ (∀ q : QuarterNo, Tab.find State.reset.regul.ways q.val = some 0x4422221111111111#64) ∧
    State.reset.integ.planeControl = 0x01E83C18#64 ∧ State.reset.integ.bucketConfig = 0xA40#64 ∧ State.reset.integ.policy = 0x001E052C#64 ∧
    State.reset.integ.errSummary = 0#12 ∧ State.reset.integ.errIrqEn = 0xFFF#12 ∧ State.reset.host.cmds = [] ∧ State.reset.compute.threads = [] ∧
    (∀ p : Port, State.reset.readReg p 0x1000 = 0 ∧ State.reset.readReg p 0x1008 = 0x09600000 ∧ State.reset.readReg p 0x1018 = 0)
end

