-- ==== Sys2Proof/Laws/State.lean ====
section
/-! SUPPORT. One lemma for each field that a shared operation on the state leaves alone, and for the field through a branch or a fold. A proof about a
command cites these in place of unfolding the operation. -/

namespace Sys2Proof.Machine

/-! ## Branches and folds. -/

@[simp] theorem State.ite_pending (c : Prop) [Decidable c] (s t : State) : (if c then s else t).pending = if c then s.pending else t.pending := by split <;> rfl
@[simp] theorem State.ite_now (c : Prop) [Decidable c] (s t : State) : (if c then s else t).now = if c then s.now else t.now := by split <;> rfl
@[simp] theorem State.ite_freeCtr (c : Prop) [Decidable c] (s t : State) : (if c then s else t).freeCtr = if c then s.freeCtr else t.freeCtr := by split <;> rfl
@[simp] theorem State.ite_dies (c : Prop) [Decidable c] (s t : State) : (if c then s else t).dies = if c then s.dies else t.dies := by split <;> rfl
@[simp] theorem State.ite_media (c : Prop) [Decidable c] (s t : State) : (if c then s else t).media = if c then s.media else t.media := by split <;> rfl
@[simp] theorem State.ite_compute (c : Prop) [Decidable c] (s t : State) : (if c then s else t).compute = if c then s.compute else t.compute := by split <;> rfl
@[simp] theorem State.ite_steps (c : Prop) [Decidable c] (s t : State) : (if c then s else t).steps = if c then s.steps else t.steps := by split <;> rfl
@[simp] theorem State.ite_tiers (c : Prop) [Decidable c] (s t : State) : (if c then s else t).tiers = if c then s.tiers else t.tiers := by split <;> rfl
@[simp] theorem State.ite_items (c : Prop) [Decidable c] (s t : State) : (if c then s else t).items = if c then s.items else t.items := by split <;> rfl
@[simp] theorem State.ite_serv (c : Prop) [Decidable c] (s t : State) : (if c then s else t).serv = if c then s.serv else t.serv := by split <;> rfl
@[simp] theorem State.ite_span (c : Prop) [Decidable c] (s t : State) : (if c then s else t).span = if c then s.span else t.span := by split <;> rfl
@[simp] theorem State.ite_host (c : Prop) [Decidable c] (s t : State) : (if c then s else t).host = if c then s.host else t.host := by split <;> rfl
@[simp] theorem State.ite_regul (c : Prop) [Decidable c] (s t : State) : (if c then s else t).regul = if c then s.regul else t.regul := by split <;> rfl
@[simp] theorem State.ite_integ (c : Prop) [Decidable c] (s t : State) : (if c then s else t).integ = if c then s.integ else t.integ := by split <;> rfl
@[simp] theorem State.ite_events (c : Prop) [Decidable c] (s t : State) : (if c then s else t).events = if c then s.events else t.events := by split <;> rfl
@[simp] theorem State.ite_health (c : Prop) [Decidable c] (s t : State) : (if c then s else t).health = if c then s.health else t.health := by split <;> rfl
@[simp] theorem State.ite_power (c : Prop) [Decidable c] (s t : State) : (if c then s else t).power = if c then s.power else t.power := by split <;> rfl
@[simp] theorem State.ite_sec (c : Prop) [Decidable c] (s t : State) : (if c then s else t).sec = if c then s.sec else t.sec := by split <;> rfl
@[simp] theorem State.ite_smbus (c : Prop) [Decidable c] (s t : State) : (if c then s else t).smbus = if c then s.smbus else t.smbus := by split <;> rfl

theorem State.foldl_pending {α : Type} (f : State → α → State) (h : ∀ s a, (f s a).pending = s.pending) (l : List α) (s : State) : (l.foldl f s).pending = s.pending := by
  induction l generalizing s with
  | nil => rfl
  | cons a l ih => exact (ih (f s a)).trans (h s a)
theorem State.foldl_now {α : Type} (f : State → α → State) (h : ∀ s a, (f s a).now = s.now) (l : List α) (s : State) : (l.foldl f s).now = s.now := by
  induction l generalizing s with
  | nil => rfl
  | cons a l ih => exact (ih (f s a)).trans (h s a)
theorem State.foldl_freeCtr {α : Type} (f : State → α → State) (h : ∀ s a, (f s a).freeCtr = s.freeCtr) (l : List α) (s : State) : (l.foldl f s).freeCtr = s.freeCtr := by
  induction l generalizing s with
  | nil => rfl
  | cons a l ih => exact (ih (f s a)).trans (h s a)
theorem State.foldl_dies {α : Type} (f : State → α → State) (h : ∀ s a, (f s a).dies = s.dies) (l : List α) (s : State) : (l.foldl f s).dies = s.dies := by
  induction l generalizing s with
  | nil => rfl
  | cons a l ih => exact (ih (f s a)).trans (h s a)
theorem State.foldl_media {α : Type} (f : State → α → State) (h : ∀ s a, (f s a).media = s.media) (l : List α) (s : State) : (l.foldl f s).media = s.media := by
  induction l generalizing s with
  | nil => rfl
  | cons a l ih => exact (ih (f s a)).trans (h s a)
theorem State.foldl_compute {α : Type} (f : State → α → State) (h : ∀ s a, (f s a).compute = s.compute) (l : List α) (s : State) : (l.foldl f s).compute = s.compute := by
  induction l generalizing s with
  | nil => rfl
  | cons a l ih => exact (ih (f s a)).trans (h s a)
theorem State.foldl_steps {α : Type} (f : State → α → State) (h : ∀ s a, (f s a).steps = s.steps) (l : List α) (s : State) : (l.foldl f s).steps = s.steps := by
  induction l generalizing s with
  | nil => rfl
  | cons a l ih => exact (ih (f s a)).trans (h s a)
theorem State.foldl_tiers {α : Type} (f : State → α → State) (h : ∀ s a, (f s a).tiers = s.tiers) (l : List α) (s : State) : (l.foldl f s).tiers = s.tiers := by
  induction l generalizing s with
  | nil => rfl
  | cons a l ih => exact (ih (f s a)).trans (h s a)
theorem State.foldl_items {α : Type} (f : State → α → State) (h : ∀ s a, (f s a).items = s.items) (l : List α) (s : State) : (l.foldl f s).items = s.items := by
  induction l generalizing s with
  | nil => rfl
  | cons a l ih => exact (ih (f s a)).trans (h s a)
theorem State.foldl_serv {α : Type} (f : State → α → State) (h : ∀ s a, (f s a).serv = s.serv) (l : List α) (s : State) : (l.foldl f s).serv = s.serv := by
  induction l generalizing s with
  | nil => rfl
  | cons a l ih => exact (ih (f s a)).trans (h s a)
theorem State.foldl_span {α : Type} (f : State → α → State) (h : ∀ s a, (f s a).span = s.span) (l : List α) (s : State) : (l.foldl f s).span = s.span := by
  induction l generalizing s with
  | nil => rfl
  | cons a l ih => exact (ih (f s a)).trans (h s a)
theorem State.foldl_host {α : Type} (f : State → α → State) (h : ∀ s a, (f s a).host = s.host) (l : List α) (s : State) : (l.foldl f s).host = s.host := by
  induction l generalizing s with
  | nil => rfl
  | cons a l ih => exact (ih (f s a)).trans (h s a)
theorem State.foldl_regul {α : Type} (f : State → α → State) (h : ∀ s a, (f s a).regul = s.regul) (l : List α) (s : State) : (l.foldl f s).regul = s.regul := by
  induction l generalizing s with
  | nil => rfl
  | cons a l ih => exact (ih (f s a)).trans (h s a)
theorem State.foldl_integ {α : Type} (f : State → α → State) (h : ∀ s a, (f s a).integ = s.integ) (l : List α) (s : State) : (l.foldl f s).integ = s.integ := by
  induction l generalizing s with
  | nil => rfl
  | cons a l ih => exact (ih (f s a)).trans (h s a)
theorem State.foldl_events {α : Type} (f : State → α → State) (h : ∀ s a, (f s a).events = s.events) (l : List α) (s : State) : (l.foldl f s).events = s.events := by
  induction l generalizing s with
  | nil => rfl
  | cons a l ih => exact (ih (f s a)).trans (h s a)
theorem State.foldl_health {α : Type} (f : State → α → State) (h : ∀ s a, (f s a).health = s.health) (l : List α) (s : State) : (l.foldl f s).health = s.health := by
  induction l generalizing s with
  | nil => rfl
  | cons a l ih => exact (ih (f s a)).trans (h s a)
theorem State.foldl_power {α : Type} (f : State → α → State) (h : ∀ s a, (f s a).power = s.power) (l : List α) (s : State) : (l.foldl f s).power = s.power := by
  induction l generalizing s with
  | nil => rfl
  | cons a l ih => exact (ih (f s a)).trans (h s a)
theorem State.foldl_sec {α : Type} (f : State → α → State) (h : ∀ s a, (f s a).sec = s.sec) (l : List α) (s : State) : (l.foldl f s).sec = s.sec := by
  induction l generalizing s with
  | nil => rfl
  | cons a l ih => exact (ih (f s a)).trans (h s a)
theorem State.foldl_smbus {α : Type} (f : State → α → State) (h : ∀ s a, (f s a).smbus = s.smbus) (l : List α) (s : State) : (l.foldl f s).smbus = s.smbus := by
  induction l generalizing s with
  | nil => rfl
  | cons a l ih => exact (ih (f s a)).trans (h s a)

/-! ## The operations. -/

@[simp] theorem State.atTime_pending (s : State) (t : Nat) : (s.at_ t).pending = s.pending := rfl
@[simp] theorem State.atTime_freeCtr (s : State) (t : Nat) : (s.at_ t).freeCtr = s.freeCtr := rfl
@[simp] theorem State.atTime_dies (s : State) (t : Nat) : (s.at_ t).dies = s.dies := rfl
@[simp] theorem State.atTime_media (s : State) (t : Nat) : (s.at_ t).media = s.media := rfl
@[simp] theorem State.atTime_compute (s : State) (t : Nat) : (s.at_ t).compute = s.compute := rfl
@[simp] theorem State.atTime_steps (s : State) (t : Nat) : (s.at_ t).steps = s.steps := rfl
@[simp] theorem State.atTime_tiers (s : State) (t : Nat) : (s.at_ t).tiers = s.tiers := rfl
@[simp] theorem State.atTime_items (s : State) (t : Nat) : (s.at_ t).items = s.items := rfl
@[simp] theorem State.atTime_serv (s : State) (t : Nat) : (s.at_ t).serv = s.serv := rfl
@[simp] theorem State.atTime_span (s : State) (t : Nat) : (s.at_ t).span = s.span := rfl
@[simp] theorem State.atTime_host (s : State) (t : Nat) : (s.at_ t).host = s.host := rfl
@[simp] theorem State.atTime_regul (s : State) (t : Nat) : (s.at_ t).regul = s.regul := rfl
@[simp] theorem State.atTime_integ (s : State) (t : Nat) : (s.at_ t).integ = s.integ := rfl
@[simp] theorem State.atTime_events (s : State) (t : Nat) : (s.at_ t).events = s.events := rfl
@[simp] theorem State.atTime_health (s : State) (t : Nat) : (s.at_ t).health = s.health := rfl
@[simp] theorem State.atTime_power (s : State) (t : Nat) : (s.at_ t).power = s.power := rfl
@[simp] theorem State.atTime_sec (s : State) (t : Nat) : (s.at_ t).sec = s.sec := rfl
@[simp] theorem State.atTime_smbus (s : State) (t : Nat) : (s.at_ t).smbus = s.smbus := rfl

@[simp] theorem State.record_pending (s : State) (code src : Nat) (payload : List Byte) : (s.record code src payload).pending = s.pending := rfl
@[simp] theorem State.record_now (s : State) (code src : Nat) (payload : List Byte) : (s.record code src payload).now = s.now := rfl
@[simp] theorem State.record_freeCtr (s : State) (code src : Nat) (payload : List Byte) : (s.record code src payload).freeCtr = s.freeCtr := rfl
@[simp] theorem State.record_dies (s : State) (code src : Nat) (payload : List Byte) : (s.record code src payload).dies = s.dies := rfl
@[simp] theorem State.record_media (s : State) (code src : Nat) (payload : List Byte) : (s.record code src payload).media = s.media := rfl
@[simp] theorem State.record_compute (s : State) (code src : Nat) (payload : List Byte) : (s.record code src payload).compute = s.compute := rfl
@[simp] theorem State.record_steps (s : State) (code src : Nat) (payload : List Byte) : (s.record code src payload).steps = s.steps := rfl
@[simp] theorem State.record_tiers (s : State) (code src : Nat) (payload : List Byte) : (s.record code src payload).tiers = s.tiers := rfl
@[simp] theorem State.record_items (s : State) (code src : Nat) (payload : List Byte) : (s.record code src payload).items = s.items := rfl
@[simp] theorem State.record_serv (s : State) (code src : Nat) (payload : List Byte) : (s.record code src payload).serv = s.serv := rfl
@[simp] theorem State.record_span (s : State) (code src : Nat) (payload : List Byte) : (s.record code src payload).span = s.span := rfl
@[simp] theorem State.record_host (s : State) (code src : Nat) (payload : List Byte) : (s.record code src payload).host = s.host := rfl
@[simp] theorem State.record_regul (s : State) (code src : Nat) (payload : List Byte) : (s.record code src payload).regul = s.regul := rfl
@[simp] theorem State.record_integ (s : State) (code src : Nat) (payload : List Byte) : (s.record code src payload).integ = s.integ := rfl
@[simp] theorem State.record_health (s : State) (code src : Nat) (payload : List Byte) : (s.record code src payload).health = s.health := rfl
@[simp] theorem State.record_power (s : State) (code src : Nat) (payload : List Byte) : (s.record code src payload).power = s.power := rfl
@[simp] theorem State.record_sec (s : State) (code src : Nat) (payload : List Byte) : (s.record code src payload).sec = s.sec := rfl
@[simp] theorem State.record_smbus (s : State) (code src : Nat) (payload : List Byte) : (s.record code src payload).smbus = s.smbus := rfl

@[simp] theorem State.count_pending (s : State) (i n : Nat) : (s.count i n).pending = s.pending := rfl
@[simp] theorem State.count_now (s : State) (i n : Nat) : (s.count i n).now = s.now := rfl
@[simp] theorem State.count_freeCtr (s : State) (i n : Nat) : (s.count i n).freeCtr = s.freeCtr := rfl
@[simp] theorem State.count_dies (s : State) (i n : Nat) : (s.count i n).dies = s.dies := rfl
@[simp] theorem State.count_media (s : State) (i n : Nat) : (s.count i n).media = s.media := rfl
@[simp] theorem State.count_compute (s : State) (i n : Nat) : (s.count i n).compute = s.compute := rfl
@[simp] theorem State.count_steps (s : State) (i n : Nat) : (s.count i n).steps = s.steps := rfl
@[simp] theorem State.count_tiers (s : State) (i n : Nat) : (s.count i n).tiers = s.tiers := rfl
@[simp] theorem State.count_items (s : State) (i n : Nat) : (s.count i n).items = s.items := rfl
@[simp] theorem State.count_serv (s : State) (i n : Nat) : (s.count i n).serv = s.serv := rfl
@[simp] theorem State.count_span (s : State) (i n : Nat) : (s.count i n).span = s.span := rfl
@[simp] theorem State.count_host (s : State) (i n : Nat) : (s.count i n).host = s.host := rfl
@[simp] theorem State.count_regul (s : State) (i n : Nat) : (s.count i n).regul = s.regul := rfl
@[simp] theorem State.count_integ (s : State) (i n : Nat) : (s.count i n).integ = s.integ := rfl
@[simp] theorem State.count_events (s : State) (i n : Nat) : (s.count i n).events = s.events := rfl
@[simp] theorem State.count_power (s : State) (i n : Nat) : (s.count i n).power = s.power := rfl
@[simp] theorem State.count_sec (s : State) (i n : Nat) : (s.count i n).sec = s.sec := rfl
@[simp] theorem State.count_smbus (s : State) (i n : Nat) : (s.count i n).smbus = s.smbus := rfl

@[simp] theorem State.pagesProgrammed_pending (s : State) (n : Nat) : (s.pagesProgrammed n).pending = s.pending := rfl
@[simp] theorem State.pagesProgrammed_now (s : State) (n : Nat) : (s.pagesProgrammed n).now = s.now := rfl
@[simp] theorem State.pagesProgrammed_freeCtr (s : State) (n : Nat) : (s.pagesProgrammed n).freeCtr = s.freeCtr := rfl
@[simp] theorem State.pagesProgrammed_dies (s : State) (n : Nat) : (s.pagesProgrammed n).dies = s.dies := rfl
@[simp] theorem State.pagesProgrammed_media (s : State) (n : Nat) : (s.pagesProgrammed n).media = s.media := rfl
@[simp] theorem State.pagesProgrammed_compute (s : State) (n : Nat) : (s.pagesProgrammed n).compute = s.compute := rfl
@[simp] theorem State.pagesProgrammed_steps (s : State) (n : Nat) : (s.pagesProgrammed n).steps = s.steps := rfl
@[simp] theorem State.pagesProgrammed_tiers (s : State) (n : Nat) : (s.pagesProgrammed n).tiers = s.tiers := rfl
@[simp] theorem State.pagesProgrammed_items (s : State) (n : Nat) : (s.pagesProgrammed n).items = s.items := rfl
@[simp] theorem State.pagesProgrammed_serv (s : State) (n : Nat) : (s.pagesProgrammed n).serv = s.serv := rfl
@[simp] theorem State.pagesProgrammed_span (s : State) (n : Nat) : (s.pagesProgrammed n).span = s.span := rfl
@[simp] theorem State.pagesProgrammed_host (s : State) (n : Nat) : (s.pagesProgrammed n).host = s.host := rfl
@[simp] theorem State.pagesProgrammed_regul (s : State) (n : Nat) : (s.pagesProgrammed n).regul = s.regul := rfl
@[simp] theorem State.pagesProgrammed_integ (s : State) (n : Nat) : (s.pagesProgrammed n).integ = s.integ := rfl
@[simp] theorem State.pagesProgrammed_events (s : State) (n : Nat) : (s.pagesProgrammed n).events = s.events := rfl
@[simp] theorem State.pagesProgrammed_power (s : State) (n : Nat) : (s.pagesProgrammed n).power = s.power := rfl
@[simp] theorem State.pagesProgrammed_sec (s : State) (n : Nat) : (s.pagesProgrammed n).sec = s.sec := rfl
@[simp] theorem State.pagesProgrammed_smbus (s : State) (n : Nat) : (s.pagesProgrammed n).smbus = s.smbus := rfl

@[simp] theorem State.hostWrite_pending (s : State) (p : Port) (a : Nat) (bs : List Byte) : (s.hostWrite p a bs).pending = s.pending := rfl
@[simp] theorem State.hostWrite_now (s : State) (p : Port) (a : Nat) (bs : List Byte) : (s.hostWrite p a bs).now = s.now := rfl
@[simp] theorem State.hostWrite_freeCtr (s : State) (p : Port) (a : Nat) (bs : List Byte) : (s.hostWrite p a bs).freeCtr = s.freeCtr := rfl
@[simp] theorem State.hostWrite_dies (s : State) (p : Port) (a : Nat) (bs : List Byte) : (s.hostWrite p a bs).dies = s.dies := rfl
@[simp] theorem State.hostWrite_media (s : State) (p : Port) (a : Nat) (bs : List Byte) : (s.hostWrite p a bs).media = s.media := rfl
@[simp] theorem State.hostWrite_compute (s : State) (p : Port) (a : Nat) (bs : List Byte) : (s.hostWrite p a bs).compute = s.compute := rfl
@[simp] theorem State.hostWrite_steps (s : State) (p : Port) (a : Nat) (bs : List Byte) : (s.hostWrite p a bs).steps = s.steps := rfl
@[simp] theorem State.hostWrite_tiers (s : State) (p : Port) (a : Nat) (bs : List Byte) : (s.hostWrite p a bs).tiers = s.tiers := rfl
@[simp] theorem State.hostWrite_items (s : State) (p : Port) (a : Nat) (bs : List Byte) : (s.hostWrite p a bs).items = s.items := rfl
@[simp] theorem State.hostWrite_serv (s : State) (p : Port) (a : Nat) (bs : List Byte) : (s.hostWrite p a bs).serv = s.serv := rfl
@[simp] theorem State.hostWrite_span (s : State) (p : Port) (a : Nat) (bs : List Byte) : (s.hostWrite p a bs).span = s.span := rfl
@[simp] theorem State.hostWrite_regul (s : State) (p : Port) (a : Nat) (bs : List Byte) : (s.hostWrite p a bs).regul = s.regul := rfl
@[simp] theorem State.hostWrite_integ (s : State) (p : Port) (a : Nat) (bs : List Byte) : (s.hostWrite p a bs).integ = s.integ := rfl
@[simp] theorem State.hostWrite_events (s : State) (p : Port) (a : Nat) (bs : List Byte) : (s.hostWrite p a bs).events = s.events := rfl
@[simp] theorem State.hostWrite_health (s : State) (p : Port) (a : Nat) (bs : List Byte) : (s.hostWrite p a bs).health = s.health := rfl
@[simp] theorem State.hostWrite_power (s : State) (p : Port) (a : Nat) (bs : List Byte) : (s.hostWrite p a bs).power = s.power := rfl
@[simp] theorem State.hostWrite_sec (s : State) (p : Port) (a : Nat) (bs : List Byte) : (s.hostWrite p a bs).sec = s.sec := rfl
@[simp] theorem State.hostWrite_smbus (s : State) (p : Port) (a : Nat) (bs : List Byte) : (s.hostWrite p a bs).smbus = s.smbus := rfl

@[simp] theorem State.spend_pending (s : State) (n : Nat) : (s.spend n).pending = s.pending := rfl
@[simp] theorem State.spend_now (s : State) (n : Nat) : (s.spend n).now = s.now := rfl
@[simp] theorem State.spend_dies (s : State) (n : Nat) : (s.spend n).dies = s.dies := rfl
@[simp] theorem State.spend_media (s : State) (n : Nat) : (s.spend n).media = s.media := rfl
@[simp] theorem State.spend_compute (s : State) (n : Nat) : (s.spend n).compute = s.compute := rfl
@[simp] theorem State.spend_steps (s : State) (n : Nat) : (s.spend n).steps = s.steps := rfl
@[simp] theorem State.spend_tiers (s : State) (n : Nat) : (s.spend n).tiers = s.tiers := rfl
@[simp] theorem State.spend_items (s : State) (n : Nat) : (s.spend n).items = s.items := rfl
@[simp] theorem State.spend_serv (s : State) (n : Nat) : (s.spend n).serv = s.serv := rfl
@[simp] theorem State.spend_span (s : State) (n : Nat) : (s.spend n).span = s.span := rfl
@[simp] theorem State.spend_host (s : State) (n : Nat) : (s.spend n).host = s.host := rfl
@[simp] theorem State.spend_regul (s : State) (n : Nat) : (s.spend n).regul = s.regul := rfl
@[simp] theorem State.spend_integ (s : State) (n : Nat) : (s.spend n).integ = s.integ := rfl
@[simp] theorem State.spend_events (s : State) (n : Nat) : (s.spend n).events = s.events := rfl
@[simp] theorem State.spend_health (s : State) (n : Nat) : (s.spend n).health = s.health := rfl
@[simp] theorem State.spend_power (s : State) (n : Nat) : (s.spend n).power = s.power := rfl
@[simp] theorem State.spend_sec (s : State) (n : Nat) : (s.spend n).sec = s.sec := rfl
@[simp] theorem State.spend_smbus (s : State) (n : Nat) : (s.spend n).smbus = s.smbus := rfl

@[simp] theorem State.setPort_pending (s : State) (p : Port) (x : PortState) : (s.setPort p x).pending = s.pending := by cases p <;> rfl
@[simp] theorem State.setPort_now (s : State) (p : Port) (x : PortState) : (s.setPort p x).now = s.now := by cases p <;> rfl
@[simp] theorem State.setPort_freeCtr (s : State) (p : Port) (x : PortState) : (s.setPort p x).freeCtr = s.freeCtr := by cases p <;> rfl
@[simp] theorem State.setPort_dies (s : State) (p : Port) (x : PortState) : (s.setPort p x).dies = s.dies := by cases p <;> rfl
@[simp] theorem State.setPort_media (s : State) (p : Port) (x : PortState) : (s.setPort p x).media = s.media := by cases p <;> rfl
@[simp] theorem State.setPort_compute (s : State) (p : Port) (x : PortState) : (s.setPort p x).compute = s.compute := by cases p <;> rfl
@[simp] theorem State.setPort_steps (s : State) (p : Port) (x : PortState) : (s.setPort p x).steps = s.steps := by cases p <;> rfl
@[simp] theorem State.setPort_tiers (s : State) (p : Port) (x : PortState) : (s.setPort p x).tiers = s.tiers := by cases p <;> rfl
@[simp] theorem State.setPort_items (s : State) (p : Port) (x : PortState) : (s.setPort p x).items = s.items := by cases p <;> rfl
@[simp] theorem State.setPort_serv (s : State) (p : Port) (x : PortState) : (s.setPort p x).serv = s.serv := by cases p <;> rfl
@[simp] theorem State.setPort_span (s : State) (p : Port) (x : PortState) : (s.setPort p x).span = s.span := by cases p <;> rfl
@[simp] theorem State.setPort_regul (s : State) (p : Port) (x : PortState) : (s.setPort p x).regul = s.regul := by cases p <;> rfl
@[simp] theorem State.setPort_integ (s : State) (p : Port) (x : PortState) : (s.setPort p x).integ = s.integ := by cases p <;> rfl
@[simp] theorem State.setPort_events (s : State) (p : Port) (x : PortState) : (s.setPort p x).events = s.events := by cases p <;> rfl
@[simp] theorem State.setPort_health (s : State) (p : Port) (x : PortState) : (s.setPort p x).health = s.health := by cases p <;> rfl
@[simp] theorem State.setPort_power (s : State) (p : Port) (x : PortState) : (s.setPort p x).power = s.power := by cases p <;> rfl
@[simp] theorem State.setPort_sec (s : State) (p : Port) (x : PortState) : (s.setPort p x).sec = s.sec := by cases p <;> rfl
@[simp] theorem State.setPort_smbus (s : State) (p : Port) (x : PortState) : (s.setPort p x).smbus = s.smbus := by cases p <;> rfl

@[simp] theorem State.modPort_pending (s : State) (p : Port) (f : PortState → PortState) : (s.modPort p f).pending = s.pending := by cases p <;> rfl
@[simp] theorem State.modPort_now (s : State) (p : Port) (f : PortState → PortState) : (s.modPort p f).now = s.now := by cases p <;> rfl
@[simp] theorem State.modPort_freeCtr (s : State) (p : Port) (f : PortState → PortState) : (s.modPort p f).freeCtr = s.freeCtr := by cases p <;> rfl
@[simp] theorem State.modPort_dies (s : State) (p : Port) (f : PortState → PortState) : (s.modPort p f).dies = s.dies := by cases p <;> rfl
@[simp] theorem State.modPort_media (s : State) (p : Port) (f : PortState → PortState) : (s.modPort p f).media = s.media := by cases p <;> rfl
@[simp] theorem State.modPort_compute (s : State) (p : Port) (f : PortState → PortState) : (s.modPort p f).compute = s.compute := by cases p <;> rfl
@[simp] theorem State.modPort_steps (s : State) (p : Port) (f : PortState → PortState) : (s.modPort p f).steps = s.steps := by cases p <;> rfl
@[simp] theorem State.modPort_tiers (s : State) (p : Port) (f : PortState → PortState) : (s.modPort p f).tiers = s.tiers := by cases p <;> rfl
@[simp] theorem State.modPort_items (s : State) (p : Port) (f : PortState → PortState) : (s.modPort p f).items = s.items := by cases p <;> rfl
@[simp] theorem State.modPort_serv (s : State) (p : Port) (f : PortState → PortState) : (s.modPort p f).serv = s.serv := by cases p <;> rfl
@[simp] theorem State.modPort_span (s : State) (p : Port) (f : PortState → PortState) : (s.modPort p f).span = s.span := by cases p <;> rfl
@[simp] theorem State.modPort_regul (s : State) (p : Port) (f : PortState → PortState) : (s.modPort p f).regul = s.regul := by cases p <;> rfl
@[simp] theorem State.modPort_integ (s : State) (p : Port) (f : PortState → PortState) : (s.modPort p f).integ = s.integ := by cases p <;> rfl
@[simp] theorem State.modPort_events (s : State) (p : Port) (f : PortState → PortState) : (s.modPort p f).events = s.events := by cases p <;> rfl
@[simp] theorem State.modPort_health (s : State) (p : Port) (f : PortState → PortState) : (s.modPort p f).health = s.health := by cases p <;> rfl
@[simp] theorem State.modPort_power (s : State) (p : Port) (f : PortState → PortState) : (s.modPort p f).power = s.power := by cases p <;> rfl
@[simp] theorem State.modPort_sec (s : State) (p : Port) (f : PortState → PortState) : (s.modPort p f).sec = s.sec := by cases p <;> rfl
@[simp] theorem State.modPort_smbus (s : State) (p : Port) (f : PortState → PortState) : (s.modPort p f).smbus = s.smbus := by cases p <;> rfl

@[simp] theorem State.modRing_pending (s : State) (p : Port) (r : Nat) (f : Ring → Ring) : (s.modRing p r f).pending = s.pending := by cases p <;> rfl
@[simp] theorem State.modRing_now (s : State) (p : Port) (r : Nat) (f : Ring → Ring) : (s.modRing p r f).now = s.now := by cases p <;> rfl
@[simp] theorem State.modRing_freeCtr (s : State) (p : Port) (r : Nat) (f : Ring → Ring) : (s.modRing p r f).freeCtr = s.freeCtr := by cases p <;> rfl
@[simp] theorem State.modRing_dies (s : State) (p : Port) (r : Nat) (f : Ring → Ring) : (s.modRing p r f).dies = s.dies := by cases p <;> rfl
@[simp] theorem State.modRing_media (s : State) (p : Port) (r : Nat) (f : Ring → Ring) : (s.modRing p r f).media = s.media := by cases p <;> rfl
@[simp] theorem State.modRing_compute (s : State) (p : Port) (r : Nat) (f : Ring → Ring) : (s.modRing p r f).compute = s.compute := by cases p <;> rfl
@[simp] theorem State.modRing_steps (s : State) (p : Port) (r : Nat) (f : Ring → Ring) : (s.modRing p r f).steps = s.steps := by cases p <;> rfl
@[simp] theorem State.modRing_tiers (s : State) (p : Port) (r : Nat) (f : Ring → Ring) : (s.modRing p r f).tiers = s.tiers := by cases p <;> rfl
@[simp] theorem State.modRing_items (s : State) (p : Port) (r : Nat) (f : Ring → Ring) : (s.modRing p r f).items = s.items := by cases p <;> rfl
@[simp] theorem State.modRing_serv (s : State) (p : Port) (r : Nat) (f : Ring → Ring) : (s.modRing p r f).serv = s.serv := by cases p <;> rfl
@[simp] theorem State.modRing_span (s : State) (p : Port) (r : Nat) (f : Ring → Ring) : (s.modRing p r f).span = s.span := by cases p <;> rfl
@[simp] theorem State.modRing_regul (s : State) (p : Port) (r : Nat) (f : Ring → Ring) : (s.modRing p r f).regul = s.regul := by cases p <;> rfl
@[simp] theorem State.modRing_integ (s : State) (p : Port) (r : Nat) (f : Ring → Ring) : (s.modRing p r f).integ = s.integ := by cases p <;> rfl
@[simp] theorem State.modRing_events (s : State) (p : Port) (r : Nat) (f : Ring → Ring) : (s.modRing p r f).events = s.events := by cases p <;> rfl
@[simp] theorem State.modRing_health (s : State) (p : Port) (r : Nat) (f : Ring → Ring) : (s.modRing p r f).health = s.health := by cases p <;> rfl
@[simp] theorem State.modRing_power (s : State) (p : Port) (r : Nat) (f : Ring → Ring) : (s.modRing p r f).power = s.power := by cases p <;> rfl
@[simp] theorem State.modRing_sec (s : State) (p : Port) (r : Nat) (f : Ring → Ring) : (s.modRing p r f).sec = s.sec := by cases p <;> rfl
@[simp] theorem State.modRing_smbus (s : State) (p : Port) (r : Nat) (f : Ring → Ring) : (s.modRing p r f).smbus = s.smbus := by cases p <;> rfl

@[simp] theorem State.modCmd_pending (s : State) (id : Nat) (f : Cmd → Cmd) : (s.modCmd id f).pending = s.pending := rfl
@[simp] theorem State.modCmd_now (s : State) (id : Nat) (f : Cmd → Cmd) : (s.modCmd id f).now = s.now := rfl
@[simp] theorem State.modCmd_freeCtr (s : State) (id : Nat) (f : Cmd → Cmd) : (s.modCmd id f).freeCtr = s.freeCtr := rfl
@[simp] theorem State.modCmd_dies (s : State) (id : Nat) (f : Cmd → Cmd) : (s.modCmd id f).dies = s.dies := rfl
@[simp] theorem State.modCmd_media (s : State) (id : Nat) (f : Cmd → Cmd) : (s.modCmd id f).media = s.media := rfl
@[simp] theorem State.modCmd_compute (s : State) (id : Nat) (f : Cmd → Cmd) : (s.modCmd id f).compute = s.compute := rfl
@[simp] theorem State.modCmd_steps (s : State) (id : Nat) (f : Cmd → Cmd) : (s.modCmd id f).steps = s.steps := rfl
@[simp] theorem State.modCmd_tiers (s : State) (id : Nat) (f : Cmd → Cmd) : (s.modCmd id f).tiers = s.tiers := rfl
@[simp] theorem State.modCmd_items (s : State) (id : Nat) (f : Cmd → Cmd) : (s.modCmd id f).items = s.items := rfl
@[simp] theorem State.modCmd_serv (s : State) (id : Nat) (f : Cmd → Cmd) : (s.modCmd id f).serv = s.serv := rfl
@[simp] theorem State.modCmd_span (s : State) (id : Nat) (f : Cmd → Cmd) : (s.modCmd id f).span = s.span := rfl
@[simp] theorem State.modCmd_regul (s : State) (id : Nat) (f : Cmd → Cmd) : (s.modCmd id f).regul = s.regul := rfl
@[simp] theorem State.modCmd_integ (s : State) (id : Nat) (f : Cmd → Cmd) : (s.modCmd id f).integ = s.integ := rfl
@[simp] theorem State.modCmd_events (s : State) (id : Nat) (f : Cmd → Cmd) : (s.modCmd id f).events = s.events := rfl
@[simp] theorem State.modCmd_health (s : State) (id : Nat) (f : Cmd → Cmd) : (s.modCmd id f).health = s.health := rfl
@[simp] theorem State.modCmd_power (s : State) (id : Nat) (f : Cmd → Cmd) : (s.modCmd id f).power = s.power := rfl
@[simp] theorem State.modCmd_sec (s : State) (id : Nat) (f : Cmd → Cmd) : (s.modCmd id f).sec = s.sec := rfl
@[simp] theorem State.modCmd_smbus (s : State) (id : Nat) (f : Cmd → Cmd) : (s.modCmd id f).smbus = s.smbus := rfl

@[simp] theorem State.hold_pending (s : State) (p : Port) (r : Nat) (x : Reply) : (s.hold p r x).pending = s.pending := by cases p <;> rfl
@[simp] theorem State.hold_now (s : State) (p : Port) (r : Nat) (x : Reply) : (s.hold p r x).now = s.now := by cases p <;> rfl
@[simp] theorem State.hold_freeCtr (s : State) (p : Port) (r : Nat) (x : Reply) : (s.hold p r x).freeCtr = s.freeCtr := by cases p <;> rfl
@[simp] theorem State.hold_dies (s : State) (p : Port) (r : Nat) (x : Reply) : (s.hold p r x).dies = s.dies := by cases p <;> rfl
@[simp] theorem State.hold_media (s : State) (p : Port) (r : Nat) (x : Reply) : (s.hold p r x).media = s.media := by cases p <;> rfl
@[simp] theorem State.hold_compute (s : State) (p : Port) (r : Nat) (x : Reply) : (s.hold p r x).compute = s.compute := by cases p <;> rfl
@[simp] theorem State.hold_steps (s : State) (p : Port) (r : Nat) (x : Reply) : (s.hold p r x).steps = s.steps := by cases p <;> rfl
@[simp] theorem State.hold_tiers (s : State) (p : Port) (r : Nat) (x : Reply) : (s.hold p r x).tiers = s.tiers := by cases p <;> rfl
@[simp] theorem State.hold_items (s : State) (p : Port) (r : Nat) (x : Reply) : (s.hold p r x).items = s.items := by cases p <;> rfl
@[simp] theorem State.hold_serv (s : State) (p : Port) (r : Nat) (x : Reply) : (s.hold p r x).serv = s.serv := by cases p <;> rfl
@[simp] theorem State.hold_span (s : State) (p : Port) (r : Nat) (x : Reply) : (s.hold p r x).span = s.span := by cases p <;> rfl
@[simp] theorem State.hold_regul (s : State) (p : Port) (r : Nat) (x : Reply) : (s.hold p r x).regul = s.regul := by cases p <;> rfl
@[simp] theorem State.hold_integ (s : State) (p : Port) (r : Nat) (x : Reply) : (s.hold p r x).integ = s.integ := by cases p <;> rfl
@[simp] theorem State.hold_events (s : State) (p : Port) (r : Nat) (x : Reply) : (s.hold p r x).events = s.events := by cases p <;> rfl
@[simp] theorem State.hold_health (s : State) (p : Port) (r : Nat) (x : Reply) : (s.hold p r x).health = s.health := by cases p <;> rfl
@[simp] theorem State.hold_power (s : State) (p : Port) (r : Nat) (x : Reply) : (s.hold p r x).power = s.power := by cases p <;> rfl
@[simp] theorem State.hold_sec (s : State) (p : Port) (r : Nat) (x : Reply) : (s.hold p r x).sec = s.sec := by cases p <;> rfl
@[simp] theorem State.hold_smbus (s : State) (p : Port) (r : Nat) (x : Reply) : (s.hold p r x).smbus = s.smbus := by cases p <;> rfl

@[simp] theorem State.dropCmd_pending (s : State) (id : Nat) : (s.dropCmd id).pending = s.pending := by unfold State.dropCmd; split <;> simp
@[simp] theorem State.dropCmd_now (s : State) (id : Nat) : (s.dropCmd id).now = s.now := by unfold State.dropCmd; split <;> simp
@[simp] theorem State.dropCmd_freeCtr (s : State) (id : Nat) : (s.dropCmd id).freeCtr = s.freeCtr := by unfold State.dropCmd; split <;> simp
@[simp] theorem State.dropCmd_dies (s : State) (id : Nat) : (s.dropCmd id).dies = s.dies := by unfold State.dropCmd; split <;> simp
@[simp] theorem State.dropCmd_compute (s : State) (id : Nat) : (s.dropCmd id).compute = s.compute := by unfold State.dropCmd; split <;> simp
@[simp] theorem State.dropCmd_steps (s : State) (id : Nat) : (s.dropCmd id).steps = s.steps := by unfold State.dropCmd; split <;> simp
@[simp] theorem State.dropCmd_tiers (s : State) (id : Nat) : (s.dropCmd id).tiers = s.tiers := by unfold State.dropCmd; split <;> simp
@[simp] theorem State.dropCmd_items (s : State) (id : Nat) : (s.dropCmd id).items = s.items := by unfold State.dropCmd; split <;> simp
@[simp] theorem State.dropCmd_serv (s : State) (id : Nat) : (s.dropCmd id).serv = s.serv := by unfold State.dropCmd; split <;> simp
@[simp] theorem State.dropCmd_span (s : State) (id : Nat) : (s.dropCmd id).span = s.span := by unfold State.dropCmd; split <;> simp
@[simp] theorem State.dropCmd_regul (s : State) (id : Nat) : (s.dropCmd id).regul = s.regul := by unfold State.dropCmd; split <;> simp
@[simp] theorem State.dropCmd_integ (s : State) (id : Nat) : (s.dropCmd id).integ = s.integ := by unfold State.dropCmd; split <;> simp
@[simp] theorem State.dropCmd_events (s : State) (id : Nat) : (s.dropCmd id).events = s.events := by unfold State.dropCmd; split <;> simp
@[simp] theorem State.dropCmd_health (s : State) (id : Nat) : (s.dropCmd id).health = s.health := by unfold State.dropCmd; split <;> simp
@[simp] theorem State.dropCmd_power (s : State) (id : Nat) : (s.dropCmd id).power = s.power := by unfold State.dropCmd; split <;> simp
@[simp] theorem State.dropCmd_sec (s : State) (id : Nat) : (s.dropCmd id).sec = s.sec := by unfold State.dropCmd; split <;> simp
@[simp] theorem State.dropCmd_smbus (s : State) (id : Nat) : (s.dropCmd id).smbus = s.smbus := by unfold State.dropCmd; split <;> simp

@[simp] theorem State.spoiled_pending (s : State) (c : Cmd) (st : Status) : (s.spoiled c st).pending = s.pending := by unfold State.spoiled; split <;> rfl
@[simp] theorem State.spoiled_now (s : State) (c : Cmd) (st : Status) : (s.spoiled c st).now = s.now := by unfold State.spoiled; split <;> rfl
@[simp] theorem State.spoiled_dies (s : State) (c : Cmd) (st : Status) : (s.spoiled c st).dies = s.dies := by unfold State.spoiled; split <;> rfl
@[simp] theorem State.spoiled_media (s : State) (c : Cmd) (st : Status) : (s.spoiled c st).media = s.media := by unfold State.spoiled; split <;> rfl
@[simp] theorem State.spoiled_compute (s : State) (c : Cmd) (st : Status) : (s.spoiled c st).compute = s.compute := by unfold State.spoiled; split <;> rfl
@[simp] theorem State.spoiled_steps (s : State) (c : Cmd) (st : Status) : (s.spoiled c st).steps = s.steps := by unfold State.spoiled; split <;> rfl
@[simp] theorem State.spoiled_tiers (s : State) (c : Cmd) (st : Status) : (s.spoiled c st).tiers = s.tiers := by unfold State.spoiled; split <;> rfl
@[simp] theorem State.spoiled_items (s : State) (c : Cmd) (st : Status) : (s.spoiled c st).items = s.items := by unfold State.spoiled; split <;> rfl
@[simp] theorem State.spoiled_serv (s : State) (c : Cmd) (st : Status) : (s.spoiled c st).serv = s.serv := by unfold State.spoiled; split <;> rfl
@[simp] theorem State.spoiled_span (s : State) (c : Cmd) (st : Status) : (s.spoiled c st).span = s.span := by unfold State.spoiled; split <;> rfl
@[simp] theorem State.spoiled_regul (s : State) (c : Cmd) (st : Status) : (s.spoiled c st).regul = s.regul := by unfold State.spoiled; split <;> rfl
@[simp] theorem State.spoiled_integ (s : State) (c : Cmd) (st : Status) : (s.spoiled c st).integ = s.integ := by unfold State.spoiled; split <;> rfl
@[simp] theorem State.spoiled_events (s : State) (c : Cmd) (st : Status) : (s.spoiled c st).events = s.events := by unfold State.spoiled; split <;> rfl
@[simp] theorem State.spoiled_health (s : State) (c : Cmd) (st : Status) : (s.spoiled c st).health = s.health := by unfold State.spoiled; split <;> rfl
@[simp] theorem State.spoiled_power (s : State) (c : Cmd) (st : Status) : (s.spoiled c st).power = s.power := by unfold State.spoiled; split <;> rfl
@[simp] theorem State.spoiled_sec (s : State) (c : Cmd) (st : Status) : (s.spoiled c st).sec = s.sec := by unfold State.spoiled; split <;> rfl
@[simp] theorem State.spoiled_smbus (s : State) (c : Cmd) (st : Status) : (s.spoiled c st).smbus = s.smbus := by unfold State.spoiled; split <;> rfl
@[simp] theorem State.spoiled_success (s : State) (c : Cmd) : s.spoiled c .success = s := by simp [State.spoiled]

@[simp] theorem State.completeWith_pending (s : State) (id : Nat) (st : Status) (flags : Nat) (result : List Byte) : (s.completeWith id st flags result).pending = s.pending := by unfold State.completeWith; split <;> [rfl; (split <;> simp)]
@[simp] theorem State.completeWith_now (s : State) (id : Nat) (st : Status) (flags : Nat) (result : List Byte) : (s.completeWith id st flags result).now = s.now := by unfold State.completeWith; split <;> [rfl; (split <;> simp)]
theorem State.completeWith_freeCtr (s : State) (id : Nat) (flags : Nat) (result : List Byte) : (s.completeWith id .success flags result).freeCtr = s.freeCtr := by unfold State.completeWith; split <;> simp
@[simp] theorem State.completeWith_dies (s : State) (id : Nat) (st : Status) (flags : Nat) (result : List Byte) : (s.completeWith id st flags result).dies = s.dies := by unfold State.completeWith; split <;> [rfl; (split <;> simp)]
@[simp] theorem State.completeWith_compute (s : State) (id : Nat) (st : Status) (flags : Nat) (result : List Byte) : (s.completeWith id st flags result).compute = s.compute := by unfold State.completeWith; split <;> [rfl; (split <;> simp)]
@[simp] theorem State.completeWith_steps (s : State) (id : Nat) (st : Status) (flags : Nat) (result : List Byte) : (s.completeWith id st flags result).steps = s.steps := by unfold State.completeWith; split <;> [rfl; (split <;> simp)]
@[simp] theorem State.completeWith_tiers (s : State) (id : Nat) (st : Status) (flags : Nat) (result : List Byte) : (s.completeWith id st flags result).tiers = s.tiers := by unfold State.completeWith; split <;> [rfl; (split <;> simp)]
@[simp] theorem State.completeWith_items (s : State) (id : Nat) (st : Status) (flags : Nat) (result : List Byte) : (s.completeWith id st flags result).items = s.items := by unfold State.completeWith; split <;> [rfl; (split <;> simp)]
@[simp] theorem State.completeWith_serv (s : State) (id : Nat) (st : Status) (flags : Nat) (result : List Byte) : (s.completeWith id st flags result).serv = s.serv := by unfold State.completeWith; split <;> [rfl; (split <;> simp)]
@[simp] theorem State.completeWith_span (s : State) (id : Nat) (st : Status) (flags : Nat) (result : List Byte) : (s.completeWith id st flags result).span = s.span := by unfold State.completeWith; split <;> [rfl; (split <;> simp)]
@[simp] theorem State.completeWith_regul (s : State) (id : Nat) (st : Status) (flags : Nat) (result : List Byte) : (s.completeWith id st flags result).regul = s.regul := by unfold State.completeWith; split <;> [rfl; (split <;> simp)]
@[simp] theorem State.completeWith_integ (s : State) (id : Nat) (st : Status) (flags : Nat) (result : List Byte) : (s.completeWith id st flags result).integ = s.integ := by unfold State.completeWith; split <;> [rfl; (split <;> simp)]
@[simp] theorem State.completeWith_events (s : State) (id : Nat) (st : Status) (flags : Nat) (result : List Byte) : (s.completeWith id st flags result).events = s.events := by unfold State.completeWith; split <;> [rfl; (split <;> simp)]
@[simp] theorem State.completeWith_power (s : State) (id : Nat) (st : Status) (flags : Nat) (result : List Byte) : (s.completeWith id st flags result).power = s.power := by unfold State.completeWith; split <;> [rfl; (split <;> simp)]
@[simp] theorem State.completeWith_sec (s : State) (id : Nat) (st : Status) (flags : Nat) (result : List Byte) : (s.completeWith id st flags result).sec = s.sec := by unfold State.completeWith; split <;> [rfl; (split <;> simp)]
@[simp] theorem State.completeWith_smbus (s : State) (id : Nat) (st : Status) (flags : Nat) (result : List Byte) : (s.completeWith id st flags result).smbus = s.smbus := by unfold State.completeWith; split <;> [rfl; (split <;> simp)]

@[simp] theorem State.succeed_pending (s : State) (id : Nat) (result : List Byte) : (s.succeed id result).pending = s.pending := by simp [State.succeed]
@[simp] theorem State.succeed_now (s : State) (id : Nat) (result : List Byte) : (s.succeed id result).now = s.now := by simp [State.succeed]
@[simp] theorem State.succeed_freeCtr (s : State) (id : Nat) (result : List Byte) : (s.succeed id result).freeCtr = s.freeCtr := by simp [State.succeed, State.completeWith_freeCtr]
@[simp] theorem State.succeed_dies (s : State) (id : Nat) (result : List Byte) : (s.succeed id result).dies = s.dies := by simp [State.succeed]
@[simp] theorem State.succeed_compute (s : State) (id : Nat) (result : List Byte) : (s.succeed id result).compute = s.compute := by simp [State.succeed]
@[simp] theorem State.succeed_steps (s : State) (id : Nat) (result : List Byte) : (s.succeed id result).steps = s.steps := by simp [State.succeed]
@[simp] theorem State.succeed_tiers (s : State) (id : Nat) (result : List Byte) : (s.succeed id result).tiers = s.tiers := by simp [State.succeed]
@[simp] theorem State.succeed_items (s : State) (id : Nat) (result : List Byte) : (s.succeed id result).items = s.items := by simp [State.succeed]
@[simp] theorem State.succeed_serv (s : State) (id : Nat) (result : List Byte) : (s.succeed id result).serv = s.serv := by simp [State.succeed]
@[simp] theorem State.succeed_span (s : State) (id : Nat) (result : List Byte) : (s.succeed id result).span = s.span := by simp [State.succeed]
@[simp] theorem State.succeed_regul (s : State) (id : Nat) (result : List Byte) : (s.succeed id result).regul = s.regul := by simp [State.succeed]
@[simp] theorem State.succeed_integ (s : State) (id : Nat) (result : List Byte) : (s.succeed id result).integ = s.integ := by simp [State.succeed]
@[simp] theorem State.succeed_events (s : State) (id : Nat) (result : List Byte) : (s.succeed id result).events = s.events := by simp [State.succeed]
@[simp] theorem State.succeed_power (s : State) (id : Nat) (result : List Byte) : (s.succeed id result).power = s.power := by simp [State.succeed]
@[simp] theorem State.succeed_sec (s : State) (id : Nat) (result : List Byte) : (s.succeed id result).sec = s.sec := by simp [State.succeed]
@[simp] theorem State.succeed_smbus (s : State) (id : Nat) (result : List Byte) : (s.succeed id result).smbus = s.smbus := by simp [State.succeed]

@[simp] theorem State.fail_pending (s : State) (id : Nat) (st : Status) : (s.fail id st).pending = s.pending := by simp [State.fail]
@[simp] theorem State.fail_now (s : State) (id : Nat) (st : Status) : (s.fail id st).now = s.now := by simp [State.fail]
@[simp] theorem State.fail_dies (s : State) (id : Nat) (st : Status) : (s.fail id st).dies = s.dies := by simp [State.fail]
@[simp] theorem State.fail_compute (s : State) (id : Nat) (st : Status) : (s.fail id st).compute = s.compute := by simp [State.fail]
@[simp] theorem State.fail_steps (s : State) (id : Nat) (st : Status) : (s.fail id st).steps = s.steps := by simp [State.fail]
@[simp] theorem State.fail_tiers (s : State) (id : Nat) (st : Status) : (s.fail id st).tiers = s.tiers := by simp [State.fail]
@[simp] theorem State.fail_items (s : State) (id : Nat) (st : Status) : (s.fail id st).items = s.items := by simp [State.fail]
@[simp] theorem State.fail_serv (s : State) (id : Nat) (st : Status) : (s.fail id st).serv = s.serv := by simp [State.fail]
@[simp] theorem State.fail_span (s : State) (id : Nat) (st : Status) : (s.fail id st).span = s.span := by simp [State.fail]
@[simp] theorem State.fail_regul (s : State) (id : Nat) (st : Status) : (s.fail id st).regul = s.regul := by simp [State.fail]
@[simp] theorem State.fail_integ (s : State) (id : Nat) (st : Status) : (s.fail id st).integ = s.integ := by simp [State.fail]
@[simp] theorem State.fail_events (s : State) (id : Nat) (st : Status) : (s.fail id st).events = s.events := by simp [State.fail]
@[simp] theorem State.fail_power (s : State) (id : Nat) (st : Status) : (s.fail id st).power = s.power := by simp [State.fail]
@[simp] theorem State.fail_sec (s : State) (id : Nat) (st : Status) : (s.fail id st).sec = s.sec := by simp [State.fail]
@[simp] theorem State.fail_smbus (s : State) (id : Nat) (st : Status) : (s.fail id st).smbus = s.smbus := by simp [State.fail]

@[simp] theorem State.stage_pending (s : State) (id n : Nat) (aux : List Nat) : (s.stage id n aux).pending = s.pending := rfl
@[simp] theorem State.stage_now (s : State) (id n : Nat) (aux : List Nat) : (s.stage id n aux).now = s.now := rfl
@[simp] theorem State.stage_freeCtr (s : State) (id n : Nat) (aux : List Nat) : (s.stage id n aux).freeCtr = s.freeCtr := rfl
@[simp] theorem State.stage_dies (s : State) (id n : Nat) (aux : List Nat) : (s.stage id n aux).dies = s.dies := rfl
@[simp] theorem State.stage_media (s : State) (id n : Nat) (aux : List Nat) : (s.stage id n aux).media = s.media := rfl
@[simp] theorem State.stage_compute (s : State) (id n : Nat) (aux : List Nat) : (s.stage id n aux).compute = s.compute := rfl
@[simp] theorem State.stage_steps (s : State) (id n : Nat) (aux : List Nat) : (s.stage id n aux).steps = s.steps := rfl
@[simp] theorem State.stage_tiers (s : State) (id n : Nat) (aux : List Nat) : (s.stage id n aux).tiers = s.tiers := rfl
@[simp] theorem State.stage_items (s : State) (id n : Nat) (aux : List Nat) : (s.stage id n aux).items = s.items := rfl
@[simp] theorem State.stage_serv (s : State) (id n : Nat) (aux : List Nat) : (s.stage id n aux).serv = s.serv := rfl
@[simp] theorem State.stage_span (s : State) (id n : Nat) (aux : List Nat) : (s.stage id n aux).span = s.span := rfl
@[simp] theorem State.stage_regul (s : State) (id n : Nat) (aux : List Nat) : (s.stage id n aux).regul = s.regul := rfl
@[simp] theorem State.stage_integ (s : State) (id n : Nat) (aux : List Nat) : (s.stage id n aux).integ = s.integ := rfl
@[simp] theorem State.stage_events (s : State) (id n : Nat) (aux : List Nat) : (s.stage id n aux).events = s.events := rfl
@[simp] theorem State.stage_health (s : State) (id n : Nat) (aux : List Nat) : (s.stage id n aux).health = s.health := rfl
@[simp] theorem State.stage_power (s : State) (id n : Nat) (aux : List Nat) : (s.stage id n aux).power = s.power := rfl
@[simp] theorem State.stage_sec (s : State) (id n : Nat) (aux : List Nat) : (s.stage id n aux).sec = s.sec := rfl
@[simp] theorem State.stage_smbus (s : State) (id n : Nat) (aux : List Nat) : (s.stage id n aux).smbus = s.smbus := rfl

@[simp] theorem State.modMedia_pending (s : State) (f : Media → Media) : (s.modMedia f).pending = s.pending := rfl
@[simp] theorem State.modMedia_now (s : State) (f : Media → Media) : (s.modMedia f).now = s.now := rfl
@[simp] theorem State.modMedia_freeCtr (s : State) (f : Media → Media) : (s.modMedia f).freeCtr = s.freeCtr := rfl
@[simp] theorem State.modMedia_dies (s : State) (f : Media → Media) : (s.modMedia f).dies = s.dies := rfl
@[simp] theorem State.modMedia_compute (s : State) (f : Media → Media) : (s.modMedia f).compute = s.compute := rfl
@[simp] theorem State.modMedia_steps (s : State) (f : Media → Media) : (s.modMedia f).steps = s.steps := rfl
@[simp] theorem State.modMedia_tiers (s : State) (f : Media → Media) : (s.modMedia f).tiers = s.tiers := rfl
@[simp] theorem State.modMedia_items (s : State) (f : Media → Media) : (s.modMedia f).items = s.items := rfl
@[simp] theorem State.modMedia_serv (s : State) (f : Media → Media) : (s.modMedia f).serv = s.serv := rfl
@[simp] theorem State.modMedia_span (s : State) (f : Media → Media) : (s.modMedia f).span = s.span := rfl
@[simp] theorem State.modMedia_host (s : State) (f : Media → Media) : (s.modMedia f).host = s.host := rfl
@[simp] theorem State.modMedia_regul (s : State) (f : Media → Media) : (s.modMedia f).regul = s.regul := rfl
@[simp] theorem State.modMedia_integ (s : State) (f : Media → Media) : (s.modMedia f).integ = s.integ := rfl
@[simp] theorem State.modMedia_events (s : State) (f : Media → Media) : (s.modMedia f).events = s.events := rfl
@[simp] theorem State.modMedia_health (s : State) (f : Media → Media) : (s.modMedia f).health = s.health := rfl
@[simp] theorem State.modMedia_power (s : State) (f : Media → Media) : (s.modMedia f).power = s.power := rfl
@[simp] theorem State.modMedia_sec (s : State) (f : Media → Media) : (s.modMedia f).sec = s.sec := rfl
@[simp] theorem State.modMedia_smbus (s : State) (f : Media → Media) : (s.modMedia f).smbus = s.smbus := rfl

@[simp] theorem State.setDie_pending (s : State) (d : DieNo) (x : Die) : (s.setDie d x).pending = s.pending := rfl
@[simp] theorem State.setDie_now (s : State) (d : DieNo) (x : Die) : (s.setDie d x).now = s.now := rfl
@[simp] theorem State.setDie_freeCtr (s : State) (d : DieNo) (x : Die) : (s.setDie d x).freeCtr = s.freeCtr := rfl
@[simp] theorem State.setDie_media (s : State) (d : DieNo) (x : Die) : (s.setDie d x).media = s.media := rfl
@[simp] theorem State.setDie_compute (s : State) (d : DieNo) (x : Die) : (s.setDie d x).compute = s.compute := rfl
@[simp] theorem State.setDie_steps (s : State) (d : DieNo) (x : Die) : (s.setDie d x).steps = s.steps := rfl
@[simp] theorem State.setDie_tiers (s : State) (d : DieNo) (x : Die) : (s.setDie d x).tiers = s.tiers := rfl
@[simp] theorem State.setDie_items (s : State) (d : DieNo) (x : Die) : (s.setDie d x).items = s.items := rfl
@[simp] theorem State.setDie_serv (s : State) (d : DieNo) (x : Die) : (s.setDie d x).serv = s.serv := rfl
@[simp] theorem State.setDie_span (s : State) (d : DieNo) (x : Die) : (s.setDie d x).span = s.span := rfl
@[simp] theorem State.setDie_host (s : State) (d : DieNo) (x : Die) : (s.setDie d x).host = s.host := rfl
@[simp] theorem State.setDie_regul (s : State) (d : DieNo) (x : Die) : (s.setDie d x).regul = s.regul := rfl
@[simp] theorem State.setDie_integ (s : State) (d : DieNo) (x : Die) : (s.setDie d x).integ = s.integ := rfl
@[simp] theorem State.setDie_events (s : State) (d : DieNo) (x : Die) : (s.setDie d x).events = s.events := rfl
@[simp] theorem State.setDie_health (s : State) (d : DieNo) (x : Die) : (s.setDie d x).health = s.health := rfl
@[simp] theorem State.setDie_power (s : State) (d : DieNo) (x : Die) : (s.setDie d x).power = s.power := rfl
@[simp] theorem State.setDie_sec (s : State) (d : DieNo) (x : Die) : (s.setDie d x).sec = s.sec := rfl
@[simp] theorem State.setDie_smbus (s : State) (d : DieNo) (x : Die) : (s.setDie d x).smbus = s.smbus := rfl

@[simp] theorem State.modCompute_pending (s : State) (f : Compute → Compute) : (s.modCompute f).pending = s.pending := rfl
@[simp] theorem State.modCompute_now (s : State) (f : Compute → Compute) : (s.modCompute f).now = s.now := rfl
@[simp] theorem State.modCompute_freeCtr (s : State) (f : Compute → Compute) : (s.modCompute f).freeCtr = s.freeCtr := rfl
@[simp] theorem State.modCompute_dies (s : State) (f : Compute → Compute) : (s.modCompute f).dies = s.dies := rfl
@[simp] theorem State.modCompute_media (s : State) (f : Compute → Compute) : (s.modCompute f).media = s.media := rfl
@[simp] theorem State.modCompute_steps (s : State) (f : Compute → Compute) : (s.modCompute f).steps = s.steps := rfl
@[simp] theorem State.modCompute_tiers (s : State) (f : Compute → Compute) : (s.modCompute f).tiers = s.tiers := rfl
@[simp] theorem State.modCompute_items (s : State) (f : Compute → Compute) : (s.modCompute f).items = s.items := rfl
@[simp] theorem State.modCompute_serv (s : State) (f : Compute → Compute) : (s.modCompute f).serv = s.serv := rfl
@[simp] theorem State.modCompute_span (s : State) (f : Compute → Compute) : (s.modCompute f).span = s.span := rfl
@[simp] theorem State.modCompute_host (s : State) (f : Compute → Compute) : (s.modCompute f).host = s.host := rfl
@[simp] theorem State.modCompute_regul (s : State) (f : Compute → Compute) : (s.modCompute f).regul = s.regul := rfl
@[simp] theorem State.modCompute_integ (s : State) (f : Compute → Compute) : (s.modCompute f).integ = s.integ := rfl
@[simp] theorem State.modCompute_events (s : State) (f : Compute → Compute) : (s.modCompute f).events = s.events := rfl
@[simp] theorem State.modCompute_health (s : State) (f : Compute → Compute) : (s.modCompute f).health = s.health := rfl
@[simp] theorem State.modCompute_power (s : State) (f : Compute → Compute) : (s.modCompute f).power = s.power := rfl
@[simp] theorem State.modCompute_sec (s : State) (f : Compute → Compute) : (s.modCompute f).sec = s.sec := rfl
@[simp] theorem State.modCompute_smbus (s : State) (f : Compute → Compute) : (s.modCompute f).smbus = s.smbus := rfl

@[simp] theorem State.setCore_pending (s : State) (c : CoreNo) (x : Core) : (s.setCore c x).pending = s.pending := rfl
@[simp] theorem State.setCore_now (s : State) (c : CoreNo) (x : Core) : (s.setCore c x).now = s.now := rfl
@[simp] theorem State.setCore_freeCtr (s : State) (c : CoreNo) (x : Core) : (s.setCore c x).freeCtr = s.freeCtr := rfl
@[simp] theorem State.setCore_dies (s : State) (c : CoreNo) (x : Core) : (s.setCore c x).dies = s.dies := rfl
@[simp] theorem State.setCore_media (s : State) (c : CoreNo) (x : Core) : (s.setCore c x).media = s.media := rfl
@[simp] theorem State.setCore_steps (s : State) (c : CoreNo) (x : Core) : (s.setCore c x).steps = s.steps := rfl
@[simp] theorem State.setCore_tiers (s : State) (c : CoreNo) (x : Core) : (s.setCore c x).tiers = s.tiers := rfl
@[simp] theorem State.setCore_items (s : State) (c : CoreNo) (x : Core) : (s.setCore c x).items = s.items := rfl
@[simp] theorem State.setCore_serv (s : State) (c : CoreNo) (x : Core) : (s.setCore c x).serv = s.serv := rfl
@[simp] theorem State.setCore_span (s : State) (c : CoreNo) (x : Core) : (s.setCore c x).span = s.span := rfl
@[simp] theorem State.setCore_host (s : State) (c : CoreNo) (x : Core) : (s.setCore c x).host = s.host := rfl
@[simp] theorem State.setCore_regul (s : State) (c : CoreNo) (x : Core) : (s.setCore c x).regul = s.regul := rfl
@[simp] theorem State.setCore_integ (s : State) (c : CoreNo) (x : Core) : (s.setCore c x).integ = s.integ := rfl
@[simp] theorem State.setCore_events (s : State) (c : CoreNo) (x : Core) : (s.setCore c x).events = s.events := rfl
@[simp] theorem State.setCore_health (s : State) (c : CoreNo) (x : Core) : (s.setCore c x).health = s.health := rfl
@[simp] theorem State.setCore_power (s : State) (c : CoreNo) (x : Core) : (s.setCore c x).power = s.power := rfl
@[simp] theorem State.setCore_sec (s : State) (c : CoreNo) (x : Core) : (s.setCore c x).sec = s.sec := rfl
@[simp] theorem State.setCore_smbus (s : State) (c : CoreNo) (x : Core) : (s.setCore c x).smbus = s.smbus := rfl

@[simp] theorem State.modCore_pending (s : State) (c : CoreNo) (f : Core → Core) : (s.modCore c f).pending = s.pending := rfl
@[simp] theorem State.modCore_now (s : State) (c : CoreNo) (f : Core → Core) : (s.modCore c f).now = s.now := rfl
@[simp] theorem State.modCore_freeCtr (s : State) (c : CoreNo) (f : Core → Core) : (s.modCore c f).freeCtr = s.freeCtr := rfl
@[simp] theorem State.modCore_dies (s : State) (c : CoreNo) (f : Core → Core) : (s.modCore c f).dies = s.dies := rfl
@[simp] theorem State.modCore_media (s : State) (c : CoreNo) (f : Core → Core) : (s.modCore c f).media = s.media := rfl
@[simp] theorem State.modCore_steps (s : State) (c : CoreNo) (f : Core → Core) : (s.modCore c f).steps = s.steps := rfl
@[simp] theorem State.modCore_tiers (s : State) (c : CoreNo) (f : Core → Core) : (s.modCore c f).tiers = s.tiers := rfl
@[simp] theorem State.modCore_items (s : State) (c : CoreNo) (f : Core → Core) : (s.modCore c f).items = s.items := rfl
@[simp] theorem State.modCore_serv (s : State) (c : CoreNo) (f : Core → Core) : (s.modCore c f).serv = s.serv := rfl
@[simp] theorem State.modCore_span (s : State) (c : CoreNo) (f : Core → Core) : (s.modCore c f).span = s.span := rfl
@[simp] theorem State.modCore_host (s : State) (c : CoreNo) (f : Core → Core) : (s.modCore c f).host = s.host := rfl
@[simp] theorem State.modCore_regul (s : State) (c : CoreNo) (f : Core → Core) : (s.modCore c f).regul = s.regul := rfl
@[simp] theorem State.modCore_integ (s : State) (c : CoreNo) (f : Core → Core) : (s.modCore c f).integ = s.integ := rfl
@[simp] theorem State.modCore_events (s : State) (c : CoreNo) (f : Core → Core) : (s.modCore c f).events = s.events := rfl
@[simp] theorem State.modCore_health (s : State) (c : CoreNo) (f : Core → Core) : (s.modCore c f).health = s.health := rfl
@[simp] theorem State.modCore_power (s : State) (c : CoreNo) (f : Core → Core) : (s.modCore c f).power = s.power := rfl
@[simp] theorem State.modCore_sec (s : State) (c : CoreNo) (f : Core → Core) : (s.modCore c f).sec = s.sec := rfl
@[simp] theorem State.modCore_smbus (s : State) (c : CoreNo) (f : Core → Core) : (s.modCore c f).smbus = s.smbus := rfl

@[simp] theorem State.modCtx_pending (s : State) (k : Nat) (f : Ctx → Ctx) : (s.modCtx k f).pending = s.pending := rfl
@[simp] theorem State.modCtx_now (s : State) (k : Nat) (f : Ctx → Ctx) : (s.modCtx k f).now = s.now := rfl
@[simp] theorem State.modCtx_freeCtr (s : State) (k : Nat) (f : Ctx → Ctx) : (s.modCtx k f).freeCtr = s.freeCtr := rfl
@[simp] theorem State.modCtx_dies (s : State) (k : Nat) (f : Ctx → Ctx) : (s.modCtx k f).dies = s.dies := rfl
@[simp] theorem State.modCtx_media (s : State) (k : Nat) (f : Ctx → Ctx) : (s.modCtx k f).media = s.media := rfl
@[simp] theorem State.modCtx_steps (s : State) (k : Nat) (f : Ctx → Ctx) : (s.modCtx k f).steps = s.steps := rfl
@[simp] theorem State.modCtx_tiers (s : State) (k : Nat) (f : Ctx → Ctx) : (s.modCtx k f).tiers = s.tiers := rfl
@[simp] theorem State.modCtx_items (s : State) (k : Nat) (f : Ctx → Ctx) : (s.modCtx k f).items = s.items := rfl
@[simp] theorem State.modCtx_serv (s : State) (k : Nat) (f : Ctx → Ctx) : (s.modCtx k f).serv = s.serv := rfl
@[simp] theorem State.modCtx_span (s : State) (k : Nat) (f : Ctx → Ctx) : (s.modCtx k f).span = s.span := rfl
@[simp] theorem State.modCtx_host (s : State) (k : Nat) (f : Ctx → Ctx) : (s.modCtx k f).host = s.host := rfl
@[simp] theorem State.modCtx_regul (s : State) (k : Nat) (f : Ctx → Ctx) : (s.modCtx k f).regul = s.regul := rfl
@[simp] theorem State.modCtx_integ (s : State) (k : Nat) (f : Ctx → Ctx) : (s.modCtx k f).integ = s.integ := rfl
@[simp] theorem State.modCtx_events (s : State) (k : Nat) (f : Ctx → Ctx) : (s.modCtx k f).events = s.events := rfl
@[simp] theorem State.modCtx_health (s : State) (k : Nat) (f : Ctx → Ctx) : (s.modCtx k f).health = s.health := rfl
@[simp] theorem State.modCtx_power (s : State) (k : Nat) (f : Ctx → Ctx) : (s.modCtx k f).power = s.power := rfl
@[simp] theorem State.modCtx_sec (s : State) (k : Nat) (f : Ctx → Ctx) : (s.modCtx k f).sec = s.sec := rfl
@[simp] theorem State.modCtx_smbus (s : State) (k : Nat) (f : Ctx → Ctx) : (s.modCtx k f).smbus = s.smbus := rfl

@[simp] theorem State.modThread_pending (s : State) (t : Nat) (f : Thread → Thread) : (s.modThread t f).pending = s.pending := rfl
@[simp] theorem State.modThread_now (s : State) (t : Nat) (f : Thread → Thread) : (s.modThread t f).now = s.now := rfl
@[simp] theorem State.modThread_freeCtr (s : State) (t : Nat) (f : Thread → Thread) : (s.modThread t f).freeCtr = s.freeCtr := rfl
@[simp] theorem State.modThread_dies (s : State) (t : Nat) (f : Thread → Thread) : (s.modThread t f).dies = s.dies := rfl
@[simp] theorem State.modThread_media (s : State) (t : Nat) (f : Thread → Thread) : (s.modThread t f).media = s.media := rfl
@[simp] theorem State.modThread_steps (s : State) (t : Nat) (f : Thread → Thread) : (s.modThread t f).steps = s.steps := rfl
@[simp] theorem State.modThread_tiers (s : State) (t : Nat) (f : Thread → Thread) : (s.modThread t f).tiers = s.tiers := rfl
@[simp] theorem State.modThread_items (s : State) (t : Nat) (f : Thread → Thread) : (s.modThread t f).items = s.items := rfl
@[simp] theorem State.modThread_serv (s : State) (t : Nat) (f : Thread → Thread) : (s.modThread t f).serv = s.serv := rfl
@[simp] theorem State.modThread_span (s : State) (t : Nat) (f : Thread → Thread) : (s.modThread t f).span = s.span := rfl
@[simp] theorem State.modThread_host (s : State) (t : Nat) (f : Thread → Thread) : (s.modThread t f).host = s.host := rfl
@[simp] theorem State.modThread_regul (s : State) (t : Nat) (f : Thread → Thread) : (s.modThread t f).regul = s.regul := rfl
@[simp] theorem State.modThread_integ (s : State) (t : Nat) (f : Thread → Thread) : (s.modThread t f).integ = s.integ := rfl
@[simp] theorem State.modThread_events (s : State) (t : Nat) (f : Thread → Thread) : (s.modThread t f).events = s.events := rfl
@[simp] theorem State.modThread_health (s : State) (t : Nat) (f : Thread → Thread) : (s.modThread t f).health = s.health := rfl
@[simp] theorem State.modThread_power (s : State) (t : Nat) (f : Thread → Thread) : (s.modThread t f).power = s.power := rfl
@[simp] theorem State.modThread_sec (s : State) (t : Nat) (f : Thread → Thread) : (s.modThread t f).sec = s.sec := rfl
@[simp] theorem State.modThread_smbus (s : State) (t : Nat) (f : Thread → Thread) : (s.modThread t f).smbus = s.smbus := rfl

@[simp] theorem State.modJob_pending (s : State) (j : Nat) (f : Job → Job) : (s.modJob j f).pending = s.pending := rfl
@[simp] theorem State.modJob_now (s : State) (j : Nat) (f : Job → Job) : (s.modJob j f).now = s.now := rfl
@[simp] theorem State.modJob_freeCtr (s : State) (j : Nat) (f : Job → Job) : (s.modJob j f).freeCtr = s.freeCtr := rfl
@[simp] theorem State.modJob_dies (s : State) (j : Nat) (f : Job → Job) : (s.modJob j f).dies = s.dies := rfl
@[simp] theorem State.modJob_media (s : State) (j : Nat) (f : Job → Job) : (s.modJob j f).media = s.media := rfl
@[simp] theorem State.modJob_steps (s : State) (j : Nat) (f : Job → Job) : (s.modJob j f).steps = s.steps := rfl
@[simp] theorem State.modJob_tiers (s : State) (j : Nat) (f : Job → Job) : (s.modJob j f).tiers = s.tiers := rfl
@[simp] theorem State.modJob_items (s : State) (j : Nat) (f : Job → Job) : (s.modJob j f).items = s.items := rfl
@[simp] theorem State.modJob_serv (s : State) (j : Nat) (f : Job → Job) : (s.modJob j f).serv = s.serv := rfl
@[simp] theorem State.modJob_span (s : State) (j : Nat) (f : Job → Job) : (s.modJob j f).span = s.span := rfl
@[simp] theorem State.modJob_host (s : State) (j : Nat) (f : Job → Job) : (s.modJob j f).host = s.host := rfl
@[simp] theorem State.modJob_regul (s : State) (j : Nat) (f : Job → Job) : (s.modJob j f).regul = s.regul := rfl
@[simp] theorem State.modJob_integ (s : State) (j : Nat) (f : Job → Job) : (s.modJob j f).integ = s.integ := rfl
@[simp] theorem State.modJob_events (s : State) (j : Nat) (f : Job → Job) : (s.modJob j f).events = s.events := rfl
@[simp] theorem State.modJob_health (s : State) (j : Nat) (f : Job → Job) : (s.modJob j f).health = s.health := rfl
@[simp] theorem State.modJob_power (s : State) (j : Nat) (f : Job → Job) : (s.modJob j f).power = s.power := rfl
@[simp] theorem State.modJob_sec (s : State) (j : Nat) (f : Job → Job) : (s.modJob j f).sec = s.sec := rfl
@[simp] theorem State.modJob_smbus (s : State) (j : Nat) (f : Job → Job) : (s.modJob j f).smbus = s.smbus := rfl

@[simp] theorem State.modGang_pending (s : State) (j g : Nat) (f : Gang → Gang) : (s.modGang j g f).pending = s.pending := rfl
@[simp] theorem State.modGang_now (s : State) (j g : Nat) (f : Gang → Gang) : (s.modGang j g f).now = s.now := rfl
@[simp] theorem State.modGang_freeCtr (s : State) (j g : Nat) (f : Gang → Gang) : (s.modGang j g f).freeCtr = s.freeCtr := rfl
@[simp] theorem State.modGang_dies (s : State) (j g : Nat) (f : Gang → Gang) : (s.modGang j g f).dies = s.dies := rfl
@[simp] theorem State.modGang_media (s : State) (j g : Nat) (f : Gang → Gang) : (s.modGang j g f).media = s.media := rfl
@[simp] theorem State.modGang_steps (s : State) (j g : Nat) (f : Gang → Gang) : (s.modGang j g f).steps = s.steps := rfl
@[simp] theorem State.modGang_tiers (s : State) (j g : Nat) (f : Gang → Gang) : (s.modGang j g f).tiers = s.tiers := rfl
@[simp] theorem State.modGang_items (s : State) (j g : Nat) (f : Gang → Gang) : (s.modGang j g f).items = s.items := rfl
@[simp] theorem State.modGang_serv (s : State) (j g : Nat) (f : Gang → Gang) : (s.modGang j g f).serv = s.serv := rfl
@[simp] theorem State.modGang_span (s : State) (j g : Nat) (f : Gang → Gang) : (s.modGang j g f).span = s.span := rfl
@[simp] theorem State.modGang_host (s : State) (j g : Nat) (f : Gang → Gang) : (s.modGang j g f).host = s.host := rfl
@[simp] theorem State.modGang_regul (s : State) (j g : Nat) (f : Gang → Gang) : (s.modGang j g f).regul = s.regul := rfl
@[simp] theorem State.modGang_integ (s : State) (j g : Nat) (f : Gang → Gang) : (s.modGang j g f).integ = s.integ := rfl
@[simp] theorem State.modGang_events (s : State) (j g : Nat) (f : Gang → Gang) : (s.modGang j g f).events = s.events := rfl
@[simp] theorem State.modGang_health (s : State) (j g : Nat) (f : Gang → Gang) : (s.modGang j g f).health = s.health := rfl
@[simp] theorem State.modGang_power (s : State) (j g : Nat) (f : Gang → Gang) : (s.modGang j g f).power = s.power := rfl
@[simp] theorem State.modGang_sec (s : State) (j g : Nat) (f : Gang → Gang) : (s.modGang j g f).sec = s.sec := rfl
@[simp] theorem State.modGang_smbus (s : State) (j g : Nat) (f : Gang → Gang) : (s.modGang j g f).smbus = s.smbus := rfl

@[simp] theorem State.modTiles_pending (s : State) (c : CoreNo) (e : EngNo) (f : List TileEntry → List TileEntry) : (s.modTiles c e f).pending = s.pending := rfl
@[simp] theorem State.modTiles_now (s : State) (c : CoreNo) (e : EngNo) (f : List TileEntry → List TileEntry) : (s.modTiles c e f).now = s.now := rfl
@[simp] theorem State.modTiles_freeCtr (s : State) (c : CoreNo) (e : EngNo) (f : List TileEntry → List TileEntry) : (s.modTiles c e f).freeCtr = s.freeCtr := rfl
@[simp] theorem State.modTiles_dies (s : State) (c : CoreNo) (e : EngNo) (f : List TileEntry → List TileEntry) : (s.modTiles c e f).dies = s.dies := rfl
@[simp] theorem State.modTiles_media (s : State) (c : CoreNo) (e : EngNo) (f : List TileEntry → List TileEntry) : (s.modTiles c e f).media = s.media := rfl
@[simp] theorem State.modTiles_steps (s : State) (c : CoreNo) (e : EngNo) (f : List TileEntry → List TileEntry) : (s.modTiles c e f).steps = s.steps := rfl
@[simp] theorem State.modTiles_tiers (s : State) (c : CoreNo) (e : EngNo) (f : List TileEntry → List TileEntry) : (s.modTiles c e f).tiers = s.tiers := rfl
@[simp] theorem State.modTiles_items (s : State) (c : CoreNo) (e : EngNo) (f : List TileEntry → List TileEntry) : (s.modTiles c e f).items = s.items := rfl
@[simp] theorem State.modTiles_serv (s : State) (c : CoreNo) (e : EngNo) (f : List TileEntry → List TileEntry) : (s.modTiles c e f).serv = s.serv := rfl
@[simp] theorem State.modTiles_span (s : State) (c : CoreNo) (e : EngNo) (f : List TileEntry → List TileEntry) : (s.modTiles c e f).span = s.span := rfl
@[simp] theorem State.modTiles_host (s : State) (c : CoreNo) (e : EngNo) (f : List TileEntry → List TileEntry) : (s.modTiles c e f).host = s.host := rfl
@[simp] theorem State.modTiles_regul (s : State) (c : CoreNo) (e : EngNo) (f : List TileEntry → List TileEntry) : (s.modTiles c e f).regul = s.regul := rfl
@[simp] theorem State.modTiles_integ (s : State) (c : CoreNo) (e : EngNo) (f : List TileEntry → List TileEntry) : (s.modTiles c e f).integ = s.integ := rfl
@[simp] theorem State.modTiles_events (s : State) (c : CoreNo) (e : EngNo) (f : List TileEntry → List TileEntry) : (s.modTiles c e f).events = s.events := rfl
@[simp] theorem State.modTiles_health (s : State) (c : CoreNo) (e : EngNo) (f : List TileEntry → List TileEntry) : (s.modTiles c e f).health = s.health := rfl
@[simp] theorem State.modTiles_power (s : State) (c : CoreNo) (e : EngNo) (f : List TileEntry → List TileEntry) : (s.modTiles c e f).power = s.power := rfl
@[simp] theorem State.modTiles_sec (s : State) (c : CoreNo) (e : EngNo) (f : List TileEntry → List TileEntry) : (s.modTiles c e f).sec = s.sec := rfl
@[simp] theorem State.modTiles_smbus (s : State) (c : CoreNo) (e : EngNo) (f : List TileEntry → List TileEntry) : (s.modTiles c e f).smbus = s.smbus := rfl

@[simp] theorem State.modTiers_pending (s : State) (f : Tiers → Tiers) : (s.modTiers f).pending = s.pending := rfl
@[simp] theorem State.modTiers_now (s : State) (f : Tiers → Tiers) : (s.modTiers f).now = s.now := rfl
@[simp] theorem State.modTiers_freeCtr (s : State) (f : Tiers → Tiers) : (s.modTiers f).freeCtr = s.freeCtr := rfl
@[simp] theorem State.modTiers_dies (s : State) (f : Tiers → Tiers) : (s.modTiers f).dies = s.dies := rfl
@[simp] theorem State.modTiers_media (s : State) (f : Tiers → Tiers) : (s.modTiers f).media = s.media := rfl
@[simp] theorem State.modTiers_compute (s : State) (f : Tiers → Tiers) : (s.modTiers f).compute = s.compute := rfl
@[simp] theorem State.modTiers_steps (s : State) (f : Tiers → Tiers) : (s.modTiers f).steps = s.steps := rfl
@[simp] theorem State.modTiers_items (s : State) (f : Tiers → Tiers) : (s.modTiers f).items = s.items := rfl
@[simp] theorem State.modTiers_serv (s : State) (f : Tiers → Tiers) : (s.modTiers f).serv = s.serv := rfl
@[simp] theorem State.modTiers_span (s : State) (f : Tiers → Tiers) : (s.modTiers f).span = s.span := rfl
@[simp] theorem State.modTiers_host (s : State) (f : Tiers → Tiers) : (s.modTiers f).host = s.host := rfl
@[simp] theorem State.modTiers_regul (s : State) (f : Tiers → Tiers) : (s.modTiers f).regul = s.regul := rfl
@[simp] theorem State.modTiers_integ (s : State) (f : Tiers → Tiers) : (s.modTiers f).integ = s.integ := rfl
@[simp] theorem State.modTiers_events (s : State) (f : Tiers → Tiers) : (s.modTiers f).events = s.events := rfl
@[simp] theorem State.modTiers_health (s : State) (f : Tiers → Tiers) : (s.modTiers f).health = s.health := rfl
@[simp] theorem State.modTiers_power (s : State) (f : Tiers → Tiers) : (s.modTiers f).power = s.power := rfl
@[simp] theorem State.modTiers_sec (s : State) (f : Tiers → Tiers) : (s.modTiers f).sec = s.sec := rfl
@[simp] theorem State.modTiers_smbus (s : State) (f : Tiers → Tiers) : (s.modTiers f).smbus = s.smbus := rfl

@[simp] theorem State.modItems_pending (s : State) (f : Items → Items) : (s.modItems f).pending = s.pending := rfl
@[simp] theorem State.modItems_now (s : State) (f : Items → Items) : (s.modItems f).now = s.now := rfl
@[simp] theorem State.modItems_freeCtr (s : State) (f : Items → Items) : (s.modItems f).freeCtr = s.freeCtr := rfl
@[simp] theorem State.modItems_dies (s : State) (f : Items → Items) : (s.modItems f).dies = s.dies := rfl
@[simp] theorem State.modItems_media (s : State) (f : Items → Items) : (s.modItems f).media = s.media := rfl
@[simp] theorem State.modItems_compute (s : State) (f : Items → Items) : (s.modItems f).compute = s.compute := rfl
@[simp] theorem State.modItems_steps (s : State) (f : Items → Items) : (s.modItems f).steps = s.steps := rfl
@[simp] theorem State.modItems_tiers (s : State) (f : Items → Items) : (s.modItems f).tiers = s.tiers := rfl
@[simp] theorem State.modItems_serv (s : State) (f : Items → Items) : (s.modItems f).serv = s.serv := rfl
@[simp] theorem State.modItems_span (s : State) (f : Items → Items) : (s.modItems f).span = s.span := rfl
@[simp] theorem State.modItems_host (s : State) (f : Items → Items) : (s.modItems f).host = s.host := rfl
@[simp] theorem State.modItems_regul (s : State) (f : Items → Items) : (s.modItems f).regul = s.regul := rfl
@[simp] theorem State.modItems_integ (s : State) (f : Items → Items) : (s.modItems f).integ = s.integ := rfl
@[simp] theorem State.modItems_events (s : State) (f : Items → Items) : (s.modItems f).events = s.events := rfl
@[simp] theorem State.modItems_health (s : State) (f : Items → Items) : (s.modItems f).health = s.health := rfl
@[simp] theorem State.modItems_power (s : State) (f : Items → Items) : (s.modItems f).power = s.power := rfl
@[simp] theorem State.modItems_sec (s : State) (f : Items → Items) : (s.modItems f).sec = s.sec := rfl
@[simp] theorem State.modItems_smbus (s : State) (f : Items → Items) : (s.modItems f).smbus = s.smbus := rfl

@[simp] theorem State.modServ_pending (s : State) (f : Services → Services) : (s.modServ f).pending = s.pending := rfl
@[simp] theorem State.modServ_now (s : State) (f : Services → Services) : (s.modServ f).now = s.now := rfl
@[simp] theorem State.modServ_freeCtr (s : State) (f : Services → Services) : (s.modServ f).freeCtr = s.freeCtr := rfl
@[simp] theorem State.modServ_dies (s : State) (f : Services → Services) : (s.modServ f).dies = s.dies := rfl
@[simp] theorem State.modServ_media (s : State) (f : Services → Services) : (s.modServ f).media = s.media := rfl
@[simp] theorem State.modServ_compute (s : State) (f : Services → Services) : (s.modServ f).compute = s.compute := rfl
@[simp] theorem State.modServ_steps (s : State) (f : Services → Services) : (s.modServ f).steps = s.steps := rfl
@[simp] theorem State.modServ_tiers (s : State) (f : Services → Services) : (s.modServ f).tiers = s.tiers := rfl
@[simp] theorem State.modServ_items (s : State) (f : Services → Services) : (s.modServ f).items = s.items := rfl
@[simp] theorem State.modServ_span (s : State) (f : Services → Services) : (s.modServ f).span = s.span := rfl
@[simp] theorem State.modServ_host (s : State) (f : Services → Services) : (s.modServ f).host = s.host := rfl
@[simp] theorem State.modServ_regul (s : State) (f : Services → Services) : (s.modServ f).regul = s.regul := rfl
@[simp] theorem State.modServ_integ (s : State) (f : Services → Services) : (s.modServ f).integ = s.integ := rfl
@[simp] theorem State.modServ_events (s : State) (f : Services → Services) : (s.modServ f).events = s.events := rfl
@[simp] theorem State.modServ_health (s : State) (f : Services → Services) : (s.modServ f).health = s.health := rfl
@[simp] theorem State.modServ_power (s : State) (f : Services → Services) : (s.modServ f).power = s.power := rfl
@[simp] theorem State.modServ_sec (s : State) (f : Services → Services) : (s.modServ f).sec = s.sec := rfl
@[simp] theorem State.modServ_smbus (s : State) (f : Services → Services) : (s.modServ f).smbus = s.smbus := rfl

@[simp] theorem State.modSession_pending (s : State) (h : Nat) (f : Session → Session) : (s.modSession h f).pending = s.pending := rfl
@[simp] theorem State.modSession_now (s : State) (h : Nat) (f : Session → Session) : (s.modSession h f).now = s.now := rfl
@[simp] theorem State.modSession_freeCtr (s : State) (h : Nat) (f : Session → Session) : (s.modSession h f).freeCtr = s.freeCtr := rfl
@[simp] theorem State.modSession_dies (s : State) (h : Nat) (f : Session → Session) : (s.modSession h f).dies = s.dies := rfl
@[simp] theorem State.modSession_media (s : State) (h : Nat) (f : Session → Session) : (s.modSession h f).media = s.media := rfl
@[simp] theorem State.modSession_compute (s : State) (h : Nat) (f : Session → Session) : (s.modSession h f).compute = s.compute := rfl
@[simp] theorem State.modSession_steps (s : State) (h : Nat) (f : Session → Session) : (s.modSession h f).steps = s.steps := rfl
@[simp] theorem State.modSession_tiers (s : State) (h : Nat) (f : Session → Session) : (s.modSession h f).tiers = s.tiers := rfl
@[simp] theorem State.modSession_items (s : State) (h : Nat) (f : Session → Session) : (s.modSession h f).items = s.items := rfl
@[simp] theorem State.modSession_span (s : State) (h : Nat) (f : Session → Session) : (s.modSession h f).span = s.span := rfl
@[simp] theorem State.modSession_host (s : State) (h : Nat) (f : Session → Session) : (s.modSession h f).host = s.host := rfl
@[simp] theorem State.modSession_regul (s : State) (h : Nat) (f : Session → Session) : (s.modSession h f).regul = s.regul := rfl
@[simp] theorem State.modSession_integ (s : State) (h : Nat) (f : Session → Session) : (s.modSession h f).integ = s.integ := rfl
@[simp] theorem State.modSession_events (s : State) (h : Nat) (f : Session → Session) : (s.modSession h f).events = s.events := rfl
@[simp] theorem State.modSession_health (s : State) (h : Nat) (f : Session → Session) : (s.modSession h f).health = s.health := rfl
@[simp] theorem State.modSession_power (s : State) (h : Nat) (f : Session → Session) : (s.modSession h f).power = s.power := rfl
@[simp] theorem State.modSession_sec (s : State) (h : Nat) (f : Session → Session) : (s.modSession h f).sec = s.sec := rfl
@[simp] theorem State.modSession_smbus (s : State) (h : Nat) (f : Session → Session) : (s.modSession h f).smbus = s.smbus := rfl

@[simp] theorem State.modSpan_pending (s : State) (f : Span → Span) : (s.modSpan f).pending = s.pending := rfl
@[simp] theorem State.modSpan_now (s : State) (f : Span → Span) : (s.modSpan f).now = s.now := rfl
@[simp] theorem State.modSpan_freeCtr (s : State) (f : Span → Span) : (s.modSpan f).freeCtr = s.freeCtr := rfl
@[simp] theorem State.modSpan_dies (s : State) (f : Span → Span) : (s.modSpan f).dies = s.dies := rfl
@[simp] theorem State.modSpan_media (s : State) (f : Span → Span) : (s.modSpan f).media = s.media := rfl
@[simp] theorem State.modSpan_compute (s : State) (f : Span → Span) : (s.modSpan f).compute = s.compute := rfl
@[simp] theorem State.modSpan_steps (s : State) (f : Span → Span) : (s.modSpan f).steps = s.steps := rfl
@[simp] theorem State.modSpan_tiers (s : State) (f : Span → Span) : (s.modSpan f).tiers = s.tiers := rfl
@[simp] theorem State.modSpan_items (s : State) (f : Span → Span) : (s.modSpan f).items = s.items := rfl
@[simp] theorem State.modSpan_serv (s : State) (f : Span → Span) : (s.modSpan f).serv = s.serv := rfl
@[simp] theorem State.modSpan_host (s : State) (f : Span → Span) : (s.modSpan f).host = s.host := rfl
@[simp] theorem State.modSpan_regul (s : State) (f : Span → Span) : (s.modSpan f).regul = s.regul := rfl
@[simp] theorem State.modSpan_integ (s : State) (f : Span → Span) : (s.modSpan f).integ = s.integ := rfl
@[simp] theorem State.modSpan_events (s : State) (f : Span → Span) : (s.modSpan f).events = s.events := rfl
@[simp] theorem State.modSpan_health (s : State) (f : Span → Span) : (s.modSpan f).health = s.health := rfl
@[simp] theorem State.modSpan_power (s : State) (f : Span → Span) : (s.modSpan f).power = s.power := rfl
@[simp] theorem State.modSpan_sec (s : State) (f : Span → Span) : (s.modSpan f).sec = s.sec := rfl
@[simp] theorem State.modSpan_smbus (s : State) (f : Span → Span) : (s.modSpan f).smbus = s.smbus := rfl

@[simp] theorem State.modTport_pending (s : State) (p : TPortNo) (f : TPort → TPort) : (s.modTport p f).pending = s.pending := rfl
@[simp] theorem State.modTport_now (s : State) (p : TPortNo) (f : TPort → TPort) : (s.modTport p f).now = s.now := rfl
@[simp] theorem State.modTport_freeCtr (s : State) (p : TPortNo) (f : TPort → TPort) : (s.modTport p f).freeCtr = s.freeCtr := rfl
@[simp] theorem State.modTport_dies (s : State) (p : TPortNo) (f : TPort → TPort) : (s.modTport p f).dies = s.dies := rfl
@[simp] theorem State.modTport_media (s : State) (p : TPortNo) (f : TPort → TPort) : (s.modTport p f).media = s.media := rfl
@[simp] theorem State.modTport_compute (s : State) (p : TPortNo) (f : TPort → TPort) : (s.modTport p f).compute = s.compute := rfl
@[simp] theorem State.modTport_steps (s : State) (p : TPortNo) (f : TPort → TPort) : (s.modTport p f).steps = s.steps := rfl
@[simp] theorem State.modTport_tiers (s : State) (p : TPortNo) (f : TPort → TPort) : (s.modTport p f).tiers = s.tiers := rfl
@[simp] theorem State.modTport_items (s : State) (p : TPortNo) (f : TPort → TPort) : (s.modTport p f).items = s.items := rfl
@[simp] theorem State.modTport_serv (s : State) (p : TPortNo) (f : TPort → TPort) : (s.modTport p f).serv = s.serv := rfl
@[simp] theorem State.modTport_host (s : State) (p : TPortNo) (f : TPort → TPort) : (s.modTport p f).host = s.host := rfl
@[simp] theorem State.modTport_regul (s : State) (p : TPortNo) (f : TPort → TPort) : (s.modTport p f).regul = s.regul := rfl
@[simp] theorem State.modTport_integ (s : State) (p : TPortNo) (f : TPort → TPort) : (s.modTport p f).integ = s.integ := rfl
@[simp] theorem State.modTport_events (s : State) (p : TPortNo) (f : TPort → TPort) : (s.modTport p f).events = s.events := rfl
@[simp] theorem State.modTport_health (s : State) (p : TPortNo) (f : TPort → TPort) : (s.modTport p f).health = s.health := rfl
@[simp] theorem State.modTport_power (s : State) (p : TPortNo) (f : TPort → TPort) : (s.modTport p f).power = s.power := rfl
@[simp] theorem State.modTport_sec (s : State) (p : TPortNo) (f : TPort → TPort) : (s.modTport p f).sec = s.sec := rfl
@[simp] theorem State.modTport_smbus (s : State) (p : TPortNo) (f : TPort → TPort) : (s.modTport p f).smbus = s.smbus := rfl

@[simp] theorem State.modStream_pending (s : State) (k : Nat) (f : TStream → TStream) : (s.modStream k f).pending = s.pending := rfl
@[simp] theorem State.modStream_now (s : State) (k : Nat) (f : TStream → TStream) : (s.modStream k f).now = s.now := rfl
@[simp] theorem State.modStream_freeCtr (s : State) (k : Nat) (f : TStream → TStream) : (s.modStream k f).freeCtr = s.freeCtr := rfl
@[simp] theorem State.modStream_dies (s : State) (k : Nat) (f : TStream → TStream) : (s.modStream k f).dies = s.dies := rfl
@[simp] theorem State.modStream_media (s : State) (k : Nat) (f : TStream → TStream) : (s.modStream k f).media = s.media := rfl
@[simp] theorem State.modStream_compute (s : State) (k : Nat) (f : TStream → TStream) : (s.modStream k f).compute = s.compute := rfl
@[simp] theorem State.modStream_steps (s : State) (k : Nat) (f : TStream → TStream) : (s.modStream k f).steps = s.steps := rfl
@[simp] theorem State.modStream_tiers (s : State) (k : Nat) (f : TStream → TStream) : (s.modStream k f).tiers = s.tiers := rfl
@[simp] theorem State.modStream_items (s : State) (k : Nat) (f : TStream → TStream) : (s.modStream k f).items = s.items := rfl
@[simp] theorem State.modStream_serv (s : State) (k : Nat) (f : TStream → TStream) : (s.modStream k f).serv = s.serv := rfl
@[simp] theorem State.modStream_host (s : State) (k : Nat) (f : TStream → TStream) : (s.modStream k f).host = s.host := rfl
@[simp] theorem State.modStream_regul (s : State) (k : Nat) (f : TStream → TStream) : (s.modStream k f).regul = s.regul := rfl
@[simp] theorem State.modStream_integ (s : State) (k : Nat) (f : TStream → TStream) : (s.modStream k f).integ = s.integ := rfl
@[simp] theorem State.modStream_events (s : State) (k : Nat) (f : TStream → TStream) : (s.modStream k f).events = s.events := rfl
@[simp] theorem State.modStream_health (s : State) (k : Nat) (f : TStream → TStream) : (s.modStream k f).health = s.health := rfl
@[simp] theorem State.modStream_power (s : State) (k : Nat) (f : TStream → TStream) : (s.modStream k f).power = s.power := rfl
@[simp] theorem State.modStream_sec (s : State) (k : Nat) (f : TStream → TStream) : (s.modStream k f).sec = s.sec := rfl
@[simp] theorem State.modStream_smbus (s : State) (k : Nat) (f : TStream → TStream) : (s.modStream k f).smbus = s.smbus := rfl

@[simp] theorem State.modInst_pending (s : State) (k : InstKey) (f : Inst → Inst) : (s.modInst k f).pending = s.pending := rfl
@[simp] theorem State.modInst_now (s : State) (k : InstKey) (f : Inst → Inst) : (s.modInst k f).now = s.now := rfl
@[simp] theorem State.modInst_freeCtr (s : State) (k : InstKey) (f : Inst → Inst) : (s.modInst k f).freeCtr = s.freeCtr := rfl
@[simp] theorem State.modInst_dies (s : State) (k : InstKey) (f : Inst → Inst) : (s.modInst k f).dies = s.dies := rfl
@[simp] theorem State.modInst_media (s : State) (k : InstKey) (f : Inst → Inst) : (s.modInst k f).media = s.media := rfl
@[simp] theorem State.modInst_compute (s : State) (k : InstKey) (f : Inst → Inst) : (s.modInst k f).compute = s.compute := rfl
@[simp] theorem State.modInst_steps (s : State) (k : InstKey) (f : Inst → Inst) : (s.modInst k f).steps = s.steps := rfl
@[simp] theorem State.modInst_tiers (s : State) (k : InstKey) (f : Inst → Inst) : (s.modInst k f).tiers = s.tiers := rfl
@[simp] theorem State.modInst_items (s : State) (k : InstKey) (f : Inst → Inst) : (s.modInst k f).items = s.items := rfl
@[simp] theorem State.modInst_serv (s : State) (k : InstKey) (f : Inst → Inst) : (s.modInst k f).serv = s.serv := rfl
@[simp] theorem State.modInst_host (s : State) (k : InstKey) (f : Inst → Inst) : (s.modInst k f).host = s.host := rfl
@[simp] theorem State.modInst_regul (s : State) (k : InstKey) (f : Inst → Inst) : (s.modInst k f).regul = s.regul := rfl
@[simp] theorem State.modInst_integ (s : State) (k : InstKey) (f : Inst → Inst) : (s.modInst k f).integ = s.integ := rfl
@[simp] theorem State.modInst_events (s : State) (k : InstKey) (f : Inst → Inst) : (s.modInst k f).events = s.events := rfl
@[simp] theorem State.modInst_health (s : State) (k : InstKey) (f : Inst → Inst) : (s.modInst k f).health = s.health := rfl
@[simp] theorem State.modInst_power (s : State) (k : InstKey) (f : Inst → Inst) : (s.modInst k f).power = s.power := rfl
@[simp] theorem State.modInst_sec (s : State) (k : InstKey) (f : Inst → Inst) : (s.modInst k f).sec = s.sec := rfl
@[simp] theorem State.modInst_smbus (s : State) (k : InstKey) (f : Inst → Inst) : (s.modInst k f).smbus = s.smbus := rfl

@[simp] theorem State.policyActed_pending (s : State) (policy old new : Nat) : (s.policyActed policy old new).pending = s.pending := rfl
@[simp] theorem State.policyActed_now (s : State) (policy old new : Nat) : (s.policyActed policy old new).now = s.now := rfl
@[simp] theorem State.policyActed_freeCtr (s : State) (policy old new : Nat) : (s.policyActed policy old new).freeCtr = s.freeCtr := rfl
@[simp] theorem State.policyActed_dies (s : State) (policy old new : Nat) : (s.policyActed policy old new).dies = s.dies := rfl
@[simp] theorem State.policyActed_media (s : State) (policy old new : Nat) : (s.policyActed policy old new).media = s.media := rfl
@[simp] theorem State.policyActed_compute (s : State) (policy old new : Nat) : (s.policyActed policy old new).compute = s.compute := rfl
@[simp] theorem State.policyActed_steps (s : State) (policy old new : Nat) : (s.policyActed policy old new).steps = s.steps := rfl
@[simp] theorem State.policyActed_tiers (s : State) (policy old new : Nat) : (s.policyActed policy old new).tiers = s.tiers := rfl
@[simp] theorem State.policyActed_items (s : State) (policy old new : Nat) : (s.policyActed policy old new).items = s.items := rfl
@[simp] theorem State.policyActed_serv (s : State) (policy old new : Nat) : (s.policyActed policy old new).serv = s.serv := rfl
@[simp] theorem State.policyActed_span (s : State) (policy old new : Nat) : (s.policyActed policy old new).span = s.span := rfl
@[simp] theorem State.policyActed_host (s : State) (policy old new : Nat) : (s.policyActed policy old new).host = s.host := rfl
@[simp] theorem State.policyActed_regul (s : State) (policy old new : Nat) : (s.policyActed policy old new).regul = s.regul := rfl
@[simp] theorem State.policyActed_integ (s : State) (policy old new : Nat) : (s.policyActed policy old new).integ = s.integ := rfl
@[simp] theorem State.policyActed_health (s : State) (policy old new : Nat) : (s.policyActed policy old new).health = s.health := rfl
@[simp] theorem State.policyActed_power (s : State) (policy old new : Nat) : (s.policyActed policy old new).power = s.power := rfl
@[simp] theorem State.policyActed_sec (s : State) (policy old new : Nat) : (s.policyActed policy old new).sec = s.sec := rfl
@[simp] theorem State.policyActed_smbus (s : State) (policy old new : Nat) : (s.policyActed policy old new).smbus = s.smbus := rfl

@[simp] theorem State.spareCheck_pending (s : State) : (s.spareCheck).pending = s.pending := by simp [State.spareCheck]
@[simp] theorem State.spareCheck_now (s : State) : (s.spareCheck).now = s.now := by simp [State.spareCheck]
@[simp] theorem State.spareCheck_freeCtr (s : State) : (s.spareCheck).freeCtr = s.freeCtr := by simp [State.spareCheck]
@[simp] theorem State.spareCheck_dies (s : State) : (s.spareCheck).dies = s.dies := by simp [State.spareCheck]
@[simp] theorem State.spareCheck_compute (s : State) : (s.spareCheck).compute = s.compute := by simp [State.spareCheck]
@[simp] theorem State.spareCheck_steps (s : State) : (s.spareCheck).steps = s.steps := by simp [State.spareCheck]
@[simp] theorem State.spareCheck_tiers (s : State) : (s.spareCheck).tiers = s.tiers := by simp [State.spareCheck]
@[simp] theorem State.spareCheck_items (s : State) : (s.spareCheck).items = s.items := by simp [State.spareCheck]
@[simp] theorem State.spareCheck_serv (s : State) : (s.spareCheck).serv = s.serv := by simp [State.spareCheck]
@[simp] theorem State.spareCheck_span (s : State) : (s.spareCheck).span = s.span := by simp [State.spareCheck]
@[simp] theorem State.spareCheck_host (s : State) : (s.spareCheck).host = s.host := by simp [State.spareCheck]
@[simp] theorem State.spareCheck_regul (s : State) : (s.spareCheck).regul = s.regul := by simp [State.spareCheck]
@[simp] theorem State.spareCheck_integ (s : State) : (s.spareCheck).integ = s.integ := by simp [State.spareCheck]
@[simp] theorem State.spareCheck_health (s : State) : (s.spareCheck).health = s.health := by simp [State.spareCheck]
@[simp] theorem State.spareCheck_power (s : State) : (s.spareCheck).power = s.power := by simp [State.spareCheck]
@[simp] theorem State.spareCheck_sec (s : State) : (s.spareCheck).sec = s.sec := by simp [State.spareCheck]

@[simp] theorem State.retireBlock_pending (s : State) (die : Nat) (r : Row) (cause : Nat) : (s.retireBlock die r cause).pending = s.pending := by simp [State.retireBlock]
@[simp] theorem State.retireBlock_now (s : State) (die : Nat) (r : Row) (cause : Nat) : (s.retireBlock die r cause).now = s.now := by simp [State.retireBlock]
@[simp] theorem State.retireBlock_freeCtr (s : State) (die : Nat) (r : Row) (cause : Nat) : (s.retireBlock die r cause).freeCtr = s.freeCtr := by simp [State.retireBlock]
@[simp] theorem State.retireBlock_dies (s : State) (die : Nat) (r : Row) (cause : Nat) : (s.retireBlock die r cause).dies = s.dies := by simp [State.retireBlock]
@[simp] theorem State.retireBlock_compute (s : State) (die : Nat) (r : Row) (cause : Nat) : (s.retireBlock die r cause).compute = s.compute := by simp [State.retireBlock]
@[simp] theorem State.retireBlock_steps (s : State) (die : Nat) (r : Row) (cause : Nat) : (s.retireBlock die r cause).steps = s.steps := by simp [State.retireBlock]
@[simp] theorem State.retireBlock_tiers (s : State) (die : Nat) (r : Row) (cause : Nat) : (s.retireBlock die r cause).tiers = s.tiers := by simp [State.retireBlock]
@[simp] theorem State.retireBlock_items (s : State) (die : Nat) (r : Row) (cause : Nat) : (s.retireBlock die r cause).items = s.items := by simp [State.retireBlock]
@[simp] theorem State.retireBlock_serv (s : State) (die : Nat) (r : Row) (cause : Nat) : (s.retireBlock die r cause).serv = s.serv := by simp [State.retireBlock]
@[simp] theorem State.retireBlock_span (s : State) (die : Nat) (r : Row) (cause : Nat) : (s.retireBlock die r cause).span = s.span := by simp [State.retireBlock]
@[simp] theorem State.retireBlock_host (s : State) (die : Nat) (r : Row) (cause : Nat) : (s.retireBlock die r cause).host = s.host := by simp [State.retireBlock]
@[simp] theorem State.retireBlock_regul (s : State) (die : Nat) (r : Row) (cause : Nat) : (s.retireBlock die r cause).regul = s.regul := by simp [State.retireBlock]
@[simp] theorem State.retireBlock_integ (s : State) (die : Nat) (r : Row) (cause : Nat) : (s.retireBlock die r cause).integ = s.integ := by simp [State.retireBlock]
@[simp] theorem State.retireBlock_power (s : State) (die : Nat) (r : Row) (cause : Nat) : (s.retireBlock die r cause).power = s.power := by simp [State.retireBlock]
@[simp] theorem State.retireBlock_sec (s : State) (die : Nat) (r : Row) (cause : Nat) : (s.retireBlock die r cause).sec = s.sec := by simp [State.retireBlock]

@[simp] theorem State.countReads_pending (s : State) (die : Nat) (m : BMode) (r : Row) (n : Nat) : (s.countReads die m r n).pending = s.pending := by simp [State.countReads]
@[simp] theorem State.countReads_now (s : State) (die : Nat) (m : BMode) (r : Row) (n : Nat) : (s.countReads die m r n).now = s.now := by simp [State.countReads]
@[simp] theorem State.countReads_freeCtr (s : State) (die : Nat) (m : BMode) (r : Row) (n : Nat) : (s.countReads die m r n).freeCtr = s.freeCtr := by simp [State.countReads]
@[simp] theorem State.countReads_dies (s : State) (die : Nat) (m : BMode) (r : Row) (n : Nat) : (s.countReads die m r n).dies = s.dies := by simp [State.countReads]
@[simp] theorem State.countReads_compute (s : State) (die : Nat) (m : BMode) (r : Row) (n : Nat) : (s.countReads die m r n).compute = s.compute := by simp [State.countReads]
@[simp] theorem State.countReads_steps (s : State) (die : Nat) (m : BMode) (r : Row) (n : Nat) : (s.countReads die m r n).steps = s.steps := by simp [State.countReads]
@[simp] theorem State.countReads_tiers (s : State) (die : Nat) (m : BMode) (r : Row) (n : Nat) : (s.countReads die m r n).tiers = s.tiers := by simp [State.countReads]
@[simp] theorem State.countReads_items (s : State) (die : Nat) (m : BMode) (r : Row) (n : Nat) : (s.countReads die m r n).items = s.items := by simp [State.countReads]
@[simp] theorem State.countReads_serv (s : State) (die : Nat) (m : BMode) (r : Row) (n : Nat) : (s.countReads die m r n).serv = s.serv := by simp [State.countReads]
@[simp] theorem State.countReads_span (s : State) (die : Nat) (m : BMode) (r : Row) (n : Nat) : (s.countReads die m r n).span = s.span := by simp [State.countReads]
@[simp] theorem State.countReads_host (s : State) (die : Nat) (m : BMode) (r : Row) (n : Nat) : (s.countReads die m r n).host = s.host := by simp [State.countReads]
@[simp] theorem State.countReads_regul (s : State) (die : Nat) (m : BMode) (r : Row) (n : Nat) : (s.countReads die m r n).regul = s.regul := by simp [State.countReads]
@[simp] theorem State.countReads_integ (s : State) (die : Nat) (m : BMode) (r : Row) (n : Nat) : (s.countReads die m r n).integ = s.integ := by simp [State.countReads]
@[simp] theorem State.countReads_events (s : State) (die : Nat) (m : BMode) (r : Row) (n : Nat) : (s.countReads die m r n).events = s.events := by simp [State.countReads]
@[simp] theorem State.countReads_health (s : State) (die : Nat) (m : BMode) (r : Row) (n : Nat) : (s.countReads die m r n).health = s.health := by simp [State.countReads]
@[simp] theorem State.countReads_power (s : State) (die : Nat) (m : BMode) (r : Row) (n : Nat) : (s.countReads die m r n).power = s.power := by simp [State.countReads]
@[simp] theorem State.countReads_sec (s : State) (die : Nat) (m : BMode) (r : Row) (n : Nat) : (s.countReads die m r n).sec = s.sec := by simp [State.countReads]
@[simp] theorem State.countReads_smbus (s : State) (die : Nat) (m : BMode) (r : Row) (n : Nat) : (s.countReads die m r n).smbus = s.smbus := by simp [State.countReads]

@[simp] theorem State.countRead_pending (s : State) (die : Nat) (m : BMode) (r : Row) : (s.countRead die m r).pending = s.pending := by simp [State.countRead]
@[simp] theorem State.countRead_now (s : State) (die : Nat) (m : BMode) (r : Row) : (s.countRead die m r).now = s.now := by simp [State.countRead]
@[simp] theorem State.countRead_freeCtr (s : State) (die : Nat) (m : BMode) (r : Row) : (s.countRead die m r).freeCtr = s.freeCtr := by simp [State.countRead]
@[simp] theorem State.countRead_dies (s : State) (die : Nat) (m : BMode) (r : Row) : (s.countRead die m r).dies = s.dies := by simp [State.countRead]
@[simp] theorem State.countRead_compute (s : State) (die : Nat) (m : BMode) (r : Row) : (s.countRead die m r).compute = s.compute := by simp [State.countRead]
@[simp] theorem State.countRead_steps (s : State) (die : Nat) (m : BMode) (r : Row) : (s.countRead die m r).steps = s.steps := by simp [State.countRead]
@[simp] theorem State.countRead_tiers (s : State) (die : Nat) (m : BMode) (r : Row) : (s.countRead die m r).tiers = s.tiers := by simp [State.countRead]
@[simp] theorem State.countRead_items (s : State) (die : Nat) (m : BMode) (r : Row) : (s.countRead die m r).items = s.items := by simp [State.countRead]
@[simp] theorem State.countRead_serv (s : State) (die : Nat) (m : BMode) (r : Row) : (s.countRead die m r).serv = s.serv := by simp [State.countRead]
@[simp] theorem State.countRead_span (s : State) (die : Nat) (m : BMode) (r : Row) : (s.countRead die m r).span = s.span := by simp [State.countRead]
@[simp] theorem State.countRead_host (s : State) (die : Nat) (m : BMode) (r : Row) : (s.countRead die m r).host = s.host := by simp [State.countRead]
@[simp] theorem State.countRead_regul (s : State) (die : Nat) (m : BMode) (r : Row) : (s.countRead die m r).regul = s.regul := by simp [State.countRead]
@[simp] theorem State.countRead_integ (s : State) (die : Nat) (m : BMode) (r : Row) : (s.countRead die m r).integ = s.integ := by simp [State.countRead]
@[simp] theorem State.countRead_events (s : State) (die : Nat) (m : BMode) (r : Row) : (s.countRead die m r).events = s.events := by simp [State.countRead]
@[simp] theorem State.countRead_health (s : State) (die : Nat) (m : BMode) (r : Row) : (s.countRead die m r).health = s.health := by simp [State.countRead]
@[simp] theorem State.countRead_power (s : State) (die : Nat) (m : BMode) (r : Row) : (s.countRead die m r).power = s.power := by simp [State.countRead]
@[simp] theorem State.countRead_sec (s : State) (die : Nat) (m : BMode) (r : Row) : (s.countRead die m r).sec = s.sec := by simp [State.countRead]
@[simp] theorem State.countRead_smbus (s : State) (die : Nat) (m : BMode) (r : Row) : (s.countRead die m r).smbus = s.smbus := by simp [State.countRead]

@[simp] theorem State.wearErase_pending (s : State) (die : Nat) (m : BMode) (r : Row) : (s.wearErase die m r).pending = s.pending := by simp [State.wearErase]
@[simp] theorem State.wearErase_now (s : State) (die : Nat) (m : BMode) (r : Row) : (s.wearErase die m r).now = s.now := by simp [State.wearErase]
@[simp] theorem State.wearErase_freeCtr (s : State) (die : Nat) (m : BMode) (r : Row) : (s.wearErase die m r).freeCtr = s.freeCtr := by simp [State.wearErase]
@[simp] theorem State.wearErase_dies (s : State) (die : Nat) (m : BMode) (r : Row) : (s.wearErase die m r).dies = s.dies := by simp [State.wearErase]
@[simp] theorem State.wearErase_compute (s : State) (die : Nat) (m : BMode) (r : Row) : (s.wearErase die m r).compute = s.compute := by simp [State.wearErase]
@[simp] theorem State.wearErase_steps (s : State) (die : Nat) (m : BMode) (r : Row) : (s.wearErase die m r).steps = s.steps := by simp [State.wearErase]
@[simp] theorem State.wearErase_tiers (s : State) (die : Nat) (m : BMode) (r : Row) : (s.wearErase die m r).tiers = s.tiers := by simp [State.wearErase]
@[simp] theorem State.wearErase_items (s : State) (die : Nat) (m : BMode) (r : Row) : (s.wearErase die m r).items = s.items := by simp [State.wearErase]
@[simp] theorem State.wearErase_serv (s : State) (die : Nat) (m : BMode) (r : Row) : (s.wearErase die m r).serv = s.serv := by simp [State.wearErase]
@[simp] theorem State.wearErase_span (s : State) (die : Nat) (m : BMode) (r : Row) : (s.wearErase die m r).span = s.span := by simp [State.wearErase]
@[simp] theorem State.wearErase_host (s : State) (die : Nat) (m : BMode) (r : Row) : (s.wearErase die m r).host = s.host := by simp [State.wearErase]
@[simp] theorem State.wearErase_regul (s : State) (die : Nat) (m : BMode) (r : Row) : (s.wearErase die m r).regul = s.regul := by simp [State.wearErase]
@[simp] theorem State.wearErase_integ (s : State) (die : Nat) (m : BMode) (r : Row) : (s.wearErase die m r).integ = s.integ := by simp [State.wearErase]
@[simp] theorem State.wearErase_power (s : State) (die : Nat) (m : BMode) (r : Row) : (s.wearErase die m r).power = s.power := by simp [State.wearErase]
@[simp] theorem State.wearErase_sec (s : State) (die : Nat) (m : BMode) (r : Row) : (s.wearErase die m r).sec = s.sec := by simp [State.wearErase]

@[simp] theorem State.signal_now (s : State) (p : Port) (v : Nat) : (s.signal p v).now = s.now := by simp [State.signal]
@[simp] theorem State.signal_freeCtr (s : State) (p : Port) (v : Nat) : (s.signal p v).freeCtr = s.freeCtr := by simp [State.signal]
@[simp] theorem State.signal_dies (s : State) (p : Port) (v : Nat) : (s.signal p v).dies = s.dies := by simp [State.signal]
@[simp] theorem State.signal_media (s : State) (p : Port) (v : Nat) : (s.signal p v).media = s.media := by simp [State.signal]
@[simp] theorem State.signal_compute (s : State) (p : Port) (v : Nat) : (s.signal p v).compute = s.compute := by simp [State.signal]
@[simp] theorem State.signal_steps (s : State) (p : Port) (v : Nat) : (s.signal p v).steps = s.steps := by simp [State.signal]
@[simp] theorem State.signal_tiers (s : State) (p : Port) (v : Nat) : (s.signal p v).tiers = s.tiers := by simp [State.signal]
@[simp] theorem State.signal_items (s : State) (p : Port) (v : Nat) : (s.signal p v).items = s.items := by simp [State.signal]
@[simp] theorem State.signal_serv (s : State) (p : Port) (v : Nat) : (s.signal p v).serv = s.serv := by simp [State.signal]
@[simp] theorem State.signal_span (s : State) (p : Port) (v : Nat) : (s.signal p v).span = s.span := by simp [State.signal]
@[simp] theorem State.signal_regul (s : State) (p : Port) (v : Nat) : (s.signal p v).regul = s.regul := by simp [State.signal]
@[simp] theorem State.signal_integ (s : State) (p : Port) (v : Nat) : (s.signal p v).integ = s.integ := by simp [State.signal]
@[simp] theorem State.signal_events (s : State) (p : Port) (v : Nat) : (s.signal p v).events = s.events := by simp [State.signal]
@[simp] theorem State.signal_health (s : State) (p : Port) (v : Nat) : (s.signal p v).health = s.health := by simp [State.signal]
@[simp] theorem State.signal_power (s : State) (p : Port) (v : Nat) : (s.signal p v).power = s.power := by simp [State.signal]
@[simp] theorem State.signal_sec (s : State) (p : Port) (v : Nat) : (s.signal p v).sec = s.sec := by simp [State.signal]
@[simp] theorem State.signal_smbus (s : State) (p : Port) (v : Nat) : (s.signal p v).smbus = s.smbus := by simp [State.signal]

end Sys2Proof.Machine
end

