-- ==== Sys2Proof/Laws/Tab.lean ====
section
/-! SUPPORT. Laws of tables and sparse memories: what a lookup gives after each operation, in any table, sorted or not; that a memory operation keeps the
canonical form; and what a byte reads after a write. -/

namespace Sys2Proof.Machine

/-! ## Tables. -/

section
variable {α : Type}

@[simp] theorem Tab.find_nil (k : Nat) : Tab.find ([] : Tab α) k = none := rfl

theorem Tab.find_cons (j : Nat) (v : α) (t : Tab α) (k : Nat) : Tab.find ((j, v) :: t) k = if j = k then some v else Tab.find t k := rfl

@[simp] theorem Tab.find_put_self (t : Tab α) (k : Nat) (v : α) : Tab.find (Tab.put t k v) k = some v := by
  induction t with
  | nil => simp [Tab.put, Tab.find]
  | cons e t ih =>
    obtain ⟨j, w⟩ := e
    simp only [Tab.put]
    split
    · simp [Tab.find]
    · split
      · simp [Tab.find]
      · rename_i h1 h2
        simp only [Tab.find, ih]
        split
        · omega
        · rfl

@[simp] theorem Tab.find_put_ne (t : Tab α) {k j : Nat} (v : α) (h : j ≠ k) : Tab.find (Tab.put t k v) j = Tab.find t j := by
  induction t with
  | nil => simp [Tab.put, Tab.find, Ne.symm h]
  | cons e t ih =>
    obtain ⟨i, w⟩ := e
    simp only [Tab.put]
    split
    · simp [Tab.find, Ne.symm h]
    · split
      · rename_i h1 h2
        subst h2
        simp [Tab.find, Ne.symm h]
      · simp [Tab.find, ih]

theorem Tab.find_put (t : Tab α) (k j : Nat) (v : α) : Tab.find (Tab.put t k v) j = if j = k then some v else Tab.find t j := by
  split
  · rename_i h; subst h; simp
  · rename_i h; simp [h]

theorem Tab.find_change (t : Tab α) (k j : Nat) (f : α → α) :
    Tab.find (Tab.change t k f) j = if j = k then (Tab.find t j).map f else Tab.find t j := by
  induction t with
  | nil => simp [Tab.change, Tab.find]
  | cons e t ih =>
    obtain ⟨i, w⟩ := e
    simp only [Tab.change, List.map_cons] at ih ⊢
    by_cases hi : i = k
    · subst hi
      by_cases hj : j = i
      · subst hj; simp [Tab.find]
      · simp [Tab.find, Ne.symm hj, hj, ih]
    · by_cases hj : i = j
      · subst hj; simp [Tab.find, hi]
      · simp only [hi, if_false, Tab.find, hj, ih]

@[simp] theorem Tab.find_change_self (t : Tab α) (k : Nat) (f : α → α) : Tab.find (Tab.change t k f) k = (Tab.find t k).map f := by
  simp [Tab.find_change]

@[simp] theorem Tab.find_change_ne (t : Tab α) {k j : Nat} (f : α → α) (h : j ≠ k) : Tab.find (Tab.change t k f) j = Tab.find t j := by
  simp [Tab.find_change, h]

theorem Tab.find_del (t : Tab α) (k j : Nat) : Tab.find (Tab.del t k) j = if j = k then none else Tab.find t j := by
  induction t with
  | nil => simp [Tab.del, Tab.find]
  | cons e t ih =>
    obtain ⟨i, w⟩ := e
    simp only [Tab.del, List.filter_cons] at ih ⊢
    by_cases hi : i = k
    · subst hi
      by_cases hj : j = i
      · subst hj; simpa using ih
      · simp [Tab.find, Ne.symm hj, hj] at ih ⊢; exact ih
    · by_cases hj : i = j
      · subst hj; simp [Tab.find, hi]
      · simp [hi, Tab.find, hj] at ih ⊢; exact ih

@[simp] theorem Tab.find_del_self (t : Tab α) (k : Nat) : Tab.find (Tab.del t k) k = none := by simp [Tab.find_del]

@[simp] theorem Tab.find_del_ne (t : Tab α) {k j : Nat} (h : j ≠ k) : Tab.find (Tab.del t k) j = Tab.find t j := by simp [Tab.find_del, h]

theorem Tab.find_changeAll (t : Tab α) (f : α → α) (k : Nat) : Tab.find (Tab.changeAll t f) k = (Tab.find t k).map f := by
  induction t with
  | nil => rfl
  | cons e t ih =>
    obtain ⟨i, w⟩ := e
    simp only [Tab.changeAll, List.map_cons, Tab.find] at ih ⊢
    split <;> simp [ih]

theorem Tab.at_eq (t : Tab α) (k : Nat) (d : α) : Tab.at t k d = (Tab.find t k).getD d := rfl

@[simp] theorem Tab.at_put_self (t : Tab α) (k : Nat) (v d : α) : Tab.at (Tab.put t k v) k d = v := by simp [Tab.at]

@[simp] theorem Tab.at_put_ne (t : Tab α) {k j : Nat} (v d : α) (h : j ≠ k) : Tab.at (Tab.put t k v) j d = Tab.at t j d := by simp [Tab.at, h]

theorem Tab.has_eq (t : Tab α) (k : Nat) : Tab.has t k = (Tab.find t k).isSome := rfl

end

/-! ## Sparse memories. -/

theorem Mem.find_filter (m : Mem) (p : Nat → Bool) (a : Nat) :
    Tab.find (m.filter (fun c => p c.1)) a = if p a then Tab.find m a else none := by
  induction m with
  | nil => simp [Tab.find]
  | cons e m ih =>
    obtain ⟨i, w⟩ := e
    by_cases hp : p i
    · simp only [List.filter_cons, hp, if_true, Tab.find, ih]
      by_cases hi : i = a
      · subst hi; simp [hp]
      · simp [hi]
    · simp only [List.filter_cons, hp, Bool.false_eq_true, if_false, ih, Tab.find]
      by_cases hi : i = a
      · subst hi; simp [hp]
      · simp [hi]

theorem Tab.find_append {α : Type} (x y : Tab α) (k : Nat) : Tab.find (x ++ y) k = (Tab.find x k).or (Tab.find y k) := by
  induction x with
  | nil => simp [Tab.find]
  | cons e x ih =>
    obtain ⟨i, w⟩ := e
    simp only [List.cons_append, Tab.find]
    split <;> simp [ih]

theorem Mem.find_cells_below (a : Nat) (bs : List Byte) (d : Byte) (x : Nat) (h : x < a ∨ a + bs.length ≤ x) :
    Tab.find ((Mem.cells a bs).filter (fun c => c.2 ≠ d)) x = none := by
  induction bs generalizing a with
  | nil => simp [Mem.cells]
  | cons b bs ih =>
    have ha : a ≠ x := by simp at h; omega
    have ih := ih (a + 1) (by simp at h; omega)
    simp only [Mem.cells, List.filter_cons]
    split
    · simpa [Tab.find, ha] using ih
    · exact ih

theorem Mem.get_cells (a : Nat) (bs : List Byte) (d : Byte) (i : Nat) (h : i < bs.length) :
    (Tab.find ((Mem.cells a bs).filter (fun c => c.2 ≠ d)) (a + i)).getD d = bs[i] := by
  induction bs generalizing a i with
  | nil => simp at h
  | cons b bs ih =>
    cases i with
    | zero =>
      simp only [Mem.cells, List.filter_cons, Nat.add_zero, List.getElem_cons_zero]
      split
      · simp [Tab.find]
      · rename_i hb
        have hb : b = d := by simpa using hb
        rw [Mem.find_cells_below (a + 1) bs d a (by omega)]
        simp [hb]
    | succ i =>
      have ih := ih (a + 1) i (by simpa using h)
      have e : a + 1 + i = a + (i + 1) := by omega
      rw [e] at ih
      simp only [Mem.cells, List.filter_cons, List.getElem_cons_succ]
      split
      · have ha : ¬ (a = a + (i + 1)) := by omega
        simp only [Tab.find, ha, if_false]; exact ih
      · exact ih

/-- Outside the bytes written, a memory reads as before. -/
theorem Mem.get_write_out (d : Byte) (m : Mem) (a : Nat) (bs : List Byte) (x : Nat) (h : x < a ∨ a + bs.length ≤ x) :
    Mem.get d (Mem.write d m a bs) x = Mem.get d m x := by
  unfold Mem.get Mem.write
  rw [Tab.find_append, Tab.find_append, Mem.find_cells_below a bs d x h]
  rw [Mem.find_filter m (fun i => decide (i < a)), Mem.find_filter m (fun i => decide (a + bs.length ≤ i))]
  by_cases hx : x < a
  · have : ¬ a + bs.length ≤ x := by omega
    simp [hx, this]
  · have : a + bs.length ≤ x := by omega
    simp [hx, this]

/-- The bytes written read back. -/
theorem Mem.get_write_in (d : Byte) (m : Mem) (a : Nat) (bs : List Byte) (i : Nat) (h : i < bs.length) :
    Mem.get d (Mem.write d m a bs) (a + i) = bs[i] := by
  unfold Mem.get Mem.write
  rw [Tab.find_append, Tab.find_append]
  rw [Mem.find_filter m (fun j => decide (j < a)), Mem.find_filter m (fun j => decide (a + bs.length ≤ j))]
  have h1 : ¬ (a + i < a) := by omega
  have h2 : ¬ (a + bs.length ≤ a + i) := by omega
  simp only [h1, h2, decide_false, Bool.false_eq_true, if_false, Option.none_or, Option.or_none]
  exact Mem.get_cells a bs d i h

/-- A read of the bytes just written gives them. -/
theorem Mem.read_write (d : Byte) (m : Mem) (a : Nat) (bs : List Byte) : Mem.read d (Mem.write d m a bs) a bs.length = bs := by
  apply List.ext_getElem
  · simp [Mem.read]
  · intro i h1 h2
    simp only [Mem.read, List.getElem_map, List.getElem_range]
    exact Mem.get_write_in d m a bs i h2

/-- A run returned to the default reads as the default. -/
theorem Mem.get_clear_in (d : Byte) (m : Mem) (a n x : Nat) (h1 : a ≤ x) (h2 : x < a + n) : Mem.get d (Mem.clear m a n) x = d := by
  unfold Mem.get Mem.clear
  rw [Tab.find_append, Mem.find_filter m (fun j => decide (j < a)), Mem.find_filter m (fun j => decide (a + n ≤ j))]
  have h3 : ¬ x < a := by omega
  have h4 : ¬ a + n ≤ x := by omega
  simp [h3, h4]

/-- Outside a run returned to the default, a memory reads as before. -/
theorem Mem.get_clear_out (d : Byte) (m : Mem) (a n x : Nat) (h : x < a ∨ a + n ≤ x) : Mem.get d (Mem.clear m a n) x = Mem.get d m x := by
  unfold Mem.get Mem.clear
  rw [Tab.find_append, Mem.find_filter m (fun j => decide (j < a)), Mem.find_filter m (fun j => decide (a + n ≤ j))]
  by_cases hx : x < a
  · have : ¬ a + n ≤ x := by omega
    simp [hx, this]
  · have : a + n ≤ x := by omega
    simp [hx, this]

/-! ## The canonical form. -/

theorem Mem.wf_iff (d : Byte) (m : Mem) : Mem.wf d m = true ↔ m.Pairwise (fun c e => c.1 < e.1) ∧ ∀ c ∈ m, c.2 ≠ d := by
  simp [Mem.wf, List.all_eq_true]

theorem Mem.wf_nil (d : Byte) : Mem.wf d [] = true := rfl

theorem Mem.wf_filter (d : Byte) (m : Mem) (p : Nat × Byte → Bool) (h : Mem.wf d m = true) : Mem.wf d (m.filter p) = true := by
  rw [Mem.wf_iff] at h ⊢
  exact ⟨h.1.filter p, fun c hc => h.2 c (List.mem_filter.mp hc).1⟩

theorem Mem.mem_cells {a : Nat} {bs : List Byte} {c : Nat × Byte} (h : c ∈ Mem.cells a bs) : a ≤ c.1 ∧ c.1 < a + bs.length := by
  induction bs generalizing a with
  | nil => simp [Mem.cells] at h
  | cons b bs ih =>
    simp only [Mem.cells, List.mem_cons] at h
    rcases h with rfl | h
    · simp
    · have := ih h
      simp; omega

theorem Mem.pairwise_cells (a : Nat) (bs : List Byte) : (Mem.cells a bs).Pairwise (fun c e => c.1 < e.1) := by
  induction bs generalizing a with
  | nil => simp [Mem.cells]
  | cons b bs ih =>
    simp only [Mem.cells, List.pairwise_cons]
    exact ⟨fun c hc => by have := Mem.mem_cells hc; omega, ih (a + 1)⟩

/-- A write keeps the canonical form. -/
theorem Mem.wf_write (d : Byte) (m : Mem) (a : Nat) (bs : List Byte) (h : Mem.wf d m = true) : Mem.wf d (Mem.write d m a bs) = true := by
  have hl := Mem.wf_filter d m (fun c => c.1 < a) h
  have hr := Mem.wf_filter d m (fun c => a + bs.length ≤ c.1) h
  rw [Mem.wf_iff] at hl hr ⊢
  unfold Mem.write
  refine ⟨?_, ?_⟩
  · rw [List.pairwise_append, List.pairwise_append]
    refine ⟨⟨hl.1, (Mem.pairwise_cells a bs).filter _, ?_⟩, hr.1, ?_⟩
    · intro x hx y hy
      have h1 := (List.mem_filter.mp hx).2
      have h2 := Mem.mem_cells (List.mem_filter.mp hy).1
      simp at h1; omega
    · intro x hx y hy
      have h3 := (List.mem_filter.mp hy).2
      simp at h3
      rcases List.mem_append.mp hx with hx | hx
      · have h1 := (List.mem_filter.mp hx).2
        simp at h1; omega
      · have h2 := Mem.mem_cells (List.mem_filter.mp hx).1
        omega
  · intro c hc
    rcases List.mem_append.mp hc with hc | hc
    · rcases List.mem_append.mp hc with hc | hc
      · exact hl.2 c hc
      · simpa using (List.mem_filter.mp hc).2
    · exact hr.2 c hc

/-- A run returned to the default keeps the canonical form. -/
theorem Mem.wf_clear (d : Byte) (m : Mem) (a n : Nat) (h : Mem.wf d m = true) : Mem.wf d (Mem.clear m a n) = true := by
  have hl := Mem.wf_filter d m (fun c => c.1 < a) h
  have hr := Mem.wf_filter d m (fun c => a + n ≤ c.1) h
  rw [Mem.wf_iff] at hl hr ⊢
  unfold Mem.clear
  refine ⟨?_, ?_⟩
  · rw [List.pairwise_append]
    refine ⟨hl.1, hr.1, ?_⟩
    intro x hx y hy
    have h1 := (List.mem_filter.mp hx).2
    have h2 := (List.mem_filter.mp hy).2
    simp at h1 h2; omega
  · intro c hc
    rcases List.mem_append.mp hc with hc | hc
    · exact hl.2 c hc
    · exact hr.2 c hc

/-- A part of a memory keeps the canonical form. -/
theorem Mem.wf_part (d : Byte) (m : Mem) (a n : Nat) (h : Mem.wf d m = true) : Mem.wf d (Mem.part m a n) = true := Mem.wf_filter d m _ h

end Sys2Proof.Machine
end

