-- ==== Sys2Proof/Laws/Commands.lean ====
section
/-! SUPPORT. What the shared operations do to the parts they change: dies, ports, rings, commands in progress, and the completion of a command. -/

namespace Sys2Proof.Machine

/-! ## Parts set. -/

@[simp] theorem State.atTime_now (s : State) (t : Nat) : (s.at_ t).now = max s.now t := rfl
@[simp] theorem State.spend_freeCtr (s : State) (n : Nat) : (s.spend n).freeCtr = s.freeCtr + n := rfl
@[simp] theorem State.modMedia_media (s : State) (f : Media → Media) : (s.modMedia f).media = f s.media := rfl
@[simp] theorem State.modCompute_compute (s : State) (f : Compute → Compute) : (s.modCompute f).compute = f s.compute := rfl
@[simp] theorem State.modTiers_tiers (s : State) (f : Tiers → Tiers) : (s.modTiers f).tiers = f s.tiers := rfl
@[simp] theorem State.modItems_items (s : State) (f : Items → Items) : (s.modItems f).items = f s.items := rfl
@[simp] theorem State.modServ_serv (s : State) (f : Services → Services) : (s.modServ f).serv = f s.serv := rfl
@[simp] theorem State.modSpan_span (s : State) (f : Span → Span) : (s.modSpan f).span = f s.span := rfl
@[simp] theorem State.record_events (s : State) (code src : Nat) (p : List Byte) :
    (s.record code src p).events = s.events.add s.opTime s.power.cycles code src p := rfl
@[simp] theorem State.pagesProgrammed_health (s : State) (n : Nat) :
    (s.pagesProgrammed n).health = { s.health with flashBytes := s.health.flashBytes + 16384 * n } := rfl
@[simp] theorem State.hostWrite_mem (s : State) (p : Port) (a : Nat) (bs : List Byte) :
    (s.hostWrite p a bs).host.hostMem = Mem.write 0 s.host.hostMem (hostKey p a) bs := rfl

/-! ## Dies. -/

@[simp] theorem State.die_setDie_self (s : State) (d : DieNo) (x : Die) : (s.setDie d x).die d = x := by simp [State.die, State.setDie]

@[simp] theorem State.die_setDie_ne (s : State) {d e : DieNo} (x : Die) (h : e ≠ d) : (s.setDie d x).die e = s.die e := by
  have : e.val ≠ d.val := fun k => h (Fin.ext k)
  simp [State.die, State.setDie, this]

theorem State.die_congr {s t : State} (h : t.dies = s.dies) (d : DieNo) : t.die d = s.die d := by simp [State.die, h]

/-! ## Ports. -/

@[simp] theorem State.port_setPort_self (s : State) (p : Port) (x : PortState) : (s.setPort p x).port p = x := by cases p <;> rfl

@[simp] theorem State.port_setPort_ne (s : State) {p q : Port} (x : PortState) (h : q ≠ p) : (s.setPort p x).port q = s.port q := by
  cases p <;> cases q <;> first | rfl | exact absurd rfl h

@[simp] theorem State.port_setPort_other (s : State) (p : Port) (x : PortState) : (s.setPort p x).port p.other = s.port p.other := by cases p <;> rfl

theorem State.setPort_host (s : State) (p : Port) (x : PortState) :
    (s.setPort p x).host = { s.host with portA := (s.setPort p x).host.portA, portB := (s.setPort p x).host.portB } := by cases p <;> rfl

@[simp] theorem State.setPort_cmds (s : State) (p : Port) (x : PortState) : (s.setPort p x).host.cmds = s.host.cmds := by cases p <;> rfl
@[simp] theorem State.setPort_hostMem (s : State) (p : Port) (x : PortState) : (s.setPort p x).host.hostMem = s.host.hostMem := by cases p <;> rfl
@[simp] theorem State.cmd?_setPort (s : State) (p : Port) (x : PortState) (id : Nat) : (s.setPort p x).cmd? id = s.cmd? id := by cases p <;> rfl

theorem State.port_congr {s t : State} (h : t.host = s.host) (p : Port) : t.port p = s.port p := by cases p <;> simp [State.port, h]

/-! ## Completion (12 R384, R394). -/

theorem State.dropCmd_host (s : State) (id : Nat) (c : Cmd) (h : s.cmd? id = some c) :
    (s.dropCmd id).host = { (s.modPort c.port (fun x => x.revoke (fun g => g.cmd = id))).host with cmds := Tab.del s.host.cmds id } := by
  simp only [State.dropCmd, h]
  cases hp : c.port <;> rfl

theorem State.completeWith_eq (s : State) (id : Nat) (c : Cmd) (st : Status) (flags : Nat) (res : List Byte) (h : s.cmd? id = some c) :
    s.completeWith id st flags res = (((if st = .checkFailed then s.count 24 1 else s).spoiled c st).dropCmd id).hold c.port c.ring (c.reply st flags res) := by
  simp only [State.completeWith, h]

/-- A status spoils no more than host memory: a port and the commands are as they were. -/
@[simp] theorem State.port_spoiled (s : State) (c : Cmd) (st : Status) (p : Port) : (s.spoiled c st).port p = s.port p := by
  unfold State.spoiled; split <;> cases p <;> rfl

@[simp] theorem State.spoiled_cmds (s : State) (c : Cmd) (st : Status) : (s.spoiled c st).host.cmds = s.host.cmds := by
  unfold State.spoiled; split <;> rfl

theorem State.spoiled_host (s : State) (c : Cmd) (st : Status) : ∃ m, (s.spoiled c st).host = { s.host with hostMem := m } :=
  ⟨(s.spoiled c st).host.hostMem, by unfold State.spoiled; split <;> rfl⟩

/-- What a status leaves undefined: nothing of a command other than a search, or of one that succeeds. -/
theorem State.spoiled_eq (s : State) (c : Cmd) (st : Status) (h : (c.opcode ≠ 0x0401 ∧ c.opcode ≠ 0x0402) ∨ st = .success) : s.spoiled c st = s := by
  unfold State.spoiled
  split
  · rename_i k
    rcases h with h | h <;> simp_all
  · rfl

/-- A command's completion, as a statement about what changed. -/
theorem State.completeWith_replied (s : State) (id : Nat) (c : Cmd) (st : Status) (flags : Nat) (res : List Byte) (h : s.cmd? id = some c) :
    Sys2Proof.Replied s (s.completeWith id st flags res) id c (c.reply st flags res) := by
  rw [State.completeWith_eq s id c st flags res h]
  generalize c.reply st flags res = x
  have hc : (if st = .checkFailed then s.count 24 1 else s).host = s.host := by split <;> rfl
  have hm : ((if st = .checkFailed then s.count 24 1 else s).spoiled c st).host.cmds = s.host.cmds := by rw [State.spoiled_cmds, hc]
  have hp : ∀ p, ((if st = .checkFailed then s.count 24 1 else s).spoiled c st).port p = s.port p := fun p => by rw [State.port_spoiled, State.port_congr hc]
  obtain ⟨m, hx⟩ := State.spoiled_host (if st = .checkFailed then s.count 24 1 else s) c st
  rw [hc] at hx
  generalize (if st = .checkFailed then s.count 24 1 else s).spoiled c st = u at hm hp hx
  have hu : u.cmd? id = some c := by simpa [State.cmd?, hm] using h
  have hh := State.dropCmd_host u id c hu
  have hr : ∀ p r, u.ring? p r = s.ring? p r := fun p r => by simp [State.ring?, hp]
  constructor
  · simp [State.hold, State.modRing, State.modPort, State.cmd?, hh]
  · intro g hg
    rw [← hr] at hg
    cases hq : c.port <;>
      simp_all [State.hold, State.modRing, State.modPort, State.ring?, State.setPort, State.port, PortState.revoke]
  · intro p r hpr
    rw [← hr]
    cases hq : c.port <;> cases p <;>
      simp_all [State.hold, State.modRing, State.modPort, State.ring?, State.setPort, State.port, PortState.revoke]
  · intro j hj
    simp [State.hold, State.modRing, State.modPort, State.cmd?, hh, hj, hm]
  · intro g hg
    cases hq : c.port <;>
      simp_all [State.hold, State.modRing, State.modPort, State.ring?, State.setPort, State.port, PortState.revoke]
  · rw [← hp]
    cases hq : c.port <;>
      simp_all [State.hold, State.modRing, State.modPort, State.ring?, State.setPort, State.port, PortState.revoke]
  · rw [← hp]
    cases hq : c.port <;>
      simp_all [State.hold, State.modRing, State.modPort, State.ring?, State.setPort, State.port, PortState.revoke, Port.other]
  · cases hq : c.port <;>
      (simp_all [State.hold, State.modRing, State.modPort, State.ring?, State.setPort, State.port, PortState.revoke])

theorem State.completeWith_hostMem (s : State) (id : Nat) (st : Status) (flags : Nat) (res : List Byte)
    (hq : ∀ c, s.cmd? id = some c → (c.opcode ≠ 0x0401 ∧ c.opcode ≠ 0x0402) ∨ st = .success) : (s.completeWith id st flags res).host.hostMem = s.host.hostMem := by
  unfold State.completeWith
  split
  · rfl
  · rename_i c h
    dsimp only
    rw [State.spoiled_eq _ c st (hq c h)]
    have hc : (if st = .checkFailed then s.count 24 1 else s).host = s.host := by split <;> rfl
    generalize (if st = .checkFailed then s.count 24 1 else s) = u at hc
    have hu : u.cmd? id = some c := by simpa [State.cmd?, hc] using h
    have hh := State.dropCmd_host u id c hu
    simp [State.hold, State.modRing, State.modPort, hh, hc]

theorem State.completeWith_media (s : State) (id : Nat) (c : Cmd) (st : Status) (flags : Nat) (res : List Byte) (h : s.cmd? id = some c) :
    (s.completeWith id st flags res).media = s.media.endCmd id := by
  rw [State.completeWith_eq s id c st flags res h]
  have hc : ((if st = .checkFailed then s.count 24 1 else s).spoiled c st).host.cmds = s.host.cmds := by rw [State.spoiled_cmds]; split <;> rfl
  have hm : ((if st = .checkFailed then s.count 24 1 else s).spoiled c st).media = s.media := by rw [State.spoiled_media]; split <;> rfl
  generalize (if st = .checkFailed then s.count 24 1 else s).spoiled c st = u at hc hm
  have hu : u.cmd? id = some c := by simpa [State.cmd?, hc] using h
  simp [State.hold, State.dropCmd, hu, hm]

theorem State.completeWith_health (s : State) (id : Nat) (st : Status) (flags : Nat) (res : List Byte) (h : st ≠ .checkFailed) :
    (s.completeWith id st flags res).health = s.health := by
  unfold State.completeWith
  split
  · rfl
  · simp [h, State.hold, State.dropCmd]
    split <;> simp

/-- A command that runs is in progress. -/
theorem State.cmd?_of_acting {s : State} {id op : Nat} {c : Cmd} (h : s.acting id op = some c) : s.cmd? id = some c := by
  unfold State.acting at h
  split at h
  · rename_i d hd
    split at h
    · rw [hd, h]
    · cases h
  · cases h

/-- The step of a check: with no refusal and the deadline not passed, a command goes on. -/
theorem State.checked_go (s : State) (c : Cmd) (go : State → State) (h : s.late c = false) : s.checked c none go = go s := by
  simp [State.checked, h]

/-- A refusal ends a command. -/
theorem State.checked_fail (s : State) (c : Cmd) (st : Status) (go : State → State) : s.checked c (some st) go = s.fail c.ident st := rfl

end Sys2Proof.Machine
end

