-- ==== Sys2Proof/Laws/Parts.lean ====
section
/-! SUPPORT. One lemma for each field that the operations of integrity, bench memory, HBM and keys leave alone. -/

namespace Sys2Proof.Machine

@[simp] theorem State.withSteps_pending (s : State) (x : Steps) : (s.withSteps x).pending = s.pending := rfl
@[simp] theorem State.withSteps_now (s : State) (x : Steps) : (s.withSteps x).now = s.now := rfl
@[simp] theorem State.withSteps_freeCtr (s : State) (x : Steps) : (s.withSteps x).freeCtr = s.freeCtr := rfl
@[simp] theorem State.withSteps_dies (s : State) (x : Steps) : (s.withSteps x).dies = s.dies := rfl
@[simp] theorem State.withSteps_media (s : State) (x : Steps) : (s.withSteps x).media = s.media := rfl
@[simp] theorem State.withSteps_compute (s : State) (x : Steps) : (s.withSteps x).compute = s.compute := rfl
@[simp] theorem State.withSteps_tiers (s : State) (x : Steps) : (s.withSteps x).tiers = s.tiers := rfl
@[simp] theorem State.withSteps_items (s : State) (x : Steps) : (s.withSteps x).items = s.items := rfl
@[simp] theorem State.withSteps_serv (s : State) (x : Steps) : (s.withSteps x).serv = s.serv := rfl
@[simp] theorem State.withSteps_span (s : State) (x : Steps) : (s.withSteps x).span = s.span := rfl
@[simp] theorem State.withSteps_host (s : State) (x : Steps) : (s.withSteps x).host = s.host := rfl
@[simp] theorem State.withSteps_regul (s : State) (x : Steps) : (s.withSteps x).regul = s.regul := rfl
@[simp] theorem State.withSteps_integ (s : State) (x : Steps) : (s.withSteps x).integ = s.integ := rfl
@[simp] theorem State.withSteps_events (s : State) (x : Steps) : (s.withSteps x).events = s.events := rfl
@[simp] theorem State.withSteps_health (s : State) (x : Steps) : (s.withSteps x).health = s.health := rfl
@[simp] theorem State.withSteps_power (s : State) (x : Steps) : (s.withSteps x).power = s.power := rfl
@[simp] theorem State.withSteps_sec (s : State) (x : Steps) : (s.withSteps x).sec = s.sec := rfl
@[simp] theorem State.withSteps_smbus (s : State) (x : Steps) : (s.withSteps x).smbus = s.smbus := rfl

@[simp] theorem State.secure_pending (s : State) : s.secure.pending = s.pending := rfl
@[simp] theorem State.secure_now (s : State) : s.secure.now = s.now := rfl
@[simp] theorem State.secure_freeCtr (s : State) : s.secure.freeCtr = s.freeCtr := rfl
@[simp] theorem State.secure_dies (s : State) : s.secure.dies = s.dies := rfl
@[simp] theorem State.secure_media (s : State) : s.secure.media = s.media := rfl
@[simp] theorem State.secure_compute (s : State) : s.secure.compute = s.compute := rfl
@[simp] theorem State.secure_steps (s : State) : s.secure.steps = s.steps := rfl
@[simp] theorem State.secure_tiers (s : State) : s.secure.tiers = s.tiers := rfl
@[simp] theorem State.secure_items (s : State) : s.secure.items = s.items := rfl
@[simp] theorem State.secure_serv (s : State) : s.secure.serv = s.serv := rfl
@[simp] theorem State.secure_span (s : State) : s.secure.span = s.span := rfl
@[simp] theorem State.secure_host (s : State) : s.secure.host = s.host := rfl
@[simp] theorem State.secure_regul (s : State) : s.secure.regul = s.regul := rfl
@[simp] theorem State.secure_integ (s : State) : s.secure.integ = s.integ := rfl
@[simp] theorem State.secure_events (s : State) : s.secure.events = s.events := rfl
@[simp] theorem State.secure_health (s : State) : s.secure.health = s.health := rfl
@[simp] theorem State.secure_power (s : State) : s.secure.power = s.power := rfl
@[simp] theorem State.secure_smbus (s : State) : s.secure.smbus = s.smbus := rfl

@[simp] theorem State.destroyKey_pending (s : State) : s.destroyKey.pending = s.pending := rfl
@[simp] theorem State.destroyKey_now (s : State) : s.destroyKey.now = s.now := rfl
@[simp] theorem State.destroyKey_freeCtr (s : State) : s.destroyKey.freeCtr = s.freeCtr := rfl
@[simp] theorem State.destroyKey_dies (s : State) : s.destroyKey.dies = s.dies := rfl
@[simp] theorem State.destroyKey_compute (s : State) : s.destroyKey.compute = s.compute := rfl
@[simp] theorem State.destroyKey_steps (s : State) : s.destroyKey.steps = s.steps := rfl
@[simp] theorem State.destroyKey_tiers (s : State) : s.destroyKey.tiers = s.tiers := rfl
@[simp] theorem State.destroyKey_items (s : State) : s.destroyKey.items = s.items := rfl
@[simp] theorem State.destroyKey_serv (s : State) : s.destroyKey.serv = s.serv := rfl
@[simp] theorem State.destroyKey_span (s : State) : s.destroyKey.span = s.span := rfl
@[simp] theorem State.destroyKey_host (s : State) : s.destroyKey.host = s.host := rfl
@[simp] theorem State.destroyKey_regul (s : State) : s.destroyKey.regul = s.regul := rfl
@[simp] theorem State.destroyKey_integ (s : State) : s.destroyKey.integ = s.integ := rfl
@[simp] theorem State.destroyKey_events (s : State) : s.destroyKey.events = s.events := rfl
@[simp] theorem State.destroyKey_health (s : State) : s.destroyKey.health = s.health := rfl
@[simp] theorem State.destroyKey_power (s : State) : s.destroyKey.power = s.power := rfl
@[simp] theorem State.destroyKey_smbus (s : State) : s.destroyKey.smbus = s.smbus := rfl

@[simp] theorem State.jigChange_pending (s : State) (f : Jig → Jig) : (s.jigChange f).pending = s.pending := rfl
@[simp] theorem State.jigChange_now (s : State) (f : Jig → Jig) : (s.jigChange f).now = s.now := rfl
@[simp] theorem State.jigChange_freeCtr (s : State) (f : Jig → Jig) : (s.jigChange f).freeCtr = s.freeCtr := rfl
@[simp] theorem State.jigChange_dies (s : State) (f : Jig → Jig) : (s.jigChange f).dies = s.dies := rfl
@[simp] theorem State.jigChange_media (s : State) (f : Jig → Jig) : (s.jigChange f).media = s.media := rfl
@[simp] theorem State.jigChange_compute (s : State) (f : Jig → Jig) : (s.jigChange f).compute = s.compute := rfl
@[simp] theorem State.jigChange_steps (s : State) (f : Jig → Jig) : (s.jigChange f).steps = s.steps := rfl
@[simp] theorem State.jigChange_tiers (s : State) (f : Jig → Jig) : (s.jigChange f).tiers = s.tiers := rfl
@[simp] theorem State.jigChange_items (s : State) (f : Jig → Jig) : (s.jigChange f).items = s.items := rfl
@[simp] theorem State.jigChange_serv (s : State) (f : Jig → Jig) : (s.jigChange f).serv = s.serv := rfl
@[simp] theorem State.jigChange_span (s : State) (f : Jig → Jig) : (s.jigChange f).span = s.span := rfl
@[simp] theorem State.jigChange_host (s : State) (f : Jig → Jig) : (s.jigChange f).host = s.host := rfl
@[simp] theorem State.jigChange_regul (s : State) (f : Jig → Jig) : (s.jigChange f).regul = s.regul := rfl
@[simp] theorem State.jigChange_events (s : State) (f : Jig → Jig) : (s.jigChange f).events = s.events := rfl
@[simp] theorem State.jigChange_health (s : State) (f : Jig → Jig) : (s.jigChange f).health = s.health := rfl
@[simp] theorem State.jigChange_power (s : State) (f : Jig → Jig) : (s.jigChange f).power = s.power := rfl
@[simp] theorem State.jigChange_sec (s : State) (f : Jig → Jig) : (s.jigChange f).sec = s.sec := rfl
@[simp] theorem State.jigChange_smbus (s : State) (f : Jig → Jig) : (s.jigChange f).smbus = s.smbus := rfl

@[simp] theorem State.goTo_pending (s : State) (t pc : Nat) : (s.goTo t pc).pending = s.pending := rfl
@[simp] theorem State.goTo_now (s : State) (t pc : Nat) : (s.goTo t pc).now = s.now := rfl
@[simp] theorem State.goTo_freeCtr (s : State) (t pc : Nat) : (s.goTo t pc).freeCtr = s.freeCtr := rfl
@[simp] theorem State.goTo_dies (s : State) (t pc : Nat) : (s.goTo t pc).dies = s.dies := rfl
@[simp] theorem State.goTo_media (s : State) (t pc : Nat) : (s.goTo t pc).media = s.media := rfl
@[simp] theorem State.goTo_steps (s : State) (t pc : Nat) : (s.goTo t pc).steps = s.steps := rfl
@[simp] theorem State.goTo_tiers (s : State) (t pc : Nat) : (s.goTo t pc).tiers = s.tiers := rfl
@[simp] theorem State.goTo_items (s : State) (t pc : Nat) : (s.goTo t pc).items = s.items := rfl
@[simp] theorem State.goTo_serv (s : State) (t pc : Nat) : (s.goTo t pc).serv = s.serv := rfl
@[simp] theorem State.goTo_span (s : State) (t pc : Nat) : (s.goTo t pc).span = s.span := rfl
@[simp] theorem State.goTo_host (s : State) (t pc : Nat) : (s.goTo t pc).host = s.host := rfl
@[simp] theorem State.goTo_regul (s : State) (t pc : Nat) : (s.goTo t pc).regul = s.regul := rfl
@[simp] theorem State.goTo_integ (s : State) (t pc : Nat) : (s.goTo t pc).integ = s.integ := rfl
@[simp] theorem State.goTo_events (s : State) (t pc : Nat) : (s.goTo t pc).events = s.events := rfl
@[simp] theorem State.goTo_health (s : State) (t pc : Nat) : (s.goTo t pc).health = s.health := rfl
@[simp] theorem State.goTo_power (s : State) (t pc : Nat) : (s.goTo t pc).power = s.power := rfl
@[simp] theorem State.goTo_sec (s : State) (t pc : Nat) : (s.goTo t pc).sec = s.sec := rfl
@[simp] theorem State.goTo_smbus (s : State) (t pc : Nat) : (s.goTo t pc).smbus = s.smbus := rfl

@[simp] theorem State.fly_pending (s : State) (t : Nat) (ranges : List Range) : (s.fly t ranges).pending = s.pending := rfl
@[simp] theorem State.fly_now (s : State) (t : Nat) (ranges : List Range) : (s.fly t ranges).now = s.now := rfl
@[simp] theorem State.fly_freeCtr (s : State) (t : Nat) (ranges : List Range) : (s.fly t ranges).freeCtr = s.freeCtr := rfl
@[simp] theorem State.fly_dies (s : State) (t : Nat) (ranges : List Range) : (s.fly t ranges).dies = s.dies := rfl
@[simp] theorem State.fly_media (s : State) (t : Nat) (ranges : List Range) : (s.fly t ranges).media = s.media := rfl
@[simp] theorem State.fly_steps (s : State) (t : Nat) (ranges : List Range) : (s.fly t ranges).steps = s.steps := rfl
@[simp] theorem State.fly_tiers (s : State) (t : Nat) (ranges : List Range) : (s.fly t ranges).tiers = s.tiers := rfl
@[simp] theorem State.fly_items (s : State) (t : Nat) (ranges : List Range) : (s.fly t ranges).items = s.items := rfl
@[simp] theorem State.fly_serv (s : State) (t : Nat) (ranges : List Range) : (s.fly t ranges).serv = s.serv := rfl
@[simp] theorem State.fly_span (s : State) (t : Nat) (ranges : List Range) : (s.fly t ranges).span = s.span := rfl
@[simp] theorem State.fly_host (s : State) (t : Nat) (ranges : List Range) : (s.fly t ranges).host = s.host := rfl
@[simp] theorem State.fly_regul (s : State) (t : Nat) (ranges : List Range) : (s.fly t ranges).regul = s.regul := rfl
@[simp] theorem State.fly_integ (s : State) (t : Nat) (ranges : List Range) : (s.fly t ranges).integ = s.integ := rfl
@[simp] theorem State.fly_events (s : State) (t : Nat) (ranges : List Range) : (s.fly t ranges).events = s.events := rfl
@[simp] theorem State.fly_health (s : State) (t : Nat) (ranges : List Range) : (s.fly t ranges).health = s.health := rfl
@[simp] theorem State.fly_power (s : State) (t : Nat) (ranges : List Range) : (s.fly t ranges).power = s.power := rfl
@[simp] theorem State.fly_sec (s : State) (t : Nat) (ranges : List Range) : (s.fly t ranges).sec = s.sec := rfl
@[simp] theorem State.fly_smbus (s : State) (t : Nat) (ranges : List Range) : (s.fly t ranges).smbus = s.smbus := rfl

@[simp] theorem State.fillTile_pending (s : State) (c : CoreNo) (mm : MmOp) (dest bytes : Nat) : (s.fillTile c mm dest bytes).pending = s.pending := rfl
@[simp] theorem State.fillTile_now (s : State) (c : CoreNo) (mm : MmOp) (dest bytes : Nat) : (s.fillTile c mm dest bytes).now = s.now := rfl
@[simp] theorem State.fillTile_freeCtr (s : State) (c : CoreNo) (mm : MmOp) (dest bytes : Nat) : (s.fillTile c mm dest bytes).freeCtr = s.freeCtr := rfl
@[simp] theorem State.fillTile_dies (s : State) (c : CoreNo) (mm : MmOp) (dest bytes : Nat) : (s.fillTile c mm dest bytes).dies = s.dies := rfl
@[simp] theorem State.fillTile_media (s : State) (c : CoreNo) (mm : MmOp) (dest bytes : Nat) : (s.fillTile c mm dest bytes).media = s.media := rfl
@[simp] theorem State.fillTile_steps (s : State) (c : CoreNo) (mm : MmOp) (dest bytes : Nat) : (s.fillTile c mm dest bytes).steps = s.steps := rfl
@[simp] theorem State.fillTile_tiers (s : State) (c : CoreNo) (mm : MmOp) (dest bytes : Nat) : (s.fillTile c mm dest bytes).tiers = s.tiers := rfl
@[simp] theorem State.fillTile_items (s : State) (c : CoreNo) (mm : MmOp) (dest bytes : Nat) : (s.fillTile c mm dest bytes).items = s.items := rfl
@[simp] theorem State.fillTile_serv (s : State) (c : CoreNo) (mm : MmOp) (dest bytes : Nat) : (s.fillTile c mm dest bytes).serv = s.serv := rfl
@[simp] theorem State.fillTile_span (s : State) (c : CoreNo) (mm : MmOp) (dest bytes : Nat) : (s.fillTile c mm dest bytes).span = s.span := rfl
@[simp] theorem State.fillTile_host (s : State) (c : CoreNo) (mm : MmOp) (dest bytes : Nat) : (s.fillTile c mm dest bytes).host = s.host := rfl
@[simp] theorem State.fillTile_regul (s : State) (c : CoreNo) (mm : MmOp) (dest bytes : Nat) : (s.fillTile c mm dest bytes).regul = s.regul := rfl
@[simp] theorem State.fillTile_integ (s : State) (c : CoreNo) (mm : MmOp) (dest bytes : Nat) : (s.fillTile c mm dest bytes).integ = s.integ := rfl
@[simp] theorem State.fillTile_events (s : State) (c : CoreNo) (mm : MmOp) (dest bytes : Nat) : (s.fillTile c mm dest bytes).events = s.events := rfl
@[simp] theorem State.fillTile_health (s : State) (c : CoreNo) (mm : MmOp) (dest bytes : Nat) : (s.fillTile c mm dest bytes).health = s.health := rfl
@[simp] theorem State.fillTile_power (s : State) (c : CoreNo) (mm : MmOp) (dest bytes : Nat) : (s.fillTile c mm dest bytes).power = s.power := rfl
@[simp] theorem State.fillTile_sec (s : State) (c : CoreNo) (mm : MmOp) (dest bytes : Nat) : (s.fillTile c mm dest bytes).sec = s.sec := rfl
@[simp] theorem State.fillTile_smbus (s : State) (c : CoreNo) (mm : MmOp) (dest bytes : Nat) : (s.fillTile c mm dest bytes).smbus = s.smbus := rfl

@[simp] theorem State.clockStep_pending (s : State) (q : Nat) (up : Bool) : (s.clockStep q up).pending = s.pending := rfl
@[simp] theorem State.clockStep_now (s : State) (q : Nat) (up : Bool) : (s.clockStep q up).now = s.now := rfl
@[simp] theorem State.clockStep_freeCtr (s : State) (q : Nat) (up : Bool) : (s.clockStep q up).freeCtr = s.freeCtr := rfl
@[simp] theorem State.clockStep_dies (s : State) (q : Nat) (up : Bool) : (s.clockStep q up).dies = s.dies := rfl
@[simp] theorem State.clockStep_media (s : State) (q : Nat) (up : Bool) : (s.clockStep q up).media = s.media := rfl
@[simp] theorem State.clockStep_compute (s : State) (q : Nat) (up : Bool) : (s.clockStep q up).compute = s.compute := rfl
@[simp] theorem State.clockStep_steps (s : State) (q : Nat) (up : Bool) : (s.clockStep q up).steps = s.steps := rfl
@[simp] theorem State.clockStep_tiers (s : State) (q : Nat) (up : Bool) : (s.clockStep q up).tiers = s.tiers := rfl
@[simp] theorem State.clockStep_items (s : State) (q : Nat) (up : Bool) : (s.clockStep q up).items = s.items := rfl
@[simp] theorem State.clockStep_serv (s : State) (q : Nat) (up : Bool) : (s.clockStep q up).serv = s.serv := rfl
@[simp] theorem State.clockStep_span (s : State) (q : Nat) (up : Bool) : (s.clockStep q up).span = s.span := rfl
@[simp] theorem State.clockStep_host (s : State) (q : Nat) (up : Bool) : (s.clockStep q up).host = s.host := rfl
@[simp] theorem State.clockStep_regul (s : State) (q : Nat) (up : Bool) : (s.clockStep q up).regul = s.regul := rfl
@[simp] theorem State.clockStep_integ (s : State) (q : Nat) (up : Bool) : (s.clockStep q up).integ = s.integ := rfl
@[simp] theorem State.clockStep_events (s : State) (q : Nat) (up : Bool) : (s.clockStep q up).events = s.events := rfl
@[simp] theorem State.clockStep_health (s : State) (q : Nat) (up : Bool) : (s.clockStep q up).health = s.health := rfl
@[simp] theorem State.clockStep_sec (s : State) (q : Nat) (up : Bool) : (s.clockStep q up).sec = s.sec := rfl
@[simp] theorem State.clockStep_smbus (s : State) (q : Nat) (up : Bool) : (s.clockStep q up).smbus = s.smbus := rfl

@[simp] theorem State.setErr_now (s : State) (i : Nat) : (s.setErr i).now = s.now := by simp [State.setErr]
@[simp] theorem State.setErr_freeCtr (s : State) (i : Nat) : (s.setErr i).freeCtr = s.freeCtr := by simp [State.setErr]
@[simp] theorem State.setErr_dies (s : State) (i : Nat) : (s.setErr i).dies = s.dies := by simp [State.setErr]
@[simp] theorem State.setErr_media (s : State) (i : Nat) : (s.setErr i).media = s.media := by simp [State.setErr]
@[simp] theorem State.setErr_compute (s : State) (i : Nat) : (s.setErr i).compute = s.compute := by simp [State.setErr]
@[simp] theorem State.setErr_steps (s : State) (i : Nat) : (s.setErr i).steps = s.steps := by simp [State.setErr]
@[simp] theorem State.setErr_tiers (s : State) (i : Nat) : (s.setErr i).tiers = s.tiers := by simp [State.setErr]
@[simp] theorem State.setErr_items (s : State) (i : Nat) : (s.setErr i).items = s.items := by simp [State.setErr]
@[simp] theorem State.setErr_serv (s : State) (i : Nat) : (s.setErr i).serv = s.serv := by simp [State.setErr]
@[simp] theorem State.setErr_span (s : State) (i : Nat) : (s.setErr i).span = s.span := by simp [State.setErr]
@[simp] theorem State.setErr_regul (s : State) (i : Nat) : (s.setErr i).regul = s.regul := by simp [State.setErr]
@[simp] theorem State.setErr_events (s : State) (i : Nat) : (s.setErr i).events = s.events := by simp [State.setErr]
@[simp] theorem State.setErr_health (s : State) (i : Nat) : (s.setErr i).health = s.health := by simp [State.setErr]
@[simp] theorem State.setErr_power (s : State) (i : Nat) : (s.setErr i).power = s.power := by simp [State.setErr]
@[simp] theorem State.setErr_sec (s : State) (i : Nat) : (s.setErr i).sec = s.sec := by simp [State.setErr]
@[simp] theorem State.setErr_smbus (s : State) (i : Nat) : (s.setErr i).smbus = s.smbus := by simp [State.setErr]

@[simp] theorem State.setDivisor_pending (s : State) (k : RegionCls) (n a : Nat) : (s.setDivisor k n a).pending = s.pending := by simp [State.setDivisor]
@[simp] theorem State.setDivisor_now (s : State) (k : RegionCls) (n a : Nat) : (s.setDivisor k n a).now = s.now := by simp [State.setDivisor]
@[simp] theorem State.setDivisor_freeCtr (s : State) (k : RegionCls) (n a : Nat) : (s.setDivisor k n a).freeCtr = s.freeCtr := by simp [State.setDivisor]
@[simp] theorem State.setDivisor_dies (s : State) (k : RegionCls) (n a : Nat) : (s.setDivisor k n a).dies = s.dies := by simp [State.setDivisor]
@[simp] theorem State.setDivisor_media (s : State) (k : RegionCls) (n a : Nat) : (s.setDivisor k n a).media = s.media := by simp [State.setDivisor]
@[simp] theorem State.setDivisor_compute (s : State) (k : RegionCls) (n a : Nat) : (s.setDivisor k n a).compute = s.compute := by simp [State.setDivisor]
@[simp] theorem State.setDivisor_steps (s : State) (k : RegionCls) (n a : Nat) : (s.setDivisor k n a).steps = s.steps := by simp [State.setDivisor]
@[simp] theorem State.setDivisor_tiers (s : State) (k : RegionCls) (n a : Nat) : (s.setDivisor k n a).tiers = s.tiers := by simp [State.setDivisor]
@[simp] theorem State.setDivisor_items (s : State) (k : RegionCls) (n a : Nat) : (s.setDivisor k n a).items = s.items := by simp [State.setDivisor]
@[simp] theorem State.setDivisor_serv (s : State) (k : RegionCls) (n a : Nat) : (s.setDivisor k n a).serv = s.serv := by simp [State.setDivisor]
@[simp] theorem State.setDivisor_span (s : State) (k : RegionCls) (n a : Nat) : (s.setDivisor k n a).span = s.span := by simp [State.setDivisor]
@[simp] theorem State.setDivisor_host (s : State) (k : RegionCls) (n a : Nat) : (s.setDivisor k n a).host = s.host := by simp [State.setDivisor]
@[simp] theorem State.setDivisor_regul (s : State) (k : RegionCls) (n a : Nat) : (s.setDivisor k n a).regul = s.regul := by simp [State.setDivisor]
@[simp] theorem State.setDivisor_health (s : State) (k : RegionCls) (n a : Nat) : (s.setDivisor k n a).health = s.health := by simp [State.setDivisor]
@[simp] theorem State.setDivisor_power (s : State) (k : RegionCls) (n a : Nat) : (s.setDivisor k n a).power = s.power := by simp [State.setDivisor]
@[simp] theorem State.setDivisor_sec (s : State) (k : RegionCls) (n a : Nat) : (s.setDivisor k n a).sec = s.sec := by simp [State.setDivisor]
@[simp] theorem State.setDivisor_smbus (s : State) (k : RegionCls) (n a : Nat) : (s.setDivisor k n a).smbus = s.smbus := by simp [State.setDivisor]

@[simp] theorem State.correctable_now (s : State) (k : RegionCls) (n : Nat) : (s.correctable k n).now = s.now := by simp [State.correctable]
@[simp] theorem State.correctable_freeCtr (s : State) (k : RegionCls) (n : Nat) : (s.correctable k n).freeCtr = s.freeCtr := by simp [State.correctable]
@[simp] theorem State.correctable_dies (s : State) (k : RegionCls) (n : Nat) : (s.correctable k n).dies = s.dies := by simp [State.correctable]
@[simp] theorem State.correctable_media (s : State) (k : RegionCls) (n : Nat) : (s.correctable k n).media = s.media := by simp [State.correctable]
@[simp] theorem State.correctable_compute (s : State) (k : RegionCls) (n : Nat) : (s.correctable k n).compute = s.compute := by simp [State.correctable]
@[simp] theorem State.correctable_steps (s : State) (k : RegionCls) (n : Nat) : (s.correctable k n).steps = s.steps := by simp [State.correctable]
@[simp] theorem State.correctable_tiers (s : State) (k : RegionCls) (n : Nat) : (s.correctable k n).tiers = s.tiers := by simp [State.correctable]
@[simp] theorem State.correctable_items (s : State) (k : RegionCls) (n : Nat) : (s.correctable k n).items = s.items := by simp [State.correctable]
@[simp] theorem State.correctable_serv (s : State) (k : RegionCls) (n : Nat) : (s.correctable k n).serv = s.serv := by simp [State.correctable]
@[simp] theorem State.correctable_span (s : State) (k : RegionCls) (n : Nat) : (s.correctable k n).span = s.span := by simp [State.correctable]
@[simp] theorem State.correctable_regul (s : State) (k : RegionCls) (n : Nat) : (s.correctable k n).regul = s.regul := by simp [State.correctable]
@[simp] theorem State.correctable_power (s : State) (k : RegionCls) (n : Nat) : (s.correctable k n).power = s.power := by simp [State.correctable]
@[simp] theorem State.correctable_sec (s : State) (k : RegionCls) (n : Nat) : (s.correctable k n).sec = s.sec := by simp [State.correctable]
@[simp] theorem State.correctable_smbus (s : State) (k : RegionCls) (n : Nat) : (s.correctable k n).smbus = s.smbus := by simp [State.correctable]

@[simp] theorem State.pathError_now (s : State) (p : Parity) : (s.pathError p).now = s.now := by simp only [State.pathError]; split <;> simp
@[simp] theorem State.pathError_freeCtr (s : State) (p : Parity) : (s.pathError p).freeCtr = s.freeCtr := by simp only [State.pathError]; split <;> simp
@[simp] theorem State.pathError_dies (s : State) (p : Parity) : (s.pathError p).dies = s.dies := by simp only [State.pathError]; split <;> simp
@[simp] theorem State.pathError_media (s : State) (p : Parity) : (s.pathError p).media = s.media := by simp only [State.pathError]; split <;> simp
@[simp] theorem State.pathError_compute (s : State) (p : Parity) : (s.pathError p).compute = s.compute := by simp only [State.pathError]; split <;> simp
@[simp] theorem State.pathError_steps (s : State) (p : Parity) : (s.pathError p).steps = s.steps := by simp only [State.pathError]; split <;> simp
@[simp] theorem State.pathError_tiers (s : State) (p : Parity) : (s.pathError p).tiers = s.tiers := by simp only [State.pathError]; split <;> simp
@[simp] theorem State.pathError_items (s : State) (p : Parity) : (s.pathError p).items = s.items := by simp only [State.pathError]; split <;> simp
@[simp] theorem State.pathError_serv (s : State) (p : Parity) : (s.pathError p).serv = s.serv := by simp only [State.pathError]; split <;> simp
@[simp] theorem State.pathError_span (s : State) (p : Parity) : (s.pathError p).span = s.span := by simp only [State.pathError]; split <;> simp
@[simp] theorem State.pathError_regul (s : State) (p : Parity) : (s.pathError p).regul = s.regul := by simp only [State.pathError]; split <;> simp
@[simp] theorem State.pathError_power (s : State) (p : Parity) : (s.pathError p).power = s.power := by simp only [State.pathError]; split <;> simp
@[simp] theorem State.pathError_sec (s : State) (p : Parity) : (s.pathError p).sec = s.sec := by simp only [State.pathError]; split <;> simp
@[simp] theorem State.pathError_smbus (s : State) (p : Parity) : (s.pathError p).smbus = s.smbus := by simp only [State.pathError]; split <;> simp

@[simp] theorem State.saturated_pending (s : State) (c : CoreNo) (j n : Nat) : (s.saturated c j n).pending = s.pending := by simp [State.saturated]
@[simp] theorem State.saturated_now (s : State) (c : CoreNo) (j n : Nat) : (s.saturated c j n).now = s.now := by simp [State.saturated]
@[simp] theorem State.saturated_freeCtr (s : State) (c : CoreNo) (j n : Nat) : (s.saturated c j n).freeCtr = s.freeCtr := by simp [State.saturated]
@[simp] theorem State.saturated_dies (s : State) (c : CoreNo) (j n : Nat) : (s.saturated c j n).dies = s.dies := by simp [State.saturated]
@[simp] theorem State.saturated_media (s : State) (c : CoreNo) (j n : Nat) : (s.saturated c j n).media = s.media := by simp [State.saturated]
@[simp] theorem State.saturated_steps (s : State) (c : CoreNo) (j n : Nat) : (s.saturated c j n).steps = s.steps := by simp [State.saturated]
@[simp] theorem State.saturated_tiers (s : State) (c : CoreNo) (j n : Nat) : (s.saturated c j n).tiers = s.tiers := by simp [State.saturated]
@[simp] theorem State.saturated_items (s : State) (c : CoreNo) (j n : Nat) : (s.saturated c j n).items = s.items := by simp [State.saturated]
@[simp] theorem State.saturated_serv (s : State) (c : CoreNo) (j n : Nat) : (s.saturated c j n).serv = s.serv := by simp [State.saturated]
@[simp] theorem State.saturated_span (s : State) (c : CoreNo) (j n : Nat) : (s.saturated c j n).span = s.span := by simp [State.saturated]
@[simp] theorem State.saturated_host (s : State) (c : CoreNo) (j n : Nat) : (s.saturated c j n).host = s.host := by simp [State.saturated]
@[simp] theorem State.saturated_regul (s : State) (c : CoreNo) (j n : Nat) : (s.saturated c j n).regul = s.regul := by simp [State.saturated]
@[simp] theorem State.saturated_integ (s : State) (c : CoreNo) (j n : Nat) : (s.saturated c j n).integ = s.integ := by simp [State.saturated]
@[simp] theorem State.saturated_events (s : State) (c : CoreNo) (j n : Nat) : (s.saturated c j n).events = s.events := by simp [State.saturated]
@[simp] theorem State.saturated_health (s : State) (c : CoreNo) (j n : Nat) : (s.saturated c j n).health = s.health := by simp [State.saturated]
@[simp] theorem State.saturated_power (s : State) (c : CoreNo) (j n : Nat) : (s.saturated c j n).power = s.power := by simp [State.saturated]
@[simp] theorem State.saturated_sec (s : State) (c : CoreNo) (j n : Nat) : (s.saturated c j n).sec = s.sec := by simp [State.saturated]
@[simp] theorem State.saturated_smbus (s : State) (c : CoreNo) (j n : Nat) : (s.saturated c j n).smbus = s.smbus := by simp [State.saturated]

@[simp] theorem State.heal_pending (s : State) (region inst a n : Nat) : (s.heal region inst a n).pending = s.pending := rfl
@[simp] theorem State.heal_now (s : State) (region inst a n : Nat) : (s.heal region inst a n).now = s.now := rfl
@[simp] theorem State.heal_freeCtr (s : State) (region inst a n : Nat) : (s.heal region inst a n).freeCtr = s.freeCtr := rfl
@[simp] theorem State.heal_dies (s : State) (region inst a n : Nat) : (s.heal region inst a n).dies = s.dies := rfl
@[simp] theorem State.heal_media (s : State) (region inst a n : Nat) : (s.heal region inst a n).media = s.media := rfl
@[simp] theorem State.heal_compute (s : State) (region inst a n : Nat) : (s.heal region inst a n).compute = s.compute := rfl
@[simp] theorem State.heal_steps (s : State) (region inst a n : Nat) : (s.heal region inst a n).steps = s.steps := rfl
@[simp] theorem State.heal_tiers (s : State) (region inst a n : Nat) : (s.heal region inst a n).tiers = s.tiers := rfl
@[simp] theorem State.heal_items (s : State) (region inst a n : Nat) : (s.heal region inst a n).items = s.items := rfl
@[simp] theorem State.heal_serv (s : State) (region inst a n : Nat) : (s.heal region inst a n).serv = s.serv := rfl
@[simp] theorem State.heal_span (s : State) (region inst a n : Nat) : (s.heal region inst a n).span = s.span := rfl
@[simp] theorem State.heal_host (s : State) (region inst a n : Nat) : (s.heal region inst a n).host = s.host := rfl
@[simp] theorem State.heal_regul (s : State) (region inst a n : Nat) : (s.heal region inst a n).regul = s.regul := rfl
@[simp] theorem State.heal_events (s : State) (region inst a n : Nat) : (s.heal region inst a n).events = s.events := rfl
@[simp] theorem State.heal_health (s : State) (region inst a n : Nat) : (s.heal region inst a n).health = s.health := rfl
@[simp] theorem State.heal_power (s : State) (region inst a n : Nat) : (s.heal region inst a n).power = s.power := rfl
@[simp] theorem State.heal_sec (s : State) (region inst a n : Nat) : (s.heal region inst a n).sec = s.sec := rfl
@[simp] theorem State.heal_smbus (s : State) (region inst a n : Nat) : (s.heal region inst a n).smbus = s.smbus := rfl

@[simp] theorem State.healBlocks_pending (s : State) (a n : Nat) : (s.healBlocks a n).pending = s.pending := rfl
@[simp] theorem State.healBlocks_now (s : State) (a n : Nat) : (s.healBlocks a n).now = s.now := rfl
@[simp] theorem State.healBlocks_freeCtr (s : State) (a n : Nat) : (s.healBlocks a n).freeCtr = s.freeCtr := rfl
@[simp] theorem State.healBlocks_dies (s : State) (a n : Nat) : (s.healBlocks a n).dies = s.dies := rfl
@[simp] theorem State.healBlocks_media (s : State) (a n : Nat) : (s.healBlocks a n).media = s.media := rfl
@[simp] theorem State.healBlocks_compute (s : State) (a n : Nat) : (s.healBlocks a n).compute = s.compute := rfl
@[simp] theorem State.healBlocks_steps (s : State) (a n : Nat) : (s.healBlocks a n).steps = s.steps := rfl
@[simp] theorem State.healBlocks_items (s : State) (a n : Nat) : (s.healBlocks a n).items = s.items := rfl
@[simp] theorem State.healBlocks_serv (s : State) (a n : Nat) : (s.healBlocks a n).serv = s.serv := rfl
@[simp] theorem State.healBlocks_span (s : State) (a n : Nat) : (s.healBlocks a n).span = s.span := rfl
@[simp] theorem State.healBlocks_host (s : State) (a n : Nat) : (s.healBlocks a n).host = s.host := rfl
@[simp] theorem State.healBlocks_regul (s : State) (a n : Nat) : (s.healBlocks a n).regul = s.regul := rfl
@[simp] theorem State.healBlocks_integ (s : State) (a n : Nat) : (s.healBlocks a n).integ = s.integ := rfl
@[simp] theorem State.healBlocks_events (s : State) (a n : Nat) : (s.healBlocks a n).events = s.events := rfl
@[simp] theorem State.healBlocks_health (s : State) (a n : Nat) : (s.healBlocks a n).health = s.health := rfl
@[simp] theorem State.healBlocks_power (s : State) (a n : Nat) : (s.healBlocks a n).power = s.power := rfl
@[simp] theorem State.healBlocks_sec (s : State) (a n : Nat) : (s.healBlocks a n).sec = s.sec := rfl
@[simp] theorem State.healBlocks_smbus (s : State) (a n : Nat) : (s.healBlocks a n).smbus = s.smbus := rfl

@[simp] theorem State.healCache_pending (s : State) (a n : Nat) : (s.healCache a n).pending = s.pending := by unfold State.healCache; split; rfl; exact State.foldl_pending _ (fun s q => State.heal_pending s 1 q a n) _ _
@[simp] theorem State.healCache_now (s : State) (a n : Nat) : (s.healCache a n).now = s.now := by unfold State.healCache; split; rfl; exact State.foldl_now _ (fun s q => State.heal_now s 1 q a n) _ _
@[simp] theorem State.healCache_freeCtr (s : State) (a n : Nat) : (s.healCache a n).freeCtr = s.freeCtr := by unfold State.healCache; split; rfl; exact State.foldl_freeCtr _ (fun s q => State.heal_freeCtr s 1 q a n) _ _
@[simp] theorem State.healCache_dies (s : State) (a n : Nat) : (s.healCache a n).dies = s.dies := by unfold State.healCache; split; rfl; exact State.foldl_dies _ (fun s q => State.heal_dies s 1 q a n) _ _
@[simp] theorem State.healCache_media (s : State) (a n : Nat) : (s.healCache a n).media = s.media := by unfold State.healCache; split; rfl; exact State.foldl_media _ (fun s q => State.heal_media s 1 q a n) _ _
@[simp] theorem State.healCache_compute (s : State) (a n : Nat) : (s.healCache a n).compute = s.compute := by unfold State.healCache; split; rfl; exact State.foldl_compute _ (fun s q => State.heal_compute s 1 q a n) _ _
@[simp] theorem State.healCache_steps (s : State) (a n : Nat) : (s.healCache a n).steps = s.steps := by unfold State.healCache; split; rfl; exact State.foldl_steps _ (fun s q => State.heal_steps s 1 q a n) _ _
@[simp] theorem State.healCache_items (s : State) (a n : Nat) : (s.healCache a n).items = s.items := by unfold State.healCache; split; rfl; exact State.foldl_items _ (fun s q => State.heal_items s 1 q a n) _ _
@[simp] theorem State.healCache_serv (s : State) (a n : Nat) : (s.healCache a n).serv = s.serv := by unfold State.healCache; split; rfl; exact State.foldl_serv _ (fun s q => State.heal_serv s 1 q a n) _ _
@[simp] theorem State.healCache_span (s : State) (a n : Nat) : (s.healCache a n).span = s.span := by unfold State.healCache; split; rfl; exact State.foldl_span _ (fun s q => State.heal_span s 1 q a n) _ _
@[simp] theorem State.healCache_host (s : State) (a n : Nat) : (s.healCache a n).host = s.host := by unfold State.healCache; split; rfl; exact State.foldl_host _ (fun s q => State.heal_host s 1 q a n) _ _
@[simp] theorem State.healCache_regul (s : State) (a n : Nat) : (s.healCache a n).regul = s.regul := by unfold State.healCache; split; rfl; exact State.foldl_regul _ (fun s q => State.heal_regul s 1 q a n) _ _
@[simp] theorem State.healCache_events (s : State) (a n : Nat) : (s.healCache a n).events = s.events := by unfold State.healCache; split; rfl; exact State.foldl_events _ (fun s q => State.heal_events s 1 q a n) _ _
@[simp] theorem State.healCache_health (s : State) (a n : Nat) : (s.healCache a n).health = s.health := by unfold State.healCache; split; rfl; exact State.foldl_health _ (fun s q => State.heal_health s 1 q a n) _ _
@[simp] theorem State.healCache_power (s : State) (a n : Nat) : (s.healCache a n).power = s.power := by unfold State.healCache; split; rfl; exact State.foldl_power _ (fun s q => State.heal_power s 1 q a n) _ _
@[simp] theorem State.healCache_sec (s : State) (a n : Nat) : (s.healCache a n).sec = s.sec := by unfold State.healCache; split; rfl; exact State.foldl_sec _ (fun s q => State.heal_sec s 1 q a n) _ _
@[simp] theorem State.healCache_smbus (s : State) (a n : Nat) : (s.healCache a n).smbus = s.smbus := by unfold State.healCache; split; rfl; exact State.foldl_smbus _ (fun s q => State.heal_smbus s 1 q a n) _ _

@[simp] theorem State.winWrite_pending (s : State) (j gi : Nat) (off : Nat) (bs : List Byte) : (s.winWrite j gi off bs).pending = s.pending := by simp only [State.winWrite]; split <;> first | rfl | (split <;> simp)
@[simp] theorem State.winWrite_now (s : State) (j gi : Nat) (off : Nat) (bs : List Byte) : (s.winWrite j gi off bs).now = s.now := by simp only [State.winWrite]; split <;> first | rfl | (split <;> simp)
@[simp] theorem State.winWrite_freeCtr (s : State) (j gi : Nat) (off : Nat) (bs : List Byte) : (s.winWrite j gi off bs).freeCtr = s.freeCtr := by simp only [State.winWrite]; split <;> first | rfl | (split <;> simp)
@[simp] theorem State.winWrite_dies (s : State) (j gi : Nat) (off : Nat) (bs : List Byte) : (s.winWrite j gi off bs).dies = s.dies := by simp only [State.winWrite]; split <;> first | rfl | (split <;> simp)
@[simp] theorem State.winWrite_media (s : State) (j gi : Nat) (off : Nat) (bs : List Byte) : (s.winWrite j gi off bs).media = s.media := by simp only [State.winWrite]; split <;> first | rfl | (split <;> simp)
@[simp] theorem State.winWrite_steps (s : State) (j gi : Nat) (off : Nat) (bs : List Byte) : (s.winWrite j gi off bs).steps = s.steps := by simp only [State.winWrite]; split <;> first | rfl | (split <;> simp)
@[simp] theorem State.winWrite_tiers (s : State) (j gi : Nat) (off : Nat) (bs : List Byte) : (s.winWrite j gi off bs).tiers = s.tiers := by simp only [State.winWrite]; split <;> first | rfl | (split <;> simp)
@[simp] theorem State.winWrite_items (s : State) (j gi : Nat) (off : Nat) (bs : List Byte) : (s.winWrite j gi off bs).items = s.items := by simp only [State.winWrite]; split <;> first | rfl | (split <;> simp)
@[simp] theorem State.winWrite_serv (s : State) (j gi : Nat) (off : Nat) (bs : List Byte) : (s.winWrite j gi off bs).serv = s.serv := by simp only [State.winWrite]; split <;> first | rfl | (split <;> simp)
@[simp] theorem State.winWrite_span (s : State) (j gi : Nat) (off : Nat) (bs : List Byte) : (s.winWrite j gi off bs).span = s.span := by simp only [State.winWrite]; split <;> first | rfl | (split <;> simp)
@[simp] theorem State.winWrite_host (s : State) (j gi : Nat) (off : Nat) (bs : List Byte) : (s.winWrite j gi off bs).host = s.host := by simp only [State.winWrite]; split <;> first | rfl | (split <;> simp)
@[simp] theorem State.winWrite_regul (s : State) (j gi : Nat) (off : Nat) (bs : List Byte) : (s.winWrite j gi off bs).regul = s.regul := by simp only [State.winWrite]; split <;> first | rfl | (split <;> simp)
@[simp] theorem State.winWrite_events (s : State) (j gi : Nat) (off : Nat) (bs : List Byte) : (s.winWrite j gi off bs).events = s.events := by simp only [State.winWrite]; split <;> first | rfl | (split <;> simp)
@[simp] theorem State.winWrite_health (s : State) (j gi : Nat) (off : Nat) (bs : List Byte) : (s.winWrite j gi off bs).health = s.health := by simp only [State.winWrite]; split <;> first | rfl | (split <;> simp)
@[simp] theorem State.winWrite_power (s : State) (j gi : Nat) (off : Nat) (bs : List Byte) : (s.winWrite j gi off bs).power = s.power := by simp only [State.winWrite]; split <;> first | rfl | (split <;> simp)
@[simp] theorem State.winWrite_sec (s : State) (j gi : Nat) (off : Nat) (bs : List Byte) : (s.winWrite j gi off bs).sec = s.sec := by simp only [State.winWrite]; split <;> first | rfl | (split <;> simp)
@[simp] theorem State.winWrite_smbus (s : State) (j gi : Nat) (off : Nat) (bs : List Byte) : (s.winWrite j gi off bs).smbus = s.smbus := by simp only [State.winWrite]; split <;> first | rfl | (split <;> simp)

@[simp] theorem State.benchWrite_pending (s : State) (t off : Nat) (bs : List Byte) : (s.benchWrite t off bs).pending = s.pending := by simp only [State.benchWrite]; split <;> simp
@[simp] theorem State.benchWrite_now (s : State) (t off : Nat) (bs : List Byte) : (s.benchWrite t off bs).now = s.now := by simp only [State.benchWrite]; split <;> simp
@[simp] theorem State.benchWrite_freeCtr (s : State) (t off : Nat) (bs : List Byte) : (s.benchWrite t off bs).freeCtr = s.freeCtr := by simp only [State.benchWrite]; split <;> simp
@[simp] theorem State.benchWrite_dies (s : State) (t off : Nat) (bs : List Byte) : (s.benchWrite t off bs).dies = s.dies := by simp only [State.benchWrite]; split <;> simp
@[simp] theorem State.benchWrite_media (s : State) (t off : Nat) (bs : List Byte) : (s.benchWrite t off bs).media = s.media := by simp only [State.benchWrite]; split <;> simp
@[simp] theorem State.benchWrite_steps (s : State) (t off : Nat) (bs : List Byte) : (s.benchWrite t off bs).steps = s.steps := by simp only [State.benchWrite]; split <;> simp
@[simp] theorem State.benchWrite_tiers (s : State) (t off : Nat) (bs : List Byte) : (s.benchWrite t off bs).tiers = s.tiers := by simp only [State.benchWrite]; split <;> simp
@[simp] theorem State.benchWrite_items (s : State) (t off : Nat) (bs : List Byte) : (s.benchWrite t off bs).items = s.items := by simp only [State.benchWrite]; split <;> simp
@[simp] theorem State.benchWrite_serv (s : State) (t off : Nat) (bs : List Byte) : (s.benchWrite t off bs).serv = s.serv := by simp only [State.benchWrite]; split <;> simp
@[simp] theorem State.benchWrite_span (s : State) (t off : Nat) (bs : List Byte) : (s.benchWrite t off bs).span = s.span := by simp only [State.benchWrite]; split <;> simp
@[simp] theorem State.benchWrite_host (s : State) (t off : Nat) (bs : List Byte) : (s.benchWrite t off bs).host = s.host := by simp only [State.benchWrite]; split <;> simp
@[simp] theorem State.benchWrite_regul (s : State) (t off : Nat) (bs : List Byte) : (s.benchWrite t off bs).regul = s.regul := by simp only [State.benchWrite]; split <;> simp
@[simp] theorem State.benchWrite_events (s : State) (t off : Nat) (bs : List Byte) : (s.benchWrite t off bs).events = s.events := by simp only [State.benchWrite]; split <;> simp
@[simp] theorem State.benchWrite_health (s : State) (t off : Nat) (bs : List Byte) : (s.benchWrite t off bs).health = s.health := by simp only [State.benchWrite]; split <;> simp
@[simp] theorem State.benchWrite_power (s : State) (t off : Nat) (bs : List Byte) : (s.benchWrite t off bs).power = s.power := by simp only [State.benchWrite]; split <;> simp
@[simp] theorem State.benchWrite_sec (s : State) (t off : Nat) (bs : List Byte) : (s.benchWrite t off bs).sec = s.sec := by simp only [State.benchWrite]; split <;> simp
@[simp] theorem State.benchWrite_smbus (s : State) (t off : Nat) (bs : List Byte) : (s.benchWrite t off bs).smbus = s.smbus := by simp only [State.benchWrite]; split <;> simp

@[simp] theorem State.hbmWrite_pending (s : State) (o : Nat) (bs : List Byte) : (s.hbmWrite o bs).pending = s.pending := by simp [State.hbmWrite]
@[simp] theorem State.hbmWrite_now (s : State) (o : Nat) (bs : List Byte) : (s.hbmWrite o bs).now = s.now := by simp [State.hbmWrite]
@[simp] theorem State.hbmWrite_freeCtr (s : State) (o : Nat) (bs : List Byte) : (s.hbmWrite o bs).freeCtr = s.freeCtr := by simp [State.hbmWrite]
@[simp] theorem State.hbmWrite_dies (s : State) (o : Nat) (bs : List Byte) : (s.hbmWrite o bs).dies = s.dies := by simp [State.hbmWrite]
@[simp] theorem State.hbmWrite_media (s : State) (o : Nat) (bs : List Byte) : (s.hbmWrite o bs).media = s.media := by simp [State.hbmWrite]
@[simp] theorem State.hbmWrite_compute (s : State) (o : Nat) (bs : List Byte) : (s.hbmWrite o bs).compute = s.compute := by simp [State.hbmWrite]
@[simp] theorem State.hbmWrite_steps (s : State) (o : Nat) (bs : List Byte) : (s.hbmWrite o bs).steps = s.steps := by simp [State.hbmWrite]
@[simp] theorem State.hbmWrite_items (s : State) (o : Nat) (bs : List Byte) : (s.hbmWrite o bs).items = s.items := by simp [State.hbmWrite]
@[simp] theorem State.hbmWrite_serv (s : State) (o : Nat) (bs : List Byte) : (s.hbmWrite o bs).serv = s.serv := by simp [State.hbmWrite]
@[simp] theorem State.hbmWrite_span (s : State) (o : Nat) (bs : List Byte) : (s.hbmWrite o bs).span = s.span := by simp [State.hbmWrite]
@[simp] theorem State.hbmWrite_host (s : State) (o : Nat) (bs : List Byte) : (s.hbmWrite o bs).host = s.host := by simp [State.hbmWrite]
@[simp] theorem State.hbmWrite_regul (s : State) (o : Nat) (bs : List Byte) : (s.hbmWrite o bs).regul = s.regul := by simp [State.hbmWrite]
@[simp] theorem State.hbmWrite_events (s : State) (o : Nat) (bs : List Byte) : (s.hbmWrite o bs).events = s.events := by simp [State.hbmWrite]
@[simp] theorem State.hbmWrite_health (s : State) (o : Nat) (bs : List Byte) : (s.hbmWrite o bs).health = s.health := by simp [State.hbmWrite]
@[simp] theorem State.hbmWrite_power (s : State) (o : Nat) (bs : List Byte) : (s.hbmWrite o bs).power = s.power := by simp [State.hbmWrite]
@[simp] theorem State.hbmWrite_sec (s : State) (o : Nat) (bs : List Byte) : (s.hbmWrite o bs).sec = s.sec := by simp [State.hbmWrite]
@[simp] theorem State.hbmWrite_smbus (s : State) (o : Nat) (bs : List Byte) : (s.hbmWrite o bs).smbus = s.smbus := by simp [State.hbmWrite]

@[simp] theorem State.flashWrite_pending (s : State) (o : Nat) (bs : List Byte) : (s.flashWrite o bs).pending = s.pending := rfl
@[simp] theorem State.flashWrite_now (s : State) (o : Nat) (bs : List Byte) : (s.flashWrite o bs).now = s.now := rfl
@[simp] theorem State.flashWrite_freeCtr (s : State) (o : Nat) (bs : List Byte) : (s.flashWrite o bs).freeCtr = s.freeCtr := rfl
@[simp] theorem State.flashWrite_dies (s : State) (o : Nat) (bs : List Byte) : (s.flashWrite o bs).dies = s.dies := rfl
@[simp] theorem State.flashWrite_media (s : State) (o : Nat) (bs : List Byte) : (s.flashWrite o bs).media = s.media := rfl
@[simp] theorem State.flashWrite_compute (s : State) (o : Nat) (bs : List Byte) : (s.flashWrite o bs).compute = s.compute := rfl
@[simp] theorem State.flashWrite_steps (s : State) (o : Nat) (bs : List Byte) : (s.flashWrite o bs).steps = s.steps := rfl
@[simp] theorem State.flashWrite_items (s : State) (o : Nat) (bs : List Byte) : (s.flashWrite o bs).items = s.items := rfl
@[simp] theorem State.flashWrite_serv (s : State) (o : Nat) (bs : List Byte) : (s.flashWrite o bs).serv = s.serv := rfl
@[simp] theorem State.flashWrite_span (s : State) (o : Nat) (bs : List Byte) : (s.flashWrite o bs).span = s.span := rfl
@[simp] theorem State.flashWrite_host (s : State) (o : Nat) (bs : List Byte) : (s.flashWrite o bs).host = s.host := rfl
@[simp] theorem State.flashWrite_regul (s : State) (o : Nat) (bs : List Byte) : (s.flashWrite o bs).regul = s.regul := rfl
@[simp] theorem State.flashWrite_integ (s : State) (o : Nat) (bs : List Byte) : (s.flashWrite o bs).integ = s.integ := rfl
@[simp] theorem State.flashWrite_events (s : State) (o : Nat) (bs : List Byte) : (s.flashWrite o bs).events = s.events := rfl
@[simp] theorem State.flashWrite_health (s : State) (o : Nat) (bs : List Byte) : (s.flashWrite o bs).health = s.health := rfl
@[simp] theorem State.flashWrite_power (s : State) (o : Nat) (bs : List Byte) : (s.flashWrite o bs).power = s.power := rfl
@[simp] theorem State.flashWrite_sec (s : State) (o : Nat) (bs : List Byte) : (s.flashWrite o bs).sec = s.sec := rfl
@[simp] theorem State.flashWrite_smbus (s : State) (o : Nat) (bs : List Byte) : (s.flashWrite o bs).smbus = s.smbus := rfl

end Sys2Proof.Machine
end

