-- ==== Sys2Proof/Tests/Slice0.lean ====
section
/-! SUPPORT. Tests: a well-formed and an ill-formed command for each check of WellFormed, the manual's worked examples, and for every obligation with
hypotheses a state and operands that meet those of each of its clauses. -/

namespace Sys2Proof.Tests

open Sys2Proof Sys2Proof.Machine

set_option Elab.async false
set_option linter.unusedVariables false

/-- The reset state with die 0 as given. -/
def onDie (x : Die) : State := { State.reset with dies := [(0, x)] }

/-- A row address of plane 0. -/
def rows0 (w : W32) : Rows := ⟨w, 0, 0, 0⟩

/-- A running pSLC program of die 0. -/
def slcOp : DieOp := ⟨.slc, [⟨0, 0, 0⟩], [[0x5A]], .none, .none, 1000000, 0, 0, 0, .running⟩

/-- The reset state without power. -/
def dark : State := { State.reset with power := { State.reset.power with good := false } }

/-- A ring of 16 places each way with nothing in it. -/
def ring16 : Ring := ⟨0x10000, 0x20000, 16, 16, 0, 0, 0, 0, true, 0, 0, 0, none, 0, 0, false, []⟩

/-- The reset state with port A as given. -/
def onPort (x : PortState) : State := { State.reset with host := { HostT.reset with portA := x } }

/-- The reset state with one ring at port A. -/
def onRing (r : Nat) (g : Ring) : State := onPort { PortState.reset with rings := [(r, g)] }

/-- A packet with some fields: offset, length, value. -/
def packet (fields : List (Nat × Nat × Nat)) : List Byte := blockOf 64 fields

/-- A command in progress as number 0, on ring 1 of port A. -/
def cmdOf (fields : List (Nat × Nat × Nat)) : Cmd := ⟨0, .a, 1, 0, packet fields, 0, none, 0, 0, 0, [], 0, [], false⟩

/-- A state with command 0 in progress. -/
def withCmd (c : Cmd) (s : State) : State := { s with host := { s.host with cmds := [(0, c)] } }

/-- Reset with the readiness bits set. -/
def ready : State := { State.reset with power := { State.reset.power with ready := 0x3F#6 } }

/-- Reset in a power state. -/
def inState (x : PState) : State := { State.reset with power := { State.reset.power with st := x } }

/-- IDENTIFY waiting in ring 0 of port A. -/
def fetchState : State :=
  { ready with host := { HostT.reset with portA := { PortState.reset with rings := [(0, { ring16 with tail := 1 })] }, hostMem := Mem.write 0 [] 0x10000 (packet [(0, 2, 0x0101)]) } }

/-- IDENTIFY on ring 0 of port A passes the checks of its packet, whatever the command's bookkeeping. -/
theorem fetch_passes (c : Cmd) (h1 : c.pkt = packet [(0, 2, 0x0101)]) (h2 : c.port = .a) (h3 : c.ring = 0) :
    fetchState.admissionError c = none := by
  have e : fetchState.admissionError c = fetchState.admissionError { cmdOf [(0, 2, 0x0101)] with ring := 0 } := by
    simp only [State.admissionError, Cmd.fieldsOk, Cmd.reservedZero, Cmd.objectOk, Cmd.adminRanges, Cmd.itemRanges,
      Cmd.workRanges, Cmd.opcode, Cmd.object, Cmd.field, Cmd.aligned, Cmd.pflags, Cmd.isVector, h1, h2, h3, cmdOf]
    rfl
  rw [e]; decide +kernel

/-- Reset with command 0 in progress on ring 1 of port A. -/
def waiting (fields : List (Nat × Nat × Nat)) : State := withCmd (cmdOf fields) State.reset

/-- The security state with a slot B as given. -/
def withSlotB (x : FwSlot) (s : State) : State := { s with sec := { s.sec with slotB := x } }

/-- A verified firmware slot with nothing in it. -/
def okSlot : FwSlot := ⟨.verified, [], [], 0, 0#64, 0#64, 0, []⟩

/-- A downloaded slot whose image has a good header (17 R551) and no signature. -/
def headSlot : FwSlot :=
  { okSlot with st := .downloaded, image := Mem.write 0 [] 0 (blockOf 64 [(0, 4, 0x57465853), (0x20, 10, 0x412D3038344D4C2D5853), (0x30, 2, 0x3141)]) }

/-- A record with some fields: bit, value. -/
def record (fields : List (Nat × Nat)) : BitVec 256 := BitVec.ofNat 256 (fields.foldl (fun n f => n + f.2 * 2 ^ f.1) 0)

/-- A thread at the start of its module. -/
def th0 : Thread := ⟨0, 0, 0, 0, [], [], [], [], [], .ready⟩

/-- A gang on core 0 with its allotment at bench address 0. -/
def gang0 : Gang := ⟨0, 0, false, 0, none, [], []⟩

/-- An admitted job of one thread and one gang, of the module with handle 1. -/
def job0 : Job :=
  ⟨0, 1, 0, 1, 1, .interactive, 65536, 0#64, 0, none, 0, true, 0, [(0, gang0)], none, 0, 0, 0, 0, 0, 0, 0, none, 0, [], false, 0, 0, 0⟩

/-- A module of one record. -/
def modOf (r : BitVec 256) : DModule := ⟨1#64, 1#32, [r], [], 0, 1, 0, 1, 0, 1, 1, 65536, false, false⟩

/-- Reset with one thread of one job at a record. -/
def atRecord (r : BitVec 256) (th : Thread) : State :=
  { State.reset with compute := { Compute.reset with threads := [(0, th)], nextThread := 1, jobs := [(0, job0)], nextJob := 1, mods := [(1, modOf r)], nextMod := 2 } }

/-- The same with compute state changed further. -/
def modC (f : Compute → Compute) (s : State) : State := { s with compute := f s.compute }

/-- A tile of free words. -/
def tile0 : Tile := ⟨[], [], true, 0, 0, 0⟩

/-- A context of thread 0's handle 0 on engine 0 of core 0. -/
def ctx0 : Ctx := ⟨0, 0, 0, some 0, 0, tile0, tile0, [], [], [], [], none, none, none, 0, [], none, [], []⟩

/-- A state with a core 0 as given. -/
def modCore0 (f : Core → Core) : State → State := modC (fun c => { c with cores := [(0, f Core.reset)] })

/-- A state with its tiers changed. -/
def modT (f : Tiers → Tiers) (s : State) : State := { s with tiers := f s.tiers }

/-- A thread with one tier request. -/
def tierReq (q : TierReq) : State := modT (fun x => { x with reqs := [(0, q)], nextReq := 1 }) (atRecord 0 th0)

/-- A state with its span changed. -/
def modSp (f : Span → Span) (s : State) : State := { s with span := f s.span }

/-- Module 1, joined with module 0 in a span of two. -/
def joined1 (s : State) : State :=
  { modSp (fun x => { x with member := .joined, desc := some ⟨1#64, 3, 1, 2, 0, 5, 3#128, [], []⟩, members := [(0, ⟨.joined, 0, 0, []⟩)] }) s with
    power := { s.power with cfg := { s.power.cfg with moduleNumber := 1 } } }

/-- Tenon port 0 as given. -/
def tport0 (x : TPort) : State := modSp (fun y => { y with ports := [(0, x)] }) State.reset

/-- A data flit, intact, with sequence number 0. -/
def flit0 : Flit := ⟨true, 1#2, 0#2, false, true, false, 0#12, 0#12, 0#2, false, 0#8, 8#10, []⟩

/-- Thread 0's instance of collective 0 of group 0, an allgather of one byte each. -/
def inst0 : Inst := ⟨.job 0 0, 0, ⟨2, 1, 0, 0, 0, 0, false⟩, some 0, none, none, 0, 0x0200000000000000#64, [9], [], true, [], [], some [9], 0, 0, none, 5, 0, 0⟩

/-- A collective under way on module 1. -/
def inInst (i : Inst) : State := joined1 (modSp (fun x => { x with insts := [i] }) (atRecord 0 th0))

/-- A sending stream to module 0. -/
def stream0 : TStream := ⟨0, true, 10, 0, 0, 0, 0, 16, [], 0, none, [], none, 0, none⟩

/-- A joined module with one grant, exported at offset 0. -/
def exporting (imm : Bool) : State :=
  joined1 (modT (fun x => { x with grants := [(0, ⟨1, 0, 0, 4096, imm, some 0, 0, 0, .interactive, false, [], 0xFFFFFFFF, none⟩)], windowSize := 4096 }) State.reset)

/-- Formatted item areas with 32 dimensions, on module 1 of a span. -/
def searching : State := joined1 { State.reset with items := { Items.reset with dims := 32, width := 256 } }

/-- A state with its media changed. -/
def modM (f : Media → Media) (s : State) : State := { s with media := f s.media }

/-- A stored copy of sector 0 of volume 0. -/
def copy0 : SecCopy := ⟨1, 0, 0, false, [], some 1⟩

/-- Logical stripe 5 of volume 0, counted. -/
def counted0 : Counted := ⟨5, 0, 0, [], true, 0⟩

/-- A fold of logical stripe 5 to plane-block stripe 192. -/
def fold0 : Reloc := ⟨5, 0, 0, 192, false, none, [], .opening, none, 0, [], [], []⟩

/-- The map entry of a stripe at plane-block stripe 7. -/
def entry0 : MapEntry := ⟨7, false, false, 0, 0⟩

/-- Stripe 5 mapped. -/
def mapped5 : State := modM (fun m => { m with map := [(5, entry0)] }) State.reset

/-- A state with its items changed. -/
def modI (f : Items → Items) (s : State) : State := { s with items := f s.items }

/-- Formatted item areas with 32 dimensions and some items. -/
def holding (l : Tab Item) : State := { State.reset with items := { Items.reset with dims := 32, width := 256, epoch := 1, items := l } }

/-- An item visible from epoch 1 on. -/
def item0 : Item := ⟨0, [], 0, [0], 0, 0, none, false, 1, none, 3, 0, none⟩

/-- A cache of no tokens. -/
def cache0 : Cache := ⟨3, 0, 5, 1, false, [], 0, 0, 0, 0, 0, false⟩

/-- The cache of item 3. -/
def cached (s : State) : State := { s with serv := { s.serv with caches := [(3, cache0)] } }

/-- A long list of deleted items. -/
theorem tombs_long (n : Nat) (c : Cmd) :
    n ≤ (withCmd c (modI (fun x => { x with tombs := List.replicate n (0, 0) }) (holding [(3, item0)]))).items.tombs.length
      + (withCmd c (modI (fun x => { x with tombs := List.replicate n (0, 0) }) (holding [(3, item0)]))).items.delsWaiting := by
  simp [withCmd, modI]

/-- A long fresh list. -/
theorem fresh_long (n : Nat) (c : Cmd) (p : PutPlan) :
    n < (withCmd c (modI (fun x => { x with fresh := List.replicate (n + 1) ⟨0, 0, 0, none, 0⟩ }) (holding []))).items.fresh.length
      + (withCmd c (modI (fun x => { x with fresh := List.replicate (n + 1) ⟨0, 0, 0, none, 0⟩ }) (holding []))).items.putsWaiting + p.segs.length := by
  simp [withCmd, modI]; omega

/-- A state with its services changed. -/
def modS (f : Services → Services) (s : State) : State := { s with serv := f s.serv }

/-- An answer model of a zero image. -/
def model0 : Model := ⟨[], 3328, 0, true, true, true, []⟩

/-- Formatted areas with answer model 5 loaded. -/
def serving : State := modS (fun x => { x with models := [(5, model0)] }) (holding [])

/-- Default retrieval parameters. -/
def retrieval0 : Retrieval := ⟨1, 1, 1, 1, false, false, 0, 0⟩

/-- A session of model 0 with room for some tokens. -/
def session0 (n : Nat) : Session := ⟨0, n, retrieval0, 0, [], [], none, none, 0⟩

/-- Command 0's run in a session. -/
def run0 : AskRun := ⟨0, 1, [], [], true, none, [], 0, 0, [], [], [], 0, 0⟩

/-- Session 7 as given. -/
def inSession (x : Session) : State := modS (fun y => { y with sessions := [(7, x)], nextSession := 8 }) serving

/-- A running adaptation job of a kind. -/
def adapt0 (kind : Nat) : Adapt := ⟨kind, 1, 0, 0, [], 0, 1, [], [], 1, 0, 0, 0, 2, 0, 0, []⟩

/-- A state with an adaptation job. -/
def adapting (a : Adapt) : State := modS (fun x => { x with adapt := some a }) (holding [])

/-- A container of one CF_END record with one entry point, unsigned (06 R218 to R221). -/
def container : List Byte := leBytes 224 0x6d0000000000000000000000000000000000000000000000000000000000000706000000000000000000000000000000008a9136aa00000020000000c0000000065b7bc9cc00000020000000a00000000369df8142000000200000008000000001a7d7921b000000000000000000000000000000000000000000000000000000000000000000000000000000000000000000000003000000e0000001004e545244

/-- A sample of context 0 on engines 0 and 1. -/
def capture0 (miss : Bool) : Capture := ⟨0, 0, 0, 1, 0, 0, 0, miss⟩

/-- A sample on core 0. -/
def sampled (miss : Bool) : State := { State.reset with integ := { Integrity.reset with captures := [(0, capture0 miss)] } }

/-- A leaf of one sketch at die 0. -/
def scanned : ScanReq := ⟨.cmd 0, .interactive, none, 0, 0, [], 0⟩

/-- A scan of it waiting. -/
def leafScan : State :=
  { modI (fun x => { x with scans := [scanned], nodes := [(0, (0, .leaf (some ⟨0, 0, 0, [true, true], [true, true]⟩) [some (3, 0)]))], nextNode := 1 })
      (modM (fun m => { m with map := [(9, ⟨0, true, false, 17, 0⟩)] }) (holding [(3, item0)])) with
    dies := [(0, Die.reset)] }

/-- Its chain has one row, of one bin. -/
theorem leafScan_one_bin : leafScan.oneBin 0 ((leafScan.leafChain scanned.leaf).map chainRow) = true := by
  have h : (leafScan.leafChain scanned.leaf).map chainRow = [⟨0, 0, 0⟩] := by decide +kernel
  exact (congrArg (leafScan.oneBin 0) h).trans (by simp only [State.oneBin, List.all_cons, List.all_nil, Bool.and_true, decide_true, Bool.or_true])

/-- Its chain's entry passes its check. -/
theorem leafScan_chain_ok :
    ∀ e ∈ leafScan.leafChain scanned.leaf, (leafScan.die 0).chainEntryOk leafScan.freeCtr e = true := fun e he => by
  have h : leafScan.leafChain scanned.leaf = [0#32] := by decide +kernel
  have k : (leafScan.die 0).chainEntryOk leafScan.freeCtr 0 = true := by decide +kernel
  rw [h] at he; rw [List.mem_singleton.mp he]; exact k

/-- An Interactive READ of sector 0 of volume 0 waits while die 0 has an operation, suspended as given for reads. -/
def waitingRead (o : DieOp) (l : List SuspFor) : State :=
  modM (fun m => { m with map := [(0, ⟨0, false, false, 0, 0⟩)], volumes := [(0, ⟨64, 1⟩)], susp := l })
    (withCmd (cmdOf [(0, 2, 0x0201), (0x18, 4, 1)]) (onDie { Die.reset with op := some o }))

/-- A session whose own tokens' tiles lie in T3. -/
def farSession : Session := { session0 100 with model := Config.lathe, own := [⟨0, 512, 0, 0, 0⟩], run := some run0 }

/-- Command 0's ASK decodes in it. -/
def farAsk : State := { withCmd (cmdOf [(0, 2, 0x0502), (8, 8, 7), (0x14, 4, 10)]) (inSession farSession) with steps := { Steps.reset with known := [0] } }

/-- Its tiles are not in T2. -/
theorem far_not_resident : farAsk.resident farSession = false := by
  have h : farSession.spans = [(0, 27262976), (27262976, 1703936)] := by
    simp [farSession, session0, Session.spans, kvSpans, kvHeads, modelShape, OwnRun.tiles, cacheTiles, ceilDiv]
  unfold State.resident; rw [h]; decide +kernel

/-! ## Well-formedness: an ill-formed and a well-formed command for each check. -/

theorem test_wf_temperatureSample : (Instr.temperatureSample [1]).wf = false ∧ (Instr.temperatureSample (List.replicate 32 1)).wf = true := by decide
theorem test_wf_pushWrite : (Instr.pushWrite .a 0 ⟨[], .good⟩).wf = false ∧ (Instr.pushWrite .a 0 ⟨[1], .good⟩).wf = true := by decide
theorem test_wf_read : (Instr.read 0 [3, 3] false).wf = false ∧ (Instr.read 0 [3, 4] false).wf = true := by decide
theorem test_wf_eventsRead : (Instr.eventsRead 0 [3, 3]).wf = false ∧ (Instr.eventsRead 0 [3]).wf = true := by decide
theorem test_wf_dataOut : (Instr.dataOut 0 0 18432 1).wf = false ∧ (Instr.dataOut 0 0 18400 32).wf = true := by decide
theorem test_wf_programSlc : (Instr.programSlc 0 1#4 (rows0 0) [[1], [], [], []] .none).wf = false ∧ (Instr.programSlc 0 0#4 (rows0 0) [[], [], [], []] .none).wf = true := by decide
theorem test_wf_programQlc : (Instr.programQlc 0 1#4 (rows0 0) [[1], [], [], []] .none).wf = false ∧ (Instr.programQlc 0 0#4 (rows0 0) [[], [], [], []] .none).wf = true := by decide
theorem test_wf_loadQuery : (Instr.loadQuery 0 0 true (zeros 32)).wf = false ∧ (Instr.loadQuery 0 0 false (zeros 32)).wf = true := by decide
theorem test_wf_loadChain : (Instr.loadChain 0 []).wf = false ∧ (Instr.loadChain 0 (List.replicate 33 0)).wf = false ∧ (Instr.loadChain 0 [0]).wf = true := by decide
theorem test_wf_scan : (Instr.scan 0 1#8 [[1]]).wf = false ∧ (Instr.scan 0 0#8 [zeros 64]).wf = true := by decide
theorem test_wf_dieSetFeature : (Instr.dieSetFeature 0 0 [1]).wf = false ∧ (Instr.dieSetFeature 0 0 (zeros 16)).wf = true := by decide
theorem test_wf_senseComplete : (Instr.senseComplete 0 [(0, 147456)]).wf = false ∧ (Instr.senseComplete 0 [(0, 147455)]).wf = true := by decide
theorem test_wf_indexMerge : (Instr.indexMerge ⟨[[3, 3]], []⟩).wf = false ∧ (Instr.indexMerge ⟨[[3]], []⟩).wf = true := by decide
theorem test_wf_flitReceive : (Instr.flitReceive 0 flit0).wf = false ∧ (Instr.flitReceive 0 { flit0 with fbytes := 0 }).wf = true := by decide
theorem test_wf_presence : (Instr.presence 0 0 [] [] 0).wf = false ∧ (Instr.presence 0 0 (zeros 32) (zeros 32) (2 ^ 64)).wf = false ∧ (Instr.presence 0 0 (zeros 32) (zeros 32) 0).wf = true := by decide
theorem test_wf_clHeader : (Instr.clHeader 0 (.job 0 0) [] ⟨2, 1, 0, 0, 0, 0, false⟩).wf = false ∧ (Instr.clHeader 0 (.job 0 0) (zeros 32) ⟨2, 1, 0, 0, 128, 0, false⟩).wf = false ∧
    (Instr.clHeader 0 (.job 0 0) (zeros 32) ⟨2, 1, 0, 0, 127, 0, false⟩).wf = true := by decide
theorem test_wf_rwWrite : (Instr.rwWrite 0 0 0 (2 ^ 56) []).wf = false ∧ (Instr.rwWrite 0 0 0 0 [1]).wf = true := by decide
theorem test_wf_rwRead : (Instr.rwRead 0 0 0 (2 ^ 56) 1).wf = false ∧ (Instr.rwRead 0 0 0 0 (2 ^ 56)).wf = true := by decide
theorem test_wf_rwResp : (Instr.rwResp 0 0 0 0 .lent (zeros 16097)).wf = false ∧ (Instr.rwResp 0 0 0 0 .lent [1]).wf = true := by decide +kernel
theorem test_wf_planeScrub : (Instr.planeScrub .bench 48 0 .correctable false).wf = false ∧ (Instr.planeScrub .bench 47 0 .correctable false).wf = true := by decide
theorem test_wf_calibration : (Instr.calibration 0 [(1, 0, 0), (1, 0, 0)]).wf = false ∧ (Instr.calibration 0 [(1, 0, 0)]).wf = true := by decide

/-! ## Worked examples of the manual. -/

/-- The record of 06 R206's example, from its bytes. -/
def exampleRecord : BitVec 256 := BitVec.ofNat 256 0x10000000004000000203072203000101

/-- 06, the example under R206: the fields its bytes spell. -/
theorem test_record_fields :
    (opcodeOf exampleRecord, handleOf exampleRecord, setH exampleRecord, mmLane exampleRecord, mmSfmt exampleRecord, mmXsigned exampleRecord, mmP exampleRecord) =
      (0x0101, 3, false, .l4x4, 2, true, 4) ∧
    (mmSwap exampleRecord, mmLoadNext exampleRecord, mmAcc exampleRecord, mmB exampleRecord, mmXLine exampleRecord, mmNextLine exampleRecord) =
      (true, true, false, 2, 0x40, 0x100) := by decide

/-- The same record passes the checks of its own fields. -/
theorem test_record_ok : mmRunOk exampleRecord = true := by decide +kernel

/-- 03, the example under R113: the bit planes of one lane give −5, −2, −2 and 3, and their sum is −41. -/
theorem test_bit_planes : (List.range 4).map (planePart [3, -5] [0xE, 7]) = [-5, -2, -2, 3] ∧ planes true 4 [3, -5] [0xE, 7] = -41 := by decide

/-- The two lists of 04's example under R146. -/
def exampleLists : List SelEl :=
  [⟨0x3F68F5C3, 700, 0, true, 0⟩, ⟨0x3F6147AE, 12, 0, true, 1⟩, ⟨0x3F4CCCCD, 45, 0, true, 2⟩, ⟨0x7FC00000, 9, 0, true, 3⟩,
   ⟨0x3F6147AE, 5, 0, true, 4⟩, ⟨0x3F6147AE, 12, 0, true, 5⟩, ⟨0x3F4CCCCD, 31, 0, true, 6⟩, ⟨0x80000000, 2, 0, true, 7⟩]

/-- 04, the example under R146: entries 700, 5, 12 and 31, with one duplicate, one NaN and 7 valid elements. -/
theorem test_list_dedup :
    (selectK false true 4 exampleLists).sel.map (·.index) = [700, 5, 12, 31] ∧ (selectK false true 4 exampleLists).dups = 1 ∧
      (selectK false true 4 exampleLists).nans = 1 ∧ (selectK false true 4 exampleLists).valids = 7 := by decide +kernel

/-- 04, the same example with K = 7 and K = 8: six representatives and DEDUP_SHORT, then only SHORT_RESULT. -/
theorem test_list_dedup_short :
    (selectK false true 7 exampleLists).sel.length = 6 ∧ (selectK false true 7 exampleLists).flags = 2 ∧ (selectK false true 8 exampleLists).flags = 1 := by
  decide +kernel

/-- 05, the example under R152: exponent −2 and mantissas 4, −1, 0 and 2 (values −0.3 and 0.95 as FP32). -/
theorem test_block : toBlock .even 4 [num32 0x3F733333, num32 0xBE99999A, num32 0x3E000000, num32 0x3EC00000] = (-2, [4, -1, 0, 2], 0) := by decide +kernel

/-- 05, the example under R157: conversions to INT8, nearest even. -/
theorem test_int8_even :
    [((5 : Int), 2), (7, 2), (-5, 2), (253, 2), (255, 2), (-257, 2), (-1286, 10), (300, 1)].map
        (fun x => encodeInt (-128) 127 .even (.fin (decide (x.1 < 0)) x.1.natAbs x.2)) =
      [(2, false), (4, false), (-2, false), (126, false), (127, true), (-128, false), (-128, true), (127, true)] := by decide +kernel

/-- 05, the same example, toward zero. -/
theorem test_int8_zero :
    [((5 : Int), 2), (7, 2), (-5, 2), (255, 2), (1279, 10), (-1286, 10), (300, 1)].map
        (fun x => encodeInt (-128) 127 .zero (.fin (decide (x.1 < 0)) x.1.natAbs x.2)) =
      [(2, false), (3, false), (-2, false), (127, false), (127, false), (-128, false), (127, true)] := by decide +kernel

/-- 05, the example under R168: S = 38, M = 0xC000_0000, and the rounded results before saturation. -/
theorem test_rescale :
    rescaleMS 0x3A400000 0x3D800000 = some (0xC0000000, 38, false) ∧
      [1000, 10880, -10880, -10923, 21000].map (rescaleRound .even (0xC0000000, 38, false)) = [12, 128, -128, -128, 246] := by decide +kernel

/-- The items of 09's example under R295: three segments, an image, and a segment across the start. -/
def exampleItems : List Item :=
  [(0, 10000000), (10000000, 20000000), (20000000, 30000000), (10000000, 10000000), (5000000, 15000000)].map
    (fun x => { item0 with start := BitVec.ofNat 64 x.1, stop := BitVec.ofNat 64 x.2 })

/-- 09, the example under R295: window mode, then overlap mode. -/
theorem test_time_modes :
    exampleItems.map (Filter.inTime ⟨[], 1, 10000000, 20000000⟩) = [false, true, false, true, false] ∧
      exampleItems.map (Filter.inTime ⟨[], 2, 10000000, 20000000⟩) = [false, true, false, false, true] := by decide +kernel

/-- The check value of CRC-32C: the digits 1 to 9 give 0xE3069283. -/
theorem test_crc32c : crc32c ((List.range 9).map (fun i => BitVec.ofNat 8 (0x31 + i))) = 0xE3069283#32 := by decide +kernel

/-- The next state of an outcome. -/
def after : Host.Outcome State Fault Refusal → Option State
  | .next s => some s
  | .fault _ => none
  | .refused _ => none

/-- 06 R214: SC_ADD wraps at 2^64. -/
theorem test_sc_add_wraps :
    (after (execScAdd 0 (atRecord (record [(0, 0x0801), (37, 1), (47, 1), (48, 1)]) { th0 with regs := [(1, 0xFFFFFFFFFFFFFFFF#64)] }))).bind
      (fun t => (t.thread? 0).map (fun th => (th.reg 0, th.pc))) = some (0#64, 1) := by decide +kernel

/-- 06 R214: a shift count is taken modulo 64. -/
theorem test_sc_shl_modulo :
    (after (execScShl 0 (atRecord (record [(0, 0x0809), (37, 1), (47, 1), (48, 65)]) { th0 with regs := [(1, 3)] }))).bind
      (fun t => (t.thread? 0).map (fun th => th.reg 0)) = some 6#64 := by decide +kernel

/-- No row of the table has bits, so no word spells a command. -/
theorem test_no_words : decodeTableWord 16 0x0801 = none ∧ State.reset.withFetchWord 16 0x0801 = State.reset := ⟨rfl, rfl⟩

/-- 02 R81: 525 TiB of spare plane-blocks before anything is mapped, in units of 64 MiB. -/
theorem test_spares : Media.reset.spares = 8601600 := by decide +kernel

/-- Bench bytes of 04's example under R126: eight scores at 0, the mask of its CMP at 64, its products 1.5, 3.625 and 1.0 at 96. -/
def scoreBytes : List Byte :=
  fit 64 (leBytes 32 0xC080000040000000800000007FC0000040E8000000000000BFC0000040400000) ++ fit 32 (leBytes 1 0x49) ++ leBytes 12 0x3F800000406800003FC00000

/-- A reader of those bytes. -/
def scoreReader (o n : Nat) : Nat := fieldAt scoreBytes o n

/-- A VX record over one row of 8 FP32 elements: its operation, then further fields. -/
def vxRecord (op : Nat) (fields : List (Nat × Nat)) : BitVec 256 :=
  record ([(0, op), (47, 11), (51, 11), (55, 11), (59, 11), (63, 1), (80, 8), (219, 2)] ++ fields)

/-- 04, the example under R126: CMP GT against 0.0 gives mask bits 1, 0, 0, 1, 0, 0, 1, 0. -/
theorem test_vx_compare :
    (vxRun (vxRecord 0x0204 [(36, 4), (43, 3)]) .even 0 scoreReader 0 8 [0, 0, 0]).writes = [(64, [0x49#8])] := by decide +kernel

/-- 04, the same example: COMPRESS writes 3.0, 7.25 and 2.0, and counts 3. -/
theorem test_vx_compress :
    (vxRun (vxRecord 0x0208 [(153, 4)]) .even 0 scoreReader 0 8 [0, 0, 0]).writes = [(128, leBytes 12 0x4000000040E8000040400000)] ∧
      (vxRun (vxRecord 0x0208 [(153, 4)]) .even 0 scoreReader 0 8 [0, 0, 0]).count = some 3 := by decide +kernel

/-- 04, the same example: EXPAND with fill 0.0 writes 1.5, 0.0, 0.0, 3.625, 0.0, 0.0, 1.0 and 0.0. -/
theorem test_vx_expand :
    ((vxRun (vxRecord 0x0209 [(43, 3), (99, 3), (153, 4)]) .even 0 scoreReader 0 8 [0, 0, 0]).writes.map (fun w => leNat w.2)) =
      [0x3FC00000, 0, 0, 0x40680000, 0, 0, 0x3F800000, 0] := by decide +kernel

/-! ## Every hypothesis is met somewhere. -/

/-- ScalarOperations: its operations each issue somewhere. -/
theorem test_meets_Computes :
    (∀ op ∈ [0x0801, 0x0802, 0x0803, 0x0804, 0x0805, 0x0806, 0x0807, 0x0808, 0x0809, 0x080A, 0x080B, 0x080C, 0x080D, 0x080E], ∃ (s : State) (n : Nat) (th : Thread) (r : BitVec 256), Issues s n op [] th r) := by
  simp only [List.forall_mem_cons]
  exact ⟨⟨atRecord (record [(0, 0x0801)]) th0, 0, th0, record [(0, 0x0801)], ⟨by decide +kernel, by decide +kernel, by decide +kernel⟩⟩,
    ⟨atRecord (record [(0, 0x0802)]) th0, 0, th0, record [(0, 0x0802)], ⟨by decide +kernel, by decide +kernel, by decide +kernel⟩⟩,
    ⟨atRecord (record [(0, 0x0803)]) th0, 0, th0, record [(0, 0x0803)], ⟨by decide +kernel, by decide +kernel, by decide +kernel⟩⟩,
    ⟨atRecord (record [(0, 0x0804)]) th0, 0, th0, record [(0, 0x0804)], ⟨by decide +kernel, by decide +kernel, by decide +kernel⟩⟩,
    ⟨atRecord (record [(0, 0x0805)]) th0, 0, th0, record [(0, 0x0805)], ⟨by decide +kernel, by decide +kernel, by decide +kernel⟩⟩,
    ⟨atRecord (record [(0, 0x0806)]) th0, 0, th0, record [(0, 0x0806)], ⟨by decide +kernel, by decide +kernel, by decide +kernel⟩⟩,
    ⟨atRecord (record [(0, 0x0807)]) th0, 0, th0, record [(0, 0x0807)], ⟨by decide +kernel, by decide +kernel, by decide +kernel⟩⟩,
    ⟨atRecord (record [(0, 0x0808)]) th0, 0, th0, record [(0, 0x0808)], ⟨by decide +kernel, by decide +kernel, by decide +kernel⟩⟩,
    ⟨atRecord (record [(0, 0x0809)]) th0, 0, th0, record [(0, 0x0809)], ⟨by decide +kernel, by decide +kernel, by decide +kernel⟩⟩,
    ⟨atRecord (record [(0, 0x080a)]) th0, 0, th0, record [(0, 0x080a)], ⟨by decide +kernel, by decide +kernel, by decide +kernel⟩⟩,
    ⟨atRecord (record [(0, 0x080b)]) th0, 0, th0, record [(0, 0x080b)], ⟨by decide +kernel, by decide +kernel, by decide +kernel⟩⟩,
    ⟨atRecord (record [(0, 0x080c)]) th0, 0, th0, record [(0, 0x080c)], ⟨by decide +kernel, by decide +kernel, by decide +kernel⟩⟩,
    ⟨atRecord (record [(0, 0x080d)]) th0, 0, th0, record [(0, 0x080d)], ⟨by decide +kernel, by decide +kernel, by decide +kernel⟩⟩,
    ⟨atRecord (record [(0, 0x080e)]) th0, 0, th0, record [(0, 0x080e)], ⟨by decide +kernel, by decide +kernel, by decide +kernel⟩⟩,
    fun _ h => by cases h⟩

/-- Every clause of DieReadsSense has a state and operands that meet its hypotheses. -/
theorem test_meets_DieReadsSense :
    (∃ (s : State) (d : DieNo) (mask : BitVec 4) (rows : Rows) (pf : Bool) (m : BMode),
      s.diesOn = true ∧ (s.die d).takes .other = true ∧ (s.die d).addressOk s.freeCtr mask rows = true ∧ (∀ r ∈ rowsOf mask rows, (s.die d).modeOf s.freeCtr r = m)) ∧
    (∃ (s : State) (d : DieNo) (r : Row) (rs cur : List Row),
      s.diesOn = true ∧ (s.die d).takes .readNext = true ∧ (s.die d).sense = none ∧ (s.die d).preReady = true ∧ (s.die d).walk = none ∧ (s.die d).curRows = r :: rs ∧ nextRows ((s.die d).modeOf s.freeCtr r) (r :: rs) = some cur ∧ (cur.map Row.plane).Nodup) ∧
    (∃ (s : State) (d : DieNo) (m : BMode),
      s.diesOn = true ∧ (s.die d).takes .other = true ∧ (s.die d).chain ≠ []) ∧
    (∃ (s : State) (d : DieNo) (flips : List (PlaneNo × Nat)) (rows : List Row) (m : BMode) (due : Nat),
      (s.die d).sense = some ⟨.page, rows, m, false, due⟩ ∧ (s.die d).preOn = false) := 
  ⟨⟨State.reset, 0, 1#4, rows0 1023, true, .slc, by decide +kernel⟩,
   ⟨onDie { Die.reset with preReady := true, curRows := [⟨0, 5, 6⟩] }, 0, ⟨0, 5, 6⟩, [], [⟨0, 5, 7⟩], by decide +kernel⟩,
   ⟨onDie { Die.reset with chain := [0] }, 0, .slc, by decide +kernel⟩,
   ⟨onDie { Die.reset with sense := some ⟨.page, [⟨0, 5, 6⟩], .slc, false, 10⟩ }, 0, [], [⟨0, 5, 6⟩], .slc, 10, by decide +kernel⟩⟩

/-- Every clause of DieProgramsAndErases has a state and operands that meet its hypotheses. -/
theorem test_meets_DieProgramsAndErases :
    (∃ (s u : State) (d : DieNo) (mask : BitVec 4) (rows : Rows) (data pages : List (List Byte)) (why : ProgPurpose),
      s.plan d .slc (rowsOf mask rows) data why = some (pages, u) ∧ s.diesOn = true ∧ (s.die d).takes .writes = true ∧ (s.die d).programRefusal s.freeCtr .slc mask rows = none) ∧
    (∃ (s u : State) (d : DieNo) (mask : BitVec 4) (rows : Rows) (data pages : List (List Byte)) (why : ProgPurpose),
      s.plan d .qlc (rowsOf mask rows) data why = some (pages, u) ∧ s.diesOn = true ∧ (s.die d).takes .writes = true ∧ (s.die d).programRefusal s.freeCtr .qlc mask rows = none) ∧
    (∃ (s : State) (d : DieNo) (mask : BitVec 4) (rows : Rows) (m : BMode) (why : ErasePurpose),
      s.diesOn = true ∧ (s.die d).takes .writes = true ∧ (s.die d).addressOk s.freeCtr mask rows = true ∧ s.eraseDue d (rowsOf mask rows) why = true) ∧
    (∃ (s : State) (d : DieNo) (o : DieOp) (ok : Bool),
      (s.die d).op = some o ∧ o.st = .running ∧ ((o.kind = .slc ∨ o.kind = .qlc))) ∧
    (∃ (s : State) (d : DieNo) (o : DieOp) (m : BMode) (ok : Bool),
      (s.die d).op = some o ∧ o.st = .running ∧ o.kind = .erase m) ∧
    (∃ (s : State) (d : DieNo) (o : DieOp),
      s.diesOn = true ∧ (s.die d).takes .suspend = true ∧ (s.die d).op = some o ∧ o.st = .running ∧ o.used < maxSuspends o.kind) ∧
    (∃ (s : State) (d : DieNo) (o : DieOp),
      (s.die d).op = some o ∧ o.st = .pending ∧ minRun o.kind < o.needed - o.ran ∧ s.now ≤ o.since + minRun o.kind) ∧
    (∃ (s : State) (d : DieNo) (o : DieOp) (due : Nat) (pend : Bool),
      (s.die d).op = some o ∧ o.st = .latency due pend) ∧
    (∃ (s : State) (d : DieNo) (o : DieOp),
      s.diesOn = true ∧ (s.die d).takes .other = true ∧ (s.die d).op = some o ∧ o.st = .suspended) := 
  ⟨⟨State.reset, State.reset, 0, 1#4, rows0 0, [[1]], [[1]], .none, (rfl), by decide +kernel⟩,
   ⟨onDie { Die.reset with qlc := [0] }, onDie { Die.reset with qlc := [0] }, 0, 1#4, rows0 0, [[1]], [[1]], .none, (rfl), by decide +kernel⟩,
   ⟨State.reset, 0, 1#4, rows0 0, .qlc, .none, by decide +kernel⟩,
   ⟨onDie { Die.reset with op := some slcOp }, 0, slcOp, true, by decide +kernel⟩,
   ⟨onDie { Die.reset with op := some { slcOp with kind := .erase .slc } }, 0, { slcOp with kind := .erase .slc }, .slc, false, by decide +kernel⟩,
   ⟨onDie { Die.reset with op := some { slcOp with used := 6 } }, 0, { slcOp with used := 6 }, by decide +kernel⟩,
   ⟨onDie { Die.reset with op := some { slcOp with st := .pending, needed := 264000000 } }, 0, { slcOp with st := .pending, needed := 264000000 }, by decide +kernel⟩,
   ⟨onDie { Die.reset with op := some { slcOp with st := .latency 7 true } }, 0, { slcOp with st := .latency 7 true }, 7, true, by decide +kernel⟩,
   ⟨onDie { Die.reset with op := some { slcOp with st := .suspended } }, 0, { slcOp with st := .suspended }, by decide +kernel⟩⟩

/-- Every clause of DieComparator has a state and operands that meet its hypotheses. -/
theorem test_meets_DieComparator :
    (∃ (s : State) (d : DieNo) (slot : Fin 8) (wide : Bool) (data : List Byte),
      s.diesOn = true ∧ (s.die d).takes .other = true) ∧
    (∃ (s : State) (d : DieNo) (entries : List W32),
      (∀ e ∈ entries, (s.die d).chainEntryOk s.freeCtr e = true) ∧ s.diesOn = true ∧ (s.die d).takes .other = true) ∧
    (∃ (s : State) (d : DieNo) (mask : BitVec 8) (allow : List (List Byte)) (wide : Bool),
      s.diesOn = true ∧ (s.die d).takes .other = true ∧ mask ≠ 0#8 ∧ ((∀ i < 8, mask.getLsbD i = true → Tab.has (s.die d).queries i = true)) ∧ (∀ q ∈ (s.die d).selected mask, q.2.wide = wide) ∧ (s.die d).chain ≠ []) ∧
    (∃ (s : State) (d : DieNo) (r x : ScanRun),
      x = r.step.foldl (fun y i => y.page ((s.die d).selected r.mask) (wideOf ((s.die d).selected r.mask)) ((s.die d).modeOf s.freeCtr (chainRow ((s.die d).chain.getD i 0)) ≠ .slc) i (Tab.at (s.die d).regs (chainRow ((s.die d).chain.getD i 0)).plane.val [])) r ∧ (s.die d).scanRun = some r ∧ r.ready = true ∧ (s.die d).sense = none) ∧
    (∃ (s : State) (d : DieNo),
      s.diesOn = true ∧ (s.die d).takes .other = true ∧ (s.die d).result ≠ []) := 
  ⟨⟨State.reset, 0, 7, true, [], by decide +kernel⟩,
   ⟨State.reset, 0, [0x4000000#32], (by simp only [List.mem_singleton, forall_eq]; decide), by decide +kernel⟩,
   ⟨onDie { Die.reset with chain := [0x4000000#32], queries := [(0, ⟨false, 0#512⟩)] }, 0, 1#8, [], false, by decide +kernel⟩,
   ⟨onDie { Die.reset with scanRun := some ⟨1#8, [], 1, [], true, false, 0, 0, 0, []⟩ }, 0, ⟨1#8, [], 1, [], true, false, 0, 0, 0, []⟩, ⟨1#8, [], 1, [], true, false, 0, 0, 0, []⟩, (rfl), by decide +kernel⟩,
   ⟨onDie { Die.reset with result := [1] }, 0, by decide +kernel⟩⟩

/-- Every clause of DieTransfers has a state and operands that meet its hypotheses. -/
theorem test_meets_DieTransfers :
    (∃ (s : State) (d : DieNo) (p : PlaneNo) (col len : Nat) (m : Mem),
      s.diesOn = true ∧ (s.die d).takes .dataOut = true ∧ Tab.find (s.die d).regs p.val = some m ∧ col + len ≤ 18432) ∧
    (∃ (s : State) (d : DieNo),
      s.diesOn = true) ∧
    (∃ (s : State) (d : DieNo) (a : Byte),
      s.diesOn = true ∧ (s.die d).takes .getFeature = true) ∧
    (∃ (s : State) (d : DieNo) (p : PlaneNo) (data : List Byte),
      s.diesOn = true ∧ (s.die d).takes .other = true) ∧
    (∃ (s : State) (d : DieNo),
      s.diesOn = true ∧ (s.die d).takes .other = true) ∧
    (∃ (s : State) (d : DieNo),
      s.diesOn = true) ∧
    (∃ (s : State) (d : DieNo) (due : Nat),
      (s.die d).resetDue = some due) ∧
    (∃ (s : State) (d : DieNo) (op : Byte),
      s.diesOn = true ∧ (s.die d).takes .other = true ∧ op.toNat ∉ [0x01, 0x02, 0x03, 0x04, 0x10, 0x11, 0x20, 0x30, 0x31, 0x40, 0x41, 0x42, 0x43, 0x70, 0x71, 0x72, 0x73, 0xFF]) := 
  ⟨⟨onDie { Die.reset with regs := [(0, [])] }, 0, 0, 18400, 32, [], by decide +kernel⟩,
   ⟨State.reset, 0, by decide⟩,
   ⟨State.reset, 0, 0x10, by decide +kernel⟩,
   ⟨State.reset, 0, 3, [], by decide +kernel⟩,
   ⟨State.reset, 1023, by decide +kernel⟩,
   ⟨onDie { Die.reset with op := some slcOp }, 0, by decide⟩,
   ⟨onDie { Die.reset with resetDue := some 9 }, 0, 9, by decide⟩,
   ⟨State.reset, 0, 0x00, by decide +kernel⟩⟩

/-- Every clause of ProgramOrderGuard has a state and operands that meet its hypotheses. -/
theorem test_meets_ProgramOrderGuard :
    (∃ (s : State) (d : DieNo) (mask : BitVec 4) (rows : Rows) (data : List (List Byte)) (why : ProgPurpose) (q : Row),
      s.diesOn = true ∧ (s.die d).takes .writes = true ∧ (s.die d).addressOk s.freeCtr mask rows = true ∧ (s.die d).undefModes = [] ∧ (∀ r ∈ rowsOf mask rows, r.key ∉ (s.die d).qlc) ∧ q ∈ rowsOf mask rows ∧ ((unitKey q.key q.page ∈ (s.die d).started ∨ (q.page ≠ 0 ∧ unitKey q.key (q.page - 1) ∉ (s.die d).started))) ∧ s.plan d .slc (rowsOf mask rows) data why ≠ none) ∧
    (∃ (s : State) (d : DieNo) (mask : BitVec 4) (rows : Rows) (data : List (List Byte)) (why : ProgPurpose) (q : Row),
      s.diesOn = true ∧ (s.die d).takes .writes = true ∧ (s.die d).addressOk s.freeCtr mask rows = true ∧ (s.die d).undefModes = [] ∧ (∀ r ∈ rowsOf mask rows, r.key ∈ (s.die d).qlc ∧ r.page % 4 = 0) ∧ q ∈ rowsOf mask rows ∧ ((unitKey q.key (q.page / 4) ∈ (s.die d).started ∨ (q.page / 4 ≠ 0 ∧ unitKey q.key (q.page / 4 - 1) ∉ (s.die d).started))) ∧ s.plan d .qlc (rowsOf mask rows) data why ≠ none) ∧
    (∃ (x : Die) (ctr : Nat) (m : BMode) (mask : BitVec 4) (rows : Rows),
      x.undefModes = [] ∧ x.programRefusal ctr m mask rows = some .programOrder) := 
  ⟨⟨State.reset, 0, 1#4, rows0 1, [[1]], .none, ⟨0, 0, 1⟩, by decide +kernel⟩,
   ⟨onDie { Die.reset with qlc := [0] }, 0, 1#4, rows0 4, [[1]], .none, ⟨0, 0, 4⟩, by decide +kernel⟩,
   ⟨Die.reset, 0, .slc, 1#4, rows0 1, by decide +kernel⟩⟩

/-- Every clause of ComparatorKeepsBest has a state and operands that meet its hypotheses. -/
theorem test_meets_ComparatorKeepsBest :
    ∃ (r : ScanRun) (qs : Tab QSlot) (w chain slot : Nat) (x : BitVec 512),
      (qs.map Prod.fst).Nodup := ⟨⟨1#8, [], 1, [], true, false, 0, 0, 0, []⟩, [(0, ⟨false, 0#512⟩)], 256, 0, 0, 0#512, by decide⟩

/-- Every clause of StopsAndStarts has a state and operands that meet its hypotheses. -/
theorem test_meets_StopsAndStarts :
    (∃ (s : State) (landed : List (Nat × Nat)),
      s.power.good = true) ∧
    (∃ (s : State) (x : Fin 32) (r : W16) (landed : List (Nat × Nat)),
      s.power.good = true ∧ x.val < 4 ∧ 500 ≤ r.toInt) ∧
    (∃ (s : State) (slot : BitVec 4) (alt : Bool) (o : StartOutcome),
      s.power.good = false) ∧
    (∃ (s : State) (p : Port) (o : StartOutcome),
      s.power.good = true ∧ s.isOwner p = true) ∧
    (∃ (s : State) (o : StartOutcome),
      s.power.good = true ∧ s.power.st = .a0) ∧
    (∃ (s : State) (o : StartOutcome),
      s.power.good = true) := 
  ⟨⟨State.reset, [], by decide⟩,
   ⟨State.reset, 3, 500#16, [], by decide +kernel⟩,
   ⟨dark, 5#4, false, default, by decide⟩,
   ⟨State.reset, .a, default, by decide +kernel⟩,
   ⟨State.reset, default, by decide +kernel⟩,
   ⟨State.reset, default, by decide⟩⟩

/-- Every clause of EscapementWork has a state and operands that meet its hypotheses. -/
theorem test_meets_EscapementWork :
    (∃ s : State,
      s.power.good = true ∧ s.power.noBoot = false ∧ s.power.st = .a0) ∧
    (∃ s : State,
      s.power.good = true ∧ s.power.noBoot = false ∧ s.power.st = .a0 ∧ s.power.adminOnly = false ∧ s.power.ready.getLsbD 0 = true ∧ (∀ p ∈ s.media.pend, p.cmd ≠ none)) ∧
    (∃ s : State,
      s.power.good = true) ∧
    (∃ (s : State) (rs : List W16) (k : Nat) (h : k < rs.length),
      s.power.good = true ∧ k < 32) ∧
    (∃ s : State,
      s.power.good = true ∧ s.asleep = false) ∧
    (∃ s : State,
      s.power.good = true) ∧
    (∃ s : State,
      s.power.good = true ∧ s.power.ready.getLsbD 1 = true ∧ s.sec.fuses ≤ 64 ∧ s.sec.active.secVer ≤ 64) ∧
    (∃ (s : State) (p : Port) (sp : BitVec 3) (w : BitVec 5) (mps : BitVec 3) (x : PciConfig),
      s.power.good = true ∧ s.power.noBoot = false ∧ (((s.port p).linkUp = false ∨ ((s.port p).speed = sp ∧ (s.port p).width = w))) ∧ sp ∈ [3#3, 4#3, 5#3] ∧ w ∈ [4#5, 8#5, 16#5] ∧ mps.toNat ≤ 2 ∧ x.mrrs.toNat ≤ 5) ∧
    (∃ (s : State) (p : Port) (sp : BitVec 3) (w : BitVec 5) (mps : BitVec 3) (x : PciConfig),
      s.power.good = false) := 
  ⟨⟨State.reset, by decide +kernel⟩,
   ⟨ready, by decide +kernel⟩,
   ⟨State.reset, by decide⟩,
   ⟨State.reset, List.replicate 32 0#16, 31, (by decide), by decide +kernel⟩,
   ⟨State.reset, by decide +kernel⟩,
   ⟨State.reset, by decide⟩,
   ⟨ready, by decide +kernel⟩,
   ⟨State.reset, .b, 5#3, 16#5, 2#3, ⟨5, true, true, false, false, false⟩, by decide +kernel⟩,
   ⟨dark, .b, 5#3, 16#5, 2#3, ⟨5, true, true, false, false, false⟩, by decide⟩⟩

/-- Every clause of PowerStatesAndLimits has a state and operands that meet its hypotheses. -/
theorem test_meets_PowerStatesAndLimits :
    (∃ s : State,
      s.power.good = true ∧ s.noWork = true ∧ s.power.hib = none ∧ s.power.st = .a0 ∧ bitsOf s.power.idle.toNat 0 32 ≠ 0 ∧ 1 ≤ s.deepest) ∧
    (∃ (s : State) (e : WakeEvent),
      s.power.good = true ∧ s.power.hib = none ∧ s.power.st = .a1) ∧
    (∃ s : State,
      s.power.good = true ∧ s.power.hib = some .timer ∧ s.power.wakeLatched = false ∧ s.entryReady = true ∧ s.power.st ≠ .a3 ∧ s.host.cmds = []) ∧
    (∃ (s : State) (watts : Nat),
      s.power.good = true ∧ s.capW < watts) ∧
    (∃ (s : State) (x : Fin 32) (r : W16),
      s.power.good = true ∧ x.val < 4 ∧ (4 * s.tjLimit : Int) ≤ r.toInt ∧ r.toInt < 4 * s.tjLimit + 40 ∧ x.val ∉ s.power.hot) ∧
    (∃ (s : State) (x : Fin 32) (r : W16),
      s.power.good = true ∧ 20 ≤ x.val ∧ x.val < 28 ∧ 280 ≤ r.toInt ∧ x.val - 20 ∉ s.power.paced) := 
  ⟨⟨State.reset, by decide +kernel⟩,
   ⟨inState .a1, .doorbell, by decide +kernel⟩,
   ⟨{ State.reset with power := { State.reset.power with st := .a2, hib := some .timer }, media := { Media.reset with cps := [⟨1, ⟨[], [], [], [], 0, 0⟩⟩] } }, by decide +kernel⟩,
   ⟨State.reset, 1001, by decide +kernel⟩,
   ⟨State.reset, 3, 420#16, by decide +kernel⟩,
   ⟨State.reset, 27, 280#16, by decide +kernel⟩⟩

/-- Every clause of RingsAndReplies has a state and operands that meet its hypotheses. -/
theorem test_meets_RingsAndReplies :
    (∃ (s : State) (p : Port) (v : W64),
      v.getLsbD 0 = true ∧ (s.port p).adminEn = false ∧ ringSizeOk (bitsOf (s.port p).adminSize.toNat 0 17) = true ∧ ringSizeOk (bitsOf (s.port p).adminSize.toNat 32 17) = true) ∧
    (∃ (s : State) (p : Port) (r : RingNo) (v : W32) (g : Ring),
      ((r.val = 0 ∨ s.isOwner p = true)) ∧ s.asleep = false ∧ s.ring? p r.val = some g ∧ g.tailOk (v.toNat % 65536) = true) ∧
    (∃ (s : State) (p : Port) (r : RingNo) (v : W32) (g : Ring),
      ((r.val = 0 ∨ s.isOwner p = true)) ∧ s.asleep = false ∧ s.ring? p r.val = some g ∧ g.headOk (v.toNat % 65536) = true) ∧
    (∃ (s : State) (p : Port) (r : RingNo) (g : Ring) (x : Reply) (xs : List Reply),
      s.ring? p r.val = some g ∧ g.held = x :: xs ∧ g.full = false ∧ ((x.xrdy = true ∨ x.status.good = true))) ∧
    (∃ (s : State) (p : Port) (r : RingNo) (g : Ring),
      s.ring? p r.val = some g ∧ g.unsig ≠ 0 ∧ g.coalCount = 0 ∧ (s.port p).silent g.vector = false) := 
  ⟨⟨onPort { PortState.reset with adminSize := 0x0001000000000002#64 }, .a, 1#64, by decide +kernel⟩,
   ⟨onRing 63 { ring16 with cmdSize := 16 }, .a, 63, 15#32, ring16, by decide +kernel⟩,
   ⟨onRing 1 { ring16 with replyNext := 3 }, .a, 1, 3#32, { ring16 with replyNext := 3 }, by decide +kernel⟩,
   ⟨onRing 1 { ring16 with replyNext := 15, replyHead := 1, held := [(cmdOf []).reply .success 0 []] }, .a, 1, { ring16 with replyNext := 15, replyHead := 1, held := [(cmdOf []).reply .success 0 []] }, (cmdOf []).reply .success 0 [], [], by decide +kernel⟩,
   ⟨onPort { PortState.reset with config := ⟨2, true, true, false, false, false⟩, rings := [(1, { ring16 with unsig := 1 })], msix := [(0, ⟨0, 0, false⟩)] }, .a, 1, { ring16 with unsig := 1 }, by decide +kernel⟩⟩

/-- Every clause of FetchingAndPushes has a state and operands that meet its hypotheses. -/
theorem test_meets_FetchingAndPushes :
    (∃ (s : State) (p : Port) (r : Nat) (g : Ring),
      ((∀ c : Cmd, c.pkt = s.hostRead p (g.cmdBase + 64 * g.head) 64 → c.port = p → c.ring = r → s.admissionError c = none)) ∧ s.fetchRing p = some r ∧ s.ring? p r = some g ∧ s.fetchable p r g = true ∧ g.tail = (g.head + 1) % g.cmdSize) ∧
    (∃ (s : State) (c : Cmd) (g : Ring),
      s.waitingGrant = some c ∧ s.cmd? c.ident = some c ∧ s.ring? c.port c.ring = some g ∧ 4096 ≤ (s.port c.port).budget ∧ 2 ^ 30 ≤ s.media.veneerFree) ∧
    (∃ (s : State) (p : Port) (off : Nat) (data : List Byte) (y : Parity) (g : PGrant) (c : Cmd),
      y.lost = false ∧ (s.port p).grants = [g] ∧ g.written = [] ∧ g.doneAt = none ∧ data ≠ [] ∧ g.offset ≤ off ∧ off + data.length ≤ g.offset + g.len ∧ s.cmd? g.cmd = some c) ∧
    (∃ (s : State) (p : Port) (off : Nat) (data : List Byte) (q : QuarterNo) (g : PGrant) (c : Cmd),
      (s.port p).grants = [g] ∧ data ≠ [] ∧ g.offset ≤ off ∧ off + data.length ≤ g.offset + g.len ∧ s.cmd? g.cmd = some c) ∧
    (∃ (s : State) (p : Port) (g : PGrant) (c : Cmd),
      s.isOwner p = true ∧ s.asleep = false ∧ (s.port p).grants = [g] ∧ g.doneAt = none ∧ g.complete = true ∧ g.ident < 65536 ∧ g.ring < 64 ∧ s.cmd? g.cmd = some c) ∧
    (∃ (s : State) (g : PGrant) (c : Cmd) (at0 : Nat),
      (s.port s.host.owner).grants = [g] ∧ g.doneAt = some at0 ∧ g.complete = false ∧ s.cmd? g.cmd = some c) := 
  ⟨⟨fetchState, .a, 0, { ring16 with tail := 1 }, (fetch_passes), by decide +kernel⟩,
   ⟨withCmd { cmdOf [] with stage := 1, need := 1 } (onRing 1 ring16), { cmdOf [] with stage := 1, need := 1 }, ring16, by decide +kernel⟩,
   ⟨withCmd { cmdOf [] with stage := 1, need := 8 } (onPort { PortState.reset with rings := [(1, ring16)], grants := [⟨0, 1, 0, 4096, 8, 0, [], none⟩] }), .a, 4100, [1, 2, 3, 4], .good, ⟨0, 1, 0, 4096, 8, 0, [], none⟩, { cmdOf [] with stage := 1, need := 8 }, by decide +kernel⟩,
   ⟨withCmd { cmdOf [] with stage := 1, need := 8 } (onPort { PortState.reset with rings := [(1, ring16)], grants := [⟨0, 1, 0, 4096, 8, 0, [], none⟩] }), .a, 4100, [1], 2, ⟨0, 1, 0, 4096, 8, 0, [], none⟩, { cmdOf [] with stage := 1, need := 8 }, by decide +kernel⟩,
   ⟨withCmd { cmdOf [] with stage := 1, need := 8 } (onPort { PortState.reset with rings := [(1, ring16)], grants := [⟨0, 1, 0, 4096, 8, 0, [(0, 8)], none⟩] }), .a, ⟨0, 1, 0, 4096, 8, 0, [(0, 8)], none⟩, { cmdOf [] with stage := 1, need := 8 }, by decide +kernel⟩,
   ⟨withCmd { cmdOf [] with stage := 1, need := 8 } (onPort { PortState.reset with rings := [(1, ring16)], grants := [⟨0, 1, 0, 4096, 8, 0, [(0, 4)], some 0⟩] }), ⟨0, 1, 0, 4096, 8, 0, [(0, 4)], some 0⟩, { cmdOf [] with stage := 1, need := 8 }, 0, by decide +kernel⟩⟩

/-- Every clause of HeartbeatAndStopwork has a state and operands that meet its hypotheses. -/
theorem test_meets_HeartbeatAndStopwork :
    (∃ (s : State) (p : Port) (v : W64),
      s.power.good = true ∧ s.isOwner p = true) ∧
    (∃ (s : State) (p : Port) (v : W64),
      s.power.good = true ∧ s.isOwner p = true) ∧
    (∃ (s : State) (p : Port) (v : W64),
      (s.isOwner p = false ∨ s.power.good = false)) ∧
    (∃ s : State,
      s.power.good = true ∧ s.host.hbPeriod ≠ 0 ∧ s.host.hbAuto = false) ∧
    (∃ (s : State) (w : RegW) (x : Scope),
      s.power.good = true ∧ stopworkOf w = some (x, .halt) ∧ s.scopeExists x = true) ∧
    (∃ (s : State) (w : RegW),
      (∀ h ∈ s.host.halts, h.2 ≠ s.tick) ∧ s.power.good = true ∧ stopworkOf w = some (.all, .release)) ∧
    (∃ (s : State) (w : RegW) (r : Nat) (c : Cmd),
      s.power.good = true ∧ stopworkOf w = some (.ring r, .abort) ∧ s.scopeExists (.ring r) = true ∧ s.cmdsInOrder.filter (fun c => c.inScope (.ring r)) = [c] ∧ s.cmd? c.ident = some c ∧ s.instsOf c.ident = [] ∧ s.jobOf c.ident = none ∧ s.askSession c.ident = none) ∧
    (∃ (s : State) (w : RegW),
      s.power.good = true ∧ stopworkOf w = some (.all, .abortHibernate) ∧ s.cmdsInOrder = [] ∧ s.power.st ≠ .a3 ∧ s.readOnly = false ∧ s.imageFits = true) ∧
    (∃ (s : State) (id e : Nat) (c : Cmd),
      s.cmd? id = some c ∧ c.expiry = some e ∧ c.stage ≠ 0 ∧ s.jobOf id = none ∧ s.askSession id = none) ∧
    (∃ (s : State) (p : Port),
      s.cmdsOf p = []) := 
  ⟨⟨State.reset, .a, 0x1000A#64, by decide +kernel⟩,
   ⟨State.reset, .a, 1#64, by decide +kernel⟩,
   ⟨State.reset, .b, 1#64, by decide⟩,
   ⟨{ State.reset with host := { HostT.reset with hbPeriod := 1 } }, by decide +kernel⟩,
   ⟨onRing 63 ring16, ⟨.a, .full, 0x0000003f0000c301#64⟩, .ring 63, by decide +kernel⟩,
   ⟨State.reset, ⟨.a, .full, 0x000000000000c31c#64⟩, (by intro h hh; cases hh), by decide +kernel⟩,
   ⟨withCmd (cmdOf []) (onRing 1 ring16), ⟨.a, .full, 0x000000010000c309#64⟩, 1, cmdOf [], by decide +kernel⟩,
   ⟨State.reset, ⟨.a, .full, 0x000000000000c314#64⟩, by decide +kernel⟩,
   ⟨withCmd { cmdOf [] with stage := 1, expiry := some 5 } State.reset, 0, 5, { cmdOf [] with stage := 1, expiry := some 5 }, by decide +kernel⟩,
   ⟨State.reset, .a, by decide⟩⟩

/-- Every clause of PolicyRegisters has a state and operands that meet its hypotheses. -/
theorem test_meets_PolicyRegisters :
    (∃ (s : State) (w : RegW) (v : W64),
      s.power.good = true ∧ s.isOwner w.port = true ∧ mergedW w (s.power.powerCap) = some v) ∧
    (∃ (s : State) (w : RegW) (v : W64),
      s.power.good = true ∧ s.isOwner w.port = true ∧ mergedW w (s.regul.policy) = some v) ∧
    (∃ (s : State) (w : RegW) (v : W64) (c : Cls),
      s.power.good = true ∧ s.isOwner w.port = true ∧ mergedW w (s.regul.pcset c) = some v) ∧
    (∃ (s : State) (w : RegW) (v : W64) (q : QuarterNo),
      s.power.good = true ∧ s.isOwner w.port = true ∧ mergedW w (s.waysReg q.val) = some v) ∧
    (∃ (s : State) (w : RegW) (v : W64),
      s.power.good = true ∧ s.isOwner w.port = true ∧ mergedW w (s.integ.planeControl) = some v) ∧
    (∃ (s : State) (w : RegW) (v : W64),
      s.power.good = true ∧ s.isOwner w.port = true ∧ mergedW w s.integ.bucketConfig = some v) ∧
    (∃ (s : State) (w : RegW) (v : W64),
      s.power.good = true ∧ s.isOwner w.port = true ∧ mergedW w (s.integ.policy) = some v) ∧
    (∃ (s : State) (w : RegW) (v : W64),
      s.power.good = true ∧ s.isOwner w.port = true ∧ mergedW w (s.power.mediaPolicy) = some v) ∧
    (∃ (s : State) (w : RegW) (v : W64),
      s.isOwner w.port = true ∧ mergedW w 0#64 = some v) ∧
    (∃ (s : State) (w : RegW) (v : W64),
      s.power.good = true ∧ s.isOwner w.port = true ∧ mergedW w (s.integ.errIrqEn.setWidth 64) = some v) ∧
    (∃ (s : State) (w : RegW) (v : W64),
      s.power.good = true ∧ (s.port w.port).adminEn = false ∧ mergedW w (s.port w.port).adminCmdBase = some v) ∧
    (∃ (s : State) (w : RegW),
      s.power.good = true ∧ w.size ≠ .other) ∧
    (∃ (s : State) (w : RegW),
      (s.isOwner w.port = false ∨ w.size = .other)) := 
  ⟨⟨State.reset, ⟨.a, .full, 0x0055012C#64⟩, 0x0055012C#64, by decide +kernel⟩,
   ⟨State.reset, ⟨.a, .full, 0x00000A80050A5A00#64⟩, 0x00000A80050A5A00#64, by decide +kernel⟩,
   ⟨State.reset, ⟨.a, .full, 1#64⟩, 1#64, .system, by decide +kernel⟩,
   ⟨State.reset, ⟨.a, .full, 0#64⟩, 0#64, 3, by decide +kernel⟩,
   ⟨State.reset, ⟨.a, .full, 0x01E83C18#64⟩, 0x01E83C18#64, by decide +kernel⟩,
   ⟨State.reset, ⟨.a, .full, 0x001FF#64⟩, 0x001FF#64, by decide +kernel⟩,
   ⟨State.reset, ⟨.a, .full, 0x001E0500#64⟩, 0x001E0500#64, by decide +kernel⟩,
   ⟨State.reset, ⟨.a, .full, 0x0000000210410000#64⟩, 0x0000000210410000#64, by decide +kernel⟩,
   ⟨State.reset, ⟨.a, .full, 0xFFF#64⟩, 0xFFF#64, by decide +kernel⟩,
   ⟨State.reset, ⟨.a, .full, 0#64⟩, 0#64, by decide +kernel⟩,
   ⟨State.reset, ⟨.b, .full, 0x1000#64⟩, 0x1000#64, by decide +kernel⟩,
   ⟨State.reset, ⟨.b, .full, 0#64⟩, by decide +kernel⟩,
   ⟨State.reset, ⟨.b, .full, 0#64⟩, by decide⟩⟩

/-- Every clause of SmbusTransactions has a state and operands that meet its hypotheses. -/
theorem test_meets_SmbusTransactions :
    (∃ (s : State) (k : SmbRead) (code : Byte),
      s.power.good = true) ∧
    (∃ (s : State) (v : W16) (pec : Option Bool),
      s.power.good = true ∧ 300 ≤ v.toNat ∧ v.toNat ≤ 1000 ∧ pec ≠ some false) ∧
    (∃ (s : State) (k : SmbWrite) (code : Byte) (v : W16) (pec : Option Bool),
      s.power.good = true ∧ ((k ≠ .word ∨ code ≠ 0x08#8 ∨ pec = some false ∨ v.toNat < 300 ∨ 1000 < v.toNat))) ∧
    (∃ s : State,
      s.power.good = true) := 
  ⟨⟨State.reset, .word, 0x08#8, by decide⟩,
   ⟨State.reset, 300#16, none, by decide +kernel⟩,
   ⟨State.reset, .word, 0x08#8, 500#16, some false, by decide +kernel⟩,
   ⟨State.reset, by decide⟩⟩

/-- Every clause of RingPowerTakeover has a state and operands that meet its hypotheses. -/
theorem test_meets_RingPowerTakeover :
    (∃ (s : State) (id : Nat) (c : Cmd) (v : Nat),
      Runs s id 0x0104 c ∧ c.field 0x10 2 = 2 ∧ v = leNat (s.hostRead c.port (c.field 0x18 8) 32) ∧ bitsOf v 98 158 = 0) ∧
    (∃ (s : State) (id : Nat) (c : Cmd),
      Runs s id 0x0105 c ∧ s.ring? c.port (c.field 0x10 1) = none) ∧
    (∃ (s : State) (id : Nat) (c : Cmd) (g : Ring),
      Runs s id 0x0106 c ∧ s.ring? c.port (c.field 0x10 1) = some g ∧ c.ring ≠ c.field 0x10 1 ∧ (∀ d ∈ s.cmdsOf c.port, d.ring ≠ c.field 0x10 1)) ∧
    (∃ (s : State) (id : Nat) (c : Cmd) (g : Ring),
      Runs s id 0x0107 c ∧ s.ring? c.port (c.field 0x10 1) = some g ∧ g.frozen = true ∧ s.ringQuiet c.port (c.field 0x10 1) g = true) ∧
    (∃ (s : State) (id : Nat) (c : Cmd),
      Runs s id 0x0108 c ∧ c.stage = 0 ∧ c.field 0x10 1 = 0 ∧ s.power.st = .a0) ∧
    (∃ (s : State) (id : Nat) (c : Cmd),
      Runs s id 0x0108 c ∧ c.stage = 0 ∧ c.field 0x10 1 = 3 ∧ s.readOnly = false ∧ s.imageFits = true) ∧
    (∃ (s : State) (id : Nat) (c : Cmd),
      Runs s id 0x0109 c ∧ c.stage = 0 ∧ s.credTurn c = true ∧ s.isOwner c.port = false ∧ s.sec.locked = false ∧ s.cmdsOf s.host.owner = [] ∧ ((s.port s.host.owner).linkUp && (s.port s.host.owner).config.busMaster) = false) ∧
    (∃ (s : State) (id : Nat) (c : Cmd) (ok : Bool),
      Runs s id 0x0109 c ∧ s.credOk (s.hostRead c.port (c.field 0x10 8) 5328) 0x10 0 0 = ok ∧ c.stage = 0 ∧ s.credTurn c = true ∧ s.isOwner c.port = false ∧ s.sec.locked = true ∧ c.field 0x10 8 ≠ 0 ∧ s.cmdsOf s.host.owner = [] ∧ ((s.port s.host.owner).linkUp && (s.port s.host.owner).config.busMaster) = false) ∧
    (∃ (s : State) (id : Nat) (c : Cmd),
      Runs s id 0x0109 c ∧ c.stage = 1 ∧ s.secured (c.aux.headD 0) = true) := 
  ⟨⟨withCmd (cmdOf [(0, 2, 0x0104), (0x10, 2, 2)]) State.reset, 0, cmdOf [(0, 2, 0x0104), (0x10, 2, 2)], 0, ⟨by decide +kernel, by decide +kernel, by decide +kernel⟩, by decide +kernel⟩,
   ⟨withCmd (cmdOf [(0, 2, 0x0105), (0x10, 1, 2)]) State.reset, 0, cmdOf [(0, 2, 0x0105), (0x10, 1, 2)], ⟨by decide +kernel, by decide +kernel, by decide +kernel⟩, by decide +kernel⟩,
   ⟨withCmd (cmdOf [(0, 2, 0x0106), (0x10, 1, 2)]) (onRing 2 ring16), 0, cmdOf [(0, 2, 0x0106), (0x10, 1, 2)], ring16, ⟨by decide +kernel, by decide +kernel, by decide +kernel⟩, by decide +kernel⟩,
   ⟨withCmd (cmdOf [(0, 2, 0x0107), (0x10, 1, 2)]) (onRing 2 { ring16 with frozen := true }), 0, cmdOf [(0, 2, 0x0107), (0x10, 1, 2)], { ring16 with frozen := true }, ⟨by decide +kernel, by decide +kernel, by decide +kernel⟩, by decide +kernel⟩,
   ⟨withCmd (cmdOf [(0, 2, 0x0108)]) State.reset, 0, cmdOf [(0, 2, 0x0108)], ⟨by decide +kernel, by decide +kernel, by decide +kernel⟩, by decide +kernel⟩,
   ⟨withCmd (cmdOf [(0, 2, 0x0108), (0x10, 1, 3)]) State.reset, 0, cmdOf [(0, 2, 0x0108), (0x10, 1, 3)], ⟨by decide +kernel, by decide +kernel, by decide +kernel⟩, by decide +kernel⟩,
   ⟨withCmd { cmdOf [(0, 2, 0x0109)] with port := .b } State.reset, 0, { cmdOf [(0, 2, 0x0109)] with port := .b }, ⟨by decide +kernel, by decide +kernel, by decide +kernel⟩, by decide +kernel⟩,
   ⟨withCmd { cmdOf [(0, 2, 0x0109), (0x10, 8, 4096)] with port := .b } ({ State.reset with sec := { Security.reset with locked := true } }), 0, { cmdOf [(0, 2, 0x0109), (0x10, 8, 4096)] with port := .b }, _, ⟨by decide +kernel, by decide +kernel, by decide +kernel⟩, (rfl), by decide +kernel⟩,
   ⟨withCmd { cmdOf [(0, 2, 0x0109)] with port := .b, stage := 1 } State.reset, 0, { cmdOf [(0, 2, 0x0109)] with port := .b, stage := 1 }, ⟨by decide +kernel, by decide +kernel, by decide +kernel⟩, by decide +kernel⟩⟩

/-- Every clause of RingPowerSearchComplete has a state and operands that meet its hypotheses. -/
theorem test_meets_RingPowerSearchComplete :
    (∃ (s : State) (id : Nat) (c : Cmd) (v : Nat),
      Runs s id 0x0104 c ∧ v = leNat (s.hostRead c.port (c.field 0x18 8) 32) ∧ featureOk (c.field 0x10 2) v = true) ∧
    (∃ (s : State) (id : Nat) (c : Cmd) (v : Nat),
      Runs s id 0x0104 c ∧ v = leNat (s.hostRead c.port (c.field 0x18 8) 32) ∧ featureOk (c.field 0x10 2) v = false) ∧
    (∃ (s : State) (id : Nat) (c : Cmd) (g : Ring),
      Runs s id 0x0105 c ∧ s.ring? c.port (c.field 0x10 1) = none ∧ s.ring? c.port c.ring = some g) ∧
    (∃ (s : State) (id : Nat) (c : Cmd) (g h : Ring),
      Runs s id 0x0106 c ∧ s.ring? c.port (c.field 0x10 1) = some h ∧ s.ring? c.port c.ring = some g ∧ c.ring ≠ c.field 0x10 1 ∧ (∀ d ∈ s.cmdsOf c.port, d.ring ≠ c.field 0x10 1)) ∧
    (∃ (s : State) (id n : Nat) (c : Cmd) (g h : Ring),
      Runs s id 0x0107 c ∧ n = (if c.field 0x11 1 = 1 then h.tail else h.head) ∧ s.ring? c.port (c.field 0x10 1) = some h ∧ s.ring? c.port c.ring = some g ∧ c.ring ≠ c.field 0x10 1 ∧ h.frozen = true ∧ s.ringQuiet c.port (c.field 0x10 1) h = true) ∧
    (∃ (s : State) (id : Nat) (c : Cmd),
      Runs s id 0x0108 c ∧ c.stage = 0 ∧ c.field 0x10 1 = 0 ∧ s.host.latched = []) ∧
    (∃ (s : State) (id : Nat) (c : Cmd),
      Runs s id 0x0109 c ∧ c.stage = 0 ∧ s.credTurn c = true ∧ s.isOwner c.port = false ∧ s.sec.locked = false) ∧
    (∃ (s : State) (id : Nat) (r : SearchReads) (c : Cmd) (y : Query) (q : Query1) (a : Admitted) (f : Found),
      RunsItem s id 0x0401 c ∧ f = (s.readSpots (s.rerankSpots y)).finish q a y.lists r ∧ c.stage = 1 ∧ s.items.running = [] ∧ s.items.query? (.cmd id) = some y ∧ y.ask = some (q, a) ∧ y.faulted r = false ∧ s.items.scansDone (.cmd id) = true ∧ s.spotsReady true (s.rerankSpots y) = true) ∧
    (∃ (s : State) (id fl n ms e cs : Nat) (b : List Byte) (r : SearchReads) (c : Cmd) (i : Inst),
      RunsItem s id 0x0402 c ∧ s.spanResult i (c.aux.getD 1 0 = 1) (c.aux.headD 0) = (b, n, ms, e, cs, fl) ∧ c.stage = 1 ∧ s.span.insts.find? (fun i => i.cmd = some id) = some i ∧ s.instReady i = true) := 
  ⟨⟨withCmd (cmdOf [(0, 2, 0x0104), (0x10, 2, 2)]) State.reset, 0, cmdOf [(0, 2, 0x0104), (0x10, 2, 2)], _, ⟨by decide +kernel, by decide +kernel, by decide +kernel⟩, (rfl), by decide +kernel⟩,
   ⟨withCmd (cmdOf [(0, 2, 0x0104), (0x10, 2, 2), (0x18, 8, 4096)]) ({ State.reset with host := { HostT.reset with hostMem := Mem.write 0 [] 4096 (List.replicate 32 0xFF) } }), 0, cmdOf [(0, 2, 0x0104), (0x10, 2, 2), (0x18, 8, 4096)], _, ⟨by decide +kernel, by decide +kernel, by decide +kernel⟩, (rfl), by decide +kernel⟩,
   ⟨withCmd (cmdOf [(0, 2, 0x0105), (0x10, 1, 2)]) (onRing 1 ring16), 0, cmdOf [(0, 2, 0x0105), (0x10, 1, 2)], ring16, ⟨by decide +kernel, by decide +kernel, by decide +kernel⟩, by decide +kernel⟩,
   ⟨withCmd (cmdOf [(0, 2, 0x0106), (0x10, 1, 2)]) (onPort { PortState.reset with rings := [(1, ring16), (2, ring16)] }), 0, cmdOf [(0, 2, 0x0106), (0x10, 1, 2)], ring16, ring16, ⟨by decide +kernel, by decide +kernel, by decide +kernel⟩, by decide +kernel⟩,
   ⟨withCmd (cmdOf [(0, 2, 0x0107), (0x10, 1, 2)]) (onPort { PortState.reset with rings := [(1, ring16), (2, { ring16 with frozen := true })] }), 0, _, cmdOf [(0, 2, 0x0107), (0x10, 1, 2)], ring16, { ring16 with frozen := true }, ⟨by decide +kernel, by decide +kernel, by decide +kernel⟩, (rfl), by decide +kernel⟩,
   ⟨withCmd (cmdOf [(0, 2, 0x0108)]) State.reset, 0, cmdOf [(0, 2, 0x0108)], ⟨by decide +kernel, by decide +kernel, by decide +kernel⟩, by decide +kernel⟩,
   ⟨withCmd { cmdOf [(0, 2, 0x0109)] with port := .b } State.reset, 0, { cmdOf [(0, 2, 0x0109)] with port := .b }, ⟨by decide +kernel, by decide +kernel, by decide +kernel⟩, by decide +kernel⟩,
   ⟨withCmd { cmdOf [(0, 2, 0x0401)] with stage := 1 } (modI (fun x => { x with queries := [⟨.cmd 0, 0, 0, none, none, 0, some (default, default), []⟩] }) (holding [])), 0, ⟨true, [], false, false, [], none⟩, { cmdOf [(0, 2, 0x0401)] with stage := 1 }, ⟨.cmd 0, 0, 0, none, none, 0, some (default, default), []⟩, default, default, _, ⟨by decide +kernel, by decide +kernel, by decide +kernel⟩, (rfl), by decide +kernel⟩,
   ⟨withCmd { cmdOf [(0, 2, 0x0402)] with stage := 1 } (joined1 (modSp (fun x => { x with insts := [{ inst0 with key := .search 0 0, group := 0, params := ⟨5, 80, 0, 0, 0, 1, false⟩, thread := none, cmd := some 0, own := [], go := true, datas := [(0, []), (1, [])] }] }) (holding []))), 0, _, _, _, _, _, _, ⟨true, [], false, false, [], none⟩, { cmdOf [(0, 2, 0x0402)] with stage := 1 }, { inst0 with key := .search 0 0, group := 0, params := ⟨5, 80, 0, 0, 0, 1, false⟩, thread := none, cmd := some 0, own := [], go := true, datas := [(0, []), (1, [])] }, ⟨by decide +kernel, by decide +kernel, by decide +kernel⟩, (rfl), by decide +kernel⟩⟩

/-- Every clause of FirmwareAndOwnerLock has a state and operands that meet its hypotheses. -/
theorem test_meets_FirmwareAndOwnerLock :
    (∃ (s : State) (id : Nat) (c : Cmd),
      Runs s id 0x0901 c ∧ c.stage = 0 ∧ (∀ d ∈ Tab.vals s.host.cmds, d.opcode ≠ 0x0902) ∧ c.field 0x10 4 ≠ 0 ∧ c.field 0x10 4 + c.field 0x14 4 ≤ s.sec.other.len) ∧
    (∃ (s : State) (id : Nat) (c : Cmd),
      Runs s id 0x0901 c ∧ c.stage ≠ 0 ∧ c.need ≤ c.got ∧ c.field 0x10 4 ≠ 0 ∧ c.field 0x10 4 + c.field 0x14 4 ≤ s.sec.other.len) ∧
    (∃ (s : State) (id : Nat) (c : Cmd) (ok : Bool),
      Runs s id 0x0902 c ∧ c.field 0x10 1 = 0 ∧ s.sec.other.formOk = true ∧ s.sec.other.signedOk = ok ∧ s.sec.fuses ≤ s.sec.other.secVer) ∧
    (∃ (s : State) (id : Nat) (c : Cmd),
      Runs s id 0x0902 c ∧ c.field 0x10 1 = 1 ∧ s.sec.other.st = .verified ∧ s.sec.fuses ≤ s.sec.other.secVer) ∧
    (∃ (s : State) (id : Nat) (c : Cmd) (ok : Bool),
      Runs s id 0x0904 c ∧ s.credOk (s.hostRead c.port (c.field 0x18 8) 5328) 1 0 0 = ok ∧ c.stage = 0 ∧ s.credTurn c = true ∧ c.field 0x10 1 = 1) ∧
    (∃ (s : State) (id : Nat) (c : Cmd),
      Runs s id 0x0904 c ∧ c.stage = 0 ∧ s.credTurn c = true ∧ c.field 0x10 1 = 5 ∧ s.sec.locked = false ∧ BitVec.ofNat 2 (c.field 0x12 2) ≠ s.sec.policy) ∧
    (∃ (s : State) (id : Nat) (c : Cmd),
      Runs s id 0x0904 c ∧ c.stage = 1 ∧ s.secured (c.aux.headD 0) = true) ∧
    (∃ (s : State) (id : Nat) (c : Cmd),
      s.acting id 0x0904 = some c ∧ c.ident = id ∧ c.stage = 0 ∧ s.credTurn c = true ∧ ((s.sec.locked = true ∨ c.field 0x10 1 = 1)) ∧ (s.credOk (s.hostRead c.port (c.field 0x18 8) 5328) (c.field 0x10 1) (if c.field 0x10 1 = 3 ∨ c.field 0x10 1 = 4 then c.field 0x11 1 else 0) (if c.field 0x10 1 = 5 then c.field 0x12 2 else 0) = false)) := 
  ⟨⟨withCmd (cmdOf [(0, 2, 0x0901), (0x10, 4, 4096), (0x14, 4, 4096)]) (withSlotB { okSlot with len := 8192 } State.reset), 0, cmdOf [(0, 2, 0x0901), (0x10, 4, 4096), (0x14, 4, 4096)], ⟨by decide +kernel, by decide +kernel, by decide +kernel⟩, by decide +kernel⟩,
   ⟨withCmd { cmdOf [(0, 2, 0x0901), (0x10, 4, 4096), (0x14, 4, 4096)] with stage := 1, need := 4096, got := 4096 } (withSlotB { okSlot with len := 8192 } State.reset), 0, { cmdOf [(0, 2, 0x0901), (0x10, 4, 4096), (0x14, 4, 4096)] with stage := 1, need := 4096, got := 4096 }, ⟨by decide +kernel, by decide +kernel, by decide +kernel⟩, by decide +kernel⟩,
   ⟨withCmd (cmdOf [(0, 2, 0x0902)]) (withSlotB headSlot State.reset), 0, cmdOf [(0, 2, 0x0902)], false, ⟨by decide +kernel, by decide +kernel, by decide +kernel⟩, by decide +kernel⟩,
   ⟨withCmd (cmdOf [(0, 2, 0x0902), (0x10, 1, 1)]) (withSlotB okSlot State.reset), 0, cmdOf [(0, 2, 0x0902), (0x10, 1, 1)], ⟨by decide +kernel, by decide +kernel, by decide +kernel⟩, by decide +kernel⟩,
   ⟨withCmd (cmdOf [(0, 2, 0x0904), (0x10, 1, 1)]) State.reset, 0, cmdOf [(0, 2, 0x0904), (0x10, 1, 1)], _, ⟨by decide +kernel, by decide +kernel, by decide +kernel⟩, (rfl), by decide +kernel⟩,
   ⟨withCmd (cmdOf [(0, 2, 0x0904), (0x10, 1, 5), (0x12, 2, 1)]) State.reset, 0, cmdOf [(0, 2, 0x0904), (0x10, 1, 5), (0x12, 2, 1)], ⟨by decide +kernel, by decide +kernel, by decide +kernel⟩, by decide +kernel⟩,
   ⟨withCmd { cmdOf [(0, 2, 0x0904), (0x10, 1, 2)] with stage := 1 } State.reset, 0, { cmdOf [(0, 2, 0x0904), (0x10, 1, 2)] with stage := 1 }, ⟨by decide +kernel, by decide +kernel, by decide +kernel⟩, by decide +kernel⟩,
   ⟨withCmd (cmdOf [(0, 2, 0x0904), (0x10, 1, 2)]) ({ State.reset with sec := { Security.reset with locked := true } }), 0, cmdOf [(0, 2, 0x0904), (0x10, 1, 2)], by decide +kernel⟩⟩

/-- Every clause of ReportsAndEventLog has a state and operands that meet its hypotheses. -/
theorem test_meets_ReportsAndEventLog :
    (∃ (s : State) (id : Nat) (c : Cmd) (rs : List Event),
      Runs s id 0x0A01 c ∧ rs = (s.events.recs.filter (fun r => c.field 0x10 8 ≤ r.seq)).take (c.field 0x20 4)) ∧
    (∃ (s : State) (id n : Nat) (c : Cmd),
      Runs s id 0x0A02 c ∧ n = (s.events.recs.filter (fun r => r.seq ≤ c.field 0x10 8)).length) ∧
    (∃ (s : State) (id : Nat) (c : Cmd),
      Runs s id 0x0101 c) ∧
    (∃ (s : State) (id : Nat) (c : Cmd),
      Runs s id 0x0102 c) ∧
    (∃ (s : State) (id : Nat) (c : Cmd),
      Runs s id 0x0103 c) ∧
    (∃ (s : State) (id : Nat) (c : Cmd),
      Runs s id 0x0A03 c) ∧
    (∃ (s : State) (id : Nat) (c : Cmd),
      Runs s id 0x0903 c ∧ 14224 + 40 * s.loadedModels.length ≤ c.field 0x38 4) := 
  ⟨⟨withCmd (cmdOf [(0, 2, 0x0A01), (0x20, 4, 1)]) State.reset, 0, cmdOf [(0, 2, 0x0A01), (0x20, 4, 1)], [], ⟨by decide +kernel, by decide +kernel, by decide +kernel⟩, by decide +kernel⟩,
   ⟨withCmd (cmdOf [(0, 2, 0x0A02)]) State.reset, 0, 0, cmdOf [(0, 2, 0x0A02)], ⟨by decide +kernel, by decide +kernel, by decide +kernel⟩, by decide +kernel⟩,
   ⟨withCmd (cmdOf [(0, 2, 0x0101)]) State.reset, 0, cmdOf [(0, 2, 0x0101)], ⟨by decide +kernel, by decide +kernel, by decide +kernel⟩⟩,
   ⟨withCmd (cmdOf [(0, 2, 0x0102), (0x10, 2, 1)]) State.reset, 0, cmdOf [(0, 2, 0x0102), (0x10, 2, 1)], ⟨by decide +kernel, by decide +kernel, by decide +kernel⟩⟩,
   ⟨withCmd (cmdOf [(0, 2, 0x0103), (0x10, 2, 1)]) State.reset, 0, cmdOf [(0, 2, 0x0103), (0x10, 2, 1)], ⟨by decide +kernel, by decide +kernel, by decide +kernel⟩⟩,
   ⟨withCmd (cmdOf [(0, 2, 0x0A03)]) State.reset, 0, cmdOf [(0, 2, 0x0A03)], ⟨by decide +kernel, by decide +kernel, by decide +kernel⟩⟩,
   ⟨withCmd (cmdOf [(0, 2, 0x0903), (0x38, 4, 14224)]) State.reset, 0, cmdOf [(0, 2, 0x0903), (0x38, 4, 14224)], ⟨by decide +kernel, by decide +kernel, by decide +kernel⟩, by decide +kernel⟩⟩

/-- Every clause of VolumesReadsWrites has a state and operands that meet its hypotheses. -/
theorem test_meets_VolumesReadsWrites :
    (∃ (s : State) (id : Nat) (c : Cmd),
      Runs s id 0x010A c ∧ c.stage = 0 ∧ s.earlierOn c c.object (fun op => op = 0x010B || op = 0x0204) = false ∧ s.volLocked c.object = false ∧ Tab.find s.media.volumes c.object = none ∧ (∀ e ∈ s.media.map, e.2.owner ≠ c.object)) ∧
    (∃ (s : State) (id : Nat) (c : Cmd),
      Runs s id 0x010A c ∧ c.stage = 1 ∧ s.secured (c.aux.headD 0) = true) ∧
    (∃ (s : State) (id : Nat) (c : Cmd) (v : Volume),
      Runs s id 0x010B c ∧ c.stage = 0 ∧ Tab.find s.media.volumes c.object = some v ∧ c.volGone = false ∧ s.volLocked c.object = false ∧ s.earlierOn c c.object (fun _ => true) = false) ∧
    (∃ (s : State) (id : Nat) (c : Cmd),
      Runs s id 0x010B c ∧ c.stage = 2 ∧ c.aux.headD 0 ≤ s.media.jDone ∧ s.keysGone (c.aux.getD 1 0) = true) ∧
    (∃ (s : State) (id : Nat) (c : Cmd),
      Runs s id 0x0201 c ∧ s.flushWaits c c.object = false ∧ s.volumeError c c.object (c.field 0x10 8) (c.field 0x18 4) = none ∧ c.field 0x1C 4 = 0 ∧ (∀ i < c.field 0x18 4, s.media.twiceLost c.object (c.field 0x10 8 + i) = false) ∧ s.spotsReady true (s.media.spotsOf c.object ((List.range (c.field 0x18 4)).map (c.field 0x10 8 + ·))) = true) ∧
    (∃ (s : State) (id : Nat) (bad : List Nat) (c : Cmd),
      Runs s id 0x0201 c ∧ s.flushWaits c c.object = false ∧ s.volumeError c c.object (c.field 0x10 8) (c.field 0x18 4) = none ∧ s.readListOk c = true ∧ s.spotsReady true (s.media.spotsOf c.object ((List.range (c.field 0x18 4)).map (c.field 0x10 8 + ·))) = false) ∧
    (∃ (s : State) (id : Nat) (bad : List Nat) (c : Cmd),
      Runs s id 0x0201 c ∧ s.flushWaits c c.object = false ∧ s.volumeError c c.object (c.field 0x10 8) (c.field 0x18 4) = none ∧ s.readListOk c = true) ∧
    (∃ (s : State) (id : Nat) (c : Cmd) (m : Media),
      Runs s id 0x0202 c ∧ s.media.takeRoom s.now id (stripesOf c.object (c.field 0x10 8) (c.field 0x18 4)) = some m ∧ c.stage = 0 ∧ s.flushWaits c c.object = false ∧ s.volumeError c c.object (c.field 0x10 8) (c.field 0x18 4) = none) ∧
    (∃ (s : State) (id : Nat) (c : Cmd),
      Runs s id 0x0202 c ∧ c.stage = 1 ∧ c.need ≤ c.got) ∧
    (∃ (s : State) (id : Nat) (c : Cmd),
      Runs s id 0x0202 c ∧ c.stage = 2 ∧ s.acknowledged id = true) ∧
    (∃ (s : State) (id : Nat) (c : Cmd),
      Runs s id 0x0203 c ∧ c.stage = 0 ∧ s.flushWaits c c.object = false ∧ s.volumeError c c.object (c.field 0x10 8) (c.field 0x20 8) = none ∧ s.media.wholeStripes c.object (c.field 0x10 8) (c.field 0x20 8) ≠ []) ∧
    (∃ (s : State) (id : Nat) (c : Cmd),
      Runs s id 0x0203 c ∧ c.stage ≠ 0 ∧ c.aux.headD 0 ≤ s.media.jDone ∧ s.acknowledged id = true) ∧
    (∃ (s : State) (id : Nat) (c : Cmd),
      Runs s id 0x0204 c ∧ c.stage = 0 ∧ s.flushWaits c c.object = false ∧ s.volumeError c c.object 0 0 = none ∧ s.earlierOn c c.object (fun op => op = 0x0202 || op = 0x0203) = false) := 
  ⟨⟨withCmd (cmdOf [(0, 2, 0x010A), (0x10, 8, 64)]) State.reset, 0, cmdOf [(0, 2, 0x010A), (0x10, 8, 64)], ⟨by decide +kernel, by decide +kernel, by decide +kernel⟩, by decide +kernel⟩,
   ⟨withCmd { cmdOf [(0, 2, 0x010A), (0x10, 8, 64)] with stage := 1 } State.reset, 0, { cmdOf [(0, 2, 0x010A), (0x10, 8, 64)] with stage := 1 }, ⟨by decide +kernel, by decide +kernel, by decide +kernel⟩, by decide +kernel⟩,
   ⟨withCmd (cmdOf [(0, 2, 0x010B)]) ({ State.reset with media := { Media.reset with volumes := [(0, ⟨64, 1⟩)] } }), 0, cmdOf [(0, 2, 0x010B)], ⟨64, 1⟩, ⟨by decide +kernel, by decide +kernel, by decide +kernel⟩, by decide +kernel⟩,
   ⟨withCmd { cmdOf [(0, 2, 0x010B)] with stage := 2 } State.reset, 0, { cmdOf [(0, 2, 0x010B)] with stage := 2 }, ⟨by decide +kernel, by decide +kernel, by decide +kernel⟩, by decide +kernel⟩,
   ⟨withCmd (cmdOf [(0, 2, 0x0201), (0x18, 4, 1)]) ({ State.reset with media := { Media.reset with volumes := [(0, ⟨64, 1⟩)] } }), 0, cmdOf [(0, 2, 0x0201), (0x18, 4, 1)], ⟨by decide +kernel, by decide +kernel, by decide +kernel⟩, by decide +kernel⟩,
   ⟨waitingRead slcOp [], 0, [], cmdOf [(0, 2, 0x0201), (0x18, 4, 1)], ⟨by decide +kernel, by decide +kernel, by decide +kernel⟩, by decide +kernel⟩,
   ⟨withCmd (cmdOf [(0, 2, 0x0201), (0x18, 4, 1)]) ({ State.reset with media := { Media.reset with volumes := [(0, ⟨64, 1⟩)] } }), 0, [], cmdOf [(0, 2, 0x0201), (0x18, 4, 1)], ⟨by decide +kernel, by decide +kernel, by decide +kernel⟩, by decide +kernel⟩,
   ⟨withCmd (cmdOf [(0, 2, 0x0202), (0x18, 4, 1)]) ({ State.reset with media := { Media.reset with volumes := [(0, ⟨64, 1⟩)] } }), 0, cmdOf [(0, 2, 0x0202), (0x18, 4, 1)], _, ⟨by decide +kernel, by decide +kernel, by decide +kernel⟩, (Option.some_get (by decide +kernel)).symm, by decide +kernel⟩,
   ⟨withCmd { cmdOf [(0, 2, 0x0202), (0x18, 4, 1)] with stage := 1, need := 8, got := 8 } ({ State.reset with media := { Media.reset with volumes := [(0, ⟨64, 1⟩)] } }), 0, { cmdOf [(0, 2, 0x0202), (0x18, 4, 1)] with stage := 1, need := 8, got := 8 }, ⟨by decide +kernel, by decide +kernel, by decide +kernel⟩, by decide +kernel⟩,
   ⟨withCmd { cmdOf [(0, 2, 0x0202), (0x18, 4, 1)] with stage := 2 } ({ State.reset with media := { Media.reset with volumes := [(0, ⟨64, 1⟩)] } }), 0, { cmdOf [(0, 2, 0x0202), (0x18, 4, 1)] with stage := 2 }, ⟨by decide +kernel, by decide +kernel, by decide +kernel⟩, by decide +kernel⟩,
   ⟨withCmd (cmdOf [(0, 2, 0x0203), (0x20, 8, 245760)]) ({ State.reset with media := { Media.reset with map := [(0, ⟨0, false, false, 0, 0⟩)], volumes := [(0, ⟨245760, 1⟩)] } }), 0, cmdOf [(0, 2, 0x0203), (0x20, 8, 245760)], ⟨by decide +kernel, by decide +kernel, by decide +kernel⟩, by decide +kernel⟩,
   ⟨withCmd { cmdOf [(0, 2, 0x0203), (0x20, 8, 64)] with stage := 1 } ({ State.reset with media := { Media.reset with volumes := [(0, ⟨64, 1⟩)] } }), 0, { cmdOf [(0, 2, 0x0203), (0x20, 8, 64)] with stage := 1 }, ⟨by decide +kernel, by decide +kernel, by decide +kernel⟩, by decide +kernel⟩,
   ⟨withCmd (cmdOf [(0, 2, 0x0204)]) ({ State.reset with media := { Media.reset with volumes := [(0, ⟨64, 1⟩)] } }), 0, cmdOf [(0, 2, 0x0204)], ⟨by decide +kernel, by decide +kernel, by decide +kernel⟩, by decide +kernel⟩⟩

/-- Every clause of ScalarOperations has a state and operands that meet its hypotheses. -/
theorem test_meets_ScalarOperations :
    (∃ (s : State) (n : Nat) (th : Thread) (r : BitVec 256),
      Issues s n 0x080F [] th r) ∧
    (∃ (s : State) (n : Nat) (th : Thread) (r : BitVec 256) (p : Place),
      Issues s n 0x0810 (scRanges th r) th r ∧ scAddr th r % scWidth r = 0 ∧ s.resolve th (scAddr th r) (scWidth r) .load = .ok [(p, scWidth r)] ∧ s.absentTiles (scAddr th r) (scWidth r) = [] ∧ s.placeBad th p (scWidth r) = false) ∧
    (∃ (s : State) (n : Nat) (th : Thread) (r : BitVec 256) (p : Place),
      Issues s n 0x0811 (scRanges th r) th r ∧ s.resolve th (scAddr th r) (scWidth r) .store = .ok [(p, scWidth r)] ∧ ClearOfCaches s p (scWidth r) ∧ ((bitOf (fld r 114 2) 1 = true → th.flights = [])) ∧ scAddr th r % scWidth r = 0 ∧ s.absentTiles (scAddr th r) (scWidth r) = []) ∧
    (∃ (s : State) (n : Nat) (th : Thread) (r : BitVec 256) (p : Place) (old : Nat),
      Issues s n 0x0812 (scRanges th r) th r ∧ s.resolve th (scAddr th r) (scWidth r) .atom = .ok [(p, scWidth r)] ∧ ClearOfCaches s p (scWidth r) ∧ ((bitOf (fld r 114 2) 1 = true → th.flights = [])) ∧ scAddr th r % scWidth r = 0 ∧ s.absentTiles (scAddr th r) (scWidth r) = [] ∧ s.placeBad th p (scWidth r) = false ∧ old = leNat (s.placeRead th p (scWidth r))) := 
  ⟨⟨atRecord (record [(0, 0x080F)]) th0, 0, th0, record [(0, 0x080F)], ⟨by decide +kernel, by decide +kernel, by decide +kernel⟩⟩,
   ⟨atRecord (record [(0, 0x0810)]) { th0 with regs := [(0, 0x0200000000000000#64)] }, 0, { th0 with regs := [(0, 0x0200000000000000#64)] }, record [(0, 0x0810)], .win 0, ⟨by decide +kernel, by decide +kernel, by decide +kernel⟩, by decide +kernel⟩,
   ⟨atRecord (record [(0, 0x0811)]) { th0 with regs := [(0, 0x0200000000000000#64)] }, 0, { th0 with regs := [(0, 0x0200000000000000#64)] }, record [(0, 0x0811)], .win 0, ⟨by decide +kernel, by decide +kernel, by decide +kernel⟩, (rfl), (fun _ h => nomatch h), (fun _ => rfl), by decide +kernel⟩,
   ⟨atRecord (record [(0, 0x0812), (112, 2)]) { th0 with regs := [(0, 0x0200000000000000#64)] }, 0, { th0 with regs := [(0, 0x0200000000000000#64)] }, record [(0, 0x0812), (112, 2)], .win 0, 0, ⟨by decide +kernel, by decide +kernel, by decide +kernel⟩, (rfl), (fun _ h => nomatch h), (fun _ => rfl), by decide +kernel⟩⟩

/-- Every clause of ControlAndSynchronisation has a state and operands that meet its hypotheses. -/
theorem test_meets_ControlAndSynchronisation :
    (∃ (s : State) (n : Nat) (th : Thread) (r : BitVec 256),
      Issues s n 0x0701 [] th r) ∧
    (∃ (s : State) (n : Nat) (th : Thread) (r : BitVec 256) (a b : W64),
      Issues s n 0x0702 [] th r ∧ a = th.reg (fld r 64 5) ∧ b = (if flag r 77 then BitVec.ofNat 64 (fld r 78 64) else th.reg (fld r 69 5))) ∧
    (∃ (s : State) (n : Nat) (th : Thread) (r : BitVec 256) (v : W64),
      Issues s n 0x0703 [] th r ∧ v = th.reg (fld r 64 5) - 1#64) ∧
    (∃ (s : State) (n : Nat) (th : Thread) (r : BitVec 256),
      Issues s n 0x0704 [] th r ∧ th.calls.length < 16) ∧
    (∃ (s : State) (n : Nat) (th : Thread) (r : BitVec 256) (p : Nat) (ps : List Nat),
      Issues s n 0x0705 [] th r ∧ th.calls = p :: ps) ∧
    (∃ (s : State) (n : Nat) (th : Thread) (r : BitVec 256),
      Issues s n 0x0706 [] th r ∧ (∃ k x, k ≠ n ∧ s.thread? k = some x ∧ x.job = th.job ∧ x.st ≠ .ended) ∧ th.held = [] ∧ th.flights = []) ∧
    (∃ (s : State) (n : Nat) (th : Thread) (r : BitVec 256),
      Issues s n 0x0706 [] th r ∧ th.held = [] ∧ th.flights = [] ∧ ((∀ e ∈ s.compute.threads, e.2.job = th.job → e.1 ≠ n → e.2.st = .ended))) ∧
    (∃ (s : State) (n : Nat) (th : Thread) (r : BitVec 256),
      Issues s n 0x0707 [] th r) ∧
    (∃ (s : State) (n : Nat) (th : Thread) (r : BitVec 256),
      Issues s n 0x0601 [] th r ∧ ((fld r 32 2 = 0 ∨ th.flights = []))) ∧
    (∃ (s : State) (n : Nat) (th : Thread) (r : BitVec 256),
      Issues s n 0x0602 [] th r) ∧
    (∃ (s : State) (n : Nat) (th : Thread) (r : BitVec 256) (k : Nat) (x : Sem),
      Issues s n 0x0603 [] th r ∧ k = s.semKey th (fld r 32 12) ∧ th.held.length < 4 ∧ (∀ h ∈ th.held, h.sem < k) ∧ Tab.find s.compute.sems k = some x ∧ x.waiters = [] ∧ fld r 44 16 ≤ x.count) ∧
    (∃ (s : State) (n : Nat) (th : Thread) (r : BitVec 256) (k : Nat) (x : Sem),
      Issues s n 0x0603 [] th r ∧ k = s.semKey th (fld r 32 12) ∧ th.held.length < 4 ∧ (∀ h ∈ th.held, h.sem < k) ∧ Tab.find s.compute.sems k = some x ∧ x.waiters = [] ∧ x.count < fld r 44 16) ∧
    (∃ (s : State) (n : Nat) (th : Thread) (r : BitVec 256) (k : Nat) (x : Sem),
      Issues s n 0x0604 [] th r ∧ th.flights = [] ∧ k = s.semKey th (fld r 32 12) ∧ (∃ h ∈ th.held, h.sem = k) ∧ Tab.find s.compute.sems k = some x ∧ x.count + fld r 44 16 ≤ x.maximum) ∧
    (∃ (s : State) (k : Nat) (x : Sem) (w : SemWaiter) (th : Thread),
      Tab.find s.compute.sems k = some x ∧ x.waiters = [w] ∧ w.count ≤ x.count ∧ s.thread? w.thread = some th) ∧
    (∃ (s : State) (k : Nat) (x : Sem) (w : SemWaiter) (ws : List SemWaiter),
      Tab.find s.compute.sems k = some x ∧ sortBy s.waiterBefore x.waiters = w :: ws ∧ x.count < w.count) ∧
    (∃ (s : State) (n : Nat) (th : Thread) (r : BitVec 256),
      Issues s n 0x0605 [] th r ∧ th.flights = []) ∧
    (∃ (s : State) (j : Nat) (g : Option Nat) (b : Fin 16),
      s.participants j g ≠ [] ∧ (∀ e ∈ s.participants j g, e.2.st = .barrierWait g.isNone b.val)) ∧
    (∃ (s : State) (j : Nat) (g : Option Nat) (b : Fin 16),
      (∃ e ∈ s.participants j g, e.2.st ≠ .barrierWait g.isNone b.val)) ∧
    (∃ (s : State) (n : Nat) (th : Thread) (r : BitVec 256),
      Issues s n 0x0606 [] th r ∧ th.ready (fld r 32 8) = true ∧ (∀ h ∈ maskHandles (fld r 32 8), s.ctxWorking n h = false)) := 
  ⟨⟨atRecord (record [(0, 0x0701)]) th0, 0, th0, record [(0, 0x0701)], ⟨by decide +kernel, by decide +kernel, by decide +kernel⟩⟩,
   ⟨atRecord (record [(0, 0x0702)]) th0, 0, th0, record [(0, 0x0702)], 0#64, 0#64, ⟨by decide +kernel, by decide +kernel, by decide +kernel⟩, by decide +kernel⟩,
   ⟨atRecord (record [(0, 0x0703)]) th0, 0, th0, record [(0, 0x0703)], 0xFFFFFFFFFFFFFFFF#64, ⟨by decide +kernel, by decide +kernel, by decide +kernel⟩, by decide +kernel⟩,
   ⟨atRecord (record [(0, 0x0704)]) th0, 0, th0, record [(0, 0x0704)], ⟨by decide +kernel, by decide +kernel, by decide +kernel⟩, by decide +kernel⟩,
   ⟨atRecord (record [(0, 0x0705)]) { th0 with calls := [3] }, 0, { th0 with calls := [3] }, record [(0, 0x0705)], 3, [], ⟨by decide +kernel, by decide +kernel, by decide +kernel⟩, by decide +kernel⟩,
   ⟨modC (fun c => { c with threads := [(0, th0), (1, th0)] }) (atRecord (record [(0, 0x0706)]) th0), 0, th0, record [(0, 0x0706)], ⟨by decide +kernel, by decide +kernel, by decide +kernel⟩, ⟨1, th0, by decide +kernel, by decide +kernel, by decide +kernel, by decide +kernel⟩, by decide +kernel⟩,
   ⟨atRecord (record [(0, 0x0706)]) th0, 0, th0, record [(0, 0x0706)], ⟨by decide +kernel, by decide +kernel, by decide +kernel⟩, by decide +kernel⟩,
   ⟨atRecord (record [(0, 0x0707)]) th0, 0, th0, record [(0, 0x0707)], ⟨by decide +kernel, by decide +kernel, by decide +kernel⟩⟩,
   ⟨atRecord (record [(0, 0x0601)]) th0, 0, th0, record [(0, 0x0601)], ⟨by decide +kernel, by decide +kernel, by decide +kernel⟩, by decide +kernel⟩,
   ⟨atRecord (record [(0, 0x0602)]) th0, 0, th0, record [(0, 0x0602)], ⟨by decide +kernel, by decide +kernel, by decide +kernel⟩⟩,
   ⟨modC (fun c => { c with sems := [(0, ⟨1, 2, 2, .interactive, false, []⟩)] }) (atRecord (record [(0, 0x0603), (44, 1)]) th0), 0, th0, record [(0, 0x0603), (44, 1)], 0, ⟨1, 2, 2, .interactive, false, []⟩, ⟨by decide +kernel, by decide +kernel, by decide +kernel⟩, by decide +kernel⟩,
   ⟨modC (fun c => { c with sems := [(0, ⟨1, 0, 2, .interactive, false, []⟩)] }) (atRecord (record [(0, 0x0603), (44, 1)]) th0), 0, th0, record [(0, 0x0603), (44, 1)], 0, ⟨1, 0, 2, .interactive, false, []⟩, ⟨by decide +kernel, by decide +kernel, by decide +kernel⟩, by decide +kernel⟩,
   ⟨modC (fun c => { c with sems := [(0, ⟨1, 0, 2, .interactive, false, []⟩)] }) (atRecord (record [(0, 0x0604), (44, 1)]) { th0 with held := [⟨0, 1, 0⟩] }), 0, { th0 with held := [⟨0, 1, 0⟩] }, record [(0, 0x0604), (44, 1)], 0, ⟨1, 0, 2, .interactive, false, []⟩, ⟨by decide +kernel, by decide +kernel, by decide +kernel⟩, by decide +kernel⟩,
   ⟨modC (fun c => { c with sems := [(0, ⟨1, 1, 2, .interactive, false, [⟨0, 1, 32, 0⟩]⟩)] }) (atRecord (record []) { th0 with st := .semWait 0 }), 0, ⟨1, 1, 2, .interactive, false, [⟨0, 1, 32, 0⟩]⟩, ⟨0, 1, 32, 0⟩, { th0 with st := .semWait 0 }, by decide +kernel⟩,
   ⟨modC (fun c => { c with sems := [(0, ⟨1, 0, 2, .interactive, false, [⟨0, 1, 32, 0⟩]⟩)] }) (atRecord (record []) { th0 with st := .semWait 0 }), 0, ⟨1, 0, 2, .interactive, false, [⟨0, 1, 32, 0⟩]⟩, ⟨0, 1, 32, 0⟩, [], by decide +kernel⟩,
   ⟨atRecord (record [(0, 0x0605)]) th0, 0, th0, record [(0, 0x0605)], ⟨by decide +kernel, by decide +kernel, by decide +kernel⟩, by decide +kernel⟩,
   ⟨atRecord (record []) { th0 with st := .barrierWait true 0 }, 0, none, 0, by decide +kernel⟩,
   ⟨atRecord (record []) th0, 0, none, 0, by decide +kernel⟩,
   ⟨atRecord (record [(0, 0x0606), (32, 1)]) th0, 0, th0, record [(0, 0x0606), (32, 1)], ⟨by decide +kernel, by decide +kernel, by decide +kernel⟩, by decide +kernel⟩⟩

/-- Every clause of OperationsFault has a state and operands that meet its hypotheses. -/
theorem test_meets_OperationsFault :
    (∃ (s : State) (n : Nat) (th : Thread) (r : BitVec 256),
      Issues s n 0x0704 [] th r ∧ 16 ≤ th.calls.length) ∧
    (∃ (s : State) (n : Nat) (th : Thread) (r : BitVec 256),
      Issues s n 0x0705 [] th r ∧ th.calls = []) ∧
    (∃ (s : State) (n : Nat) (th : Thread) (r : BitVec 256),
      Issues s n 0x0706 [] th r ∧ th.held ≠ []) ∧
    (∃ (s : State) (n : Nat) (th : Thread) (r : BitVec 256),
      s.issuing n 0x0605 = some (th, r) ∧ th.held ≠ []) ∧
    (∃ (s : State) (n : Nat) (th : Thread) (r : BitVec 256),
      Issues s n 0x0603 [] th r ∧ ((4 ≤ th.held.length ∨ ∃ h ∈ th.held, s.semKey th (fld r 32 12) ≤ h.sem))) ∧
    (∃ (s : State) (n : Nat) (th : Thread) (r : BitVec 256),
      Issues s n 0x0604 [] th r ∧ th.flights = [] ∧ (∀ h ∈ th.held, h.sem ≠ s.semKey th (fld r 32 12))) ∧
    (∃ (s : State) (n : Nat) (th : Thread) (r : BitVec 256),
      s.issuing n 0x0201 = some (th, r) ∧ (∃ h ∈ th.held, 256 ≤ h.ops)) ∧
    (∃ (s : State) (n : Nat) (th : Thread) (r : BitVec 256),
      Issues s n 0x0810 (scRanges th r) th r ∧ scAddr th r % scWidth r ≠ 0) := 
  ⟨⟨atRecord (record [(0, 0x0704)]) { th0 with calls := List.replicate 16 1 }, 0, { th0 with calls := List.replicate 16 1 }, record [(0, 0x0704)], ⟨by decide +kernel, by decide +kernel, by decide +kernel⟩, by decide +kernel⟩,
   ⟨atRecord (record [(0, 0x0705)]) th0, 0, th0, record [(0, 0x0705)], ⟨by decide +kernel, by decide +kernel, by decide +kernel⟩, by decide +kernel⟩,
   ⟨atRecord (record [(0, 0x0706)]) { th0 with held := [⟨0, 1, 0⟩] }, 0, { th0 with held := [⟨0, 1, 0⟩] }, record [(0, 0x0706)], ⟨by decide +kernel, by decide +kernel, by decide +kernel⟩, by decide +kernel⟩,
   ⟨atRecord (record [(0, 0x0605)]) { th0 with held := [⟨0, 1, 0⟩] }, 0, { th0 with held := [⟨0, 1, 0⟩] }, record [(0, 0x0605)], by decide +kernel⟩,
   ⟨atRecord (record [(0, 0x0603), (32, 1)]) { th0 with held := [⟨2, 1, 0⟩] }, 0, { th0 with held := [⟨2, 1, 0⟩] }, record [(0, 0x0603), (32, 1)], ⟨by decide +kernel, by decide +kernel, by decide +kernel⟩, by decide +kernel⟩,
   ⟨atRecord (record [(0, 0x0604), (32, 1)]) { th0 with held := [⟨2, 1, 0⟩] }, 0, { th0 with held := [⟨2, 1, 0⟩] }, record [(0, 0x0604), (32, 1)], ⟨by decide +kernel, by decide +kernel, by decide +kernel⟩, by decide +kernel⟩,
   ⟨atRecord (record [(0, 0x0201)]) { th0 with held := [⟨2, 1, 256⟩] }, 0, { th0 with held := [⟨2, 1, 256⟩] }, record [(0, 0x0201)], by decide +kernel⟩,
   ⟨atRecord (record [(0, 0x0810), (112, 1)]) { th0 with regs := [(0, 0x0200000000000001#64)] }, 0, { th0 with regs := [(0, 0x0200000000000001#64)] }, record [(0, 0x0810), (112, 1)], ⟨by decide +kernel, by decide +kernel, by decide +kernel⟩, by decide +kernel⟩⟩

/-- Every clause of UnbindWaits has a state and operands that meet its hypotheses. -/
theorem test_meets_UnbindWaits :
    ∃ (s : State) (n : Nat) (th : Thread) (r : BitVec 256) (h : Nat),
      s.issuing n 0x0606 = some (th, r) ∧ h < 8 ∧ bitOf (fld r 32 8) h = true ∧ (th.handle h).count ≠ 0 := ⟨atRecord (record [(0, 0x0606), (32, 1)]) { th0 with handles := [(0, ⟨none, 1, .none, none⟩)] }, 0, { th0 with handles := [(0, ⟨none, 1, .none, none⟩)] }, record [(0, 0x0606), (32, 1)], 0, by decide +kernel⟩

/-- Every clause of BitPlanesMultiply has a state and operands that meet its hypotheses. -/
theorem test_meets_BitPlanesMultiply :
    ∃ (sgn : Bool) (p : Nat) (ws : List Int) (xs : List Nat),
      1 ≤ p ∧ (∀ x ∈ xs, x < 2 ^ p) := ⟨true, 2, [3, -1], [1, 3], by decide +kernel⟩

/-- Every clause of MatrixOperations has a state and operands that meet its hypotheses. -/
theorem test_meets_MatrixOperations :
    (∃ (s : State) (n : Nat) (th : Thread) (r : BitVec 256) (k : Nat) (x : Ctx),
      Issues s n 0x0101 (s.mmRanges n th r) th r ∧ s.bregFault th r (mmPieces r (bregBase th r)) = none ∧ (th.handle (handleOf r)).ctx = some k ∧ Tab.find s.compute.ctxs k = some x) ∧
    (∃ (s : State) (n : Nat) (th : Thread) (r : BitVec 256) (g : Gang),
      Issues s n 0x0101 (s.mmRanges n th r) th r ∧ s.bregFault th r (mmPieces r (bregBase th r)) = none ∧ (th.handle (handleOf r)).ctx = none ∧ s.gangOf? th = some g) ∧
    (∃ (s : State) (n : Nat) (th : Thread) (r : BitVec 256) (k : Nat) (x : Ctx),
      Issues s n 0x0102 (s.mmRanges n th r) th r ∧ s.bregFault th r (mmPieces r (bregBase th r)) = none ∧ (th.handle (handleOf r)).ctx = some k ∧ Tab.find s.compute.ctxs k = some x ∧ x.queue ≠ []) ∧
    (∃ (s : State) (n : Nat) (th : Thread) (r : BitVec 256) (k : Nat) (x : Ctx),
      Issues s n 0x0103 (s.mmRanges n th r) th r ∧ s.bregFault th r (mmPieces r (bregBase th r)) = none ∧ (th.handle (handleOf r)).ctx = some k ∧ Tab.find s.compute.ctxs k = some x) ∧
    (∃ (s : State) (c : CoreNo) (e : EngNo) (k : Nat) (x : Ctx) (mm : MmOp) (rest : List MmOp) (th : Thread) (g : Gang),
      s.ctxOn c e = some (k, x) ∧ Tab.find s.compute.ctxs k = some x ∧ x.queue = mm :: rest ∧ x.running = none ∧ s.thread? mm.thread = some th ∧ s.jobRuns th.job = true ∧ s.gangOf? th = some g ∧ g.preempted = false ∧ s.tileRoom c e mm = true ∧ s.mmFault k x mm = none ∧ opcodeOf mm.rcd = 0x0101 ∧ mmLoadNext mm.rcd = false ∧ ((mmSwap mm.rcd = true → x.loads = [])) ∧ x.slotsPending mm.rcd = false) ∧
    (∃ (s : State) (c : CoreNo) (e : EngNo) (k : Nat) (x : Ctx) (mm : MmOp) (rest : List MmOp) (th : Thread) (g : Gang),
      s.ctxOn c e = some (k, x) ∧ Tab.find s.compute.ctxs k = some x ∧ x.queue = mm :: rest ∧ x.running = none ∧ s.thread? mm.thread = some th ∧ s.jobRuns th.job = true ∧ s.gangOf? th = some g ∧ g.preempted = false ∧ s.tileRoom c e mm = true ∧ s.mmFault k x mm = none ∧ opcodeOf mm.rcd = 0x0102 ∧ x.loads = []) ∧
    (∃ (s : State) (c : CoreNo) (e : EngNo) (k : Nat) (x : Ctx) (mm : MmOp) (rest : List MmOp) (th : Thread) (g : Gang),
      s.ctxOn c e = some (k, x) ∧ Tab.find s.compute.ctxs k = some x ∧ x.queue = mm :: rest ∧ x.running = none ∧ s.thread? mm.thread = some th ∧ s.jobRuns th.job = true ∧ s.gangOf? th = some g ∧ g.preempted = false ∧ s.tileRoom c e mm = true ∧ s.mmFault k x mm = none ∧ opcodeOf mm.rcd = 0x0103) ∧
    (∃ (s : State) (c : CoreNo) (e : EngNo) (stale : List Nat) (k : Nat) (x : Ctx) (mm : MmOp) (due : Nat) (xs : List Byte),
      xs = streamed mm.old (s.benchRead mm.thread (benchField mm.base 1024 (mmXLine mm.rcd)) (mmXBytes mm.rcd)) stale ∧ s.ctxOn c e = some (k, x) ∧ Tab.find s.compute.ctxs k = some x ∧ x.running = some (mm, due) ∧ mmEmitAfter mm.rcd = false ∧ mmXblocked mm.rcd = false ∧ mmZpEn mm.rcd = false ∧ mmAllowEn mm.rcd = false ∧ s.integ.badWords = [] ∧ s.strikesOf (8 * c.val + e.val) < 3 ∧ s.ctxYields x = false ∧ (∀ j ∈ s.compute.jobs, j.2.ending = none)) ∧
    (∃ (s : State) (c : CoreNo) (e : EngNo) (k : Nat) (x : Ctx) (mm : MmOp) (due : Nat) (rest : List (MmOp × Nat)) (tile : Tile),
      tile = Tile.ofBytes (s.benchRead mm.thread (benchField mm.base 1024 (fld mm.rcd 40 13)) (1024 * tileLines (mmSfmt mm.rcd))) (mmLane mm.rcd) (mmSfmt mm.rcd) (fld mm.rcd 53 5) (fld mm.rcd 58 5) ∧ s.ctxOn c e = some (k, x) ∧ Tab.find s.compute.ctxs k = some x ∧ x.loads = (mm, due) :: rest ∧ opcodeOf mm.rcd = 0x0102 ∧ s.integ.badWords = [] ∧ s.strikesOf (8 * c.val + e.val) < 3 ∧ s.ctxYields x = false ∧ (∀ j ∈ s.compute.jobs, j.2.ending = none)) ∧
    (∃ (s : State) (c : CoreNo) (e : EngNo) (k : Nat) (x : Ctx) (m : Emission) (rest : List Emission) (th : Thread) (g : Gang) (d n : Nat) (bs : List Byte),
      d = (EmitDesc.ofBytes (s.benchRead m.mm.thread m.desc 64)).dest ∧ bs = fit n (x.counts.flatMap (fun v => leBytes 2 v)) ∧ s.ctxOn c e = some (k, x) ∧ Tab.find s.compute.ctxs k = some x ∧ x.emissions = m :: rest ∧ s.thread? m.mm.thread = some th ∧ s.gangOf? th = some g ∧ m.binary = some n ∧ x.counts ≠ [] ∧ s.pieceLocked m.mm.thread d n = false ∧ s.ctxYields x = false ∧ s.strikesOf (8 * c.val + e.val) < 3 ∧ (∀ j ∈ s.compute.jobs, j.2.ending = none)) ∧
    (∃ (s : State) (c : CoreNo) (e : EngNo) (k : Nat) (x : Ctx) (m : Emission) (rest : List Emission) (th : Thread) (g : Gang) (d : EmitDesc) (o : Emitted),
      d = EmitDesc.ofBytes (s.benchRead m.mm.thread m.desc 64) ∧ o = emitSlots d (ScaleE.ofNat (leNat (s.benchRead m.mm.thread d.oentry 8))) (if d.form = 2 then (List.range m.results).map (fun i => fieldAt (s.benchRead m.mm.thread (d.ascale + 4 * i) 4) 0 4) else []) [] (if d.corrEn then some ((List.range m.results).map (fun i => signedOf 48 (leNat (s.benchRead m.mm.thread (d.corr + 8 * i) 8)))) else none) (x.emitted m) ∧ s.ctxOn c e = some (k, x) ∧ Tab.find s.compute.ctxs k = some x ∧ x.emissions = m :: rest ∧ s.thread? m.mm.thread = some th ∧ s.gangOf? th = some g ∧ m.binary = none ∧ d.outlEn = false ∧ o.side = [] ∧ o.entry = none ∧ s.pieceLocked m.mm.thread d.dest o.bytes.length = false ∧ s.ctxYields x = false ∧ s.plausMode = 2 ∧ s.strikesOf (8 * c.val + e.val) < 3 ∧ (∀ j ∈ s.compute.jobs, j.2.ending = none)) ∧
    (∃ (s : State) (c : CoreNo) (e : EngNo) (k : Nat) (x : Ctx) (mm : MmOp) (due : Nat) (stale : List Nat) (th : Thread) (j : Job),
      s.ctxOn c e = some (k, x) ∧ Tab.find s.compute.ctxs k = some x ∧ x.running = some (mm, due) ∧ s.thread? mm.thread = some th ∧ s.job? th.job = some j ∧ j.ending = none ∧ s.integ.badWords = []) ∧
    (∃ (s : State) (c : CoreNo) (e : Fin 8) (q : TileEntry) (rest : List TileEntry) (th : Thread),
      (s.core c).rrQueue = e.val ∧ Tab.find (s.core c).queues e.val = some (q :: rest) ∧ q.filled = true ∧ (∀ y ∈ rest, y.op ≠ q.op) ∧ s.thread? q.thread = some th) := 
  ⟨⟨modC (fun c => { c with ctxs := [(0, ctx0)], nextCtx := 1 }) (atRecord (record [(0, 0x0101)]) { th0 with handles := [(0, ⟨some 0, 0, .none, none⟩)] }), 0, { th0 with handles := [(0, ⟨some 0, 0, .none, none⟩)] }, record [(0, 0x0101)], 0, ctx0, ⟨by decide +kernel, by decide +kernel, by decide +kernel⟩, by decide +kernel⟩,
   ⟨atRecord (record [(0, 0x0101)]) th0, 0, th0, record [(0, 0x0101)], gang0, ⟨by decide +kernel, by decide +kernel, by decide +kernel⟩, by decide +kernel⟩,
   ⟨modC (fun c => { c with ctxs := [(0, { ctx0 with queue := [⟨0, 0, 0, record [(0, 0x0101)], 0, []⟩] })], nextCtx := 1 }) (atRecord (record [(0, 0x0102)]) { th0 with handles := [(0, ⟨some 0, 0, .none, none⟩)] }), 0, { th0 with handles := [(0, ⟨some 0, 0, .none, none⟩)] }, record [(0, 0x0102)], 0, { ctx0 with queue := [⟨0, 0, 0, record [(0, 0x0101)], 0, []⟩] }, ⟨by decide +kernel, by decide +kernel, by decide +kernel⟩, by decide +kernel⟩,
   ⟨modC (fun c => { c with ctxs := [(0, ctx0)], nextCtx := 1 }) (atRecord (record [(0, 0x0103)]) { th0 with handles := [(0, ⟨some 0, 0, .none, none⟩)] }), 0, { th0 with handles := [(0, ⟨some 0, 0, .none, none⟩)] }, record [(0, 0x0103)], 0, ctx0, ⟨by decide +kernel, by decide +kernel, by decide +kernel⟩, by decide +kernel⟩,
   ⟨modC (fun c => { c with ctxs := [(0, { ctx0 with queue := [⟨0, 0, 0, record [(0, 0x0101), (56, 1)], 0, []⟩] })], nextCtx := 1 }) (atRecord 0 th0), 0, 0, 0, { ctx0 with queue := [⟨0, 0, 0, record [(0, 0x0101), (56, 1)], 0, []⟩] }, ⟨0, 0, 0, record [(0, 0x0101), (56, 1)], 0, []⟩, [], th0, gang0, by decide +kernel⟩,
   ⟨modC (fun c => { c with ctxs := [(0, { ctx0 with queue := [⟨0, 0, 0, record [(0, 0x0102)], 0, []⟩] })], nextCtx := 1 }) (atRecord 0 th0), 0, 0, 0, { ctx0 with queue := [⟨0, 0, 0, record [(0, 0x0102)], 0, []⟩] }, ⟨0, 0, 0, record [(0, 0x0102)], 0, []⟩, [], th0, gang0, by decide +kernel⟩,
   ⟨modC (fun c => { c with ctxs := [(0, { ctx0 with queue := [⟨0, 0, 0, record [(0, 0x0103), (43, 1)], 0, []⟩] })], nextCtx := 1 }) (atRecord 0 th0), 0, 0, 0, { ctx0 with queue := [⟨0, 0, 0, record [(0, 0x0103), (43, 1)], 0, []⟩] }, ⟨0, 0, 0, record [(0, 0x0103), (43, 1)], 0, []⟩, [], th0, gang0, by decide +kernel⟩,
   ⟨modC (fun c => { c with ctxs := [(0, { ctx0 with running := some (⟨0, 0, 0, record [(0, 0x0101), (56, 1)], 0, []⟩, 5) })], nextCtx := 1 }) (atRecord 0 th0), 0, 0, [], 0, { ctx0 with running := some (⟨0, 0, 0, record [(0, 0x0101), (56, 1)], 0, []⟩, 5) }, ⟨0, 0, 0, record [(0, 0x0101), (56, 1)], 0, []⟩, 5, _, (rfl), by decide +kernel⟩,
   ⟨modC (fun c => { c with ctxs := [(0, { ctx0 with loads := [(⟨0, 0, 0, record [(0, 0x0102)], 0, []⟩, 5)] })], nextCtx := 1 }) (atRecord 0 th0), 0, 0, 0, { ctx0 with loads := [(⟨0, 0, 0, record [(0, 0x0102)], 0, []⟩, 5)] }, ⟨0, 0, 0, record [(0, 0x0102)], 0, []⟩, 5, [], _, (rfl), by decide +kernel⟩,
   ⟨modC (fun c => { c with ctxs := [(0, { ctx0 with emissions := [⟨⟨0, 0, 0, record [(0, 0x0103), (43, 1)], 0, []⟩, false, 0, 1, 0, some 2, 0, 5⟩], counts := [7], lane := some .binary })], nextCtx := 1 }) (atRecord 0 th0), 0, 0, 0, { ctx0 with emissions := [⟨⟨0, 0, 0, record [(0, 0x0103), (43, 1)], 0, []⟩, false, 0, 1, 0, some 2, 0, 5⟩], counts := [7], lane := some .binary }, ⟨⟨0, 0, 0, record [(0, 0x0103), (43, 1)], 0, []⟩, false, 0, 1, 0, some 2, 0, 5⟩, [], th0, gang0, _, 2, _, (rfl), (rfl), by decide +kernel⟩,
   ⟨(fun s : State => { s with integ := { s.integ with policy := 0x001E05AC#64 } }) (modC (fun c => { c with ctxs := [(0, { ctx0 with emissions := [⟨⟨0, 0, 0, record [(0, 0x0103), (43, 1)], 0, []⟩, false, 0, 1, 2, none, 0, 5⟩], col := [(0, ⟨.l16x1, [5, -7], false⟩)], lane := some .l16x1, colLane := some .l16x1 })], nextCtx := 1 }) (atRecord 0 th0)), 0, 0, 0, { ctx0 with emissions := [⟨⟨0, 0, 0, record [(0, 0x0103), (43, 1)], 0, []⟩, false, 0, 1, 2, none, 0, 5⟩], col := [(0, ⟨.l16x1, [5, -7], false⟩)], lane := some .l16x1, colLane := some .l16x1 }, ⟨⟨0, 0, 0, record [(0, 0x0103), (43, 1)], 0, []⟩, false, 0, 1, 2, none, 0, 5⟩, [], th0, gang0, _, _, (rfl), (rfl), by decide +kernel⟩,
   ⟨modC (fun c => { c with ctxs := [(0, { ctx0 with running := some (⟨0, 0, 0, record [(0, 0x0101), (56, 1)], 0, []⟩, 5) })], nextCtx := 1 }) (atRecord 0 th0), 0, 0, 0, { ctx0 with running := some (⟨0, 0, 0, record [(0, 0x0101), (56, 1)], 0, []⟩, 5) }, ⟨0, 0, 0, record [(0, 0x0101), (56, 1)], 0, []⟩, 5, [], th0, job0, by decide +kernel⟩,
   ⟨modCore0 (fun x => { x with queues := [(0, [⟨0, 0, 0, true, 0, 0⟩])] }) (atRecord 0 th0), 0, 0, ⟨0, 0, 0, true, 0, 0⟩, [], th0, by decide +kernel⟩⟩

/-- Every clause of VectorOperations has a state and operands that meet its hypotheses. -/
theorem test_meets_VectorOperations :
    (∀ e ∈ [(0x0201, Instr.add), (0x0202, Instr.mul), (0x0203, Instr.fma), (0x0204, Instr.cmp), (0x0205, Instr.sel), (0x0206, Instr.min), (0x0207, Instr.max), (0x0208, Instr.compress), (0x0209, Instr.expand)], ∃ (s : State) (n : Nat) (th : Thread) (r : BitVec 256) (g : Gang) (u : UnitOp),
      Issues s n e.1 (vxRanges th r) th r ∧ s.gangOf? th = some g ∧ u = ⟨n, s.compute.nextIdent, th.pc, r, bregBase th r, if vxCregEn r then (th.reg (fld r 94 5)).toNat else fld r 80 13, (List.range 3).map (fun k => if vxForm r k = 3 then th.reg (vxAddr r k % 32) else 0#64), vxSource th r, s.compute.arrivals⟩) ∧
    (∃ (s : State) (c : CoreNo) (u : UnitOp) (due : Nat) (d : VxDone) (th : Thread) (g : Gang),
      d = vxRun u.rcd (s.vxRounding u.thread u.rcd u.base u.count) s.freeCtr (s.reader u.thread) u.base u.count u.scalars ∧ (s.core c).vxRun = some (u, due) ∧ (s.core c).vxWait = [] ∧ s.thread? u.thread = some th ∧ s.gangOf? th = some g ∧ g.saved = none ∧ (∀ j ∈ s.compute.jobs, j.2.ending = none) ∧ s.integ.badWords = [] ∧ (d.writes.Pairwise (fun a b => a.1 + a.2.length ≤ b.1 ∨ b.1 + b.2.length ≤ a.1)) ∧ (∀ w ∈ d.writes, s.pieceLocked u.thread w.1 w.2.length = false)) := 
  ⟨(by
    simp only [List.forall_mem_cons]
    exact ⟨⟨atRecord (record [(0, 0x0201)]) th0, 0, th0, record [(0, 0x0201)], gang0, _, ⟨by decide +kernel, by decide +kernel, by decide +kernel⟩, by decide +kernel, rfl⟩,
     ⟨atRecord (record [(0, 0x0202)]) th0, 0, th0, record [(0, 0x0202)], gang0, _, ⟨by decide +kernel, by decide +kernel, by decide +kernel⟩, by decide +kernel, rfl⟩,
     ⟨atRecord (record [(0, 0x0203)]) th0, 0, th0, record [(0, 0x0203)], gang0, _, ⟨by decide +kernel, by decide +kernel, by decide +kernel⟩, by decide +kernel, rfl⟩,
     ⟨atRecord (record [(0, 0x0204)]) th0, 0, th0, record [(0, 0x0204)], gang0, _, ⟨by decide +kernel, by decide +kernel, by decide +kernel⟩, by decide +kernel, rfl⟩,
     ⟨atRecord (record [(0, 0x0205)]) th0, 0, th0, record [(0, 0x0205)], gang0, _, ⟨by decide +kernel, by decide +kernel, by decide +kernel⟩, by decide +kernel, rfl⟩,
     ⟨atRecord (record [(0, 0x0206)]) th0, 0, th0, record [(0, 0x0206)], gang0, _, ⟨by decide +kernel, by decide +kernel, by decide +kernel⟩, by decide +kernel, rfl⟩,
     ⟨atRecord (record [(0, 0x0207)]) th0, 0, th0, record [(0, 0x0207)], gang0, _, ⟨by decide +kernel, by decide +kernel, by decide +kernel⟩, by decide +kernel, rfl⟩,
     ⟨atRecord (record [(0, 0x0208)]) th0, 0, th0, record [(0, 0x0208)], gang0, _, ⟨by decide +kernel, by decide +kernel, by decide +kernel⟩, by decide +kernel, rfl⟩,
     ⟨atRecord (record [(0, 0x0209)]) th0, 0, th0, record [(0, 0x0209)], gang0, _, ⟨by decide +kernel, by decide +kernel, by decide +kernel⟩, by decide +kernel, rfl⟩,
     fun _ h => by cases h⟩),
   ⟨modCore0 (fun x => { x with vxRun := some (⟨0, 0, 0, 0, 0, 0, [], 8, 0⟩, 5) }) (atRecord 0 th0), 0, ⟨0, 0, 0, 0, 0, 0, [], 8, 0⟩, 5, _, th0, gang0, (rfl), by decide +kernel⟩⟩

/-- Every clause of Selections has a state and operands that meet its hypotheses. -/
theorem test_meets_Selections :
    (∃ (s : State) (n : Nat) (th : Thread) (r : BitVec 256) (g : Gang) (u : UnitOp),
      Issues s n 0x0301 (s.slRanges n th r) th r ∧ u = ⟨n, s.compute.nextIdent, th.pc, r, bregBase th r, if slMode r = 1 then 0 else (th.reg (fld r 97 5)).toNat, [], 8, s.compute.arrivals⟩ ∧ s.gangOf? th = some g ∧ (s.core g.core).slRun = none ∧ (s.core g.core).slWait = [] ∧ s.slFault u = none) ∧
    (∃ (s : State) (c : CoreNo) (q : SelRun) (th : Thread) (g : Gang) (bs : List Byte),
      bs = (selectK (slInt q.uop.rcd) (slDedup q.uop.rcd) (slK q.uop.rcd) (slElems q.uop.rcd (s.reader q.uop.thread) q.uop.base q.uop.count)).bytes (slInt q.uop.rcd) (slRnd q.uop.rcd) ∧ (s.core c).slRun = some q ∧ (s.core c).slWait = [] ∧ q.cut = none ∧ slPasses q.uop.rcd ≤ q.pass + 1 ∧ s.thread? q.uop.thread = some th ∧ s.gangOf? th = some g ∧ (∀ j ∈ s.compute.jobs, j.2.ending = none) ∧ s.integ.badWords = [] ∧ s.pieceLocked q.uop.thread (slResult q.uop.rcd q.uop.base).1 (slResult q.uop.rcd q.uop.base).2 = false) ∧
    (∃ (s : State) (c : CoreNo) (q : SelRun) (th : Thread) (j : Job),
      (s.core c).slRun = some q ∧ q.cut = none ∧ q.pass + 1 < slPasses q.uop.rcd ∧ s.thread? q.uop.thread = some th ∧ s.job? th.job = some j ∧ j.ending.isSome = true) := 
  ⟨⟨atRecord (record [(0, 0x0301), (34, 11), (38, 1), (72, 1), (140, 4)]) th0, 0, th0, record [(0, 0x0301), (34, 11), (38, 1), (72, 1), (140, 4)], gang0, _, ⟨by decide +kernel, by decide +kernel, by decide +kernel⟩, (rfl), by decide +kernel⟩,
   ⟨modCore0 (fun x => { x with slRun := some ⟨⟨0, 0, 0, record [(0, 0x0301), (34, 11), (38, 1), (72, 1), (140, 4)], 0, 0, [], 8, 0⟩, 0, 5, 0, none⟩ }) (atRecord 0 th0), 0, ⟨⟨0, 0, 0, record [(0, 0x0301), (34, 11), (38, 1), (72, 1), (140, 4)], 0, 0, [], 8, 0⟩, 0, 5, 0, none⟩, th0, gang0, _, (rfl), by decide +kernel⟩,
   ⟨modC (fun c => { c with jobs := [(0, { job0 with ending := some .restart })] }) (modCore0 (fun x => { x with slRun := some ⟨⟨0, 0, 0, record [(0, 0x0301), (34, 11), (38, 65), (72, 1), (140, 4)], 0, 0, [], 8, 0⟩, 0, 5, 0, none⟩ }) (atRecord 0 th0)), 0, ⟨⟨0, 0, 0, record [(0, 0x0301), (34, 11), (38, 65), (72, 1), (140, 4)], 0, 0, [], 8, 0⟩, 0, 5, 0, none⟩, th0, { job0 with ending := some .restart }, by decide +kernel⟩⟩

/-- Every clause of TierMoves has a state and operands that meet its hypotheses. -/
theorem test_meets_TierMoves :
    (∀ e ∈ [(0x0401, Instr.mvMove), (0x0402, Instr.mvLend), (0x0403, Instr.mvDrop), (0x0404, Instr.mvPrefetch)], ∃ (s : State) (n : Nat) (th : Thread) (r : BitVec 256) (j : Job),
      Issues s n e.1 (s.mvRanges th r) th r ∧ s.mvCheck th r = none ∧ s.stranger (s.mvSpans th r) = none ∧ s.job? th.job = some j) ∧
    (∃ (s : State) (k : Nat) (q : TierReq) (th : Thread) (y0 : Parity) (p d : Place),
      (q.kind = .move ∨ q.kind = .lend) ∧ ((q.kind = .move → s.resolve th q.src.toNat q.len .moveDst = .ok [(p, q.len)])) ∧ ClearOfCaches s d q.len ∧ ((q.kind = .lend → q.dst.toNat / 2 ^ 56 ≠ 0xFF)) ∧ Tab.find s.tiers.reqs k = some q ∧ y0.lost = false ∧ s.thread? q.thread = some th ∧ q.tiles = [] ∧ q.deadline = none ∧ q.remote = none ∧ q.sideRemote = none ∧ q.outs = [] ∧ q.slen = 0 ∧ q.sdlen = 0 ∧ q.dlen = q.len ∧ q.len ≠ 0 ∧ s.tileTurn k q = true ∧ mvTranspose q.rcd = false ∧ mvReblock q.rcd = false ∧ mvRotary q.rcd = false ∧ mvScales q.rcd = false ∧ s.remoteOf q.src.toNat = none ∧ s.remoteOf q.dst.toNat = none ∧ s.resolve th q.src.toNat q.len .moveSrc = .ok [(p, q.len)] ∧ s.resolve th q.dst.toNat q.len .moveDst = .ok [(d, q.len)] ∧ s.placeBad th p q.len = false ∧ (∀ j ∈ s.compute.jobs, j.2.ending = none)) ∧
    (∃ (s : State) (k : Nat) (q : TierReq) (th : Thread) (y0 : Parity),
      Tab.find s.tiers.reqs k = some q ∧ q.kind = .fetching ∧ s.thread? q.thread = some th ∧ q.tiles = [] ∧ q.deadline = none ∧ q.src.toNat / 2 ^ 56 = 1 ∧ (∀ y ∈ tilesOf q.src.toNat q.len, s.tileLost y = false) ∧ (∀ j ∈ s.compute.jobs, j.2.ending = none)) ∧
    (∃ (s : State) (k : Nat) (q : TierReq) (th : Thread) (y0 : Parity),
      Tab.find s.tiers.reqs k = some q ∧ q.kind = .drop ∧ s.thread? q.thread = some th ∧ q.tiles = [] ∧ q.deadline = none ∧ q.src.toNat / 2 ^ 56 = 1 ∧ (∀ j ∈ s.compute.jobs, j.2.ending = none)) ∧
    (∃ (s : State) (k d : Nat) (q : TierReq) (th : Thread) (j : Job) (y0 : Parity),
      Tab.find s.tiers.reqs k = some q ∧ q.kind ≠ .fetching ∧ q.kind ≠ .pageIn ∧ q.kind ≠ .service ∧ q.kind ≠ .remote ∧ s.thread? q.thread = some th ∧ q.tiles = [] ∧ q.deadline = some d ∧ d < s.tick ∧ s.job? q.job = some j ∧ j.ending = none) ∧
    (∃ (s : State) (k : Nat) (q : TierReq) (th : Thread) (j : Job) (y0 : Parity),
      (q.kind = .move ∨ q.kind = .lend) ∧ Tab.find s.tiers.reqs k = some q ∧ y0.lost = true ∧ s.thread? q.thread = some th ∧ q.tiles = [] ∧ q.deadline = none ∧ q.sent = false ∧ s.rangeHere q.remote q.len = true ∧ s.rangeHere q.sideRemote (if q.remote = q.sideRemote then q.len + q.slen else q.slen) = true ∧ s.tileTurn k q = true ∧ s.job? q.job = some j ∧ j.ending = none) ∧
    (∃ (s : State) (k : Nat) (q : TierReq) (f : Fetch) (y0 : Parity),
      y0.lost = false ∧ Tab.find s.tiers.reqs k = some q ∧ s.tiers.fetches.find? (fun f => f.tile ∈ q.tiles) = some f ∧ s.tiers.t2.length < s.poolTiles ∧ (∀ e ∈ s.tiers.reqs, e.2.kind ≠ .remote) ∧ (∀ e ∈ s.tiers.reqs, e.2.deadline.all (fun d => s.tick ≤ d) = true)) ∧
    (∃ (s : State) (k : Nat) (q : TierReq) (f : Fetch) (j : Job) (x : FetchEnd) (y0 : Parity),
      ((x ≠ .good ∨ y0.lost = true)) ∧ ((∀ d, q.deadline = some d → s.tick < d)) ∧ Tab.find s.tiers.reqs k = some q ∧ s.tiers.fetches.find? (fun f => f.tile ∈ q.tiles) = some f ∧ f.reqs = [k] ∧ q.kind ≠ .fetching ∧ q.kind ≠ .service ∧ q.kind ≠ .remote ∧ s.job? q.job = some j ∧ j.ending = none) ∧
    (∃ (s : State) (k d : Nat) (q : TierReq) (j : Job),
      Tab.find s.tiers.reqs k = some q ∧ q.deadline = some d ∧ q.kind ≠ .fetching ∧ q.kind ≠ .service ∧ q.kind ≠ .remote ∧ s.job? q.job = some j ∧ j.ending = none) ∧
    (∃ (s : State) (k d : Nat) (q : TierReq) (j : Job),
      Tab.find s.tiers.reqs k = some q ∧ q.deadline = some d ∧ q.kind = .fetching ∧ s.job? q.job = some j) ∧
    (∃ (s : State) (q : QuarterNo) (k : Nat) (x : Machine.Stream),
      Tab.find (Tab.at s.tiers.streams q.val []) k = some x) := 
  ⟨(by
    simp only [List.forall_mem_cons]
    exact ⟨⟨atRecord (record [(0, 0x0401)]) th0, 0, th0, record [(0, 0x0401)], job0, ⟨by decide +kernel, by decide +kernel, by decide +kernel⟩, by decide +kernel, by decide +kernel, by decide +kernel⟩,
     ⟨atRecord (record [(0, 0x0402)]) th0, 0, th0, record [(0, 0x0402)], job0, ⟨by decide +kernel, by decide +kernel, by decide +kernel⟩, by decide +kernel, by decide +kernel, by decide +kernel⟩,
     ⟨atRecord (record [(0, 0x0403)]) th0, 0, th0, record [(0, 0x0403)], job0, ⟨by decide +kernel, by decide +kernel, by decide +kernel⟩, by decide +kernel, by decide +kernel, by decide +kernel⟩,
     ⟨atRecord (record [(0, 0x0404)]) th0, 0, th0, record [(0, 0x0404)], job0, ⟨by decide +kernel, by decide +kernel, by decide +kernel⟩, by decide +kernel, by decide +kernel, by decide +kernel⟩,
     fun _ h => by cases h⟩),
   ⟨tierReq ⟨.move, 0, 0, 0x0401, none, 0, 0x0200000000000000#64, 0x0200000000001000#64, 32, 32, 0, 0, 0, 0, 0, none, .interactive, [], 0, 0, none, none, [], false, 0, [], 0⟩, 0, ⟨.move, 0, 0, 0x0401, none, 0, 0x0200000000000000#64, 0x0200000000001000#64, 32, 32, 0, 0, 0, 0, 0, none, .interactive, [], 0, 0, none, none, [], false, 0, [], 0⟩, th0, .good, .win 0, .win 4096, (Or.inl rfl), (fun _ => by decide +kernel), (by intro o h; cases h), (by intro h; cases h), by decide +kernel⟩,
   ⟨tierReq ⟨.fetching, 0, 0, 0x0401, none, 0, 0x0100000000000000#64, 0x0200000000001000#64, 32, 32, 0, 0, 0, 0, 0, none, .interactive, [], 0, 0, none, none, [], false, 0, [], 0⟩, 0, ⟨.fetching, 0, 0, 0x0401, none, 0, 0x0100000000000000#64, 0x0200000000001000#64, 32, 32, 0, 0, 0, 0, 0, none, .interactive, [], 0, 0, none, none, [], false, 0, [], 0⟩, th0, .twice 0, by decide +kernel⟩,
   ⟨tierReq ⟨.drop, 0, 0, 0x0401, none, 0, 0x0100000000000000#64, 0x0200000000001000#64, 32, 32, 0, 0, 0, 0, 0, none, .interactive, [], 0, 0, none, none, [], false, 0, [], 0⟩, 0, ⟨.drop, 0, 0, 0x0401, none, 0, 0x0100000000000000#64, 0x0200000000001000#64, 32, 32, 0, 0, 0, 0, 0, none, .interactive, [], 0, 0, none, none, [], false, 0, [], 0⟩, th0, .once 0, by decide +kernel⟩,
   ⟨{ tierReq ⟨.move, 0, 0, 0x0401, none, 0, 0x0200000000000000#64, 0x0200000000001000#64, 32, 32, 0, 0, 0, 0, 0, some 5, .interactive, [], 0, 0, none, none, [], false, 0, [], 0⟩ with now := 6 * tickUnits }, 0, 5, ⟨.move, 0, 0, 0x0401, none, 0, 0x0200000000000000#64, 0x0200000000001000#64, 32, 32, 0, 0, 0, 0, 0, some 5, .interactive, [], 0, 0, none, none, [], false, 0, [], 0⟩, th0, job0, .good, by decide +kernel⟩,
   ⟨tierReq ⟨.move, 0, 0, 0x0401, none, 0, 0x0200000000000000#64, 0x0200000000001000#64, 32, 32, 0, 0, 0, 0, 0, none, .interactive, [], 0, 0, none, none, [], false, 0, [], 0⟩, 0, ⟨.move, 0, 0, 0x0401, none, 0, 0x0200000000000000#64, 0x0200000000001000#64, 32, 32, 0, 0, 0, 0, 0, none, .interactive, [], 0, 0, none, none, [], false, 0, [], 0⟩, th0, job0, .twice 0, (Or.inl rfl), by decide +kernel⟩,
   ⟨modT (fun x => { x with fetches := [⟨3, [0], false⟩] }) (tierReq ⟨.move, 0, 0, 0x0401, none, 0, 0x0200000000000000#64, 0x0200000000001000#64, 32, 32, 0, 0, 0, 0, 0, none, .interactive, [3], 0, 0, none, none, [], false, 0, [], 0⟩), 0, ⟨.move, 0, 0, 0x0401, none, 0, 0x0200000000000000#64, 0x0200000000001000#64, 32, 32, 0, 0, 0, 0, 0, none, .interactive, [3], 0, 0, none, none, [], false, 0, [], 0⟩, ⟨3, [0], false⟩, .once 0, by decide +kernel⟩,
   ⟨modT (fun x => { x with fetches := [⟨3, [0], false⟩] }) (tierReq ⟨.move, 0, 0, 0x0401, none, 0, 0x0200000000000000#64, 0x0200000000001000#64, 32, 32, 0, 0, 0, 0, 0, none, .interactive, [3], 0, 0, none, none, [], false, 0, [], 0⟩), 0, ⟨.move, 0, 0, 0x0401, none, 0, 0x0200000000000000#64, 0x0200000000001000#64, 32, 32, 0, 0, 0, 0, 0, none, .interactive, [3], 0, 0, none, none, [], false, 0, [], 0⟩, ⟨3, [0], false⟩, job0, .good, .twice 0, (Or.inr rfl), (by intro d h; cases h), by decide +kernel⟩,
   ⟨tierReq ⟨.move, 0, 0, 0x0401, none, 0, 0x0200000000000000#64, 0x0200000000001000#64, 32, 32, 0, 0, 0, 0, 0, some 5, .interactive, [], 0, 0, none, none, [], false, 0, [], 0⟩, 0, 5, ⟨.move, 0, 0, 0x0401, none, 0, 0x0200000000000000#64, 0x0200000000001000#64, 32, 32, 0, 0, 0, 0, 0, some 5, .interactive, [], 0, 0, none, none, [], false, 0, [], 0⟩, job0, by decide +kernel⟩,
   ⟨tierReq ⟨.fetching, 0, 0, 0x0401, none, 0, 0x0200000000000000#64, 0x0200000000001000#64, 32, 32, 0, 0, 0, 0, 0, some 5, .interactive, [], 0, 0, none, none, [], false, 0, [], 0⟩, 0, 5, ⟨.fetching, 0, 0, 0x0401, none, 0, 0x0200000000000000#64, 0x0200000000001000#64, 32, 32, 0, 0, 0, 0, 0, some 5, .interactive, [], 0, 0, none, none, [], false, 0, [], 0⟩, job0, by decide +kernel⟩,
   ⟨modT (fun x => { x with streams := [(2, [(1, ⟨0, 3, true, 0⟩)])] }) State.reset, 2, 1, ⟨0, 3, true, 0⟩, by decide +kernel⟩⟩

/-- Every clause of LinksAndFlits has a state and operands that meet its hypotheses. -/
theorem test_meets_LinksAndFlits :
    (∃ (s : State) (p : TPortNo) (n : Nat),
      (s.tport p).st = .training ∧ 1000 ≤ n ∧ (s.tport p).hello = none ∧ (s.tport p).ctl = [] ∧ (s.tport p).replay.length < 1024) ∧
    (∃ (s : State) (p : TPortNo) (l : Lock),
      (∀ m, l ≠ .far m) ∧ (s.tport p).st ≠ .training) ∧
    (∃ (s : State) (p : TPortNo) (m : ModuleNo),
      s.span.insts = []) ∧
    (∃ (s : State) (p : TPortNo) (m sl po st : Byte) (sp : W64),
      (s.tport p).st = .aligned) ∧
    (∃ (s : State) (p : TPortNo) (e : BitVec 12) (f : Flit) (fs : List Flit),
      (s.tport p).st = .up ∧ (s.tport p).replay = f :: fs ∧ f.fseq = e) ∧
    (∃ (s : State) (p : TPortNo),
      (s.tport p).st ≠ .down) ∧
    (∃ (s : State) (p : TPortNo),
      (s.tport p).st = .up) ∧
    (∃ (s : State) (p : TPortNo),
      (∃ e ∈ (s.tport p).tries, 8 ≤ e.2)) ∧
    (∃ (s : State) (w : Option Nat),
      s.power.good = true) ∧
    (∃ (s : State) (w : Option Nat),
      s.power.good = true) ∧
    (∃ (s : State) (p : TPortNo) (f : Flit),
      (s.tport p).st = .up ∧ f.intact = true ∧ f.ftype = 1#2 ∧ f.fseq = (s.tport p).nextExp ∧ f.eop = false) ∧
    (∃ (s : State) (p : TPortNo) (f : Flit),
      (s.tport p).st = .up ∧ ((f.intact = false ∨ (f.ftype ≠ 0#2 ∧ f.fseq ≠ (s.tport p).nextExp) ∨ (f.ftype = 0#2 ∧ f.fseq + 1#12 ≠ (s.tport p).nextExp))) ∧ (s.tport p).nakSent = false) ∧
    (∃ (s : State) (p : TPortNo) (f : Flit),
      (s.tport p).st = .up ∧ ((f.intact = false ∨ (f.ftype ≠ 0#2 ∧ f.fseq ≠ (s.tport p).nextExp) ∨ (f.ftype = 0#2 ∧ f.fseq + 1#12 ≠ (s.tport p).nextExp))) ∧ (s.tport p).nakSent = true) ∧
    (∃ (s : State) (p : TPortNo) (f : Flit) (k n : Nat),
      k = bufKey f.crvl.toNat f.crclass ∧ n = Tab.at (s.tport p).credits k 0 + f.credits.toNat ∧ (s.tport p).st = .up ∧ f.intact = true ∧ f.ftype = 0#2 ∧ f.fseq + 1#12 = (s.tport p).nextExp ∧ (s.tport p).out = [] ∧ f.credits ≠ 0#8) := 
  ⟨⟨tport0 (TPort.fresh .training), 0, 1000, by decide +kernel⟩,
   ⟨tport0 (TPort.fresh .up), 0, .own 1000, (by intro m h; cases h), by decide +kernel⟩,
   ⟨State.reset, 0, 5, by decide +kernel⟩,
   ⟨tport0 { TPort.fresh .up with st := .aligned }, 0, 0, 0, 0, 0, 0, by decide +kernel⟩,
   ⟨tport0 { TPort.fresh .up with replay := [flit0] }, 0, 0, flit0, [], by decide +kernel⟩,
   ⟨tport0 (TPort.fresh .up), 0, by decide +kernel⟩,
   ⟨tport0 (TPort.fresh .up), 0, by decide +kernel⟩,
   ⟨tport0 { TPort.fresh .up with tries := [(0, 8)] }, 0, by decide +kernel⟩,
   ⟨State.reset, none, by decide +kernel⟩,
   ⟨State.reset, none, by decide +kernel⟩,
   ⟨tport0 (TPort.fresh .up), 0, { flit0 with eop := false }, by decide +kernel⟩,
   ⟨tport0 (TPort.fresh .up), 0, { flit0 with intact := false }, by decide +kernel⟩,
   ⟨tport0 { TPort.fresh .up with nakSent := true }, 0, { flit0 with intact := false }, by decide +kernel⟩,
   ⟨tport0 (TPort.fresh .up), 0, { flit0 with ftype := 0, fseq := 0xFFF, credits := 3 }, _, _, (rfl), (rfl), by decide +kernel⟩⟩

/-- Every clause of SpanMembership has a state and operands that meet its hypotheses. -/
theorem test_meets_SpanMembership :
    (∃ (s : State) (m : ModuleNo) (st : Byte) (dd cd : List Byte) (w : Nat) (d : SpanDesc),
      dd = d.digest ∧ s.span.desc = some d ∧ s.peer m.val = true) ∧
    (∃ (s : State) (m : ModuleNo) (st : Byte) (dd cd : List Byte) (w : Nat) (d : SpanDesc),
      dd ≠ d.digest ∧ s.span.desc = some d ∧ s.peer m.val = true) ∧
    (∃ s : State,
      s.span.member = .joined) ∧
    (∃ (s : State) (m : ModuleNo) (x : Member),
      Tab.find s.span.members m.val = some x ∧ x.view = .joined ∧ s.peer m.val = true) ∧
    (∃ (s : State) (m : ModuleNo) (x : Member),
      Tab.find s.span.members m.val = some x ∧ s.peer m.val = true) ∧
    (∃ (s : State) (id : Nat) (c : Cmd) (head : List Byte) (d : SpanDesc),
      Runs s id 0x0801 c ∧ head = s.hostRead c.port (c.field 0x10 8) 32 ∧ d = spanDescOf (head ++ s.hostRead c.port (c.field 0x10 8 + 32) (16 * fieldAt head 0xE 1)) ∧ s.joinError (c.field 0x18 4) d = none) ∧
    (∃ (s : State) (id : Nat) (c : Cmd),
      Runs s id 0x0802 c ∧ s.span.member = .joined ∧ s.span.insts = []) ∧
    (∃ (s : State) (id : Nat) (c : Cmd),
      Runs s id 0x0803 c) ∧
    (∃ (s : State) (m : ModuleNo),
      s.peer m.val = false) := 
  ⟨⟨joined1 State.reset, 0, 1, _, [], 0, ⟨1#64, 3, 1, 2, 0, 5, 3#128, [], []⟩, (rfl), by decide +kernel⟩,
   ⟨joined1 State.reset, 0, 1, SpanDesc.digest ⟨1#64, 3, 1, 2, 0, 5, 3#128, [], []⟩ ++ [0#8], [], 0, ⟨1#64, 3, 1, 2, 0, 5, 3#128, [], []⟩, (by simp), by decide +kernel⟩,
   ⟨joined1 State.reset, by decide +kernel⟩,
   ⟨joined1 State.reset, 0, ⟨.joined, 0, 0, []⟩, by decide +kernel⟩,
   ⟨joined1 State.reset, 0, ⟨.joined, 0, 0, []⟩, by decide +kernel⟩,
   ⟨withCmd (cmdOf [(0, 2, 0x0801), (0x18, 4, 32)]) (({ State.reset with host := { HostT.reset with hostMem := Mem.write 0 [] 0 (blockOf 32 [(0, 8, 1), (8, 1, 1), (9, 1, 1), (10, 1, 1), (12, 2, 1), (16, 16, 1)]) } })), 0, cmdOf [(0, 2, 0x0801), (0x18, 4, 32)], _, _, ⟨by decide +kernel, by decide +kernel, by decide +kernel⟩, (rfl), (rfl), by decide +kernel⟩,
   ⟨withCmd (cmdOf [(0, 2, 0x0802)]) ((joined1 State.reset)), 0, cmdOf [(0, 2, 0x0802)], ⟨by decide +kernel, by decide +kernel, by decide +kernel⟩, by decide +kernel⟩,
   ⟨withCmd (cmdOf [(0, 2, 0x0803)]) State.reset, 0, cmdOf [(0, 2, 0x0803)], ⟨by decide +kernel, by decide +kernel, by decide +kernel⟩⟩,
   ⟨State.reset, 0, by decide +kernel⟩⟩

/-- Every clause of Collectives has a state and operands that meet its hypotheses. -/
theorem test_meets_Collectives :
    (∀ e ∈ [(0x0501, Instr.clAllreduce), (0x0502, Instr.clAllgather), (0x0503, Instr.clBroadcast), (0x0504, Instr.clReduceScatter), (0x0505, Instr.clTopk), (0x0506, Instr.clBarrier)], ∃ (s : State) (n : Nat) (th : Thread) (r : BitVec 256) (key : InstKey),
      Issues s n e.1 (s.clRanges th r) th r ∧ s.clCheck th r = none ∧ s.groupGap (clGroup r) = none ∧ s.leaderOf (clGroup r) ≠ s.moduleNumber ∧ s.leaderOf (clGroup r) < 128 ∧ key = .job (clGroup r) (Tab.at s.span.jobCount (clGroup r) 0)) ∧
    (∃ (s : State) (m : ModuleNo) (key : InstKey) (dg : List Byte) (ps : ClParams) (i : Inst),
      s.peer m.val = true ∧ s.inst? key = some i ∧ i.go = false ∧ i.issued = false) ∧
    (∃ (s : State) (key : InstKey) (i : Inst) (n : Nat),
      s.inst? key = some i ∧ i.thread = some n ∧ i.restartAt = none ∧ i.go = false ∧ s.instReady { i with go := true } = false) ∧
    (∃ (s : State) (m : ModuleNo) (key : InstKey) (part : ClPart) (i j l : Inst) (c n : Nat) (x : List Byte) (th : Thread) (g : Gang) (p : Place),
      j = { i with parts := i.parts.filter (fun e => e.1 ≠ m.val), datas := i.datas.filter (fun d => d.1 ≠ m.val) ++ [(m.val, part.data)] } ∧ (((s.shelfPart j = none ∧ l = j ∧ c = 0) ∨ ∃ r, s.shelfPart j = some r ∧ l = { j with shelf := some r.1, sats := r.2.1 } ∧ c = r.2.2)) ∧ x = ((s.spend c).instResult l).1 ∧ s.span.member = .joined ∧ Tab.find s.span.streams (rxKey m.val part.stream) = none ∧ part.stream < 2 ^ 32 ∧ part.pseq = 0#32 ∧ part.total = part.data.length ∧ part.total < 2 ^ 64 ∧ keyNum key < 2 ^ 64 ∧ s.span.insts.find? (fun y => keyNum y.key = keyNum key) = some i ∧ i.key = key ∧ s.inst? key = some i ∧ i.thread = some n ∧ i.cmd = none ∧ i.restartAt = none ∧ m.val ≠ s.moduleNumber ∧ m.val ∈ s.needsData i ∧ s.instReady l = true ∧ s.thread? n = some th ∧ s.gangOf? th = some g ∧ s.resolve th i.dst.toNat x.length .coll = .ok [(p, x.length)] ∧ s.addrFault th i.dst.toNat x.length .moveDst = none ∧ (∀ e ∈ s.compute.jobs, e.2.ending = none)) ∧
    (∃ (s : State) (m : ModuleNo) (key : InstKey) (part : ClPart) (i : Inst),
      s.span.member = .joined ∧ Tab.find s.span.streams (rxKey m.val part.stream) = none ∧ part.stream < 2 ^ 32 ∧ part.pseq = 0#32 ∧ part.data.length < part.total ∧ part.total < 2 ^ 64 ∧ keyNum key < 2 ^ 64 ∧ s.span.insts.find? (fun y => keyNum y.key = keyNum key) = some i ∧ i.key = key ∧ i.thread.isSome = true ∧ i.restartAt = none ∧ m.val ≠ s.moduleNumber ∧ m.val ∈ s.needsData i) ∧
    (∃ (s : State) (key : InstKey) (o : ModuleNo) (i : Inst) (n : Nat) (th : Thread) (j : Job),
      s.inst? key = some i ∧ i.thread = some n ∧ i.cmd = none ∧ s.thread? n = some th ∧ s.job? th.job = some j ∧ j.ending = none) ∧
    (∃ (s : State) (m : ModuleNo) (key : InstKey) (r : Nat) (i : Inst),
      s.inst? key = some i ∧ s.peer m.val = true ∧ i.thread.isSome = true ∧ i.restarts < r ∧ r < 4) ∧
    (∃ (s : State) (key : InstKey) (i : Inst),
      s.inst? key = some i ∧ i.thread.isSome = true ∧ i.restartAt = none ∧ s.instReady i = false ∧ i.restarts < 3 ∧ s.threadOut i.thread = false) ∧
    (∃ (s : State) (key : InstKey) (i : Inst) (n : Nat) (th : Thread) (j : Job),
      s.inst? key = some i ∧ i.thread = some n ∧ i.cmd = none ∧ i.restartAt = none ∧ s.instReady i = false ∧ i.restarts = 3 ∧ s.threadOut i.thread = false ∧ s.thread? n = some th ∧ s.job? th.job = some j ∧ j.ending = none) ∧
    (∃ (s : State) (key : InstKey) (i : Inst) (due : Nat),
      s.inst? key = some i ∧ i.restartAt = some due ∧ s.leaderOf i.group ≠ s.moduleNumber ∧ s.leaderOf i.group < 128 ∧ s.threadOut i.thread = false) := 
  ⟨(by
    simp only [List.forall_mem_cons]
    exact ⟨⟨joined1 (atRecord (record [(0, 0x0501)]) { th0 with regs := [(0, 0x0200000000000000#64)] }), 0, { th0 with regs := [(0, 0x0200000000000000#64)] }, record [(0, 0x0501)], _, ⟨by decide +kernel, by decide +kernel, by decide +kernel⟩, by decide +kernel, by decide +kernel, by decide +kernel, by decide +kernel, rfl⟩,
     ⟨joined1 (atRecord (record [(0, 0x0502)]) { th0 with regs := [(0, 0x0200000000000000#64)] }), 0, { th0 with regs := [(0, 0x0200000000000000#64)] }, record [(0, 0x0502)], _, ⟨by decide +kernel, by decide +kernel, by decide +kernel⟩, by decide +kernel, by decide +kernel, by decide +kernel, by decide +kernel, rfl⟩,
     ⟨joined1 (atRecord (record [(0, 0x0503)]) { th0 with regs := [(0, 0x0200000000000000#64)] }), 0, { th0 with regs := [(0, 0x0200000000000000#64)] }, record [(0, 0x0503)], _, ⟨by decide +kernel, by decide +kernel, by decide +kernel⟩, by decide +kernel, by decide +kernel, by decide +kernel, by decide +kernel, rfl⟩,
     ⟨joined1 (atRecord (record [(0, 0x0504)]) { th0 with regs := [(0, 0x0200000000000000#64)] }), 0, { th0 with regs := [(0, 0x0200000000000000#64)] }, record [(0, 0x0504)], _, ⟨by decide +kernel, by decide +kernel, by decide +kernel⟩, by decide +kernel, by decide +kernel, by decide +kernel, by decide +kernel, rfl⟩,
     ⟨joined1 (atRecord (record [(0, 0x0505)]) { th0 with regs := [(0, 0x0200000000000000#64)] }), 0, { th0 with regs := [(0, 0x0200000000000000#64)] }, record [(0, 0x0505)], _, ⟨by decide +kernel, by decide +kernel, by decide +kernel⟩, by decide +kernel, by decide +kernel, by decide +kernel, by decide +kernel, rfl⟩,
     ⟨joined1 (atRecord (record [(0, 0x0506)]) { th0 with regs := [(0, 0x0200000000000000#64)] }), 0, { th0 with regs := [(0, 0x0200000000000000#64)] }, record [(0, 0x0506)], _, ⟨by decide +kernel, by decide +kernel, by decide +kernel⟩, by decide +kernel, by decide +kernel, by decide +kernel, by decide +kernel, rfl⟩,
     fun _ h => by cases h⟩),
   ⟨inInst { inst0 with go := false, thread := none, own := [] }, 0, .job 0 0, [], ⟨2, 1, 0, 0, 0, 0, false⟩, { inst0 with go := false, thread := none, own := [] }, by decide +kernel⟩,
   ⟨inInst { inst0 with go := false }, .job 0 0, { inst0 with go := false }, 0, by decide +kernel⟩,
   ⟨inInst inst0, 0, .job 0 0, ⟨5, 0, 1, [7]⟩, inst0, _, _, 0, 0, _, th0, gang0, .win 0, (rfl), (Or.inl ⟨by decide +kernel, rfl, rfl⟩), (rfl), by decide +kernel⟩,
   ⟨inInst inst0, 0, .job 0 0, ⟨5, 0, 2, [7]⟩, inst0, by decide +kernel⟩,
   ⟨inInst inst0, .job 0 0, 0, inst0, 0, th0, job0, by decide +kernel⟩,
   ⟨inInst inst0, 0, .job 0 0, 3, inst0, by decide +kernel⟩,
   ⟨inInst inst0, .job 0 0, inst0, by decide +kernel⟩,
   ⟨inInst { inst0 with restarts := 3 }, .job 0 0, { inst0 with restarts := 3 }, 0, th0, job0, by decide +kernel⟩,
   ⟨inInst { inst0 with restartAt := some 5 }, .job 0 0, { inst0 with restartAt := some 5 }, 5, by decide +kernel⟩⟩

/-- Every clause of StreamsAndWindows has a state and operands that meet its hypotheses. -/
theorem test_meets_StreamsAndWindows :
    (∃ (s : State) (m : ModuleNo) (k off : Nat) (data : List Byte) (g : Grant) (x : Nat),
      ClearOfCaches s (g.placeAt x) data.length ∧ s.span.member = .joined ∧ Tab.find s.span.streams (rxKey m.val k) = none ∧ k < 2 ^ 32 ∧ off < 2 ^ 64 ∧ data ≠ [] ∧ s.exportRange off data.length = some [(g, x, data.length)] ∧ s.absentTiles (regionAddr g.region (g.base + x)) data.length = [] ∧ g.immutable = false) ∧
    (∃ (s : State) (m : ModuleNo) (k off : Nat) (q : W32) (data : List Byte),
      s.span.member = .joined ∧ Tab.find s.span.streams (rxKey m.val k) = none ∧ k < 2 ^ 32 ∧ q ≠ 0#32) ∧
    (∃ (s : State) (m : ModuleNo) (k off n : Nat) (g : Grant) (x : Nat),
      s.span.member = .joined ∧ Tab.find s.span.streams (rxKey m.val k) = none ∧ k < 2 ^ 32 ∧ off < 2 ^ 64 ∧ n < 2 ^ 64 ∧ s.exportRange off n = some [(g, x, n)] ∧ s.absentTiles (regionAddr g.region (g.base + x)) n = [] ∧ s.grantBad g x n = false ∧ s.span.nextStream < 2 ^ 32) ∧
    (∃ (s : State) (m : ModuleNo) (k off n : Nat) (g : Grant) (x : Nat) (l : List Nat),
      l = (s.absentTiles (regionAddr g.region (g.base + x)) n).dedup ∧ s.span.member = .joined ∧ Tab.find s.span.streams (rxKey m.val k) = none ∧ k < 2 ^ 32 ∧ off < 2 ^ 64 ∧ n < 2 ^ 64 ∧ s.exportRange off n = some [(g, x, n)] ∧ l ≠ [] ∧ (∀ e ∈ s.tiers.reqs, e.2.kind ≠ .remote)) ∧
    (∃ (s : State) (m : ModuleNo) (k off n : Nat),
      s.span.member = .joined ∧ Tab.find s.span.streams (rxKey m.val k) = none ∧ k < 2 ^ 32 ∧ off < 2 ^ 64 ∧ n < 2 ^ 64 ∧ s.exportRange off n = none) ∧
    (∃ (s : State) (m : ModuleNo) (k r : Nat) (q : W32) (ans : RwAnswer) (data : List Byte) (x : TStream),
      Tab.find s.span.streams r = some x ∧ x.sending = true ∧ x.peer = m.val ∧ x.ptype = 10 ∧ x.nextSeq ≠ 0 ∧ q.toNat = x.waiting.length ∧ (ans = .moved ∨ (ans = .lent ∧ s.reqMoves x.req = false))) ∧
    (∃ (s : State) (m : ModuleNo) (k r i : Nat) (q : W32) (data : List Byte) (x : TStream) (y : TierReq) (j : Job),
      ((∀ d, y.deadline = some d → s.tick < d)) ∧ Tab.find s.span.streams r = some x ∧ x.sending = true ∧ x.peer = m.val ∧ x.req = some i ∧ Tab.find s.tiers.reqs i = some y ∧ y.kind ≠ .fetching ∧ y.kind ≠ .service ∧ y.kind ≠ .remote ∧ s.job? y.job = some j ∧ j.ending = none) ∧
    (∃ (s : State) (m : ModuleNo) (k r i : Nat) (q : W32) (ans : RwAnswer) (data : List Byte) (x : TStream) (y : TierReq) (th : Thread) (j : Job),
      Tab.find s.span.streams r = some x ∧ x.sending = true ∧ x.peer = m.val ∧ x.ptype = 10 ∧ x.nextSeq ≠ 0 ∧ x.req = some i ∧ Tab.find s.tiers.reqs i = some y ∧ s.thread? y.thread = some th ∧ th.job = y.job ∧ (ans = .mixed ∨ (ans = .lent ∧ y.kind = .move)) ∧ s.job? y.job = some j ∧ j.ending = none) ∧
    (∃ (s : State) (k : Nat) (q : W32) (e : Nat) (x : TStream),
      (∃ p ∈ x.unacked, q.toNat < p.pseq.toNat) ∧ Tab.find s.span.streams k = some x ∧ x.sending = true ∧ x.waiting = [] ∧ q.toNat < x.nextSeq) ∧
    (∃ (s : State) (k : Nat) (x : TStream) (p : Packet) (ps : List Packet),
      Tab.find s.span.streams k = some x ∧ x.sending = true ∧ s.streamPaused x = false ∧ x.waiting = [] ∧ x.unacked = p :: ps) := 
  ⟨⟨exporting false, 0, 5, 0, [1, 2], ⟨1, 0, 0, 4096, false, some 0, 0, 0, .interactive, false, [], 0xFFFFFFFF, none⟩, 0, (by intro o h; exact nomatch (show Place.hbm 0 = Place.flash o from h)), by decide +kernel⟩,
   ⟨joined1 State.reset, 0, 5, 0, 1, [], by decide +kernel⟩,
   ⟨exporting true, 0, 5, 0, 4, ⟨1, 0, 0, 4096, true, some 0, 0, 0, .interactive, false, [], 0xFFFFFFFF, none⟩, 0, by decide +kernel⟩,
   ⟨joined1 (modT (fun x => { x with grants := [(0, ⟨1, 1, 0, 4096, true, some 0, 0, 0, .interactive, false, [], 0xFFFFFFFF, none⟩)], windowSize := 4096 }) State.reset), 0, 5, 0, 4, ⟨1, 1, 0, 4096, true, some 0, 0, 0, .interactive, false, [], 0xFFFFFFFF, none⟩, 0, _, (rfl), by decide +kernel⟩,
   ⟨joined1 State.reset, 0, 5, 0, 4, by decide +kernel⟩,
   ⟨joined1 (modSp (fun y => { y with streams := [(0, { stream0 with nextSeq := 1, req := some 0 })] }) (tierReq ⟨.move, 0, 0, 0x0401, none, 0, 0, 0, 32, 32, 0, 0, 0, 0, 0, none, .interactive, [], 0, 0, none, none, [], false, 0, [], 0⟩)), 0, 0, 0, 0, .moved, [], { stream0 with nextSeq := 1, req := some 0 }, by decide +kernel⟩,
   ⟨joined1 (modSp (fun y => { y with streams := [(0, { stream0 with req := some 0 })] }) (tierReq ⟨.move, 0, 0, 0x0401, none, 0, 0, 0, 32, 32, 0, 0, 0, 0, 0, none, .interactive, [], 0, 0, none, none, [], false, 0, [], 0⟩)), 0, 0, 0, 0, 0, [], { stream0 with req := some 0 }, ⟨.move, 0, 0, 0x0401, none, 0, 0, 0, 32, 32, 0, 0, 0, 0, 0, none, .interactive, [], 0, 0, none, none, [], false, 0, [], 0⟩, job0, (by intro d h; cases h), by decide +kernel⟩,
   ⟨joined1 (modSp (fun y => { y with streams := [(0, { stream0 with nextSeq := 1, req := some 0 })] }) (tierReq ⟨.move, 0, 0, 0x0401, none, 0, 0, 0, 32, 32, 0, 0, 0, 0, 0, none, .interactive, [], 0, 0, none, none, [], false, 0, [], 0⟩)), 0, 0, 0, 0, 0, .lent, [], { stream0 with nextSeq := 1, req := some 0 }, ⟨.move, 0, 0, 0x0401, none, 0, 0, 0, 32, 32, 0, 0, 0, 0, 0, none, .interactive, [], 0, 0, none, none, [], false, 0, [], 0⟩, th0, job0, by decide +kernel⟩,
   ⟨joined1 (modSp (fun y => { y with streams := [(0, { stream0 with nextSeq := 5, unacked := [⟨0, 1, 10, 0, 3, 0, 0, []⟩] })] }) (tierReq ⟨.move, 0, 0, 0x0401, none, 0, 0, 0, 32, 32, 0, 0, 0, 0, 0, none, .interactive, [], 0, 0, none, none, [], false, 0, [], 0⟩)), 0, 2, 18, { stream0 with nextSeq := 5, unacked := [⟨0, 1, 10, 0, 3, 0, 0, []⟩] }, ⟨⟨0, 1, 10, 0, 3, 0, 0, []⟩, by decide +kernel, by decide +kernel⟩, by decide +kernel⟩,
   ⟨joined1 (modSp (fun y => { y with streams := [(0, { stream0 with unacked := [⟨0, 1, 10, 0, 3, 0, 0, []⟩] })] }) (tierReq ⟨.move, 0, 0, 0x0401, none, 0, 0, 0, 32, 32, 0, 0, 0, 0, 0, none, .interactive, [], 0, 0, none, none, [], false, 0, [], 0⟩)), 0, { stream0 with unacked := [⟨0, 1, 10, 0, 3, 0, 0, []⟩] }, ⟨0, 1, 10, 0, 3, 0, 0, []⟩, [], by decide +kernel⟩⟩

/-- Every clause of SpanSearchMember has a state and operands that meet its hypotheses. -/
theorem test_meets_SpanSearchMember :
    (∃ (s : State) (m : ModuleNo) (q g : Nat) (desc : List Byte) (r : SearchReads),
      s.peer m.val = true ∧ s.groupOk g = true ∧ m.val ∈ s.groupMembers g ∧ s.inst? (.search m.val q) = none ∧ desc.length ≠ 8 ∧ s.items.query? (.part m.val q) = none ∧ (s.formatted && descOk s.items.dims desc && s.descNames desc) = false) ∧
    (∃ (s : State) (m : ModuleNo) (q g : Nat) (desc : List Byte) (r : SearchReads),
      s.peer m.val = true ∧ s.groupOk g = true ∧ m.val ∈ s.groupMembers g ∧ s.inst? (.search m.val q) = none ∧ desc.length = 8) ∧
    (∃ (s : State) (m : ModuleNo) (q g fl : Nat) (desc : List Byte) (r : SearchReads) (y : Query1) (image : Option (Nat × Bitmap)) (a : Admitted),
      s.partRuns (r.plausible || (unitOf (wordsOf s.items.dims (desc.drop 256))).2) 0 4 = (some fl, s) ∧ y = queryOf desc (wordsOf s.items.dims (desc.drop 256)) ∧ image = y.bitmap.bind (fun k => (Tab.find s.items.bitmaps k).map (fun b => (k, b))) ∧ a = s.items.admitQuery s.items.epoch (image.map (·.2)) y ∧ s.peer m.val = true ∧ s.groupOk g = true ∧ m.val ∈ s.groupMembers g ∧ s.inst? (.search m.val q) = none ∧ desc.length ≠ 8 ∧ s.items.query? (.part m.val q) = none ∧ (s.formatted && descOk s.items.dims desc && s.descNames desc) = true ∧ r.badNodes = []) ∧
    (∃ (s : State) (m : ModuleNo) (q g : Nat) (desc : List Byte) (r : SearchReads) (z : Query),
      s.peer m.val = true ∧ s.groupOk g = true ∧ m.val ∈ s.groupMembers g ∧ s.inst? (.search m.val q) = none ∧ desc.length ≠ 8 ∧ s.items.query? (.part m.val q) = some z ∧ z.faulted r = false ∧ s.collectAll.items.scansDone (.part m.val q) = false) ∧
    (∃ (s : State) (m : ModuleNo) (q g : Nat) (desc : List Byte) (r : SearchReads) (z : Query),
      s.peer m.val = true ∧ s.groupOk g = true ∧ m.val ∈ s.groupMembers g ∧ s.inst? (.search m.val q) = none ∧ desc.length ≠ 8 ∧ s.items.query? (.part m.val q) = some z ∧ z.faulted r = true) ∧
    (∃ (s u : State) (m : ModuleNo) (q g : Nat) (desc : List Byte) (r : SearchReads) (z w : Query) (y : Query1) (a : Admitted),
      u = s.collectAll ∧ s.peer m.val = true ∧ s.groupOk g = true ∧ m.val ∈ s.groupMembers g ∧ s.inst? (.search m.val q) = none ∧ desc.length ≠ 8 ∧ s.items.query? (.part m.val q) = some z ∧ z.faulted r = false ∧ u.items.query? (.part m.val q) = some w ∧ w.ask = some (y, a) ∧ u.items.scansDone (.part m.val q) = true ∧ u.spotsReady true (u.rerankSpots w) = true ∧ s.groupGap g = none ∧ s.leaderOf g ≠ s.moduleNumber) := 
  ⟨⟨joined1 State.reset, 0, 0, 0, [], ⟨false, [], false, false, [], none⟩, by decide +kernel⟩,
   ⟨joined1 State.reset, 0, 0, 0, List.replicate 8 0, ⟨true, [], false, false, [], none⟩, by decide +kernel⟩,
   ⟨searching, 0, 0, 0, 0, blockOf 384 [(0, 2, 1), (2, 2, 1), (4, 2, 1), (6, 1, 1), (12, 2, 32)], ⟨true, [], false, false, [], none⟩, _, _, _, (by simp [State.partRuns, State.unitRun]), (rfl), (rfl), (rfl), by decide +kernel⟩,
   ⟨modI (fun x => { x with queries := [⟨.part 0 0, 0, 0, none, none, 0, none, []⟩], scans := [⟨.part 0 0, .interactive, none, 0, 0, [], 0⟩] }) searching, 0, 0, 0, [], ⟨true, [], false, false, [], none⟩, ⟨.part 0 0, 0, 0, none, none, 0, none, []⟩, by decide +kernel⟩,
   ⟨modI (fun x => { x with queries := [⟨.part 0 0, 0, 0, none, none, 0, some (default, { (default : Admitted) with leaves := [0] }), []⟩] }) searching, 0, 0, 0, [], ⟨true, [], false, true, [], none⟩, ⟨.part 0 0, 0, 0, none, none, 0, some (default, { (default : Admitted) with leaves := [0] }), []⟩, by decide +kernel⟩,
   ⟨modI (fun x => { x with queries := [⟨.part 0 0, 0, 0, none, none, 0, some (default, default), []⟩] }) searching, _, 0, 0, 0, [], ⟨true, [], false, false, [], none⟩, ⟨.part 0 0, 0, 0, none, none, 0, some (default, default), []⟩, ⟨.part 0 0, 0, 0, none, none, 0, some (default, default), []⟩, default, default, (rfl), by decide +kernel⟩⟩

/-- Every clause of JobsGangsContexts has a state and operands that meet its hypotheses. -/
theorem test_meets_JobsGangsContexts :
    (∃ (s : State) (j : Nat) (x : Job) (cores : List CoreNo),
      s.job? j = some x ∧ x.admitted = false ∧ x.ending = none ∧ s.jobHalted x = false ∧ s.firstInQueue j x = true ∧ s.coresAllowed x cores = true ∧ s.saveRoom x = true ∧ s.liveThreads + x.n ≤ 65536 ∧ ((∀ d, x.deadline = some d → s.tick ≤ d)) ∧ (s.placeGangs j x 0 cores).isSome = true ∧ (∀ e ∈ s.compute.threads, e.1 < s.compute.nextThread)) ∧
    (∃ (s : State) (j : Nat) (x : Job) (cores : List CoreNo),
      ((x.admitted = true ∨ s.firstInQueue j x = false ∨ s.coresAllowed x cores = false ∨ s.saveRoom x = false ∨ (∃ d, x.deadline = some d ∧ d < s.tick))) ∧ s.job? j = some x) ∧
    (∃ (s : State) (j gi : Nat) (x : Job) (g : Gang),
      s.job? j = some x ∧ Tab.find x.gangs gi = some g ∧ x.admitted = true ∧ g.preempted = false ∧ s.jobHalted x = true) ∧
    (∃ (s : State) (j gi : Nat) (x : Job) (g : Gang),
      s.job? j = some x ∧ Tab.find x.gangs gi = some g ∧ s.jobHalted x = false ∧ s.rankWaits g.core (s.gangCls j gi) = false) ∧
    (∃ (s : State) (c : CoreNo) (out inn : Nat) (x y : Ctx) (e : EngNo),
      Tab.find s.compute.ctxs out = some x ∧ Tab.find s.compute.ctxs inn = some y ∧ x.engine = some e ∧ x.core = c ∧ y.core = c ∧ y.engine = none ∧ y.queue ≠ [] ∧ s.ctxOut y = false ∧ x.busy = false ∧ s.idleEngines c = [] ∧ s.displaces y x = true) ∧
    (∃ (s : State) (c : CoreNo) (out inn : Nat) (x : Ctx),
      Tab.find s.compute.ctxs out = some x ∧ x.busy = true) ∧
    (∃ (s : State) (c : CoreNo),
      (∀ cls, s.gangWaits c cls = false ∧ s.engineWaits c cls = false ∧ s.vectorWaits c cls = false) ∧ ((∀ g, (s.core c).given = some g → g.2 + 100 * usUnits ≤ s.now)) ∧ (s.core c).shareSince + bitsOf s.regul.policy.toNat 40 8 * msUnits ≤ s.now ∧ (∀ y ∈ s.gangsOn c, y.2.2.preempted = false)) ∧
    (∃ (s : State) (c : CoreNo) (j gi : Nat) (x : Job) (g : Gang),
      s.now < (s.core c).shareSince + bitsOf s.regul.policy.toNat 40 8 * msUnits ∧ s.starved c .background = true ∧ s.job? j = some x ∧ x.admitted = true ∧ Tab.find x.gangs gi = some g ∧ g.core = c ∧ g.preempted = false ∧ (s.gangCls j gi).above .background = true ∧ s.mustRun j gi g = false ∧ ((∀ y, (s.core c).given = some y → y.2 + 100 * usUnits ≤ s.now)) ∧ (∀ i ∈ s.span.insts, i.go = true)) := 
  ⟨⟨modC (fun c => { c with threads := [], jobs := [(0, { job0 with admitted := false, gangs := [] })] }) (atRecord 0 th0), 0, { job0 with admitted := false, gangs := [] }, [0], by decide +kernel⟩,
   ⟨atRecord 0 th0, 0, job0, [0], (Or.inl rfl), by decide +kernel⟩,
   ⟨withCmd (cmdOf []) { atRecord 0 th0 with host := { HostT.reset with halts := [(.all, 3)] } }, 0, 0, job0, gang0, by decide +kernel⟩,
   ⟨atRecord 0 th0, 0, 0, job0, gang0, by decide +kernel⟩,
   ⟨modC (fun c => { c with ctxs := (List.finRange 8).map (fun i => (i.val, { ctx0 with engine := some i })) ++ [(8, { ctx0 with engine := none, queue := [⟨0, 0, 0, 0, 0, []⟩] })] }) (atRecord 0 th0), 0, 0, 8, ctx0, { ctx0 with engine := none, queue := [⟨0, 0, 0, 0, 0, []⟩] }, 0, by decide +kernel⟩,
   ⟨modC (fun c => { c with ctxs := [(0, { ctx0 with loads := [(⟨0, 0, 0, 0, 0, []⟩, 5)] })] }) (atRecord 0 th0), 0, 0, 1, { ctx0 with loads := [(⟨0, 0, 0, 0, 0, []⟩, 5)] }, by decide +kernel⟩,
   ⟨{ atRecord 0 th0 with now := 10 * msUnits }, 0, (by intro cls; cases cls <;> decide +kernel), (by intro g h; cases h), by decide +kernel⟩,
   ⟨{ modC (fun c => { c with jobs := [(0, job0), (1, { job0 with cls := .background, gangs := [(0, { gang0 with preempted := true })] })], threads := [(0, th0), (1, { th0 with job := 1 })] }) (atRecord 0 th0) with now := 9 * msUnits }, 0, 0, 0, job0, gang0, by decide +kernel⟩⟩

/-- Every clause of StepsComposed has a state and operands that meet its hypotheses. -/
theorem test_meets_StepsComposed :
    (∃ (s : State) (h k : Nat) (l : List Nat),
      s.compute.sites = [] ∧ bitOf s.regul.policy.toNat 0 = false) ∧
    (∃ (s : State) (h k : Nat) (l : List Nat),
      s.compute.sites = [] ∧ bitOf s.regul.policy.toNat 0 = true) ∧
    (∃ (s : State) (h k n : Nat) (l : List Nat) (x : Session) (r : AskRun),
      s.compute.sites = [] ∧ n ∈ s.steps.batch ∧ Tab.find s.serv.sessions n = some x ∧ x.run = some r) ∧
    (∃ (s : State) (h k p : Nat) (l : List Nat),
      p ∈ s.steps.passes ∧ p ∈ s.wantedPasses) ∧
    (∃ (b k : Nat) (l : List Nat) (cs : List Chunk),
      2 ≤ (compose (some b) k l cs).slices.length) := 
  ⟨⟨State.reset, 0, 0, [], by decide +kernel⟩,
   ⟨{ State.reset with regul := { State.reset.regul with policy := 0x00000A80050A5A01#64 } }, 0, 0, [], by decide +kernel⟩,
   ⟨{ inSession { session0 5 with run := some run0 } with steps := { State.reset.steps with batch := [7] } }, 0, 0, 7, [], { session0 5 with run := some run0 }, run0, by decide +kernel⟩,
   ⟨{ adapting (adapt0 1) with steps := { State.reset.steps with passes := [0] } }, 0, 0, 0, [], by decide +kernel⟩,
   ⟨100, 1, [1, 1], [⟨0, 0, 0, 2, .interactive, 2⟩], by decide +kernel⟩⟩

/-- Every clause of FoldsMergesRelocations has a state and operands that meet its hypotheses. -/
theorem test_meets_FoldsMergesRelocations :
    (∃ (s : State) (l p : Nat) (c : Counted),
      Tab.find s.media.relocs l = none ∧ Tab.find s.media.map l = none ∧ s.media.counted.find? (fun c => c.lstripe = l) = some c ∧ c.lstripe = l ∧ s.media.veneerOf c.owner c.ostripe ≠ [] ∧ c.lastWrite + 10 * secUnits ≤ s.now ∧ (∃ x ∈ newestOf c.owner (s.media.veneerOf c.owner c.ostripe), x.zero = false) ∧ s.media.targetOk p = true) ∧
    (∃ (s : State) (l p : Nat) (r : Reloc),
      Tab.find s.media.relocs l = some r ∧ r.lstripe = l ∧ r.source = none ∧ r.step = .opened ∧ s.spotsReady false (s.media.copySpots r (newestOf r.owner (s.media.veneerOf r.owner r.ostripe))) = true) ∧
    (∃ (s : State) (l p : Nat) (r : Reloc),
      Tab.find s.media.relocs l = some r ∧ r.source = none ∧ r.step = .opened ∧ s.spotsReady false (s.media.copySpots r (newestOf r.owner (s.media.veneerOf r.owner r.ostripe))) = false) ∧
    (∃ (m : Media) (now l : Nat) (r : Reloc),
      m.relocs = [(l, r)] ∧ r.lstripe = l ∧ r.step = .copying ∧ r.owner ≠ 17 ∧ (∀ n ∈ r.okd, 1024 ≤ n) ∧ m.logs = []) ∧
    (∃ (m : Media) (now : Nat),
      ((∀ r ∈ Tab.vals m.relocs, r.step ≠ .copying ∨ ∃ n ∈ r.okd, n < 1024))) ∧
    (∃ (s : State) (l p : Nat) (c : Counted),
      Tab.find s.media.relocs l = none ∧ Tab.find s.media.map l = none ∧ s.media.counted.find? (fun c => c.lstripe = l) = some c ∧ c.lstripe = l ∧ c.cmds = [] ∧ s.media.veneerOf c.owner c.ostripe ≠ [] ∧ c.lastWrite + 10 * secUnits ≤ s.now ∧ (∀ x ∈ newestOf c.owner (s.media.veneerOf c.owner c.ostripe), x.zero = true)) ∧
    (∃ (s : State) (l p : Nat) (r : Reloc),
      Tab.find s.media.relocs l = some r ∧ ((r.step = .opening ∨ r.step = .copying ∨ r.step = .copied ∨ r.step = .starting ∨ r.step = .erasing))) ∧
    (∃ (s : State) (l p : Nat) (e : MapEntry),
      Tab.find s.media.relocs l = none ∧ Tab.find s.media.map l = some e ∧ s.media.mergeDue l e = true ∧ s.media.targetOk p = true) ∧
    (∃ (s : State) (l p : Nat) (e : MapEntry),
      Tab.find s.media.relocs l = none ∧ Tab.find s.media.map l = some e ∧ s.media.mergeDue l e = false) ∧
    (∃ (s : State) (l p : Nat) (e : MapEntry) (us : List (Nat × MapEntry × Nat)),
      us = s.media.together l e p ∧ Tab.find s.media.relocs l = none ∧ Tab.find s.media.map l = some e ∧ (us.map (·.1)).Nodup ∧ (∃ x ∈ us, s.media.relocDue x.1 x.2.1 = true) ∧ (∀ x ∈ us, s.media.targetOk x.2.2 = true ∧ Tab.find s.media.relocs x.1 = none) ∧ s.media.spareNow = s.media.spareState) ∧
    (∃ (s : State) (l p q : Nat) (r : Reloc),
      Tab.find s.media.relocs l = some r ∧ r.lstripe = l ∧ r.source = some q ∧ r.step = .opened ∧ s.media.spareNow = s.media.spareState ∧ s.spotsReady false (s.media.copySpots r (s.media.copiesFor r)) = true) ∧
    (∃ (s : State) (l p q : Nat) (r : Reloc),
      Tab.find s.media.relocs l = some r ∧ r.lstripe = l ∧ r.source = some q ∧ r.logs = [] ∧ r.step = .mapSet ∧ s.media.spareNow = s.media.spareState) ∧
    (∃ (s : State) (l p q k : Nat) (r : Reloc),
      Tab.find s.media.relocs l = some r ∧ r.lstripe = l ∧ r.source = some q ∧ r.logs = [k] ∧ r.step = .mapSet) := 
  ⟨⟨{ modM (fun m => { m with counted := [counted0], veneer := [copy0] }) State.reset with now := 10 * secUnits }, 5, 192, counted0, by decide +kernel⟩,
   ⟨modM (fun m => { m with relocs := [(5, { fold0 with step := .opened })] }) State.reset, 5, 0, { fold0 with step := .opened }, by decide +kernel⟩,
   ⟨modM (fun m => { m with veneer := [copy0], pages := [(1, ⟨0, 0, 0, 0, 0, [], true⟩)], relocs := [(5, { fold0 with step := .opened })] }) (onDie { Die.reset with op := some slcOp }), 5, 0, { fold0 with step := .opened }, by decide +kernel⟩,
   ⟨{ Media.reset with relocs := [(5, { fold0 with step := .copying, okd := List.replicate 16 1024 })] }, 0, 5, { fold0 with step := .copying, okd := List.replicate 16 1024 }, by decide +kernel⟩,
   ⟨Media.reset, 0, (by intro r h; cases h)⟩,
   ⟨{ modM (fun m => { m with counted := [counted0], veneer := [{ copy0 with zero := true }] }) State.reset with now := 10 * secUnits }, 5, 0, counted0, by decide +kernel⟩,
   ⟨modM (fun m => { m with relocs := [(5, { fold0 with step := .copied })] }) State.reset, 5, 0, { fold0 with step := .copied }, by decide +kernel⟩,
   ⟨modM (fun m => { m with map := [(5, entry0)], logs := [(0, ⟨5, 0, []⟩)], relocNeeded := [5] }) State.reset, 5, 192, entry0, by decide +kernel⟩,
   ⟨mapped5, 5, 0, entry0, by decide +kernel⟩,
   ⟨modM (fun m => { m with map := [(5, entry0)], relocNeeded := [5] }) State.reset, 5, 192, entry0, _, (rfl), by decide +kernel⟩,
   ⟨modM (fun m => { m with map := [(5, entry0)], relocs := [(5, { fold0 with source := some 7, step := .opened })] }) State.reset, 5, 0, 7, { fold0 with source := some 7, step := .opened }, by decide +kernel⟩,
   ⟨modM (fun m => { m with map := [(5, entry0)], relocs := [(5, { fold0 with source := some 7, step := .mapSet })] }) State.reset, 5, 0, 7, { fold0 with source := some 7, step := .mapSet }, by decide +kernel⟩,
   ⟨modM (fun m => { m with map := [(5, entry0)], relocs := [(5, { fold0 with source := some 7, logs := [3], step := .mapSet })] }) State.reset, 5, 0, 7, 3, { fold0 with source := some 7, logs := [3], step := .mapSet }, by decide +kernel⟩⟩

/-- Every clause of MapSetGuarded has a state and operands that meet its hypotheses. -/
theorem test_meets_MapSetGuarded :
    (∃ (m : Media) (l : Nat) (e : MapEntry) (r : Reloc),
      Tab.find m.map l = r.seen) ∧
    (∃ (m : Media) (l : Nat) (e : MapEntry) (r : Reloc),
      Tab.find m.relocs l = some r ∧ Tab.find m.map l ≠ r.seen) ∧
    (∃ (m : Media) (v : JRecord),
      v.type ≠ .mapSet ∧ v.type ≠ .mapClear) := 
  ⟨⟨Media.reset, 5, entry0, fold0, by decide +kernel⟩,
   ⟨{ Media.reset with relocs := [(5, { fold0 with seen := some entry0 })] }, 5, entry0, { fold0 with seen := some entry0 }, by decide +kernel⟩,
   ⟨Media.reset, ⟨1, .blockRetire, 0, 0, 0⟩, by decide +kernel⟩⟩

/-- Every clause of JournalPages has a state and operands that meet its hypotheses. -/
theorem test_meets_JournalPages :
    (∃ (s : State),
      s.media.jPend ≠ [] ∧ s.media.checkpointDue s.now = false) ∧
    (∃ (s : State),
      s.media.jPend ≠ [] ∧ s.media.checkpointDue s.now = true) ∧
    (∃ s : State,
      s.media.checkpointDue s.now = true) ∧
    (∃ (m : Media) (c : Bool) (n : Nat) (p : JPage) (ps : List JPage),
      m.jPages = p :: ps ∧ (if c then p.ok0 else p.ok1) = false) ∧
    (∃ s : State,
      s.media.cpBuild = none) ∧
    (∃ (s : State) (b : CpBuild),
      s.media.cpBuild = some b) ∧
    (∃ (s : State) (d : DieNo) (rows : List Row) (b : CpBuild) (i : Nat),
      s.media.cpBuild = some b) ∧
    (∃ (m : Media) (n : Nat),
      m.cps.length ≤ 2) := 
  ⟨⟨modM (fun m => { m with jPend := [⟨1, .blockRetire, 0, 0, 0⟩] }) State.reset, by decide +kernel⟩,
   ⟨{ modM (fun m => { m with jPend := [⟨1, .blockRetire, 0, 0, 0⟩] }) State.reset with now := 10 * secUnits }, by decide +kernel⟩,
   ⟨{ State.reset with now := 10 * secUnits }, by decide +kernel⟩,
   ⟨{ Media.reset with jPages := [⟨[], none, none, false, false⟩] }, true, 0, ⟨[], none, none, false, false⟩, [], by decide +kernel⟩,
   ⟨State.reset, by decide +kernel⟩,
   ⟨modM (fun m => { m with cpBuild := some ⟨3, ⟨[], [], [], [], 0, 0⟩, [], []⟩ }) State.reset, ⟨3, ⟨[], [], [], [], 0, 0⟩, [], []⟩, by decide +kernel⟩,
   ⟨modM (fun m => { m with cpBuild := some ⟨3, ⟨[], [], [], [], 0, 0⟩, [], []⟩ }) State.reset, 0, [⟨0, 0, 0⟩], ⟨3, ⟨[], [], [], [], 0, 0⟩, [], []⟩, 0, by decide +kernel⟩,
   ⟨Media.reset, 3, by decide +kernel⟩⟩

/-- Every clause of MediaUpkeep has a state and operands that meet its hypotheses. -/
theorem test_meets_MediaUpkeep :
    (∃ (s : State) (d : DieNo) (c : Cls) (o : Nat) (xs : List Nat) (x : Ldpc),
      (s.decoder (d.val / 128)).take (s.decodesWaiting (d.val / 128)) c 1 = some x) ∧
    (∃ (s : State) (d : DieNo) (o : DieOp),
      s.waitsFor d = true ∧ (s.die d).op = some o ∧ o.kind ≠ .slc ∧ o.used < maxSuspends o.kind ∧ o.st = .running ∧ (s.die d).takes .suspend = true) ∧
    (∃ (s : State) (d : DieNo),
      s.waitsFor d = false) ∧
    (∃ (s : State) (d : DieNo) (o : DieOp),
      (s.die d).op = some o ∧ ((o.kind = .slc ∨ maxSuspends o.kind ≤ o.used))) ∧
    (∃ (s : State) (d : DieNo),
      s.waitsFor d = false ∧ (s.die d).st = .suspended ∧ (∃ y ∈ s.media.susp, y.die = d.val)) ∧
    (∃ (s : State) (d : DieNo) (y : SuspFor),
      s.waitsFor d = true ∧ (s.die d).st = .suspended ∧ s.media.susp.find? (fun y => y.die = d.val) = some y) ∧
    (∃ (s : State) (d : DieNo) (p l : Nat) (e : MapEntry) (x : Ldpc),
      (s.decoder (d.val / 128)).take (s.decodesWaiting (d.val / 128)) .system 1 = some x ∧ s.media.map.find? (fun e => e.2.pstripe = p) = some (l, e)) ∧
    (∃ (s : State) (d : DieNo) (p : Nat) (n : PlaneNo) (m : BMode) (b : Fin 8) (bs : List Byte) (x : Ldpc),
      (s.decoder (d.val / 128)).take (s.decodesWaiting (d.val / 128)) .system 1 = some x ∧ bitOf s.power.mediaPolicy.toNat 16 = true) ∧
    (∃ (s : State) (p : Nat) (m j : Fin 16) (b : Nat),
      (p, m.val) ∈ s.media.retired ∧ s.media.substituted p m.val = false ∧ (∀ y ∈ s.media.rebuilding, ¬ (y.p = p ∧ y.member = m.val)) ∧ s.media.leastBlock ((s.media.blockOf p m.val).1 / 16) { (s.media.blockOf p m.val).2 with block := b } j.val = true ∧ s.media.blockFree ((s.media.blockOf p m.val).1 / 16 * 16 + j.val) { (s.media.blockOf p m.val).2 with block := b } = true) ∧
    (∃ (s : State) (p : Nat) (m j : Fin 16) (b : Nat) (x : Rebuild),
      s.media.rebuilding.find? (fun x => x.p = p && x.member = m.val) = some x ∧ s.media.substituted p m.val = true ∧ s.unitsLost p m.val ≤ x.okd ∧ ((∀ y ∈ s.media.rebuilding, y.p = p → y.member = m.val))) ∧
    (∃ (s : State) (p : Nat) (m j : Fin 16) (b : Nat) (x : Rebuild),
      s.media.rebuilding.find? (fun x => x.p = p && x.member = m.val) = some x ∧ x.okd < s.unitsLost p m.val) := 
  ⟨⟨State.reset, 0, .interactive, 0, [], _, (Option.some_get (by decide +kernel)).symm⟩,
   ⟨waitingRead { slcOp with kind := .erase .qlc } [], 0, { slcOp with kind := .erase .qlc }, by decide +kernel⟩,
   ⟨onDie { Die.reset with op := some slcOp }, 0, by decide +kernel⟩,
   ⟨onDie { Die.reset with op := some slcOp }, 0, slcOp, by decide +kernel⟩,
   ⟨modM (fun m => { m with susp := [⟨0, 0⟩] }) (onDie { Die.reset with op := some { slcOp with st := .suspended } }), 0, by decide +kernel⟩,
   ⟨waitingRead { slcOp with st := .suspended } [⟨0, 0⟩], 0, ⟨0, 0⟩, by decide +kernel⟩,
   ⟨mapped5, 0, 7, 5, entry0, _, (Option.some_get (by decide +kernel)).symm, by decide +kernel⟩,
   ⟨{ State.reset with power := { State.reset.power with mediaPolicy := State.reset.power.mediaPolicy ||| 0x10000#64 } }, 0, 7, 0, .qlc, 1, [3, 4], _, (Option.some_get (by decide +kernel)).symm, by decide +kernel⟩,
   ⟨modM (fun m => { m with retired := [(192, 2)] }) State.reset, 192, 2, 0, 20, by decide +kernel⟩,
   ⟨modM (fun m => { m with retired := [(192, 2)], rebuilding := [⟨192, 2, 2048, 2048⟩], subst := [(192, 2, 0, 20)] }) State.reset, 192, 2, 0, 5, ⟨192, 2, 2048, 2048⟩, by decide +kernel⟩,
   ⟨modM (fun m => { m with retired := [(192, 2)], rebuilding := [⟨192, 2, 0, 0⟩], subst := [(192, 2, 0, 20)], map := [(5, ⟨192, false, false, 0, 0⟩)] }) State.reset, 192, 2, 0, 5, ⟨192, 2, 0, 0⟩, by decide +kernel⟩⟩

/-- Every clause of ItemMutations has a state and operands that meet its hypotheses. -/
theorem test_meets_ItemMutations :
    (∃ (s : State) (id : Nat) (pass : IngestPass) (c : Cmd) (p : PutPlan) (m : Media),
      RunsItem s id 0x0301 c ∧ s.planOf c = some p ∧ s.media.takeRoom s.now id (((s.items.takeIndices (s.putsAhead + p.segs.length)).1.map (·.1)).flatMap (itemStripes s.items.dims s.embSides)) = some m ∧ c.stage = 0 ∧ s.putError c (some p) = none) ∧
    (∃ (s : State) (id : Nat) (pass : IngestPass) (c : Cmd) (p : PutPlan) (new : List (Nat × Item)) (m : Media),
      RunsItem s id 0x0301 c ∧ s.planOf c = some p ∧ ((c.isVector = true ∨ (s.decodes (.put id) = true ∧ id ∈ s.steps.ran))) ∧ new = s.newItems c p 0 (s.items.takeIndices p.segs.length).1 ∧ s.media.takeRoom s.now id (((s.items.takeIndices p.segs.length).1.map (·.1)).flatMap (itemStripes s.items.dims s.embSides)) = some m ∧ c.stage = 1 ∧ c.need ≤ c.got ∧ s.items.fresh.length + s.items.putsWaiting + p.segs.length ≤ 16777216 ∧ s.dimsFit c p (s.putSource c) = true ∧ pass.plausible = true ∧ (s.items.takeIndices p.segs.length).1.length = p.segs.length) ∧
    (∃ (s : State) (id : Nat) (pass : IngestPass) (c : Cmd) (p : PutPlan),
      RunsItem s id 0x0301 c ∧ s.planOf c = some p ∧ c.stage = 1 ∧ c.need ≤ c.got ∧ s.items.fresh.length + s.items.putsWaiting + p.segs.length ≤ 16777216 ∧ c.isVector = false ∧ s.decodes (.put id) = false) ∧
    (∃ (s : State) (id : Nat) (pass : IngestPass) (c : Cmd) (p : PutPlan),
      RunsItem s id 0x0301 c ∧ s.planOf c = some p ∧ c.stage = 1 ∧ c.need ≤ c.got ∧ c.isVector = false ∧ s.decodes (.put id) = true ∧ id ∉ s.steps.ran) ∧
    (∃ (s : State) (id : Nat) (pass : IngestPass) (c : Cmd) (p : PutPlan),
      RunsItem s id 0x0301 c ∧ s.planOf c = some p ∧ 16777216 < s.items.fresh.length + s.items.putsWaiting + p.segs.length ∧ c.stage = 1 ∧ c.need ≤ c.got) ∧
    (∃ (v : Services) (k : Nat),
      v.complexFor = some k) ∧
    (∃ v : Services,
      (∀ j < 4, 8 ≤ (v.decoders.filter (fun d => d.1 = j)).length)) ∧
    (∃ (s : State) (id i : Nat) (c : Cmd) (x : Item),
      RunsItem s id 0x0302 c ∧ c.stage = 0 ∧ s.named c.object = some (i, x) ∧ s.items.tombs.length + s.items.delsWaiting < 1048576) ∧
    (∃ (s : State) (id i : Nat) (c : Cmd) (x : Item),
      RunsItem s id 0x0302 c ∧ 1048576 ≤ s.items.tombs.length + s.items.delsWaiting ∧ c.stage = 0 ∧ s.named c.object = some (i, x)) ∧
    (∃ (s : State) (id i slot : Nat) (mask value : W64) (c : Cmd) (x : Item),
      RunsItem s id 0x0303 c ∧ slot = c.field 0x10 1 ∧ mask = BitVec.ofNat 64 (c.field 0x20 8) ∧ value = BitVec.ofNat 64 (c.field 0x18 8) ∧ c.stage = 0 ∧ s.named c.object = some (i, x)) ∧
    (∃ (s : State) (id : Nat) (c : Cmd),
      RunsItem s id 0x0302 c ∧ c.stage = 0 ∧ s.named c.object = none) ∧
    (∃ (s : State) (id : Nat) (c : Cmd),
      RunsItem s id 0x0303 c ∧ c.stage = 0 ∧ s.named c.object = none) := 
  ⟨⟨withCmd (cmdOf [(0, 2, 0x0301), (0x36, 2, 9), (0x18, 8, 5), (0x30, 4, 96)]) (holding []), 0, ⟨true⟩, cmdOf [(0, 2, 0x0301), (0x36, 2, 9), (0x18, 8, 5), (0x30, 4, 96)], _, _, ⟨by decide +kernel, by decide +kernel, by decide +kernel⟩, (Option.some_get (by decide +kernel)).symm, (Option.some_get (by decide +kernel)).symm, by decide +kernel⟩,
   ⟨withCmd { cmdOf [(0, 2, 0x0301), (0x36, 2, 9), (0x18, 8, 5), (0x30, 4, 96)] with stage := 1, need := 128, got := 128 } (holding []), 0, ⟨true⟩, { cmdOf [(0, 2, 0x0301), (0x36, 2, 9), (0x18, 8, 5), (0x30, 4, 96)] with stage := 1, need := 128, got := 128 }, _, _, _, ⟨by decide +kernel, by decide +kernel, by decide +kernel⟩, (Option.some_get (by decide +kernel)).symm, (Or.inl (by decide +kernel)), (rfl), (Option.some_get (by decide +kernel)).symm, by decide +kernel⟩,
   ⟨withCmd { cmdOf [(0, 2, 0x0301), (0x18, 8, 64), (0x30, 4, 96)] with stage := 1 } ((modM (fun m => { m with volumes := [(0, ⟨64, 1⟩)], veneer := [{ copy0 with data := Mem.write 0 [] 0 (leBytes 64 0xa0a10414000000000000000000000000000000000000000000000000000000400000010100001f4000000000003d090000000000000000000003010046525853) }] }) (holding []))), 0, ⟨true⟩, { cmdOf [(0, 2, 0x0301), (0x18, 8, 64), (0x30, 4, 96)] with stage := 1 }, _, ⟨by decide +kernel, by decide +kernel, by decide +kernel⟩, (Option.some_get (by decide +kernel)).symm, by decide +kernel⟩,
   ⟨withCmd { cmdOf [(0, 2, 0x0301), (0x18, 8, 64), (0x30, 4, 96)] with stage := 1 } ((modS (fun y => { y with decoders := [(0, .put 0, 5)] }) (modM (fun m => { m with volumes := [(0, ⟨64, 1⟩)], veneer := [{ copy0 with data := Mem.write 0 [] 0 (leBytes 64 0xa0a10414000000000000000000000000000000000000000000000000000000400000010100001f4000000000003d090000000000000000000003010046525853) }] }) (holding [])))), 0, ⟨true⟩, { cmdOf [(0, 2, 0x0301), (0x18, 8, 64), (0x30, 4, 96)] with stage := 1 }, _, ⟨by decide +kernel, by decide +kernel, by decide +kernel⟩, (Option.some_get (by decide +kernel)).symm, by decide +kernel⟩,
   ⟨withCmd { cmdOf [(0, 2, 0x0301), (0x36, 2, 9), (0x18, 8, 5), (0x30, 4, 96)] with stage := 1, need := 128, got := 128 } (modI (fun x => { x with fresh := List.replicate (16777216 + 1) ⟨0, 0, 0, none, 0⟩ }) (holding [])), 0, ⟨true⟩, { cmdOf [(0, 2, 0x0301), (0x36, 2, 9), (0x18, 8, 5), (0x30, 4, 96)] with stage := 1, need := 128, got := 128 }, _, ⟨by decide +kernel, by decide +kernel, by decide +kernel⟩, (Option.some_get (by decide +kernel)).symm, (fresh_long 16777216 _ _), by decide +kernel⟩,
   ⟨{ Services.reset with decoders := (List.range 3).map (fun i => (i % 4, .put i, 1)) }, 3, by decide +kernel⟩,
   ⟨{ Services.reset with decoders := (List.range 32).map (fun i => (i % 4, .put i, 1)) }, by decide +kernel⟩,
   ⟨withCmd (cmdOf [(0, 2, 0x0302), (8, 8, 3)]) (holding [(3, item0)]), 0, 3, cmdOf [(0, 2, 0x0302), (8, 8, 3)], item0, ⟨by decide +kernel, by decide +kernel, by decide +kernel⟩, by decide +kernel⟩,
   ⟨withCmd (cmdOf [(0, 2, 0x0302), (8, 8, 3)]) (modI (fun x => { x with tombs := List.replicate 1048576 (0, 0) }) (holding [(3, item0)])), 0, 3, cmdOf [(0, 2, 0x0302), (8, 8, 3)], item0, ⟨by decide +kernel, by decide +kernel, by decide +kernel⟩, (tombs_long 1048576 _), by decide +kernel⟩,
   ⟨withCmd (cmdOf [(0, 2, 0x0303), (8, 8, 3)]) (holding [(3, item0)]), 0, 3, _, _, _, cmdOf [(0, 2, 0x0303), (8, 8, 3)], item0, ⟨by decide +kernel, by decide +kernel, by decide +kernel⟩, (rfl), (rfl), (rfl), by decide +kernel⟩,
   ⟨withCmd (cmdOf [(0, 2, 0x0302), (8, 8, 3)]) (holding []), 0, cmdOf [(0, 2, 0x0302), (8, 8, 3)], ⟨by decide +kernel, by decide +kernel, by decide +kernel⟩, by decide +kernel⟩,
   ⟨withCmd (cmdOf [(0, 2, 0x0303), (8, 8, 3)]) (holding []), 0, cmdOf [(0, 2, 0x0303), (8, 8, 3)], ⟨by decide +kernel, by decide +kernel, by decide +kernel⟩, by decide +kernel⟩⟩

/-- Every clause of GroupCommits has a state and operands that meet its hypotheses. -/
theorem test_meets_GroupCommits :
    (∃ (s : State) (id i : Nat) (c : Cmd) (x : Item) (p : PutPlan),
      s.items.muts = [⟨id, .put [(i, x)] p⟩] ∧ s.cmd? id = some c ∧ c.ident = id ∧ s.mutReady ⟨id, .put [(i, x)] p⟩ = true ∧ c.isVector = true ∧ p.segs.length = 1 ∧ (∀ q ∈ s.items.queries, q.tick ≠ s.tick)) ∧
    (∃ (s : State) (id i : Nat) (c : Cmd) (x : Item),
      s.items.muts = [⟨id, .del i⟩] ∧ s.cmd? id = some c ∧ c.ident = id ∧ s.mutReady ⟨id, .del i⟩ = true ∧ Tab.find s.items.items i = some x ∧ x.del = none ∧ ((∀ b ∈ s.serv.builds, b.lead = itemNo 0 x.gen i → b.waiter = none)) ∧ (∀ q ∈ s.items.queries, q.tick ≠ s.tick)) ∧
    (∃ (s : State) (id i slot : Nat) (mask value : W64) (c : Cmd) (x : Item),
      s.items.muts = [⟨id, .attr i slot mask value⟩] ∧ s.cmd? id = some c ∧ c.ident = id ∧ s.mutReady ⟨id, .attr i slot mask value⟩ = true ∧ Tab.find s.items.items i = some x ∧ slot < x.attrs.length ∧ (∀ q ∈ s.items.queries, q.tick ≠ s.tick)) ∧
    (∃ s : State,
      (∀ m ∈ s.items.muts, s.mutReady m = false)) ∧
    (∃ (s : State) (y : Query),
      (∃ m ∈ s.items.muts, s.mutReady m = true) ∧ s.items.query? y.who = some y ∧ y.tick = s.tick ∧ y.ask = none) ∧
    (∃ (s : State) (y : Query),
      s.items.query? y.who = some y ∧ ((∀ z ∈ s.items.queries, z.who = y.who → z.tick ≠ s.tick))) := 
  ⟨⟨modI (fun x => { x with muts := [⟨0, .put [(0, item0)] (vectorPlan (cmdOf [(0, 2, 0x0301), (0x36, 2, 9), (0x18, 8, 5), (0x30, 4, 96)]))⟩] }) (withCmd (cmdOf [(0, 2, 0x0301), (0x36, 2, 9), (0x18, 8, 5), (0x30, 4, 96)]) (holding [])), 0, 0, cmdOf [(0, 2, 0x0301), (0x36, 2, 9), (0x18, 8, 5), (0x30, 4, 96)], item0, vectorPlan (cmdOf [(0, 2, 0x0301), (0x36, 2, 9), (0x18, 8, 5), (0x30, 4, 96)]), by decide +kernel⟩,
   ⟨modI (fun x => { x with muts := [⟨0, .del 3⟩] }) (withCmd (cmdOf []) (holding [(3, item0)])), 0, 3, cmdOf [], item0, by decide +kernel⟩,
   ⟨modI (fun x => { x with muts := [⟨0, .attr 3 0 1 1⟩] }) (withCmd (cmdOf []) (holding [(3, item0)])), 0, 3, 0, 1, 1, cmdOf [], item0, by decide +kernel⟩,
   ⟨State.reset, by decide +kernel⟩,
   ⟨modI (fun x => { x with muts := [⟨0, .del 3⟩], queries := [⟨.part 0 0, 0, 0, none, none, 0, none, []⟩] }) (withCmd (cmdOf []) (holding [(3, item0)])), ⟨.part 0 0, 0, 0, none, none, 0, none, []⟩, by decide +kernel⟩,
   ⟨modI (fun x => { x with muts := [⟨0, .del 3⟩], queries := [⟨.part 0 0, 5, 0, none, none, 0, none, []⟩] }) (withCmd (cmdOf []) (holding [(3, item0)])), ⟨.part 0 0, 5, 0, none, none, 0, none, []⟩, by decide +kernel⟩⟩

/-- Every clause of ItemReadsAndFormat has a state and operands that meet its hypotheses. -/
theorem test_meets_ItemReadsAndFormat :
    (∃ (s : State) (id i : Nat) (c : Cmd) (x : Item),
      RunsItem s id 0x0304 c ∧ s.named c.object = some (i, x) ∧ (s.itemBytes i x (c.field 0x1C 4)).length ≤ c.field 0x18 4 ∧ s.spotsReady true (s.media.spotsOf (s.readsOf c).1 (s.readsOf c).2) = true) ∧
    (∃ (s : State) (id i : Nat) (c : Cmd) (x : Item),
      RunsItem s id 0x0304 c ∧ s.named c.object = some (i, x) ∧ (s.itemBytes i x (c.field 0x1C 4)).length ≤ c.field 0x18 4 ∧ s.spotsReady true (s.media.spotsOf (s.readsOf c).1 (s.readsOf c).2) = true ∧ bitOf (c.field 0x1C 4) 0 = true) ∧
    (∃ (s : State) (id i : Nat) (c : Cmd) (x : Item) (k : Cache),
      RunsItem s id 0x0305 c ∧ s.named c.object = some (i, x) ∧ s.cacheOf (itemNo 0 x.gen i) = some k) ∧
    (∃ (s : State) (id i : Nat) (c : Cmd) (x : Item),
      RunsItem s id 0x0305 c ∧ s.named c.object = some (i, x) ∧ s.cacheOf (itemNo 0 x.gen i) = none) ∧
    (∃ (s : State) (id : Nat) (c : Cmd) (hit : Cache → Bool),
      RunsItem s id 0x0306 c ∧ ((c.field 0x10 1 ≠ 0 ∨ (s.named c.object).isSome = true)) ∧ hit = (fun (k : Cache) => if c.field 0x10 1 = 0 then (s.named c.object).any (fun e => decide (k.lead = itemNo 0 e.2.gen e.1)) else decide (k.model = BitVec.ofNat 64 (c.field 0x18 8))) ∧ s.formatted = true ∧ (Tab.keys s.serv.caches).Nodup) ∧
    (∃ (s : State) (id : Nat) (c : Cmd),
      Runs s id 0x0307 c ∧ c.stage = 0 ∧ s.itemWork c = false ∧ s.serv.sessions = [] ∧ s.serv.adapt = none ∧ max s.items.genFloor s.items.genMax ≤ 4194303) ∧
    (∃ (s : State) (id : Nat) (c : Cmd),
      Runs s id 0x0307 c ∧ c.stage = 2 ∧ c.aux.headD 0 ≤ s.media.jDone ∧ s.keysGone (c.aux.getD 1 0) = true) ∧
    (∃ (s : State) (id : Nat) (c : Cmd),
      Runs s id 0x0307 c ∧ c.stage = 2 ∧ ((s.media.jDone < c.aux.headD 0 ∨ s.keysGone (c.aux.getD 1 0) = false))) := 
  ⟨⟨withCmd (cmdOf [(0, 2, 0x0304), (8, 8, 3), (0x18, 4, 4096)]) (holding [(3, item0)]), 0, 3, cmdOf [(0, 2, 0x0304), (8, 8, 3), (0x18, 4, 4096)], item0, ⟨by decide +kernel, by decide +kernel, by decide +kernel⟩, by decide +kernel⟩,
   ⟨withCmd (cmdOf [(0, 2, 0x0304), (8, 8, 3), (0x18, 4, 4096), (0x1C, 4, 1)]) (holding [(3, item0)]), 0, 3, cmdOf [(0, 2, 0x0304), (8, 8, 3), (0x18, 4, 4096), (0x1C, 4, 1)], item0, ⟨by decide +kernel, by decide +kernel, by decide +kernel⟩, by decide +kernel⟩,
   ⟨withCmd (cmdOf [(0, 2, 0x0305), (8, 8, 3)]) (cached (holding [(3, item0)])), 0, 3, cmdOf [(0, 2, 0x0305), (8, 8, 3)], item0, cache0, ⟨by decide +kernel, by decide +kernel, by decide +kernel⟩, by decide +kernel⟩,
   ⟨withCmd (cmdOf [(0, 2, 0x0305), (8, 8, 3)]) (holding [(3, item0)]), 0, 3, cmdOf [(0, 2, 0x0305), (8, 8, 3)], item0, ⟨by decide +kernel, by decide +kernel, by decide +kernel⟩, by decide +kernel⟩,
   ⟨withCmd (cmdOf [(0, 2, 0x0306), (8, 8, 3)]) (cached (holding [(3, item0)])), 0, cmdOf [(0, 2, 0x0306), (8, 8, 3)], _, ⟨by decide +kernel, by decide +kernel, by decide +kernel⟩, (Or.inr (by decide +kernel)), (rfl), by decide +kernel⟩,
   ⟨withCmd (cmdOf [(0, 2, 0x0307), (0x10, 2, 32), (0x12, 2, 256)]) State.reset, 0, cmdOf [(0, 2, 0x0307), (0x10, 2, 32), (0x12, 2, 256)], ⟨by decide +kernel, by decide +kernel, by decide +kernel⟩, by decide +kernel⟩,
   ⟨withCmd { cmdOf [(0, 2, 0x0307)] with stage := 2 } State.reset, 0, { cmdOf [(0, 2, 0x0307)] with stage := 2 }, ⟨by decide +kernel, by decide +kernel, by decide +kernel⟩, by decide +kernel⟩,
   ⟨withCmd { cmdOf [(0, 2, 0x0307)] with stage := 2, aux := [9] } State.reset, 0, { cmdOf [(0, 2, 0x0307)] with stage := 2, aux := [9] }, ⟨by decide +kernel, by decide +kernel, by decide +kernel⟩, by decide +kernel⟩⟩

/-- Every clause of BitmapCommands has a state and operands that meet its hypotheses. -/
theorem test_meets_BitmapCommands :
    (∃ (s : State) (id : Nat) (c : Cmd),
      RunsItem s id 0x0403 c ∧ c.stage = 0 ∧ s.formatted = true ∧ s.hbmRoom (c.field 0x18 8 / 8) = true) ∧
    (∃ (s : State) (id : Nat) (c : Cmd) (b : Bitmap),
      RunsItem s id 0x0403 c ∧ b = ⟨c.field 0x18 8, c.field 0x11 1 = 1, Mem.write 0 [] 0 c.pushed, s.items.images⟩ ∧ c.stage = 1 ∧ c.need ≤ c.got ∧ (∀ q ∈ s.items.queries, q.tick ≠ s.tick)) ∧
    (∃ (s : State) (id : Nat) (c : Cmd) (f : Filter),
      RunsItem s id 0x0404 c ∧ f = ⟨(s.buildTerms c).map Term.ofBytes, bitsOf (c.field 0x13 1) 1 2, BitVec.ofNat 64 (c.field 0x18 8), BitVec.ofNat 64 (c.field 0x20 8)⟩ ∧ s.formatted = true ∧ (s.buildTerms c).all termOk = true ∧ ((bitOf (c.field 0x13 1) 0 = true → Tab.has s.items.bitmaps (c.field 0x12 1) = true)) ∧ s.hbmRoom (s.items.buildLen / 8) = true ∧ (∀ q ∈ s.items.queries, q.tick ≠ s.tick)) ∧
    (∃ (s : State) (id : Nat) (c : Cmd),
      RunsItem s id 0x0405 c) ∧
    (∃ (s : State) (id : Nat) (c : Cmd) (y : Query),
      RunsItem s id 0x0403 c ∧ c.stage = 1 ∧ c.need ≤ c.got ∧ s.items.query? y.who = some y ∧ ((∀ z ∈ s.items.queries, z.who = y.who → z.tick ≠ s.tick))) ∧
    (∃ (s : State) (id : Nat) (c : Cmd) (y : Query) (old : Bitmap),
      RunsItem s id 0x0403 c ∧ c.stage = 1 ∧ c.need ≤ c.got ∧ s.items.query? y.who = some y ∧ ((∀ z ∈ s.items.queries, z.who = y.who → z = y)) ∧ y.tick = s.tick ∧ y.ask = none ∧ y.image = some (c.field 0x10 1, old)) := 
  ⟨⟨withCmd (cmdOf [(0, 2, 0x0403), (0x18, 8, 4096)]) (holding []), 0, cmdOf [(0, 2, 0x0403), (0x18, 8, 4096)], ⟨by decide +kernel, by decide +kernel, by decide +kernel⟩, by decide +kernel⟩,
   ⟨withCmd { cmdOf [(0, 2, 0x0403), (0x18, 8, 4096)] with stage := 1, need := 512, got := 512 } (holding []), 0, { cmdOf [(0, 2, 0x0403), (0x18, 8, 4096)] with stage := 1, need := 512, got := 512 }, _, ⟨by decide +kernel, by decide +kernel, by decide +kernel⟩, (rfl), by decide +kernel⟩,
   ⟨withCmd (cmdOf [(0, 2, 0x0404)]) (holding []), 0, cmdOf [(0, 2, 0x0404)], _, ⟨by decide +kernel, by decide +kernel, by decide +kernel⟩, (rfl), by decide +kernel⟩,
   ⟨withCmd (cmdOf [(0, 2, 0x0405)]) State.reset, 0, cmdOf [(0, 2, 0x0405)], ⟨by decide +kernel, by decide +kernel, by decide +kernel⟩⟩,
   ⟨withCmd { cmdOf [(0, 2, 0x0403), (0x18, 8, 4096)] with stage := 1, need := 512, got := 512 } (modI (fun x => { x with queries := [⟨.part 0 0, 5, 0, none, none, 0, none, []⟩] }) (holding [])), 0, { cmdOf [(0, 2, 0x0403), (0x18, 8, 4096)] with stage := 1, need := 512, got := 512 }, ⟨.part 0 0, 5, 0, none, none, 0, none, []⟩, ⟨by decide +kernel, by decide +kernel, by decide +kernel⟩, by decide +kernel⟩,
   ⟨withCmd { cmdOf [(0, 2, 0x0403), (0x18, 8, 4096)] with stage := 1, need := 512, got := 512 } (modI (fun x => { x with queries := [⟨.part 0 0, 0, 0, some (0, default), none, 0, none, []⟩] }) (holding [])), 0, { cmdOf [(0, 2, 0x0403), (0x18, 8, 4096)] with stage := 1, need := 512, got := 512 }, ⟨.part 0 0, 0, 0, some (0, default), none, 0, none, []⟩, default, ⟨by decide +kernel, by decide +kernel, by decide +kernel⟩, by decide +kernel⟩⟩

/-- Every clause of SearchCommands has a state and operands that meet its hypotheses. -/
theorem test_meets_SearchCommands :
    (∃ (s : State) (id : Nat) (r : SearchReads) (c : Cmd) (b : List Byte) (v : List W32) (q : Query1) (image : Option (Nat × Bitmap)) (a : Admitted),
      RunsItem s id 0x0401 c ∧ b = s.descBytes c ∧ s.queryVec b = some v ∧ ((bitOf (descFlags b) 0 = true → r.queryUnreadable = false)) ∧ q = queryOf b v ∧ image = q.bitmap.bind (fun k => (Tab.find s.items.bitmaps k).map (fun x => (k, x))) ∧ a = s.items.admitQuery s.items.epoch (image.map (·.2)) q ∧ c.stage = 0 ∧ s.searchError c b false = none ∧ r.plausible = true ∧ r.badNodes = []) ∧
    (∃ (s u : State) (id : Nat) (r : SearchReads) (c : Cmd) (z y : Query) (q : Query1) (a : Admitted) (f : Found),
      RunsItem s id 0x0401 c ∧ u = s.collectAll ∧ f = (u.readSpots (u.rerankSpots y)).finish q a y.lists r ∧ c.stage = 1 ∧ s.items.query? (.cmd id) = some z ∧ z.faulted r = false ∧ u.items.query? (.cmd id) = some y ∧ y.ask = some (q, a) ∧ u.items.scansDone (.cmd id) = true ∧ u.spotsReady true (u.rerankSpots y) = true) ∧
    (∃ (s : State) (id : Nat) (r : SearchReads) (c : Cmd) (z : Query),
      RunsItem s id 0x0401 c ∧ c.stage = 1 ∧ s.items.query? (.cmd id) = some z ∧ z.faulted r = false ∧ s.collectAll.items.scansDone (.cmd id) = false) ∧
    (∃ (s : State) (id : Nat) (r : SearchReads) (c : Cmd) (z : Query),
      RunsItem s id 0x0401 c ∧ c.stage = 1 ∧ s.items.query? (.cmd id) = some z ∧ z.faulted r = true) ∧
    (∃ (s : State) (id : Nat) (r : SearchReads) (c : Cmd) (st : Status),
      RunsItem s id 0x0401 c ∧ c.stage = 0 ∧ s.searchError c (s.descBytes c) false = some st) ∧
    (∃ (s : State) (id m : Nat) (r : SearchReads) (c : Cmd),
      RunsItem s id 0x0402 c ∧ c.stage = 0 ∧ s.spanError c (s.descBytes c) r = some (.spanMemberLost, m)) ∧
    (∃ (s : State) (id : Nat) (r : SearchReads) (c : Cmd) (b : List Byte) (v : List W32) (q : Query1) (g : Nat),
      RunsItem s id 0x0402 c ∧ b = s.descBytes c ∧ s.spanVec b r = .ok v ∧ ((bitOf (descFlags b) 0 = true → r.queryUnreadable = false)) ∧ q = queryOf b v ∧ g = c.field 0x24 1 ∧ c.stage = 0 ∧ s.farModule b = none ∧ s.spanError c b r = none ∧ r.plausible = true ∧ r.badNodes = [] ∧ s.groupGap g = none) ∧
    (∃ (s : State) (id m : Nat) (r : SearchReads) (c : Cmd) (b : List Byte),
      RunsItem s id 0x0402 c ∧ b = s.descBytes c ∧ c.stage = 0 ∧ s.farModule b = some m ∧ s.spanError c b { r with far := some [] } = none) ∧
    (∃ (s u : State) (id : Nat) (r : SearchReads) (c : Cmd) (i : Inst) (z y : Query) (q : Query1) (a : Admitted),
      RunsItem s id 0x0402 c ∧ u = s.collectAll ∧ c.stage = 2 ∧ s.span.insts.find? (fun i => i.cmd = some id) = some i ∧ s.items.query? (.cmd id) = some z ∧ z.faulted r = false ∧ u.items.query? (.cmd id) = some y ∧ y.ask = some (q, a) ∧ u.items.scansDone (.cmd id) = true ∧ u.spotsReady true (u.rerankSpots y) = true ∧ s.groupGap i.group = none ∧ s.leaderOf i.group ≠ s.moduleNumber) ∧
    (∃ (s : State) (id : Nat) (r : SearchReads) (c : Cmd) (i : Inst),
      RunsItem s id 0x0402 c ∧ c.stage = 1 ∧ s.span.insts.find? (fun i => i.cmd = some id) = some i ∧ s.instReady i = true) ∧
    (∃ (s : State) (id : Nat) (r : SearchReads) (c : Cmd) (i : Inst),
      RunsItem s id 0x0402 c ∧ c.stage = 1 ∧ s.span.insts.find? (fun i => i.cmd = some id) = some i ∧ s.instReady i = false) := 
  ⟨⟨withCmd (cmdOf [(0, 2, 0x0401), (0x20, 4, 80)]) (({ holding [] with host := { HostT.reset with hostMem := Mem.write 0 [] 0 (blockOf 384 [(0, 2, 1), (2, 2, 1), (4, 2, 1), (6, 1, 1), (12, 2, 32)]) } })), 0, ⟨true, [], false, false, [], none⟩, cmdOf [(0, 2, 0x0401), (0x20, 4, 80)], _, _, _, _, _, ⟨by decide +kernel, by decide +kernel, by decide +kernel⟩, (rfl), (Option.some_get (by decide +kernel)).symm, (fun _ => rfl), (rfl), (rfl), (rfl), by decide +kernel⟩,
   ⟨withCmd { cmdOf [(0, 2, 0x0401)] with stage := 1 } ((modI (fun x => { x with queries := [⟨.cmd 0, 0, 0, none, none, 0, some (default, default), []⟩] }) (holding []))), _, 0, ⟨true, [], false, false, [], none⟩, { cmdOf [(0, 2, 0x0401)] with stage := 1 }, ⟨.cmd 0, 0, 0, none, none, 0, some (default, default), []⟩, ⟨.cmd 0, 0, 0, none, none, 0, some (default, default), []⟩, default, default, _, ⟨by decide +kernel, by decide +kernel, by decide +kernel⟩, (rfl), (rfl), by decide +kernel⟩,
   ⟨withCmd { cmdOf [(0, 2, 0x0401)] with stage := 1 } ((modI (fun x => { x with queries := [⟨.cmd 0, 0, 0, none, none, 0, none, []⟩], scans := [⟨.cmd 0, .interactive, none, 0, 0, [], 0⟩] }) (holding []))), 0, ⟨true, [], false, false, [], none⟩, { cmdOf [(0, 2, 0x0401)] with stage := 1 }, ⟨.cmd 0, 0, 0, none, none, 0, none, []⟩, ⟨by decide +kernel, by decide +kernel, by decide +kernel⟩, by decide +kernel⟩,
   ⟨withCmd { cmdOf [(0, 2, 0x0401)] with stage := 1 } ((modI (fun x => { x with queries := [⟨.cmd 0, 0, 0, none, none, 0, some (default, { (default : Admitted) with leaves := [0] }), []⟩] }) (holding []))), 0, ⟨true, [], false, true, [], none⟩, { cmdOf [(0, 2, 0x0401)] with stage := 1 }, ⟨.cmd 0, 0, 0, none, none, 0, some (default, { (default : Admitted) with leaves := [0] }), []⟩, ⟨by decide +kernel, by decide +kernel, by decide +kernel⟩, by decide +kernel⟩,
   ⟨withCmd (cmdOf [(0, 2, 0x0401), (0x20, 4, 80)]) (holding []), 0, ⟨true, [], false, false, [], none⟩, cmdOf [(0, 2, 0x0401), (0x20, 4, 80)], .invalidField, ⟨by decide +kernel, by decide +kernel, by decide +kernel⟩, by decide +kernel⟩,
   ⟨withCmd (cmdOf [(0, 2, 0x0402), (0x20, 4, 4096)]) ((modSp (fun x => { x with members := [(0, ⟨.lost, 0, 0, []⟩)] }) (joined1 { holding [] with host := { HostT.reset with hostMem := Mem.write 0 [] 0 (blockOf 384 [(8, 2, 1), (0, 2, 1), (2, 2, 1), (4, 2, 1), (6, 1, 1), (12, 2, 32)]) } }))), 0, 0, ⟨true, [], false, false, [], none⟩, cmdOf [(0, 2, 0x0402), (0x20, 4, 4096)], ⟨by decide +kernel, by decide +kernel, by decide +kernel⟩, by decide +kernel⟩,
   ⟨withCmd (cmdOf [(0, 2, 0x0402), (0x20, 4, 4096)]) ((joined1 ({ holding [] with host := { HostT.reset with hostMem := Mem.write 0 [] 0 (blockOf 384 [(0, 2, 1), (2, 2, 1), (4, 2, 1), (6, 1, 1), (12, 2, 32)]) } }))), 0, ⟨true, [], false, false, [], none⟩, cmdOf [(0, 2, 0x0402), (0x20, 4, 4096)], _, _, _, _, ⟨by decide +kernel, by decide +kernel, by decide +kernel⟩, (rfl), (rfl), (fun _ => rfl), (rfl), (rfl), by decide +kernel⟩,
   ⟨withCmd (cmdOf [(0, 2, 0x0402), (0x20, 4, 4096)]) ((joined1 ({ holding [] with host := { HostT.reset with hostMem := Mem.write 0 [] 0 (blockOf 384 [(0, 2, 1), (2, 2, 1), (4, 2, 1), (6, 1, 1), (8, 2, 1), (12, 2, 32)]) } }))), 0, 0, ⟨true, [], false, false, [], none⟩, cmdOf [(0, 2, 0x0402), (0x20, 4, 4096)], _, ⟨by decide +kernel, by decide +kernel, by decide +kernel⟩, (rfl), by decide +kernel⟩,
   ⟨withCmd { cmdOf [(0, 2, 0x0402)] with stage := 2 } ((modI (fun x => { x with queries := [⟨.cmd 0, 0, 0, none, none, 0, some (default, default), []⟩] }) (joined1 (modSp (fun x => { x with insts := [{ inst0 with key := .search 0 0, group := 0, params := ⟨5, 80, 0, 0, 0, 1, false⟩, thread := none, cmd := some 0, own := [], go := true, datas := [(0, []), (1, [])] }] }) (holding []))))), _, 0, ⟨true, [], false, false, [], none⟩, { cmdOf [(0, 2, 0x0402)] with stage := 2 }, { inst0 with key := .search 0 0, group := 0, params := ⟨5, 80, 0, 0, 0, 1, false⟩, thread := none, cmd := some 0, own := [], go := true, datas := [(0, []), (1, [])] }, ⟨.cmd 0, 0, 0, none, none, 0, some (default, default), []⟩, ⟨.cmd 0, 0, 0, none, none, 0, some (default, default), []⟩, default, default, ⟨by decide +kernel, by decide +kernel, by decide +kernel⟩, (rfl), by decide +kernel⟩,
   ⟨withCmd { cmdOf [(0, 2, 0x0402)] with stage := 1 } ((joined1 (modSp (fun x => { x with insts := [{ inst0 with key := .search 0 0, group := 0, params := ⟨5, 80, 0, 0, 0, 1, false⟩, thread := none, cmd := some 0, own := [], go := true, datas := [(0, []), (1, [])] }] }) (holding [])))), 0, ⟨true, [], false, false, [], none⟩, { cmdOf [(0, 2, 0x0402)] with stage := 1 }, { inst0 with key := .search 0 0, group := 0, params := ⟨5, 80, 0, 0, 0, 1, false⟩, thread := none, cmd := some 0, own := [], go := true, datas := [(0, []), (1, [])] }, ⟨by decide +kernel, by decide +kernel, by decide +kernel⟩, by decide +kernel⟩,
   ⟨withCmd { cmdOf [(0, 2, 0x0402)] with stage := 1 } ((joined1 (modSp (fun x => { x with insts := [{ inst0 with key := .search 0 0, group := 0, params := ⟨5, 80, 0, 0, 0, 1, false⟩, thread := none, cmd := some 0, own := [], go := false }] }) (holding [])))), 0, ⟨true, [], false, false, [], none⟩, { cmdOf [(0, 2, 0x0402)] with stage := 1 }, { inst0 with key := .search 0 0, group := 0, params := ⟨5, 80, 0, 0, 0, 1, false⟩, thread := none, cmd := some 0, own := [], go := false }, ⟨by decide +kernel, by decide +kernel, by decide +kernel⟩, by decide +kernel⟩⟩

/-- Every clause of SessionsAndAnswers has a state and operands that meet its hypotheses. -/
theorem test_meets_SessionsAndAnswers :
    (∃ (s : State) (id : Nat) (c : Cmd),
      RunsItem s id 0x0501 c ∧ c.stage = 0 ∧ s.answers (c.field 0x10 8) = true ∧ s.serv.sessions.length < 1024) ∧
    (∃ (s : State) (id tokens : Nat) (c : Cmd),
      RunsItem s id 0x0501 c ∧ tokens = (if c.need = 0 then 0 else Config.textTokens (BitVec.ofNat 64 (c.field 0x10 8)) c.pushed) ∧ c.stage ≠ 0 ∧ c.need ≤ c.got ∧ s.answers (c.field 0x10 8) = true ∧ s.serv.sessions.length < 1024 ∧ validUtf8 c.pushed = true ∧ tokens ≤ c.field 0x18 4 ∧ ((c.need = 0 ∨ (c.stage = 2 ∧ s.prefilled (textPrefill id) = true)))) ∧
    (∃ (s : State) (id : Nat) (c : Cmd) (fits : Bool),
      RunsItem s id 0x0501 c ∧ fits = decide (Config.textTokens (BitVec.ofNat 64 (c.field 0x10 8)) c.pushed ≤ c.field 0x18 4) ∧ c.stage = 1 ∧ c.need ≤ c.got ∧ c.need ≠ 0 ∧ s.answers (c.field 0x10 8) = true ∧ s.serv.sessions.length < 1024 ∧ validUtf8 c.pushed = true) ∧
    (∃ (s : State) (id : Nat) (c : Cmd) (r : SearchReads) (x : Session) (image : Option (Nat × Bitmap)),
      RunsItem s id 0x0502 c ∧ image = (if (askParams c x).useBitmap then (Tab.find s.items.bitmaps (askParams c x).bitmap).map (fun b => ((askParams c x).bitmap, b)) else none) ∧ c.stage = 0 ∧ Tab.find s.serv.sessions c.object = some x ∧ s.formatted = true) ∧
    (∃ (s : State) (id : Nat) (c : Cmd) (r : SearchReads) (x : Session),
      RunsItem s id 0x0502 c ∧ c.stage = 1 ∧ c.need ≤ c.got ∧ Tab.find s.serv.sessions c.object = some x ∧ x.run = none ∧ x.closing = none ∧ s.askBefore c = false ∧ s.askError c (askParams c x) = none ∧ askHandles c = 0) ∧
    (∃ (s : State) (id : Nat) (c : Cmd) (r : SearchReads) (x : Session),
      RunsItem s id 0x0502 c ∧ Tab.find s.serv.sessions c.object = some x ∧ x.roomFor c = true ∧ c.stage = 1 ∧ c.need ≤ c.got ∧ x.run = none ∧ x.closing = none ∧ s.askBefore c = false ∧ s.askError c (askParams c x) = none ∧ askHandles c ≠ 0) ∧
    (∃ (s : State) (id : Nat) (c : Cmd) (r : SearchReads) (x : Session) (y : Query) (q : Query1) (a : Admitted),
      RunsItem s id 0x0502 c ∧ Tab.find s.serv.sessions c.object = some x ∧ x.roomFor c = true ∧ q = askQuery (askParams c x) (Config.retrievalVector x.model (askQuestion c) s.items.dims) ∧ a = s.items.admitQuery y.epoch (y.image.map (·.2)) q ∧ c.stage = 4 ∧ c.need ≤ c.got ∧ askHandles c = 0 ∧ s.prefilled (scratchPrefill id) = true ∧ x.run = none ∧ x.closing = none ∧ s.askBefore c = false ∧ s.askError c (askParams c x) = none ∧ r.plausible = true ∧ r.badNodes = [] ∧ s.items.query? (.cmd id) = some y) ∧
    (∃ (s : State) (id : Nat) (c : Cmd) (r : SearchReads) (x : Session) (y : Query),
      RunsItem s id 0x0502 c ∧ c.stage = 5 ∧ Tab.find s.serv.sessions c.object = some x ∧ s.items.query? (.cmd id) = some y ∧ y.faulted r = false ∧ s.collectAll.items.scansDone (.cmd id) = false) ∧
    (∃ (s u : State) (id : Nat) (c : Cmd) (r : SearchReads) (x : Session) (z y : Query) (q : Query1) (a : Admitted) (f : Found),
      RunsItem s id 0x0502 c ∧ u = s.collectAll ∧ f = (u.readSpots (u.rerankSpots y)).finish q a y.lists r ∧ c.stage = 5 ∧ Tab.find s.serv.sessions c.object = some x ∧ s.items.query? (.cmd id) = some z ∧ z.faulted r = false ∧ u.items.query? (.cmd id) = some y ∧ y.ask = some (q, a) ∧ u.items.scansDone (.cmd id) = true ∧ u.spotsReady true (u.rerankSpots y) = true) ∧
    (∃ (s : State) (id : Nat) (c : Cmd) (r : SearchReads) (x : Session) (y : Query),
      RunsItem s id 0x0502 c ∧ c.stage = 5 ∧ Tab.find s.serv.sessions c.object = some x ∧ s.items.query? (.cmd id) = some y ∧ y.faulted r = true) ∧
    (∃ (s : State) (id qt : Nat) (c : Cmd) (r : SearchReads) (x : Session) (a : AskRun),
      RunsItem s id 0x0502 c ∧ Tab.find s.serv.sessions c.object = some x ∧ qt = Config.textTokens x.model (askQuestion c) ∧ x.used + (qt + c.field 0x14 4) ≤ x.ctxMax ∧ c.stage = 2 ∧ x.run = some a ∧ a.cmd = id ∧ a.placed = false ∧ (∀ l ∈ a.built, s.building l x.model = false)) ∧
    (∃ (s : State) (id l : Nat) (c : Cmd) (r : SearchReads) (x : Session) (a : AskRun),
      RunsItem s id 0x0502 c ∧ c.stage = 2 ∧ Tab.find s.serv.sessions c.object = some x ∧ x.run = some a ∧ l ∈ a.built ∧ s.building l x.model = true) ∧
    (∃ (s : State) (id : Nat) (c : Cmd) (r : SearchReads) (x : Session),
      RunsItem s id 0x0502 c ∧ (((c.stage = 1 ∧ askHandles c ≠ 0) ∨ (c.stage = 4 ∧ askHandles c = 0 ∧ s.prefilled (scratchPrefill id) = true))) ∧ x.roomFor c = false ∧ c.need ≤ c.got ∧ Tab.find s.serv.sessions c.object = some x ∧ x.run = none ∧ x.closing = none ∧ s.askBefore c = false ∧ s.askError c (askParams c x) = none ∧ r.plausible = true) ∧
    (∃ (s : State) (h : Nat) (c : Cmd) (x : Session) (a : AskRun),
      Tab.find s.serv.sessions h = some x ∧ x.run = some a ∧ s.cmd? a.cmd = some c ∧ s.halted c = false ∧ a.lost = none ∧ s.decoding a = true ∧ s.resident x = true) ∧
    (∃ (s : State) (h : Nat) (c : Cmd) (x : Session) (a : AskRun),
      Tab.find s.serv.sessions h = some x ∧ x.run = some a ∧ s.resident x = false ∧ s.cmd? a.cmd = some c ∧ s.halted c = false ∧ a.lost = none ∧ s.decoding a = true) ∧
    (∃ (s : State) (h : Nat) (c : Cmd) (x : Session) (a : AskRun) (b : Bool),
      Tab.find s.serv.sessions h = some x ∧ x.run = some a ∧ s.cmd? a.cmd = some c ∧ s.halted c = false ∧ a.lost = some b) ∧
    (∃ (s : State) (h : Nat) (x : Session) (a : AskRun),
      Tab.find s.serv.sessions h = some x ∧ x.run = some a ∧ a.lost = none ∧ s.decoding a = false) ∧
    (∃ (s : State) (h : Nat) (c : Cmd) (x : Session) (a : AskRun),
      Tab.find s.serv.sessions h = some x ∧ x.run = some a ∧ s.cmd? a.cmd = some c ∧ s.halted c = true) ∧
    (∃ (s : State) (x : Session) (r : AskRun) (group mark : Nat) (k : Cite),
      s.citeOf x r group mark = some k) ∧
    (∃ (s : State) (id : Nat) (c : Cmd) (x : Session) (a : AskRun),
      RunsItem s id 0x0503 c ∧ Tab.find s.serv.sessions c.object = some x ∧ x.run = some a) ∧
    (∃ (s : State) (id : Nat) (c : Cmd) (x : Session),
      RunsItem s id 0x0503 c ∧ Tab.find s.serv.sessions c.object = some x ∧ x.run = none ∧ ((∀ d ∈ Tab.vals s.host.cmds, d.opcode = 0x0502 → d.object ≠ c.object))) := 
  ⟨⟨withCmd (cmdOf [(0, 2, 0x0501), (0x10, 8, 5), (0x18, 4, 100)]) serving, 0, cmdOf [(0, 2, 0x0501), (0x10, 8, 5), (0x18, 4, 100)], ⟨by decide +kernel, by decide +kernel, by decide +kernel⟩, by decide +kernel⟩,
   ⟨withCmd { cmdOf [(0, 2, 0x0501), (0x10, 8, 5), (0x18, 4, 100)] with stage := 1 } serving, 0, 0, { cmdOf [(0, 2, 0x0501), (0x10, 8, 5), (0x18, 4, 100)] with stage := 1 }, ⟨by decide +kernel, by decide +kernel, by decide +kernel⟩, (rfl), by decide +kernel⟩,
   ⟨withCmd { cmdOf [(0, 2, 0x0501), (0x10, 8, 5), (0x18, 4, 100), (0x1C, 4, 1)] with stage := 1, need := 1, got := 1, data := Mem.write 0 [] 0 [0x41#8] } serving, 0, { cmdOf [(0, 2, 0x0501), (0x10, 8, 5), (0x18, 4, 100), (0x1C, 4, 1)] with stage := 1, need := 1, got := 1, data := Mem.write 0 [] 0 [0x41#8] }, _, ⟨by decide +kernel, by decide +kernel, by decide +kernel⟩, (rfl), by decide +kernel⟩,
   ⟨withCmd (cmdOf [(0, 2, 0x0502), (8, 8, 7), (0x14, 4, 10)]) ((inSession (session0 0))), 0, cmdOf [(0, 2, 0x0502), (8, 8, 7), (0x14, 4, 10)], ⟨true, [], false, false, [], none⟩, session0 0, _, ⟨by decide +kernel, by decide +kernel, by decide +kernel⟩, (rfl), by decide +kernel⟩,
   ⟨withCmd { cmdOf [(0, 2, 0x0502), (8, 8, 7), (0x14, 4, 10)] with stage := 1 } ((inSession (session0 0))), 0, { cmdOf [(0, 2, 0x0502), (8, 8, 7), (0x14, 4, 10)] with stage := 1 }, ⟨true, [], false, false, [], none⟩, session0 0, ⟨by decide +kernel, by decide +kernel, by decide +kernel⟩, by decide +kernel⟩,
   ⟨withCmd { cmdOf [(0, 2, 0x0502), (8, 8, 7), (0x14, 4, 10), (0x38, 4, 1)] with stage := 1, need := 8, got := 8, data := Mem.write 0 [] 0 [3#8] } ((modI (fun x => { x with items := [(3, item0)] }) (inSession (session0 (Config.textTokens 0#64 (askQuestion ({ cmdOf [(0, 2, 0x0502), (8, 8, 7), (0x14, 4, 10), (0x38, 4, 1)] with stage := 1, need := 8, got := 8, data := Mem.write 0 [] 0 [3#8] })) + 10))))), 0, { cmdOf [(0, 2, 0x0502), (8, 8, 7), (0x14, 4, 10), (0x38, 4, 1)] with stage := 1, need := 8, got := 8, data := Mem.write 0 [] 0 [3#8] }, ⟨true, [], false, false, [], none⟩, session0 (Config.textTokens 0#64 (askQuestion ({ cmdOf [(0, 2, 0x0502), (8, 8, 7), (0x14, 4, 10), (0x38, 4, 1)] with stage := 1, need := 8, got := 8, data := Mem.write 0 [] 0 [3#8] })) + 10), ⟨by decide +kernel, by decide +kernel, by decide +kernel⟩, (rfl), (decide_eq_true (Nat.le_of_eq (congrArg (· + 10) (Nat.zero_add _)))), by decide +kernel⟩,
   ⟨withCmd { cmdOf [(0, 2, 0x0502), (8, 8, 7), (0x14, 4, 10)] with stage := 4 } ({ (modI (fun x => { x with queries := [⟨.cmd 0, 0, 0, none, none, 0, none, []⟩] }) (inSession (session0 (Config.textTokens 0#64 (askQuestion (cmdOf [(0, 2, 0x0502), (8, 8, 7), (0x14, 4, 10)])) + 10)))) with steps := { Steps.reset with known := [2] } }), 0, { cmdOf [(0, 2, 0x0502), (8, 8, 7), (0x14, 4, 10)] with stage := 4 }, ⟨true, [], false, false, [], none⟩, session0 (Config.textTokens 0#64 (askQuestion (cmdOf [(0, 2, 0x0502), (8, 8, 7), (0x14, 4, 10)])) + 10), ⟨.cmd 0, 0, 0, none, none, 0, none, []⟩, _, _, ⟨by decide +kernel, by decide +kernel, by decide +kernel⟩, (rfl), (decide_eq_true (Nat.le_of_eq (congrArg (· + 10) (Nat.zero_add _)))), (rfl), (rfl), by decide +kernel⟩,
   ⟨withCmd { cmdOf [(0, 2, 0x0502), (8, 8, 7), (0x14, 4, 10)] with stage := 5 } ((modI (fun x => { x with queries := [⟨.cmd 0, 0, 0, none, none, 0, none, []⟩], scans := [⟨.cmd 0, .interactive, none, 0, 0, [], 0⟩] }) (inSession (session0 0)))), 0, { cmdOf [(0, 2, 0x0502), (8, 8, 7), (0x14, 4, 10)] with stage := 5 }, ⟨true, [], false, false, [], none⟩, session0 0, ⟨.cmd 0, 0, 0, none, none, 0, none, []⟩, ⟨by decide +kernel, by decide +kernel, by decide +kernel⟩, by decide +kernel⟩,
   ⟨withCmd { cmdOf [(0, 2, 0x0502), (8, 8, 7), (0x14, 4, 10)] with stage := 5 } ((modI (fun x => { x with queries := [⟨.cmd 0, 0, 0, none, none, 0, some (default, default), []⟩] }) (inSession (session0 0)))), _, 0, { cmdOf [(0, 2, 0x0502), (8, 8, 7), (0x14, 4, 10)] with stage := 5 }, ⟨true, [], false, false, [], none⟩, session0 0, ⟨.cmd 0, 0, 0, none, none, 0, some (default, default), []⟩, ⟨.cmd 0, 0, 0, none, none, 0, some (default, default), []⟩, default, default, _, ⟨by decide +kernel, by decide +kernel, by decide +kernel⟩, (rfl), (rfl), by decide +kernel⟩,
   ⟨withCmd { cmdOf [(0, 2, 0x0502), (8, 8, 7), (0x14, 4, 10)] with stage := 5 } ((modI (fun x => { x with queries := [⟨.cmd 0, 0, 0, none, none, 0, some (default, { (default : Admitted) with leaves := [0] }), []⟩] }) (inSession (session0 0)))), 0, { cmdOf [(0, 2, 0x0502), (8, 8, 7), (0x14, 4, 10)] with stage := 5 }, ⟨true, [], false, true, [], none⟩, session0 0, ⟨.cmd 0, 0, 0, none, none, 0, some (default, { (default : Admitted) with leaves := [0] }), []⟩, ⟨by decide +kernel, by decide +kernel, by decide +kernel⟩, by decide +kernel⟩,
   ⟨withCmd { cmdOf [(0, 2, 0x0502), (8, 8, 7), (0x14, 4, 10)] with stage := 2 } ((inSession { session0 (Config.textTokens 0#64 (askQuestion (cmdOf [(0, 2, 0x0502), (8, 8, 7), (0x14, 4, 10)])) + 10) with run := some { run0 with placed := false } })), 0, _, { cmdOf [(0, 2, 0x0502), (8, 8, 7), (0x14, 4, 10)] with stage := 2 }, ⟨true, [], false, false, [], none⟩, { session0 (Config.textTokens 0#64 (askQuestion (cmdOf [(0, 2, 0x0502), (8, 8, 7), (0x14, 4, 10)])) + 10) with run := some { run0 with placed := false } }, { run0 with placed := false }, ⟨by decide +kernel, by decide +kernel, by decide +kernel⟩, (rfl), (rfl), (Nat.le_of_eq (Nat.zero_add _)), by decide +kernel⟩,
   ⟨withCmd { cmdOf [(0, 2, 0x0502), (8, 8, 7), (0x14, 4, 10)] with stage := 2 } ((modS (fun v => { v with builds := [⟨3, 3, some 0, 5, true, none, 0⟩] }) (inSession { session0 100 with run := some { run0 with placed := false, built := [3] } }))), 0, 3, { cmdOf [(0, 2, 0x0502), (8, 8, 7), (0x14, 4, 10)] with stage := 2 }, ⟨true, [], false, false, [], none⟩, { session0 100 with run := some { run0 with placed := false, built := [3] } }, { run0 with placed := false, built := [3] }, ⟨by decide +kernel, by decide +kernel, by decide +kernel⟩, by decide +kernel⟩,
   ⟨withCmd { cmdOf [(0, 2, 0x0502), (8, 8, 7), (0x14, 4, 10), (0x38, 4, 1)] with stage := 1, need := 8, got := 8, data := Mem.write 0 [] 0 [3#8] } ((modI (fun x => { x with items := [(3, item0)] }) (inSession ({ session0 0 with used := 10 })))), 0, { cmdOf [(0, 2, 0x0502), (8, 8, 7), (0x14, 4, 10), (0x38, 4, 1)] with stage := 1, need := 8, got := 8, data := Mem.write 0 [] 0 [3#8] }, ⟨true, [], false, false, [], none⟩, { session0 0 with used := 10 }, ⟨by decide +kernel, by decide +kernel, by decide +kernel⟩, (Or.inl (by decide +kernel)), (decide_eq_false (Nat.not_succ_le_zero _)), by decide +kernel⟩,
   ⟨{ withCmd (cmdOf [(0, 2, 0x0502), (8, 8, 7), (0x14, 4, 10)]) (inSession { session0 100 with run := some run0 }) with steps := { Steps.reset with known := [0] } }, 7, cmdOf [(0, 2, 0x0502), (8, 8, 7), (0x14, 4, 10)], { session0 100 with run := some run0 }, run0, by decide +kernel⟩,
   ⟨farAsk, 7, cmdOf [(0, 2, 0x0502), (8, 8, 7), (0x14, 4, 10)], farSession, run0, (rfl), (rfl), (far_not_resident), by decide +kernel⟩,
   ⟨withCmd (cmdOf [(0, 2, 0x0502), (8, 8, 7), (0x14, 4, 10)]) (inSession { session0 100 with run := some { run0 with lost := some false } }), 7, cmdOf [(0, 2, 0x0502), (8, 8, 7), (0x14, 4, 10)], { session0 100 with run := some { run0 with lost := some false } }, { run0 with lost := some false }, false, by decide +kernel⟩,
   ⟨withCmd (cmdOf [(0, 2, 0x0502), (8, 8, 7), (0x14, 4, 10)]) (inSession { session0 100 with run := some run0 }), 7, { session0 100 with run := some run0 }, run0, by decide +kernel⟩,
   ⟨withCmd (cmdOf [(0, 2, 0x0502), (8, 8, 7), (0x14, 4, 10)]) { inSession { session0 100 with run := some run0 } with host := { HostT.reset with halts := [(.all, 3)] } }, 7, cmdOf [(0, 2, 0x0502), (8, 8, 7), (0x14, 4, 10)], { session0 100 with run := some run0 }, run0, by decide +kernel⟩,
   ⟨holding [(0, { item0 with lead := 0 })], { session0 0 with loaded := [⟨0, 0, 0, 0, 5, 0⟩] }, run0, 0, 0, _, (Option.some_get (by decide +kernel)).symm⟩,
   ⟨withCmd (cmdOf [(0, 2, 0x0503), (8, 8, 7)]) ((inSession { session0 100 with run := some run0 })), 0, cmdOf [(0, 2, 0x0503), (8, 8, 7)], { session0 100 with run := some run0 }, run0, ⟨by decide +kernel, by decide +kernel, by decide +kernel⟩, by decide +kernel⟩,
   ⟨withCmd (cmdOf [(0, 2, 0x0503), (8, 8, 7)]) ((inSession (session0 100))), 0, cmdOf [(0, 2, 0x0503), (8, 8, 7)], session0 100, ⟨by decide +kernel, by decide +kernel, by decide +kernel⟩, by decide +kernel⟩⟩

/-- Every clause of IndexUpkeep has a state and operands that meet its hypotheses. -/
theorem test_meets_IndexUpkeep :
    (∃ (s : State) (p : TreePlan) (due : Nat),
      s.mergeDueAt = some due ∧ s.backHalted = false ∧ s.formatted = true ∧ s.items.merge = none ∧ s.items.unwrittenLeaves = [] ∧ s.items.planOk p = true) ∧
    (∃ (s : State) (p : TreePlan) (m : MergeRun),
      s.backHalted = false ∧ s.formatted = true ∧ s.items.merge = some m ∧ (∀ c ∈ m.leaves, s.items.leafWritten c.node = true)) ∧
    (∃ (s : State) (p : TreePlan) (m : MergeRun),
      s.items.merge = some m ∧ (∃ c ∈ m.leaves, s.items.leafWritten c.node = false)) ∧
    (∃ (s : State) (p : TreePlan),
      s.mergeDueAt = none ∧ s.items.merge = none ∧ s.items.unwrittenLeaves = []) ∧
    (∃ s : State,
      s.backHalted = false) ∧
    (∃ s : State,
      s.backHalted = true) ∧
    (∃ (s : State) (d : DieNo) (q : ScanReq),
      s.items.scans = [q] ∧ Tab.find s.items.running d.val = none ∧ s.leafDie q.leaf = some d.val ∧ s.items.leafWritten q.leaf = true ∧ s.diesOn = true ∧ (s.die d).takes .other = true ∧ (s.die d).undefModes = [] ∧ s.media.windowOver s.now d = false ∧ s.oneBin d ((s.leafChain q.leaf).map chainRow) = true ∧ (∀ e ∈ s.leafChain q.leaf, (s.die d).chainEntryOk s.freeCtr e = true) ∧ chainEnd ((s.leafChain q.leaf).take 32) ≠ []) ∧
    (∃ (s : State) (d : DieNo),
      ((∀ q ∈ (s.collect d).items.scans, s.leafDie q.leaf ≠ some d.val ∨ s.items.leafWritten q.leaf = false))) ∧
    (∃ (s : State) (d : DieNo) (q : ScanReq) (y : Query),
      Tab.find s.items.running d.val = some [some q] ∧ s.items.scans = [] ∧ (s.die d).scanRun = none ∧ (s.die d).result.length = 544 ∧ s.items.query? q.who = some y) ∧
    (∃ (s : State) (lead : Nat) (ok : Bool) (b : Build) (m : W64),
      ((s.readOnly = true ∨ ok = false)) ∧ s.serv.builds.find? (fun b => b.lead = lead) = some b ∧ s.buildModel b = some m ∧ s.backHalted = false ∧ b.waiter = none) ∧
    (∃ (s : State) (lead id : Nat) (ok : Bool) (b : Build) (m : W64) (c : Cmd),
      ((s.readOnly = true ∨ ok = false)) ∧ s.serv.builds.find? (fun b => b.lead = lead) = some b ∧ s.buildModel b = some m ∧ s.backHalted = false ∧ b.waiter = some id ∧ s.cmd? id = some c) ∧
    (∃ (s : State) (lead : Nat) (b : Build) (m : W64),
      s.serv.builds.find? (fun b => b.lead = lead) = some b ∧ s.buildModel b = some m ∧ s.readOnly = false ∧ s.decodes (.build b.key) = true ∧ s.prefilled (buildPrefill b.key) = false) ∧
    (∃ (s : State) (lead : Nat) (b : Build) (m : W64),
      s.serv.builds.find? (fun b => b.lead = lead) = some b ∧ s.buildModel b = some m ∧ s.readOnly = false ∧ s.backHalted = false ∧ s.decodes (.build b.key) = false) ∧
    (∃ (s u : State) (lead : Nat) (b : Build) (m : W64),
      ({ s with serv := s.serv.dropBuilds (fun x => x.key = b.key) }).makeCache b m = some u ∧ s.serv.builds.find? (fun b => b.lead = lead) = some b ∧ s.buildModel b = some m ∧ s.backHalted = false ∧ s.readOnly = false ∧ b.waiter = none ∧ s.decodes (.build b.key) = true ∧ s.prefilled (buildPrefill b.key) = true ∧ u.overKept = none) := 
  ⟨⟨modI (fun x => { x with fresh := [⟨3, 1, 0, none, 0⟩] }) (holding [(3, item0)]), ⟨[[3]], []⟩, _, (Option.some_get (by decide +kernel)).symm, by decide +kernel⟩,
   ⟨modI (fun x => { x with merge := some ⟨[], [], [], []⟩, nodes := [(0, (0, .leaf none [some (3, 0)]))], nextNode := 1 }) (holding [(3, item0)]), ⟨[], []⟩, ⟨[], [], [], []⟩, by decide +kernel⟩,
   ⟨modI (fun x => { x with merge := some ⟨[⟨0, 0, true, ⟨[], []⟩⟩], [], [], []⟩, nodes := [(0, (0, .leaf none [some (3, 0)]))], nextNode := 1 }) (holding [(3, item0)]), ⟨[], []⟩, ⟨[⟨0, 0, true, ⟨[], []⟩⟩], [], [], []⟩, by decide +kernel⟩,
   ⟨State.reset, ⟨[], []⟩, by decide +kernel⟩,
   ⟨State.reset, by decide +kernel⟩,
   ⟨{ State.reset with host := { HostT.reset with halts := [(.all, 3)] } }, by decide +kernel⟩,
   ⟨leafScan, 0, scanned, (by decide +kernel), (by decide +kernel), (by decide +kernel), (by decide +kernel), (by decide +kernel), (by decide +kernel), (by decide +kernel), (by decide +kernel), (leafScan_one_bin), (leafScan_chain_ok), (by decide +kernel)⟩,
   ⟨State.reset, 0, by decide +kernel⟩,
   ⟨modI (fun x => { x with running := [(0, [some scanned])], queries := [⟨.cmd 0, 0, 0, none, none, 0, none, []⟩] }) (onDie { Die.reset with result := List.replicate 544 0 }), 0, scanned, ⟨.cmd 0, 0, 0, none, none, 0, none, []⟩, by decide +kernel⟩,
   ⟨modS (fun x => { x with builds := [⟨9, 3, some 5, 0, false, none, 0⟩] }) ({ serving with items := (holding [(3, { item0 with extent := some ⟨0, 0, 0, 0⟩ })]).items }), 3, false, ⟨9, 3, some 5, 0, false, none, 0⟩, 5, (Or.inr rfl), by decide +kernel⟩,
   ⟨withCmd (cmdOf []) (modS (fun x => { x with builds := [⟨9, 3, some 5, 0, false, some 0, 0⟩] }) ({ serving with items := (holding [(3, { item0 with extent := some ⟨0, 0, 0, 0⟩ })]).items })), 3, 0, false, ⟨9, 3, some 5, 0, false, some 0, 0⟩, 5, cmdOf [], (Or.inr rfl), by decide +kernel⟩,
   ⟨modS (fun x => { x with builds := [⟨9, 3, some 5, 0, false, none, 0⟩], decoders := [(0, .build 9, 0)] }) ({ serving with items := (holding [(3, { item0 with extent := some ⟨0, 0, 0, 0⟩ })]).items }), 3, ⟨9, 3, some 5, 0, false, none, 0⟩, 5, by decide +kernel⟩,
   ⟨modS (fun x => { x with builds := [⟨9, 3, some 5, 0, false, none, 0⟩] }) ({ serving with items := (holding [(3, { item0 with extent := some ⟨0, 0, 0, 0⟩ })]).items }), 3, ⟨9, 3, some 5, 0, false, none, 0⟩, 5, by decide +kernel⟩,
   ⟨{ modS (fun x => { x with builds := [⟨9, 3, some 5, 0, false, none, 0⟩], decoders := [(0, .build 9, 0)] }) ({ serving with items := (holding [(3, { item0 with extent := some ⟨0, 0, 0, 0⟩ })]).items }) with steps := { Steps.reset with known := [19] } }, _, 3, ⟨9, 3, some 5, 0, false, none, 0⟩, 5, (Option.some_get (by decide +kernel)).symm, by decide +kernel⟩⟩

/-- Every clause of Adaptation has a state and operands that meet its hypotheses. -/
theorem test_meets_Adaptation :
    (∃ (s : State) (id : Nat) (c : Cmd) (desc : List Byte),
      Runs s id 0x0701 c ∧ desc = (if c.field 0x10 1 = 4 then s.hostRead c.port (c.field 0x28 8) 32 else zeros 32) ∧ s.adaptError c desc = none) ∧
    (∃ (s : State) (id n : Nat) (c : Cmd) (st : Status),
      Runs s id 0x0701 c ∧ st ≠ .checkFailed ∧ s.adaptError c (if c.field 0x10 1 = 4 then s.hostRead c.port (c.field 0x28 8) 32 else zeros 32) = some (st, n)) ∧
    (∃ (s : State) (lost : List Nat) (a : Adapt),
      s.serv.adapt = some a ∧ a.state = 1 ∧ s.backHalted = false ∧ a.kind ≠ 4 ∧ s.masterOk a.master a.masterLen = true ∧ 0 ∈ s.steps.ran ∧ ((s.serv.complexFor.isSome = true ∨ (a.kind ≠ 2 ∧ a.kind ≠ 3)))) ∧
    (∃ (s : State) (lost : List Nat) (a : Adapt),
      s.serv.adapt = some a ∧ a.state = 1 ∧ s.backHalted = false ∧ a.kind = 4 ∧ s.readOnly = false ∧ 0 ∈ s.steps.ran ∧ ((s.serv.complexFor.isSome = true ∨ (a.encV = s.items.encV ∧ a.encA = s.items.encA))) ∧ s.toStage a ≠ []) ∧
    (∃ (s : State) (lost : List Nat) (a : Adapt),
      s.serv.adapt = some a ∧ a.state = 1 ∧ s.backHalted = false ∧ a.kind = 4 ∧ s.readOnly = false ∧ 0 ∈ s.steps.ran ∧ ((s.serv.complexFor.isSome = true ∨ (a.encV = s.items.encV ∧ a.encA = s.items.encA))) ∧ s.toStage a = []) ∧
    (∃ (s : State) (lost : List Nat) (a : Adapt),
      (((a.kind = 4 ∧ s.readOnly = false) ∨ (a.kind ≠ 4 ∧ s.masterOk a.master a.masterLen = true))) ∧ s.serv.adapt = some a ∧ 0 ∉ s.steps.ran) ∧
    (∃ (s : State) (lost : List Nat) (a : Adapt),
      ((a.state ≠ 1 ∨ s.backHalted = true)) ∧ s.serv.adapt = some a) ∧
    (∃ (s : State) (lost : List Nat) (a : Adapt) (st : Status),
      (((a.kind ≠ 4 ∧ s.masterOk a.master a.masterLen = false ∧ st = .invalidField) ∨ (a.kind = 4 ∧ s.readOnly = true ∧ st = .mediaReadOnly))) ∧ s.serv.adapt = some a ∧ a.state = 1 ∧ s.backHalted = false) ∧
    (∃ (s : State) (id : Nat) (c : Cmd),
      Runs s id 0x0702 c ∧ s.serv.adapt = none) ∧
    (∃ (s : State) (id : Nat) (c : Cmd) (a : Adapt),
      Runs s id 0x0702 c ∧ s.serv.adapt = some a) ∧
    (∃ (s : State) (id : Nat) (c : Cmd),
      Runs s id 0x0703 c ∧ (s.serv.adapt.elim true (fun a => a.state = 1)) = true) ∧
    (∃ (s : State) (id : Nat) (c : Cmd) (a : Adapt),
      Runs s id 0x0703 c ∧ ((a.state = 3 ∨ a.state = 4)) ∧ s.serv.adapt = some a) ∧
    (∃ (s : State) (id : Nat) (c : Cmd) (a : Adapt),
      Runs s id 0x0703 c ∧ s.serv.adapt = some a ∧ a.state = 2 ∧ a.kind = 4 ∧ a.absentItems ≠ [] ∧ c.field 0x10 1 = 0) ∧
    (∃ (s : State) (id : Nat) (c : Cmd) (a : Adapt),
      Runs s id 0x0703 c ∧ s.serv.adapt = some a ∧ a.state = 2 ∧ a.kind = 4 ∧ a.absentItems = []) ∧
    (∃ (s : State) (id m : Nat) (c : Cmd) (a : Adapt),
      Runs s id 0x0703 c ∧ m = s.serv.freeModel ∧ s.serv.adapt = some a ∧ a.state = 2 ∧ a.kind ≠ 4) := 
  ⟨⟨withCmd (cmdOf [(0, 2, 0x0701), (0x10, 1, 4)]) (({ holding [] with host := { HostT.reset with hostMem := Mem.write 0 [] 24 [2#8] } })), 0, cmdOf [(0, 2, 0x0701), (0x10, 1, 4)], _, ⟨by decide +kernel, by decide +kernel, by decide +kernel⟩, (rfl), by decide +kernel⟩,
   ⟨withCmd (cmdOf [(0, 2, 0x0701), (0x10, 1, 4)]) State.reset, 0, 0, cmdOf [(0, 2, 0x0701), (0x10, 1, 4)], .invalidField, ⟨by decide +kernel, by decide +kernel, by decide +kernel⟩, by decide +kernel⟩,
   ⟨{ modT (fun x => { x with grants := [(0, ⟨1, 0, 0, 4096, false, none, 0, 0, .interactive, false, [], 0xFFFFFFFF, none⟩)] }) (adapting (adapt0 0)) with steps := { Steps.reset with ran := [0] } }, [], adapt0 0, by decide +kernel⟩,
   ⟨{ modI (fun x => { x with items := [(3, item0)] }) (adapting (adapt0 4)) with steps := { Steps.reset with ran := [0] } }, [], adapt0 4, by decide +kernel⟩,
   ⟨{ adapting (adapt0 4) with steps := { Steps.reset with ran := [0] } }, [], adapt0 4, by decide +kernel⟩,
   ⟨adapting (adapt0 4), [], adapt0 4, (Or.inl (by decide +kernel)), by decide +kernel⟩,
   ⟨adapting { adapt0 4 with state := 2 }, [], { adapt0 4 with state := 2 }, (Or.inl (by decide)), by decide +kernel⟩,
   ⟨adapting (adapt0 0), [], adapt0 0, .invalidField, (Or.inl (by decide +kernel)), by decide +kernel⟩,
   ⟨withCmd (cmdOf [(0, 2, 0x0702)]) State.reset, 0, cmdOf [(0, 2, 0x0702)], ⟨by decide +kernel, by decide +kernel, by decide +kernel⟩, by decide +kernel⟩,
   ⟨withCmd (cmdOf [(0, 2, 0x0702)]) ((adapting (adapt0 4))), 0, cmdOf [(0, 2, 0x0702)], adapt0 4, ⟨by decide +kernel, by decide +kernel, by decide +kernel⟩, by decide +kernel⟩,
   ⟨withCmd (cmdOf [(0, 2, 0x0703)]) State.reset, 0, cmdOf [(0, 2, 0x0703)], ⟨by decide +kernel, by decide +kernel, by decide +kernel⟩, by decide +kernel⟩,
   ⟨withCmd (cmdOf [(0, 2, 0x0703)]) ((adapting { adapt0 4 with state := 3 })), 0, cmdOf [(0, 2, 0x0703)], { adapt0 4 with state := 3 }, ⟨by decide +kernel, by decide +kernel, by decide +kernel⟩, (Or.inl rfl), by decide +kernel⟩,
   ⟨withCmd (cmdOf [(0, 2, 0x0703)]) ((adapting { adapt0 4 with state := 2, absentItems := [3] })), 0, cmdOf [(0, 2, 0x0703)], { adapt0 4 with state := 2, absentItems := [3] }, ⟨by decide +kernel, by decide +kernel, by decide +kernel⟩, by decide +kernel⟩,
   ⟨withCmd (cmdOf [(0, 2, 0x0703)]) ((adapting { adapt0 4 with state := 2 })), 0, cmdOf [(0, 2, 0x0703)], { adapt0 4 with state := 2 }, ⟨by decide +kernel, by decide +kernel, by decide +kernel⟩, by decide +kernel⟩,
   ⟨withCmd (cmdOf [(0, 2, 0x0703)]) ((adapting { adapt0 0 with state := 2 })), 0, _, cmdOf [(0, 2, 0x0703)], { adapt0 0 with state := 2 }, ⟨by decide +kernel, by decide +kernel, by decide +kernel⟩, (rfl), by decide +kernel⟩⟩

/-- Every clause of ModelsLoaded has a state and operands that meet its hypotheses. -/
theorem test_meets_ModelsLoaded :
    (∃ (s : State) (id : Nat) (c : Cmd) (x : Model),
      Runs s id 0x0601 c ∧ c.field 0x10 1 = 0 ∧ s.loadError (c.field 0x18 8) = none ∧ Tab.find s.serv.models (c.field 0x18 8) = some x) ∧
    (∃ (s : State) (id : Nat) (c : Cmd) (k : Media),
      Runs s id 0x0601 c ∧ ((c.field 0x10 1 = 1 → s.modelRoom (c.field 0x20 8) = true)) ∧ s.media.takeRoom s.now id (flashStripes 18 (s.flashPlace (c.field 0x20 8)) (c.field 0x20 8)) = some k ∧ c.field 0x10 1 ≠ 0 ∧ c.stage = 0) ∧
    (∃ (s : State) (id m : Nat) (c : Cmd),
      Runs s id 0x0601 c ∧ m = (Config.imageId c.pushed).toNat ∧ c.field 0x10 1 ≠ 0 ∧ c.stage = 1 ∧ c.need ≤ c.got ∧ s.pushedError (c.field 0x10 1) c.pushed = none) ∧
    (∃ (s : State) (id : Nat) (c : Cmd) (x : Model),
      Runs s id 0x0606 c ∧ s.modelUsed (c.field 0x18 8) = false ∧ Tab.find s.serv.models (c.field 0x18 8) = some x) ∧
    (∃ (s : State) (id : Nat) (c : Cmd),
      Runs s id 0x0606 c ∧ s.modelUsed (c.field 0x18 8) = true) := 
  ⟨⟨withCmd (cmdOf [(0, 2, 0x0601), (0x18, 8, 5)]) serving, 0, cmdOf [(0, 2, 0x0601), (0x18, 8, 5)], model0, ⟨by decide +kernel, by decide +kernel, by decide +kernel⟩, by decide +kernel⟩,
   ⟨withCmd (cmdOf [(0, 2, 0x0601), (0x10, 1, 1), (0x20, 8, 4096)]) State.reset, 0, cmdOf [(0, 2, 0x0601), (0x10, 1, 1), (0x20, 8, 4096)], _, ⟨by decide +kernel, by decide +kernel, by decide +kernel⟩, (fun _ => by decide +kernel), (Option.some_get (by decide +kernel)).symm, by decide +kernel⟩,
   ⟨withCmd { cmdOf [(0, 2, 0x0601), (0x10, 1, 2)] with stage := 1, need := 3328, got := 3328 } State.reset, 0, _, { cmdOf [(0, 2, 0x0601), (0x10, 1, 2)] with stage := 1, need := 3328, got := 3328 }, ⟨by decide +kernel, by decide +kernel, by decide +kernel⟩, (rfl), by decide +kernel⟩,
   ⟨withCmd (cmdOf [(0, 2, 0x0606), (0x18, 8, 5)]) serving, 0, cmdOf [(0, 2, 0x0606), (0x18, 8, 5)], model0, ⟨by decide +kernel, by decide +kernel, by decide +kernel⟩, by decide +kernel⟩,
   ⟨withCmd (cmdOf [(0, 2, 0x0606), (0x18, 8, 5)]) ((inSession { session0 5 with model := 5 })), 0, cmdOf [(0, 2, 0x0606), (0x18, 8, 5)], ⟨by decide +kernel, by decide +kernel, by decide +kernel⟩, by decide +kernel⟩⟩

/-- Every clause of ModulesGrantsJobs has a state and operands that meet its hypotheses. -/
theorem test_meets_ModulesGrantsJobs :
    (∃ (s : State) (id : Nat) (c : Cmd),
      Runs s id 0x0602 c ∧ c.stage = 0 ∧ s.compute.mods.length < 64) ∧
    (∃ (s : State) (id : Nat) (c : Cmd) (v : Invalid),
      Runs s id 0x0602 c ∧ s.containerFails c.pushed = some v ∧ c.stage = 1 ∧ c.need ≤ c.got ∧ s.compute.mods.length < 64) ∧
    (∃ (s : State) (id : Nat) (c : Cmd),
      Runs s id 0x0602 c ∧ c.stage = 1 ∧ c.need ≤ c.got ∧ s.compute.mods.length < 64 ∧ s.containerFails c.pushed = none ∧ sectBytes c.pushed 2 = [] ∧ s.media.total ≤ stripesMax) ∧
    (∃ (s : State) (id : Nat) (c : Cmd) (m : DModule),
      Runs s id 0x0607 c ∧ s.dmodule c.object = some m ∧ s.moduleBusy c.object = false) ∧
    (∃ (s : State) (id : Nat) (c : Cmd),
      Runs s id 0x0607 c ∧ s.moduleBusy c.object = true) ∧
    (∃ (s : State) (id b n : Nat) (c : Cmd),
      Runs s id 0x0604 c ∧ n = c.field 0x18 8 ∧ b = s.grantPlace 0 n ∧ c.stage = 0 ∧ c.field 0x10 1 = 0 ∧ bitOf (c.field 0x11 1) 0 = false ∧ s.grantError c = none) ∧
    (∃ (s : State) (id n h : Nat) (c : Cmd) (m : Media),
      Runs s id 0x0604 c ∧ n = c.field 0x18 8 ∧ h = s.flashPlace n ∧ s.media.takeRoom s.now id (flashStripes 18 h n) = some m ∧ c.stage = 0 ∧ c.field 0x10 1 = 0 ∧ bitOf (c.field 0x11 1) 0 = true ∧ s.grantError c = none) ∧
    (∃ (s : State) (id b n h : Nat) (c : Cmd),
      Runs s id 0x0604 c ∧ n = c.field 0x18 8 ∧ b = s.grantPlace 0 n ∧ h = c.aux.getD 0 0 ∧ c.stage = 1 ∧ c.field 0x10 1 = 0 ∧ bitOf (c.field 0x11 1) 0 = true ∧ c.need ≤ c.got ∧ s.grantError c = none ∧ c.pushed.length = n) ∧
    (∃ (s : State) (id k : Nat) (c : Cmd) (g : Grant) (m : DModule),
      Runs s id 0x0605 c ∧ s.dmodule c.object = some m ∧ s.moduleRuns c.object = false ∧ s.tiers.grants.find? (fun e => e.2.modh = c.object && e.2.region * 2 ^ 56 + e.2.base = c.field 0x10 8 && !e.2.isData) = some (k, g) ∧ Tab.find s.tiers.grants k = some g) ∧
    (∃ (s : State) (id : Nat) (c : Cmd),
      Runs s id 0x0605 c ∧ s.moduleRuns c.object = true) ∧
    (∃ (s : State) (id : Nat) (c : Cmd) (m : DModule),
      Runs s id 0x0603 c ∧ c.stage = 0 ∧ s.dmodule c.object = some m ∧ s.runError c = none) := 
  ⟨⟨withCmd (cmdOf [(0, 2, 0x0602)]) State.reset, 0, cmdOf [(0, 2, 0x0602)], ⟨by decide +kernel, by decide +kernel, by decide +kernel⟩, by decide +kernel⟩,
   ⟨withCmd { cmdOf [(0, 2, 0x0602)] with stage := 1, need := 64, got := 64 } State.reset, 0, { cmdOf [(0, 2, 0x0602)] with stage := 1, need := 64, got := 64 }, _, ⟨by decide +kernel, by decide +kernel, by decide +kernel⟩, (Option.some_get (by decide +kernel)).symm, by decide +kernel⟩,
   ⟨withCmd { cmdOf [(0, 2, 0x0602)] with stage := 1, need := 224, got := 224, data := Mem.write 0 [] 0 container } State.reset, 0, { cmdOf [(0, 2, 0x0602)] with stage := 1, need := 224, got := 224, data := Mem.write 0 [] 0 container }, ⟨by decide +kernel, by decide +kernel, by decide +kernel⟩, by decide +kernel⟩,
   ⟨withCmd (cmdOf [(0, 2, 0x0607), (8, 8, 1)]) ((modC (fun c => { c with threads := [], jobs := [] }) (atRecord 0 th0))), 0, cmdOf [(0, 2, 0x0607), (8, 8, 1)], modOf 0, ⟨by decide +kernel, by decide +kernel, by decide +kernel⟩, by decide +kernel⟩,
   ⟨withCmd (cmdOf [(0, 2, 0x0607), (8, 8, 1)]) ((atRecord 0 th0)), 0, cmdOf [(0, 2, 0x0607), (8, 8, 1)], ⟨by decide +kernel, by decide +kernel, by decide +kernel⟩, by decide +kernel⟩,
   ⟨withCmd (cmdOf [(0, 2, 0x0604), (8, 8, 1), (0x18, 8, 4096)]) ((atRecord 0 th0)), 0, _, _, cmdOf [(0, 2, 0x0604), (8, 8, 1), (0x18, 8, 4096)], ⟨by decide +kernel, by decide +kernel, by decide +kernel⟩, (rfl), (rfl), by decide +kernel⟩,
   ⟨withCmd (cmdOf [(0, 2, 0x0604), (8, 8, 1), (0x11, 1, 1), (0x18, 8, 16)]) ((atRecord 0 th0)), 0, _, _, cmdOf [(0, 2, 0x0604), (8, 8, 1), (0x11, 1, 1), (0x18, 8, 16)], _, ⟨by decide +kernel, by decide +kernel, by decide +kernel⟩, (rfl), (rfl), (Option.some_get (by decide +kernel)).symm, by decide +kernel⟩,
   ⟨withCmd { cmdOf [(0, 2, 0x0604), (8, 8, 1), (0x11, 1, 1), (0x18, 8, 16)] with stage := 1, need := 16, got := 16, aux := [0, 16], data := Mem.write 0 [] 0 (List.replicate 16 7#8) } ((atRecord 0 th0)), 0, _, _, _, { cmdOf [(0, 2, 0x0604), (8, 8, 1), (0x11, 1, 1), (0x18, 8, 16)] with stage := 1, need := 16, got := 16, aux := [0, 16], data := Mem.write 0 [] 0 (List.replicate 16 7#8) }, ⟨by decide +kernel, by decide +kernel, by decide +kernel⟩, (rfl), (rfl), (rfl), by decide +kernel⟩,
   ⟨withCmd (cmdOf [(0, 2, 0x0605), (8, 8, 1)]) ((modT (fun x => { x with grants := [(0, ⟨1, 0, 0, 4096, false, none, 0, 0, .interactive, false, [], 0xFFFFFFFF, none⟩)] }) (modC (fun c => { c with threads := [], jobs := [] }) (atRecord 0 th0)))), 0, 0, cmdOf [(0, 2, 0x0605), (8, 8, 1)], ⟨1, 0, 0, 4096, false, none, 0, 0, .interactive, false, [], 0xFFFFFFFF, none⟩, modOf 0, ⟨by decide +kernel, by decide +kernel, by decide +kernel⟩, by decide +kernel⟩,
   ⟨withCmd (cmdOf [(0, 2, 0x0605), (8, 8, 1)]) ((atRecord 0 th0)), 0, cmdOf [(0, 2, 0x0605), (8, 8, 1)], ⟨by decide +kernel, by decide +kernel, by decide +kernel⟩, by decide +kernel⟩,
   ⟨withCmd (cmdOf [(0, 2, 0x0603), (8, 8, 1), (0x12, 1, 1), (0x14, 4, 1), (0x18, 2, 1), (0x1A, 2, 1)]) ((modC (fun c => { c with threads := [], jobs := [], mods := [(1, { modOf 0 with symbols := [⟨0, 0⟩] })] }) (atRecord 0 th0))), 0, cmdOf [(0, 2, 0x0603), (8, 8, 1), (0x12, 1, 1), (0x14, 4, 1), (0x18, 2, 1), (0x1A, 2, 1)], { modOf 0 with symbols := [⟨0, 0⟩] }, ⟨by decide +kernel, by decide +kernel, by decide +kernel⟩, by decide +kernel⟩⟩

/-- Every clause of ScrubbingAndBuckets has a state and operands that meet its hypotheses. -/
theorem test_meets_ScrubbingAndBuckets :
    (∃ (s : State) (k : RegionCls) (region addr : Nat),
      s.power.good = true ∧ region < k.regions ∧ k ∈ [RegionCls.bench, .hbm, .cache, .sram] ∧ ((k = .hbm → (s.hbmRegion addr).getD region = region)) ∧ Tab.at s.integ.buckets (regionKey k region) 0 < s.depth) ∧
    (∃ (s : State) (k : RegionCls) (region addr : Nat),
      s.power.good = true ∧ region < k.regions ∧ k ∈ [RegionCls.bench, .hbm, .cache, .sram] ∧ ((k = .hbm → (s.hbmRegion addr).getD region = region)) ∧ s.depth ≤ Tab.at s.integ.buckets (regionKey k region) 0) ∧
    (∃ (s : State) (region addr : Nat),
      s.power.good = true ∧ region < RegionCls.regions .bench) ∧
    (∃ (s : State) (region addr : Nat),
      s.power.good = true ∧ region < RegionCls.regions .hbm ∧ (s.hbmRegion addr).getD region = region ∧ s.blockKind .hbm addr = 1) ∧
    (∃ (s : State) (region addr : Nat) (x : CLine),
      s.power.good = true ∧ region < RegionCls.regions .cache ∧ addr / 2 ^ 56 ≠ 3 ∧ Tab.find s.tiers.lines (addr / 128) = some x) ∧
    (∃ (s : State) (k : RegionCls) (region addr : Nat),
      s.power.good = true ∧ region < k.regions ∧ k ∈ [RegionCls.bench, .hbm, .cache, .sram] ∧ ((k = .hbm → (s.hbmRegion addr).getD region = region)) ∧ s.adaptEn = true ∧ regionKey k region ∉ s.integ.overflowed) ∧
    (∃ s : State,
      s.power.good = true) := 
  ⟨⟨State.reset, .bench, 3, 64, by decide +kernel⟩,
   ⟨{ State.reset with integ := { Integrity.reset with bucketConfig := 0 } }, .bench, 3, 64, by decide +kernel⟩,
   ⟨State.reset, 3, 64, by decide +kernel⟩,
   ⟨State.reset, 0, 64, by decide +kernel⟩,
   ⟨modT (fun x => { x with lines := [(0, ⟨0, 0, true, 0, false, false⟩)] }) State.reset, 0, 64, ⟨0, 0, true, 0, false, false⟩, by decide +kernel⟩,
   ⟨State.reset, .bench, 3, 64, by decide +kernel⟩,
   ⟨State.reset, by decide +kernel⟩⟩

/-- Every clause of SamplesAndStrikes has a state and operands that meet its hypotheses. -/
theorem test_meets_SamplesAndStrikes :
    (∃ (s : State) (c : CoreNo) (x : Capture),
      Tab.find s.integ.captures c.val = some x ∧ x.mismatch = false ∧ s.sampleRun x = true ∧ (∀ j ∈ s.compute.jobs, j.2.ending = none)) ∧
    (∃ (s : State) (c : CoreNo) (x : Capture),
      Tab.find s.integ.captures c.val = some x ∧ x.mismatch = false ∧ s.sampleRun x = true) ∧
    (∃ (s : State) (c : CoreNo) (equal : Bool),
      (Tab.find s.integ.captures c.val).elim true (fun x => x.mismatch || !s.sampleRun x) = true) ∧
    (∃ (s : State) (c : CoreNo) (sh : Bool) (x : Capture),
      Tab.find s.integ.captures c.val = some x ∧ x.mismatch = true ∧ s.thirdEngine c x = true ∧ s.strikesOf (8 * c.val + x.shadow % 8) < 2 ∧ (∀ j ∈ s.compute.jobs, j.2.ending = none)) ∧
    (∃ (s : State) (c : CoreNo) (x : Capture),
      Tab.find s.integ.captures c.val = some x ∧ x.mismatch = true ∧ s.thirdEngine c x = true ∧ s.retireEn = true ∧ Tab.has s.integ.jig.cores c.val = false) ∧
    (∃ (s : State) (c : CoreNo) (x : Capture),
      Tab.find s.integ.captures c.val = some x ∧ x.mismatch = true ∧ s.thirdEngine c x = true ∧ s.retireEn = false) ∧
    (∃ (s : State) (c : CoreNo) (p sh : Bool),
      (Tab.find s.integ.captures c.val).elim true (fun x => !x.mismatch || !s.thirdEngine c x) = true) ∧
    (∃ (s : State) (c : CoreNo) (e : EngNo) (k : Strike),
      s.integ.jig.strikes.find? (fun k => k.core = c.val && k.engine = e.val) = some k) ∧
    (∃ (s : State) (model : W64) (bounds : List (Nat × W32 × W32)) (x : Model),
      Tab.find s.serv.models model.toNat = some x ∧ x.loaded = true ∧ x.calibrated = false) ∧
    (∃ (s : State) (model : W64) (bounds : List (Nat × W32 × W32)) (x : Model),
      ((x.loaded = false ∨ x.calibrated = true)) ∧ Tab.find s.serv.models model.toNat = some x) := 
  ⟨⟨sampled false, 0, capture0 false, by decide +kernel⟩,
   ⟨sampled false, 0, capture0 false, by decide +kernel⟩,
   ⟨State.reset, 0, true, by decide +kernel⟩,
   ⟨sampled true, 0, true, capture0 true, by decide +kernel⟩,
   ⟨sampled true, 0, capture0 true, by decide +kernel⟩,
   ⟨{ sampled true with integ := { (sampled true).integ with policy := 0 } }, 0, capture0 true, by decide +kernel⟩,
   ⟨State.reset, 0, true, true, by decide +kernel⟩,
   ⟨{ State.reset with integ := { Integrity.reset with jig := { Jig.reset with strikes := [⟨0, 1, 5⟩] } } }, 0, 1, ⟨0, 1, 5⟩, by decide +kernel⟩,
   ⟨modS (fun x => { x with models := [(5, { model0 with calibrated := false })] }) State.reset, 5, [], { model0 with calibrated := false }, by decide +kernel⟩,
   ⟨serving, 5, [], model0, (Or.inr rfl), by decide +kernel⟩⟩

/-- Every clause of StepRunsFront has a state and operands that meet its hypotheses. -/
theorem test_meets_StepRunsFront :
    (∃ (s : State) (i : Instr) (rest : List Instr),
      s.pending = i :: rest) ∧
    (∃ s : State,
      s.pending = []) := 
  ⟨⟨{ State.reset with pending := [.xrdy] }, .xrdy, [], (rfl)⟩,
   ⟨State.reset, (rfl)⟩⟩

/-- Every clause of QueueKeptTimeForward has a state and operands that meet its hypotheses. -/
theorem test_meets_QueueKeptTimeForward :
    ∃ s t : State,
      step s = .next t := ⟨State.reset, _, (rfl)⟩

/-- Every clause of MemoriesStayCanonical has a state and operands that meet its hypotheses. -/
theorem test_meets_MemoriesStayCanonical :
    ∃ s t : State,
      memoriesOk s ∧ step s = .next t := ⟨modT (fun x => { x with hbm := [(7, 1)] }) State.reset, _, ⟨by decide, by decide, by decide, by decide, fun x h => (by cases h), by decide⟩, (rfl)⟩

/-- Every clause of SecurityChangesByItsCommands has a state and operands that meet its hypotheses. -/
theorem test_meets_SecurityChangesByItsCommands :
    ∃ (i : Instr) (s t : State),
      s.sec.fuses ≤ 64 := ⟨.xrdy, State.reset, State.reset, by decide⟩

/-- Every clause of EventsMergeRepeats has a state and operands that meet its hypotheses. -/
theorem test_meets_EventsMergeRepeats :
    (∃ (e : Events) (rs : List Event) (r : Event) (op cycles code src : Nat) (payload : List Byte),
      e.recs = rs ++ [r] ∧ (∀ q ∈ rs, q.seq < r.seq) ∧ r.code = code ∧ r.severity = severityOf code payload ∧ r.source = src ∧ r.payload = fit 24 payload ∧ r.cycles = cycles ∧ r.repeats < 65535) ∧
    (∃ (e : Events) (op cycles code src : Nat) (payload : List Byte),
      ((∀ r, e.recs.getLast? = some r → ¬ (r.code = code ∧ r.severity = severityOf code payload ∧ r.source = src ∧ r.payload = fit 24 payload ∧ r.cycles = cycles ∧ r.repeats < 65535))) ∧ e.recs.length < 1048576) := 
  ⟨⟨{ State.reset.events with recs := [⟨1, 0, 0, severityOf 0x2003 [], 0x2003, 0, 0, 0, false, zeros 24⟩] }, [], ⟨1, 0, 0, severityOf 0x2003 [], 0x2003, 0, 0, 0, false, zeros 24⟩, 5, 0, 0x2003, 0, [], by decide +kernel⟩,
   ⟨State.reset.events, 5, 0, 0x2003, 0, [], (by intro r h; cases h), by decide⟩⟩

end Sys2Proof.Tests
end

/-! # Frames and dies: what a frame of a die leaves alone

Rules for `Frame` and `OtherDies`, and what `State.frame`, `State.frameIf` and `State.dataFrame` do when the die takes the command. -/

namespace Sys2Proof

open Machine

/-! ## Frames compose. -/

theorem Frame.refl (ks : List Part) (s : State) : Frame ks s s := fun p _ => by cases p <;> rfl

theorem Frame.trans {ks : List Part} {s t u : State} (h : Frame ks s t) (k : Frame ks t u) : Frame ks s u := by
  intro p hp
  have h := h p hp
  have k := k p hp
  cases p <;> exact Eq.trans k h

theorem Frame.mono {ks ls : List Part} {s t : State} (h : Frame ks s t) (hl : ks ⊆ ls) : Frame ls s t := fun p hp => h p (fun hk => hp (hl hk))

theorem OtherDies.trans {s t u : State} {d : DieNo} (h : OtherDies s t d) (k : OtherDies t u d) : OtherDies s u d :=
  fun e he => (k e he).trans (h e he)

theorem OtherDies.of_dies {s t : State} (d : DieNo) (h : t.dies = s.dies) : OtherDies s t d := fun e _ => State.die_congr h e

/-! ## The frames of the shared operations. -/

theorem frame_setDie (s : State) (d : DieNo) (x : Die) : Frame [.dies] s (s.setDie d x) := by intro p hp; cases p <;> simp [Part.same] at hp ⊢

theorem frame_spend (s : State) (n : Nat) : Frame [.freeCtr] s (s.spend n) := by intro p hp; cases p <;> simp [Part.same] at hp ⊢

theorem frame_atTime (s : State) (t : Nat) : Frame [.now] s (s.at_ t) := by intro p hp; cases p <;> simp [Part.same] at hp ⊢

theorem frame_modMedia (s : State) (f : Media → Media) : Frame [.media] s (s.modMedia f) := by intro p hp; cases p <;> simp [Part.same] at hp ⊢

theorem frame_countRead (s : State) (die : Nat) (m : BMode) (r : Row) : Frame [.media] s (s.countRead die m r) := by
  intro p hp; cases p <;> simp [Part.same] at hp ⊢

/-- A fold whose every step keeps a frame keeps it. -/
theorem frame_foldl {α : Type} {ks : List Part} (f : State → α → State) (h : ∀ s a, Frame ks s (f s a)) (l : List α) (s : State) : Frame ks s (l.foldl f s) := by
  induction l generalizing s with
  | nil => exact Frame.refl ks s
  | cons a l ih => exact (h s a).trans (ih (f s a))

/-- One die set and some free values used. -/
theorem frame_setDie_spend (s : State) (d : DieNo) (x : Die) (n : Nat) : Frame [.dies, .freeCtr] s ((s.setDie d x).spend n) :=
  ((frame_setDie s d x).mono (by simp)).trans ((frame_spend _ n).mono (by simp))

theorem otherDies_setDie (s : State) (d : DieNo) (x : Die) : OtherDies s (s.setDie d x) d := fun _ he => State.die_setDie_ne s x he

end Sys2Proof

namespace Sys2Proof.Machine

@[simp] theorem State.die_spend (s : State) (n : Nat) (d : DieNo) : (s.spend n).die d = s.die d := rfl
@[simp] theorem State.die_atTime (s : State) (t : Nat) (d : DieNo) : (s.at_ t).die d = s.die d := rfl
@[simp] theorem State.die_modMedia (s : State) (f : Media → Media) (d : DieNo) : (s.modMedia f).die d = s.die d := rfl
@[simp] theorem State.die_pagesProgrammed (s : State) (n : Nat) (d : DieNo) : (s.pagesProgrammed n).die d = s.die d := rfl

/-- One die set and some free values used: that die is as set, every other die and every other part of the state as before. -/
theorem setDie_spend_ok (s : State) (d : DieNo) (x : Die) (n : Nat) :
    ((s.setDie d x).spend n).die d = x ∧ OtherDies s ((s.setDie d x).spend n) d ∧ Frame [.dies, .freeCtr] s ((s.setDie d x).spend n) :=
  ⟨State.die_setDie_self s d x, otherDies_setDie s d x, frame_setDie_spend s d x n⟩

/-! ## A frame that a die takes. -/

theorem State.frame_next {s : State} (d : DieNo) (f : Die → Die) (h : s.diesOn = true) :
    s.frame d f = .next ((s.setDie d (f (s.die d))).spend 16) := by simp [State.frame, h]

theorem State.frameIf_next {s : State} {d : DieNo} {c : DieCmd} (f : Die → Die) (h : s.diesOn = true) (ht : (s.die d).takes c = true) :
    s.frameIf d c f = .next ((s.setDie d (f (s.die d))).spend 16) := by simp [State.frameIf, State.frame_next d _ h, ht]

theorem State.dataFrame_next {s : State} {d : DieNo} {c : DieCmd} (f : Die → List Byte) (h : s.diesOn = true) (ht : (s.die d).takes c = true) :
    s.dataFrame d c f = .next ((s.setDie d { s.die d with out := f (s.die d), answer := .ok }).spend 16) := by
  simp [State.dataFrame, State.frame_next d _ h, ht]

/-! # Reads (01 R12, R13, R25, R26, R28) -/

/-! ## Rows of a frame. -/

/-- A frame whose addresses are good names at least one row (01 R13). -/
theorem rowsOf_ne_nil {x : Die} {ctr : Nat} {mask : BitVec 4} {rows : Rows} (h : x.addressOk ctr mask rows = true) : rowsOf mask rows ≠ [] := by
  intro he
  simp [Die.addressOk, he] at h

/-- The first step of a walk holds at least its first entry (01 R28). -/
theorem chainStep_ne_nil {chain : List W32} (h : chain ≠ []) : chainStep chain 0 ≠ [] := by
  cases chain with
  | nil => exact absurd rfl h
  | cons e es => simp [chainStep]

/-! ## The exchange of prefetch buffers and page registers (01 R26). -/

/-- A table with a value put under a key, or the key deleted where there is none. -/
def Tab.setTo {α : Type} (t : Tab α) (k : Nat) : Option α → Tab α
  | some v => Tab.put t k v
  | none => Tab.del t k

theorem Tab.find_setTo {α : Type} (t : Tab α) (k j : Nat) (v : Option α) : Tab.find (Tab.setTo t k v) j = if j = k then v else Tab.find t j := by
  cases v with
  | none => exact Tab.find_del t k j
  | some v => exact Tab.find_put t k j v

/-- The exchange on one plane. -/
def Die.exchangeOne (d : Die) (r : Row) : Die :=
  { d with
    regs := Tab.setTo d.regs r.plane.val (Tab.find d.pre r.plane.val)
    pre := Tab.setTo d.pre r.plane.val (Tab.find d.regs r.plane.val) }

theorem Die.exchange_cons (d : Die) (r : Row) (rs : List Row) : d.exchange (r :: rs) = (d.exchangeOne r).exchange rs := by
  cases hp : Tab.find d.pre r.plane.val <;> cases hr : Tab.find d.regs r.plane.val <;> simp [Die.exchange, Die.exchangeOne, Tab.setTo, hp, hr]

theorem Die.find_exchangeOne_regs (d : Die) (r : Row) (k : Nat) :
    Tab.find (d.exchangeOne r).regs k = if k = r.plane.val then Tab.find d.pre r.plane.val else Tab.find d.regs k := Tab.find_setTo _ _ _ _

theorem Die.find_exchangeOne_pre (d : Die) (r : Row) (k : Nat) :
    Tab.find (d.exchangeOne r).pre k = if k = r.plane.val then Tab.find d.regs r.plane.val else Tab.find d.pre k := Tab.find_setTo _ _ _ _

/-- An exchange changes nothing but the registers and the buffers. -/
theorem Die.exchange_eq (d : Die) (rows : List Row) : d.exchange rows = { d with regs := (d.exchange rows).regs, pre := (d.exchange rows).pre } := by
  induction rows generalizing d with
  | nil => rfl
  | cons r rs ih => rw [Die.exchange_cons, ih]; rfl

@[simp] theorem Die.exchange_cells (d : Die) (rows : List Row) : (d.exchange rows).cells = d.cells := by rw [Die.exchange_eq]
@[simp] theorem Die.exchange_curRows (d : Die) (rows : List Row) : (d.exchange rows).curRows = d.curRows := by rw [Die.exchange_eq]
@[simp] theorem Die.exchange_sense (d : Die) (rows : List Row) : (d.exchange rows).sense = d.sense := by rw [Die.exchange_eq]

/-- A plane that no row names keeps its registers and buffers. -/
theorem Die.find_exchange_ne (d : Die) (rows : List Row) (p : PlaneNo) (h : p ∉ rows.map Row.plane) :
    Tab.find (d.exchange rows).regs p.val = Tab.find d.regs p.val ∧ Tab.find (d.exchange rows).pre p.val = Tab.find d.pre p.val := by
  induction rows generalizing d with
  | nil => exact ⟨rfl, rfl⟩
  | cons r rs ih =>
    simp only [List.map_cons, List.mem_cons, not_or] at h
    have hk : p.val ≠ r.plane.val := fun e => h.1 (Fin.ext e)
    simpa [Die.exchange_cons, Die.find_exchangeOne_regs, Die.find_exchangeOne_pre, hk] using ih (d.exchangeOne r) h.2

/-- With distinct planes, every row's plane has its registers and buffers exchanged. -/
theorem Die.find_exchange (d : Die) (rows : List Row) (h : (rows.map Row.plane).Nodup) (q : Row) (hq : q ∈ rows) :
    Tab.find (d.exchange rows).regs q.plane.val = Tab.find d.pre q.plane.val ∧ Tab.find (d.exchange rows).pre q.plane.val = Tab.find d.regs q.plane.val := by
  induction rows generalizing d with
  | nil => cases hq
  | cons r rs ih =>
    rw [List.map_cons, List.nodup_cons] at h
    rw [Die.exchange_cons]
    rcases List.mem_cons.mp hq with rfl | hq
    · simpa [Die.find_exchangeOne_regs, Die.find_exchangeOne_pre] using Die.find_exchange_ne (d.exchangeOne q) rs q.plane h.1
    · have hk : q.plane.val ≠ r.plane.val := fun e => h.1 (Fin.ext e ▸ List.mem_map_of_mem hq)
      simpa [Die.find_exchangeOne_regs, Die.find_exchangeOne_pre, hk] using ih (d.exchangeOne r) h.2 hq

/-! ## What each command leaves in the die. -/

theorem exec_readPage {s : State} {d : DieNo} {mask : BitVec 4} {rows : Rows} {m : BMode} (pf : Bool) (hon : s.diesOn = true)
    (ht : (s.die d).takes .other = true) (ha : (s.die d).addressOk s.freeCtr mask rows = true)
    (hm : ∀ r ∈ rowsOf mask rows, (s.die d).modeOf s.freeCtr r = m) :
    exec (.readPage d mask rows pf) s = .next ((s.setDie d { s.die d with
      sense := some ⟨.page, rowsOf mask rows, m, false, s.now + senseTime m⟩, preOn := pf, preReady := false, walk := none, answer := .ok }).spend 16) := by
  obtain ⟨r, rs, hr⟩ := List.exists_cons_of_ne_nil (rowsOf_ne_nil ha)
  have hr0 : (s.die d).modeOf s.freeCtr r = m := hm r (by simp [hr])
  have hrs : ∀ q ∈ rs, (s.die d).modeOf s.freeCtr q = m := fun q hq => hm q (by simp [hr, hq])
  have hany : (rs.map ((s.die d).modeOf s.freeCtr)).any (· ≠ m) = false := by simpa using hrs
  change execReadPage d mask rows pf s = _
  rw [execReadPage, State.frameIf_next _ hon ht]
  simp only [ha, hr, List.map_cons, hr0, hany]
  rfl

theorem exec_readChain {s : State} {d : DieNo} (m : BMode) (hon : s.diesOn = true) (ht : (s.die d).takes .other = true) (hc : (s.die d).chain ≠ []) :
    exec (.readChain d m) s = .next ((s.setDie d { s.die d with
      sense := some ⟨.chain, chainRows (s.die d).chain (chainStep (s.die d).chain 0), m, false, s.now + senseTime m⟩,
      walk := some ((chainStep (s.die d).chain 0).length, m), preOn := false, preReady := false, answer := .ok }).spend 16) := by
  obtain ⟨i, is, hi⟩ := List.exists_cons_of_ne_nil (chainStep_ne_nil hc)
  change execReadChain d m s = _
  rw [execReadChain, State.frameIf_next _ hon ht]
  simp only [hi]
  rfl

/-- READ_NEXT with the prefetched pages ready: they become current, and the pages after them, if any, start to be sensed (01 R26). -/
theorem exec_readNext {s : State} {d : DieNo} {r : Row} {rs cur : List Row} (hon : s.diesOn = true) (ht : (s.die d).takes .readNext = true)
    (hs : (s.die d).sense = none) (hp : (s.die d).preReady = true) (hw : (s.die d).walk = none) (hc : (s.die d).curRows = r :: rs)
    (hn : nextRows ((s.die d).modeOf s.freeCtr r) (r :: rs) = some cur) :
    exec (.readNext d) s = .next ((s.setDie d { ({ s.die d with preReady := false, curRows := cur }).exchange cur with
      code := .ok, answer := .ok, sense := (nextRows ((s.die d).modeOf s.freeCtr r) cur).map (fun nxt =>
        ⟨.prefetched, nxt, (s.die d).modeOf s.freeCtr r, true, s.now + senseTime ((s.die d).modeOf s.freeCtr r)⟩) }).spend 16) := by
  change execReadNext d s = _
  rw [execReadNext, State.frameIf_next _ hon ht]
  simp only [hs, hp, hw, hc, hn]
  cases nextRows ((s.die d).modeOf s.freeCtr r) cur with
  | none => simp [Die.say]
  | some nxt => rfl

/-- The end of a page read without prefetch (01 R25). -/
theorem Die.senseDone_page {x : Die} {rows : List Row} {m : BMode} {due : Nat} (ctr now : Nat) (flips : List (PlaneNo × Nat))
    (hs : x.sense = some ⟨.page, rows, m, false, due⟩) (hp : x.preOn = false) :
    x.senseDone ctr now flips = { x with sense := none, regs := x.sensedInto ctr ⟨.page, rows, m, false, due⟩ flips x.regs,
                                         curRows := rows, preReady := false, code := .ok, answer := .ok } := by
  simp [Die.senseDone, hs, hp, Die.say]

theorem exec_senseComplete {s : State} {d : DieNo} {q : Sense} (flips : List (PlaneNo × Nat)) (h : (s.die d).sense = some q) :
    exec (.senseComplete d flips) s = .next (q.rows.foldl (fun s r => s.countRead d.val q.mode r)
      (((s.at_ q.due).setDie d ((s.die d).senseDone s.freeCtr (max s.now q.due) flips)).spend senseSpan)) := by
  change execSenseComplete d flips s = _
  simp only [execSenseComplete, h]
  rfl

/-- Reads counted against their blocks change neither a die nor the time, and of the parts of the state media management only. -/
theorem countReads_fold (s : State) (die : Nat) (m : BMode) (rows : List Row) :
    (rows.foldl (fun s r => s.countRead die m r) s).dies = s.dies ∧ (rows.foldl (fun s r => s.countRead die m r) s).now = s.now ∧
      Frame [.media] s (rows.foldl (fun s r => s.countRead die m r) s) :=
  ⟨State.foldl_dies _ (fun s r => State.countRead_dies s die m r) rows s, State.foldl_now _ (fun s r => State.countRead_now s die m r) rows s,
    frame_foldl _ (fun s r => frame_countRead s die m r) rows s⟩

/-- Settles O1: each command's step is computed once, and READ_NEXT rests on what an exchange does to each plane. -/
theorem dieReadsSense : Obligations.DieReadsSense := by
  refine ⟨?readPage, ?readNext, ?readChain, ?senseComplete⟩
  case readPage =>
    intro s d mask rows pf m hon ht ha hm
    exact ⟨_, exec_readPage pf hon ht ha hm, setDie_spend_ok _ _ _ _⟩
  case readNext =>
    intro s d r rs cur hon ht hs hp hw hc hn hd
    refine ⟨_, exec_readNext hon ht hs hp hw hc hn, fun q hq => ?_, ?_, ?_, ?_, ?_, (setDie_spend_ok _ _ _ _).2⟩
    · simpa using Die.find_exchange _ cur hd q hq
    all_goals simp
  case readChain =>
    intro s d m hon ht hc
    exact ⟨_, exec_readChain m hon ht hc, setDie_spend_ok _ _ _ _⟩
  case senseComplete =>
    intro s d flips rows m due hs hp
    obtain ⟨hdie, hother, hframe⟩ := setDie_spend_ok (s.at_ due) d ((s.die d).senseDone s.freeCtr (max s.now due) flips) senseSpan
    obtain ⟨hdies, hnow, hcount⟩ := countReads_fold
      (((s.at_ due).setDie d ((s.die d).senseDone s.freeCtr (max s.now due) flips)).spend senseSpan) d.val m rows
    refine ⟨_, exec_senseComplete flips hs, ?_, hnow, OtherDies.trans hother (OtherDies.of_dies d hdies), ?_⟩
    · rw [State.die_congr hdies, hdie, Die.senseDone_page _ _ _ hs hp]
    · exact ((frame_atTime s due).mono (by simp)).trans ((hframe.mono (by simp)).trans (hcount.mono (by simp)))

end Sys2Proof.Machine

/-! # Programs and the program-order guard (01 R13, R20 to R22; 02 R80) -/

namespace Sys2Proof.Machine

/-! ## What a program frame does. -/

theorem State.programFrame_started {s u : State} {d : DieNo} {m : BMode} {mask : BitVec 4} {rows : Rows} {data pages : List (List Byte)}
    {why : ProgPurpose} (k : OpKind) (hon : s.diesOn = true) (ht : (s.die d).takes .writes = true)
    (hr : (s.die d).programRefusal s.freeCtr m mask rows = none) (hp : s.plan d m (rowsOf mask rows) data why = some (pages, u)) :
    s.programFrame d m k mask rows data why = .next ((((u.modMedia (fun y => y.written s.now d (rowsOf mask rows))).setDie d
      { (s.die d).startOp s.now k (rowsOf mask rows) pages why .none with answer := .ok }).pagesProgrammed (programPages m mask)).spend 16) := by
  simp [State.programFrame, hp, hon, ht, hr]

theorem State.programFrame_refused {s u : State} {d : DieNo} {m : BMode} {mask : BitVec 4} {rows : Rows} {data pages : List (List Byte)}
    {why : ProgPurpose} {c : DieCode} (k : OpKind) (hon : s.diesOn = true) (ht : (s.die d).takes .writes = true)
    (hr : (s.die d).programRefusal s.freeCtr m mask rows = some c) (hp : s.plan d m (rowsOf mask rows) data why = some (pages, u)) :
    s.programFrame d m k mask rows data why = .next (((s.setDie d ((s.die d).say c)).programRefused d (rowsOf mask rows) c why).spend 16) := by
  simp [State.programFrame, hp, hon, ht, hr]

@[simp] theorem State.refusedElsewhere_dies (s : State) (d : DieNo) (rows : List Row) (why : ProgPurpose) :
    (s.refusedElsewhere d rows why).dies = s.dies := by
  unfold State.refusedElsewhere
  split
  · rfl
  · cases why <;> rfl

/-- What the module does about a refused program touches no die (02 R79). -/
@[simp] theorem State.programRefused_dies (s : State) (d : DieNo) (rows : List Row) (c : DieCode) (why : ProgPurpose) :
    (s.programRefused d rows c why).dies = s.dies := by
  cases rows with
  | nil => rfl
  | cons r rs =>
    simp only [State.programRefused]
    split <;> simp

/-! ## The guard (01 R22). -/

theorem Die.modeOf_of_defined {x : Die} (ctr : Nat) (r : Row) (h : x.undefModes = []) : x.modeOf ctr r = if r.key ∈ x.qlc then .qlc else .slc := by
  simp [Die.modeOf, h]

/-- The guard on one row of a die with no undefined block: its unit is started, or the unit before it is not. -/
theorem Die.orderBad_iff {x : Die} (ctr : Nat) (m : BMode) (r : Row) (h : x.undefModes = []) :
    x.orderBad ctr m r = true ↔
      unitKey r.key (unitNo m r.page) ∈ x.started ∨ (unitNo m r.page ≠ 0 ∧ unitKey r.key (unitNo m r.page - 1) ∉ x.started) := by
  simp [Die.orderBad, Die.startedAt, h]

/-- PROGRAM_ORDER is the refusal exactly when the checks before the guard pass and the guard refuses some row (01 R13, R20, R22). -/
theorem Die.programRefusal_order_iff (x : Die) (ctr : Nat) (m : BMode) (mask : BitVec 4) (rows : Rows) :
    x.programRefusal ctr m mask rows = some .programOrder ↔
      x.addressOk ctr mask rows = true ∧ (∀ r ∈ rowsOf mask rows, x.modeOf ctr r = m) ∧ (m = .qlc → ∀ r ∈ rowsOf mask rows, r.page % 4 = 0) ∧
        ∃ r ∈ rowsOf mask rows, x.orderBad ctr m r = true := by
  unfold Die.programRefusal
  split_ifs with ha hm hw ho
  · exact iff_of_false (by simp) (fun ⟨h, _⟩ => by simp [h] at ha)
  · obtain ⟨r, hr, hne⟩ := List.any_eq_true.mp hm
    exact iff_of_false (by simp) (fun ⟨_, h, _⟩ => of_decide_eq_true hne (h r hr))
  · obtain ⟨r, hr, hne⟩ := List.any_eq_true.mp hw.2
    exact iff_of_false (by simp) (fun ⟨_, _, h, _⟩ => of_decide_eq_true hne (h hw.1 r hr))
  · exact iff_of_true rfl ⟨by simpa using ha, by simpa using hm, by simpa using hw, List.any_eq_true.mp ho⟩
  · exact iff_of_false (by simp) (fun ⟨_, _, _, h⟩ => ho (List.any_eq_true.mpr h))

/-- A frame the guard refuses: CODE and the answer become PROGRAM_ORDER, and nothing else in any die changes. -/
theorem State.programFrame_order {s : State} {d : DieNo} {m : BMode} {mask : BitVec 4} {rows : Rows} {data : List (List Byte)} {why : ProgPurpose}
    {q : Row} (k : OpKind) (hon : s.diesOn = true) (ht : (s.die d).takes .writes = true) (ha : (s.die d).addressOk s.freeCtr mask rows = true)
    (hm : ∀ r ∈ rowsOf mask rows, (s.die d).modeOf s.freeCtr r = m) (hw : m = .qlc → ∀ r ∈ rowsOf mask rows, r.page % 4 = 0)
    (hq : q ∈ rowsOf mask rows) (hb : (s.die d).orderBad s.freeCtr m q = true) (hp : s.plan d m (rowsOf mask rows) data why ≠ none) :
    ∃ t, s.programFrame d m k mask rows data why = .next t ∧ t.die d = { s.die d with code := .programOrder, answer := .programOrder } ∧
      OtherDies s t d := by
  obtain ⟨⟨pages, u⟩, hp⟩ := Option.ne_none_iff_exists'.mp hp
  have hr := (Die.programRefusal_order_iff _ _ _ _ _).mpr ⟨ha, hm, hw, q, hq, hb⟩
  refine ⟨_, State.programFrame_refused k hon ht hr hp, ?_, ?_⟩
  · rw [State.die_spend, State.die_congr (State.programRefused_dies ..), State.die_setDie_self]
    rfl
  · exact (otherDies_setDie s d _).trans (OtherDies.of_dies d (State.programRefused_dies _ d _ _ _))

/-- Settles O5: the guard's refusal, as an equivalence with the checks before it, gives both modes and the converse. -/
theorem programOrderGuard : Obligations.ProgramOrderGuard := by
  refine ⟨?slc, ?qlc, ?only⟩
  case slc =>
    intro s d mask rows data why q hon ht ha hu hm hq hb hp
    exact State.programFrame_order .slc hon ht ha (fun r hr => by simp [Die.modeOf_of_defined _ r hu, hm r hr]) (fun h => nomatch h) hq
      ((Die.orderBad_iff _ _ _ hu).mpr hb) hp
  case qlc =>
    intro s d mask rows data why q hon ht ha hu hm hq hb hp
    exact State.programFrame_order .qlc hon ht ha (fun r hr => by simp [Die.modeOf_of_defined _ r hu, (hm r hr).1]) (fun _ r hr => (hm r hr).2) hq
      ((Die.orderBad_iff _ _ _ hu).mpr hb) hp
  case only =>
    intro x ctr m mask rows hu h
    obtain ⟨_, _, _, q, hq, hb⟩ := (Die.programRefusal_order_iff _ _ _ _ _).mp h
    exact ⟨q, hq, (Die.orderBad_iff _ _ _ hu).mp hb⟩

/-! ## A program of a rebuilt member changes other dies (02 R76, R80)

The module rebuilds a unit of a lost member from its fifteen companions, and before it reads a companion it loads the read offsets of the block there,
which is a SET_FEATURE on the companion's die. -/

/-- Member 0 of stripe 12 is retired, its substitute is block 20 of die 193, and the first page of every other member stands. -/
def rebuildDue : State :=
  { State.reset with
    dies := ((List.range 16).filter (fun ch => ch ≠ 12)).map (fun ch => (16 * ch, { Die.reset with started := [unitKey 12 0] }))
    media := { Media.reset with retired := [(12, 0)], subst := [(12, 0, 1, 20)], rebuilding := [⟨12, 0, 0, 0⟩] } }

/-- Plane 0, block 20, page 0. -/
def rebuildRows : Rows := ⟨20 * 2 ^ 12, 0, 0, 0⟩

theorem rebuildDue_accepts : rebuildDue.diesOn = true ∧ (rebuildDue.die 193).takes .writes = true ∧
    (rebuildDue.die 193).programRefusal rebuildDue.freeCtr .slc 1#4 rebuildRows = none := by decide +kernel

/-- The module sends the frame, and it has then loaded the offsets of die 0, where a companion lies and which held none. -/
theorem rebuildDue_plan : (rebuildDue.plan 193 .slc (rowsOf 1#4 rebuildRows) [] .rebuild).map (fun x => (x.2.die 0).slcOffs) = some [(0, [0#8])] := by
  decide +kernel

theorem rebuildDue_die0 : (rebuildDue.die 0).slcOffs = [] := by decide +kernel

/-- Refutes O2: its first clause says of a program of every purpose that no other die changes, but one that rebuilds a unit of a lost member
loads the read offsets of the dies it reads the unit's companions from. -/
theorem not_dieProgramsAndErases : ¬ Obligations.DieProgramsAndErases := by
  intro h
  obtain ⟨hon, ht, hr⟩ := rebuildDue_accepts
  obtain ⟨⟨pages, u⟩, hp, hu⟩ := Option.map_eq_some_iff.mp rebuildDue_plan
  obtain ⟨hslc, -⟩ := h
  obtain ⟨-, t, hexec, -, -, -, -, -, -, -, -, hother, -⟩ := hslc rebuildDue u 193 1#4 rebuildRows [] pages .rebuild hon ht hr hp
  obtain rfl := Host.Outcome.next.inj (hexec.symm.trans (State.programFrame_started .slc hon ht hr hp))
  have h0 : u.die 0 = rebuildDue.die 0 := by simpa using hother 0 (by decide)
  have : ([(0, [0#8])] : Tab (List Byte)) = [] := hu.symm.trans ((congrArg Die.slcOffs h0).trans rebuildDue_die0)
  exact absurd this (by decide)

end Sys2Proof.Machine

/-! # The comparator's commands and its lists (01 R27, R39 to R45) -/

namespace Sys2Proof.Machine

/-! ## Kept lists: a stable sort cut at 16 (01 R43)

`keepBest` inserts after equals and cuts; the lemmas hold for any key that is sorted in descending order. -/

section
variable {α : Type} (f : α → Nat)

theorem insertBy_perm (before : α → α → Bool) (x : α) (l : List α) : (insertBy before x l).Perm (x :: l) := by
  induction l with
  | nil => exact .refl _
  | cons y ys ih =>
    unfold insertBy
    split
    · exact .refl _
    · exact (ih.cons y).trans (.swap x y ys)

theorem sortBy_concat (before : α → α → Bool) (l : List α) (x : α) : sortBy before (l ++ [x]) = insertBy before x (sortBy before l) := by
  simp [sortBy]

theorem sortBy_perm (before : α → α → Bool) (l : List α) : (sortBy before l).Perm l := by
  induction l using List.reverseRecOn with
  | nil => exact .refl _
  | append_singleton xs x ih =>
    rw [sortBy_concat]
    exact (insertBy_perm before x _).trans ((ih.cons x).trans (List.perm_append_singleton x xs).symm)

/-- What is inserted into a list cut at n, and cut again, is what is inserted into the whole list and cut: nothing past the cut comes back. -/
theorem take_insertBy_take (before : α → α → Bool) (x : α) (l : List α) (n : Nat) :
    (insertBy before x (l.take n)).take n = (insertBy before x l).take n := by
  induction l generalizing n with
  | nil => simp
  | cons y ys ih =>
    cases n with
    | zero => simp
    | succ n =>
      simp only [List.take_succ_cons, insertBy]
      split
      · simp only [List.take_succ_cons, List.cons.injEq, true_and]
        rw [← List.take_succ_cons, List.take_take, Nat.min_eq_left (Nat.le_succ n)]
      · simp [ih n]

theorem insertBy_pairwise (x : α) (l : List α) (h : l.Pairwise (fun a b => f b ≤ f a)) :
    (insertBy (fun a b => f b < f a) x l).Pairwise (fun a b => f b ≤ f a) := by
  induction l with
  | nil => simp [insertBy]
  | cons y ys ih =>
    obtain ⟨hy, hys⟩ := List.pairwise_cons.mp h
    unfold insertBy
    split
    · rename_i hlt
      have hlt : f y < f x := by simpa using hlt
      refine List.pairwise_cons.mpr ⟨fun z hz => ?_, h⟩
      rcases List.mem_cons.mp hz with rfl | hz
      · exact hlt.le
      · exact (hy z hz).trans hlt.le
    · rename_i hge
      have hge : f x ≤ f y := by simpa using hge
      refine List.pairwise_cons.mpr ⟨fun z hz => ?_, ih hys⟩
      rcases List.mem_cons.mp ((insertBy_perm _ x ys).mem_iff.mp hz) with rfl | hz
      · exact hge
      · exact hy z hz

theorem sortBy_pairwise (l : List α) : (sortBy (fun a b => f b < f a) l).Pairwise (fun a b => f b ≤ f a) := by
  induction l using List.reverseRecOn with
  | nil => exact .nil
  | append_singleton xs x ih =>
    rw [sortBy_concat]
    exact insertBy_pairwise f x _ ih

/-- In a descending list, an element goes after those of its own key. -/
theorem insertBy_filter (x : α) (l : List α) (h : l.Pairwise (fun a b => f b ≤ f a)) (n : Nat) :
    (insertBy (fun a b => f b < f a) x l).filter (fun k => f k = n) = (l ++ [x]).filter (fun k => f k = n) := by
  induction l with
  | nil => simp [insertBy]
  | cons y ys ih =>
    obtain ⟨hy, hys⟩ := List.pairwise_cons.mp h
    unfold insertBy
    split
    · rename_i hlt
      have hlt : f y < f x := by simpa using hlt
      by_cases hx : f x = n
      · have hnone : (y :: ys).filter (fun k => f k = n) = [] := by
          refine List.filter_eq_nil_iff.mpr (fun z hz => ?_)
          have : f z ≤ f y := by
            rcases List.mem_cons.mp hz with rfl | hz
            · exact le_rfl
            · exact hy z hz
          simp; omega
        rw [List.filter_append, hnone, List.filter_cons, hnone]
        simp [hx]
      · rw [List.filter_append]
        simp [hx]
    · rw [List.cons_append, List.filter_cons, List.filter_cons, ih hys]

/-- Equals keep their order. -/
theorem sortBy_filter (l : List α) (n : Nat) : (sortBy (fun a b => f b < f a) l).filter (fun k => f k = n) = l.filter (fun k => f k = n) := by
  induction l using List.reverseRecOn with
  | nil => rfl
  | append_singleton xs x ih => rw [sortBy_concat, insertBy_filter f x _ (sortBy_pairwise f xs), List.filter_append, List.filter_append, ih]

end

/-- The list kept after a scan is the stable sort of what was compared, cut at 16. -/
theorem foldl_keepBest (ks : List Kept) : ks.foldl keepBest [] = (sortBy (fun a b => b.agree < a.agree) ks).take 16 := by
  induction ks using List.reverseRecOn with
  | nil => rfl
  | append_singleton xs x ih =>
    rw [List.foldl_append, ih, sortBy_concat]
    exact take_insertBy_take _ x _ 16

/-! ## Tables updated key by key. -/

section
variable {α β : Type} (g : α → β → α) (v : α)

theorem Tab.at_foldl_put_ne (qs : Tab β) (t : Tab α) (k : Nat) (h : k ∉ qs.map Prod.fst) :
    Tab.at (qs.foldl (fun t q => Tab.put t q.1 (g (Tab.at t q.1 v) q.2)) t) k v = Tab.at t k v := by
  induction qs generalizing t with
  | nil => rfl
  | cons q qs ih =>
    simp only [List.map_cons, List.mem_cons, not_or] at h
    simp [ih _ h.2, h.1]

/-- With distinct keys each value is updated once, from what it was. -/
theorem Tab.at_foldl_put (qs : Tab β) (t : Tab α) (h : (qs.map Prod.fst).Nodup) (q : Nat × β) (hq : q ∈ qs) :
    Tab.at (qs.foldl (fun t q => Tab.put t q.1 (g (Tab.at t q.1 v) q.2)) t) q.1 v = g (Tab.at t q.1 v) q.2 := by
  induction qs generalizing t with
  | nil => cases hq
  | cons e qs ih =>
    rw [List.map_cons, List.nodup_cons] at h
    rw [List.foldl_cons]
    rcases List.mem_cons.mp hq with rfl | hq
    · simp [Tab.at_foldl_put_ne g v qs _ q.1 h.1]
    · have hne : q.1 ≠ e.1 := fun k => h.1 (k ▸ List.mem_map_of_mem hq)
      simp [ih _ h.2 hq, hne]

end

/-- A lookup in a table of which some keys are kept. -/
theorem Tab.find_filter {α : Type} (t : Tab α) (p : Nat → Bool) (k : Nat) : Tab.find (t.filter (fun c => p c.1)) k = if p k then Tab.find t k else none := by
  induction t with
  | nil => simp
  | cons e t ih =>
    obtain ⟨j, v⟩ := e
    by_cases hj : j = k
    · subst hj
      cases hp : p j <;> simp [hp, Tab.find, ih]
    · cases hp : p j <;> simp [hp, Tab.find, hj, ih]

/-- A slot's list with a compared sketch (01 R43). -/
def keepCompared (w chain slot : Nat) (x : BitVec 512) (l : List Kept) (q : QSlot) : List Kept := keepBest l ⟨agreement w x q.bits, slot, chain⟩

theorem ScanRun.compareOne_lists (r : ScanRun) (qs : Tab QSlot) (w chain slot : Nat) (x : BitVec 512) :
    (r.compareOne qs w chain slot x).lists = qs.foldl (fun t q => Tab.put t q.1 (keepCompared w chain slot x (Tab.at t q.1 []) q.2)) r.lists := rfl

/-- Settles O6: a comparison updates each selected slot's list once, and folding `keepBest` is the stable sort by agreement cut at 16. -/
theorem comparatorKeepsBest : Obligations.ComparatorKeepsBest := by
  refine ⟨fun r qs w chain slot x hn => ?_, fun ks => ?_⟩
  · rw [ScanRun.compareOne_lists]
    exact ⟨Tab.at_foldl_put _ [] qs r.lists hn, Tab.at_foldl_put_ne _ [] qs r.lists⟩
  · rw [foldl_keepBest]
    refine ⟨rfl, ?_, ?_, sortBy_perm _ ks, sortBy_filter Kept.agree ks⟩
    · exact (sortBy_pairwise Kept.agree ks).sublist (List.take_sublist 16 _)
    · rw [List.length_take, (sortBy_perm _ ks).length_eq]

/-! ## Query slots, branch cache, scans. -/

theorem exec_loadQuery {s : State} {d : DieNo} (slot : Fin 8) (wide : Bool) (data : List Byte) (hon : s.diesOn = true)
    (ht : (s.die d).takes .other = true) :
    exec (.loadQuery d slot wide data) s = .next ((s.setDie d { s.die d with
      queries := Tab.put (s.die d).queries slot.val ⟨wide, BitVec.ofNat 512 (leNat (data.take (sketchBits wide / 8)))⟩,
      code := .ok, answer := .ok }).spend 16) := by
  change execLoadQuery d slot wide data s = _
  rw [execLoadQuery, State.frameIf_next _ hon ht]
  rfl

theorem sketchBits_bytes (wide : Bool) : sketchBits wide / 8 = if wide then 64 else 32 := by cases wide <;> rfl

theorem exec_loadChain {s : State} {d : DieNo} {entries : List W32} (hon : s.diesOn = true) (ht : (s.die d).takes .other = true)
    (he : ∀ e ∈ entries, (s.die d).chainEntryOk s.freeCtr e = true) :
    exec (.loadChain d entries) s = .next ((s.setDie d { s.die d with
      chain := chainEnd (entries.take 32), walk := none, preReady := (s.die d).preReady && (s.die d).walk.isNone,
      code := .ok, answer := .ok }).spend 16) := by
  change execLoadChain d entries s = _
  rw [execLoadChain, State.frameIf_next _ hon ht, if_pos (List.all_eq_true.mpr he)]
  rfl

/-- SCAN with every selected slot loaded, all of one width, and a branch cache that is not empty: the first step starts to be sensed (01 R40, R41). -/
theorem exec_scan {s : State} {d : DieNo} {mask : BitVec 8} {wide : Bool} (allow : List (List Byte)) (hon : s.diesOn = true)
    (ht : (s.die d).takes .other = true) (hm : mask ≠ 0#8) (hq : ∀ i < 8, mask.getLsbD i = true → Tab.has (s.die d).queries i = true)
    (hw : ∀ q ∈ (s.die d).selected mask, q.2.wide = wide) (hc : (s.die d).chain ≠ []) :
    exec (.scan d mask allow) s = .next ((s.setDie d { s.die d with
      sense := some ⟨.scan, chainRows (s.die d).chain (chainStep (s.die d).chain 0), .slc, false, s.now + senseTime .slc⟩,
      scanRun := some ⟨mask, allow, (chainStep (s.die d).chain 0).length, [], false, false, 0, 0, 0, []⟩, result := [],
      pre := (s.die d).pre.filter (fun e => ((s.die d).chain.map (fun e => (chainRow e).plane)).all (·.val ≠ e.1)),
      preReady := (s.die d).preReady && (s.die d).curRows.any (fun r => r.plane ∉ (s.die d).chain.map (fun e => (chainRow e).plane)),
      answer := .ok }).spend 16) := by
  have hwide : ∀ q ∈ (s.die d).selected mask, q.2.wide = wideOf ((s.die d).selected mask) := by
    cases hs : (s.die d).selected mask with
    | nil => simp
    | cons q qs =>
      rw [hs] at hw
      exact fun e he => (hw e he).trans (hw q (by simp)).symm
  have hok : ¬ (mask = 0#8 ∨ ((List.range 8).filter (fun i => mask.getLsbD i)).any (fun i => !(Tab.has (s.die d).queries i)) = true
      ∨ ((s.die d).selected mask).any (fun q => q.2.wide ≠ wideOf ((s.die d).selected mask)) = true) := by
    simp only [List.any_eq_true, not_or, not_exists, not_and]
    exact ⟨hm, by simpa using hq, by simpa using hwide⟩
  obtain ⟨i, is, hi⟩ := List.exists_cons_of_ne_nil (chainStep_ne_nil hc)
  change execScan d mask allow s = _
  rw [execScan, State.frameIf_next _ hon ht]
  simp [if_neg hok, hc, Die.scanOn, Die.startSense, hi]

/-- The comparator's last step: nothing more is being sensed, so the result block stands (01 R44, R45). -/
theorem Die.compare_last {x : Die} {r : ScanRun} (ctr : Nat) (hr : x.scanRun = some r) (hready : r.ready = true) (hs : x.sense = none) (y : ScanRun)
    (hy : y = r.step.foldl (fun y i => y.page (x.selected r.mask) (wideOf (x.selected r.mask))
      (x.modeOf ctr (chainRow (x.chain.getD i 0)) ≠ .slc) i (Tab.at x.regs (chainRow (x.chain.getD i 0)).plane.val [])) r) :
    x.compare ctr = { x with scanRun := none, result := y.block, code := (if y.mismatch then .modeMismatch else .ok),
                             answer := (if y.mismatch then .modeMismatch else .ok) } := by
  subst hy
  simp only [Die.compare, hr, hready, hs]
  rfl

theorem exec_resultOut {s : State} {d : DieNo} (hon : s.diesOn = true) (ht : (s.die d).takes .other = true) (hr : (s.die d).result ≠ []) :
    exec (.resultOut d) s = .next (((s.setDie d { s.die d with out := (s.die d).result, answer := .ok }).spend 16).spend 544) := by
  change execResultOut d s = _
  rw [execResultOut, State.dataFrame_next _ hon ht, if_neg hr]

/-- Settles O3: each command's step is computed once; a plane the chain does not name keeps its buffer through the filter that SCAN makes. -/
theorem dieComparator : Obligations.DieComparator := by
  refine ⟨?loadQuery, ?loadChain, ?scan, ?compare, ?resultOut⟩
  case loadQuery =>
    intro s d slot wide data hon ht
    obtain ⟨hdie, hother, hframe⟩ := setDie_spend_ok s d _ 16
    refine ⟨_, exec_loadQuery slot wide data hon ht, ?_, ?_, hother, hframe⟩ <;> rw [hdie]
    rw [sketchBits_bytes]
  case loadChain =>
    intro s d entries hon ht he
    obtain ⟨hdie, hother, hframe⟩ := setDie_spend_ok s d _ 16
    refine ⟨_, exec_loadChain hon ht he, ?_, fun hw => ?_, hother, hframe⟩ <;> rw [hdie]
    simp [hw]
  case scan =>
    intro s d mask allow wide hon ht hm hq hw hc
    obtain ⟨hdie, hother, hframe⟩ := setDie_spend_ok s d _ 16
    refine ⟨_, exec_scan allow hon ht hm hq hw hc, ?_, ?_, ?_, ?_, ?_, ?_, ?_, fun p hp => ?_, hother, hframe⟩ <;> rw [hdie]
    refine (Tab.find_filter _ (fun k => ((s.die d).chain.map (fun e => (chainRow e).plane)).all (·.val ≠ k)) p.val).trans (if_pos ?_)
    simpa using fun e he h => hp e he (Fin.ext h)
  case compare =>
    intro s d r x hr hready hs hx
    refine ⟨_, rfl, ?_, otherDies_setDie s d _, frame_setDie s d _⟩
    rw [State.die_setDie_self, Die.compare_last _ hr hready hs x hx]
  case resultOut =>
    intro s d hon ht hr
    obtain ⟨hdie, hother, hframe⟩ := setDie_spend_ok s d { s.die d with out := (s.die d).result, answer := .ok } 16
    exact ⟨_, exec_resultOut hon ht hr, hdie, hother, hframe.trans ((frame_spend _ 544).mono (by simp))⟩

end Sys2Proof.Machine

/-! # Transfers, features, identity, status and RESET (01 R12 to R18, R36) -/

namespace Sys2Proof.Machine

/-! ## Features (01 R17). -/

@[simp] theorem fit_length (n : Nat) (bs : List Byte) : (fit n bs).length = n := by simp [fit, zeros]; omega

/-- A feature's value has 16 bytes. -/
theorem Die.feature_length {x : Die} {a : Nat} {v : List Byte} (h : x.feature a = some v) : v.length = 16 := by
  unfold Die.feature offsetValue at h
  split_ifs at h <;> cases h <;> exact fit_length 16 _

/-- Of the features only the temperature's depends on what the die's sensor gives. -/
theorem Die.feature_temp {x : Die} (w : W16) {a : Nat} (h : a ≠ 3) : ({ x with temp := w }).feature a = x.feature a := by
  simp [Die.feature, h]

/-- The addresses of one plane's offsets in QLC. -/
theorem Die.setFeature_plane (x : Die) (p : PlaneNo) (data : List Byte) :
    x.setFeature (BitVec.ofNat 8 (0x10 + p.val)).toNat data = { x with qlcOffs := Tab.put x.qlcOffs p.val (data.take 15), code := .ok, answer := .ok } := by
  have ha : (BitVec.ofNat 8 (0x10 + p.val)).toNat = 0x10 + p.val := by simp; omega
  have h1 : 16 + p.val ≠ 1 := by omega
  have h2 : 16 + p.val ≠ 2 := by omega
  have h3 : 16 + p.val ≤ 0x13 := by omega
  simp [ha, Die.setFeature, h1, h2, h3, Die.say]

/-! ## RESET (01 R34, R36). -/

@[simp] theorem Die.spoil_cells (x : Die) (o : DieOp) : (x.spoil o).cells = x.cells := by
  unfold Die.spoil; split <;> rfl

@[simp] theorem Die.cleared_cells (x : Die) : x.cleared.cells = x.cells := by
  unfold Die.cleared; cases x.op <;> simp

/-! ## What each command leaves in the die. -/

theorem exec_dataOut {s : State} {d : DieNo} {p : PlaneNo} {col len : Nat} {m : Mem} (hon : s.diesOn = true)
    (ht : (s.die d).takes .dataOut = true) (hm : Tab.find (s.die d).regs p.val = some m) (hl : col + len ≤ 18432) :
    exec (.dataOut d p col len) s = .next (((s.setDie d { s.die d with out := Mem.read 0xFF m col len, answer := .ok }).spend 16).spend len) := by
  have hmin : min len (pageBytes - col) = len := Nat.min_eq_left (by unfold pageBytes; omega)
  change execDataOut d p col len s = _
  simp [execDataOut, State.dataFrame_next _ hon ht, hm, hmin, State.freeBytes]

theorem exec_readStatus {s : State} (d : DieNo) (hon : s.diesOn = true) :
    exec (.readStatus d) s = .next ((s.setDie d { s.die d with out := leBytes 2 (s.die d).status.toNat }).spend 16) := by
  change execReadStatus d s = _
  rw [execReadStatus, State.frame_next d _ hon]

theorem exec_dieGetFeature {s : State} {d : DieNo} (a : Byte) (hon : s.diesOn = true) (ht : (s.die d).takes .getFeature = true) :
    exec (.dieGetFeature d a) s = .next ((s.setDie d { s.die d with
      temp := s.freeBits 16, out := (({ s.die d with temp := s.freeBits 16 }).feature a.toNat).getD (s.freeBytes 16), answer := .ok }).spend 16) := by
  change execDieGetFeature d a s = _
  rw [execDieGetFeature, State.frame_next d _ hon, if_pos ht]

theorem exec_dieSetFeature {s : State} {d : DieNo} (a : Byte) (data : List Byte) (hon : s.diesOn = true) (ht : (s.die d).takes .other = true) :
    exec (.dieSetFeature d a data) s = .next (((s.setDie d ((s.die d).setFeature a.toNat data)).spend 16).modMedia
      (fun m => { m with offsetsOn := m.offsetsOn.filter (fun y => y.1 / 4 ≠ d.val) })) := by
  change execDieSetFeature d a data s = _
  rw [execDieSetFeature, State.frameIf_next _ hon ht]

theorem exec_readId {s : State} {d : DieNo} (hon : s.diesOn = true) (ht : (s.die d).takes .other = true) :
    exec (.readId d) s = .next ((s.setDie d { s.die d with out := [0x53, 0x58, 0x41, 0x04, 0x40, 0x08, 0x0E, 0x01], answer := .ok }).spend 16) := by
  change execReadId d s = _
  rw [execReadId, State.dataFrame_next _ hon ht]

theorem exec_reset {s : State} (d : DieNo) (hon : s.diesOn = true) :
    exec (.reset d) s = .next (((s.setDie d { (s.die d).cleared with
      resetDue := some (s.now + (if (s.die d).op.isSome then 500 else 10) * usUnits) }).spend 16).modMedia
        (fun m => { m with offsetsOn := m.offsetsOn.filter (fun y => y.1 / 4 ≠ d.val) })) := by
  change execReset d s = _
  rw [execReset, State.frame_next d _ hon]
  cases (s.die d).op <;> rfl

theorem exec_resetComplete {s : State} {d : DieNo} {due : Nat} (h : (s.die d).resetDue = some due) :
    exec (.resetComplete d) s = .next ((s.at_ due).setDie d { s.die d with resetDue := none }) := by
  change execResetComplete d s = _
  simp [execResetComplete, h]

theorem exec_dieReservedOpcode {s : State} (d : DieNo) {op : Byte} (hon : s.diesOn = true) (h : op.toNat ∉ dieOpcodes.map Prod.fst) :
    exec (.dieReservedOpcode d op) s = .next ((s.setDie d ((s.die d).say .opcodeInvalid)).spend 16) := by
  have hn : ¬ dieOpcodes.any (fun e => e.1 = op.toNat) = true := by
    simpa only [List.any_eq_true, List.mem_map, decide_eq_true_eq] using h
  change execDieReservedOpcode d op s = _
  rw [execDieReservedOpcode, if_neg hn, State.frame_next d _ hon]

/-- A die set, free values used and the record of loaded offsets changed. -/
theorem frame_setDie_offsets (s : State) (d : DieNo) (x : Die) (f : Media → Media) :
    Frame [.dies, .freeCtr, .media] s (((s.setDie d x).spend 16).modMedia f) :=
  ((frame_setDie_spend s d x 16).mono (by simp)).trans ((frame_modMedia _ f).mono (by simp))

/-- Settles O4: each command's step is computed once; what GET_FEATURE sends has 16 bytes, and RESET leaves the cells. -/
theorem dieTransfers : Obligations.DieTransfers := by
  refine ⟨?dataOut, ?readStatus, ?getFeature, ?setFeature, ?readId, ?reset, ?resetComplete, ?reservedOpcode⟩
  case dataOut =>
    intro s d p col len m hon ht hm hl
    obtain ⟨hdie, hother, hframe⟩ := setDie_spend_ok s d { s.die d with out := Mem.read 0xFF m col len, answer := .ok } 16
    exact ⟨_, exec_dataOut hon ht hm hl, hdie, hother, hframe.trans ((frame_spend _ len).mono (by simp))⟩
  case readStatus =>
    intro s d hon
    obtain ⟨hdie, hother, hframe⟩ := setDie_spend_ok s d { s.die d with out := leBytes 2 (s.die d).status.toNat } 16
    exact ⟨_, exec_readStatus d hon, hdie, by rw [hdie]; rfl, hother, hframe⟩
  case getFeature =>
    intro s d a hon ht
    obtain ⟨hdie, hother, hframe⟩ := setDie_spend_ok s d { s.die d with
      temp := s.freeBits 16, out := (({ s.die d with temp := s.freeBits 16 }).feature a.toNat).getD (s.freeBytes 16), answer := .ok } 16
    refine ⟨_, exec_dieGetFeature a hon ht, ?_, ?_, fun v hv => ?_, fun ha => ?_, hother, hframe⟩ <;> rw [hdie] at *
    · cases hv : ({ s.die d with temp := s.freeBits 16 } : Die).feature a.toNat with
      | none => simp [State.freeBytes]
      | some v => exact Die.feature_length hv
    · exact congrArg (Option.getD · (s.freeBytes 16)) hv
    · exact Die.feature_temp _ (fun h => ha (BitVec.eq_of_toNat_eq h))
  case setFeature =>
    intro s d p data hon ht
    refine ⟨_, exec_dieSetFeature _ data hon ht, ?_, fun q hq => ?_, ?_, rfl, otherDies_setDie s d _, frame_setDie_offsets s d _ _⟩
    all_goals rw [State.die_modMedia, State.die_spend, State.die_setDie_self, Die.setFeature_plane]
    · exact Tab.find_put_self _ _ _
    · exact Tab.find_put_ne _ _ (fun h => hq (Fin.ext h))
  case readId =>
    intro s d hon ht
    exact ⟨_, exec_readId hon ht, setDie_spend_ok s d _ 16⟩
  case reset =>
    intro s d hon
    refine ⟨_, exec_reset d hon, fun _ => ?_, ?_⟩
    all_goals rw [State.die_modMedia, State.die_spend, State.die_setDie_self]
    exact ⟨rfl, rfl, rfl, rfl, rfl, rfl, rfl, rfl, rfl, Die.cleared_cells _, rfl, otherDies_setDie s d _, frame_setDie_offsets s d _ _⟩
  case resetComplete =>
    intro s d due h
    exact ⟨_, exec_resetComplete h, State.die_setDie_self _ d _, rfl, otherDies_setDie (s.at_ due) d _,
      ((frame_atTime s due).mono (by simp)).trans ((frame_setDie _ d _).mono (by simp))⟩
  case reservedOpcode =>
    intro s d op hon _ hop
    exact ⟨_, exec_dieReservedOpcode d hon hop, setDie_spend_ok s d _ 16⟩

end Sys2Proof.Machine

/-! # The map and the journal (02 R61, R66 to R70) -/

namespace Sys2Proof.Machine

/-! ## A committed MAP_SET (02 R67, R70). -/

theorem Media.mapSet_kept {m : Media} {l : Nat} {r : Reloc} (e : MapEntry) (h : Tab.find m.map l ≠ r.seen) : m.mapSet l e r = m.abandonReloc l := if_neg h

theorem Media.abandonReloc_eq {m : Media} {l : Nat} {r : Reloc} (h : Tab.find m.relocs l = some r) :
    m.abandonReloc l = { m with relocs := Tab.del m.relocs l, toErase := Tab.put m.toErase r.target [] } := by
  rw [Media.abandonReloc, h]

/-- What `mapSet` changes where the entry is the one seen at TARGET_OPEN. -/
theorem Media.mapSet_taken {m : Media} {l : Nat} {r : Reloc} (e : MapEntry) (h : Tab.find m.map l = r.seen) :
    (m.mapSet l e r).map = Tab.put m.map l e ∧ (m.mapSet l e r).stripes = Tab.put m.stripes r.target r.copies ∧
    (m.mapSet l e r).logs = m.logs.filter (fun b => b.1 ∉ r.logs) ∧
    (m.mapSet l e r).veneer = (if r.source.isNone then dropFolded m.veneer r.owner r.ostripe r.upTo else m.veneer) ∧
    (m.mapSet l e r).counted = m.counted.filter (fun c => !(c.owner = r.owner && c.ostripe = r.ostripe)) := by
  rw [Media.mapSet, if_pos h]
  exact ⟨rfl, rfl, rfl, rfl, rfl⟩

/-- A copy that stays in the veneer is none of the copies folded (02 R61). -/
theorem mem_dropFolded {v : List SecCopy} {o : Owner} {os upTo : Nat} {c : SecCopy} :
    c ∈ dropFolded v o os upTo ↔ c ∈ v ∧ ¬ (c.owner = o ∧ c.sector / stripeSectors o = os ∧ c.seq ≤ upTo) := by
  simp only [dropFolded, List.mem_filter, Bool.not_eq_true', Bool.and_eq_false_iff, decide_eq_false_iff_not]
  tauto

/-! ## Records that leave the map alone (02 R67). -/

theorem Media.keepCheckpoint_map (m : Media) (n : Nat) : (m.keepCheckpoint n).map = m.map := by
  unfold Media.keepCheckpoint
  split
  · rfl
  · split <;> rfl

theorem Media.applyRecord_map (m : Media) {v : JRecord} (hset : v.type ≠ .mapSet) (hclear : v.type ≠ .mapClear) : (m.applyRecord v).map = m.map := by
  obtain ⟨seq, type, l, w, a⟩ := v
  cases type with
  | mapSet => exact absurd rfl hset
  | mapClear => exact absurd rfl hclear
  | checkpointed => exact Media.keepCheckpoint_map _ _
  | blockRetire => simp only [Media.applyRecord]; split <;> rfl
  | logAttach | logDetach | targetOpen | eraseStart | eraseDone | substitute | veneerFolded | spareState => rfl

/-- Settles O37: `mapSet` has one guard, and what it changes is read off once for each of its branches. -/
theorem mapSetGuarded : Obligations.MapSetGuarded := by
  refine ⟨?taken, ?kept, fun m v => m.applyRecord_map⟩
  case taken =>
    intro m l e r h
    obtain ⟨hmap, hstripes, hlogs, hveneer, hcounted⟩ := Media.mapSet_taken e h
    rw [hmap, hstripes, hlogs, hveneer, hcounted]
    refine ⟨Tab.find_put_self _ _ _, fun k hk => Tab.find_put_ne _ _ hk, Tab.find_put_self _ _ _, fun k hk => ?logs, fun hs c hc => ?veneer, fun c hc => ?counted⟩
    case logs => exact (Tab.find_filter m.logs (fun k => decide (k ∉ r.logs)) k).trans (if_neg (by simpa using hk))
    case veneer =>
      rw [hs] at hc
      exact (mem_dropFolded.mp hc).2
    case counted => simpa [imp_iff_not_or] using (List.mem_filter.mp hc).2
  case kept =>
    intro m l e r hr h
    rw [Media.mapSet_kept e h, Media.abandonReloc_eq hr]
    exact ⟨rfl, Tab.find_put_self _ _ _, rfl, Tab.find_del_self _ _⟩

end Sys2Proof.Machine

namespace Sys2Proof.Machine

/-! ## Records appended to the pending ones (02 R66, R67). -/

/-- Records follow the pending ones. Beside them no more than the relocations under way and the veneer's ring has changed. -/
def Media.Records (m m' : Media) (rs : List JRecord) : Prop :=
  m' = { m with relocs := m'.relocs, ring := m'.ring, jPend := m.jPend ++ rs, jNext := m.jNext + rs.length, jPendSince := m'.jPendSince }

section
variable {m m' m'' : Media} {rs qs : List JRecord}

theorem Media.Records.refl (m : Media) : Media.Records m m [] := by simp [Media.Records]

theorem Media.Records.trans (h : Media.Records m m' rs) (k : Media.Records m' m'' qs) : Media.Records m m'' (rs ++ qs) := by
  have hp := congrArg Media.jPend h
  have hn := congrArg Media.jNext h
  unfold Media.Records at k ⊢
  simp only at hp hn
  rw [k, hp, hn, h]
  simp [Nat.add_assoc]

theorem Media.Records.jPend (h : Media.Records m m' rs) : m'.jPend = m.jPend ++ rs := (congrArg Media.jPend h :)
theorem Media.Records.jNext (h : Media.Records m m' rs) : m'.jNext = m.jNext + rs.length := (congrArg Media.jNext h :)
theorem Media.Records.map (h : Media.Records m m' rs) : m'.map = m.map := (congrArg Media.map h :)
theorem Media.Records.veneer (h : Media.Records m m' rs) : m'.veneer = m.veneer := (congrArg Media.veneer h :)
theorem Media.Records.counted (h : Media.Records m m' rs) : m'.counted = m.counted := (congrArg Media.counted h :)

end

theorem Media.records_journal (m : Media) (now : Nat) (t : JType) (l w a : Nat) : Media.Records m (m.journal now t l w a) [⟨m.jNext, t, l, w, a⟩] := rfl

/-- A fold whose every step appends one record appends one for each element. -/
theorem Media.records_foldl {α : Type} (P : α → JRecord → Prop) (f : Media → α → Media)
    (h : ∀ m a, ∃ r, Media.Records m (f m a) [r] ∧ P a r) (l : List α) (m : Media) :
    ∃ rs, Media.Records m (l.foldl f m) rs ∧ rs.length = l.length ∧ (∀ a ∈ l, ∃ r ∈ rs, P a r) ∧ (∀ r ∈ rs, ∃ a ∈ l, P a r) := by
  induction l generalizing m with
  | nil => exact ⟨[], Media.Records.refl m, rfl, by simp, by simp⟩
  | cons a l ih =>
    obtain ⟨r, hr, hp⟩ := h m a
    obtain ⟨rs, hrs, hlen, hof, hby⟩ := ih (f m a)
    refine ⟨r :: rs, hr.trans hrs, by simp [hlen], List.forall_mem_cons.mpr ⟨⟨r, by simp, hp⟩, fun b hb => ?_⟩,
      List.forall_mem_cons.mpr ⟨⟨a, by simp, hp⟩, fun q hq => ?_⟩⟩
    · obtain ⟨q, hq, hbq⟩ := hof b hb
      exact ⟨q, List.mem_cons_of_mem r hq, hbq⟩
    · obtain ⟨b, hb, hbq⟩ := hby q hq
      exact ⟨b, List.mem_cons_of_mem a hb, hbq⟩

/-- A fold that keeps a property of two states of media management keeps it. -/
theorem Media.foldl_keeps {α β : Type} (g : Media → β) (f : Media → α → Media) (h : ∀ m a, g (f m a) = g m) (l : List α) (m : Media) : g (l.foldl f m) = g m := by
  induction l generalizing m with
  | nil => rfl
  | cons a l ih => exact (ih (f m a)).trans (h m a)

/-- VENEER_FOLDED recorded for one stripe of the veneer. -/
def Media.recordFolded (now : Nat) (m : Media) (v : VStripe) : Media :=
  { (m.journal now .veneerFolded 0xFFFFFFFF 0 (v.p + 2 ^ 24)) with ring := m.ring.map (fun x => if x.p = v.p then { x with folded := true } else x) }

theorem Media.veneerFolded_eq (m : Media) (now : Nat) :
    m.veneerFolded now = (m.ring.filter (fun v => !v.folded && m.foldedOut v.p)).foldl (Media.recordFolded now) m := rfl

/-- VENEER_FOLDED is recorded for some stripes, and nothing but the journal and the ring changes (02 R61). -/
theorem Media.records_veneerFolded (m : Media) (now : Nat) :
    ∃ rs, Media.Records m (m.veneerFolded now) rs ∧ (∀ r ∈ rs, r.type = .veneerFolded) := by
  rw [Media.veneerFolded_eq]
  obtain ⟨rs, hrs, _, _, ht⟩ := Media.records_foldl (fun _ r => r.type = .veneerFolded) (Media.recordFolded now) (fun _ _ => ⟨_, rfl, rfl⟩)
    (m.ring.filter (fun v => !v.folded && m.foldedOut v.p)) m
  exact ⟨rs, hrs, fun r hr => (ht r hr).elim fun _ h => h.2⟩

@[simp] theorem Media.veneerFolded_relocs (m : Media) (now : Nat) : (m.veneerFolded now).relocs = m.relocs := by
  rw [Media.veneerFolded_eq]
  exact Media.foldl_keeps Media.relocs (Media.recordFolded now) (fun _ _ => rfl) _ m

@[simp] theorem Media.veneerFolded_ring_length (m : Media) (now : Nat) : (m.veneerFolded now).ring.length = m.ring.length := by
  rw [Media.veneerFolded_eq]
  exact Media.foldl_keeps (fun m => m.ring.length) (Media.recordFolded now) (fun _ _ => List.length_map _) _ m

end Sys2Proof.Machine

namespace Sys2Proof.Machine

/-! ## Journal pages and checkpoints (02 R66, R68, R69). -/

/-- The pending records, at most 512, go to a page in two copies (02 R66). -/
def Media.fillPage (m : Media) (now : Nat) : Media :=
  { m with jPages := m.jPages ++ [⟨m.jPend.take 512, none, none, false, false⟩], jPend := m.jPend.drop 512, jPendSince := now }

theorem exec_journalProgram {s : State} (h : s.media.jPend ≠ []) (hd : s.media.checkpointDue s.now = false) :
    exec .journalProgram s = .next (s.modMedia (fun m => m.fillPage s.now)) := by
  change execJournalProgram s = _
  rw [execJournalProgram, if_neg h]
  exact congrArg Host.Outcome.next (if_neg (Bool.eq_false_iff.mp hd))

theorem exec_journalProgram_due {s : State} (h : s.media.jPend ≠ []) (hd : s.media.checkpointDue s.now = true) :
    exec .journalProgram s = .next (s.modMedia (fun m => (m.fillPage s.now).beginCheckpoint s.now)) := by
  change execJournalProgram s = _
  rw [execJournalProgram, if_neg h]
  exact congrArg Host.Outcome.next (if_pos hd)

theorem exec_checkpoint_busy {s : State} (h : s.media.cpBuild.isSome) : exec .checkpoint s = .next s := by
  change execCheckpoint s = _
  rw [execCheckpoint, if_pos h]

theorem exec_checkpoint {s : State} (h : s.media.cpBuild = none) : exec .checkpoint s = .next (s.modMedia (fun m => m.beginCheckpoint s.now)) := by
  change execCheckpoint s = _
  simp [execCheckpoint, h]

/-- More records leave a checkpoint due (02 R69). -/
theorem Media.Records.checkpointDue {m m' : Media} {rs : List JRecord} (h : Media.Records m m' rs) {now : Nat} (hd : m.checkpointDue now = true) :
    m'.checkpointDue now = true := by
  have hb : m'.cpBuild = m.cpBuild := (congrArg Media.cpBuild h :)
  have ha : m'.cpAt = m.cpAt := (congrArg Media.cpAt h :)
  have hc : m'.cps = m.cps := (congrArg Media.cps h :)
  simp only [Media.checkpointDue, hb, ha, hc, h.jNext, Bool.and_eq_true, Bool.or_eq_true, decide_eq_true_eq] at hd ⊢
  exact ⟨hd.1, hd.2.imp_right fun k => by omega⟩

/-- A page with a copy still to come holds back itself and every page after it (02 R68). -/
theorem commitPages_waits {p : JPage} (ps : List JPage) (m : Media) (h : (p.ok0 && p.ok1) = false) : commitPages (p :: ps) m = (p :: ps, m) := by
  simp [commitPages, h]

/-- One copy of the first page comes, while the other has not: nothing commits (02 R68). -/
theorem Media.journalOk_waits {m : Media} {c : Bool} {p : JPage} {ps : List JPage} (n : Nat) (hp : m.jPages = p :: ps)
    (h : (if c then p.ok0 else p.ok1) = false) : m.journalOk c n = { m with jPages := (m.journalOk c n).jPages } := by
  simp only [Media.journalOk, hp, List.map_cons]
  rw [commitPages_waits]
  cases c <;> simp only [Bool.false_eq_true, if_false, if_true] at h ⊢ <;> split <;> simp [h]

/-- Of the checkpoints kept no more than two (02 R69). -/
theorem Media.keepCheckpoint_cps_length {m : Media} (n : Nat) (h : m.cps.length ≤ 2) : (m.keepCheckpoint n).cps.length ≤ 2 := by
  unfold Media.keepCheckpoint
  split
  · exact h
  · split
    · exact h
    · simp only [List.length_drop, List.length_append, List.length_cons, List.length_nil]
      omega

/-! ## The veneer's target (02 R57). -/

/-- Media management with the veneer's target set and the stripes that hold nothing needed recorded. -/
def State.targetSet (s : State) : Media :=
  { s.media with veneerTarget := s.veneerWant, veneerStripes := max s.veneerWant s.media.ring.length }.veneerFolded s.now

theorem State.targetSet_records (s : State) :
    ∃ rs, Media.Records { s.media with veneerTarget := s.veneerWant, veneerStripes := max s.veneerWant s.media.ring.length } s.targetSet rs ∧
      (∀ r ∈ rs, r.type = .veneerFolded) := Media.records_veneerFolded _ _

/-- Media management once a checkpoint that has fallen due has begun (02 R69). -/
def Media.checkpointIfDue (m : Media) (now : Nat) : Media := if m.checkpointDue now then m.beginCheckpoint now else m

/-- A branch that may change media management is one change of it. -/
theorem State.ite_modMedia (c : Prop) [Decidable c] (s : State) (f : Media → Media) :
    (if c then s.modMedia f else s) = s.modMedia (fun m => if c then f m else m) := by split <;> rfl

/-- A change of the veneer's stripes by 256 or more is recorded as an event (16 R533). -/
def State.veneerRecord (u : State) (n : Nat) : State :=
  if u.media.veneerRecorded + 256 ≤ n ∨ n + 256 ≤ u.media.veneerRecorded then (u.modMedia (fun m => { m with veneerRecorded := n })).policyActed 1 u.media.veneerRecorded n else u

theorem exec_veneerTarget_eq (s : State) :
    exec .veneerTarget s = .next ((s.modMedia fun _ => s.targetSet.checkpointIfDue s.now).veneerRecord (max s.veneerWant s.media.ring.length)) := by
  change execVeneerTarget s = _
  simp only [execVeneerTarget, State.ite_modMedia]
  exact (apply_ite Host.Outcome.next _ _ _).symm

theorem exec_veneerTarget (s : State) :
    ∃ t, exec .veneerTarget s = .next t ∧ t.media = { s.targetSet.checkpointIfDue s.now with veneerRecorded := t.media.veneerRecorded } ∧ Frame [.media, .events] s t := by
  refine ⟨_, exec_veneerTarget_eq s, ?_⟩
  unfold State.veneerRecord
  generalize max s.veneerWant s.media.ring.length = n
  split
  · exact ⟨rfl, by intro p hp; cases p <;> simp [Part.same] at hp ⊢⟩
  · exact ⟨rfl, (frame_modMedia s _).mono (by simp)⟩

/-- Settles O38: what the journal, checkpoint and target steps leave of media management is computed once, and more records leave a checkpoint due. -/
theorem journalPages : Obligations.JournalPages := by
  refine ⟨?page, ?pageDue, ?targetDue, ?waits, fun _ _ _ => rfl, ?checkpoint, ?busy, ?record, fun m n => Media.keepCheckpoint_cps_length n⟩
  case page =>
    intro s hp hd
    refine ⟨_, s.media.jPend.take 512, exec_journalProgram hp hd, rfl, List.length_take_le _ _, ?_, List.take_append_drop _ _, rfl, frame_modMedia s _⟩
    simpa using hp
  case pageDue =>
    intro s hp hd
    exact ⟨_, exec_journalProgram_due hp hd, rfl, rfl, frame_modMedia s _⟩
  case targetDue =>
    intro s hd
    obtain ⟨t, ht, hm, _⟩ := exec_veneerTarget s
    obtain ⟨rs, hrs, _⟩ := s.targetSet_records
    rw [Media.checkpointIfDue, if_pos (hrs.checkpointDue hd)] at hm
    exact ⟨t, _, ht, (congrArg Media.cpBuild hm :), congrArg (· + 1) (congrArg Media.cpNum hrs :), (congrArg Media.cpAt hm :)⟩
  case waits =>
    intro m c n p ps hp h
    rw [Media.journalOk_waits n hp h]
    exact ⟨rfl, rfl⟩
  case checkpoint =>
    intro s h
    exact ⟨_, exec_checkpoint h, rfl, frame_modMedia s _⟩
  case busy =>
    intro s b h
    exact exec_checkpoint_busy (by simp [h])
  case record =>
    intro s d rows b i h
    have hb : (({ b with done := i :: b.done } : CpBuild).done.length = ({ b with done := i :: b.done } : CpBuild).pages) = (b.done.length + 1 = b.pages) := rfl
    simp only [State.programOutcome, h, if_true, State.modMedia_media, hb]
    split
    · rfl
    · exact (List.append_nil _).symm

end Sys2Proof.Machine

/-! # Reads of pages: what they leave alone (02 R74 to R77) -/

namespace Sys2Proof.Machine

/-! ## Relocation asked for by a read (02 R74, R77). -/

/-- What reads of pages may have changed of media management: copies of the veneer written again, stripes listed for relocation, blocks closed, wear, and the offset sets loaded. -/
def Media.AfterReads (m m' : Media) : Prop :=
  m' = { m with
    veneer := m'.veneer, pend := m'.pend, writeSeq := m'.writeSeq, relocNeeded := m'.relocNeeded, closed := m'.closed, wear := m'.wear, offsetsOn := m'.offsetsOn }

section
variable {m m' m'' : Media}

theorem Media.AfterReads.trans (h : Media.AfterReads m m') (k : Media.AfterReads m' m'') : Media.AfterReads m m'' := by
  unfold Media.AfterReads at k ⊢
  rw [k, h]

theorem Media.AfterReads.map (h : Media.AfterReads m m') : m'.map = m.map := (congrArg Media.map h :)
theorem Media.AfterReads.relocs (h : Media.AfterReads m m') : m'.relocs = m.relocs := (congrArg Media.relocs h :)
theorem Media.AfterReads.jPend (h : Media.AfterReads m m') : m'.jPend = m.jPend := (congrArg Media.jPend h :)
theorem Media.AfterReads.ldpc (h : Media.AfterReads m m') : m'.ldpc = m.ldpc := (congrArg Media.ldpc h :)
theorem Media.AfterReads.patrolled (h : Media.AfterReads m m') : m'.patrolled = m.patrolled := (congrArg Media.patrolled h :)
theorem Media.AfterReads.offsets (h : Media.AfterReads m m') : m'.offsets = m.offsets := (congrArg Media.offsets h :)

end

theorem Media.afterReads_foldl {α : Type} (f : Media → α → Media) (h : ∀ m a, Media.AfterReads m (f m a)) (l : List α) (m : Media) : Media.AfterReads m (l.foldl f m) := by
  induction l generalizing m with
  | nil => rfl
  | cons a l ih => exact (h m a).trans (ih (f m a))

/-- One copy of the veneer sent again in a page of its own. -/
def Media.resendCopy (m : Media) (c : SecCopy) : Media :=
  { m with pend := m.pend ++ [PendCopy.mk none { c with seq := m.writeSeq } (some c.seq)], writeSeq := m.writeSeq + 1 }

theorem Media.afterReads_resend (m : Media) (which : PageRec → Bool) : Media.AfterReads m (m.resend which) := by
  unfold Media.resend
  exact Media.AfterReads.trans (m' := { m with veneer := _ }) rfl (Media.afterReads_foldl Media.resendCopy (fun _ _ => rfl) _ _)

theorem Media.afterReads_needReloc (m : Media) (p : Nat) : Media.AfterReads m (m.needReloc p) := by
  have mark : ∀ l, Media.AfterReads m (if l ∈ m.relocNeeded then m else { m with relocNeeded := m.relocNeeded ++ [l] }) := fun l => by split <;> rfl
  unfold Media.needReloc
  dsimp only
  split
  · exact mark _
  · exact mark _
  · split
    · exact (Media.afterReads_resend m _).trans rfl
    · rfl

/-! ## Reads of pages, as changes of the state. -/

/-- Reads of pages: dies take offset sets and media management counts and refreshes; no cell changes. -/
structure ReadsPages (s t : State) : Prop where
  frame : Frame [.dies, .media] s t
  media : Media.AfterReads s.media t.media
  cells : ∀ d : DieNo, (t.die d).cells = (s.die d).cells

theorem ReadsPages.refl (s : State) : ReadsPages s s := ⟨Frame.refl _ s, rfl, fun _ => rfl⟩

theorem ReadsPages.trans {s t u : State} (h : ReadsPages s t) (k : ReadsPages t u) : ReadsPages s u :=
  ⟨h.frame.trans k.frame, h.media.trans k.media, fun d => (k.cells d).trans (h.cells d)⟩

theorem readsPages_foldl {α : Type} (f : State → α → State) (h : ∀ s a, ReadsPages s (f s a)) (l : List α) (s : State) : ReadsPages s (l.foldl f s) := by
  induction l generalizing s with
  | nil => exact ReadsPages.refl s
  | cons a l ih => exact (h s a).trans (ih (f s a))

theorem Die.setFeature_cells (x : Die) (a : Nat) (v : List Byte) : (x.setFeature a v).cells = x.cells := by
  unfold Die.setFeature
  split_ifs <;> rfl

theorem readsPages_loadNth (s : State) (d : DieNo) (m : BMode) (r : Row) (n : Nat) : ReadsPages s (s.loadNth d m r n) := by
  unfold State.loadNth
  dsimp only
  split
  · exact ReadsPages.refl s
  · refine ⟨((frame_setDie s d _).mono (by simp)).trans ((frame_modMedia _ _).mono (by simp)), rfl, fun e => ?_⟩
    by_cases he : e = d
    · subst he
      rw [State.die_modMedia, State.die_setDie_self, Die.setFeature_cells]
    · rw [State.die_modMedia, State.die_setDie_ne s _ he]

theorem otherDies_loadNth (s : State) (d : DieNo) (m : BMode) (r : Row) (n : Nat) : OtherDies s (s.loadNth d m r n) d := by
  unfold State.loadNth
  dsimp only
  split
  · exact fun _ _ => rfl
  · exact otherDies_setDie s d _

theorem readsPages_countReads (s : State) (die : Nat) (m : BMode) (r : Row) (n : Nat) : ReadsPages s (s.countReads die m r n) := by
  refine ⟨by intro p hp; cases p <;> simp [Part.same] at hp ⊢, ?_, fun d => congrArg Die.cells (State.die_congr (State.countReads_dies s die m r n) d)⟩
  unfold State.countReads
  cases m <;> dsimp only <;> split
  case qlc.isTrue | slc.isTrue => exact Media.AfterReads.trans (m' := { s.media with wear := _ }) rfl (Media.afterReads_needReloc _ _)
  case qlc.isFalse | slc.isFalse => rfl

theorem readsPages_readSpot (s : State) (x : Nat × Nat × Nat) (n : Nat) : ReadsPages s (s.readSpot x n) :=
  (readsPages_loadNth s _ _ _ n).trans (readsPages_countReads _ _ _ _ 1)

theorem readsPages_readSpots (s : State) (l : List (Nat × Nat × Nat)) : ReadsPages s (s.readSpots l) :=
  readsPages_foldl _ (fun s x => readsPages_readSpot s x 0) l s

theorem readsPages_loadSets (s : State) (d : DieNo) (m : BMode) (rows : List Row) : ReadsPages s (s.loadSets d m rows) :=
  readsPages_foldl _ (fun s r => readsPages_loadNth s d m r 0) rows s

theorem otherDies_loadSets (s : State) (d : DieNo) (m : BMode) (rows : List Row) : OtherDies s (s.loadSets d m rows) d := by
  unfold State.loadSets
  induction rows generalizing s with
  | nil => exact fun _ _ => rfl
  | cons r rows ih => exact (otherDies_loadNth s d m r 0).trans (ih _)

end Sys2Proof.Machine

/-! # Folds, merges and relocations (02 R60, R65, R67, R70) -/

namespace Sys2Proof.Machine

/-! ## A target opens (02 R67, R70). -/

/-- The map word recorded with TARGET_OPEN. -/
def Media.openWord (m : Media) (r : Reloc) : Nat :=
  match r.seen with
  | some e => e.word (match m.logsOf r.lstripe with
    | [] => 0
    | x :: _ => x.1) (m.logsOf r.lstripe).length
  | none => 0

theorem Media.records_openTarget (m : Media) (now : Nat) (r : Reloc) :
    Media.Records m (m.openTarget now r) [⟨m.jNext, .targetOpen, r.lstripe, m.openWord r, r.target + 2 ^ 24⟩] := rfl

theorem Media.openTarget_relocs (m : Media) (now : Nat) (r : Reloc) : (m.openTarget now r).relocs = Tab.put m.relocs r.lstripe r := rfl

/-! ## The step of an open fold or relocation (02 R70, R75). -/

theorem State.advance_opened {s : State} {r : Reloc} (h : r.step = .opened) (hr : s.spotsReady false (s.media.copySpots r (s.media.copiesFor r)) = true) :
    s.advance r = (s.modMedia (fun m => m.beginCopy r)).readSpots (s.media.copySpots r (s.media.copiesFor r)) := by
  simp only [State.advance, h]
  exact if_pos hr

theorem State.advance_waits {s : State} {r : Reloc} (h : r.step = .opened) (hr : s.spotsReady false (s.media.copySpots r (s.media.copiesFor r)) = false) :
    s.advance r = s := by
  simp only [State.advance, h]
  exact if_neg (Bool.eq_false_iff.mp hr)

theorem State.advance_mapSet {s : State} {r : Reloc} (h : r.step = .mapSet) : s.advance r = s.modMedia (fun m => m.startErase s.now r) := by
  simp only [State.advance, h]

/-- A fold or relocation whose next step waits for a record or for its pages does nothing. -/
theorem State.advance_idle {s : State} {r : Reloc} (ho : r.step ≠ .opened) (hm : r.step ≠ .mapSet) : s.advance r = s := by
  unfold State.advance
  split
  · exact absurd ‹_› ho
  · exact absurd ‹_› hm
  · rfl

theorem le_foldl_max (cs : List SecCopy) (n : Nat) : n ≤ cs.foldl (fun a c => max a c.seq) n ∧ ∀ c ∈ cs, c.seq ≤ cs.foldl (fun a c => max a c.seq) n := by
  induction cs generalizing n with
  | nil => simp
  | cons c cs ih =>
    obtain ⟨hn, hc⟩ := ih (max n c.seq)
    exact ⟨by simp only [List.foldl_cons]; omega, List.forall_mem_cons.mpr ⟨by simp only [List.foldl_cons]; omega, hc⟩⟩

/-- The copying begins: the relocation holds its copies, and pages are read; nothing else of media management's tables changes. -/
theorem State.advance_copies {s : State} {r : Reloc} (h : r.step = .opened) (hr : s.spotsReady false (s.media.copySpots r (s.media.copiesFor r)) = true) :
    ∃ u, (s.advance r).media.relocs = Tab.put s.media.relocs r.lstripe { r with step := .copying, upTo := u, copies := s.media.copiesFor r } ∧
      (∀ c ∈ s.media.copiesFor r, c.seq ≤ u) ∧ (s.advance r).media.map = s.media.map ∧ (s.advance r).media.jPend = s.media.jPend ∧ Frame [.media, .dies] s (s.advance r) := by
  rw [State.advance_opened h hr]
  have k := readsPages_readSpots (s.modMedia (fun m => m.beginCopy r)) (s.media.copySpots r (s.media.copiesFor r))
  exact ⟨_, k.media.relocs, (le_foldl_max (s.media.copiesFor r) 0).2, k.media.map, k.media.jPend, ((frame_modMedia s _).mono (by simp)).trans (k.frame.mono (by simp))⟩

/-! ## FOLD (02 R60, R67, R83). -/

theorem exec_fold_open {s : State} {l : Nat} {r : Reloc} (p : Nat) (h : Tab.find s.media.relocs l = some r) :
    exec (.fold l p) s = .next (if r.source.isNone then s.advance r else s) := by
  change execFold l p s = _
  simp only [execFold, h]

theorem exec_fold_counted {s : State} {l : Nat} {c : Counted} (p : Nat) (hr : Tab.find s.media.relocs l = none) (hm : Tab.find s.media.map l = none)
    (hc : s.media.counted.find? (fun c => c.lstripe = l) = some c) :
    exec (.fold l p) s = .next (s.modMedia (fun m => (m.foldOpen s.now c p).veneerFolded s.now)) := by
  change execFold l p s = _
  simp only [execFold, hr, hm, hc]

theorem Media.foldOpen_opens {m : Media} {now : Nat} {c : Counted} {p : Nat} (hv : m.veneerOf c.owner c.ostripe ≠ []) (hdue : c.lastWrite + 10 * secUnits ≤ now)
    (hx : ∃ x ∈ newestOf c.owner (m.veneerOf c.owner c.ostripe), x.zero = false) (hp : m.targetOk p = true) :
    m.foldOpen now c p = m.openTarget now (openReloc c.lstripe c.owner c.ostripe p false none [] none) := by
  have hz : ¬ (newestOf c.owner (m.veneerOf c.owner c.ostripe)).all (·.zero) = true := by simpa using hx
  simp [Media.foldOpen, hv, hdue, hz, hp]

/-- A counted stripe given up as empty: its copies leave the veneer, and what no command counts leaves the count (02 R60, R83). -/
def Media.release (m : Media) (c : Counted) : Media :=
  { m with
    veneer := m.veneer.filter (fun x => !(x.owner = c.owner && x.sector / stripeSectors c.owner = c.ostripe))
    counted := (m.counted.map (fun x => if x.lstripe = c.lstripe then { x with landed := false } else x)).filter (fun x => x.landed || !x.cmds.isEmpty) }

theorem Media.foldOpen_releases {m : Media} {now : Nat} {c : Counted} {p : Nat} (hv : m.veneerOf c.owner c.ostripe ≠ []) (hdue : c.lastWrite + 10 * secUnits ≤ now)
    (hz : ∀ x ∈ newestOf c.owner (m.veneerOf c.owner c.ostripe), x.zero = true) : m.foldOpen now c p = m.release c := by
  have hz : (newestOf c.owner (m.veneerOf c.owner c.ostripe)).all (·.zero) = true := by simpa using hz
  simp only [Media.foldOpen, List.isEmpty_iff, hv, hdue, hz, Media.release, not_true_eq_false, true_or, or_self, if_false, if_true]

theorem Media.release_veneerOf (m : Media) (c : Counted) : (m.release c).veneerOf c.owner c.ostripe = [] := by
  simp only [Media.release, Media.veneerOf, List.filter_filter, List.filter_eq_nil_iff]
  simp

theorem Media.not_mem_release {m : Media} {c : Counted} (h : c.cmds = []) : c ∉ (m.release c).counted := by
  simp only [Media.release, List.mem_filter, List.mem_map, not_and, forall_exists_index, and_imp]
  intro x _ hx
  by_cases hl : x.lstripe = c.lstripe
  · have hc : c.landed = false := by rw [← hx, if_pos hl]
    simp [hc, h]
  · rw [if_neg hl] at hx
    exact absurd (congrArg Counted.lstripe hx) hl

end Sys2Proof.Machine

namespace Sys2Proof.Machine

/-! ## Targets that are whole (02 R53, R67, R70). -/

/-- The fields of a map word (02 R53). -/
theorem mapWord_fields {p a b h n o x w : Nat} (hw : w = p + 2 ^ 20 + a * 2 ^ 21 + b * 2 ^ 22 + h * 2 ^ 24 + n * 2 ^ 35 + o * 2 ^ 40 + x * 2 ^ 45)
    (hp : p < 2 ^ 20) (ha : a < 2) (hb : b < 2) (hh : h < 2 ^ 11) (hn : n < 2 ^ 3) (ho : o < 2 ^ 5) (hx : x < 2 ^ 19) :
    bitsOf w 0 20 = p ∧ w / 2 ^ 21 % 2 = a ∧ w / 2 ^ 22 % 2 = b ∧ bitsOf w 40 5 = o ∧ bitsOf w 45 19 = x := by
  subst hw
  unfold bitsOf
  refine ⟨?_, ?_, ?_, ?_, ?_⟩ <;> omega

theorem bit_lt (b : Bool) : bit b < 2 := by cases b <;> decide

/-- A map entry reads back from its word (02 R53). -/
theorem mapEntryOf_word {e : MapEntry} {head count : Nat} (hp : e.pstripe < 2 ^ 20) (hh : head < 2048) (hc : count < 8) (ho : e.owner < 32) (hs : e.ostripe < 2 ^ 19) :
    mapEntryOf (e.word head count) = e := by
  obtain ⟨h1, h2, h3, h4, h5⟩ := mapWord_fields (w := e.word head count) rfl hp (bit_lt e.slc) (bit_lt e.rebuild) hh hc ho hs
  have hb : ∀ b : Bool, (bit b == 1) = b := by decide
  rw [mapEntryOf, bitOf, bitOf, h1, h2, h3, h4, h5, hb, hb]

/-- The relocations whose target is whole, those of the sketch area with their quad. -/
def Media.wholeTargets (m : Media) : List Reloc :=
  (Tab.vals m.relocs).filter (fun r => (r.step = .copying && r.okd.all (fun n => 1024 ≤ n))
    && (r.owner ≠ 17 || (List.range 4).all (fun c => m.relocs.any (fun e => e.2.owner = 17 && e.2.ostripe = r.ostripe / 4 * 4 + c
      && (e.2.step = .copying && e.2.okd.all (fun n => 1024 ≤ n))))))

/-- The logs a stripe keeps when a relocation of it commits: those it has not merged, and those whose LOG_ATTACH is on its way. -/
def Media.logsLeft (m : Media) (r : Reloc) : List Nat :=
  ((m.logsOf r.lstripe).map (·.1)).filter (fun k => k ∉ r.logs)
    ++ ((m.jPend ++ m.jPages.flatMap (·.recs)).filter (fun x => x.type = .logAttach && x.lstripe = r.lstripe)).map (fun x => bitsOf x.aux 0 20)

/-- The map word of a MAP_SET of a relocation. -/
def Media.targetWord (m : Media) (r : Reloc) : Nat :=
  (MapEntry.mk r.target r.slc false r.owner r.ostripe).word ((m.logsLeft r).headD 0 % 2048) (min (m.logsLeft r).length 4)

/-- MAP_SET of one relocation recorded. -/
def Media.recordMapSet (now : Nat) (m : Media) (r : Reloc) : Media :=
  { (m.journal now .mapSet r.lstripe (m.targetWord r) (r.target + 2 ^ 24)) with relocs := Tab.put m.relocs r.lstripe { r with step := .copied } }

theorem Media.targetsWhole_eq (m : Media) (now : Nat) : m.targetsWhole now = m.wholeTargets.foldl (Media.recordMapSet now) m := rfl

theorem Media.mapEntryOf_targetWord (m : Media) {r : Reloc} (hp : r.target < 2 ^ 20) (ho : r.owner < 32) (hs : r.ostripe < 2 ^ 19) :
    mapEntryOf (m.targetWord r) = ⟨r.target, r.slc, false, r.owner, r.ostripe⟩ :=
  mapEntryOf_word hp (Nat.mod_lt _ (by decide)) (by omega) ho hs

theorem Media.wholeTargets_nil {m : Media} (h : ∀ r ∈ Tab.vals m.relocs, r.step ≠ .copying ∨ ∃ n ∈ r.okd, n < 1024) : m.wholeTargets = [] := by
  refine List.filter_eq_nil_iff.mpr fun r hr k => ?_
  simp only [Bool.and_eq_true, decide_eq_true_eq, List.all_eq_true] at k
  obtain ⟨⟨hstep, hokd⟩, _⟩ := k
  rcases h r hr with hc | ⟨n, hn, hlt⟩
  · exact hc hstep
  · exact absurd (hokd n hn) (by omega)

theorem Media.wholeTargets_one {m : Media} {l : Nat} {r : Reloc} (h : m.relocs = [(l, r)]) (hs : r.step = .copying) (ho : r.owner ≠ 17) (hk : ∀ n ∈ r.okd, 1024 ≤ n) :
    m.wholeTargets = [r] := by
  simpa [Media.wholeTargets, h, Tab.vals, hs, ho] using hk

/-! ## The spare state (02 R81). -/

/-- The spare state follows from the map, the substitutes and the blocks lost. -/
theorem Media.spareNow_congr {m m' : Media} (hmap : m'.map = m.map) (hret : m'.retired = m.retired) (hsub : m'.subst = m.subst) (hlost : m'.lostSubst = m.lostSubst)
    (hst : m'.spareState = m.spareState) : m'.spareNow = m.spareNow := by
  cases m
  cases m'
  subst hmap hret hsub hlost hst
  rfl

theorem State.spareCheck_same {s : State} (h : s.media.spareNow = s.media.spareState) : s.spareCheck = s := if_pos h

theorem Media.Records.spareNow {m m' : Media} {rs : List JRecord} (h : Media.Records m m' rs) : m'.spareNow = m.spareNow :=
  Media.spareNow_congr h.map (congrArg Media.retired h :) (congrArg Media.subst h :) (congrArg Media.lostSubst h :) (congrArg Media.spareState h :)

theorem Media.Records.spareState {m m' : Media} {rs : List JRecord} (h : Media.Records m m' rs) : m'.spareState = m.spareState := (congrArg Media.spareState h :)

theorem Media.AfterReads.spareNow {m m' : Media} (h : Media.AfterReads m m') : m'.spareNow = m.spareNow :=
  Media.spareNow_congr h.map (congrArg Media.retired h :) (congrArg Media.subst h :) (congrArg Media.lostSubst h :) (congrArg Media.spareState h :)

/-- The reads with which a copying begins leave the spare state. -/
theorem State.spareCheck_advance {s : State} {r : Reloc} (h : r.step = .opened) (hr : s.spotsReady false (s.media.copySpots r (s.media.copiesFor r)) = true)
    (hs : s.media.spareNow = s.media.spareState) : (s.advance r).spareCheck = s.advance r := by
  rw [State.advance_opened h hr]
  have k := (readsPages_readSpots (s.modMedia (fun m => m.beginCopy r)) (s.media.copySpots r (s.media.copiesFor r))).media
  exact State.spareCheck_same (k.spareNow.trans (hs.trans (congrArg Media.spareState k :).symm))

/-! ## MERGE_STRIPE and RELOCATION (02 R65, R70, R77). -/

theorem exec_mergeStripe (l p : Nat) (s : State) : exec (.mergeStripe l p) s = .next (s.relocate l p true) := rfl

theorem exec_relocation (l p : Nat) (s : State) : exec (.relocation l p) s = .next (s.relocate l p false).spareCheck := rfl

theorem State.relocate_goesOn {s : State} {l q : Nat} {r : Reloc} (p : Nat) (merge : Bool) (h : Tab.find s.media.relocs l = some r) (hs : r.source = some q) :
    s.relocate l p merge = s.advance r := by
  simp [State.relocate, h, hs]

theorem State.relocate_merge {s : State} {l p : Nat} {e : MapEntry} (hr : Tab.find s.media.relocs l = none) (hm : Tab.find s.media.map l = some e) :
    s.relocate l p true = if s.media.mergeDue l e ∧ s.media.targetOk p then
      s.modMedia (fun m => m.openTarget s.now (openReloc l e.owner e.ostripe p e.slc (some e.pstripe) ((m.logsOf l).map (·.1)) (some e))) else s := by
  simp [State.relocate, hr, hm]

/-- The relocation that opens for a stripe that moves with others: stripe, entry and target. -/
def openMove (x : Nat × MapEntry × Nat) : Reloc := openReloc x.1 x.2.1.owner x.2.1.ostripe x.2.2 x.2.1.slc (some x.2.1.pstripe) [] (some x.2.1)

/-- The targets of stripes that move together open. -/
def Media.openMoves (m : Media) (now : Nat) (us : List (Nat × MapEntry × Nat)) : Media := us.foldl (fun m x => m.openTarget now (openMove x)) m

theorem State.relocate_opens {s : State} {l p : Nat} {e : MapEntry} (hr : Tab.find s.media.relocs l = none) (hm : Tab.find s.media.map l = some e)
    (hdue : ∃ x ∈ s.media.together l e p, s.media.relocDue x.1 x.2.1 = true)
    (hok : ∀ x ∈ s.media.together l e p, s.media.targetOk x.2.2 = true ∧ Tab.find s.media.relocs x.1 = none) :
    s.relocate l p false = s.modMedia (fun m => m.openMoves s.now (s.media.together l e p)) := by
  have hdue : (s.media.together l e p).any (fun x => s.media.relocDue x.1 x.2.1) = true := by simpa using hdue
  have hok : (s.media.together l e p).all (fun x => s.media.targetOk x.2.2 && !Tab.has s.media.relocs x.1) = true := by
    simpa [Tab.has_eq] using hok
  simp only [State.relocate, hr, hm, Bool.false_eq_true, if_false, hdue, hok, and_self, if_true]
  rfl

section
variable {α β : Type} (key : β → Nat) (v : β → α)

theorem Tab.find_foldl_put_ne (l : List β) (t : Tab α) (k : Nat) (h : k ∉ l.map key) : Tab.find (l.foldl (fun t y => Tab.put t (key y) (v y)) t) k = Tab.find t k := by
  induction l generalizing t with
  | nil => rfl
  | cons y l ih =>
    simp only [List.map_cons, List.mem_cons, not_or] at h
    simp [ih _ h.2, h.1]

/-- Values put under distinct keys: each key holds its own. -/
theorem Tab.find_foldl_put (l : List β) (t : Tab α) (h : (l.map key).Nodup) (x : β) (hx : x ∈ l) :
    Tab.find (l.foldl (fun t y => Tab.put t (key y) (v y)) t) (key x) = some (v x) := by
  induction l generalizing t with
  | nil => cases hx
  | cons y l ih =>
    rw [List.map_cons, List.nodup_cons] at h
    rcases List.mem_cons.mp hx with rfl | hx
    · rw [List.foldl_cons, Tab.find_foldl_put_ne key v l _ _ h.1, Tab.find_put_self]
    · exact ih _ h.2 hx

end

theorem Media.openMoves_relocs (m : Media) (now : Nat) (us : List (Nat × MapEntry × Nat)) :
    (m.openMoves now us).relocs = us.foldl (fun t x => Tab.put t x.1 (openMove x)) m.relocs :=
  (List.foldl_hom Media.relocs (fun _ _ => rfl)).symm

theorem Media.records_openMoves (m : Media) (now : Nat) (us : List (Nat × MapEntry × Nat)) :
    ∃ rs, Media.Records m (m.openMoves now us) rs ∧ rs.length = us.length ∧ ∀ x ∈ us, ∃ q w, (⟨q, .targetOpen, x.1, w, x.2.2 + 2 ^ 24⟩ : JRecord) ∈ rs := by
  obtain ⟨rs, hrs, hlen, hof, _⟩ := Media.records_foldl (fun (x : Nat × MapEntry × Nat) r => ∃ q w, r = ⟨q, .targetOpen, x.1, w, x.2.2 + 2 ^ 24⟩)
    (fun m x => m.openTarget now (openMove x)) (fun m x => ⟨_, m.records_openTarget now (openMove x), _, _, rfl⟩) us m
  refine ⟨rs, hrs, hlen, fun x hx => ?_⟩
  obtain ⟨_, hr, q, w, rfl⟩ := hof x hx
  exact ⟨q, w, hr⟩

/-- The erase of a relocation's source recorded, once the releases of its logs are. -/
theorem Media.startErase_eq (m : Media) (now : Nat) {q : Nat} {r : Reloc} (hs : r.source = some q) :
    m.startErase now r = { ((r.logs.foldl (fun (m : Media) k => (m.journal now .logDetach r.lstripe 0 k).journal now .eraseStart r.lstripe 0 (logStripe k + 2 ^ 24)) m).journal
      now .eraseStart r.lstripe 0 (q + 2 ^ 24)) with relocs := Tab.put m.relocs r.lstripe { r with step := .starting } } := by
  simp only [Media.startErase, Media.recordErases, hs, Option.isNone_some, Bool.false_eq_true, if_false]

/-- Settles O36: the step of an open relocation, the opening of targets and the recording of whole ones are each computed once; appended records leave the spare state. -/
theorem foldsMergesRelocations : Obligations.FoldsMergesRelocations := by
  refine ⟨?foldOpens, ?foldCopies, ?foldWaits, ?whole, ?notWhole, ?released, ?idle, ?mergeOpens, ?mergeNotDue, ?relocOpens, ?relocCopies, ?relocErases, ?mergeErases⟩
  case foldOpens =>
    intro s l p c hr hm hc hl hv hdue hx hp
    obtain ⟨rs, hrs, htype⟩ := Media.records_veneerFolded (s.media.openTarget s.now (openReloc l c.owner c.ostripe p false none [] none)) s.now
    have hall := (s.media.records_openTarget s.now (openReloc l c.owner c.ostripe p false none [] none)).trans hrs
    have hrel := Media.veneerFolded_relocs (s.media.openTarget s.now (openReloc l c.owner c.ostripe p false none [] none)) s.now
    refine ⟨_, rs, exec_fold_counted p hr hm hc, ?_⟩
    rw [State.modMedia_media, Media.foldOpen_opens hv hdue hx hp, hl, hrel]
    exact ⟨Tab.find_put_self _ _ _, hall.jPend, htype, hall.map, hall.veneer, hall.counted, fun k hk => Tab.find_put_ne _ _ hk, frame_modMedia s _⟩
  case foldCopies =>
    intro s l p r hr hl hs ho hready
    have hc : s.media.copiesFor r = newestOf r.owner (s.media.veneerOf r.owner r.ostripe) := by rw [Media.copiesFor, hs]
    obtain ⟨u, hrel, hle, hmap, hj, hf⟩ := State.advance_copies (s := s) ho (hc ▸ hready)
    rw [hc, hl] at hrel
    rw [hc] at hle
    refine ⟨_, u, (exec_fold_open p hr).trans (by rw [hs]; rfl), ?_, hle, hmap, hj, fun k hk => ?_, hf⟩
    · rw [hrel, Tab.find_put_self, ← hl]
    · rw [hrel, Tab.find_put_ne _ _ hk]
  case foldWaits =>
    intro s l p r hr hs ho hready
    have hc : s.media.copiesFor r = newestOf r.owner (s.media.veneerOf r.owner r.ostripe) := by rw [Media.copiesFor, hs]
    rw [exec_fold_open p hr, State.advance_waits ho (hc ▸ hready), ite_self]
  case whole =>
    intro m now l r h hl hs ho hk hlogs
    rw [Media.targetsWhole_eq, Media.wholeTargets_one h hs ho hk]
    refine ⟨m.targetWord r, hl ▸ rfl, hl ▸ Tab.find_put_self _ _ _, rfl, fun ⟨hp, hw, hos⟩ => m.mapEntryOf_targetWord hp hw hos⟩
  case notWhole =>
    intro m now h
    rw [Media.targetsWhole_eq, Media.wholeTargets_nil h]
    rfl
  case released =>
    intro s l p c hr hm hc hl hcmds hv hdue hz
    obtain ⟨rs, hrs, _⟩ := Media.records_veneerFolded (s.media.release c) s.now
    refine ⟨_, exec_fold_counted p hr hm hc, ?_⟩
    rw [State.modMedia_media, Media.foldOpen_releases hv hdue hz]
    refine ⟨?_, ?_, hrs.map, Media.veneerFolded_relocs _ _, frame_modMedia s _⟩
    · rw [Media.veneerOf, hrs.veneer]
      exact s.media.release_veneerOf c
    · rw [hrs.counted]
      exact Media.not_mem_release hcmds
  case idle =>
    intro s l p r hr hstep
    rw [exec_fold_open p hr, State.advance_idle, ite_self] <;> rcases hstep with h | h | h | h | h <;> simp [h]
  case mergeOpens =>
    intro s l p e hr hm hdue hp
    rw [exec_mergeStripe, State.relocate_merge hr hm, if_pos ⟨hdue, hp⟩]
    exact ⟨_, _, rfl, Tab.find_put_self _ _ _, rfl, rfl, frame_modMedia s _⟩
  case mergeNotDue =>
    intro s l p e hr hm hdue
    rw [exec_mergeStripe, State.relocate_merge hr hm, if_neg (by simp [hdue])]
  case relocOpens =>
    intro s l p e us hr hm hus hnd hdue hok hspare
    subst hus
    obtain ⟨rs, hrs, hlen, hof⟩ := s.media.records_openMoves s.now (s.media.together l e p)
    rw [exec_relocation, State.relocate_opens hr hm hdue hok, State.spareCheck_same (hrs.spareNow.trans (hspare.trans hrs.spareState.symm))]
    refine ⟨_, rfl, fun x hx => ⟨?_, ?_⟩, ⟨?_, ?_⟩, hrs.map, frame_modMedia s _⟩
    · rw [State.modMedia_media, Media.openMoves_relocs]
      exact Tab.find_foldl_put (fun x => x.1) openMove _ _ hnd x hx
    · obtain ⟨q, w, hq⟩ := hof x hx
      exact ⟨q, w, by rw [State.modMedia_media, hrs.jPend]; exact List.mem_append_right _ hq⟩
    · rw [State.modMedia_media, hrs.jPend, List.take_left]
    · rw [State.modMedia_media, hrs.jPend, List.length_append, hlen]
  case relocCopies =>
    intro s l p q r hr hl hs ho hspare hready
    obtain ⟨u, hrel, _, hmap, _, hf⟩ := State.advance_copies ho hready
    rw [exec_relocation, State.relocate_goesOn p false hr hs, State.spareCheck_advance ho hready hspare]
    refine ⟨_, u, rfl, ?_, hmap, hf.mono (by simp)⟩
    rw [hrel, hl, Tab.find_put_self, Media.copiesFor, hs]
  case relocErases =>
    intro s l p q r hr hl hs hlogs hstep hspare
    have he := s.media.startErase_eq s.now hs
    rw [hlogs] at he
    have hrec : Media.Records s.media (s.media.startErase s.now r) [⟨s.media.jNext, .eraseStart, l, 0, q + 2 ^ 24⟩] := by rw [he, hl]; rfl
    rw [exec_relocation, State.relocate_goesOn p false hr hs, State.advance_mapSet hstep, State.spareCheck_same (hrec.spareNow.trans (hspare.trans hrec.spareState.symm))]
    refine ⟨_, rfl, ?_, hrec.jPend, hrec.map, frame_modMedia s _⟩
    simp only [State.modMedia_media, he, hl, hlogs, Tab.find_put_self]
  case mergeErases =>
    intro s l p q k r hr hl hs hlogs hstep
    rw [exec_mergeStripe, State.relocate_goesOn p true hr hs, State.advance_mapSet hstep]
    refine ⟨_, rfl, ?_⟩
    rw [State.modMedia_media, s.media.startErase_eq s.now hs, hlogs, hl]
    exact ⟨Tab.find_put_self _ _ _, by simp [Media.journal], rfl, frame_modMedia s _⟩

end Sys2Proof.Machine

/-! # Decoding, suspension, patrol, rebuild and the veneer's target (02 R57, R73 to R76, R80) -/

namespace Sys2Proof.Machine

/-! ## The slots of a frame (02 R73). -/

/-- The slots left in a frame, of all classes. -/
def Ldpc.slots (x : Ldpc) : Nat := x.leftI + x.leftB + x.leftS

theorem Ldpc.slots_use {x : Ldpc} {c : Cls} {n : Nat} (h : n ≤ x.left c) : (x.use c n).slots + n = x.slots := by
  cases c <;> simp only [Ldpc.left, Ldpc.use, Ldpc.slots] at * <;> omega

theorem Ldpc.left_use_ne {x : Ldpc} {c k : Cls} (n : Nat) (h : k ≠ c) : (x.use c n).left k = x.left k := by
  cases c <;> cases k <;> trivial

theorem otherClasses (c : Cls) : ∃ j k, ([.interactive, .background, .system] : List Cls).filter (· ≠ c) = [j, k] ∧ j ≠ c ∧ k ≠ c ∧ k ≠ j := by
  cases c
  · exact ⟨.background, .system, by decide⟩
  · exact ⟨.interactive, .system, by decide⟩
  · exact ⟨.interactive, .background, by decide⟩

/-- One slot taken is one of those left, whichever class had it: the class's own, or one that the first or the second of the others can spare. -/
theorem Ldpc.slots_take_one {x y : Ldpc} {need : Cls → Nat} {c : Cls} (h : x.take need c 1 = some y) : y.slots + 1 = x.slots := by
  obtain ⟨j, k, hl, hj, hk, hkj⟩ := otherClasses c
  rw [Ldpc.take, hl] at h
  simp only [List.map_cons, List.map_nil, List.foldl_cons, List.foldl_nil, Nat.zero_add] at h
  generalize (if 1 = min (x.left c) 1 then 0 else _) = claims at h
  by_cases hspare : x.left j - need j + (x.left k - need k) < 1 - min (x.left c) 1 + claims
  · rw [if_pos hspare] at h
    cases h
  · rw [if_neg hspare] at h
    cases h
    generalize ha : min (x.left c) 1 = a at hspare ⊢
    generalize hb : min (x.left j - need j) (1 - a) = b
    generalize hd : min (x.left k - need k) (1 - a - b) = d
    have h1 : (x.use c a).slots + a = x.slots := Ldpc.slots_use (by omega)
    have h2 : ((x.use c a).use j b).slots + b = (x.use c a).slots := Ldpc.slots_use (by rw [Ldpc.left_use_ne a hj]; omega)
    have h3 : (((x.use c a).use j b).use k d).slots + d = ((x.use c a).use j b).slots :=
      Ldpc.slots_use (by rw [Ldpc.left_use_ne b hkj, Ldpc.left_use_ne a hk]; omega)
    have hone : 1 - a ≤ x.left j - need j + (x.left k - need k) := by omega
    omega

theorem State.decodeSlots_taken {s : State} {g : Nat} {c : Cls} {n : Nat} {x : Ldpc} (h : (s.decoder g).take (s.decodesWaiting g) c n = some x) :
    s.decodeSlots g c n = s.modMedia (fun m => { m with ldpc := Tab.put m.ldpc g x }) := by
  rw [State.decodeSlots, h]

theorem State.ladderDecode_hard (s : State) (die : Nat) (c : Cls) : s.ladderDecode die c .hard = s.decodeSlots (die / 128) c 1 := rfl

theorem State.ladderDone_hard (s : State) (die : Nat) (p : Option Nat) (o : Owner) (xs : List Nat) : s.ladderDone die p o xs .hard = s := by
  cases p <;> rfl

theorem exec_ldpcDecode_hard {s : State} {d : DieNo} {c : Cls} {x : Ldpc} (o : Nat) (xs : List Nat)
    (h : (s.decoder (d.val / 128)).take (s.decodesWaiting (d.val / 128)) c 1 = some x) :
    exec (.ldpcDecode d c o xs .hard) s = .next (s.modMedia (fun m => { m with ldpc := Tab.put m.ldpc (d.val / 128) x })) := by
  change execLdpcDecode d c o xs .hard s = _
  simp only [execLdpcDecode, State.ladderDecode_hard, State.decodeSlots_taken h, State.ladderReads, State.ladderDone_hard]
  split <;> rfl

/-! ## Sectors that cannot be read (02 R74; 15 R506). -/

theorem Health.enter_lists (h : Health) (t : Nat) (o : Owner) (x : Nat) : ∃ e ∈ (h.enter t o x).unc, e.owner = o ∧ e.sector = x := by
  unfold Health.enter
  split
  · rename_i hl
    simpa using hl
  · exact ⟨⟨o, x, t⟩, by simp, rfl, rfl⟩

theorem State.uncorrectable_lists (s : State) (o : Owner) (x : Nat) : ∃ e ∈ (s.uncorrectable o [x]).health.unc, e.owner = o ∧ e.sector = x := by
  have hx : sortBy (· < ·) [x].dedup = [x] := by simp [sortBy, insertBy]
  simp only [State.uncorrectable, hx]
  rw [State.foldl_health (fun s (r : Nat × Nat) => s.record 0x3002 (sourceOf 0 0) (leBytes 1 o ++ leBytes 8 r.1 ++ leBytes 4 r.2)) (fun _ _ => rfl)]
  exact Health.enter_lists _ _ o x

theorem State.ladderDone_failed (s : State) (die : Nat) (p : Option Nat) (o : Owner) (xs : List Nat) : ∃ u : State, s.ladderDone die p o xs .failed = u.uncorrectable o xs :=
  ⟨_, rfl⟩

/-! ## Suspension for reads (02 R75). -/

theorem exec_suspendForRead (d : DieNo) (s : State) : exec (.suspendForRead d) s = .next (if s.waitsFor d then s.suspendFor d else s) := rfl

theorem State.suspendFor_running {s : State} {d : DieNo} {o : DieOp} (ho : (s.die d).op = some o) (hk : o.kind ≠ .slc) (hu : o.used < maxSuspends o.kind)
    (hst : o.st = .running) (ht : (s.die d).takes .suspend = true) :
    s.suspendFor d = (s.setDie d ((s.die d).suspendOp s.now)).modMedia (fun m =>
      { m with susp := ⟨d.val, s.now + 100 * usUnits⟩ :: m.susp.filter (fun y => y.die ≠ d.val) }) := by
  have hu : ¬ maxSuspends o.kind ≤ o.used := by omega
  simp [State.suspendFor, ho, hk, hu, hst, ht]

theorem State.suspendFor_not {s : State} {d : DieNo} {o : DieOp} (ho : (s.die d).op = some o) (h : o.kind = .slc ∨ maxSuspends o.kind ≤ o.used) : s.suspendFor d = s := by
  simp only [State.suspendFor, ho]
  exact if_pos (h.imp_right Or.inl)

/-- A die resumed: its operation goes on, and no window of it stays open. -/
def State.resumed (s : State) (d : DieNo) : State :=
  (s.setDie d ((s.die d).resumeOp s.now)).modMedia (fun m => { m with susp := m.susp.filter (fun y => y.die ≠ d.val) })

theorem exec_resumeAfterReads {s : State} {d : DieNo} (hw : s.waitsFor d = false) (hst : (s.die d).st = .suspended) (hy : ∃ y ∈ s.media.susp, y.die = d.val) :
    exec (.resumeAfterReads d) s = .next (s.resumed d) := by
  have hy : s.media.susp.any (fun y => y.die = d.val) = true := by simpa using hy
  change execResumeAfterReads d s = _
  simp only [execResumeAfterReads, hw, Bool.false_eq_true, if_false]
  exact if_pos ⟨hst, hy⟩

theorem exec_resumeAfterReads_late {s : State} {d : DieNo} {y : SuspFor} (hw : s.waitsFor d = true) (hst : (s.die d).st = .suspended)
    (hy : s.media.susp.find? (fun y => y.die = d.val) = some y) : exec (.resumeAfterReads d) s = .next ((s.at_ y.until_).resumed d) := by
  have ha : s.media.susp.any (fun y => y.die = d.val) = true := List.any_eq_true.mpr (List.find?_isSome.mp (by rw [hy]; rfl))
  change execResumeAfterReads d s = _
  simp only [execResumeAfterReads, hw, hy, if_true]
  exact if_pos ⟨hst, ha⟩

theorem State.resumed_ok (s : State) (d : DieNo) : (s.resumed d).now = s.now ∧ (s.resumed d).die d = (s.die d).resumeOp s.now ∧
    (∀ y ∈ (s.resumed d).media.susp, y.die ≠ d.val) ∧ OtherDies s (s.resumed d) d ∧ Frame [.dies, .media] s (s.resumed d) :=
  ⟨rfl, State.die_setDie_self s d _, fun y hy => by simpa using (List.mem_filter.mp hy).2, otherDies_setDie s d _,
    ((frame_setDie s d _).mono (by simp)).trans ((frame_modMedia _ _).mono (by simp))⟩

end Sys2Proof.Machine

namespace Sys2Proof.Machine

/-! ## Patrol (02 R76, R77). -/

/-- The reads of a patrol: the stripe is noted, and every page of its members on a die is read with the sets of their blocks. -/
def State.patrolReads (s : State) (d : DieNo) (p : Nat) : State :=
  let s := s.modMedia (fun m => { m with patrolled := Tab.put m.patrolled p s.now })
  let rows := (List.range 16).filterMap (fun k => if (s.media.blockOf p k).1 = d.val then some (s.media.blockOf p k).2 else none)
  let mode := s.media.modeOf p
  rows.foldl (fun s r => s.countReads d.val mode r (match mode with
    | .slc => 1024
    | .qlc => 4096)) (s.loadSets d mode rows)

theorem readsPages_patrolReads (s : State) (d : DieNo) (p : Nat) :
    ReadsPages (s.modMedia (fun m => { m with patrolled := Tab.put m.patrolled p s.now })) (s.patrolReads d p) :=
  (readsPages_loadSets _ d _ _).trans (readsPages_foldl _ (fun s r => readsPages_countReads s d.val _ r _) _ _)

theorem otherDies_patrolReads (s : State) (d : DieNo) (p : Nat) : OtherDies s (s.patrolReads d p) d :=
  (otherDies_loadSets (s.modMedia (fun m => { m with patrolled := Tab.put m.patrolled p s.now })) d _ _).trans
    (OtherDies.of_dies d (State.foldl_dies _ (fun s r => State.countReads_dies s d.val _ r _) _ _))

/-- A group's decoder depends on its entry, the time and MEDIA_POLICY alone. -/
theorem State.decoder_congr {s t : State} (hl : t.media.ldpc = s.media.ldpc) (hn : t.now = s.now) (hp : t.power = s.power) (g : Nat) : t.decoder g = s.decoder g := by
  simp only [State.decoder, State.ldpcShares, hl, hn, hp]

theorem State.decodesWaiting_congr {s t : State} (h : t.pending = s.pending) (g : Nat) : t.decodesWaiting g = s.decodesWaiting g := by
  funext c
  simp only [State.decodesWaiting, h]

/-- A patrol whose pages decode by hard decision: its reads and one decode, and then what the patrol found is noted. -/
structure Patrolled (s u : State) (d : DieNo) (p : Nat) : Prop where
  frame : Frame [.media, .dies] s u
  others : OtherDies s u d
  map : u.media.map = s.media.map
  noted : Tab.find u.media.patrolled p = some s.now

theorem State.patrol_decodes {s : State} {d : DieNo} {x : Ldpc} (p : Nat) (h : (s.decoder (d.val / 128)).take (s.decodesWaiting (d.val / 128)) .system 1 = some x) :
    Patrolled s ((s.patrolReads d p).ladderDecode d.val .system .hard) d p := by
  have k := readsPages_patrolReads s d p
  have hf : Frame [.media, .dies] s (s.patrolReads d p) := ((frame_modMedia s _).mono (by simp)).trans (k.frame.mono (by simp))
  have hdec : (s.patrolReads d p).decoder (d.val / 128) = s.decoder (d.val / 128) :=
    State.decoder_congr k.media.ldpc (hf .now (by simp)) (hf .power (by simp)) _
  have hwait : (s.patrolReads d p).decodesWaiting (d.val / 128) = s.decodesWaiting (d.val / 128) := State.decodesWaiting_congr (hf .pending (by simp)) _
  rw [State.ladderDecode_hard, State.decodeSlots_taken (by rw [hdec, hwait]; exact h)]
  exact ⟨hf.trans ((frame_modMedia _ _).mono (by simp)), otherDies_patrolReads s d p, k.media.map, k.media.patrolled ▸ Tab.find_put_self _ _ _⟩

theorem exec_patrol_hard (s : State) (d : DieNo) (p : Nat) (heavy : Bool) :
    exec (.patrol d p heavy .hard []) s = .next (if heavy then ((s.patrolReads d p).ladderDecode d.val .system .hard).modMedia (fun m => m.needReloc p)
      else (s.patrolReads d p).ladderDecode d.val .system .hard) := by
  change execPatrol d p heavy .hard [] s = _
  simp only [execPatrol, State.ladderDone_hard, ne_eq, not_true_eq_false, and_false, if_false]
  rfl

theorem exec_patrol_refined {s : State} {d : DieNo} {p : Nat} {n : PlaneNo} {m : BMode} {b : Fin 8} {bs : List Byte} {u : State}
    (hu : (s.patrolReads d p).ladderDecode d.val .system .hard = u) (hcal : bitOf u.power.mediaPolicy.toNat 16 = true) :
    exec (.patrol d p false .hard [(n, m, b, bs)]) s = .next ((u.modMedia (fun y => { y with
      offsets := keepThree ((offsetKey d.val n.val b.val, m, b.val, bs) :: y.offsets) []
      offsetsOn := y.offsetsOn.filter (fun y => [(n, m, b, bs)].all (fun x => !(d.val * 4 + x.1.val = y.1 && x.2.1 = y.2.1))) })).policyActed 3 d.val 1) := by
  subst hu
  change execPatrol d p false .hard [(n, m, b, bs)] s = _
  simp only [execPatrol, State.ladderDone_hard, Bool.false_eq_true, if_false]
  exact if_pos ⟨hcal, by simp⟩

/-- Sets kept stay, before any that follow (02 R74, R76). -/
theorem keepThree_extends (xs kept : List (Nat × BMode × Nat × List Byte)) : ∃ rest, keepThree xs kept = kept ++ rest := by
  induction xs generalizing kept with
  | nil => exact ⟨[], (List.append_nil _).symm⟩
  | cons x xs ih =>
    unfold keepThree
    split
    · obtain ⟨rest, h⟩ := ih (kept ++ [x])
      exact ⟨x :: rest, by rw [h, List.append_assoc]; rfl⟩
    · exact ih kept

/-- The set refined last is the first of its die, plane, bin and mode. -/
theorem find?_keepThree_cons (x : Nat × BMode × Nat × List Byte) (xs : List (Nat × BMode × Nat × List Byte)) :
    (keepThree (x :: xs) []).find? (fun y => y.1 = x.1 ∧ y.2.1 = x.2.1) = some x := by
  obtain ⟨rest, h⟩ := keepThree_extends xs [x]
  have h : keepThree (x :: xs) [] = x :: rest := h
  simp [h]

/-- A mapped stripe that asks for relocation is listed (02 R77). -/
theorem Media.needReloc_lists {m : Media} {p l : Nat} {e : MapEntry} (h : m.map.find? (fun e => e.2.pstripe = p) = some (l, e)) : l ∈ (m.needReloc p).relocNeeded := by
  simp only [Media.needReloc, h]
  split
  · assumption
  · simp

/-! ## Rebuild (02 R80). -/

theorem State.rebuildShares_ok (s : State) (g : Nat) (b : Bool) :
    (∃ x, (s.rebuildShares g b).media = { s.media with ldpc := x }) ∧ Frame [.media, .events] s (s.rebuildShares g b) := by
  unfold State.rebuildShares
  dsimp only
  split
  · exact ⟨⟨_, rfl⟩, (frame_modMedia s _).mono (by simp)⟩
  · exact ⟨⟨_, rfl⟩, by intro p hp; cases p <;> simp [Part.same] at hp ⊢⟩

/-- The MAP_SET with which a stripe's REBUILD changes: recorded where the stripe is mapped. -/
theorem Media.records_markRebuild (m : Media) (now p member : Nat) (b : Bool) :
    ∃ rest, Media.Records m (m.markRebuild now p member b) rest ∧ (m.markRebuild now p member b).rebuilding = m.rebuilding ∧
      ∀ l e, m.map.find? (fun e => e.2.pstripe = p) = some (l, e) → m.logs = [] →
        ∃ w, rest = [⟨m.jNext, .mapSet, l, w, p + member * 2 ^ 20⟩] ∧ (p < 2 ^ 20 ∧ e.owner < 32 ∧ e.ostripe < 2 ^ 19 → mapEntryOf w = { e with rebuild := b }) := by
  unfold Media.markRebuild
  split
  · rename_i h
    exact ⟨[], Media.Records.refl m, rfl, fun l e he => by rw [h] at he; cases he⟩
  · rename_i l e h
    refine ⟨_, m.records_journal now .mapSet l _ _, rfl, fun l' e' he hlogs => ?_⟩
    rw [h] at he
    cases he
    have hp : e.pstripe = p := by simpa using List.find?_some h
    have hl : m.logsOf l = [] := by simp [Media.logsOf, hlogs, sortBy]
    refine ⟨_, rfl, fun ⟨h1, h2, h3⟩ => ?_⟩
    rw [hl]
    exact mapEntryOf_word (hp ▸ h1) (by decide) (by decide) h2 h3

end Sys2Proof.Machine

namespace Sys2Proof.Machine

/-- A rebuild begun: its substitute recorded, its member listed and its stripe marked. -/
def Media.beginRebuild (m : Media) (now p : Nat) (k j : Fin 16) (b : Nat) : Media :=
  { m.journal now .substitute 0xFFFFFFFF (j.val + b * 16) (p + k.val * 2 ^ 20) with rebuilding := ⟨p, k.val, 0, 0⟩ :: m.rebuilding }.markRebuild now p k.val true

theorem exec_rebuild_begins {s : State} {p : Nat} {m j : Fin 16} {b : Nat} (hret : (p, m.val) ∈ s.media.retired) (hsub : s.media.substituted p m.val = false)
    (hnone : ∀ y ∈ s.media.rebuilding, ¬ (y.p = p ∧ y.member = m.val))
    (hleast : s.media.leastBlock ((s.media.blockOf p m.val).1 / 16) { (s.media.blockOf p m.val).2 with block := b } j.val = true)
    (hfree : s.media.blockFree ((s.media.blockOf p m.val).1 / 16 * 16 + j.val) { (s.media.blockOf p m.val).2 with block := b } = true) :
    exec (.rebuild p m j b) s = .next ((s.modMedia (fun y => y.beginRebuild s.now p m j b)).rebuildShares ((s.media.blockOf p m.val).1 / 128) true) := by
  have hfind : s.media.rebuilding.find? (fun x => x.p = p && x.member = m.val) = none := by simpa using hnone
  change execRebuild p m j b s = _
  simp only [execRebuild, hfind]
  exact if_pos ⟨hret, hsub, hleast, hfree⟩

/-- A rebuild ended: its member is listed no more, and its stripe is no longer marked if no other member of it is being rebuilt. -/
def Media.endRebuild (m : Media) (now p : Nat) (k : Fin 16) : Media :=
  let m := { m with rebuilding := m.rebuilding.filter (fun y => !(y.p = p && y.member = k.val)) }
  if m.rebuilding.any (fun y => y.p = p) then m else m.markRebuild now p k.val false

theorem exec_rebuild_ends {s : State} {p : Nat} {m : Fin 16} {x : Rebuild} (j : Fin 16) (b : Nat)
    (hx : s.media.rebuilding.find? (fun x => x.p = p && x.member = m.val) = some x) (hsub : s.media.substituted p m.val = true) (hdone : s.unitsLost p m.val ≤ x.okd) :
    ∃ c, exec (.rebuild p m j b) s = .next ((s.modMedia (fun _ => s.media.endRebuild s.now p m)).rebuildShares ((s.media.blockOf p m.val).1 / 128) c) := by
  change ∃ c, execRebuild p m j b s = _
  simp only [execRebuild, hx, hsub, hdone, and_self, if_true, Media.endRebuild]
  by_cases hany : (s.media.rebuilding.filter (fun y => !(y.p = p && y.member = m.val))).any (fun y => y.p = p) = true
  · simp only [State.modMedia_media, hany, if_true]
    exact ⟨_, rfl⟩
  · simp only [State.modMedia_media, hany]
    exact ⟨_, rfl⟩

/-- The last member of a stripe that is being rebuilt is done: the stripe is rebuilding no more, and its MAP_SET is recorded where it is mapped. -/
theorem Media.records_endRebuild (m : Media) (now : Nat) {p : Nat} {k : Fin 16} (h : ∀ y ∈ m.rebuilding, y.p = p → y.member = k.val) :
    ∃ rest, (m.endRebuild now p k).jPend = m.jPend ++ rest ∧ (∀ y ∈ (m.endRebuild now p k).rebuilding, y.p ≠ p) ∧
      ∀ l e, m.map.find? (fun e => e.2.pstripe = p) = some (l, e) → m.logs = [] →
        ∃ w, rest = [⟨m.jNext, .mapSet, l, w, p + k.val * 2 ^ 20⟩] ∧ (p < 2 ^ 20 ∧ e.owner < 32 ∧ e.ostripe < 2 ^ 19 → mapEntryOf w = { e with rebuild := false }) := by
  have hnone : ∀ y ∈ m.rebuilding.filter (fun y => !(y.p = p && y.member = k.val)), y.p ≠ p := fun y hy hp => by
    obtain ⟨hmem, hkept⟩ := List.mem_filter.mp hy
    simp [hp, h y hmem hp] at hkept
  have hany : ¬ (m.rebuilding.filter (fun y => !(y.p = p && y.member = k.val))).any (fun y => y.p = p) = true := by
    simpa only [List.any_eq_true, decide_eq_true_eq, not_exists, not_and] using hnone
  obtain ⟨rest, hrest, hlist, hword⟩ := Media.records_markRebuild { m with rebuilding := m.rebuilding.filter (fun y => !(y.p = p && y.member = k.val)) } now p k.val false
  rw [Media.endRebuild, if_neg hany]
  exact ⟨rest, hrest.jPend, fun y hy => hnone y (by rw [hlist] at hy; exact hy), hword⟩

theorem exec_rebuild_waits {s : State} {p : Nat} {m : Fin 16} {x : Rebuild} (j : Fin 16) (b : Nat)
    (hx : s.media.rebuilding.find? (fun x => x.p = p && x.member = m.val) = some x) (hleft : x.okd < s.unitsLost p m.val) : exec (.rebuild p m j b) s = .next s := by
  change execRebuild p m j b s = _
  simp only [execRebuild, hx]
  exact if_neg (fun h => absurd h.2 (by omega))

/-- A checkpoint that begins changes its own tables alone. -/
theorem Media.checkpointIfDue_eq (m : Media) (now : Nat) : m.checkpointIfDue now =
    { m with cpNum := (m.checkpointIfDue now).cpNum, cpAt := (m.checkpointIfDue now).cpAt, cpBuild := (m.checkpointIfDue now).cpBuild } := by
  unfold Media.checkpointIfDue
  split <;> rfl

/-- Settles O39: each step is computed once; one slot taken is one of those left, reads keep the tables they do not name, and a map word reads back as its entry. -/
theorem mediaUpkeep : Obligations.MediaUpkeep := by
  refine ⟨?hard, ?failed, ?suspends, ?noneWaits, ?noSuspend, ?resumes, ?windowOver, ?weak, ?refined, ?rebuildBegins, ?rebuildEnds, ?rebuildWaits, ?target⟩
  case hard =>
    intro s d c o xs x h
    exact ⟨_, exec_ldpcDecode_hard o xs h, rfl, Ldpc.slots_take_one h, frame_modMedia s _⟩
  case failed =>
    intro s d c o x
    exact ⟨_, rfl, State.uncorrectable_lists _ o x⟩
  case suspends =>
    intro s d o hw ho hk hu hst ht
    rw [exec_suspendForRead, if_pos hw, State.suspendFor_running ho hk hu hst ht]
    exact ⟨_, rfl, State.die_setDie_self s d _, ⟨_, List.mem_cons_self, rfl, rfl⟩, otherDies_setDie s d _,
      ((frame_setDie s d _).mono (by simp)).trans ((frame_modMedia _ _).mono (by simp))⟩
  case noneWaits =>
    intro s d hw
    rw [exec_suspendForRead, hw]
    rfl
  case noSuspend =>
    intro s d o ho h
    rw [exec_suspendForRead, State.suspendFor_not ho h, ite_self]
  case resumes =>
    intro s d hw hst hy
    exact ⟨_, exec_resumeAfterReads hw hst hy, (s.resumed_ok d).2⟩
  case windowOver =>
    intro s d y hw hst hy
    obtain ⟨hnow, hdie, hsusp, hother, hframe⟩ := (s.at_ y.until_).resumed_ok d
    exact ⟨_, exec_resumeAfterReads_late hw hst hy, hnow, hnow ▸ hdie, hsusp, hother, ((frame_atTime s y.until_).mono (by simp)).trans (hframe.mono (by simp))⟩
  case weak =>
    intro s d p l e x hx hl
    have k := State.patrol_decodes p hx
    refine ⟨_, exec_patrol_hard s d p true, ?_⟩
    rw [if_pos rfl]
    generalize (s.patrolReads d p).ladderDecode d.val .system .hard = u at k
    have hread := Media.afterReads_needReloc u.media p
    exact ⟨by rw [State.modMedia_media, hread.patrolled]; exact k.noted, Media.needReloc_lists (k.map.symm ▸ hl), hread.map.trans k.map, k.others,
      k.frame.trans ((frame_modMedia u _).mono (by simp))⟩
  case refined =>
    intro s d p n m b bs x hx hcal
    obtain ⟨u, hu⟩ : ∃ u, (s.patrolReads d p).ladderDecode d.val .system .hard = u := ⟨_, rfl⟩
    have k := State.patrol_decodes p hx
    rw [hu] at k
    have hpower : u.power = s.power := k.frame .power (by simp)
    refine ⟨_, exec_patrol_refined hu (by rw [hpower]; exact hcal), find?_keepThree_cons (offsetKey d.val n.val b.val, m, b.val, bs) _, (k.frame.mono (by simp)).trans ?_⟩
    intro q hq
    cases q <;> simp [Part.same] at hq ⊢
  case rebuildBegins =>
    intro s p m j b hret hsub hnone hleast hfree
    obtain ⟨rest, hrest, hlist, hword⟩ := Media.records_markRebuild
      { s.media.journal s.now .substitute 0xFFFFFFFF (j.val + b * 16) (p + m.val * 2 ^ 20) with rebuilding := ⟨p, m.val, 0, 0⟩ :: s.media.rebuilding } s.now p m.val true
    obtain ⟨⟨y, hy⟩, hframe⟩ := (s.modMedia (fun y => y.beginRebuild s.now p m j b)).rebuildShares_ok ((s.media.blockOf p m.val).1 / 128) true
    refine ⟨_, rest, exec_rebuild_begins hret hsub hnone hleast hfree, ?_, ?_, hword, ?_, ((frame_modMedia s _).mono (by simp)).trans hframe⟩ <;> rw [hy]
    · exact hlist.symm ▸ List.mem_cons_self
    · exact hrest.jPend.trans (by simp [Media.journal])
    · exact hrest.map
  case rebuildEnds =>
    intro s p m j b x hx hsub hdone hall
    obtain ⟨rest, hrest, hnone, hword⟩ := s.media.records_endRebuild s.now hall
    obtain ⟨c, hc⟩ := exec_rebuild_ends j b hx hsub hdone
    obtain ⟨⟨y, hy⟩, hframe⟩ := (s.modMedia (fun _ => s.media.endRebuild s.now p m)).rebuildShares_ok ((s.media.blockOf p m.val).1 / 128) c
    refine ⟨_, rest, hc, ?_, ?_, hword, ((frame_modMedia s _).mono (by simp)).trans hframe⟩ <;> rw [hy]
    · exact hnone
    · exact hrest
  case rebuildWaits =>
    intro s p m j b x hx hleft
    exact exec_rebuild_waits j b hx hleft
  case target =>
    intro s
    obtain ⟨t, ht, hm, hf⟩ := exec_veneerTarget s
    obtain ⟨rs, hrs, _⟩ := s.targetSet_records
    have hc := s.targetSet.checkpointIfDue_eq s.now
    exact ⟨t, ht, (congrArg Media.veneerTarget hm :).trans ((congrArg Media.veneerTarget hc :).trans (congrArg Media.veneerTarget hrs :)),
      (congrArg Media.veneerStripes hm :).trans ((congrArg Media.veneerStripes hc :).trans (congrArg Media.veneerStripes hrs :)),
      (congrArg Media.veneer hm :).trans ((congrArg Media.veneer hc :).trans hrs.veneer), (congrArg Media.map hm :).trans ((congrArg Media.map hc :).trans hrs.map), hf⟩

end Sys2Proof.Machine

/-! # Commands that wait, succeed and fail (12 R384, R387, R394) -/

namespace Sys2Proof.Machine

/-! ## Replies. -/

/-- A reply from a state whose host differs in host memory alone. -/
theorem replied_of_hostMem {s u t : State} {id : Nat} {c : Cmd} {x : Reply} (h : Replied u t id c x) (hu : ∃ m, u.host = { s.host with hostMem := m }) : Replied s t id c x := by
  obtain ⟨m, hm⟩ := hu
  have hcmd : ∀ j, u.cmd? j = s.cmd? j := fun j => by rw [State.cmd?, hm]; rfl
  have hport : ∀ p, u.port p = s.port p := fun p => by cases p <;> simp [State.port, hm]
  have hring : ∀ p r, u.ring? p r = s.ring? p r := fun p r => by rw [State.ring?, hport]; rfl
  exact {
    gone := h.gone
    held := fun g hg => h.held g ((hring _ _).trans hg)
    rings := fun p r hpr => (h.rings p r hpr).trans (hring p r)
    cmds := fun j hj => (h.cmds j hj).trans (hcmd j)
    revoked := h.revoked
    port := hport c.port ▸ h.port
    other := h.other.trans (hport _)
    rest := h.rest.trans (by rw [hm]) }

section
variable {s u : State} {id : Nat} {c : Cmd} {ks : List Part}

theorem frame_completeWith {st : Status} (flags : Nat) (res : List Byte) (h : s.cmd? id = some c) (hq : (c.opcode ≠ 0x0401 ∧ c.opcode ≠ 0x0402) ∨ st = .success)
    (hc : st ≠ .checkFailed) : Frame [.host, .media] s (s.completeWith id st flags res) := by
  rw [State.completeWith_eq s id c st flags res h, if_neg hc, State.spoiled_eq s c st hq]
  intro p hp
  cases p <;> simp [Part.same] at hp ⊢

theorem State.cmd?_of_hostMem (h : s.cmd? id = some c) (hu : ∃ m, u.host = { s.host with hostMem := m }) : u.cmd? id = some c := by
  obtain ⟨m, hm⟩ := hu
  rw [State.cmd?, hm]
  exact h

/-- A command succeeds after changes that leave the host, but for its memory, alone. -/
theorem succeeded_of (res : List Byte) (h : s.cmd? id = some c) (hu : ∃ m, u.host = { s.host with hostMem := m }) (hf : Frame (.host :: .media :: ks) s u) :
    Succeeded ks s (u.succeed id res) id c res :=
  have hc := State.cmd?_of_hostMem h hu
  ⟨replied_of_hostMem (u.completeWith_replied id c .success 0 res hc) hu, hf.trans ((frame_completeWith 0 res hc (.inr rfl) (by decide)).mono (by simp))⟩

theorem State.succeed_media (res : List Byte) (h : s.cmd? id = some c) : (s.succeed id res).media = s.media.endCmd id := s.completeWith_media id c .success 0 res h

theorem State.succeed_hostMem (s : State) (id : Nat) (res : List Byte) : (s.succeed id res).host.hostMem = s.host.hostMem :=
  s.completeWith_hostMem id .success 0 res (fun _ _ => .inr rfl)

theorem State.succeed_health (s : State) (id : Nat) (res : List Byte) : (s.succeed id res).health = s.health :=
  s.completeWith_health id .success 0 res (by decide)

/-- A command that succeeds as it stands. -/
theorem succeeded_self (res : List Byte) (h : s.cmd? id = some c) :
    Succeeded [] s (s.succeed id res) id c res ∧ (s.succeed id res).media = s.media.endCmd id ∧ HostSame s (s.succeed id res) :=
  ⟨succeeded_of res h ⟨_, rfl⟩ (Frame.refl _ s), State.succeed_media res h, s.succeed_hostMem id res⟩

theorem failed_self {st : Status} (h : s.cmd? id = some c) (hq : c.opcode ≠ 0x0401 ∧ c.opcode ≠ 0x0402) (hc : st ≠ .checkFailed) : Failed s (s.fail id st) id c st :=
  ⟨s.completeWith_replied id c st 0 [] h, s.completeWith_hostMem id st 0 [] (fun d hd => by rw [h] at hd; cases hd; exact .inl hq),
    frame_completeWith 0 [] h (.inl hq) hc⟩

/-! ## Stages. -/

theorem State.cmd?_modCmd_self (f : Cmd → Cmd) (h : s.cmd? id = some c) : (s.modCmd id f).cmd? id = some (f c) := by
  have h : Tab.find s.host.cmds id = some c := h
  exact (Tab.find_change_self _ _ _).trans (by rw [h]; rfl)

theorem State.cmd?_modCmd_ne (s : State) {id j : Nat} (f : Cmd → Cmd) (hj : j ≠ id) : (s.modCmd id f).cmd? j = s.cmd? j := Tab.find_change_ne _ _ hj

theorem frame_modCmd (s : State) (id : Nat) (f : Cmd → Cmd) : Frame [.host] s (s.modCmd id f) := by intro p hp; cases p <;> simp [Part.same] at hp ⊢

/-- A command takes another stage after changes that leave the host alone. -/
theorem waits_stage (n : Nat) (aux : List Nat) (h : s.cmd? id = some c) (hu : u.host = s.host) (hf : Frame ks s u) :
    Waits ks s (u.stage id n aux) id { c with stage := n, aux := aux } where
  there := State.cmd?_modCmd_self _ (by rw [State.cmd?, hu]; exact h)
  cmds j hj := (State.cmd?_modCmd_ne u _ hj).trans (by rw [State.cmd?, hu]; rfl)
  host := by
    rw [← hu]
    rfl
  frame := (hf.mono (by simp)).trans ((frame_modCmd u id _).mono (by simp))

end

end Sys2Proof.Machine

namespace Sys2Proof

open Machine

/-! ## A command that runs. -/

theorem Runs.cmd? {s : State} {id op : Nat} {c : Cmd} (h : Runs s id op c) : s.cmd? id = some c := State.cmd?_of_acting h.1

theorem Runs.opcode {s : State} {id op : Nat} {c : Cmd} (h : Runs s id op c) : c.opcode = op := by
  obtain ⟨ha, -, -⟩ := h
  unfold State.acting at ha
  split at ha
  · split at ha
    · rename_i hop
      cases ha
      exact hop.1
    · cases ha
  · cases ha

theorem Runs.checked {s : State} {id op : Nat} {c : Cmd} (h : Runs s id op c) (go : State → State) : s.checked c none go = go s := s.checked_go c go h.2.2

end Sys2Proof

/-! # Volumes and their sectors (02 R54, R58, R83, R84, R87; 13 R423 to R426) -/

namespace Sys2Proof.Machine

/-! ## The length of a sector (02 R85). -/

theorem zeros_length (n : Nat) : (zeros n).length = n := List.length_replicate

theorem leBytes_length (n x : Nat) : (leBytes n x).length = n := by
  induction n generalizing x with
  | zero => rfl
  | succ n ih => simp [leBytes, ih]

theorem Mem.read_length (d : Byte) (m : Mem) (a n : Nat) : (Mem.read d m a n).length = n := by simp [Mem.read]

theorem length_flatten_le {α : Type} (k : Nat) (ls : List (List α)) (h : ∀ l ∈ ls, l.length ≤ k) : ls.flatten.length ≤ ls.length * k := by
  induction ls with
  | nil => simp
  | cons l ls ih =>
    rw [List.forall_mem_cons] at h
    have := ih h.2
    rw [List.flatten_cons, List.length_append, List.length_cons, Nat.succ_mul]
    omega

/-- One block of a data unit, onto those before it, with the tweak of the next. -/
def xtsBlock (block : List Byte → List Byte) (r : List (List Byte) × Nat) (b : List Byte) : List (List Byte) × Nat :=
  (xorBytes (block (xorBytes b (leBytes 16 r.2))) (leBytes 16 r.2) :: r.1, xtsNext r.2)

theorem xtsUnit_eq (block : List (List Byte) → List Byte → List Byte) (key : List Byte) (number : Nat) (data : List Byte) :
    xtsUnit block key number data = ((chunksOf 16 data).foldl (xtsBlock (block (aesKeys (key.take 32))))
      ([], leNat (aesEncrypt (aesKeys (key.drop 32)) (leBytes 16 number)))).1.reverse.flatten := rfl

/-- Every block of a data unit is cut at its mask of 16 bytes. -/
theorem foldl_xtsBlock (block : List Byte → List Byte) (bs : List (List Byte)) (r : List (List Byte) × Nat) (h : ∀ l ∈ r.1, l.length ≤ 16) :
    (bs.foldl (xtsBlock block) r).1.length = r.1.length + bs.length ∧ ∀ l ∈ (bs.foldl (xtsBlock block) r).1, l.length ≤ 16 := by
  induction bs generalizing r with
  | nil => exact ⟨rfl, h⟩
  | cons b bs ih =>
    obtain ⟨hlen, hle⟩ := ih (xtsBlock block r b) (List.forall_mem_cons.mpr ⟨by simp [xorBytes, leBytes_length], h⟩)
    refine ⟨?_, hle⟩
    rw [List.foldl_cons, hlen, xtsBlock, List.length_cons, List.length_cons]
    omega

theorem xtsUnit_length_le (block : List (List Byte) → List Byte → List Byte) (key : List Byte) (number : Nat) (data : List Byte) :
    (xtsUnit block key number data).length ≤ ceilDiv data.length 16 * 16 := by
  rw [xtsUnit_eq]
  obtain ⟨hlen, hle⟩ := foldl_xtsBlock (block (aesKeys (key.take 32))) (chunksOf 16 data) ([], leNat (aesEncrypt (aesKeys (key.drop 32)) (leBytes 16 number))) (by simp)
  refine (length_flatten_le 16 _ (fun l hl => hle l (List.mem_reverse.mp hl))).trans_eq ?_
  rw [List.length_reverse, hlen]
  simp [chunksOf]

theorem SecCopy.sealed_length_le (c : SecCopy) : c.sealed.length ≤ 4096 := by
  have hplain : (if c.zero then zeros 4096 else Mem.read 0 c.data 0 4096).length = 4096 := by split <;> simp only [zeros_length, Mem.read_length]
  unfold SecCopy.sealed
  cases c.key with
  | none => exact hplain.le
  | some k => exact (xtsUnit_length_le _ _ _ _).trans_eq (by rw [hplain]; rfl)

theorem SecCopy.opened_length_le (c : SecCopy) (key : Option Nat) : (c.opened key).length ≤ 4096 := by
  unfold SecCopy.opened
  split
  · exact (Mem.read_length _ _ _ _).le
  · cases key with
    | none => exact c.sealed_length_le
    | some k =>
      refine (xtsUnit_length_le _ _ _ _).trans ?_
      have := c.sealed_length_le
      simp only [ceilDiv]
      omega

theorem Media.sector_length_le (m : Media) (o : Owner) (x : Nat) : (m.sector o x).length ≤ 4096 := by
  unfold Media.sector
  split
  · split
    · exact (zeros_length _).le
    · exact SecCopy.opened_length_le _ _
  · exact (zeros_length _).le

/-- The bytes of n sectors fit a buffer of n sectors. -/
theorem Media.sectors_length_le (m : Media) (o : Owner) (first n : Nat) : ((List.range n).flatMap (fun i => m.sector o (first + i))).length ≤ n * 4096 := by
  refine (length_flatten_le 4096 _ (fun l hl => ?_)).trans_eq (by simp)
  obtain ⟨i, _, rfl⟩ := List.mem_map.mp hl
  exact m.sector_length_le o _

end Sys2Proof.Machine

namespace Sys2Proof.Machine

/-! ## The checks of a command on a volume (13 R423, R424; 17 R545). -/

theorem State.volumeError_none {s : State} {c : Cmd} {v : Nat} {x : Volume} (h : Tab.find s.media.volumes v = some x) (hg : c.volGone = false) (hl : s.volLocked v = false) :
    s.volumeError c v 0 0 = none := by
  simp [State.volumeError, h, hg, hl]

/-! ## VOLUME_CREATE (13 R423; 17 R540). -/

theorem exec_volumeCreate_new {s : State} {id : Nat} {c : Cmd} (hr : Runs s id 0x010A c) (h0 : c.stage = 0)
    (he : s.earlierOn c c.object (fun op => op = 0x010B || op = 0x0204) = false) (hl : s.volLocked c.object = false) (hv : Tab.find s.media.volumes c.object = none)
    (hm : ∀ e ∈ s.media.map, e.2.owner ≠ c.object) :
    exec (.volumeCreate id) s = .next ((s.modMedia (fun m => { m with volumes := Tab.put m.volumes c.object ⟨c.field 0x10 8, m.keys⟩, keys := m.keys + 1 })).secure.stage id 1
      [s.sec.pages.seq + 1]) := by
  have hmap : s.media.map.any (fun e => e.2.owner = c.object) = false := by simpa using hm
  change execVolumeCreate id s = _
  simp only [execVolumeCreate, hr.1, h0, he, hl, hmap, Tab.has_eq, hv, hr.checked, Nat.zero_ne_one, if_false, Bool.false_eq_true, and_false, or_false, Option.isSome_none]
  rfl

theorem exec_volumeCreate_secured {s : State} {id : Nat} {c : Cmd} (hr : Runs s id 0x010A c) (h1 : c.stage = 1) (hs : s.secured (c.aux.headD 0) = true) :
    exec (.volumeCreate id) s = .next (s.succeed id []) := by
  change execVolumeCreate id s = _
  simp only [execVolumeCreate, hr.1, h1, hs, if_true]

/-! ## VOLUME_DELETE (02 R87; 13 R423; 17 R549). -/

theorem mem_append_filter_not {l a : List Nat} {k : Nat} (h : k ∈ l) : k ∈ a ++ l.filter (fun x => x ∉ a) := by
  by_cases ha : k ∈ a <;> simp [ha, h]

theorem Media.abandonReloc_rest (m : Media) (l : Nat) : m.abandonReloc l = { m with relocs := (m.abandonReloc l).relocs, toErase := (m.abandonReloc l).toErase } := by
  unfold Media.abandonReloc
  split <;> rfl

/-- Relocations given up one by one leave all but the relocations and the stripes to erase. -/
theorem Media.foldl_abandonReloc (rs : List Reloc) (m : Media) : ∃ x y, rs.foldl (fun (m : Media) r => m.abandonReloc r.lstripe) m = { m with relocs := x, toErase := y } := by
  induction rs generalizing m with
  | nil => exact ⟨_, _, rfl⟩
  | cons r rs ih =>
    obtain ⟨x, y, h⟩ := ih (m.abandonReloc r.lstripe)
    refine ⟨x, y, h.trans ?_⟩
    rw [m.abandonReloc_rest r.lstripe]

/-- An owner's MAP_CLEARs recorded: a record for each mapped stripe, after its early relocations are given up and its stripes doomed (02 R70, R87). -/
theorem Media.records_clearOwner (m : Media) (now : Nat) (o : Owner) :
    ∃ x y z rs, Media.Records { m with relocs := x, toErase := y, doomed := z } (m.clearOwner now o) rs ∧
      ∀ e ∈ m.map, e.2.owner = o → ∃ r ∈ rs, r.type = .mapClear ∧ r.lstripe = e.1 := by
  unfold Media.clearOwner
  dsimp only
  obtain ⟨x, y, h⟩ := Media.foldl_abandonReloc
    ((Tab.vals m.relocs).filter (fun r => r.owner = o && (r.step = .opening || r.step = .opened || r.step = .copying || r.step = .copied))) m
  rw [h]
  obtain ⟨rs, hrs, _, hof, _⟩ := Media.records_foldl (fun l (r : JRecord) => r.type = .mapClear ∧ r.lstripe = l) (fun (m : Media) l => m.journal now .mapClear l 0 0)
    (fun m l => ⟨_, m.records_journal now .mapClear l 0 0, rfl, rfl⟩) ((m.map.filter (fun e => e.2.owner = o)).map (·.1)) _
  exact ⟨_, _, _, rs, hrs, fun e he ho => hof e.1 (List.mem_map.mpr ⟨e, List.mem_filter.mpr ⟨he, by simpa using ho⟩, rfl⟩)⟩

theorem exec_volumeDelete_destroys {s : State} {id : Nat} {c : Cmd} {v : Volume} (hr : Runs s id 0x010B c) (h0 : c.stage = 0) (hv : Tab.find s.media.volumes c.object = some v)
    (hg : c.volGone = false) (hl : s.volLocked c.object = false) (he : s.earlierOn c c.object (fun _ => true) = false) :
    exec (.volumeDelete id) s = .next (((s.cryptoErase c.object).modMedia (fun m => { m with volumes := Tab.del m.volumes c.object })).stage id 2
      [((s.cryptoErase c.object).modMedia (fun m => { m with volumes := Tab.del m.volumes c.object })).media.jNext - 1, s.sec.pages.seq + 1]) := by
  have h2 : ¬ (0 : Nat) = 2 := by decide
  change execVolumeDelete id s = _
  simp only [execVolumeDelete, hr.1, h0, h2, if_false, if_true, State.volumeError_none hv hg hl, hr.checked, he, Bool.false_eq_true]
  rfl

theorem exec_volumeDelete_gone {s : State} {id : Nat} {c : Cmd} (hr : Runs s id 0x010B c) (h2 : c.stage = 2) (hd : c.aux.headD 0 ≤ s.media.jDone)
    (hk : s.keysGone (c.aux.getD 1 0) = true) : exec (.volumeDelete id) s = .next (s.succeed id []) := by
  change execVolumeDelete id s = _
  simp only [execVolumeDelete, hr.1, h2, hd, hk, and_self, if_true]

/-! ## READ (02 R54; 13 R424, R425). -/

/-- The pages a READ's sectors lie in. -/
def State.readPages (s : State) (c : Cmd) : List (Nat × Nat × Nat) := s.media.spotsOf c.object ((List.range (c.field 0x18 4)).map (c.field 0x10 8 + ·))

/-- A READ whose sectors can all be read: its pages are read, what step 3 of R74 gives is counted, and the sectors go to the host. -/
def State.readOut (s : State) (c : Cmd) : State :=
  let k := s.media.rebuiltReads c.object ((List.range (c.field 0x18 4)).map (c.field 0x10 8 + ·))
  (((s.readSpots (s.readPages c)).count 8 k).count 9 k).hostWrite c.port (c.field 0x20 8)
    ((List.range (c.field 0x18 4)).flatMap (fun i => s.media.sector c.object (c.field 0x10 8 + i)))

theorem State.spend_zero (s : State) : s.spend 0 = s := rfl

theorem exec_read_succeeds {s : State} {id : Nat} {c : Cmd} (hr : Runs s id 0x0201 c) (hf : s.flushWaits c c.object = false)
    (hv : s.volumeError c c.object (c.field 0x10 8) (c.field 0x18 4) = none) (hl : c.field 0x1C 4 = 0)
    (ht : ∀ i < c.field 0x18 4, s.media.twiceLost c.object (c.field 0x10 8 + i) = false) (hs : s.spotsReady true (s.readPages c) = true) :
    exec (.read id [] false) s = .next ((s.readOut c).succeed id (resultAt [(0x0C, 4, c.field 0x18 4)])) := by
  have hok : s.readListOk c = true := by simp [State.readListOk, hl]
  have hlist : ∀ t : State, t.readList c = [(c.field 0x20 8, c.field 0x18 4 * 4096)] := fun t => by simp [State.readList, hl]
  have hgone : ((List.range (c.field 0x18 4)).map (c.field 0x10 8 + ·)).filter (s.media.twiceLost c.object) = [] := by
    simpa [List.filter_eq_nil_iff] using ht
  have hbytes := List.take_of_length_le (s.media.sectors_length_le c.object (c.field 0x10 8) (c.field 0x18 4))
  have hs : s.spotsReady true (s.media.spotsOf c.object ((List.range (c.field 0x18 4)).map (c.field 0x10 8 + ·))) = true := hs
  change execRead id [] false s = _
  simp only [execRead, hr.1, hf, hv, hok, hs, hr.checked, hlist, hgone, if_true, if_false, Bool.false_eq_true, Option.isNone_none, Bool.not_true, Bool.not_false, and_false,
    List.filter_nil, List.append_nil, List.dedup_nil, sortBy, List.foldl_nil, List.isEmpty_nil, State.scatter, State.readBytes, List.not_mem_nil, hbytes, State.spend_zero]
  simp only [State.readOut, State.readPages]

theorem exec_read_waits {s : State} {id : Nat} {c : Cmd} (bad : List Nat) (hr : Runs s id 0x0201 c) (hf : s.flushWaits c c.object = false)
    (hv : s.volumeError c c.object (c.field 0x10 8) (c.field 0x18 4) = none) (hok : s.readListOk c = true) (hs : s.spotsReady true (s.readPages c) = false) :
    exec (.read id bad false) s = .next s := by
  have hs : s.spotsReady true (s.media.spotsOf c.object ((List.range (c.field 0x18 4)).map (c.field 0x10 8 + ·))) = false := hs
  change execRead id bad false s = _
  simp only [execRead, hr.1, hf, hv, hok, hs, if_true, if_false, Bool.false_eq_true, Option.isNone_none, Bool.not_false, and_self]

theorem exec_read_fault {s : State} {id : Nat} {c : Cmd} (bad : List Nat) (hr : Runs s id 0x0201 c) (hf : s.flushWaits c c.object = false)
    (hv : s.volumeError c c.object (c.field 0x10 8) (c.field 0x18 4) = none) (hok : s.readListOk c = true) : exec (.read id bad true) s = .next (s.fail id .mediaFault) := by
  change execRead id bad true s = _
  simp only [execRead, hr.1, hf, hv, hok, hr.checked, if_true, if_false, Bool.false_eq_true, Bool.not_true, false_and, and_false]

/-- What a READ changes beside host memory. -/
theorem State.readOut_ok (s : State) (c : Cmd) :
    (s.readOut c).host = { s.host with hostMem := (s.readOut c).host.hostMem } ∧ Frame [.host, .media, .dies, .health] s (s.readOut c) ∧
      HostHolds s (s.readOut c) c.port (c.field 0x20 8) ((List.range (c.field 0x18 4)).flatMap (fun i => s.media.sector c.object (c.field 0x10 8 + i))) ∧
      (∀ d : DieNo, ((s.readOut c).die d).cells = (s.die d).cells) ∧ (s.readOut c).health = { s.health with counts := (s.readOut c).health.counts } := by
  have k := readsPages_readSpots s (s.readPages c)
  unfold State.readOut
  generalize s.media.rebuiltReads c.object ((List.range (c.field 0x18 4)).map (c.field 0x10 8 + ·)) = n
  generalize (List.range (c.field 0x18 4)).flatMap (fun i => s.media.sector c.object (c.field 0x10 8 + i)) = bs
  generalize s.readSpots (s.readPages c) = t at k ⊢
  have hhost : t.host = s.host := k.frame .host (by simp)
  have hhealth : t.health = s.health := k.frame .health (by simp)
  refine ⟨hhost ▸ rfl, ?_, ?_, fun d => k.cells d, hhealth ▸ rfl⟩
  · refine (k.frame.mono (by simp)).trans ?_
    intro p hp
    cases p <;> simp [Part.same] at hp ⊢
  · rw [HostHolds, HostOutside, ← hhost]
    exact ⟨Mem.read_write _ _ _ _, fun a ha => Mem.get_write_out _ _ _ _ _ ha⟩

end Sys2Proof.Machine

namespace Sys2Proof.Machine

/-! ## What a deletion leaves (02 R87; 17 R549). -/

/-- A volume's erasure: each mapped stripe's MAP_CLEAR is recorded, no copy, no sector on its way and no uncorrectable sector of it is left, and the volumes and the map stand. -/
theorem State.cryptoErase_ok (s : State) (o : Owner) :
    (s.cryptoErase o).media.volumes = s.media.volumes ∧ (s.cryptoErase o).media.map = s.media.map ∧
      (s.cryptoErase o).media.veneer = s.media.veneer.filter (fun k => k.owner ≠ o) ∧ (s.cryptoErase o).media.pend = s.media.pend.filter (fun p => p.copy.owner ≠ o) ∧
      ∀ e ∈ s.media.map, e.2.owner = o → ∃ r ∈ (s.cryptoErase o).media.jPend, r.type = .mapClear ∧ r.lstripe = e.1 := by
  obtain ⟨x, y, z, rs, hrs, hof⟩ := s.media.records_clearOwner s.now o
  refine ⟨(congrArg Media.volumes hrs :), hrs.map, congrArg (List.filter _) hrs.veneer, congrArg (List.filter _) (congrArg Media.pend hrs :), fun e he ho => ?_⟩
  obtain ⟨r, hr, hclear⟩ := hof e he ho
  exact ⟨r, hrs.jPend.symm ▸ List.mem_append_right _ hr, hclear⟩

/-- No block that held the key counts as good, and each is to be erased (17 R540). -/
theorem State.cryptoErase_held (s : State) (o : Owner) : ∀ k ∈ s.sec.pages.held, k ∈ (s.cryptoErase o).sec.pages.old ∧ k ∈ (s.cryptoErase o).media.badBlocks :=
  fun _ hk => ⟨mem_append_filter_not hk, mem_append_filter_not hk⟩

theorem State.cryptoErase_health (s : State) (o : Owner) : (s.cryptoErase o).health = s.health.leave o (fun _ => true) := rfl

theorem frame_cryptoErase (s : State) (o : Owner) : Frame [.media, .health, .sec] s (s.cryptoErase o) := by
  intro p hp
  cases p <;> simp [Part.same, State.cryptoErase] at hp ⊢

theorem Health.not_mem_leave {h : Health} {o : Owner} {gone : Nat → Bool} : ∀ e ∈ (h.leave o gone).unc, ¬ (e.owner = o ∧ gone e.sector = true) := by
  intro e he hgone
  simp [Health.leave, hgone] at he

/-! ## WRITE (02 R58, R83; 13 R425). -/

theorem exec_write_admits {s : State} {id : Nat} {c : Cmd} {m : Media} (hr : Runs s id 0x0202 c) (h0 : c.stage = 0) (hf : s.flushWaits c c.object = false)
    (hv : s.volumeError c c.object (c.field 0x10 8) (c.field 0x18 4) = none)
    (hm : s.media.takeRoom s.now id (stripesOf c.object (c.field 0x10 8) (c.field 0x18 4)) = some m) :
    exec (.write id) s = .next (((s.modMedia (fun _ => m)).stage id 1 []).modCmd id (fun c' => { c' with need := 4096 * c.field 0x18 4 })) := by
  change execWrite id s = _
  simp only [execWrite, hr.1, h0, hf, hv, hm, hr.checked, if_true, if_false, Bool.false_eq_true, Option.isNone_some]
  rfl

theorem exec_write_sends {s : State} {id : Nat} {c : Cmd} (hr : Runs s id 0x0202 c) (h1 : c.stage = 1) (hn : c.need ≤ c.got) :
    exec (.write id) s = .next ((s.modMedia (fun m => m.send id c.object (c.field 0x10 8) (sectorsOfData c.data (c.field 0x18 4)))).stage id 2 []) := by
  change execWrite id s = _
  simp only [execWrite, hr.1, h1, hn, if_true, Nat.one_ne_zero, if_false]

/-- The sectors of a WRITE's data follow those on their way to the veneer. -/
theorem Media.send_sectorsOfData_pend (m : Media) (id : Nat) (o : Owner) (first n : Nat) (d : Mem) :
    (m.send id o first (sectorsOfData d n)).pend = m.pend ++ (List.range n).map (fun i =>
      ⟨some id, ⟨m.writeSeq + pageOf (stripeSectors o) first i, o, first + i, false, Mem.write 0 [] 0 (Mem.read 0 d (4096 * i) 4096), m.keyOf o⟩, none⟩) := by
  refine congrArg (m.pend ++ ·) (List.ext_getElem (by simp [sectorsOfData]) fun i hi _ => ?_)
  simp [sectorsOfData]

/-- The health record after a WRITE: its bytes are counted, and its sectors are no longer uncorrectable (15 R506). -/
def State.writtenHealth (s : State) (c : Cmd) : Health :=
  { (s.rewritten c.object (c.field 0x10 8) (c.field 0x18 4)).health with hostBytes := s.health.hostBytes + 4096 * c.field 0x18 4 }

theorem State.not_mem_writtenHealth (s : State) (c : Cmd) :
    ∀ e ∈ (s.writtenHealth c).unc, ¬ (e.owner = c.object ∧ c.field 0x10 8 ≤ e.sector ∧ e.sector < c.field 0x10 8 + c.field 0x18 4) :=
  fun e he hin => Health.not_mem_leave (h := s.health) (gone := fun x => c.field 0x10 8 ≤ x && x < c.field 0x10 8 + c.field 0x18 4) e he ⟨hin.1, by simpa using hin.2⟩

theorem exec_write_completes {s : State} {id : Nat} {c : Cmd} (hr : Runs s id 0x0202 c) (h2 : c.stage = 2) (ha : s.acknowledged id = true) :
    exec (.write id) s = .next (State.succeed { s with health := s.writtenHealth c } id []) := by
  have h0 : (2 : Nat) ≠ 0 := by decide
  have h1 : (2 : Nat) ≠ 1 := by decide
  change execWrite id s = _
  simp only [execWrite, hr.1, h2, ha, h0, h1, if_true, if_false]
  rfl

/-! ## DEALLOCATE (02 R58, R84; 13 R425). -/

theorem exec_deallocate_begins {s : State} {id : Nat} {c : Cmd} (hr : Runs s id 0x0203 c) (h0 : c.stage = 0) (hf : s.flushWaits c c.object = false)
    (hv : s.volumeError c c.object (c.field 0x10 8) (c.field 0x20 8) = none) (hw : s.media.wholeStripes c.object (c.field 0x10 8) (c.field 0x20 8) ≠ []) :
    exec (.deallocate id) s = .next ((s.modMedia (fun m => m.deallocate s.now id c.object (c.field 0x10 8) (c.field 0x20 8))).stage id 1
      [(s.media.deallocate s.now id c.object (c.field 0x10 8) (c.field 0x20 8)).jNext - 1]) := by
  have hw : (s.media.wholeStripes c.object (c.field 0x10 8) (c.field 0x20 8)).isEmpty = false := by simpa using hw
  change execDeallocate id s = _
  simp only [execDeallocate, hr.1, h0, hf, hv, hw, hr.checked, if_true, if_false, Bool.false_eq_true, Bool.not_false, Bool.not_true, Bool.false_and]
  rfl

/-- ZERO sectors for a run of sectors. -/
def Media.sendZeros (id : Nat) (o : Owner) (m : Media) (r : Nat × Nat) : Media := m.send id o r.1 (List.replicate r.2 none)

theorem Media.deallocate_eq (m : Media) (now id o first n : Nat) :
    m.deallocate now id o first n = (runsOf (m.zeroSectors o first n)).foldl (Media.sendZeros id o)
      ((m.wholeStripes o first n).foldl (fun (m : Media) l => m.journal now .mapClear l 0 0) m) := rfl

/-- A DEALLOCATE takes a record for each whole stripe, and the veneer and the map stand. -/
theorem Media.deallocate_ok (m : Media) (now id o first n : Nat) :
    (m.deallocate now id o first n).jNext = m.jNext + (m.wholeStripes o first n).length ∧ (m.deallocate now id o first n).veneer = m.veneer ∧
      (m.deallocate now id o first n).map = m.map := by
  obtain ⟨rs, hrs, hlen, -, -⟩ := Media.records_foldl (fun _ _ => True) (fun (m : Media) l => m.journal now .mapClear l 0 0)
    (fun m l => ⟨_, m.records_journal now .mapClear l 0 0, trivial⟩) (m.wholeStripes o first n) m
  rw [Media.deallocate_eq, ← hlen, ← hrs.jNext, ← hrs.veneer, ← hrs.map]
  exact ⟨Media.foldl_keeps Media.jNext (Media.sendZeros id o) (fun _ _ => rfl) _ _, Media.foldl_keeps Media.veneer (Media.sendZeros id o) (fun _ _ => rfl) _ _,
    Media.foldl_keeps Media.map (Media.sendZeros id o) (fun _ _ => rfl) _ _⟩

theorem exec_deallocate_completes {s : State} {id : Nat} {c : Cmd} (hr : Runs s id 0x0203 c) (h0 : c.stage ≠ 0) (hd : c.aux.headD 0 ≤ s.media.jDone)
    (ha : s.acknowledged id = true) : exec (.deallocate id) s = .next ((s.rewritten c.object (c.field 0x10 8) (c.field 0x20 8)).succeed id []) := by
  change execDeallocate id s = _
  simp only [execDeallocate, hr.1, h0, hd, ha, and_self, if_true, if_false]

/-! ## FLUSH (13 R426). -/

theorem exec_flush_completes {s : State} {id : Nat} {c : Cmd} (hr : Runs s id 0x0204 c) (h0 : c.stage = 0) (hf : s.flushWaits c c.object = false)
    (hv : s.volumeError c c.object 0 0 = none) (he : s.earlierOn c c.object (fun op => op = 0x0202 || op = 0x0203) = false) :
    exec (.flush id) s = .next (s.succeed id []) := by
  change execFlush id s = _
  simp only [execFlush, hr.1, h0, hf, hv, he, hr.checked, Bool.false_eq_true, and_false, if_true, if_false]

/-! ## The commands of volumes. -/

/-- A change of the health record alone. -/
theorem frame_health (s : State) (h : Health) : Frame [.health] s { s with health := h } := by
  intro p hp
  cases p <;> simp [Part.same] at hp ⊢

theorem frame_modMedia (s : State) (f : Media → Media) : Frame [.media] s (s.modMedia f) := by
  intro p hp
  cases p <;> simp [Part.same] at hp ⊢

/-- A command that succeeds with the health record changed. -/
theorem succeeded_health {s : State} {id : Nat} {c : Cmd} (g : Health) (h : s.cmd? id = some c) :
    Succeeded [.health] s (State.succeed { s with health := g } id []) id c [] ∧ (State.succeed { s with health := g } id []).media = s.media.endCmd id ∧
      HostSame s (State.succeed { s with health := g } id []) :=
  ⟨succeeded_of [] h ⟨_, rfl⟩ ((frame_health s g).mono (by simp)), State.succeed_media (s := { s with health := g }) [] h,
    State.succeed_hostMem { s with health := g } id []⟩

/-- Settles O19: each command on a volume by its execution in one stage, the reply of a command that succeeds, and what a stage leaves. -/
theorem volumesReadsWrites : Obligations.VolumesReadsWrites := by
  unfold Obligations.VolumesReadsWrites
  refine ⟨?createNew, ?createSecured, ?deleteDestroys, ?deleteGone, ?readSucceeds, ?readWaits, ?readFault, ?writeAdmits, ?writeSends, ?writeCompletes, ?deallocateBegins,
    ?deallocateCompletes, ?flush⟩
  case createNew =>
    intro s id c hr h0 he hl hv hm
    refine ⟨_, exec_volumeCreate_new hr h0 he hl hv hm, waits_stage 1 _ hr.cmd? rfl ?_, Tab.find_put_self _ _ _, fun v hne => Tab.find_put_ne _ _ hne, rfl, rfl⟩
    intro p hp
    cases p <;> simp [Part.same] at hp ⊢
  case createSecured => exact fun s id c hr h1 hs => ⟨_, exec_volumeCreate_secured hr h1 hs, succeeded_self [] hr.cmd?⟩
  case deleteDestroys =>
    intro s id c v hr h0 hv hg hl he
    obtain ⟨hvol, hmap, hven, hpend, hclear⟩ := s.cryptoErase_ok c.object
    refine ⟨_, exec_volumeDelete_destroys hr h0 hv hg hl he,
      waits_stage 2 _ hr.cmd? (frame_cryptoErase s c.object .host (by simp)) ((frame_cryptoErase s c.object).trans ((frame_modMedia _ _).mono (by simp))),
      Tab.find_del_self _ _, fun w hw => (Tab.find_del_ne _ hw).trans (by rw [hvol]), fun k => ?veneer, fun k hk => ?pend, hclear, hmap,
      fun e he ho => Health.not_mem_leave e he ⟨ho, rfl⟩, s.cryptoErase_held c.object⟩
    case veneer =>
      change k ∈ (s.cryptoErase c.object).media.veneer ↔ _
      simp [hven]
    case pend =>
      have hk : k ∈ (s.cryptoErase c.object).media.pend := hk
      rw [hpend, List.mem_filter, decide_eq_true_iff] at hk
      exact hk.2
  case deleteGone => exact fun s id c hr h2 hd hk => ⟨_, exec_volumeDelete_gone hr h2 hd hk, succeeded_self [] hr.cmd?⟩
  case readSucceeds =>
    intro s id c hr hf hv hl ht hs
    obtain ⟨hhost, hframe, hholds, hcells, hhealth⟩ := s.readOut_ok c
    have hmem := (s.readOut c).succeed_hostMem id (resultAt [(0x0C, 4, c.field 0x18 4)])
    refine ⟨_, exec_read_succeeds hr hf hv hl ht hs, succeeded_of _ hr.cmd? ⟨_, hhost⟩ hframe, ⟨?_, fun a ha => ?_⟩, fun d => ?_, ?_⟩
    · rw [hmem]
      exact hholds.1
    · rw [hmem]
      exact hholds.2 a ha
    · rw [State.die, State.succeed, State.completeWith_dies]
      exact hcells d
    · rw [State.succeed_health]
      exact hhealth
  case readWaits => exact fun s id bad c hr hf hv hok hs => exec_read_waits bad hr hf hv hok hs
  case readFault =>
    exact fun s id bad c hr hf hv hok => ⟨_, exec_read_fault bad hr hf hv hok, failed_self hr.cmd? (by rw [hr.opcode]; decide) (by decide)⟩
  case writeAdmits =>
    intro s id c m hr h0 hf hv hm
    refine ⟨_, exec_write_admits hr h0 hf hv hm, rfl, State.cmd?_modCmd_self _ (State.cmd?_modCmd_self _ hr.cmd?), rfl, ?_⟩
    intro p hp
    cases p <;> simp [Part.same] at hp ⊢
  case writeSends =>
    intro s id c hr h1 hn
    refine ⟨_, exec_write_sends hr h1 hn, State.cmd?_modCmd_self _ hr.cmd?, s.media.send_sectorsOfData_pend id _ _ _ _, rfl, rfl, rfl, ?_⟩
    intro p hp
    cases p <;> simp [Part.same] at hp ⊢
  case writeCompletes =>
    intro s id c hr h2 ha
    obtain ⟨hdone, hmedia, hsame⟩ := succeeded_health (s.writtenHealth c) hr.cmd?
    have hhealth := State.succeed_health { s with health := s.writtenHealth c } id []
    refine ⟨_, exec_write_completes hr h2 ha, hdone, congrArg Health.hostBytes hhealth, fun e he hin => ?_, hmedia, hsame⟩
    exact s.not_mem_writtenHealth c e (congrArg Health.unc hhealth ▸ he) hin
  case deallocateBegins =>
    intro s id c hr h0 hf hv hw
    obtain ⟨hnext, hveneer, hmap⟩ := s.media.deallocate_ok s.now id c.object (c.field 0x10 8) (c.field 0x20 8)
    refine ⟨_, exec_deallocate_begins hr h0 hf hv hw, State.cmd?_modCmd_self _ hr.cmd?, hnext, hveneer, hmap, rfl, ?_⟩
    intro p hp
    cases p <;> simp [Part.same] at hp ⊢
  case deallocateCompletes => exact fun s id c hr h0 hd ha => ⟨_, exec_deallocate_completes hr h0 hd ha, succeeded_health _ hr.cmd?⟩
  case flush => exact fun s id c hr h0 hf hv he => ⟨_, exec_flush_completes hr h0 hf hv he, succeeded_self [] hr.cmd?⟩

end Sys2Proof.Machine

/-! # Bit planes (03 R93) -/

namespace Sys2Proof.Machine

/-- What plane k of p stands for in the sum: 2^k, subtracted where it is the top plane of a signed operand. -/
def planeWeight (sgn : Bool) (p k : Nat) : Int := if sgn && k + 1 = p then -(2 ^ k : Nat) else (2 ^ k : Nat)

/-- The value that the planes of one streamed element give. -/
def planesValue (sgn : Bool) (p x : Nat) : Int := ((List.range p).map (fun k => if bitOf x k then planeWeight sgn p k else 0)).sum

theorem planePart_nil_left (xs : List Nat) (k : Nat) : planePart [] xs k = 0 := rfl

theorem planePart_nil_right (ws : List Int) (k : Nat) : planePart ws [] k = 0 := by simp [planePart]

theorem planePart_cons (w : Int) (ws : List Int) (x : Nat) (xs : List Nat) (k : Nat) :
    planePart (w :: ws) (x :: xs) k = (if bitOf x k then w else 0) + planePart ws xs k := by
  simp only [planePart, ← List.sum_eq_foldl, List.zip_cons_cons, List.map_cons, List.sum_cons]

theorem planes_eq_sum (sgn : Bool) (p : Nat) (ws : List Int) (xs : List Nat) :
    planes sgn p ws xs = ((List.range p).map (fun k => planePart ws xs k * planeWeight sgn p k)).sum := by
  rw [List.sum_eq_foldl, List.foldl_map, planes]
  congr 1
  funext t k
  unfold planeWeight
  dsimp only
  split
  · rw [mul_neg, sub_eq_add_neg]
  · rfl

theorem planes_nil_left (sgn : Bool) (p : Nat) (xs : List Nat) : planes sgn p [] xs = 0 := by simp [planes_eq_sum, planePart_nil_left]

theorem planes_nil_right (sgn : Bool) (p : Nat) (ws : List Int) : planes sgn p ws [] = 0 := by simp [planes_eq_sum, planePart_nil_right]

/-- One stored value and one streamed element add their product: the planes may be summed element by element. -/
theorem planes_cons (sgn : Bool) (p : Nat) (w : Int) (ws : List Int) (x : Nat) (xs : List Nat) :
    planes sgn p (w :: ws) (x :: xs) = w * planesValue sgn p x + planes sgn p ws xs := by
  rw [planes_eq_sum, planes_eq_sum, planesValue, ← List.sum_map_mul_left, ← List.sum_map_add]
  refine congrArg List.sum (List.map_congr_left fun k _ => ?_)
  rw [planePart_cons, add_mul, ite_mul, mul_ite, zero_mul, mul_zero]

theorem bitOf_weight (x k : Nat) : (if bitOf x k then ((2 ^ k : Nat) : Int) else 0) = ((2 ^ k * (x / 2 ^ k % 2) : Nat) : Int) := by
  rcases Nat.mod_two_eq_zero_or_one (x / 2 ^ k) with h | h <;> simp [bitOf, h]

/-- The planes below q, none of them subtracted, give the low q bits. -/
theorem sum_low_planes (x q : Nat) : ((List.range q).map (fun k => if bitOf x k then ((2 ^ k : Nat) : Int) else 0)).sum = (x % 2 ^ q : Nat) := by
  induction q with
  | zero => simp [Nat.mod_one]
  | succ q ih => rw [List.range_succ, List.map_append, List.sum_append, ih, List.map_singleton, List.sum_singleton, bitOf_weight, Nat.mod_pow_succ, Nat.cast_add]

theorem planesValue_unsigned (p x : Nat) : planesValue false p x = (x % 2 ^ p : Nat) := sum_low_planes x p

theorem planesValue_signed (q x : Nat) : planesValue true (q + 1) x = (x % 2 ^ q : Nat) - (2 ^ q * (x / 2 ^ q % 2) : Nat) := by
  have hlow : (List.range q).map (fun k => if bitOf x k then planeWeight true (q + 1) k else 0)
      = (List.range q).map (fun k => if bitOf x k then ((2 ^ k : Nat) : Int) else 0) := by
    refine List.map_congr_left fun k hk => ?_
    have hk : k ≠ q := (List.mem_range.mp hk).ne
    simp [planeWeight, hk]
  have htop : (if bitOf x q then planeWeight true (q + 1) q else 0) = -(2 ^ q * (x / 2 ^ q % 2) : Nat) := by
    rw [← bitOf_weight]
    split <;> simp [planeWeight]
  rw [planesValue, List.range_succ, List.map_append, List.sum_append, hlow, sum_low_planes, List.map_singleton, List.sum_singleton, htop, sub_eq_add_neg]

/-- Two's complement: the top bit of p stands for −2^(p−1). -/
theorem signedOf_succ (q x : Nat) : signedOf (q + 1) x = (x % 2 ^ q : Nat) - (2 ^ q * (x / 2 ^ q % 2) : Nat) := by
  have hlow : x % 2 ^ q < 2 ^ q := Nat.mod_lt _ (by positivity)
  have htop : x % 2 ^ (q + 1) = x % 2 ^ q + 2 ^ q * (x / 2 ^ q % 2) := Nat.mod_pow_succ
  have hpow : 2 ^ (q + 1) = 2 * 2 ^ q := Nat.pow_succ'
  unfold signedOf
  rw [htop, hpow, Nat.add_sub_cancel]
  rcases Nat.mod_two_eq_zero_or_one (x / 2 ^ q) with h | h <;> simp only [h]
  · simp [hlow]
  · rw [if_neg (by omega)]
    omega

theorem planesValue_eq (sgn : Bool) (p x : Nat) (hp : 1 ≤ p) (hx : x < 2 ^ p) : planesValue sgn p x = if sgn then signedOf p x else (x : Int) := by
  cases sgn with
  | false => rw [planesValue_unsigned, Nat.mod_eq_of_lt hx, if_neg (by decide)]
  | true =>
    obtain ⟨q, rfl⟩ := Nat.exists_eq_add_of_le' hp
    rw [planesValue_signed, signedOf_succ, if_pos rfl]

/-- Settles O24, by induction on the stored values and the streamed elements beside them: each pair adds its product. -/
theorem bitPlanesMultiply : Obligations.BitPlanesMultiply := by
  unfold Obligations.BitPlanesMultiply
  intro sgn p ws xs hp hxs
  rw [← List.sum_eq_foldl]
  induction ws generalizing xs with
  | nil => rw [planes_nil_left, List.zipWith_nil_left, List.sum_nil]
  | cons w ws ih =>
    cases xs with
    | nil => rw [planes_nil_right, List.zipWith_nil_right, List.sum_nil]
    | cons x xs =>
      obtain ⟨hx, hxs⟩ := List.forall_mem_cons.mp hxs
      rw [planes_cons, planesValue_eq sgn p x hp hx, ih xs hxs, List.zipWith_cons_cons, List.sum_cons]

end Sys2Proof.Machine

/-! # Threads, jobs, cores and engine contexts through the shared operations (03; 06; 08) -/

namespace Sys2Proof.Machine

/-! ## What each operation on the compute state sets. -/

/-- A fold whose every step keeps a property of the state keeps it. -/
theorem State.foldl_keeps {α β : Type} (g : State → β) (f : State → α → State) (h : ∀ s a, g (f s a) = g s) (l : List α) (s : State) : g (l.foldl f s) = g s := by
  induction l generalizing s with
  | nil => rfl
  | cons a l ih => exact (ih (f s a)).trans (h s a)

section
variable (s : State)

theorem State.modCtx_compute (k : Nat) (f : Ctx → Ctx) : (s.modCtx k f).compute = { s.compute with ctxs := Tab.change s.compute.ctxs k f } := rfl

theorem State.thread?_modThread (t n : Nat) (f : Thread → Thread) : (s.modThread t f).thread? n = if n = t then (s.thread? n).map f else s.thread? n :=
  Tab.find_change _ _ _ _

theorem State.job?_modJob (j i : Nat) (f : Job → Job) : (s.modJob j f).job? i = if i = j then (s.job? i).map f else s.job? i := Tab.find_change _ _ _ _

theorem State.find_modCtx_self {k : Nat} {x : Ctx} (f : Ctx → Ctx) (hx : Tab.find s.compute.ctxs k = some x) :
    Tab.find (s.modCtx k f).compute.ctxs k = some (f x) := by
  rw [State.modCtx_compute, Tab.find_change_self, hx, Option.map_some]

theorem State.find_modCtx_ne {k j : Nat} (f : Ctx → Ctx) (hj : j ≠ k) : Tab.find (s.modCtx k f).compute.ctxs j = Tab.find s.compute.ctxs j :=
  Tab.find_change_ne s.compute.ctxs f hj

theorem State.core_setCore (c b : CoreNo) (x : Core) : (s.setCore c x).core b = if b = c then x else s.core b := by
  unfold State.core
  split
  · rename_i h
    subst h
    exact Tab.at_put_self _ _ _ _
  · rename_i h
    exact Tab.at_put_ne _ _ _ (fun k => h (Fin.ext k))

theorem State.core_modCore (c b : CoreNo) (f : Core → Core) : (s.modCore c f).core b = if b = c then f (s.core c) else s.core b := s.core_setCore c b _

theorem frame_modCompute (f : Compute → Compute) : Frame [.compute] s (s.modCompute f) := by
  intro p hp
  cases p <;> simp [Part.same] at hp ⊢

end

theorem Thread.handle_modHandle (th : Thread) (h i : Nat) (f : Handle → Handle) : (th.modHandle h f).handle i = if i = h then f (th.handle h) else th.handle i := by
  unfold Thread.handle Thread.modHandle
  rw [Tab.at_eq, Tab.find_put]
  split <;> rfl

/-! ## What a thread's seat and a job's life are. -/

/-- The job and gang of a thread. -/
def State.seat (s : State) (n : Nat) : Option (Nat × Nat) := (s.thread? n).map (fun x => (x.job, x.gang))

/-- Why a job is ending, if it is, and how often it has started again. -/
def State.life (s : State) (j : Nat) : Option (Option Ending × Nat) := (s.job? j).map (fun x => (x.ending, x.restarts))

/-- Whether the gang of a thread is pre-empted. -/
def State.out (s : State) (n : Nat) : Option Bool := ((s.thread? n).bind s.gangOf?).map (·.preempted)

/-- No thread has changed seats, no job its life, and no gang has been pre-empted or resumed. -/
structure Standing (s t : State) : Prop where
  seat : t.seat = s.seat
  life : t.life = s.life
  out : t.out = s.out

/-- Beside its standing, a state has kept the places of its gangs, every byte of memory, the Jig image, and every part but those listed. -/
structure Upkeep (ks : List Part) (s t : State) : Prop extends Standing s t where
  gangs : t.gangOf? = s.gangOf?
  bench : ∀ c, (t.core c).bench = (s.core c).bench
  tiers : t.tiers = s.tiers
  jig : t.integ.jig = s.integ.jig
  frame : Frame ks s t

/-- No job is ending. -/
def State.NoneEnding (s : State) : Prop := ∀ j x, s.job? j = some x → x.ending = none

section
variable {s t u : State} {ks ls : List Part}

theorem Standing.refl (s : State) : Standing s s := ⟨rfl, rfl, rfl⟩

theorem Standing.trans (h : Standing s t) (k : Standing t u) : Standing s u := ⟨k.seat.trans h.seat, k.life.trans h.life, k.out.trans h.out⟩

theorem State.gangOf?_of_jobs (h : t.compute.jobs = s.compute.jobs) : t.gangOf? = s.gangOf? := by
  funext th
  unfold State.gangOf? State.job?
  rw [h]

/-- Seats and the places of gangs give the windows of threads. -/
theorem State.window_of_seat (hs : t.seat = s.seat) (hg : t.gangOf? = s.gangOf?) (n : Nat) : (t.thread? n).bind t.gangOf? = (s.thread? n).bind s.gangOf? := by
  have h : ∀ v : State, (v.thread? n).bind v.gangOf? = (v.seat n).bind (fun p => (v.job? p.1).bind (fun j => Tab.find j.gangs p.2)) := fun v => by
    unfold State.seat
    cases v.thread? n <;> rfl
  have hj : ∀ p : Nat × Nat, (t.job? p.1).bind (fun j => Tab.find j.gangs p.2) = (s.job? p.1).bind (fun j => Tab.find j.gangs p.2) := fun p =>
    congrFun hg { (default : Thread) with job := p.1, gang := p.2 }
  rw [h, h, hs]
  exact congrArg _ (funext hj)

theorem Standing.of_gangs (hs : t.seat = s.seat) (hl : t.life = s.life) (hg : t.gangOf? = s.gangOf?) : Standing s t :=
  ⟨hs, hl, funext fun n => congrArg _ (State.window_of_seat hs hg n)⟩

theorem State.seat_of_threads (h : t.compute.threads = s.compute.threads) : t.seat = s.seat := by
  funext n
  unfold State.seat State.thread?
  rw [h]

theorem State.life_of_jobs (h : t.compute.jobs = s.compute.jobs) : t.life = s.life := by
  funext n
  unfold State.life State.job?
  rw [h]

theorem Standing.of_tables (ht : t.compute.threads = s.compute.threads) (hj : t.compute.jobs = s.compute.jobs) : Standing s t :=
  .of_gangs (State.seat_of_threads ht) (State.life_of_jobs hj) (State.gangOf?_of_jobs hj)

theorem Upkeep.trans (h : Upkeep ks s t) (k : Upkeep ks t u) : Upkeep ks s u :=
  ⟨h.toStanding.trans k.toStanding, k.gangs.trans h.gangs, fun c => (k.bench c).trans (h.bench c), k.tiers.trans h.tiers, k.jig.trans h.jig, h.frame.trans k.frame⟩

theorem Upkeep.mono (h : Upkeep ks s t) (hl : ks ⊆ ls) : Upkeep ls s t := { h with frame := h.frame.mono hl }

theorem Upkeep.refl (ks : List Part) (s : State) : Upkeep ks s s := ⟨.refl s, rfl, fun _ => rfl, rfl, rfl, .refl ks s⟩

theorem Upkeep.of_tables (ht : t.compute.threads = s.compute.threads) (hj : t.compute.jobs = s.compute.jobs) (hb : ∀ c, (t.core c).bench = (s.core c).bench)
    (hi : t.tiers = s.tiers) (hjig : t.integ.jig = s.integ.jig) (hf : Frame ks s t) : Upkeep ks s t :=
  ⟨.of_tables ht hj, State.gangOf?_of_jobs hj, hb, hi, hjig, hf⟩

/-! ## What upkeep leaves as it was. -/

theorem Upkeep.window (h : Upkeep ks s t) (n : Nat) : (t.thread? n).bind t.gangOf? = (s.thread? n).bind s.gangOf? := State.window_of_seat h.seat h.gangs n

theorem Upkeep.winRead (h : Upkeep ks s t) (g : Gang) (o n : Nat) : t.winRead g o n = s.winRead g o n := by
  unfold State.winRead
  rw [h.bench]

theorem Upkeep.benchRead (h : Upkeep ks s t) : t.benchRead = s.benchRead := by
  funext n o k
  unfold State.benchRead
  rw [h.window]
  split
  · exact h.winRead _ _ _
  · rfl

theorem Upkeep.bytesSame (h : Upkeep ks s t) : BytesSame s t := by
  unfold BytesSame
  rw [h.tiers]
  exact ⟨rfl, rfl, rfl, rfl, h.bench⟩

theorem Upkeep.placeRead (h : Upkeep ks s t) (hs : .serv ∉ ks) (th : Thread) (p : Place) (n : Nat) : t.placeRead th p n = s.placeRead th p n := by
  have hserv : t.serv = s.serv := h.frame .serv hs
  cases p with
  | win o =>
    simp only [State.placeRead, h.gangs]
    split
    · exact h.winRead _ _ _
    · rfl
  | flash o => simp only [State.placeRead, State.flashRead, h.tiers, hserv]
  | _ => simp only [State.placeRead, h.tiers]

theorem Upkeep.stored {th : Thread} {p : Place} {bs : List Byte} (h : Upkeep ks t u) (hs : .serv ∉ ks) (k : Stored s t th p bs) : Stored s u th p bs where
  there := (h.placeRead hs th p _).trans k.there
  rest q hq := (h.placeRead hs th q 1).trans (k.rest q hq)
  bench c a ha := by
    rw [h.bench]
    exact k.bench c a ha

theorem State.ctxYields_eq (s : State) (x : Ctx) : s.ctxYields x = (s.out x.thread).getD false := rfl

theorem State.noneEnding_iff (s : State) : s.NoneEnding ↔ ∀ j p, s.life j = some p → p.1 = none := by
  unfold State.NoneEnding State.life
  refine forall_congr' fun j => ?_
  cases s.job? j <;> simp

theorem Standing.noneEnding (h : Standing s t) (k : s.NoneEnding) : t.NoneEnding := by
  rw [State.noneEnding_iff] at k ⊢
  rwa [h.life]

theorem Tab.mem_of_find {α : Type} {l : Tab α} {k : Nat} {v : α} (h : Tab.find l k = some v) : (k, v) ∈ l := by
  induction l with
  | nil => cases h
  | cons e l ih =>
    rw [Tab.find] at h
    split at h
    · rename_i hk
      cases h
      subst hk
      exact List.mem_cons_self
    · exact List.mem_cons_of_mem _ (ih h)

theorem State.noneEnding_of_mem (h : ∀ j ∈ s.compute.jobs, j.2.ending = none) : s.NoneEnding := fun _ _ hx => h _ (Tab.mem_of_find hx)

theorem State.settle_running {j : Nat} (h : ∀ x, s.job? j = some x → x.ending = none) : s.settle j = s := by
  unfold State.settle
  split
  · rfl
  · rename_i x hx
    rw [h x hx]

/-- While no job is ending, none closes. -/
theorem State.settleAll_of_noneEnding (h : s.NoneEnding) : s.settleAll = s := by
  unfold State.settleAll
  induction Tab.keys s.compute.jobs with
  | nil => rfl
  | cons j l ih => rw [List.foldl_cons, State.settle_running (h j), ih]

end

/-! ## Operations that are upkeep. -/

section
variable {s : State}

theorem upkeep_atTime (s : State) (d : Nat) : Upkeep [.now] s (s.at_ d) := .of_tables rfl rfl (fun _ => rfl) rfl rfl (frame_atTime s d)

theorem upkeep_spend (s : State) (n : Nat) : Upkeep [.freeCtr] s (s.spend n) := .of_tables rfl rfl (fun _ => rfl) rfl rfl (frame_spend s n)

theorem upkeep_modCtx (s : State) (k : Nat) (f : Ctx → Ctx) : Upkeep [.compute] s (s.modCtx k f) :=
  .of_tables rfl rfl (fun _ => rfl) rfl rfl (frame_modCompute s _)

theorem upkeep_modThread (n : Nat) {f : Thread → Thread} (hf : ∀ x, (f x).job = x.job ∧ (f x).gang = x.gang) : Upkeep [.compute] s (s.modThread n f) := by
  refine ⟨.of_gangs ?_ rfl rfl, rfl, fun _ => rfl, rfl, rfl, frame_modCompute s _⟩
  funext k
  unfold State.seat
  rw [State.thread?_modThread]
  split
  · cases s.thread? k <;> simp [hf]
  · rfl

theorem upkeep_modJob (j : Nat) {f : Job → Job} (hg : ∀ x, (f x).gangs = x.gangs) (hl : ∀ x, (f x).ending = x.ending ∧ (f x).restarts = x.restarts) :
    Upkeep [.compute] s (s.modJob j f) := by
  have hgangs : (s.modJob j f).gangOf? = s.gangOf? := by
    funext th
    unfold State.gangOf?
    rw [State.job?_modJob]
    split
    · cases s.job? th.job <;> simp [hg]
    · rfl
  refine ⟨.of_gangs rfl ?_ hgangs, hgangs, fun _ => rfl, rfl, rfl, frame_modCompute s _⟩
  funext k
  unfold State.life
  rw [State.job?_modJob]
  split
  · cases s.job? k <;> simp [hl]
  · rfl

theorem upkeep_modCore (c : CoreNo) {f : Core → Core} (hf : ∀ x, (f x).bench = x.bench) : Upkeep [.compute] s (s.modCore c f) := by
  refine .of_tables rfl rfl (fun b => ?_) rfl rfl (frame_modCompute s _)
  rw [State.core_modCore]
  split
  · rename_i h
    rw [hf, h]
  · rfl

theorem upkeep_count (s : State) (i n : Nat) : Upkeep [.health] s (s.count i n) := .of_tables rfl rfl (fun _ => rfl) rfl rfl (frame_health s _)

theorem upkeep_saturated (s : State) (c : CoreNo) (j n : Nat) : Upkeep [.compute] s (s.saturated c j n) := by
  unfold State.saturated
  split
  · exact .refl _ _
  · refine (upkeep_modCore c ?_).trans (upkeep_modJob j ?_ ?_)
    · exact fun _ => rfl
    · exact fun _ => rfl
    · exact fun _ => ⟨rfl, rfl⟩

theorem upkeep_fillTile (s : State) (c : CoreNo) (mm : MmOp) (dest bytes : Nat) : Upkeep [.compute] s (s.fillTile c mm dest bytes) := upkeep_modCore c (fun _ => rfl)

theorem upkeep_reserveTile (s : State) (c : CoreNo) (e : EngNo) (mm : MmOp) : Upkeep [.compute] s (s.reserveTile c e mm) := by
  unfold State.reserveTile
  split
  · exact upkeep_modCore c (fun _ => rfl)
  · exact .refl _ _

theorem upkeep_charge (s : State) (c : CoreNo) (t cycles : Nat) : Upkeep [.compute] s (s.charge c t cycles) := by
  unfold State.charge
  split
  · exact upkeep_modCore c (fun _ => rfl)
  · exact upkeep_modCore c (fun _ => rfl)
  · exact .refl _ _

theorem upkeep_landed (s : State) (n op : Nat) : Upkeep [.compute] s (s.modThread n (fun th => th.landed op)) := upkeep_modThread n (fun _ => ⟨rfl, rfl⟩)

theorem upkeep_passRecord (s : State) (n : Nat) (th : Thread) (op : Nat) : Upkeep [.compute] s (s.passRecord n th op) := by
  refine (upkeep_modThread n ?_).trans (upkeep_modJob th.job ?_ ?_)
  · exact fun _ => ⟨rfl, rfl⟩
  · exact fun _ => rfl
  · exact fun _ => ⟨rfl, rfl⟩

theorem upkeep_fly (s : State) (n : Nat) (l : List Range) : Upkeep [.compute] s (s.fly n l) := by
  refine (upkeep_modThread n ?_).trans (.of_tables rfl rfl (fun _ => rfl) rfl rfl (frame_modCompute _ _))
  exact fun _ => ⟨rfl, rfl⟩

theorem Thread.setting_seat (r : BitVec 256) (w : Setter) (x : Thread) : (x.setting r w).job = x.job ∧ (x.setting r w).gang = x.gang := by
  unfold Thread.setting
  split <;> exact ⟨rfl, rfl⟩

theorem upkeep_setting (s : State) (n : Nat) (r : BitVec 256) (w : Setter) : Upkeep [.compute] s (s.modThread n (fun x => x.setting r w)) :=
  upkeep_modThread n (Thread.setting_seat r w)

/-- A change of the captures alone. -/
theorem upkeep_captures (s : State) (x : Tab Capture) : Upkeep [.integ] s { s with integ := { s.integ with captures := x } } := by
  refine .of_tables rfl rfl (fun _ => rfl) rfl rfl ?_
  intro p hp
  cases p <;> simp [Part.same] at hp ⊢

theorem upkeep_dropShadow (s : State) (c : CoreNo) (e : EngNo) : Upkeep [.compute, .integ, .health] s (s.dropShadow c e) := by
  unfold State.dropShadow
  split
  · split
    · exact ((upkeep_captures s _).mono (by simp)).trans ((upkeep_count _ 18 1).mono (by simp))
    · exact .refl _ _
  · exact .refl _ _

theorem upkeep_report (s : State) (th : Thread) (site off amax : Nat) : Upkeep [.compute] s (s.report th site off amax) := by
  unfold State.report
  dsimp only
  split
  · exact .refl _ _
  · exact .of_tables rfl rfl (fun _ => rfl) rfl rfl (frame_modCompute s _)

end

end Sys2Proof.Machine

/-! # Issue of operations, and the queues of engine contexts (03 R97; 06 R184, R185, R190) -/

namespace Sys2Proof

open Machine

section
variable {s t u : State} {n op : Nat} {l : List Machine.Range} {th x : Thread} {r : BitVec 256}

/-- What a thread that may issue has: its seat in the table, a record of the opcode, and its gang in place. -/
theorem Issues.holds (h : Issues s n op l th r) : s.thread? n = some th ∧ opcodeOf r = op ∧ ∃ g, s.gangOf? th = some g := by
  have here := h.here
  unfold State.issuing at here
  split at here
  · cases here
  · rename_i y hy
    split at here
    · rename_i q g hq hg
      split at here
      · rename_i hok
        obtain ⟨-, -, -, hop⟩ := hok
        cases here
        exact ⟨hy, hop, g, hg⟩
      · cases here
    · cases here

theorem Issues.opcode (h : Issues s n op l th r) : opcodeOf r = op := by
  obtain ⟨-, hop, -⟩ := h.holds
  exact hop

/-- An operation that issues takes its effect past its record. -/
theorem Issues.issue {ranges : Thread → BitVec 256 → List Machine.Range} {check : Thread → BitVec 256 → Option (FaultCode × Nat)}
    (h : Issues s n op (ranges th r) th r) (hc : check th r = none) (body : Thread → BitVec 256 → State → State) :
    s.issue n op ranges check body = body th r (s.passRecord n th op) := by
  unfold State.issue
  simp only [h.here, h.unheld, h.free, hc, Bool.false_eq_true, if_false]

theorem passRecord_threads (s : State) (n op : Nat) (th : Thread) :
    (s.passRecord n th op).compute.threads = Tab.change s.compute.threads n (fun x => passed x op) := rfl

theorem passRecord_jobs (s : State) (n op : Nat) (th : Thread) :
    (s.passRecord n th op).compute.jobs = Tab.change s.compute.jobs th.job (fun j => { j with ops := j.ops + 1 }) := rfl

theorem ran_passRecord (op : Nat) (h : s.thread? n = some th) : Ran s (s.passRecord n th op) n th (passed th op) where
  thread := by
    rw [State.thread?, passRecord_threads, Tab.find_change_self, ← State.thread?, h, Option.map_some]
  threads k hk := by rw [State.thread?, passRecord_threads, Tab.find_change_ne _ _ hk, State.thread?]
  job := by rw [State.job?, passRecord_jobs, Tab.find_change_self, State.job?]
  jobs k hk := by rw [State.job?, passRecord_jobs, Tab.find_change_ne _ _ hk, State.job?]

theorem Ran.modThread (h : Ran s u n th x) (f : Thread → Thread) : Ran s (u.modThread n f) n th (f x) where
  thread := by rw [State.thread?_modThread, if_pos rfl, h.thread, Option.map_some]
  threads k hk := by rw [State.thread?_modThread, if_neg hk, h.threads k hk]
  job := h.job
  jobs := h.jobs

/-- Changes that leave the tables of threads and jobs alone leave what has run as it is. -/
theorem Ran.of_tables (h : Ran s u n th x) (ht : t.compute.threads = u.compute.threads) (hj : t.compute.jobs = u.compute.jobs) : Ran s t n th x := by
  have hthread : t.thread? = u.thread? := congrArg Tab.find ht
  have hjob : t.job? = u.job? := congrArg Tab.find hj
  exact ⟨hthread ▸ h.thread, hthread ▸ h.threads, hjob ▸ h.job, hjob ▸ h.jobs⟩

theorem Ran.fly (h : Ran s u n th x) (l : List Machine.Range) :
    Ran s (u.fly n l) n th { x with flights := x.flights ++ [⟨u.compute.nextIdent, l⟩] } :=
  (h.modThread (fun x => { x with flights := x.flights ++ [⟨u.compute.nextIdent, l⟩] })).of_tables rfl rfl

end

end Sys2Proof

namespace Sys2Proof.Machine

/-! ## A context goes to an engine (08 R263). -/

@[simp] theorem State.dropShadow_compute (s : State) (c : CoreNo) (e : EngNo) : (s.dropShadow c e).compute = s.compute := by
  unfold State.dropShadow
  split
  · split <;> rfl
  · rfl

/-- Placing a context changes no more than its engine and since when it has it, and drops a sample. -/
theorem State.placeCtx_cases (s : State) (k : Nat) :
    s.placeCtx k = s ∨ ∃ x c e, Tab.find s.compute.ctxs k = some x ∧ x.engine = none ∧
      s.placeCtx k = (s.dropShadow c e).modCtx k (fun x => { x with engine := some e, since := s.now }) := by
  unfold State.placeCtx
  split
  · exact .inl rfl
  · rename_i x hx
    split
    · rename_i e hnone _
      exact .inr ⟨x, x.core, e, hx, hnone, rfl⟩
    · exact .inl rfl

theorem upkeep_placeCtx (s : State) (k : Nat) : Upkeep [.compute, .integ, .health] s (s.placeCtx k) := by
  obtain h | ⟨x, c, e, -, -, h⟩ := s.placeCtx_cases k <;> rw [h]
  · exact .refl _ _
  · exact (upkeep_dropShadow s c e).trans ((upkeep_modCtx _ _ _).mono (by simp))

@[simp] theorem State.placeCtx_threads (s : State) (k : Nat) : (s.placeCtx k).compute.threads = s.compute.threads := by
  obtain h | ⟨x, c, e, -, -, h⟩ := s.placeCtx_cases k <;> rw [h]
  rw [State.modCtx_compute, State.dropShadow_compute]

@[simp] theorem State.placeCtx_jobs (s : State) (k : Nat) : (s.placeCtx k).compute.jobs = s.compute.jobs := by
  obtain h | ⟨x, c, e, -, -, h⟩ := s.placeCtx_cases k <;> rw [h]
  rw [State.modCtx_compute, State.dropShadow_compute]

theorem State.find_placeCtx_ne (s : State) {k j : Nat} (hj : j ≠ k) : Tab.find (s.placeCtx k).compute.ctxs j = Tab.find s.compute.ctxs j := by
  obtain h | ⟨x, c, e, -, -, h⟩ := s.placeCtx_cases k <;> rw [h]
  rw [State.find_modCtx_ne _ _ hj, State.dropShadow_compute]

theorem State.find_placeCtx_self {s : State} {k : Nat} {x : Ctx} (hx : Tab.find s.compute.ctxs k = some x) :
    ∃ y, Tab.find (s.placeCtx k).compute.ctxs k = some y ∧ y = { x with engine := y.engine, since := y.since } ∧
      (x.engine.isSome = true → y.engine = x.engine ∧ y.since = x.since) := by
  obtain h | ⟨y, c, e, hy, hnone, h⟩ := s.placeCtx_cases k <;> rw [h]
  · exact ⟨x, hx, rfl, fun _ => ⟨rfl, rfl⟩⟩
  · obtain rfl : y = x := Option.some.inj (hy.symm.trans hx)
    refine ⟨_, State.find_modCtx_self _ _ ((s.dropShadow_compute c e).symm ▸ hx), rfl, fun hs => ?_⟩
    rw [hnone] at hs
    cases hs

/-! ## An MM operation joins the queue of a context (03 R97, R98). -/

/-- An MM operation as it is queued: its record, the value BREG added, and the bytes that MM_RUN will stream. -/
def State.mmOpAt (s : State) (n pc : Nat) (th : Thread) (r : BitVec 256) : MmOp :=
  ⟨s.compute.nextIdent, n, pc, r, bregBase th r, if opcodeOf r = 0x0101 then s.benchRead n (benchField (bregBase th r) 1024 (mmXLine r)) (mmXBytes r) else []⟩

/-- An MM operation joins the queue of one context, and is in flight. -/
def State.enqueueMm (s : State) (n pc k : Nat) (th : Thread) (r : BitVec 256) : State :=
  ((s.modCtx k (fun x => { x with queue := x.queue ++ [s.mmOpAt n pc th r] })).modThread n (fun x => x.setting r .mm)).fly n (s.mmRanges n th r)

theorem State.queueMm_eq (s : State) (n pc : Nat) (th : Thread) (r : BitVec 256) :
    s.queueMm n pc th r = ((s.bindCtx n (handleOf r)).2.enqueueMm n pc (s.bindCtx n (handleOf r)).1 th r).placeCtx (s.bindCtx n (handleOf r)).1 := rfl

section
variable {s u : State} {n pc k op : Nat} {th x : Thread} {r : BitVec 256}

theorem State.enqueueMm_ctxs (s : State) (n pc k : Nat) (th : Thread) (r : BitVec 256) :
    (s.enqueueMm n pc k th r).compute.ctxs = (s.modCtx k (fun x => { x with queue := x.queue ++ [s.mmOpAt n pc th r] })).compute.ctxs := rfl

theorem upkeep_queueOn (s : State) (n pc k : Nat) (th : Thread) (r : BitVec 256) : Upkeep [.compute, .integ, .health] s ((s.enqueueMm n pc k th r).placeCtx k) :=
  ((((upkeep_modCtx s k _).trans (upkeep_setting _ n r .mm)).trans (upkeep_fly _ n _)).mono (by simp)).trans (upkeep_placeCtx _ k)

theorem State.find_queueOn_ne (s : State) (n pc : Nat) {k j : Nat} (th : Thread) (r : BitVec 256) (hj : j ≠ k) :
    Tab.find ((s.enqueueMm n pc k th r).placeCtx k).compute.ctxs j = Tab.find s.compute.ctxs j := by
  rw [State.find_placeCtx_ne _ hj, State.enqueueMm_ctxs, State.find_modCtx_ne _ _ hj]

theorem State.find_queueOn_self {y : Ctx} (pc : Nat) (hy : Tab.find s.compute.ctxs k = some y) :
    ∃ z, Tab.find ((s.enqueueMm n pc k th r).placeCtx k).compute.ctxs k = some z ∧
      z = { y with queue := y.queue ++ [s.mmOpAt n pc th r], engine := z.engine, since := z.since } ∧
      (y.engine.isSome = true → z.engine = y.engine ∧ z.since = y.since) := by
  have hq := s.find_modCtx_self (fun x => { x with queue := x.queue ++ [s.mmOpAt n pc th r] }) hy
  exact State.find_placeCtx_self (s := s.enqueueMm n pc k th r) hq

theorem Thread.setting_flights (x : Thread) (r : BitVec 256) (w : Setter) : (x.setting r w).flights = x.flights := by
  unfold Thread.setting
  split <;> rfl

theorem Thread.setting_pc (x : Thread) (r : BitVec 256) (w : Setter) : (x.setting r w).pc = x.pc := by
  unfold Thread.setting
  split <;> rfl

theorem Thread.setting_ctx (x : Thread) (r : BitVec 256) (w : Setter) : ((x.setting r w).handle (handleOf r)).ctx = (x.handle (handleOf r)).ctx := by
  unfold Thread.setting
  split
  · rw [Thread.handle_modHandle, if_pos rfl]
  · rfl

theorem ran_queueOn {t' : Thread} (pc k : Nat) (h : Ran s u n th x) :
    Ran s ((u.enqueueMm n pc k t' r).placeCtx k) n th { x.setting r .mm with flights := x.flights ++ [⟨u.compute.nextIdent, u.mmRanges n t' r⟩] } := by
  have hctx := h.of_tables (t := u.modCtx k (fun y => { y with queue := y.queue ++ [u.mmOpAt n pc t' r] })) rfl rfl
  have hfly := (hctx.modThread (fun x => x.setting r .mm)).fly (u.mmRanges n t' r)
  rw [Thread.setting_flights] at hfly
  exact hfly.of_tables (State.placeCtx_threads _ k) (State.placeCtx_jobs _ k)

/-- What an MM operation touches rests on the window of its thread and on the contexts alone. -/
theorem State.mmRanges_congr (hb : u.benchRead = s.benchRead) (hc : u.compute.ctxs = s.compute.ctxs) (hn : u.compute.nextCtx = s.compute.nextCtx) :
    u.mmRanges n th r = s.mmRanges n th r := by
  simp only [State.mmRanges, State.emitParts, State.descOf, State.emitShape, hb, hc, hn]

theorem State.mmRanges_passRecord (s : State) (n op : Nat) (th : Thread) (r : BitVec 256) : (s.passRecord n th op).mmRanges n th r = s.mmRanges n th r :=
  State.mmRanges_congr (upkeep_passRecord s n th op).benchRead rfl rfl

theorem State.mmOpAt_passRecord (s : State) (n op pc : Nat) (th : Thread) (r : BitVec 256) : (s.passRecord n th op).mmOpAt n pc th r = s.mmOpAt n pc th r := by
  unfold State.mmOpAt
  rw [(upkeep_passRecord s n th op).benchRead]
  rfl

theorem State.mmOpAt_run (pc : Nat) (h : opcodeOf r = 0x0101) :
    s.mmOpAt n pc th r = ⟨s.compute.nextIdent, n, pc, r, bregBase th r, s.benchRead n (benchField (bregBase th r) 1024 (mmXLine r)) (mmXBytes r)⟩ := by
  rw [State.mmOpAt, if_pos h]

theorem State.mmOpAt_other (s : State) (n pc : Nat) (th : Thread) (h : opcodeOf r ≠ 0x0101) : s.mmOpAt n pc th r = ⟨s.compute.nextIdent, n, pc, r, bregBase th r, []⟩ := by
  rw [State.mmOpAt, if_neg h]

/-! ## Issue of an MM operation. -/

theorem State.issueMm_eq {after : Nat → State → State} (hi : Issues s n op (s.mmRanges n th r) th r) (hb : s.bregFault th r (mmPieces r (bregBase th r)) = none) :
    s.issueMm n op after = (((((s.passRecord n th op).queueMm n th.pc th r).thread? n).bind (fun x => (x.handle (handleOf r)).ctx)).elim
      ((s.passRecord n th op).queueMm n th.pc th r) (fun k => after k ((s.passRecord n th op).queueMm n th.pc th r))) := by
  unfold State.issueMm
  rw [hi.issue hb]
  dsimp only
  cases (((s.passRecord n th op).queueMm n th.pc th r).thread? n).bind (fun x => (x.handle (handleOf r)).ctx) <;> rfl

/-- With nothing to do at once, an MM operation is queued. -/
theorem State.issueMm_queues (hi : Issues s n op (s.mmRanges n th r) th r) (hb : s.bregFault th r (mmPieces r (bregBase th r)) = none) :
    s.issueMm n op (fun _ s => s) = (s.passRecord n th op).queueMm n th.pc th r := by
  rw [State.issueMm_eq hi hb]
  cases (((s.passRecord n th op).queueMm n th.pc th r).thread? n).bind (fun x => (x.handle (handleOf r)).ctx) <;> rfl

/-- An MM operation whose handle is bound has joined the queue of its context, and nothing else has changed but the engine of a context that had none. -/
structure QueuedMm (s t : State) (n op : Nat) (th : Thread) (r : BitVec 256) (k : Nat) (x : Ctx) : Prop where
  ctx : ∃ y, Tab.find t.compute.ctxs k = some y ∧ y = { x with queue := x.queue ++ [s.mmOpAt n th.pc th r], engine := y.engine, since := y.since } ∧
    (x.engine.isSome = true → y.engine = x.engine ∧ y.since = x.since)
  others : ∀ j, j ≠ k → Tab.find t.compute.ctxs j = Tab.find s.compute.ctxs j
  ran : Ran s t n th { (passed th op).setting r .mm with flights := th.flights ++ [⟨s.compute.nextIdent, s.mmRanges n th r⟩] }
  bytes : BytesSame s t
  frame : Frame [.compute, .integ, .health] s t

theorem State.bindCtx_bound {h : Nat} (hth : s.thread? n = some x) (hk : (x.handle h).ctx = some k) : s.bindCtx n h = (k, s) := by
  simp only [State.bindCtx, hth, hk]

theorem State.queueMm_bound {y : Ctx} (hi : Issues s n op (s.mmRanges n th r) th r) (hk : (th.handle (handleOf r)).ctx = some k)
    (hy : Tab.find s.compute.ctxs k = some y) : QueuedMm s ((s.passRecord n th op).queueMm n th.pc th r) n op th r k y := by
  obtain ⟨hth, -, -⟩ := hi.holds
  have hran := ran_passRecord op hth
  have hup := (upkeep_passRecord s n th op).mono (ls := [.compute, .integ, .health]) (by simp)
  have hall := hup.trans (upkeep_queueOn (s.passRecord n th op) n th.pc k th r)
  rw [State.queueMm_eq, State.bindCtx_bound hran.thread hk]
  refine ⟨?_, fun j hj => State.find_queueOn_ne _ n th.pc th r hj, ?_, hall.bytesSame, hall.frame⟩
  · rw [← State.mmOpAt_passRecord s n op]
    exact State.find_queueOn_self th.pc hy
  · rw [← State.mmRanges_passRecord s n op]
    exact ran_queueOn th.pc k hran

/-! ## A handle not yet bound (06 R184). -/

/-- The context that a handle is bound to when it is first used. -/
def State.freshCtx (s : State) (g : Gang) (n h : Nat) : Ctx :=
  ⟨g.core, n, h, none, s.now, Tile.unknown s.freeCtr, Tile.unknown (s.freeCtr + 400000), [], [], [], [], none, none, none, s.freeCtr, [], none, [], []⟩

/-- The state with a handle bound to a new context. -/
def State.bindFresh (s : State) (g : Gang) (n h : Nat) : State :=
  ((s.modCompute (fun c => { c with ctxs := Tab.put c.ctxs s.compute.nextCtx (s.freshCtx g n h), nextCtx := s.compute.nextCtx + 1 })).spend ctxSeeds).modThread n
    (fun th => th.modHandle h (fun y => { y with ctx := some s.compute.nextCtx }))

theorem State.bindCtx_unbound {h : Nat} {g : Gang} (hth : s.thread? n = some x) (hk : (x.handle h).ctx = none) (hg : s.gangOf? x = some g) :
    s.bindCtx n h = (s.compute.nextCtx, s.bindFresh g n h) := by
  simp only [State.bindCtx, hth, hk, hg]
  rfl

theorem upkeep_bindFresh (s : State) (g : Gang) (n h : Nat) : Upkeep [.compute, .freeCtr] s (s.bindFresh g n h) := by
  have hput : Upkeep [.compute] s (s.modCompute (fun c => { c with ctxs := Tab.put c.ctxs s.compute.nextCtx (s.freshCtx g n h), nextCtx := s.compute.nextCtx + 1 })) :=
    .of_tables rfl rfl (fun _ => rfl) rfl rfl (frame_modCompute s _)
  refine ((hput.mono (by simp)).trans ((upkeep_spend _ ctxSeeds).mono (by simp))).trans ((upkeep_modThread n ?_).mono (by simp))
  exact fun _ => ⟨rfl, rfl⟩

theorem State.find_bindFresh_self (s : State) (g : Gang) (n h : Nat) : Tab.find (s.bindFresh g n h).compute.ctxs s.compute.nextCtx = some (s.freshCtx g n h) :=
  Tab.find_put_self _ _ _

theorem State.find_bindFresh_ne (s : State) (g : Gang) (n h : Nat) {j : Nat} (hj : j ≠ s.compute.nextCtx) :
    Tab.find (s.bindFresh g n h).compute.ctxs j = Tab.find s.compute.ctxs j := Tab.find_put_ne _ _ hj

theorem ran_bindFresh {g : Gang} {h : Nat} (hr : Ran s u n th x) :
    Ran s (u.bindFresh g n h) n th (x.modHandle h (fun y => { y with ctx := some u.compute.nextCtx })) :=
  (hr.of_tables (t := (u.modCompute _).spend ctxSeeds) rfl rfl).modThread _

end

section
variable {s : State} {n op k : Nat} {th : Thread} {r : BitVec 256}

/-- An MM operation of a handle not yet bound: the handle is bound to a new context of the gang's core, and the operation is the first of its queue. -/
theorem State.queueMm_unbound {g : Gang} (hi : Issues s n op (s.mmRanges n th r) th r) (hk : (th.handle (handleOf r)).ctx = none) (hg : s.gangOf? th = some g) :
    ∃ y z, Tab.find ((s.passRecord n th op).queueMm n th.pc th r).compute.ctxs s.compute.nextCtx = some y ∧
      (∃ o, y = { s.freshCtx g n (handleOf r) with queue := [o], engine := y.engine, since := y.since } ∧ o.rcd = r ∧ o.thread = n ∧ o.pc = th.pc) ∧
      Ran s ((s.passRecord n th op).queueMm n th.pc th r) n th z ∧ (z.handle (handleOf r)).ctx = some s.compute.nextCtx ∧ z.pc = th.pc + 1 ∧
      (∀ j, j ≠ s.compute.nextCtx → Tab.find ((s.passRecord n th op).queueMm n th.pc th r).compute.ctxs j = Tab.find s.compute.ctxs j) ∧
      BytesSame s ((s.passRecord n th op).queueMm n th.pc th r) ∧ Frame [.compute, .integ, .health, .freeCtr] s ((s.passRecord n th op).queueMm n th.pc th r) := by
  obtain ⟨hth, -, -⟩ := hi.holds
  have hpass := upkeep_passRecord s n th op
  have hran := ran_passRecord op hth
  have hgang : (s.passRecord n th op).gangOf? (passed th op) = some g := (congrFun hpass.gangs _).trans hg
  have hbind := upkeep_bindFresh (s.passRecord n th op) g n (handleOf r)
  rw [State.queueMm_eq, State.bindCtx_unbound hran.thread hk hgang]
  have hall := ((hpass.mono (ls := [.compute, .integ, .health, .freeCtr]) (by simp)).trans (hbind.mono (by simp))).trans
    ((upkeep_queueOn ((s.passRecord n th op).bindFresh g n (handleOf r)) n th.pc s.compute.nextCtx th r).mono (by simp))
  obtain ⟨y, hy, hyq, -⟩ := State.find_queueOn_self (n := n) (th := th) (r := r) th.pc ((s.passRecord n th op).find_bindFresh_self g n (handleOf r))
  refine ⟨y, _, hy, ⟨_, hyq, rfl, rfl, rfl⟩, ran_queueOn th.pc _ (ran_bindFresh hran), ?_, ?_, fun j hj => ?_, hall.bytesSame, hall.frame⟩
  · refine (Thread.setting_ctx _ r .mm).trans ?_
    rw [Thread.handle_modHandle, if_pos rfl]
    rfl
  · exact Thread.setting_pc _ r .mm
  · exact (State.find_queueOn_ne _ n th.pc th r hj).trans (State.find_bindFresh_ne _ g n _ hj)

/-- What MM_LOAD does once it is queued: with nothing before it, it starts (03 R111). -/
def State.loadAtOnce (s : State) (n k : Nat) : State :=
  match Tab.find s.compute.ctxs k with
  | some x =>
    match x.queue, x.engine with
    | [mm], some e =>
      if s.tileRoom x.core e mm then
        match s.mmFault k x mm with
        | some f => ((s.modCtx k (fun x => { x with queue := [] })).modThread n (fun th => th.landed mm.op)).fault n mm.pc f 0
        | none => ((s.modCtx k (fun x => { x with queue := [] })).reserveTile x.core e mm).startLoad k mm
      else s
    | _, _ => s
  | none => s

theorem exec_mmLoad (n : Nat) (s : State) : exec (.mmLoad n) s = .next (s.issueMm n 0x0102 (fun k s => s.loadAtOnce n k)) := rfl

theorem State.loadAtOnce_behind {x : Ctx} (n : Nat) (hx : Tab.find s.compute.ctxs k = some x) (hq : 2 ≤ x.queue.length) : s.loadAtOnce n k = s := by
  unfold State.loadAtOnce
  simp only [hx]
  split
  · rename_i hone _
    rw [hone] at hq
    exact absurd hq (by simp)
  · rfl

theorem exec_mmRun (hi : Issues s n 0x0101 (s.mmRanges n th r) th r) (hb : s.bregFault th r (mmPieces r (bregBase th r)) = none) :
    exec (.mmRun n) s = .next ((s.passRecord n th 0x0101).queueMm n th.pc th r) := congrArg Host.Outcome.next (State.issueMm_queues hi hb)

theorem exec_mmEmit (hi : Issues s n 0x0103 (s.mmRanges n th r) th r) (hb : s.bregFault th r (mmPieces r (bregBase th r)) = none) :
    exec (.mmEmit n) s = .next ((s.passRecord n th 0x0103).queueMm n th.pc th r) := congrArg Host.Outcome.next (State.issueMm_queues hi hb)

/-- An MM_LOAD with operations before it is queued behind them. -/
theorem exec_mmLoad_behind {x : Ctx} (hi : Issues s n 0x0102 (s.mmRanges n th r) th r) (hb : s.bregFault th r (mmPieces r (bregBase th r)) = none)
    (hk : (th.handle (handleOf r)).ctx = some k) (hx : Tab.find s.compute.ctxs k = some x) (hq : x.queue ≠ []) :
    exec (.mmLoad n) s = .next ((s.passRecord n th 0x0102).queueMm n th.pc th r) := by
  have h := State.queueMm_bound hi hk hx
  obtain ⟨y, hy, hyq, -⟩ := h.ctx
  have hhandle : (((s.passRecord n th 0x0102).queueMm n th.pc th r).thread? n).bind (fun x => (x.handle (handleOf r)).ctx) = some k := by
    rw [h.ran.thread]
    exact (Thread.setting_ctx _ r .mm).trans hk
  have hlen : 2 ≤ y.queue.length := by
    have hpos := List.length_pos_iff.mpr hq
    rw [hyq, List.length_append, List.length_singleton]
    omega
  rw [exec_mmLoad, State.issueMm_eq hi hb, hhandle]
  exact congrArg Host.Outcome.next (State.loadAtOnce_behind n hy hlen)

end

end Sys2Proof.Machine

/-! # Cycle 0 of an engine's operations (03 R97, R104, R107, R110 to R112; 04 R131; 08 R263) -/

namespace Sys2Proof.Machine

/-! ## The engine a context is on (08 R263). -/

section
variable {s : State} {c : CoreNo} {e : EngNo} {k : Nat} {x : Ctx}

theorem State.ctxOn_holds (h : s.ctxOn c e = some (k, x)) : (k, x) ∈ s.compute.ctxs ∧ x.core = c ∧ x.engine = some e := by
  have hp := List.find?_some h
  exact ⟨List.mem_of_find?_eq_some h, by simpa using hp⟩

/-- An engine with a context on it takes no other. -/
theorem State.fillEngine_of_ctxOn (h : s.ctxOn c e = some (k, x)) : s.fillEngine c e = s := by
  obtain ⟨hmem, hcore, heng⟩ := State.ctxOn_holds h
  have hbusy : s.engineIdle c e = false := by
    have hmem : x ∈ Tab.vals s.compute.ctxs := List.mem_map_of_mem (f := Prod.snd) hmem
    rw [State.engineIdle, Bool.and_eq_false_iff]
    exact .inr (List.all_eq_false.mpr ⟨x, hmem, by simp [hcore, heng]⟩)
  unfold State.fillEngine
  dsimp only
  split
  · rw [hbusy]
    rfl
  · rfl

/-! ## Cycle 0 (03 R97, R104, R107, R110 to R112). -/

/-- An operation at the head of its engine's queue that nothing holds back. -/
structure AtCycle0 (s : State) (c : CoreNo) (e : EngNo) (k : Nat) (x : Ctx) (mm : MmOp) (rest : List MmOp) : Prop where
  on : s.ctxOn c e = some (k, x)
  ctx : Tab.find s.compute.ctxs k = some x
  queue : x.queue = mm :: rest
  idle : x.running = none
  runs : ∃ th g, s.thread? mm.thread = some th ∧ s.jobRuns th.job = true ∧ s.gangOf? th = some g ∧ g.preempted = false
  room : s.tileRoom c e mm = true
  sound : s.mmFault k x mm = none

/-- An operation has left the queue of its context, with its entry of finished tiles reserved. -/
def State.dequeued (s : State) (c : CoreNo) (e : EngNo) (k : Nat) (mm : MmOp) (rest : List MmOp) : State :=
  (s.modCtx k (fun x => { x with queue := rest })).reserveTile c e mm

/-- What the operation that leaves the queue starts: a run, a shadow load or an emission. -/
def State.startMm (s : State) (c : CoreNo) (e : EngNo) (k : Nat) (mm : MmOp) (rest : List MmOp) : State :=
  if opcodeOf mm.rcd = 0x0101 then s.startRun c e k mm
  else if opcodeOf mm.rcd = 0x0102 then (s.dequeued c e k mm rest).startLoad k mm
  else (s.dequeued c e k mm rest).startEmission mm.thread k mm

theorem exec_mmCycle0 {mm : MmOp} {rest : List MmOp} (h : AtCycle0 s c e k x mm rest)
    (hw : opcodeOf mm.rcd = 0x0101 → (mmSwap mm.rcd = true → x.loads = []) ∧ x.slotsPending mm.rcd = false) :
    exec (.mmCycle0 c e) s = .next (s.startMm c e k mm rest) := by
  obtain ⟨th, g, hth, hrun, hg, hin⟩ := h.runs
  have hwait : (decide (opcodeOf mm.rcd = 0x0101) && ((mmSwap mm.rcd && !x.loads.isEmpty) || x.slotsPending mm.rcd)) = false := by
    by_cases hop : opcodeOf mm.rcd = 0x0101
    · obtain ⟨hloads, hslots⟩ := hw hop
      cases hs : mmSwap mm.rcd
      · simp [hslots]
      · simp [hslots, hloads hs]
    · simp [hop]
  change Host.Outcome.next ((s.fillEngine c e).cycle0 c e) = _
  rw [State.fillEngine_of_ctxOn h.on]
  simp only [State.cycle0, h.on, h.queue, h.idle, hth, hrun, hg, hin, h.room, h.sound, hwait, State.startMm, State.dequeued, Option.map_some, Option.getD_some, Bool.not_true, Bool.not_false,
    Bool.and_self, Bool.or_self, Bool.false_eq_true, if_false]

end

section
variable {s : State} {c : CoreNo} {e : EngNo} {k : Nat} {x : Ctx} {mm : MmOp} {rest : List MmOp}

/-- The units' counters that a run is charged to are of its core alone. -/
theorem State.charge_compute (s : State) (c : CoreNo) (n cycles : Nat) :
    (s.charge c n cycles).compute = { s.compute with cores := (s.charge c n cycles).compute.cores } := by
  unfold State.charge
  split <;> rfl

theorem State.charge_now (s : State) (c : CoreNo) (n cycles : Nat) : (s.charge c n cycles).now = s.now := by
  unfold State.charge
  split <;> rfl

theorem State.charge_freeCtr (s : State) (c : CoreNo) (n cycles : Nat) : (s.charge c n cycles).freeCtr = s.freeCtr := by
  unfold State.charge
  split <;> rfl

theorem State.reserveTile_compute (s : State) (c : CoreNo) (e : EngNo) (mm : MmOp) :
    (s.reserveTile c e mm).compute = { s.compute with cores := (s.reserveTile c e mm).compute.cores } := by
  unfold State.reserveTile
  split <;> rfl

theorem State.reserveTile_now (s : State) (c : CoreNo) (e : EngNo) (mm : MmOp) : (s.reserveTile c e mm).now = s.now := by
  unfold State.reserveTile
  split <;> rfl

/-- A sample uses free values, and is noted or counted as skipped (14 R477, R478). -/
theorem State.sample_cases (s : State) (c : CoreNo) (e : EngNo) (k : Nat) (mm : MmOp) :
    s.sample c e k mm = s.spend 3 ∨ s.sample c e k mm = (s.spend 3).count 18 1 ∨
      ∃ x, s.sample c e k mm = { s.spend 3 with integ := { (s.spend 3).integ with captures := x } } := by
  unfold State.sample
  dsimp only
  generalize (if 0 < s.strikesOf (8 * c.val + e.val) then max 2 (bitsOf s.integ.policy.toNat 0 5 - 6) else bitsOf s.integ.policy.toNat 0 5) = m
  split
  · exact .inl rfl
  · split
    · exact .inr (.inr ⟨_, rfl⟩)
    · exact .inr (.inl rfl)

theorem State.sample_compute (s : State) (c : CoreNo) (e : EngNo) (k : Nat) (mm : MmOp) : (s.sample c e k mm).compute = s.compute := by
  obtain h | h | ⟨x, h⟩ := s.sample_cases c e k mm <;> rw [h] <;> rfl

theorem upkeep_sample (s : State) (c : CoreNo) (e : EngNo) (k : Nat) (mm : MmOp) : Upkeep [.integ, .health, .freeCtr] s (s.sample c e k mm) := by
  have hspend := (upkeep_spend s 3).mono (ls := [.integ, .health, .freeCtr]) (by simp)
  obtain h | h | ⟨x, h⟩ := s.sample_cases c e k mm <;> rw [h]
  · exact hspend
  · exact hspend.trans ((upkeep_count _ 18 1).mono (by simp))
  · exact hspend.trans ((upkeep_captures _ x).mono (by simp))

/-- A context as the run that leaves its queue finds it: tiles swapped, slots set up, the run under way (03 R104, R110, R112). -/
def Ctx.begun (x : Ctx) (mm : MmOp) (now seed : Nat) : Ctx :=
  { x.setUp mm.rcd with queue := (x.setUp mm.rcd).queue.drop 1, seed := seed, running := some (mm, now + (mmB mm.rcd * mmP' mm.rcd + 40) * arrayUnits) }

/-- Cycle 0 of a run without a next load, but for the sample. -/
def State.runBegun (s : State) (c : CoreNo) (e : EngNo) (k : Nat) (mm : MmOp) : State :=
  (((s.charge c mm.thread (mmB mm.rcd * mmP' mm.rcd + 40)).modCtx k (fun x => x.begun mm s.now s.freeCtr)).spend ctxSeeds).reserveTile c e mm

theorem State.startRun_eq (s : State) (c : CoreNo) (e : EngNo) (k : Nat) (h : mmLoadNext mm.rcd = false) : s.startRun c e k mm = (s.runBegun c e k mm).sample c e k mm := by
  unfold State.startRun
  simp only [h, Bool.false_eq_true, if_false, State.charge_now, State.charge_freeCtr]
  rfl

theorem State.runBegun_compute (s : State) (c : CoreNo) (e : EngNo) (k : Nat) (mm : MmOp) : (s.runBegun c e k mm).compute =
    { s.compute with cores := (s.runBegun c e k mm).compute.cores, ctxs := Tab.change s.compute.ctxs k (fun x => x.begun mm s.now s.freeCtr) } := by
  refine (State.reserveTile_compute _ c e mm).trans ?_
  rw [State.spend_compute, State.modCtx_compute, State.charge_compute]
  rfl

theorem upkeep_runBegun (s : State) (c : CoreNo) (e : EngNo) (k : Nat) (mm : MmOp) : Upkeep [.compute, .freeCtr] s (s.runBegun c e k mm) :=
  ((((upkeep_charge s c _ _).trans (upkeep_modCtx _ k _)).mono (by simp)).trans ((upkeep_spend _ ctxSeeds).mono (by simp))).trans ((upkeep_reserveTile _ c e mm).mono (by simp))

/-- Set-up swaps the tiles where the record says so, and beside them works on the drains alone. -/
theorem Ctx.setUp_rest (x : Ctx) (r : BitVec 256) : (x.setUp r).queue = x.queue ∧ (x.setUp r).loads = x.loads ∧ (x.setUp r).emissions = x.emissions ∧
    (x.setUp r).engine = x.engine ∧ (x.setUp r).active = (if mmSwap r then x.shadow else x.active) ∧ (x.setUp r).shadow = (if mmSwap r then x.active else x.shadow) := by
  unfold Ctx.setUp
  dsimp only
  split_ifs <;> exact ⟨rfl, rfl, rfl, rfl, rfl, rfl⟩

/-- Cycle 0 of a run. -/
theorem State.startRun_ok (hx : Tab.find s.compute.ctxs k = some x) (h : mmLoadNext mm.rcd = false) :
    Tab.find (s.startRun c e k mm).compute.ctxs k = some (x.begun mm s.now s.freeCtr) ∧
      (∀ j, j ≠ k → Tab.find (s.startRun c e k mm).compute.ctxs j = Tab.find s.compute.ctxs j) ∧
      (s.startRun c e k mm).compute.threads = s.compute.threads ∧ (s.startRun c e k mm).compute.jobs = s.compute.jobs ∧
      Upkeep [.compute, .integ, .health, .freeCtr] s (s.startRun c e k mm) := by
  have hcompute := (congrArg State.compute (s.startRun_eq c e k h)).trans ((State.sample_compute _ c e k mm).trans (s.runBegun_compute c e k mm))
  have hctxs : (s.startRun c e k mm).compute.ctxs = Tab.change s.compute.ctxs k (fun x => x.begun mm s.now s.freeCtr) := congrArg Compute.ctxs hcompute
  refine ⟨?_, fun j hj => ?_, (congrArg Compute.threads hcompute :), (congrArg Compute.jobs hcompute :), ?_⟩
  · rw [hctxs, Tab.find_change_self, hx, Option.map_some]
  · rw [hctxs, Tab.find_change_ne _ _ hj]
  · rw [State.startRun_eq s c e k h]
    exact ((upkeep_runBegun s c e k mm).mono (by simp)).trans ((upkeep_sample _ c e k mm).mono (by simp))

theorem State.dequeued_ok (hx : Tab.find s.compute.ctxs k = some x) :
    Tab.find (s.dequeued c e k mm rest).compute.ctxs k = some { x with queue := rest } ∧
      (∀ j, j ≠ k → Tab.find (s.dequeued c e k mm rest).compute.ctxs j = Tab.find s.compute.ctxs j) ∧
      (s.dequeued c e k mm rest).compute.threads = s.compute.threads ∧ (s.dequeued c e k mm rest).now = s.now ∧ Upkeep [.compute] s (s.dequeued c e k mm rest) := by
  have hcompute := State.reserveTile_compute (s.modCtx k (fun x => { x with queue := rest })) c e mm
  have hctxs : (s.dequeued c e k mm rest).compute.ctxs = (s.modCtx k (fun x => { x with queue := rest })).compute.ctxs := (congrArg Compute.ctxs hcompute :)
  refine ⟨?_, fun j hj => ?_, (congrArg Compute.threads hcompute :), State.reserveTile_now _ c e mm, (upkeep_modCtx s k _).trans (upkeep_reserveTile _ c e mm)⟩
  · rw [hctxs, State.find_modCtx_self _ _ hx]
  · rw [hctxs, State.find_modCtx_ne _ _ hj]

theorem exec_mmCycle0_load (h : AtCycle0 s c e k x mm rest) (hop : opcodeOf mm.rcd = 0x0102) :
    exec (.mmCycle0 c e) s = .next ((s.dequeued c e k mm rest).startLoad k mm) := by
  rw [exec_mmCycle0 h (fun h1 => by rw [hop] at h1; cases h1), State.startMm, if_neg (by rw [hop]; decide), if_pos hop]

theorem exec_mmCycle0_emit (h : AtCycle0 s c e k x mm rest) (hop : opcodeOf mm.rcd = 0x0103) :
    exec (.mmCycle0 c e) s = .next ((s.dequeued c e k mm rest).startEmission mm.thread k mm) := by
  rw [exec_mmCycle0 h (fun h1 => by rw [hop] at h1; cases h1), State.startMm, if_neg (by rw [hop]; decide), if_neg (by rw [hop]; decide)]

/-- A first load ends 48 array cycles from now (03 R110, R111). -/
theorem State.find_startLoad (hx : Tab.find s.compute.ctxs k = some x) (hl : x.loads = []) :
    Tab.find (s.startLoad k mm).compute.ctxs k = some { x with loads := [(mm, s.now + 48 * arrayUnits)] } := by
  rw [State.startLoad, State.find_modCtx_self _ _ hx]
  simp only [hl, List.map_nil, List.foldl_nil, List.nil_append]

/-- MM_EMIT's emission follows those of its context, by the fields of its record (06 R205). -/
theorem State.find_startEmission (n : Nat) (hx : Tab.find s.compute.ctxs k = some x) (hop : opcodeOf mm.rcd = 0x0103) :
    ∃ m, Tab.find (s.startEmission n k mm).compute.ctxs k = some { x with emissions := x.emissions ++ [m] } ∧ m.mm = mm ∧ m.row = flag mm.rcd 32 ∧
      m.slotBase = fld mm.rcd 33 10 ∧ m.desc = benchField mm.base 32 (fld mm.rcd 53 18) := by
  have hrun : opcodeOf mm.rcd ≠ 0x0101 := by
    rw [hop]
    decide
  exact ⟨_, s.find_modCtx_self _ hx, rfl, rfl, if_neg hrun, by simp only [hrun, if_false]⟩

theorem upkeep_startEmission (s : State) (n k : Nat) (mm : MmOp) : Upkeep [.compute] s (s.startEmission n k mm) := upkeep_modCtx s k _

theorem upkeep_startLoad (s : State) (k : Nat) (mm : MmOp) : Upkeep [.compute] s (s.startLoad k mm) := upkeep_modCtx s k _

end

end Sys2Proof.Machine

/-! # Engines at the end of an operation (03 R93, R98, R105, R108, R112; 06 R190; 08 R266; 14 R481) -/

namespace Sys2Proof.Machine

section
variable {s t : State} {c : CoreNo} {e : EngNo} {k : Nat} {x y : Ctx} {mm : MmOp} {ks : List Part}

/-! ## The end of an operation (06 R190; 08 R266; 14 R481). -/

/-- An engine in ordinary use: its context stands in the table, it has not three strikes, its gang is not pre-empted, and no job is ending. -/
structure Steady (s : State) (c : CoreNo) (e : EngNo) (k : Nat) (x : Ctx) : Prop where
  ctx : Tab.find s.compute.ctxs k = some x
  core : x.core = c
  engine : x.engine = some e
  strikes : s.strikesOf (8 * c.val + e.val) < 3
  stays : s.ctxYields x = false
  jobs : s.NoneEnding

theorem Steady.of_ctxOn (h : s.ctxOn c e = some (k, x)) (hx : Tab.find s.compute.ctxs k = some x) (hs : s.strikesOf (8 * c.val + e.val) < 3) (hy : s.ctxYields x = false)
    (hj : ∀ j ∈ s.compute.jobs, j.2.ending = none) : Steady s c e k x :=
  have ⟨_, hcore, hengine⟩ := State.ctxOn_holds h
  ⟨hx, hcore, hengine, hs, hy, State.noneEnding_of_mem hj⟩

/-- Steadiness goes on with the standing of threads and jobs, whatever the work of the context. -/
theorem Steady.standing (h : Steady s c e k x) (hu : Standing s t) (hjig : t.integ.jig = s.integ.jig) (hy : Tab.find t.compute.ctxs k = some y)
    (hxy : y.core = x.core ∧ y.engine = x.engine ∧ y.thread = x.thread) : Steady t c e k y := by
  obtain ⟨hcore, hengine, hthread⟩ := hxy
  refine ⟨hy, hcore.trans h.core, hengine.trans h.engine, ?_, ?_, hu.noneEnding h.jobs⟩
  · rw [State.strikesOf, hjig]
    exact h.strikes
  · rw [State.ctxYields_eq, hu.out, hthread]
    exact h.stays

/-- At an engine in ordinary use an operation that ends changes its thread alone, and no job closes. -/
theorem Steady.mmEnd (h : Steady s c e k x) (mm : MmOp) :
    (s.mmEnd k mm).settleAll = s.mmEnd k mm ∧ (s.mmEnd k mm).compute.ctxs = s.compute.ctxs ∧ (s.mmEnd k mm).now = s.now ∧ Upkeep [.compute] s (s.mmEnd k mm) := by
  have hyield : s.yieldCtx k = s := by
    unfold State.yieldCtx
    simp only [h.ctx, h.stays, Bool.and_false, Bool.false_eq_true, if_false]
  have hripe : s.retireRipe c e = s := by
    unfold State.retireRipe
    simp only [h.strikes, decide_true, Bool.true_or, if_true]
  have hcases : s.mmEnd k mm = s ∨ s.mmEnd k mm = s.modThread mm.thread (fun th => th.landed mm.op) := by
    unfold State.mmEnd
    simp only [h.ctx, h.engine, h.core, hyield, hripe]
    split
    · exact .inl rfl
    · exact .inr rfl
  obtain hend | hend := hcases <;> rw [hend]
  · exact ⟨State.settleAll_of_noneEnding h.jobs, rfl, rfl, .refl _ _⟩
  · have hup := upkeep_landed s mm.thread mm.op
    exact ⟨State.settleAll_of_noneEnding (hup.noneEnding h.jobs), rfl, rfl, hup⟩

theorem Steady.atTime (h : Steady s c e k x) (due : Nat) : Steady (s.at_ due) c e k x := ⟨h.ctx, h.core, h.engine, h.strikes, h.stays, h.jobs⟩

/-- Work of an engine in ordinary use that ends: beside its context it has come to no more than upkeep. -/
theorem Steady.work_ends {due : Nat} {f : Ctx → Ctx} (h : Steady s c e k x) (mm : MmOp) (hu : Upkeep [.compute] (s.at_ due) t)
    (hc : t.compute.ctxs = (s.modCtx k f).compute.ctxs) (hf : (f x).core = x.core ∧ (f x).engine = x.engine ∧ (f x).thread = x.thread) :
    (t.mmEnd k mm).settleAll.now = max s.now due ∧ Tab.find (t.mmEnd k mm).settleAll.compute.ctxs k = some (f x) ∧
      (∀ j, j ≠ k → Tab.find (t.mmEnd k mm).settleAll.compute.ctxs j = Tab.find s.compute.ctxs j) ∧ BytesSame s (t.mmEnd k mm).settleAll ∧
      Frame [.compute, .now] s (t.mmEnd k mm).settleAll := by
  have hself : Tab.find t.compute.ctxs k = some (f x) := by rw [hc, State.find_modCtx_self _ _ h.ctx]
  obtain ⟨hsettle, hctxs, -, hend⟩ := ((h.atTime due).standing hu.toStanding hu.jig hself hf).mmEnd mm
  have hall := ((upkeep_atTime s due).mono (ls := [.compute, .now]) (by simp)).trans ((hu.trans hend).mono (by simp))
  rw [hsettle, hctxs]
  exact ⟨(hu.trans hend).frame .now (by simp), hself, fun j hj => by rw [hc, State.find_modCtx_ne _ _ hj], hall.bytesSame, hall.frame⟩

/-! ## Operations that leave the contexts as they are. -/

@[simp] theorem State.saturated_ctxs (s : State) (c : CoreNo) (j n : Nat) : (s.saturated c j n).compute.ctxs = s.compute.ctxs := by
  unfold State.saturated
  split <;> rfl

@[simp] theorem State.fillTile_ctxs (s : State) (c : CoreNo) (mm : MmOp) (dest bytes : Nat) : (s.fillTile c mm dest bytes).compute.ctxs = s.compute.ctxs := rfl

@[simp] theorem State.report_ctxs (s : State) (th : Thread) (site off amax : Nat) : (s.report th site off amax).compute.ctxs = s.compute.ctxs := by
  unfold State.report
  dsimp only
  split <;> rfl

/-- With no word of bench memory that fails every read, a unit's reads do not fail. -/
theorem State.benchFails_good (n : Nat) (spans : List (Nat × Nat)) (h : s.integ.badWords = []) : s.benchFails n spans = s := by
  have hgood : ∀ (th : Thread) (p : Nat × Nat), s.placeBad th (.win p.1) p.2 = false := fun th p => by
    cases hg : s.gangOf? th <;> simp [State.placeBad, State.benchBad, h, hg]
  unfold State.benchFails
  split
  · simp [hgood]
  · rfl

/-! ## The last cycle of a run (03 R93, R98, R105, R112). -/

/-- What a run has added to its context when it ends, and its saturations. -/
def State.accumulated (s : State) (x : Ctx) (mm : MmOp) (stale : List Nat) : Ctx × Nat :=
  x.accumulate mm.rcd (Machine.streamed mm.old (s.benchRead mm.thread (benchField mm.base 1024 (mmXLine mm.rcd)) (mmXBytes mm.rcd)) stale)
    (if mmXblocked mm.rcd then s.benchRead mm.thread (benchField mm.base 1024 (mmXexpLine mm.rcd)) (mmB mm.rcd) else [])
    (if mmAllowEn mm.rcd then s.benchRead mm.thread (benchField mm.base 1024 (mmAllowLine mm.rcd)) (ceilDiv (mmB mm.rcd) 8) else [])
    (if mmZpEn mm.rcd then (ScaleE.ofNat (leNat (s.benchRead mm.thread (benchField mm.base 8 (mmZpEntry mm.rcd)) 8))).zp else 0)

/-- The drain holds every result of a run; its emission starts, or its entry of finished tiles fills. -/
def State.drained (s : State) (c : CoreNo) (k : Nat) (mm : MmOp) (a : Ctx × Nat) : State :=
  let u := (s.modCtx k (fun _ => { a.1 with running := none })).saturated c (((s.thread? mm.thread).map (·.job)).getD 0) a.2
  if mmEmitAfter mm.rcd then u.startEmission mm.thread k mm else u.fillTile c mm 0 0

theorem exec_mmLastCycle {due : Nat} (stale : List Nat) (bad : Bool) (hon : s.ctxOn c e = some (k, x)) (hrun : x.running = some (mm, due)) (hgood : s.integ.badWords = []) :
    exec (.mmLastCycle c ⟨e, bad⟩ stale) s =
      .next ((((s.at_ due).drained c k mm ((s.at_ due).accumulated x mm stale)).mmEnd k mm).engineParity mm.thread bad).settleAll := by
  change execMmLastCycle c ⟨e, bad⟩ stale s = _
  have hread : ∀ spans, (s.at_ due).benchFails mm.thread spans = s.at_ due := fun spans => State.benchFails_good _ spans hgood
  simp only [execMmLastCycle, hon, hrun, hread]
  rfl

theorem upkeep_drained (s : State) (c : CoreNo) (k : Nat) (mm : MmOp) (a : Ctx × Nat) : Upkeep [.compute] s (s.drained c k mm a) := by
  have hsat := (upkeep_modCtx s k (fun _ => { a.1 with running := none })).trans (upkeep_saturated _ c (((s.thread? mm.thread).map (·.job)).getD 0) a.2)
  unfold State.drained
  dsimp only
  split
  · exact hsat.trans (upkeep_startEmission _ _ _ _)
  · exact hsat.trans (upkeep_fillTile _ _ _ _ _)

theorem State.drained_ctxs (s : State) (c : CoreNo) (k : Nat) (a : Ctx × Nat) (h : mmEmitAfter mm.rcd = false) :
    (s.drained c k mm a).compute.ctxs = (s.modCtx k (fun _ => { a.1 with running := none })).compute.ctxs := by
  simp only [State.drained, h, Bool.false_eq_true, if_false, State.fillTile_ctxs, State.saturated_ctxs]

/-- A run works on the drains of its context alone. -/
theorem Ctx.accumulate_rest (x : Ctx) (r : BitVec 256) (xs ex allow : List Byte) (zp : Int) :
    (x.accumulate r xs ex allow zp).1.core = x.core ∧ (x.accumulate r xs ex allow zp).1.engine = x.engine ∧ (x.accumulate r xs ex allow zp).1.thread = x.thread := by
  unfold Ctx.accumulate
  dsimp only
  split_ifs <;> exact ⟨rfl, rfl, rfl⟩

theorem State.engineParity_good (s : State) (n : Nat) : s.engineParity n false = s := rfl

/-! ## The end of a shadow load (03 R88, R108, R111). -/

theorem exec_shadowLoadComplete {due : Nat} {rest : List (MmOp × Nat)} (hon : s.ctxOn c e = some (k, x)) (hl : x.loads = (mm, due) :: rest)
    (hop : opcodeOf mm.rcd = 0x0102) (hgood : s.integ.badWords = []) :
    exec (.shadowLoadComplete c e) s = .next (((((s.at_ due).modCtx k (fun x => { x with
      shadow := Tile.ofBytes ((s.at_ due).benchRead mm.thread (benchField mm.base 1024 (fld mm.rcd 40 13)) (1024 * tileLines (mmSfmt mm.rcd))) (mmLane mm.rcd) (mmSfmt mm.rcd)
        (fld mm.rcd 53 5) (fld mm.rcd 58 5)
      loads := rest })).fillTile c mm 0 0).mmEnd k mm).settleAll) := by
  change execShadowLoadComplete c e s = _
  have hread : ∀ spans, (s.at_ due).benchFails mm.thread spans = s.at_ due := fun spans => State.benchFails_good _ spans hgood
  simp only [execShadowLoadComplete, hon, hl, hop, hread, if_true]

end

end Sys2Proof.Machine

/-! # Emissions and the bytes they write (03 R106, R107; 05 R165; 06 R182; 08 R268) -/

namespace Sys2Proof.Machine

/-! ## Bytes written to a window (06 R182; 08 R268). -/

theorem Mem.read_one (d : Byte) (m : Mem) (a : Nat) : Mem.read d m a 1 = [Mem.get d m a] := rfl

/-- A byte outside those written reads as before. -/
theorem Mem.read_write_out (d : Byte) (m : Mem) (a : Nat) (bs : List Byte) (x : Nat) (h : x < a ∨ a + bs.length ≤ x) :
    Mem.read d (Mem.write d m a bs) x 1 = Mem.read d m x 1 := by
  rw [Mem.read_one, Mem.read_one, Mem.get_write_out d m a bs x h]

section
variable {s : State} {th : Thread} {g : Gang}

theorem State.gangOf?_modGang (s : State) (j gi : Nat) (f : Gang → Gang) (x : Thread) :
    (s.modGang j gi f).gangOf? x = if x.job = j ∧ x.gang = gi then (s.gangOf? x).map f else s.gangOf? x := by
  unfold State.gangOf? State.modGang
  rw [State.job?_modJob]
  by_cases hj : x.job = j
  · rw [if_pos hj]
    cases s.job? x.job with
    | none => simp
    | some y =>
      rw [Option.map_some, Option.bind_some, Option.bind_some, Tab.find_change]
      simp only [hj, true_and]
  · simp only [hj, if_false, false_and]

theorem standing_modGang (s : State) (j gi : Nat) {f : Gang → Gang} (hf : ∀ g, (f g).preempted = g.preempted) : Standing s (s.modGang j gi f) := by
  refine ⟨rfl, funext fun i => ?_, funext fun n => ?_⟩
  · unfold State.life State.modGang
    rw [State.job?_modJob]
    split
    · cases s.job? i <;> rfl
    · rfl
  · change ((s.thread? n).bind (s.modGang j gi f).gangOf?).map (·.preempted) = _
    unfold State.out
    cases s.thread? n with
    | none => rfl
    | some x =>
      rw [Option.bind_some, Option.bind_some, State.gangOf?_modGang]
      split
      · cases s.gangOf? x <;> simp [hf]
      · rfl

/-- A write to a window goes to the gang's saved image, or to its core's bench memory, where words written whole fail no longer. -/
theorem State.winWrite_cases (off : Nat) (bs : List Byte) (hg : s.gangOf? th = some g) :
    (∃ m, g.saved = some m ∧ s.winWrite th.job th.gang off bs = s.modGang th.job th.gang (fun g => { g with saved := some (Mem.write 0 m off bs) })) ∨
      (g.saved = none ∧ s.winWrite th.job th.gang off bs =
        (s.modCore g.core (fun c => { c with bench := Mem.write 0 c.bench (g.allotAt + off) bs })).heal 0 g.core.val (g.allotAt + off) bs.length) := by
  have hg : (s.job? th.job).bind (fun x => Tab.find x.gangs th.gang) = some g := hg
  unfold State.winWrite
  simp only [hg]
  cases hs : g.saved with
  | none => exact .inr ⟨rfl, rfl⟩
  | some m => exact .inl ⟨m, rfl, rfl⟩

/-- Of a place, what lies outside the window rests on the tiers alone. -/
theorem State.placeRead_congr {t : State} (ht : t.tiers = s.tiers) (hs : t.serv = s.serv) {q : Place} (hq : ∀ o, q ≠ .win o) (n : Nat) :
    t.placeRead th q n = s.placeRead th q n := by
  cases q with
  | win o => exact absurd rfl (hq o)
  | flash o => simp only [State.placeRead, State.flashRead, ht, hs]
  | _ => simp only [State.placeRead, ht]

theorem stored_winWrite (off : Nat) (bs : List Byte) (hg : s.gangOf? th = some g) : Stored s (s.winWrite th.job th.gang off bs) th (.win off) bs := by
  have hwin : ∀ {v : State} {g : Gang} (o n : Nat), v.gangOf? th = some g → v.placeRead th (.win o) n = v.winRead g o n := fun o n h => by
    simp only [State.placeRead, h]
  obtain ⟨m, hsaved, hw⟩ | ⟨hsaved, hw⟩ := State.winWrite_cases off bs hg
  · have hgang : (s.winWrite th.job th.gang off bs).gangOf? th = some { g with saved := some (Mem.write 0 m off bs) } := by
      rw [hw, State.gangOf?_modGang, if_pos ⟨rfl, rfl⟩, hg, Option.map_some]
    refine ⟨?_, fun q hq => ?_, fun c a _ => by rw [hw]; rfl⟩
    · rw [hwin _ _ hgang]
      exact Mem.read_write 0 m off bs
    · cases q with
      | win b =>
        rw [hwin _ _ hgang, hwin _ _ hg]
        simp only [State.winRead, hsaved]
        exact Mem.read_write_out 0 m off bs b hq
      | _ => exact State.placeRead_congr (by simp) (by simp) (by simp) 1
  · have hgang : (s.winWrite th.job th.gang off bs).gangOf? th = some g := by
      rw [hw]
      exact hg
    have hcore : ∀ b, (s.winWrite th.job th.gang off bs).core b =
        if b = g.core then { s.core g.core with bench := Mem.write 0 (s.core g.core).bench (g.allotAt + off) bs } else s.core b := fun b => by
      rw [hw]
      exact State.core_modCore s g.core b (fun c => { c with bench := Mem.write 0 c.bench (g.allotAt + off) bs })
    refine ⟨?_, fun q hq => ?_, fun c a hout => ?_⟩
    · rw [hwin _ _ hgang]
      simp only [State.winRead, hsaved, hcore, if_true]
      exact Mem.read_write 0 _ _ bs
    · cases q with
      | win b =>
        rw [hwin _ _ hgang, hwin _ _ hg]
        simp only [State.winRead, hsaved, hcore, if_true]
        refine Mem.read_write_out 0 _ _ bs _ ?_
        have hq : b < off ∨ off + bs.length ≤ b := hq
        omega
      | _ => exact State.placeRead_congr (by simp) (by simp) (by simp) 1
    · rw [hcore]
      split
      · rename_i hc
        rw [hc]
        exact Mem.get_write_out 0 _ _ bs a (hout off g rfl hg hc)
      · rfl

theorem State.winWrite_ctxs (s : State) (j gi off : Nat) (bs : List Byte) : (s.winWrite j gi off bs).compute.ctxs = s.compute.ctxs := by
  unfold State.winWrite
  split
  · rfl
  · split <;> rfl

/-- Of the state of integrity a write to a window changes no more than the words that fail. -/
theorem State.winWrite_integ (s : State) (j gi off : Nat) (bs : List Byte) :
    (s.winWrite j gi off bs).integ = { s.integ with badWords := (s.winWrite j gi off bs).integ.badWords } := by
  unfold State.winWrite
  split
  · rfl
  · split <;> rfl

theorem frame_winWrite (s : State) (j gi off : Nat) (bs : List Byte) : Frame [.compute, .integ] s (s.winWrite j gi off bs) := by
  intro p hp
  cases p <;> simp [Part.same] at hp ⊢

theorem standing_winWrite (s : State) (j gi off : Nat) (bs : List Byte) : Standing s (s.winWrite j gi off bs) := by
  unfold State.winWrite
  split
  · exact .refl s
  · split
    · exact standing_modGang s j gi (fun _ => rfl)
    · exact .of_tables rfl rfl

theorem State.benchWrite_eq {n : Nat} (off : Nat) (bs : List Byte) (h : s.thread? n = some th) : s.benchWrite n off bs = s.winWrite th.job th.gang off bs := by
  unfold State.benchWrite
  rw [h]

end

/-! ## The end of an emission (03 R106, R107). -/

section
variable {s u : State} {c : CoreNo} {e : EngNo} {k due o : Nat} {x : Ctx} {m : Emission} {rest : List Emission} {th : Thread} {g : Gang} {bs : List Byte}

/-- An emission's results stand in the window, whatever upkeep follows, and its engine lets it go. -/
theorem emission_ends (mm : MmOp) (h : Steady s c e k x) (hg : s.gangOf? th = some g) (hu : Upkeep [.compute] ((s.at_ due).winWrite th.job th.gang o bs) u)
    (hc : u.compute.ctxs = (s.modCtx k (fun x => { x with emissions := rest })).compute.ctxs) :
    (u.mmEnd k mm).settleAll.now = max s.now due ∧ Tab.find (u.mmEnd k mm).settleAll.compute.ctxs k = some { x with emissions := rest } ∧
      Stored s (u.mmEnd k mm).settleAll th (.win o) bs ∧ (∀ j, j ≠ k → Tab.find (u.mmEnd k mm).settleAll.compute.ctxs j = Tab.find s.compute.ctxs j) ∧
      Frame [.compute, .integ, .now] s (u.mmEnd k mm).settleAll := by
  have hw := frame_winWrite (s.at_ due) th.job th.gang o bs
  have hstand := ((upkeep_atTime s due).toStanding.trans (standing_winWrite _ th.job th.gang o bs)).trans hu.toStanding
  have hjig : u.integ.jig = s.integ.jig := hu.jig.trans (congrArg Integrity.jig (State.winWrite_integ (s.at_ due) th.job th.gang o bs) :)
  have hself : Tab.find u.compute.ctxs k = some { x with emissions := rest } := by rw [hc, State.find_modCtx_self _ _ h.ctx]
  obtain ⟨hsettle, hctxs, hnow, hend⟩ := (h.standing hstand hjig hself ⟨rfl, rfl, rfl⟩).mmEnd mm
  have hall := hu.trans hend
  have hstored : Stored (s.at_ due) ((s.at_ due).winWrite th.job th.gang o bs) th (.win o) bs := stored_winWrite o bs hg
  have hstored := hall.stored (by simp) hstored
  rw [hsettle, hctxs, hc]
  refine ⟨?_, by rw [← hc, hself], ⟨hstored.there, hstored.rest, hstored.bench⟩, fun j hj => State.find_modCtx_ne _ _ hj, ?_⟩
  · exact (hall.frame .now (by simp)).trans (hw .now (by simp))
  · exact (((frame_atTime s due).mono (by simp)).trans (hw.mono (by simp))).trans (hall.frame.mono (by simp))

theorem exec_emissionComplete_binary {d n : Nat} (hon : s.ctxOn c e = some (k, x)) (hem : x.emissions = m :: rest) (hth : s.thread? m.mm.thread = some th)
    (hbin : m.binary = some n) (hcounts : x.counts ≠ []) (hd : d = (EmitDesc.ofBytes (s.benchRead m.mm.thread m.desc 64)).dest)
    (hbs : bs = fit n (x.counts.flatMap (fun v => leBytes 2 v))) (hfree : s.pieceLocked m.mm.thread d n = false) :
    exec (.emissionComplete c ⟨e, false⟩) s =
      .next ((((((s.at_ m.due).winWrite th.job th.gang d bs).modCtx k (fun x => { x with emissions := rest })).fillTile c m.mm d n).mmEnd k m.mm).settleAll) := by
  change execEmissionComplete c ⟨e, false⟩ s = _
  have hcounts : x.counts.isEmpty = false := by simpa using hcounts
  have hthread : (s.at_ m.due).thread? m.mm.thread = some th := hth
  have hread : (s.at_ m.due).benchRead = s.benchRead := rfl
  have hfree : (s.at_ m.due).pieceLocked m.mm.thread d n = false := hfree
  simp only [execEmissionComplete, hon, hem, hth, hbin, hcounts, hread, ← hd, hfree, Bool.false_eq_true, if_false, ← hbs, State.engineParity_good]
  rw [State.benchWrite_eq d bs hthread]

end

section
variable {s : State} {c : CoreNo} {e : EngNo} {k : Nat} {x : Ctx} {m : Emission} {rest : List Emission} {th : Thread}

/-- An emission's tile maximum goes to its scale site, where it has one (05 R165). -/
def State.reported (s : State) (th : Thread) (d : EmitDesc) (o : Emitted) : State :=
  match o.amax with
  | some v => if d.site = 0xFFFF then s else s.report th d.site d.oentry v
  | none => s

theorem State.reported_cases (s : State) (th : Thread) (d : EmitDesc) (o : Emitted) : s.reported th d o = s ∨ ∃ v, s.reported th d o = s.report th d.site d.oentry v := by
  unfold State.reported
  split
  · split
    · exact .inl rfl
    · exact .inr ⟨_, rfl⟩
  · exact .inl rfl

theorem upkeep_reported (s : State) (th : Thread) (d : EmitDesc) (o : Emitted) : Upkeep [.compute] s (s.reported th d o) := by
  obtain h | ⟨v, h⟩ := s.reported_cases th d o <;> rw [h]
  · exact .refl _ _
  · exact upkeep_report s th _ _ v

theorem State.reported_ctxs (s : State) (th : Thread) (d : EmitDesc) (o : Emitted) : (s.reported th d o).compute.ctxs = s.compute.ctxs := by
  obtain h | ⟨v, h⟩ := s.reported_cases th d o <;> rw [h]
  exact s.report_ctxs th _ _ v

/-- An emission without side output or rescue, while no plausibility check acts, writes its results and is counted. -/
theorem State.emitted_plain {d : EmitDesc} {o : Emitted} (x : Ctx) (hth : s.thread? m.mm.thread = some th) (hside : o.side = []) (hentry : o.entry = none) (hplaus : s.plausMode = 2) :
    s.emitted c th m d o x =
      (((s.winWrite th.job th.gang d.dest o.bytes).saturated c th.job o.sats).reported th d o).fillTile c m.mm d.dest (d.stride m.results * m.slotCount) := by
  have hplaus : ((((s.winWrite th.job th.gang d.dest o.bytes).saturated c th.job o.sats).reported th d o).fillTile c m.mm d.dest (d.stride m.results * m.slotCount)).plausMode = 2 := by
    have hup := ((upkeep_saturated (s.winWrite th.job th.gang d.dest o.bytes) c th.job o.sats).trans (upkeep_reported _ th d o)).trans
      (upkeep_fillTile _ c m.mm d.dest (d.stride m.results * m.slotCount))
    have hinteg := hup.frame .integ (by simp)
    rw [State.plausMode, hinteg, State.winWrite_integ]
    exact hplaus
  unfold State.emitted
  simp only [hside, List.isEmpty_nil, if_true, hentry, State.benchWrite_eq d.dest o.bytes hth]
  exact if_neg (fun h => h.2 hplaus)

theorem State.pieceLocked_none (s : State) (n off : Nat) : s.pieceLocked n off 0 = false := by
  unfold State.pieceLocked
  split <;> rfl

theorem exec_emissionComplete_slots {d : EmitDesc} {o : Emitted} (hon : s.ctxOn c e = some (k, x)) (hem : x.emissions = m :: rest) (hth : s.thread? m.mm.thread = some th)
    (hbin : m.binary = none) (hd : d = EmitDesc.ofBytes (s.benchRead m.mm.thread m.desc 64))
    (ho : o = emitSlots d (ScaleE.ofNat (leNat (s.benchRead m.mm.thread d.oentry 8)))
      (if d.form = 2 then (List.range m.results).map (fun i => fieldAt (s.benchRead m.mm.thread (d.ascale + 4 * i) 4) 0 4) else []) []
      (if d.corrEn then some ((List.range m.results).map (fun i => signedOf 48 (leNat (s.benchRead m.mm.thread (d.corr + 8 * i) 8)))) else none) (x.emitted m))
    (houtl : d.outlEn = false) (hside : o.side = []) (hentry : o.entry = none) (hfree : s.pieceLocked m.mm.thread d.dest o.bytes.length = false) (hplaus : s.plausMode = 2) :
    exec (.emissionComplete c ⟨e, false⟩) s = .next ((((((((s.at_ m.due).winWrite th.job th.gang d.dest o.bytes).saturated c th.job o.sats).reported th d o).fillTile c m.mm d.dest
      (d.stride m.results * m.slotCount)).modCtx k (fun x => { x with emissions := rest })).mmEnd k m.mm).settleAll) := by
  change execEmissionComplete c ⟨e, false⟩ s = _
  have hread : (s.at_ m.due).benchRead = s.benchRead := rfl
  have hfree : (s.at_ m.due).pieceLocked m.mm.thread d.dest o.bytes.length = false := hfree
  have hth' : (s.at_ m.due).thread? m.mm.thread = some th := hth
  simp only [execEmissionComplete, hon, hem, hth, hbin, hread, ← hd, houtl, and_false, Bool.false_eq_true, if_false, ← ho, hside, hentry, Option.isSome_none, List.length_nil,
    List.any_cons, List.any_nil, hfree, State.pieceLocked_none, Bool.or_self, State.engineParity_good]
  rw [State.emitted_plain x hth' hside hentry hplaus]

end

end Sys2Proof.Machine

/-! # Jobs that fail a check (14 R461, R484, R485) -/

namespace Sys2Proof.Machine

/-! ## What stops a job, and what settles it. -/

/-- A job that ran with r restarts has closed, is ending, or has started again. -/
def State.StoppedRun (s : State) (j r : Nat) : Prop :=
  s.life j = none ∨ ∃ p, s.life j = some p ∧ ((p.1 ≠ none ∧ p.2 = r) ∨ (p.1 = none ∧ p.2 = r + 1))

section
variable {s : State} {i j r : Nat} {x : Job}

theorem State.pinnedWrite_compute (s : State) (o : Nat) (bs : List Byte) : (s.pinnedWrite o bs).compute = s.compute := by simp [State.pinnedWrite]

theorem State.entryWrite_life (s : State) (e : Nat × Nat) (bs : List Byte) : (s.entryWrite e bs).life = s.life := by
  unfold State.entryWrite
  dsimp only
  split
  · split
    · exact State.life_of_jobs (congrArg Compute.jobs (s.hbmWrite_compute _ bs))
    · split
      · exact State.life_of_jobs rfl
      · exact State.life_of_jobs (congrArg Compute.jobs (s.pinnedWrite_compute _ bs))
  · split
    · rfl
    · split
      · rfl
      · exact (standing_winWrite s _ _ _ bs).life

theorem State.rewriteEntries_life (s : State) (x : ScaleSite) : (s.rewriteEntries x).life = s.life :=
  State.foldl_keeps State.life _ (fun s _ => s.entryWrite_life _ _) _ s

/-- A scale site at the end of a job's step. -/
def State.siteStep (j : Nat) (s : State) (e : Nat × ScaleSite) : State :=
  (s.rewriteEntries (e.2.boundary j)).modCompute
    (fun c => { c with sites := Tab.put c.sites e.1 { e.2.boundary j with entries := s.entriesLeft (e.2.boundary j).entries } })

theorem State.siteBoundary_eq (s : State) (j : Nat) : s.siteBoundary j = (s.compute.sites.filter (fun e => Tab.has e.2.maxima j)).foldl (State.siteStep j) s := rfl

theorem State.siteBoundary_life (s : State) (j : Nat) : (s.siteBoundary j).life = s.life := by
  rw [State.siteBoundary_eq]
  refine State.foldl_keeps State.life (State.siteStep j) (fun s e => ?_) _ s
  exact (State.life_of_jobs (s := s.rewriteEntries (e.2.boundary j)) rfl).trans (s.rewriteEntries_life _)

theorem State.jobReply_compute (s : State) (x : Job) (st : Status) : (s.jobReply x st).compute = s.compute := by
  unfold State.jobReply
  split
  · rw [State.completeWith_compute]
    rfl
  · rfl

/-- A job that closes is gone, and the life of no other changes. -/
theorem State.closeJob_life (s : State) (j i : Nat) (x : Job) (st : Status) : (s.closeJob j x st).life i = if i = j then none else s.life i := by
  unfold State.closeJob
  rw [State.siteBoundary_life]
  have hjob : ∀ i, ((((s.jobReply x st).breakSems j).clearThreads j).modCompute (fun c => { c with jobs := Tab.del c.jobs j })).job? i = if i = j then none else s.job? i := fun i => by
    refine (Tab.find_del (s.jobReply x st).compute.jobs j i).trans ?_
    rw [State.jobReply_compute]
    rfl
  unfold State.life
  rw [hjob]
  split <;> rfl

theorem State.modJob_life (s : State) (j i : Nat) (f : Job → Job) :
    (s.modJob j f).life i = if i = j then (s.job? i).map (fun x => ((f x).ending, (f x).restarts)) else s.life i := by
  unfold State.life
  rw [State.job?_modJob]
  split
  · rw [Option.map_map]
    rfl
  · rfl

/-- What settling does to lives: nothing, or the job closes, or it starts again. -/
theorem State.settle_life (s : State) (j : Nat) : s.settle j = s ∨ (∀ i, (s.settle j).life i = if i = j then none else s.life i) ∨
    ∃ x, s.job? j = some x ∧ x.ending ≠ none ∧ ∀ i, (s.settle j).life i = if i = j then some (none, x.restarts + 1) else s.life i := by
  unfold State.settle
  split
  · exact .inl rfl
  · rename_i x hx
    split
    · exact .inl rfl
    · rename_i y hy
      split
      · exact .inl rfl
      · split
        · exact .inr (.inl (fun i => s.closeJob_life j i x _))
        · refine .inr (.inr ⟨x, hx, by simp [hy], fun i => ?_⟩)
          refine (State.modJob_life _ j i _).trans ?_
          by_cases hi : i = j
          · subst hi
            have hx' : ((s.breakSems i).clearThreads i).job? i = some x := hx
            rw [if_pos rfl, if_pos rfl, hx']
            rfl
          · rw [if_neg hi, if_neg hi]
            exact congrFun (State.life_of_jobs rfl) i

theorem State.StoppedRun.settle (h : s.StoppedRun j r) (i : Nat) : (s.settle i).StoppedRun j r := by
  unfold State.StoppedRun at h ⊢
  obtain hs | hs | ⟨x, hx, hend, hs⟩ := s.settle_life i
  · rwa [hs]
  · rw [hs]
    split
    · exact .inl rfl
    · exact h
  · rw [hs]
    split
    · rename_i hi
      subst hi
      refine .inr ⟨_, rfl, .inr ⟨rfl, ?_⟩⟩
      have hlife : s.life j = some (x.ending, x.restarts) := by rw [State.life, hx, Option.map_some]
      obtain hnone | ⟨p, hp, ⟨-, hr⟩ | ⟨hnone, -⟩⟩ := h
      · rw [hlife] at hnone
        cases hnone
      · rw [hlife] at hp
        cases hp
        exact congrArg (· + 1) hr
      · rw [hlife] at hp
        cases hp
        exact absurd hnone hend
    · exact h

theorem State.StoppedRun.settleAll (h : s.StoppedRun j r) : s.settleAll.StoppedRun j r := by
  unfold State.settleAll
  generalize Tab.keys s.compute.jobs = l
  induction l generalizing s with
  | nil => exact h
  | cons i l ih => exact ih (h.settle i)

theorem State.dropQueued_life (s : State) (j : Nat) : (s.dropQueued j).life = s.life := State.life_of_jobs rfl

theorem State.StoppedRun.job (h : s.StoppedRun j r) : s.job? j = none ∨ ∃ y, s.job? j = some y ∧ (y.ending ≠ none ∨ y.restarts = r + 1) := by
  unfold State.StoppedRun State.life at h
  cases hx : s.job? j with
  | none => exact .inl rfl
  | some y =>
    rw [hx] at h
    obtain hnone | ⟨p, hp, ⟨hend, -⟩ | ⟨-, hr⟩⟩ := h
    · cases hnone
    · cases hp
      exact .inr ⟨y, rfl, .inl hend⟩
    · cases hp
      exact .inr ⟨y, rfl, .inr hr⟩

/-- A job set to end, its waiting operations dropped, is stopped. -/
theorem State.stoppedRun_dropQueued (hx : s.job? j = some x) (y : Ending) (t : Nat) :
    ((s.modJob j (fun x => { x with ending := some y, endTick := t })).dropQueued j).StoppedRun j x.restarts := by
  refine .inr ⟨(some y, x.restarts), ?_, .inl ⟨Option.some_ne_none y, rfl⟩⟩
  rw [State.dropQueued_life, State.modJob_life, if_pos rfl, hx]
  rfl

theorem State.checkFails_stoppedRun (hx : s.job? j = some x) (hn : x.ending = none) : (s.checkFails j).StoppedRun j x.restarts := by
  unfold State.checkFails
  simp only [hx, hn, Option.isSome_none, Bool.false_eq_true, if_false]
  split
  · have hcount : (s.count 23 1).job? j = some x := hx
    exact (State.stoppedRun_dropQueued hcount .restart s.tick).settle j
  · unfold State.endJob
    have hover : ∀ st, s.overrides x st = true := fun st => by
      unfold State.overrides
      rw [hn]
    simp only [hx, hover, if_true]
    exact (State.stoppedRun_dropQueued hx _ s.tick).settle j

/-! ## The end of an operation keeps every thread and job. -/

theorem State.retireEngine_compute (s : State) (n cause : Nat) : (s.retireEngine n cause).compute = s.compute := by
  unfold State.retireEngine
  split
  · rfl
  · simp [State.retired]

/-- One context of an engine that retires goes to another. -/
def State.moveOff (s : State) (k : Nat × Ctx) : State :=
  let u := s.modCtx k.1 (fun x => { x with engine := none })
  if k.2.queue.isEmpty then u else u.placeCtx k.1

theorem State.moveOff_tables (s : State) (k : Nat × Ctx) : (s.moveOff k).compute.threads = s.compute.threads ∧ (s.moveOff k).compute.jobs = s.compute.jobs := by
  unfold State.moveOff
  dsimp only
  split
  · exact ⟨rfl, rfl⟩
  · exact ⟨State.placeCtx_threads _ _, State.placeCtx_jobs _ _⟩

theorem State.retireRipe_cases (s : State) (c : CoreNo) (e : EngNo) : s.retireRipe c e = s ∨ ∃ (n : Nat) (l : List (Nat × Ctx)), s.retireRipe c e = l.foldl State.moveOff (s.retireEngine n 2) := by
  unfold State.retireRipe
  dsimp only
  split
  · exact .inl rfl
  · exact .inr ⟨_, _, rfl⟩

theorem standing_retireRipe (s : State) (c : CoreNo) (e : EngNo) : Standing s (s.retireRipe c e) := by
  obtain h | ⟨n, l, h⟩ := s.retireRipe_cases c e <;> rw [h]
  · exact .refl s
  · refine .of_tables ?_ ?_
    · rw [State.foldl_keeps (fun s => s.compute.threads) State.moveOff (fun s k => (s.moveOff_tables k).1), State.retireEngine_compute]
    · rw [State.foldl_keeps (fun s => s.compute.jobs) State.moveOff (fun s k => (s.moveOff_tables k).2), State.retireEngine_compute]

theorem standing_yieldCtx (s : State) (k : Nat) : Standing s (s.yieldCtx k) := by
  unfold State.yieldCtx
  split
  · exact .refl s
  · split
    · exact (upkeep_modCtx s k _).toStanding
    · exact .refl s

theorem standing_mmEnd (s : State) (k : Nat) (mm : MmOp) : Standing s (s.mmEnd k mm) := by
  unfold State.mmEnd
  split
  · exact .refl s
  · rename_i x _
    have hbound : ∀ u, Standing s u → Standing s (u.modThread mm.thread (fun th => th.landed mm.op)) := fun u hu => hu.trans (upkeep_landed u mm.thread mm.op).toStanding
    have hengine : Standing s (match x.engine with
        | some e => (s.yieldCtx k).retireRipe x.core e
        | none => s) := by
      split
      · exact (standing_yieldCtx s k).trans (standing_retireRipe _ _ _)
      · exact .refl s
    dsimp only
    split
    · exact hengine
    · exact hbound _ hengine

/-- A parity error found by an engine stops the job of its thread, whatever has stood since the thread and the job were found. -/
theorem State.engineParity_stoppedRun {t : State} {n : Nat} {th : Thread} (h : Standing s t) (hth : s.thread? n = some th) (hx : s.job? th.job = some x) (hn : x.ending = none) :
    (t.engineParity n true).StoppedRun th.job x.restarts := by
  have hseat : t.seat n = some (th.job, th.gang) := by rw [h.seat, State.seat, hth, Option.map_some]
  have hlife : t.life th.job = some (none, x.restarts) := by rw [h.life, State.life, hx, Option.map_some, hn]
  obtain ⟨y, hy, hyj⟩ := Option.map_eq_some_iff.mp hseat
  obtain ⟨z, hz, hzl⟩ := Option.map_eq_some_iff.mp hlife
  obtain ⟨hjob, -⟩ := Prod.mk.inj hyj
  obtain ⟨hend, hr⟩ := Prod.mk.inj hzl
  simp only [State.engineParity, hy, hjob]
  rw [← hr]
  exact State.checkFails_stoppedRun hz hend

end

end Sys2Proof.Machine

/-! # Matrix operations (03; 04 R131, R132; 06 R184, R185) -/

namespace Sys2Proof.Machine

/-! ## The queues of finished tiles (04 R131, R132). -/

/-- A handle's operation has ended at an engine. -/
def Thread.finishedAt (th : Thread) (h : Nat) (e : EngNo) : Thread := (th.settled h).modHandle h (fun x => { x with engine := some e })

theorem Thread.finishedAt_rest (th : Thread) (h : Nat) (e : EngNo) : th.finishedAt h e = { th with handles := (th.finishedAt h e).handles } := rfl

theorem Thread.finishedAt_self (th : Thread) (h : Nat) (e : EngNo) :
    (th.finishedAt h e).handle h = { th.handle h with count := (th.handle h).count - 1, engine := some e } := by
  rw [Thread.finishedAt, Thread.handle_modHandle, if_pos rfl, Thread.settled, Thread.handle_modHandle, if_pos rfl]

theorem Thread.finishedAt_ne (th : Thread) {h i : Nat} (e : EngNo) (hi : i ≠ h) : (th.finishedAt h e).handle i = th.handle i := by
  rw [Thread.finishedAt, Thread.handle_modHandle, if_neg hi, Thread.settled, Thread.handle_modHandle, if_neg hi]

section
variable {s : State} {c : CoreNo} {e : EngNo} {q : TileEntry} {rest : List TileEntry}

/-- A core whose turn is next at the engine after e, with an operation out of e's queue of finished tiles. -/
def Core.tileGone (x : Core) (e : EngNo) (op : Nat) : Core :=
  { x with queues := Tab.change x.queues e.val (fun l => l.filter (fun y => y.op ≠ op)), rrQueue := (e.val + 1) % 8 }

theorem exec_tileQueueRemove (hrr : (s.core c).rrQueue = e.val) (hq : Tab.find (s.core c).queues e.val = some (q :: rest)) (hfilled : q.filled = true) :
    exec (.tileQueueRemove c) s = .next ((s.modCore c (fun x => x.tileGone e q.op)).modThread q.thread (fun th => th.finishedAt q.handle e)) := by
  have hmod : e.val % 8 = e.val := Nat.mod_eq_of_lt e.isLt
  have hhere : (((Tab.at (s.core c).queues e.val []).find? (·.filled)).map (fun q => (e.val, q))) = some (e.val, q) := by
    rw [Tab.at_eq, hq, Option.getD_some, List.find?_cons_of_pos hfilled, Option.map_some]
  have hturn : (List.range 8).map (fun i => ((s.core c).rrQueue + i) % 8) = e.val :: ([1, 2, 3, 4, 5, 6, 7] : List Nat).map (fun i => ((s.core c).rrQueue + i) % 8) := by
    change ((s.core c).rrQueue + 0) % 8 :: _ = _
    rw [Nat.add_zero, hrr, hmod]
  change execTileQueueRemove c s = _
  simp only [execTileQueueRemove, hturn, List.findSome?_cons, hhere]
  simp only [hmod]
  rfl

theorem Core.tileGone_self {x : Core} (hq : Tab.find x.queues e.val = some (q :: rest)) (hrest : ∀ y ∈ rest, y.op ≠ q.op) :
    Tab.at (x.tileGone e q.op).queues e.val [] = rest := by
  have hkept : rest.filter (fun y => y.op ≠ q.op) = rest := List.filter_eq_self.mpr (fun y hy => by simpa using hrest y hy)
  rw [Core.tileGone, Tab.at_eq, Tab.find_change_self, hq, Option.map_some, Option.getD_some, List.filter_cons_of_neg (by simp), hkept]

theorem Core.tileGone_ne (x : Core) (op : Nat) {f : EngNo} (hf : f ≠ e) : Tab.at (x.tileGone e op).queues f.val [] = Tab.at x.queues f.val [] := by
  rw [Core.tileGone, Tab.at_eq, Tab.find_change_ne _ _ (fun h => hf (Fin.ext h)), Tab.at_eq]

end

/-! ## Matrix operations. -/

/-- Settles O25: what is queued by the reasoning rules of issue, what an engine does at cycle 0 by the operation that leaves its queue, and every end by what upkeep leaves
alone. -/
theorem matrixOperations : Obligations.MatrixOperations := by
  unfold Obligations.MatrixOperations
  refine ⟨?run, ?runUnbound, ?load, ?emit, ?cycle0Run, ?cycle0Load, ?cycle0Emit, ?lastCycle, ?loadEnds, ?binaryEnds, ?slotsEnd, ?parity, ?removed⟩
  case run =>
    intro s n th r k x hi hb hk hx
    have h := State.queueMm_bound hi hk hx
    obtain ⟨y, hy, hyq, hon⟩ := h.ctx
    exact ⟨_, y, _, exec_mmRun hi hb, hy, hyq, hon, State.mmOpAt_run th.pc hi.opcode, h.others, h.ran, h.bytes, h.frame⟩
  case runUnbound =>
    intro s n th r g hi hb hk hg
    obtain ⟨y, z, hy, ⟨o, hyq, hrcd, hthread, hpc⟩, hran, hbound, hzpc, hothers, hbytes, hframe⟩ := State.queueMm_unbound hi hk hg
    have hqueue : y.queue = [o] := by rw [hyq]
    refine ⟨_, y, exec_mmRun hi hb, hy, by rw [hyq]; rfl, by rw [hyq]; rfl, by rw [hyq]; rfl, by rw [hqueue]; rfl, fun p hp => ?_, by rw [hyq]; rfl, by rw [hyq]; rfl,
      by rw [hyq]; rfl, ⟨z, hran.thread, hbound, hzpc⟩, hothers, hran.threads, hbytes, hframe⟩
    rw [hqueue, List.mem_singleton] at hp
    subst hp
    exact ⟨hrcd, hthread, hpc⟩
  case load =>
    intro s n th r k x hi hb hk hx hq
    have h := State.queueMm_bound hi hk hx
    obtain ⟨y, hy, hyq, -⟩ := h.ctx
    exact ⟨_, y, _, exec_mmLoad_behind hi hb hk hx hq, hy, hyq, State.mmOpAt_other s n th.pc th (by rw [hi.opcode]; decide), h.others, h.ran, h.bytes, h.frame⟩
  case emit =>
    intro s n th r k x hi hb hk hx
    have h := State.queueMm_bound hi hk hx
    obtain ⟨y, hy, hyq, -⟩ := h.ctx
    exact ⟨_, y, _, exec_mmEmit hi hb, hy, hyq, State.mmOpAt_other s n th.pc th (by rw [hi.opcode]; decide), h.others, h.ran, h.bytes, h.frame⟩
  case cycle0Run =>
    intro s c e k x mm rest th g hon hx hq hidle hth hruns hg hin hroom hsound hop hnext hswap hslots
    have h : AtCycle0 s c e k x mm rest := ⟨hon, hx, hq, hidle, ⟨th, g, hth, hruns, hg, hin⟩, hroom, hsound⟩
    obtain ⟨hself, hothers, hthreads, hjobs, hup⟩ := State.startRun_ok (c := c) (e := e) hx hnext
    obtain ⟨hqueue, hloads, hemissions, hengine, hactive, hshadow⟩ := x.setUp_rest mm.rcd
    refine ⟨s.startRun c e k mm, _, ?_, hself, ?_, rfl, hloads, hemissions, hengine, fun hs => ?_, fun hs => ?_, hothers, hthreads, hjobs, hup.bytesSame, hup.frame⟩
    · rw [exec_mmCycle0 h (fun _ => ⟨hswap, hslots⟩), State.startMm, if_pos hop]
    · rw [Ctx.begun, hqueue, hq, List.drop_one, List.tail_cons]
    · rw [hs] at hactive hshadow
      exact ⟨hactive, hshadow⟩
    · rw [hs] at hactive hshadow
      exact ⟨hactive, hshadow⟩
  case cycle0Load =>
    intro s c e k x mm rest th g hon hx hq hidle hth hruns hg hin hroom hsound hop hl
    obtain ⟨hself, hothers, hthreads, hnow, hup⟩ := State.dequeued_ok (c := c) (e := e) (mm := mm) (rest := rest) hx
    have hall := hup.trans (upkeep_startLoad _ k mm)
    refine ⟨_, exec_mmCycle0_load ⟨hon, hx, hq, hidle, ⟨th, g, hth, hruns, hg, hin⟩, hroom, hsound⟩ hop, ?_, fun j hj => ?_, hthreads, hall.bytesSame, hall.frame⟩
    · rw [State.find_startLoad hself hl, hnow]
    · exact (State.find_modCtx_ne _ _ hj).trans (hothers j hj)
  case cycle0Emit =>
    intro s c e k x mm rest th g hon hx hq hidle hth hruns hg hin hroom hsound hop
    obtain ⟨hself, hothers, hthreads, -, hup⟩ := State.dequeued_ok (c := c) (e := e) (mm := mm) (rest := rest) hx
    obtain ⟨m, hm, hmm, hrow, hbase, hdesc⟩ := State.find_startEmission mm.thread hself hop
    have hall := hup.trans (upkeep_startEmission _ mm.thread k mm)
    exact ⟨_, m, exec_mmCycle0_emit ⟨hon, hx, hq, hidle, ⟨th, g, hth, hruns, hg, hin⟩, hroom, hsound⟩ hop, hm, hmm, hrow, hbase, hdesc,
      fun j hj => (State.find_modCtx_ne _ _ hj).trans (hothers j hj), hthreads, hall.bytesSame, hall.frame⟩
  case lastCycle =>
    intro s c e stale k x mm due xs hon hx hrun hemit hxb hzp hallow hxs hgood hstrikes hyields hjobs
    have hacc : (s.at_ due).accumulated x mm stale = x.accumulate mm.rcd xs [] [] 0 := by
      simp only [State.accumulated, hxb, hzp, hallow, Bool.false_eq_true, if_false, hxs]
      rfl
    have hexec := exec_mmLastCycle stale false hon hrun hgood
    rw [hacc, State.engineParity_good] at hexec
    exact ⟨_, hexec, (Steady.of_ctxOn hon hx hstrikes hyields hjobs).work_ends (f := fun _ => { (x.accumulate mm.rcd xs [] [] 0).1 with running := none }) mm
      (upkeep_drained _ c k mm _) ((s.at_ due).drained_ctxs c k _ hemit) (x.accumulate_rest mm.rcd xs [] [] 0)⟩
  case loadEnds =>
    intro s c e k x mm due rest tile hon hx hl hop htile hgood hstrikes hyields hjobs
    have hexec := exec_shadowLoadComplete hon hl hop hgood
    rw [(upkeep_atTime s due).benchRead, ← htile] at hexec
    have hup := (upkeep_modCtx (s.at_ due) k (fun x => { x with shadow := tile, loads := rest })).trans (upkeep_fillTile _ c mm 0 0)
    exact ⟨_, hexec, (Steady.of_ctxOn hon hx hstrikes hyields hjobs).work_ends (f := fun x => { x with shadow := tile, loads := rest }) mm hup rfl ⟨rfl, rfl, rfl⟩⟩
  case binaryEnds =>
    intro s c e k x m rest th g d n bs hon hx hem hth hg hbin hcounts hd hbs hfree hyields hstrikes hjobs
    have hup := (upkeep_modCtx ((s.at_ m.due).winWrite th.job th.gang d bs) k (fun x => { x with emissions := rest })).trans (upkeep_fillTile _ c m.mm d n)
    refine ⟨_, exec_emissionComplete_binary hon hem hth hbin hcounts hd hbs hfree, emission_ends m.mm (Steady.of_ctxOn hon hx hstrikes hyields hjobs) hg hup ?_⟩
    rw [State.fillTile_ctxs, State.modCtx_compute, State.modCtx_compute, State.winWrite_ctxs]
    rfl
  case slotsEnd =>
    intro s c e k x m rest th g d o hon hx hem hth hg hbin hd ho houtl hside hentry hfree hyields hplaus hstrikes hjobs
    have hup := (((upkeep_saturated ((s.at_ m.due).winWrite th.job th.gang d.dest o.bytes) c th.job o.sats).trans (upkeep_reported _ th d o)).trans
      (upkeep_fillTile _ c m.mm d.dest (d.stride m.results * m.slotCount))).trans (upkeep_modCtx _ k (fun x => { x with emissions := rest }))
    refine ⟨_, exec_emissionComplete_slots hon hem hth hbin hd ho houtl hside hentry hfree hplaus,
      emission_ends m.mm (Steady.of_ctxOn hon hx hstrikes hyields hjobs) hg hup ?_⟩
    rw [State.modCtx_compute, State.modCtx_compute, State.fillTile_ctxs, State.reported_ctxs, State.saturated_ctxs, State.winWrite_ctxs]
    rfl
  case parity =>
    intro s c e k x mm due stale th j hon hx hrun hth hj hn hgood
    have hstand := ((upkeep_atTime s due).toStanding.trans (upkeep_drained _ c k mm ((s.at_ due).accumulated x mm stale)).toStanding).trans (standing_mmEnd _ k mm)
    exact ⟨_, exec_mmLastCycle stale true hon hrun hgood, (State.engineParity_stoppedRun hstand hth hj hn).settleAll.job⟩
  case removed =>
    intro s c e q rest th hrr hq hfilled hrest hth
    have hthread : ∀ j, ((s.modCore c (fun x => x.tileGone e q.op)).modThread q.thread (fun th => th.finishedAt q.handle e)).thread? j =
        if j = q.thread then (s.thread? j).map (fun th => th.finishedAt q.handle e) else s.thread? j :=
      fun j => State.thread?_modThread (s.modCore c (fun x => x.tileGone e q.op)) q.thread j (fun th => th.finishedAt q.handle e)
    have hcore : ∀ b, ((s.modCore c (fun x => x.tileGone e q.op)).modThread q.thread (fun th => th.finishedAt q.handle e)).core b =
        if b = c then (s.core c).tileGone e q.op else s.core b := fun b => s.core_modCore c b (fun x => x.tileGone e q.op)
    have hgone : Upkeep [.compute] s (s.modCore c (fun x => x.tileGone e q.op)) := upkeep_modCore c (fun _ => rfl)
    have hup := hgone.trans (upkeep_modThread q.thread (f := fun th => th.finishedAt q.handle e) (fun _ => ⟨rfl, rfl⟩))
    refine ⟨_, exec_tileQueueRemove hrr hq hfilled, ?_, fun f hf => ?_, ?_,
      ⟨th.finishedAt q.handle e, ?_, th.finishedAt_rest _ _, th.finishedAt_self _ _, fun h hh => th.finishedAt_ne _ hh⟩, fun j hj => ?_, fun b hb => ?_,
      hup.bytesSame, hup.frame⟩
    · rw [State.tiles, hcore, if_pos rfl, Core.tileGone_self hq hrest]
    · rw [State.tiles, hcore, if_pos rfl, Core.tileGone_ne _ _ hf, State.tiles]
    · rw [hcore, if_pos rfl, Core.tileGone]
    · rw [hthread, if_pos rfl, hth, Option.map_some]
    · rw [hthread, if_neg hj]
    · rw [hcore, if_neg hb]

end Sys2Proof.Machine

/-! # Jobs that an operation's fault stops (06 R215, R216; 08 R258) -/

namespace Sys2Proof.Machine

section
variable {s t : State} {n j : Nat} {th : Thread} {x : Job} {st : Status}

theorem State.winWrite_threads (s : State) (j gi off : Nat) (bs : List Byte) : (s.winWrite j gi off bs).compute.threads = s.compute.threads := by
  unfold State.winWrite
  split
  · rfl
  · split <;> rfl

theorem State.entryWrite_threads (s : State) (e : Nat × Nat) (bs : List Byte) : (s.entryWrite e bs).compute.threads = s.compute.threads := by
  unfold State.entryWrite
  dsimp only
  split
  · split
    · rw [State.hbmWrite_compute]
    · split
      · rfl
      · rw [State.pinnedWrite_compute]
  · split
    · rfl
    · split
      · rfl
      · exact s.winWrite_threads _ _ _ bs

theorem State.siteBoundary_threads (s : State) (j : Nat) : (s.siteBoundary j).compute.threads = s.compute.threads := by
  rw [State.siteBoundary_eq]
  exact State.foldl_keeps (fun s => s.compute.threads) (State.siteStep j)
    (fun s e => State.foldl_keeps (fun s => s.compute.threads) _ (fun s _ => s.entryWrite_threads _ _) _ s) _ s

/-- No thread of a closed job is left. -/
theorem State.closeJob_thread_job (h : (s.closeJob j x st).thread? n = some th) : th.job ≠ j := by
  unfold State.closeJob State.thread? at h
  rw [State.siteBoundary_threads] at h
  have hleft : (n, th) ∈ (((s.jobReply x st).breakSems j).compute.threads).filter (fun e => e.2.job ≠ j) := Tab.mem_of_find h
  simpa using (List.mem_filter.mp hleft).2

/-- A job that ends with a status has closed, or waits for its started operations. -/
theorem State.settle_stops (hx : s.job? j = some x)
    (hend : x.ending = some (.status st) ∨ (x.ending = some (.status .deadlineExpired) ∧ ∃ d, x.deadline = some d ∧ d ≤ s.tick)) : Stops (s.settle j) j st := by
  have hstatus : ∃ st', x.ending = some (.status st') := by
    obtain h | ⟨h, -⟩ := hend <;> exact ⟨_, h⟩
  obtain ⟨st', hst⟩ := hstatus
  simp only [State.settle, hx, hst]
  split
  · exact .inl ⟨x, hx, hend⟩
  · refine .inr ⟨?_, fun n th hth => State.closeJob_thread_job hth⟩
    have hlife := s.closeJob_life j j x st'
    rw [if_pos rfl, State.life, Option.map_eq_none_iff] at hlife
    exact hlife

/-- The status that a job takes from its deadline is its own, or DEADLINE_EXPIRED once the deadline has come. -/
theorem State.byDeadline_cases (s : State) (x : Job) (st : Status) :
    s.byDeadline x st = st ∨ (s.byDeadline x st = .deadlineExpired ∧ ∃ d, x.deadline = some d ∧ d ≤ s.tick) := by
  unfold State.byDeadline
  split
  · exact .inl rfl
  · rename_i d hd
    split
    · rename_i hlate
      exact .inr ⟨rfl, d, hd, by omega⟩
    · exact .inl rfl

theorem State.job?_modJob_self (f : Job → Job) (hx : s.job? j = some x) : (s.modJob j f).job? j = some (f x) := by
  rw [State.job?_modJob, if_pos rfl, hx, Option.map_some]

theorem State.endJob_stops (hx : s.job? j = some x) (hn : x.ending = none) (st : Status) : Stops (s.endJob j st) j st := by
  have hover : s.overrides x (s.byDeadline x st) = true := by
    unfold State.overrides
    rw [hn]
  simp only [State.endJob, hx, hover, if_true]
  have hset := State.job?_modJob_self (fun y => { y with ending := some (.status (s.byDeadline x st)), endTick := s.tick }) hx
  refine State.settle_stops hset ?_
  obtain h | ⟨h, hdeadline⟩ := s.byDeadline_cases x st
  · exact .inl (congrArg (fun st => some (Ending.status st)) h)
  · exact .inr ⟨congrArg (fun st => some (Ending.status st)) h, hdeadline⟩

/-- A fault of a thread stops its running job with MODULE_INVALID. -/
theorem State.fault_stops (hth : s.thread? n = some th) (hx : s.job? th.job = some x) (hn : x.ending = none) (pc : Nat) (code : FaultCode) (trap : Nat) :
    Stops (s.fault n pc code trap) th.job .moduleInvalid := by
  simp only [State.fault, hth]
  exact State.endJob_stops (State.job?_modJob_self _ hx) hn _

/-- Whatever upkeep came before it, a fault of a thread stops its running job. -/
theorem Standing.fault_stops (h : Standing s t) (hth : s.thread? n = some th) (hx : s.job? th.job = some x) (hn : x.ending = none) (pc : Nat) (code : FaultCode)
    (trap : Nat) : Stops (t.fault n pc code trap) th.job .moduleInvalid := by
  have hseat : t.seat n = some (th.job, th.gang) := by rw [h.seat, State.seat, hth, Option.map_some]
  have hlife : t.life th.job = some (none, x.restarts) := by rw [h.life, State.life, hx, Option.map_some, hn]
  obtain ⟨y, hy, hyj⟩ := Option.map_eq_some_iff.mp hseat
  obtain ⟨z, hz, hzl⟩ := Option.map_eq_some_iff.mp hlife
  obtain ⟨hjob, -⟩ := Prod.mk.inj hyj
  obtain ⟨hend, -⟩ := Prod.mk.inj hzl
  rw [← hjob] at hz ⊢
  exact State.fault_stops hy hz hend pc code trap

end

end Sys2Proof.Machine

/-! # Vector and selection units: issue, choice and end of their operations (04 R130, R133, R145, R146; 06 R185, R190) -/

namespace Sys2Proof.Machine

/-! ## What a unit finds of a thread. -/

/-- What issue and units ask of a job: its admission, its command, its ending and its allotment. -/
def State.terms (s : State) (j : Nat) : Option (Bool × Nat × Option Ending × Nat) := (s.job? j).map (fun x => (x.admitted, x.cmd, x.ending, x.allot))

/-- A unit finds the same of a thread in two states: whether operations of it may be taken, its allotment, the bytes of its window, and its lines lent read-only. -/
structure FoundAlike (n : Nat) (s t : State) : Prop where
  takes : ∀ u : UnitOp, u.thread = n → t.mayTake u = s.mayTake u
  allot : (t.thread? n).map t.allotOf = (s.thread? n).map s.allotOf
  read : t.benchRead n = s.benchRead n
  locked : t.pieceLocked n = s.pieceLocked n

section
variable {s t v : State} {n : Nat} {u : UnitOp} {ks : List Part}

theorem FoundAlike.trans (h : FoundAlike n s t) (k : FoundAlike n t v) : FoundAlike n s v :=
  ⟨fun u hu => (k.takes u hu).trans (h.takes u hu), k.allot.trans h.allot, k.read.trans h.read, k.locked.trans h.locked⟩

theorem State.jobRuns_eq (s : State) (j : Nat) : s.jobRuns j =
    ((s.terms j).map (fun p => p.1 && p.2.2.1.isNone && !((s.cmd? p.2.1).map s.halted).getD false)).getD false := by
  unfold State.jobRuns State.terms
  cases s.job? j <;> rfl

theorem State.mayTake_eq (s : State) (u : UnitOp) :
    s.mayTake u = (((s.seat u.thread).map (fun p => s.jobRuns p.1)).getD false && ((s.out u.thread).map (!·)).getD false) := by
  unfold State.mayTake State.seat State.out
  cases s.thread? u.thread with
  | none => rfl
  | some x => cases h : s.gangOf? x <;> simp [h]

theorem State.allotOf_eq (s : State) (n : Nat) : (s.thread? n).map s.allotOf = (s.seat n).map (fun p => ((s.terms p.1).map (·.2.2.2)).getD 0) := by
  unfold State.seat State.terms State.allotOf
  cases s.thread? n with
  | none => rfl
  | some x => cases h : s.job? x.job <;> simp [h]

/-- Upkeep that leaves the host, the terms of jobs and the lines lent alone leaves what a unit finds. -/
theorem Upkeep.foundAlike (h : Upkeep ks s t) (hhost : .host ∉ ks) (hterms : t.terms = s.terms) (hlines : ∀ b, (t.core b).readOnly = (s.core b).readOnly) (n : Nat) :
    FoundAlike n s t := by
  have hhost : t.host = s.host := h.frame .host hhost
  have hruns : t.jobRuns = s.jobRuns := by
    funext j
    rw [State.jobRuns_eq, State.jobRuns_eq, hterms]
    unfold State.cmd? State.halted
    rw [hhost]
  refine ⟨fun u _ => ?_, ?_, congrFun h.benchRead n, ?_⟩
  · rw [State.mayTake_eq, State.mayTake_eq, h.seat, h.out, hruns]
  · rw [State.allotOf_eq, State.allotOf_eq, h.seat, hterms]
  · funext o k
    unfold State.pieceLocked
    rw [h.window]
    unfold State.winLocked State.winMarks
    simp only [hlines]

/-- A change of a core that leaves its bench memory and the lines lent. -/
theorem foundAlike_modCore (s : State) (c : CoreNo) {f : Core → Core} (hf : ∀ x, (f x).bench = x.bench ∧ (f x).readOnly = x.readOnly) (n : Nat) :
    FoundAlike n s (s.modCore c f) := by
  refine (upkeep_modCore c (fun x => (hf x).1)).foundAlike (by simp) rfl (fun b => ?_) n
  rw [State.core_modCore]
  split
  · rename_i hb
    rw [(hf _).2, hb]
  · rfl

theorem FoundAlike.reader (h : FoundAlike n s t) : t.reader n = s.reader n := by
  unfold State.reader
  rw [h.read]

theorem FoundAlike.vxFault (h : FoundAlike u.thread s t) : t.vxFault u = s.vxFault u := by
  unfold State.vxFault
  rw [h.allot, h.reader, h.locked]

theorem FoundAlike.slFault (h : FoundAlike u.thread s t) : t.slFault u = s.slFault u := by
  unfold State.slFault
  rw [h.allot, h.reader, h.locked]

end

end Sys2Proof.Machine

namespace Sys2Proof

open Machine

/-! ## Issue of an operation to a unit. -/

section
variable {s t : State} {n op : Nat} {u : UnitOp} {th x : Thread} {r : BitVec 256} {l : List Machine.Range}

theorem Ran.terms (h : Ran s t n th x) : t.terms = s.terms := by
  funext j
  unfold State.terms
  by_cases hj : j = th.job
  · rw [hj, h.job, Option.map_map]
    rfl
  · rw [h.jobs j hj]

/-- A thread that may issue has a job that runs and a gang in place. -/
theorem Issues.runs (h : Issues s n op l th r) : s.jobRuns th.job = true ∧ ∃ g, s.gangOf? th = some g ∧ g.preempted = false := by
  have here := h.here
  unfold State.issuing at here
  split at here
  · cases here
  · split at here
    · rename_i q g hq hg
      split at here
      · rename_i hok
        obtain ⟨-, hruns, hin, -⟩ := hok
        cases here
        exact ⟨hruns, g, hg, by simpa using hin⟩
      · cases here
    · cases here

theorem Issues.job (h : Issues s n op l th r) : ∃ x, s.job? th.job = some x ∧ x.ending = none := by
  obtain ⟨hruns, -⟩ := h.runs
  unfold State.jobRuns at hruns
  split at hruns
  · rename_i x hx
    simp only [Bool.and_eq_true, Option.isNone_iff_eq_none] at hruns
    obtain ⟨⟨-, hn⟩, -⟩ := hruns
    exact ⟨x, hx, hn⟩
  · cases hruns

theorem Issues.mayTake (h : Issues s n op l th r) (hu : u.thread = n) : s.mayTake u = true := by
  obtain ⟨hth, -⟩ := h.holds
  obtain ⟨hruns, g, hg, hin⟩ := h.runs
  simp only [State.mayTake, hu, hth, hruns, hg, hin, Option.map_some, Option.getD_some, Bool.not_false, Bool.and_self]

end

end Sys2Proof

namespace Sys2Proof.Machine

section
variable {s : State} {n : Nat} {c : CoreNo} {u : UnitOp} {th : Thread}

/-- An operation for a unit has issued, and is not yet there. -/
def State.sentToUnit (s : State) (n op : Nat) (th : Thread) (r : BitVec 256) (l : List Range) : State :=
  (((s.passRecord n th op).modThread n (fun x => x.setting r .unit)).fly n l).modCompute (fun k => { k with arrivals := k.arrivals + 1 })

theorem ran_sentToUnit (op : Nat) (r : BitVec 256) (l : List Range) (h : s.thread? n = some th) :
    Ran s (s.sentToUnit n op th r l) n th { (passed th op).setting r .unit with flights := th.flights ++ [⟨s.compute.nextIdent, l⟩] } := by
  have hran := ((ran_passRecord op h).modThread (fun x => x.setting r .unit)).fly l
  rw [Thread.setting_flights] at hran
  exact hran.of_tables rfl rfl

theorem upkeep_sentToUnit (s : State) (n op : Nat) (th : Thread) (r : BitVec 256) (l : List Range) : Upkeep [.compute] s (s.sentToUnit n op th r l) :=
  (((upkeep_passRecord s n th op).trans (upkeep_setting _ n r .unit)).trans (upkeep_fly _ n l)).trans
    (.of_tables rfl rfl (fun _ => rfl) rfl rfl (frame_modCompute _ _))

theorem State.sentToUnit_core (s : State) (n op : Nat) (th : Thread) (r : BitVec 256) (l : List Range) : (s.sentToUnit n op th r l).core = s.core := by
  have hcores : (s.sentToUnit n op th r l).compute.cores = s.compute.cores := rfl
  funext b
  rw [State.core, hcores, State.core]

theorem foundAlike_sentToUnit (op : Nat) (r : BitVec 256) (l : List Range) (h : s.thread? n = some th) (m : Nat) : FoundAlike m s (s.sentToUnit n op th r l) :=
  (upkeep_sentToUnit s n op th r l).foundAlike (by simp) (ran_sentToUnit op r l h).terms (fun b => by rw [State.sentToUnit_core]) m

/-- An operation for a unit has issued, and its core has changed with it. -/
def State.toUnit (s : State) (n op : Nat) (th : Thread) (r : BitVec 256) (l : List Range) (c : CoreNo) (f : Core → Core) : State := (s.sentToUnit n op th r l).modCore c f

section
variable {f : Core → Core}

theorem ran_toUnit (op : Nat) (r : BitVec 256) (l : List Range) (c : CoreNo) (f : Core → Core) (h : s.thread? n = some th) :
    Ran s (s.toUnit n op th r l c f) n th { (passed th op).setting r .unit with flights := th.flights ++ [⟨s.compute.nextIdent, l⟩] } :=
  (ran_sentToUnit op r l h).of_tables rfl rfl

theorem upkeep_toUnit (s : State) (n op : Nat) (th : Thread) (r : BitVec 256) (l : List Range) (c : CoreNo) (hf : ∀ x, (f x).bench = x.bench) :
    Upkeep [.compute] s (s.toUnit n op th r l c f) := (upkeep_sentToUnit s n op th r l).trans (upkeep_modCore c hf)

theorem foundAlike_toUnit (op : Nat) (r : BitVec 256) (l : List Range) (c : CoreNo) (hf : ∀ x, (f x).bench = x.bench ∧ (f x).readOnly = x.readOnly)
    (h : s.thread? n = some th) (m : Nat) : FoundAlike m s (s.toUnit n op th r l c f) := (foundAlike_sentToUnit op r l h m).trans (foundAlike_modCore _ c hf m)

theorem State.toUnit_core (s : State) (n op : Nat) (th : Thread) (r : BitVec 256) (l : List Range) (c b : CoreNo) (f : Core → Core) :
    (s.toUnit n op th r l c f).core b = if b = c then f (s.core c) else s.core b := by
  rw [State.toUnit, State.core_modCore, State.sentToUnit_core]

end

theorem State.coreOf_passRecord {g : Gang} (op : Nat) (hth : s.thread? n = some th) (hg : s.gangOf? th = some g) : (s.passRecord n th op).coreOf n = some g.core := by
  unfold State.coreOf
  rw [(upkeep_passRecord s n th op).window, hth, Option.bind_some, hg, Option.map_some]

/-! ## The choice of a unit. -/

theorem State.chooseUnit_one (before : UnitOp → UnitOp → Bool) (h : s.mayTake u = true) : s.chooseUnit before [u] = some u := by simp [State.chooseUnit, h]

theorem State.vxTake_busy (h : (s.core c).vxRun.isSome = true) : s.vxTake c = s := by simp only [State.vxTake, h, if_true]

theorem State.vxTake_none (h : (s.core c).vxWait = []) : s.vxTake c = s := by
  unfold State.vxTake
  dsimp only
  split
  · rfl
  · simp only [h, State.chooseUnit, List.filter_nil, List.foldl_nil]

theorem State.slTake_none (h : (s.core c).slWait = []) : s.slTake c = s := by
  unfold State.slTake
  dsimp only
  split
  · rfl
  · simp only [h, State.chooseUnit, List.map_nil, List.filter_nil, List.foldl_nil]

/-- An operation leaves those that wait for the vector unit of a core. -/
def State.vxLeaves (s : State) (c : CoreNo) (u : UnitOp) : State := s.modCore c (fun x => { x with vxWait := x.vxWait.filter (fun v => v.op ≠ u.op) })

/-- The vector unit of a core starts an operation. -/
def State.vxStarts (s : State) (c : CoreNo) (u : UnitOp) : State :=
  (s.chargeVx c u.thread (vxCycles u.rcd u.count)).modCore c (fun x => { x with vxRun := some (u, s.now + vxCycles u.rcd u.count * arrayUnits), vxLast := u.source })

theorem foundAlike_vxLeaves (s : State) (c : CoreNo) (u : UnitOp) (n : Nat) : FoundAlike n s (s.vxLeaves c u) := by
  unfold State.vxLeaves
  refine foundAlike_modCore s c ?_ n
  exact fun _ => ⟨rfl, rfl⟩

/-- An idle vector unit for which one operation waits that it may take takes it: it faults, or starts. -/
theorem State.vxTake_one (hidle : (s.core c).vxRun = none) (hwait : (s.core c).vxWait = [u]) (hmay : s.mayTake u = true) :
    s.vxTake c = ((s.vxFault u).elim ((s.vxLeaves c u).vxStarts c u) (fun f => ((s.vxLeaves c u).unitEnd u).fault u.thread u.pc f 0)) := by
  have hfault : (s.vxLeaves c u).vxFault u = s.vxFault u := (foundAlike_vxLeaves s c u u.thread).vxFault
  have htake : s.vxTake c = ((s.vxLeaves c u).vxFault u).elim ((s.vxLeaves c u).vxStarts c u) (fun f => ((s.vxLeaves c u).unitEnd u).fault u.thread u.pc f 0) := by
    simp only [State.vxTake, hidle, hwait, State.chooseUnit_one _ hmay, Option.isSome_none, Bool.false_eq_true, if_false]
    rw [State.vxLeaves]
    split
    · rename_i f hf
      rw [hf, Option.elim_some]
    · rename_i hok
      rw [hok, Option.elim_none]
      rfl
  rw [htake, hfault]

end

end Sys2Proof.Machine

/-! # Vector operations (04 R121 to R130, R133; 06 R185, R203, R207) -/

namespace Sys2Proof.Machine

/-! ## The vector unit starts an operation (04 R129, R133; 08 R275). -/

section
variable {s : State} {n op due : Nat} {c : CoreNo} {u : UnitOp} {th : Thread} {r : BitVec 256} {g : Gang}

theorem State.chargeVx_cases (s : State) (c : CoreNo) (n k : Nat) :
    s.chargeVx c n k = s ∨ ∃ f : Core → Core, (∀ x, f x = { x with bgVx := (f x).bgVx, sysVx := (f x).sysVx }) ∧ s.chargeVx c n k = s.modCore c f := by
  unfold State.chargeVx
  split
  · exact .inr ⟨_, fun _ => rfl, rfl⟩
  · exact .inr ⟨_, fun _ => rfl, rfl⟩
  · exact .inl rfl

theorem State.chargeVx_rest (s : State) (c : CoreNo) (n k : Nat) :
    (s.chargeVx c n k).compute.threads = s.compute.threads ∧ (s.chargeVx c n k).compute.jobs = s.compute.jobs ∧
      (s.chargeVx c n k).core c = { s.core c with bgVx := ((s.chargeVx c n k).core c).bgVx, sysVx := ((s.chargeVx c n k).core c).sysVx } ∧
      ∀ b, b ≠ c → (s.chargeVx c n k).core b = s.core b := by
  obtain h | ⟨f, hf, h⟩ := s.chargeVx_cases c n k <;> rw [h]
  · exact ⟨rfl, rfl, rfl, fun _ _ => rfl⟩
  · refine ⟨rfl, rfl, ?_, fun b hb => ?_⟩
    · rw [State.core_modCore, if_pos rfl]
      exact hf _
    · rw [State.core_modCore, if_neg hb]

theorem upkeep_chargeVx (s : State) (c : CoreNo) (n k : Nat) : Upkeep [.compute] s (s.chargeVx c n k) := by
  obtain h | ⟨f, hf, h⟩ := s.chargeVx_cases c n k <;> rw [h]
  · exact .refl _ _
  · exact upkeep_modCore c (fun x => by rw [hf])

theorem upkeep_vxLeaves (s : State) (c : CoreNo) (u : UnitOp) : Upkeep [.compute] s (s.vxLeaves c u) := upkeep_modCore c (fun _ => rfl)

theorem upkeep_vxStarts (s : State) (c : CoreNo) (u : UnitOp) : Upkeep [.compute] s (s.vxStarts c u) := by
  refine (upkeep_chargeVx s c _ _).trans (upkeep_modCore c ?_)
  exact fun _ => rfl

theorem State.vxStarts_core (s : State) (c : CoreNo) (u : UnitOp) :
    ((s.vxStarts c u).core c).vxRun = some (u, s.now + vxCycles u.rcd u.count * arrayUnits) ∧ ((s.vxStarts c u).core c).vxWait = (s.core c).vxWait ∧
      ((s.vxStarts c u).core c).vxLast = u.source ∧ ∀ b, b ≠ c → (s.vxStarts c u).core b = s.core b := by
  obtain ⟨-, -, hself, hothers⟩ := s.chargeVx_rest c u.thread (vxCycles u.rcd u.count)
  unfold State.vxStarts
  refine ⟨?_, ?_, ?_, fun b hb => ?_⟩
  · rw [State.core_modCore, if_pos rfl]
  · rw [State.core_modCore, if_pos rfl, hself]
  · rw [State.core_modCore, if_pos rfl]
  · rw [State.core_modCore, if_neg hb, hothers b hb]

/-! ## Issue of a VX operation (06 R185, R203, R207). -/

/-- A VX operation as it is issued: its record, the value BREG added, its columns, its scalar operands and its source. -/
def State.vxOpAt (s : State) (n : Nat) (th : Thread) (r : BitVec 256) : UnitOp :=
  ⟨n, s.compute.nextIdent, th.pc, r, bregBase th r, vxCols th r, (List.range 3).map (fun k => if vxForm r k = 3 then th.reg (vxAddr r k % 32) else 0#64), vxSource th r,
    s.compute.arrivals⟩

/-- A VX operation has issued and waits at the vector unit of its core. -/
def State.vxQueued (s : State) (n op : Nat) (th : Thread) (r : BitVec 256) (c : CoreNo) : State :=
  s.toUnit n op th r (vxRanges th r) c (fun x => { x with vxWait := x.vxWait ++ [s.vxOpAt n th r] })

theorem State.issueVx_eq (hi : Issues s n op (vxRanges th r) th r) (hg : s.gangOf? th = some g) : s.issueVx n op = (s.vxQueued n op th r g.core).vxTake g.core := by
  obtain ⟨hth, -⟩ := hi.holds
  have hissue : s.issueVx n op = (s.passRecord n th op).queueVx n th.pc th r := hi.issue rfl _
  rw [hissue, State.queueVx, State.coreOf_passRecord op hth hg]
  rfl

theorem ran_vxQueued (c : CoreNo) (hi : Issues s n op (vxRanges th r) th r) :
    Ran s (s.vxQueued n op th r c) n th { (passed th op).setting r .unit with flights := th.flights ++ [⟨s.compute.nextIdent, vxRanges th r⟩] } := by
  obtain ⟨hth, -⟩ := hi.holds
  exact ran_toUnit op r _ c _ hth

theorem upkeep_vxQueued (s : State) (n op : Nat) (th : Thread) (r : BitVec 256) (c : CoreNo) : Upkeep [.compute] s (s.vxQueued n op th r c) :=
  upkeep_toUnit s n op th r _ c (fun _ => rfl)

theorem State.vxQueued_core (s : State) (n op : Nat) (th : Thread) (r : BitVec 256) (c b : CoreNo) :
    (s.vxQueued n op th r c).core b = if b = c then { s.core c with vxWait := (s.core c).vxWait ++ [s.vxOpAt n th r] } else s.core b := s.toUnit_core n op th r _ c b _

theorem foundAlike_vxQueued (c : CoreNo) (hi : Issues s n op (vxRanges th r) th r) (m : Nat) : FoundAlike m s (s.vxQueued n op th r c) := by
  obtain ⟨hth, -⟩ := hi.holds
  refine foundAlike_toUnit op r _ c ?_ hth m
  exact fun _ => ⟨rfl, rfl⟩

/-- A VX operation has issued, and its unit has taken it. -/
def State.vxTaken (s : State) (n op : Nat) (th : Thread) (r : BitVec 256) (c : CoreNo) : State := (s.vxQueued n op th r c).vxLeaves c (s.vxOpAt n th r)

theorem ran_vxTaken (c : CoreNo) (hi : Issues s n op (vxRanges th r) th r) :
    Ran s (s.vxTaken n op th r c) n th { (passed th op).setting r .unit with flights := th.flights ++ [⟨s.compute.nextIdent, vxRanges th r⟩] } :=
  (ran_vxQueued c hi).of_tables rfl rfl

theorem upkeep_vxTaken (s : State) (n op : Nat) (th : Thread) (r : BitVec 256) (c : CoreNo) : Upkeep [.compute] s (s.vxTaken n op th r c) :=
  (upkeep_vxQueued s n op th r c).trans (upkeep_vxLeaves _ c _)

theorem State.vxTaken_now (s : State) (n op : Nat) (th : Thread) (r : BitVec 256) (c : CoreNo) : (s.vxTaken n op th r c).now = s.now :=
  (upkeep_vxTaken s n op th r c).frame .now (by simp)

theorem State.vxTaken_ne (s : State) (n op : Nat) (th : Thread) (r : BitVec 256) {b c : CoreNo} (hb : b ≠ c) : (s.vxTaken n op th r c).core b = s.core b := by
  unfold State.vxTaken State.vxLeaves
  rw [State.core_modCore, if_neg hb, State.vxQueued_core, if_neg hb]

theorem State.vxTaken_wait (op : Nat) (hwait : (s.core c).vxWait = []) : ((s.vxTaken n op th r c).core c).vxWait = [] := by
  unfold State.vxTaken State.vxLeaves
  rw [State.core_modCore, if_pos rfl, State.vxQueued_core, if_pos rfl, hwait, List.nil_append]
  exact List.filter_eq_nil_iff.mpr (by simp)

/-- An operation issued to an idle vector unit faults or starts, as the unit's checks find in the state before. -/
theorem State.issueVx_idle (hi : Issues s n op (vxRanges th r) th r) (hg : s.gangOf? th = some g) (hidle : (s.core g.core).vxRun = none) (hwait : (s.core g.core).vxWait = []) :
    s.issueVx n op = (s.vxFault (s.vxOpAt n th r)).elim ((s.vxTaken n op th r g.core).vxStarts g.core (s.vxOpAt n th r))
      (fun f => ((s.vxTaken n op th r g.core).unitEnd (s.vxOpAt n th r)).fault n th.pc f 0) := by
  have hfound := foundAlike_vxQueued g.core hi n
  have hcore := s.vxQueued_core n op th r g.core g.core
  rw [if_pos rfl] at hcore
  have hmay : (s.vxQueued n op th r g.core).mayTake (s.vxOpAt n th r) = true := (hfound.takes _ rfl).trans (hi.mayTake rfl)
  have hfault : (s.vxQueued n op th r g.core).vxFault (s.vxOpAt n th r) = s.vxFault (s.vxOpAt n th r) := FoundAlike.vxFault hfound
  rw [State.issueVx_eq hi hg, State.vxTake_one (by rw [hcore, hidle]) (by rw [hcore, hwait, List.nil_append]) hmay, hfault]
  rfl

/-- The records of the VX operations are issued alike. -/
theorem exec_vx {e : Nat × (Nat → Instr)} (he : e ∈ [(0x0201, Instr.add), (0x0202, Instr.mul), (0x0203, Instr.fma), (0x0204, Instr.cmp), (0x0205, Instr.sel), (0x0206, Instr.min),
    (0x0207, Instr.max), (0x0208, Instr.compress), (0x0209, Instr.expand)]) (n : Nat) (s : State) : exec (e.2 n) s = .next (s.issueVx n e.1) := by
  simp only [List.mem_cons, List.not_mem_nil, or_false] at he
  rcases he with rfl | rfl | rfl | rfl | rfl | rfl | rfl | rfl | rfl <;> rfl

end

end Sys2Proof.Machine

/-! # What a unit's operation leaves when it ends (04 R121 to R127; 06 R185, R190) -/

namespace Sys2Proof.Machine

/-! ## Several runs of bytes written to one memory. -/

/-- The memory with runs of bytes written, each at its offset from a base. -/
def Mem.writes (d : Byte) (m : Mem) (base : Nat) (ws : List (Nat × List Byte)) : Mem := ws.foldl (fun m w => Mem.write d m (base + w.1) w.2) m

/-- One byte lies outside every run. -/
def Outside (base : Nat) (ws : List (Nat × List Byte)) (a : Nat) : Prop := ∀ w ∈ ws, a < base + w.1 ∨ base + w.1 + w.2.length ≤ a

section
variable {d : Byte} {base : Nat} {ws : List (Nat × List Byte)}

theorem Mem.get_writes_outside (m : Mem) {a : Nat} (h : Outside base ws a) : Mem.get d (Mem.writes d m base ws) a = Mem.get d m a := by
  induction ws generalizing m with
  | nil => rfl
  | cons w ws ih =>
    obtain ⟨hw, hws⟩ := List.forall_mem_cons.mp h
    exact (ih (Mem.write d m (base + w.1) w.2) hws).trans (Mem.get_write_out d m (base + w.1) w.2 a hw)

/-- Runs that share no byte each read back. -/
theorem Mem.read_writes (m : Mem) (h : ws.Pairwise (fun a b => a.1 + a.2.length ≤ b.1 ∨ b.1 + b.2.length ≤ a.1)) :
    ∀ w ∈ ws, Mem.read d (Mem.writes d m base ws) (base + w.1) w.2.length = w.2 := by
  induction ws generalizing m with
  | nil => exact fun _ hw => absurd hw List.not_mem_nil
  | cons w ws ih =>
    obtain ⟨hw, hws⟩ := List.pairwise_cons.mp h
    refine List.forall_mem_cons.mpr ⟨?_, ih (Mem.write d m (base + w.1) w.2) hws⟩
    have hkept : Mem.read d (Mem.writes d (Mem.write d m (base + w.1) w.2) base ws) (base + w.1) w.2.length =
        Mem.read d (Mem.write d m (base + w.1) w.2) (base + w.1) w.2.length := by
      refine List.map_congr_left fun i hi => Mem.get_writes_outside _ fun v hv => ?_
      have hi := List.mem_range.mp hi
      have := hw v hv
      omega
    exact hkept.trans (Mem.read_write d m (base + w.1) w.2)

end

/-! ## Results written to the bench memory of a gang in place. -/

/-- The operations that wait for the units of a core, and those that run on them. -/
def State.units (s : State) (b : CoreNo) : List UnitOp × Option (UnitOp × Nat) × List SelRun × Option SelRun :=
  ((s.core b).vxWait, (s.core b).vxRun, (s.core b).slWait, (s.core b).slRun)

section
variable {s t : State} {n op due : Nat} {c : CoreNo} {u : UnitOp} {th : Thread} {g : Gang} {d : VxDone} {ks : List Part}

theorem State.units_of_cores (h : t.compute.cores = s.compute.cores) : t.units = s.units := by
  funext b
  unfold State.units State.core
  rw [h]

theorem State.units_modCore (s : State) (c : CoreNo) {f : Core → Core}
    (hf : ∀ x, (f x).vxWait = x.vxWait ∧ (f x).vxRun = x.vxRun ∧ (f x).slWait = x.slWait ∧ (f x).slRun = x.slRun) : (s.modCore c f).units = s.units := by
  funext b
  unfold State.units
  rw [State.core_modCore]
  split
  · rename_i hb
    obtain ⟨h1, h2, h3, h4⟩ := hf (s.core c)
    rw [h1, h2, h3, h4, hb]
  · rfl

theorem State.units_saturated (s : State) (c : CoreNo) (j k : Nat) : (s.saturated c j k).units = s.units := by
  unfold State.saturated
  split
  · rfl
  · refine (State.units_of_cores (s := s.modCore c (fun x => { x with sat := satAdd (s.core c).sat k (2 ^ 48 - 1) })) rfl).trans (s.units_modCore c ?_)
    exact fun _ => ⟨rfl, rfl, rfl, rfl⟩

theorem State.units_winWrite (s : State) (j gi off : Nat) (bs : List Byte) : (s.winWrite j gi off bs).units = s.units := by
  unfold State.winWrite
  split
  · rfl
  · split
    · rfl
    · rename_i g _ _ _
      refine (State.units_of_cores (s := s.modCore g.core (fun c => { c with bench := Mem.write 0 c.bench (g.allotAt + off) bs })) rfl).trans (s.units_modCore g.core ?_)
      exact fun _ => ⟨rfl, rfl, rfl, rfl⟩

theorem State.units_benchWrite (s : State) (n off : Nat) (bs : List Byte) : (s.benchWrite n off bs).units = s.units := by
  unfold State.benchWrite
  split
  · exact s.units_winWrite _ _ _ bs
  · rfl

theorem State.saturated_threads (s : State) (c : CoreNo) (j k : Nat) : (s.saturated c j k).compute.threads = s.compute.threads := by
  unfold State.saturated
  split <;> rfl

/-- The results of an operation of a thread, one after the other. -/
def State.benchWrites (s : State) (n : Nat) (ws : List (Nat × List Byte)) : State := ws.foldl (fun s w => s.benchWrite n w.1 w.2) s

theorem State.units_benchWrites (s : State) (n : Nat) (ws : List (Nat × List Byte)) : (s.benchWrites n ws).units = s.units := by
  unfold State.benchWrites
  have hone : ∀ (s : State) (w : Nat × List Byte), (s.benchWrite n w.1 w.2).units = s.units := fun s w => s.units_benchWrite n w.1 w.2
  exact State.foldl_keeps State.units _ hone ws s

/-- Where a gang is in place, writing results changes the bench memory of its core and what fails of it, and nothing else. -/
structure WritesBench (s t : State) (g : Gang) (ws : List (Nat × List Byte)) : Prop where
  threads : t.compute.threads = s.compute.threads
  jobs : t.compute.jobs = s.compute.jobs
  bench : (t.core g.core).bench = Mem.writes 0 (s.core g.core).bench g.allotAt ws
  others : ∀ b, b ≠ g.core → (t.core b).bench = (s.core b).bench
  frame : Frame [.compute, .integ] s t

theorem WritesBench.window {ws : List (Nat × List Byte)} (h : WritesBench s t g ws) (n : Nat) : (t.thread? n).bind t.gangOf? = (s.thread? n).bind s.gangOf? :=
  State.window_of_seat (State.seat_of_threads h.threads) (State.gangOf?_of_jobs h.jobs) n

theorem writesBench_benchWrite (off : Nat) (bs : List Byte) (hth : s.thread? n = some th) (hg : s.gangOf? th = some g) (hsaved : g.saved = none) :
    WritesBench s (s.benchWrite n off bs) g [(off, bs)] := by
  rw [State.benchWrite_eq off bs hth]
  obtain ⟨m, hm, -⟩ | ⟨-, hw⟩ := State.winWrite_cases off bs hg
  · rw [hsaved] at hm
    cases hm
  have hcore : ∀ b, (s.winWrite th.job th.gang off bs).core b =
      if b = g.core then { s.core g.core with bench := Mem.write 0 (s.core g.core).bench (g.allotAt + off) bs } else s.core b := fun b => by
    rw [hw]
    exact State.core_modCore s g.core b (fun c => { c with bench := Mem.write 0 c.bench (g.allotAt + off) bs })
  refine ⟨s.winWrite_threads _ _ _ bs, ?_, ?_, fun b hb => ?_, frame_winWrite s _ _ off bs⟩
  · rw [hw]
    rfl
  · rw [hcore, if_pos rfl]
    rfl
  · rw [hcore, if_neg hb]

theorem writesBench_benchWrites (ws : List (Nat × List Byte)) (hth : s.thread? n = some th) (hg : s.gangOf? th = some g) (hsaved : g.saved = none) :
    WritesBench s (s.benchWrites n ws) g ws := by
  induction ws generalizing s with
  | nil => exact ⟨rfl, rfl, rfl, fun _ _ => rfl, .refl _ s⟩
  | cons w ws ih =>
    have hone := writesBench_benchWrite w.1 w.2 hth hg hsaved
    have hrest := ih (s := s.benchWrite n w.1 w.2) ((congrArg (Tab.find · n) hone.threads).trans hth) ((congrFun (State.gangOf?_of_jobs hone.jobs) th).trans hg)
    refine ⟨hrest.threads.trans hone.threads, hrest.jobs.trans hone.jobs, ?_, fun b hb => (hrest.others b hb).trans (hone.others b hb), hone.frame.trans hrest.frame⟩
    exact hrest.bench.trans (congrArg (fun m => Mem.writes 0 m g.allotAt ws) hone.bench)

/-- What a thread reads of its window is the bench memory of its gang in place. -/
theorem State.benchRead_of_window (h : (s.thread? n).bind s.gangOf? = some g) (hsaved : g.saved = none) (off len : Nat) :
    s.benchRead n off len = Mem.read 0 (s.core g.core).bench (g.allotAt + off) len := by
  simp only [State.benchRead, h, State.winRead, hsaved]

/-! ## An operation's thread when it ends (06 R185, R190). -/

/-- A thread one of whose unit operations has ended: it is out of flight, and its handle has settled if it set one. -/
def Thread.unitEnded (th : Thread) (u : UnitOp) : Thread := if setH u.rcd then (th.landed u.op).settled (handleOf u.rcd) else th.landed u.op

theorem State.unitEnd_eq (s : State) (u : UnitOp) : s.unitEnd u = s.modThread u.thread (fun th => th.unitEnded u) := rfl

theorem Thread.unitEnded_rest (th : Thread) (u : UnitOp) :
    th.unitEnded u = { th with flights := th.flights.filter (fun f => f.ident ≠ u.op), handles := (th.unitEnded u).handles } := by
  unfold Thread.unitEnded
  split <;> rfl

theorem Thread.unitEnded_handle (th : Thread) (h : setH u.rcd = true) :
    ((th.unitEnded u).handle (handleOf u.rcd)).count = (th.handle (handleOf u.rcd)).count - 1 := by
  rw [Thread.unitEnded, if_pos h, Thread.settled, Thread.handle_modHandle, if_pos rfl]
  rfl

theorem Thread.unitEnded_handles (th : Thread) (h : setH u.rcd = false) : (th.unitEnded u).handles = th.handles := by
  unfold Thread.unitEnded
  simp only [h, Bool.false_eq_true, if_false]
  rfl

theorem upkeep_unitEnd (s : State) (u : UnitOp) : Upkeep [.compute] s (s.unitEnd u) := by
  rw [State.unitEnd_eq]
  refine upkeep_modThread u.thread (fun x => ?_)
  rw [x.unitEnded_rest]
  exact ⟨rfl, rfl⟩

/-- A core changes as a unit operation ends. -/
def State.freed (s : State) (c : CoreNo) (f : Core → Core) (u : UnitOp) : State := (s.modCore c f).unitEnd u

theorem upkeep_freed (s : State) (c : CoreNo) {f : Core → Core} (u : UnitOp) (hf : ∀ x, (f x).bench = x.bench) : Upkeep [.compute] s (s.freed c f u) :=
  (upkeep_modCore c hf).trans (upkeep_unitEnd _ u)

theorem State.thread?_freed (s : State) (c : CoreNo) (f : Core → Core) (u : UnitOp) (j : Nat) :
    (s.freed c f u).thread? j = if j = u.thread then (s.thread? j).map (fun th => th.unitEnded u) else s.thread? j :=
  (s.modCore c f).thread?_modThread u.thread j (fun th => th.unitEnded u)

theorem State.freed_core (s : State) (c : CoreNo) (f : Core → Core) (u : UnitOp) : (s.freed c f u).core c = f (s.core c) := by
  refine (State.core_modCore s c c f).trans ?_
  rw [if_pos rfl]

/-! ## VX_COMPLETE (04 R121 to R127). -/

/-- The register of a COMPRESS count is written (04 R125). -/
def Thread.counted (th : Thread) (u : UnitOp) : Option Nat → Thread
  | some n => th.setReg (fld u.rcd 238 5) (BitVec.ofNat 64 n)
  | none => th

/-- The count of a COMPRESS goes to its thread, where there is one. -/
def State.counted (s : State) (u : UnitOp) : Option Nat → State
  | some n => s.modThread u.thread (fun th => th.counted u (some n))
  | none => s

theorem State.thread?_counted (s : State) (u : UnitOp) (k : Option Nat) (j : Nat) :
    (s.counted u k).thread? j = if j = u.thread then (s.thread? j).map (fun th => th.counted u k) else s.thread? j := by
  cases k with
  | none => cases h : s.thread? j <;> simp [State.counted, Thread.counted, h]
  | some n => exact s.thread?_modThread u.thread j _

theorem Thread.counted_rest (th : Thread) (u : UnitOp) (k : Option Nat) : th.counted u k = { th with regs := (th.counted u k).regs } := by cases k <;> rfl

theorem upkeep_counted (s : State) (u : UnitOp) (k : Option Nat) : Upkeep [.compute] s (s.counted u k) := by
  cases k with
  | none => exact .refl _ _
  | some n => exact upkeep_modThread u.thread (fun _ => ⟨rfl, rfl⟩)

theorem State.units_counted (s : State) (u : UnitOp) (k : Option Nat) : (s.counted u k).units = s.units := by
  cases k with
  | none => rfl
  | some n => exact State.units_of_cores rfl

/-- A VX operation whose results have been written: its count and its saturations have gone to its thread, its core and its job. -/
def State.vxCounted (s : State) (c : CoreNo) (u : UnitOp) (d : VxDone) : State :=
  ((s.counted u d.count).saturated c ((((s.counted u d.count).thread? u.thread).map (·.job)).getD 0) d.sats).spend vxSeeds

theorem State.vxApply_spend (s : State) (c : CoreNo) (u : UnitOp) (d : VxDone) :
    (s.vxApply c u d).spend vxSeeds = (s.benchWrites u.thread d.writes).vxCounted c u d := by
  unfold State.vxApply State.vxCounted
  cases d.count <;> rfl

/-- The vector unit of a core is free of an operation, which has ended. -/
def State.vxFree (s : State) (c : CoreNo) (u : UnitOp) : State := s.freed c (fun x => { x with vxRun := none }) u

theorem upkeep_vxFree (s : State) (c : CoreNo) (u : UnitOp) : Upkeep [.compute] s (s.vxFree c u) := upkeep_freed s c u (fun _ => rfl)

theorem State.vxFree_core (s : State) (c : CoreNo) (u : UnitOp) : (s.vxFree c u).core c = { s.core c with vxRun := none } := s.freed_core c _ u

theorem exec_vxComplete (hrun : (s.core c).vxRun = some (u, due)) (hgood : s.integ.badWords = [])
    (hd : d = vxRun u.rcd (s.vxRounding u.thread u.rcd u.base u.count) s.freeCtr (s.reader u.thread) u.base u.count u.scalars)
    (hfree : ∀ w ∈ d.writes, s.pieceLocked u.thread w.1 w.2.length = false) :
    exec (.vxComplete c) s = .next (((((s.at_ due).benchWrites u.thread d.writes).vxCounted c u d).vxFree c u).settleAll.vxTake c) := by
  change execVxComplete c s = _
  have hdone : vxRun u.rcd ((s.at_ due).vxRounding u.thread u.rcd u.base u.count) (s.at_ due).freeCtr ((s.at_ due).reader u.thread) u.base u.count u.scalars = d := hd.symm
  have hread : ∀ spans, (s.at_ due).benchFails u.thread spans = s.at_ due := fun spans => State.benchFails_good _ spans hgood
  have hlocked : d.writes.any (fun w => (s.at_ due).pieceLocked u.thread w.1 w.2.length) = false :=
    List.any_eq_false.mpr fun w hw => Bool.eq_false_iff.mp (hfree w hw)
  simp only [execVxComplete, hrun, hdone, hread, hlocked, Bool.false_eq_true, if_false, State.vxApply_spend]
  rfl

theorem State.thread?_vxCounted (s : State) (c : CoreNo) (u : UnitOp) (d : VxDone) (j : Nat) :
    (s.vxCounted c u d).thread? j = if j = u.thread then (s.thread? j).map (fun th => th.counted u d.count) else s.thread? j := by
  have hthreads : (s.vxCounted c u d).compute.threads = (s.counted u d.count).compute.threads := State.saturated_threads _ _ _ _
  rw [State.thread?, hthreads, ← State.thread?, State.thread?_counted]

theorem upkeep_vxCounted (s : State) (c : CoreNo) (u : UnitOp) (d : VxDone) : Upkeep [.compute, .freeCtr] s (s.vxCounted c u d) :=
  (((upkeep_counted s u d.count).trans (upkeep_saturated _ c _ d.sats)).mono (by simp)).trans ((upkeep_spend _ vxSeeds).mono (by simp))

theorem State.units_vxCounted (s : State) (c : CoreNo) (u : UnitOp) (d : VxDone) : (s.vxCounted c u d).units = s.units := by
  have hsat := ((s.counted u d.count).units_saturated c ((((s.counted u d.count).thread? u.thread).map (·.job)).getD 0) d.sats).trans (s.units_counted u d.count)
  exact (State.units_of_cores rfl).trans hsat

end

end Sys2Proof.Machine

/-! # VX operations are issued to the vector unit, and end with their results (04 R121 to R130, R133; 06 R203, R207) -/

namespace Sys2Proof.Machine

section
variable {s t : State} {n op due : Nat} {c : CoreNo} {u : UnitOp} {th : Thread} {r : BitVec 256} {g : Gang} {d : VxDone}

/-- With no job ending and nothing waiting, the end of a VX operation leaves its unit free. -/
theorem State.vxFree_settles (u : UnitOp) (hn : s.NoneEnding) (hwait : (s.core c).vxWait = []) : (s.vxFree c u).settleAll.vxTake c = s.vxFree c u := by
  rw [State.settleAll_of_noneEnding ((upkeep_vxFree s c u).noneEnding hn), State.vxTake_none (by rw [State.vxFree_core, hwait])]

/-- A VX operation issued to a unit that is busy waits there. -/
theorem vx_waits (hi : Issues s n op (vxRanges th r) th r) (hg : s.gangOf? th = some g) (hbusy : (s.core g.core).vxRun.isSome = true) :
    (s.issueVx n op).core g.core = { s.core g.core with vxWait := (s.core g.core).vxWait ++ [s.vxOpAt n th r] } ∧
      (∀ b, b ≠ g.core → (s.issueVx n op).core b = s.core b) ∧
      Ran s (s.issueVx n op) n th { (passed th op).setting r .unit with flights := th.flights ++ [⟨s.compute.nextIdent, vxRanges th r⟩] } ∧
      Frame [.compute] s (s.issueVx n op) := by
  have hself := s.vxQueued_core n op th r g.core g.core
  rw [if_pos rfl] at hself
  rw [State.issueVx_eq hi hg, State.vxTake_busy (by rw [hself]; exact hbusy)]
  refine ⟨hself, fun b hb => ?_, ran_vxQueued g.core hi, (upkeep_vxQueued s n op th r g.core).frame⟩
  rw [State.vxQueued_core, if_neg hb]

/-- A VX operation issued to an idle unit whose checks it passes starts. -/
theorem vx_starts (hi : Issues s n op (vxRanges th r) th r) (hg : s.gangOf? th = some g) (hidle : (s.core g.core).vxRun = none) (hwait : (s.core g.core).vxWait = [])
    (hok : s.vxFault (s.vxOpAt n th r) = none) :
    ((s.issueVx n op).core g.core).vxRun = some (s.vxOpAt n th r, s.now + vxCycles r (s.vxOpAt n th r).count * arrayUnits) ∧
      ((s.issueVx n op).core g.core).vxWait = [] ∧ ((s.issueVx n op).core g.core).vxLast = (s.vxOpAt n th r).source ∧
      (∀ b, b ≠ g.core → (s.issueVx n op).core b = s.core b) ∧ BytesSame s (s.issueVx n op) ∧
      Ran s (s.issueVx n op) n th { (passed th op).setting r .unit with flights := th.flights ++ [⟨s.compute.nextIdent, vxRanges th r⟩] } ∧
      Frame [.compute] s (s.issueVx n op) := by
  obtain ⟨hrun, hleft, hlast, hothers⟩ := (s.vxTaken n op th r g.core).vxStarts_core g.core (s.vxOpAt n th r)
  obtain ⟨hthreads, hjobs, -, -⟩ := (s.vxTaken n op th r g.core).chargeVx_rest g.core n (vxCycles r (s.vxOpAt n th r).count)
  have hup := (upkeep_vxTaken s n op th r g.core).trans (upkeep_vxStarts _ g.core (s.vxOpAt n th r))
  rw [State.vxTaken_now] at hrun
  rw [State.issueVx_idle hi hg hidle hwait, hok, Option.elim_none]
  exact ⟨hrun, hleft.trans (State.vxTaken_wait op hwait), hlast, fun b hb => (hothers b hb).trans (s.vxTaken_ne n op th r hb), hup.bytesSame,
    (ran_vxTaken g.core hi).of_tables hthreads hjobs, hup.frame⟩

/-- A VX operation issued to an idle unit one of whose checks it fails stops its job. -/
theorem vx_faults (hi : Issues s n op (vxRanges th r) th r) (hg : s.gangOf? th = some g) (hidle : (s.core g.core).vxRun = none) (hwait : (s.core g.core).vxWait = [])
    (hbad : (s.vxFault (s.vxOpAt n th r)).isSome = true) : Stops (s.issueVx n op) th.job .moduleInvalid := by
  obtain ⟨f, hf⟩ := Option.isSome_iff_exists.mp hbad
  obtain ⟨hth, -⟩ := hi.holds
  obtain ⟨x, hx, hn⟩ := hi.job
  have hup := (upkeep_vxTaken s n op th r g.core).trans (upkeep_unitEnd _ (s.vxOpAt n th r))
  rw [State.issueVx_idle hi hg hidle hwait, hf, Option.elim_some]
  exact hup.toStanding.fault_stops hth hx hn th.pc f 0

/-- What the thread of a VX operation is once the operation has ended. -/
theorem Thread.counted_unitEnded (th : Thread) (u : UnitOp) (k : Option Nat) :
    ((th.counted u k).unitEnded u).flights = th.flights.filter (fun f => f.ident ≠ u.op) ∧ ((th.counted u k).unitEnded u).pc = th.pc ∧
      ((th.counted u k).unitEnded u).regs = (th.counted u k).regs := by
  rw [Thread.unitEnded_rest, Thread.counted_rest]
  exact ⟨rfl, rfl, rfl⟩

theorem Thread.handle_counted (th : Thread) (u : UnitOp) (k : Option Nat) (h : Nat) : (th.counted u k).handle h = th.handle h := by cases k <;> rfl

theorem Thread.reg_counted (th : Thread) (u : UnitOp) (k : Nat) : (th.counted u (some k)).reg (fld u.rcd 238 5) = BitVec.ofNat 64 k := Tab.at_put_self _ _ _ _

/-- The end of a VX operation whose results have been written leaves the bench memories, and its thread but for its flight, its handle and its count. -/
theorem vx_ends {w : State} (hw : WritesBench s w g d.writes) (hth : s.thread? u.thread = some th) :
    Upkeep [.compute, .freeCtr] w ((w.vxCounted c u d).vxFree c u) ∧
      ((w.vxCounted c u d).vxFree c u).thread? u.thread = some ((th.counted u d.count).unitEnded u) ∧
      ∀ j, j ≠ u.thread → ((w.vxCounted c u d).vxFree c u).thread? j = s.thread? j := by
  have hold : w.thread? = s.thread? := congrArg Tab.find hw.threads
  refine ⟨(upkeep_vxCounted w c u d).trans ((upkeep_vxFree _ c u).mono (by simp)), ?_, fun j hj => ?_⟩
  · rw [State.vxFree, State.thread?_freed, if_pos rfl, State.thread?_vxCounted, if_pos rfl, hold, hth, Option.map_some, Option.map_some]
  · rw [State.vxFree, State.thread?_freed, if_neg hj, State.thread?_vxCounted, if_neg hj, hold]

end

/-- Settles O26: the nine operations issue alike, the unit's checks find after issue what they found before it, and results that share no byte each read back. -/
theorem vectorOperations : Obligations.VectorOperations := by
  unfold Obligations.VectorOperations
  refine ⟨?issued, ?ends⟩
  case issued =>
    intro e he s n th r g u hi hg hu
    subst hu
    exact ⟨fun hbusy => ⟨_, exec_vx he n s, vx_waits hi hg hbusy⟩, fun hidle hwait hok => ⟨_, exec_vx he n s, vx_starts hi hg hidle hwait hok⟩,
      fun hidle hwait hbad => ⟨_, exec_vx he n s, vx_faults hi hg hidle hwait hbad⟩⟩
  case ends =>
    intro s c u due d th g hrun hwait hth hg hsaved hjobs hgood hd hapart hfree
    have hexec := exec_vxComplete hrun hgood hd hfree
    have hw := writesBench_benchWrites (s := s.at_ due) d.writes hth hg hsaved
    have hunits := (s.at_ due).units_benchWrites u.thread d.writes
    generalize (s.at_ due).benchWrites u.thread d.writes = w at hexec hw hunits
    obtain ⟨hup, hthread, hthreads⟩ := vx_ends (c := c) hw hth
    have hwait : ((w.vxCounted c u d).core c).vxWait = [] := (congrArg Prod.fst (congrFun ((w.units_vxCounted c u d).trans hunits) c)).trans hwait
    have hnone : (w.vxCounted c u d).NoneEnding :=
      (upkeep_vxCounted w c u d).noneEnding ((Standing.of_tables hw.threads hw.jobs).noneEnding (State.noneEnding_of_mem hjobs))
    have hwindow : (w.thread? u.thread).bind w.gangOf? = some g := (hw.window u.thread).trans ((congrArg (Option.bind · s.gangOf?) hth).trans hg)
    rw [State.vxFree_settles u hnone hwait] at hexec
    obtain ⟨hflights, hpc, hregs⟩ := th.counted_unitEnded u d.count
    refine ⟨_, (th.counted u d.count).unitEnded u, hexec, ?now, ?idle, ?empty, fun v hv => ?there, fun a ha => ?outside, fun b hb => ?others, hthread, hflights, hpc,
      fun hset => ?settles, fun hset => ?unset, fun k hk => ?count, fun hk => ?noCount, hthreads, ?frame⟩
    case now => exact (hup.frame .now (by simp)).trans (hw.frame .now (by simp))
    case idle => rw [State.vxFree_core]
    case empty => rw [State.vxFree_core, hwait]
    case there =>
      rw [hup.benchRead, State.benchRead_of_window hwindow hsaved, hw.bench]
      exact Mem.read_writes _ hapart v hv
    case outside =>
      rw [hup.bench, hw.bench]
      exact Mem.get_writes_outside _ ha
    case others => exact (hup.bench b).trans (hw.others b hb)
    case settles => rw [Thread.unitEnded_handle _ hset, Thread.handle_counted]
    case unset => rw [Thread.unitEnded_handles _ hset, Thread.counted_rest]
    case count => rw [Thread.reg, hregs, hk, ← Thread.reg, Thread.reg_counted]
    case noCount =>
      rw [hregs, hk]
      rfl
    case frame =>
      exact (((frame_atTime s due).mono (by simp)).trans (hw.frame.mono (by simp))).trans (hup.frame.mono (by simp))

end Sys2Proof.Machine

/-! # What a selection keeps (04 R137 to R142) -/

namespace Sys2Proof.Machine

/-! ## Lists sorted by a relation that a strict order decides. -/

section
variable {α : Type} {before : α → α → Bool} {R : α → α → Prop}

theorem insertBy_sorted (hyes : ∀ a b, before a b = true → R a b) (hno : ∀ a b, before a b = false → R b a) (htrans : ∀ a b c, R a b → R b c → R a c)
    (x : α) {l : List α} (h : l.Pairwise R) : (insertBy before x l).Pairwise R := by
  induction l with
  | nil => exact List.pairwise_singleton R x
  | cons y ys ih =>
    obtain ⟨hy, hys⟩ := List.pairwise_cons.mp h
    unfold insertBy
    split
    · rename_i hxy
      refine List.pairwise_cons.mpr ⟨fun z hz => ?_, h⟩
      rcases List.mem_cons.mp hz with rfl | hz
      · exact hyes x z hxy
      · exact htrans x y z (hyes x y hxy) (hy z hz)
    · rename_i hxy
      refine List.pairwise_cons.mpr ⟨fun z hz => ?_, ih hys⟩
      rcases List.mem_cons.mp ((insertBy_perm before x ys).mem_iff.mp hz) with rfl | hz
      · exact hno z y (Bool.eq_false_iff.mpr hxy)
      · exact hy z hz

theorem sortBy_sorted (hyes : ∀ a b, before a b = true → R a b) (hno : ∀ a b, before a b = false → R b a) (htrans : ∀ a b c, R a b → R b c → R a c)
    (l : List α) : (sortBy before l).Pairwise R := by
  induction l using List.reverseRecOn with
  | nil => exact .nil
  | append_singleton xs x ih =>
    rw [sortBy_concat]
    exact insertBy_sorted hyes hno htrans x ih

end

/-! ## The ranking of integers (04 R138). -/

theorem Num.lt_ofInt (a b : Int) : (Num.ofInt a).lt (.ofInt b) = decide (a < b) := by
  have hsigned : ∀ x : Int, (if decide (x < 0) = true then -(x.natAbs : Int) else x.natAbs) = x := fun x => by
    by_cases hx : x < 0 <;> simp only [hx, decide_true, decide_false, if_true, Bool.false_eq_true, if_false] <;> omega
  simp only [Num.ofInt, Num.lt, hsigned, Nat.cast_one, mul_one]

theorem SelEl.value_of_before {a b : SelEl} (h : a.before true b = true) : signedOf 32 b.value ≤ signedOf 32 a.value := by
  simp only [SelEl.before, selNum, if_true, Num.lt_ofInt, Bool.or_eq_true, Bool.and_eq_true, Bool.not_eq_true', decide_eq_true_eq, decide_eq_false_iff_not] at h
  omega

theorem SelEl.value_of_not_before {a b : SelEl} (h : a.before true b = false) : signedOf 32 a.value ≤ signedOf 32 b.value := by
  simp only [SelEl.before, selNum, if_true, Num.lt_ofInt, Bool.or_eq_false_iff, decide_eq_false_iff_not] at h
  omega

/-! ## First copies (04 R139). -/

theorem firstCopies_concat (l : List SelEl) (e : SelEl) :
    firstCopies (l ++ [e]) = if (firstCopies l).any (fun x => x.index = e.index) then firstCopies l else firstCopies l ++ [e] := by
  simp [firstCopies]

theorem firstCopies_sublist (l : List SelEl) : (firstCopies l).Sublist l := by
  induction l using List.reverseRecOn with
  | nil => exact .refl _
  | append_singleton l e ih =>
    rw [firstCopies_concat]
    split
    · exact ih.trans (List.sublist_append_left l [e])
    · exact ih.append (.refl _)

theorem firstCopies_nodup (l : List SelEl) : ((firstCopies l).map (·.index)).Nodup := by
  induction l using List.reverseRecOn with
  | nil => exact .nil
  | append_singleton l e ih =>
    rw [firstCopies_concat]
    split
    · exact ih
    · rename_i hnew
      have hnew : e.index ∉ (firstCopies l).map (·.index) := by simpa using hnew
      rw [List.map_append, List.map_singleton, ← List.concat_eq_append]
      exact ih.concat hnew

/-! ## What is selected (04 R137 to R140). -/

/-- The valid elements in their ranking. -/
def rankedEls (int : Bool) (els : List SelEl) : List SelEl := sortBy (SelEl.before int) (els.filter (fun e => e.valid int))

section
variable (int dedup : Bool) (k : Nat) (els : List SelEl)

theorem selectK_sel : (selectK int dedup k els).sel = (if dedup then firstCopies (rankedEls int els) else rankedEls int els).take k := rfl

theorem selectK_sublist : (selectK int dedup k els).sel.Sublist (rankedEls int els) := by
  rw [selectK_sel]
  refine (List.take_sublist k _).trans ?_
  split
  · exact firstCopies_sublist _
  · exact .refl _

theorem selectK_length_le : (selectK int dedup k els).sel.length ≤ k := List.length_take_le k _

theorem mem_rankedEls {e : SelEl} : e ∈ rankedEls int els ↔ e ∈ els ∧ e.valid int = true := (sortBy_perm _ _).mem_iff.trans List.mem_filter

theorem rankedEls_length : (rankedEls int els).length = (els.filter (fun e => e.valid int)).length := (sortBy_perm _ _).length_eq

theorem rankedEls_descending : (rankedEls true els).Pairwise (fun a b => signedOf 32 b.value ≤ signedOf 32 a.value) := by
  have hsorted := sortBy_sorted (R := fun a b : SelEl => signedOf 32 b.value ≤ signedOf 32 a.value)
    (fun _ _ h => SelEl.value_of_before h) (fun _ _ h => SelEl.value_of_not_before h) (fun _ _ _ hab hbc => hbc.trans hab)
  exact hsorted _

end

/-! ## The result (04 R142, R143). -/

/-- Fields that lie in a block leave its length. -/
theorem blockOf_length (n : Nat) (fields : List (Nat × Nat × Nat)) (h : ∀ f ∈ fields, f.1 + f.2.1 ≤ n) : (blockOf n fields).length = n := by
  unfold blockOf
  induction fields using List.reverseRecOn with
  | nil => exact zeros_length n
  | append_singleton fs f ih =>
    have hf := h f (List.mem_append_right fs List.mem_cons_self)
    have ih := ih (fun g hg => h g (List.mem_append_left [f] hg))
    simp only [List.foldl_append, List.foldl_cons, List.foldl_nil, List.length_append, List.length_take, List.length_drop, leBytes_length, ih]
    omega

theorem Selected.header_length (x : Selected) (int : Bool) (rnd : Rnd) : (x.header int rnd).length = 64 := blockOf_length 64 _ (by simp)

theorem SelEl.entry_length (e : SelEl) : e.entry.length = 16 := by simp only [SelEl.entry, List.length_append, leBytes_length]

theorem Selected.bytes_length {x : Selected} (int : Bool) (rnd : Rnd) (h : x.sel.length ≤ x.k) : (x.bytes int rnd).length = 64 + 16 * x.k := by
  have hentries : (x.sel.flatMap SelEl.entry).length = x.sel.length * 16 := by
    simp only [List.length_flatMap, SelEl.entry_length, List.map_const', List.sum_replicate_nat]
  simp only [Selected.bytes, List.length_append, x.header_length, hentries, zeros_length]
  omega

end Sys2Proof.Machine

/-! # Selections are issued to the selection unit, and end with their results (04 R137 to R146; 06 R208) -/

namespace Sys2Proof.Machine

section
variable {s t : State} {n op : Nat} {c : CoreNo} {u : UnitOp} {q : SelRun} {th : Thread} {r : BitVec 256} {g : Gang}

theorem Upkeep.reader {ks : List Part} (h : Upkeep ks s t) (n : Nat) : t.reader n = s.reader n := by
  unfold State.reader
  rw [h.benchRead]

/-! ## Issue of a selection (04 R145, R146; 06 R208). -/

/-- A selection as it is issued: its record, the value BREG added and the base of its indices. -/
def State.slOpAt (s : State) (n : Nat) (th : Thread) (r : BitVec 256) : UnitOp :=
  ⟨n, s.compute.nextIdent, th.pc, r, bregBase th r, if slMode r = 1 then 0 else (th.reg (fld r 97 5)).toNat, [], 8, s.compute.arrivals⟩

/-- A selection has issued and waits at the selection unit of its core. -/
def State.slQueued (s : State) (n : Nat) (th : Thread) (r : BitVec 256) (c : CoreNo) : State :=
  s.toUnit n 0x0301 th r (s.slRanges n th r) c (fun x => { x with slWait := x.slWait ++ [⟨s.slOpAt n th r, 0, 0, 0, none⟩] })

/-- A selection leaves those that wait for the selection unit of a core. -/
def State.slLeaves (s : State) (c : CoreNo) (u : UnitOp) : State := s.modCore c (fun x => { x with slWait := x.slWait.filter (fun v => v.uop.op ≠ u.op) })

/-- The selection unit of a core starts the first pass of a selection. -/
def State.slStarts (s : State) (c : CoreNo) (u : UnitOp) : State :=
  s.modCore c (fun x => { x with slRun := some ⟨u, 0, s.now + slPassCycles u.rcd (s.reader u.thread) u.base 0 * arrayUnits, 0, none⟩ })

theorem foundAlike_slLeaves (s : State) (c : CoreNo) (u : UnitOp) (n : Nat) : FoundAlike n s (s.slLeaves c u) := by
  unfold State.slLeaves
  refine foundAlike_modCore s c ?_ n
  exact fun _ => ⟨rfl, rfl⟩

theorem upkeep_slLeaves (s : State) (c : CoreNo) (u : UnitOp) : Upkeep [.compute] s (s.slLeaves c u) := upkeep_modCore c (fun _ => rfl)

theorem upkeep_slStarts (s : State) (c : CoreNo) (u : UnitOp) : Upkeep [.compute] s (s.slStarts c u) := upkeep_modCore c (fun _ => rfl)

/-- An idle selection unit for which one new selection waits that it may take, and whose checks it passes, starts it. -/
theorem State.slTake_one (hidle : (s.core c).slRun = none) (hwait : (s.core c).slWait = [⟨u, 0, 0, 0, none⟩]) (hmay : s.mayTake u = true) (hok : s.slFault u = none) :
    s.slTake c = (s.slLeaves c u).slStarts c u := by
  have hfault : (s.slLeaves c u).slFault u = none := (foundAlike_slLeaves s c u u.thread).slFault.trans hok
  unfold State.slLeaves at hfault
  simp only [State.slTake, hidle, hwait, List.map_singleton, State.chooseUnit_one _ hmay, Option.isSome_none, Bool.false_eq_true, if_false, List.find?_singleton, decide_true,
    if_true, Option.getD_some, and_self, hfault]
  rfl

theorem exec_slSelect_queues (hi : Issues s n 0x0301 (s.slRanges n th r) th r) (hg : s.gangOf? th = some g) :
    exec (.slSelect n) s = .next ((s.slQueued n th r g.core).slTake g.core) := by
  obtain ⟨hth, -⟩ := hi.holds
  have hissue : s.issue n 0x0301 (s.slRanges n) noCheck (fun th r s => s.queueSl n th.pc th r) = (s.passRecord n th 0x0301).queueSl n th.pc th r := hi.issue rfl _
  have hranges : (s.passRecord n th 0x0301).slRanges n th r = s.slRanges n th r := by
    unfold State.slRanges
    rw [(upkeep_passRecord s n th 0x0301).reader]
  change execSlSelect n s = _
  rw [execSlSelect, hissue, State.queueSl, State.coreOf_passRecord 0x0301 hth hg]
  dsimp only
  rw [hranges]
  rfl

theorem ran_slQueued (c : CoreNo) (hi : Issues s n 0x0301 (s.slRanges n th r) th r) :
    Ran s (s.slQueued n th r c) n th { (passed th 0x0301).setting r .unit with flights := th.flights ++ [⟨s.compute.nextIdent, s.slRanges n th r⟩] } := by
  obtain ⟨hth, -⟩ := hi.holds
  exact ran_toUnit 0x0301 r _ c _ hth

theorem upkeep_slQueued (s : State) (n : Nat) (th : Thread) (r : BitVec 256) (c : CoreNo) : Upkeep [.compute] s (s.slQueued n th r c) :=
  upkeep_toUnit s n 0x0301 th r _ c (fun _ => rfl)

theorem State.slQueued_core (s : State) (n : Nat) (th : Thread) (r : BitVec 256) (c b : CoreNo) : (s.slQueued n th r c).core b =
    if b = c then { s.core c with slWait := (s.core c).slWait ++ [⟨s.slOpAt n th r, 0, 0, 0, none⟩] } else s.core b := s.toUnit_core n 0x0301 th r _ c b _

theorem foundAlike_slQueued (c : CoreNo) (hi : Issues s n 0x0301 (s.slRanges n th r) th r) (m : Nat) : FoundAlike m s (s.slQueued n th r c) := by
  obtain ⟨hth, -⟩ := hi.holds
  refine foundAlike_toUnit 0x0301 r _ c ?_ hth m
  exact fun _ => ⟨rfl, rfl⟩

/-- A selection has issued, and its unit has taken it. -/
def State.slTaken (s : State) (n : Nat) (th : Thread) (r : BitVec 256) (c : CoreNo) : State := (s.slQueued n th r c).slLeaves c (s.slOpAt n th r)

theorem upkeep_slTaken (s : State) (n : Nat) (th : Thread) (r : BitVec 256) (c : CoreNo) : Upkeep [.compute] s (s.slTaken n th r c) :=
  (upkeep_slQueued s n th r c).trans (upkeep_slLeaves _ c _)

theorem State.slTaken_ne (s : State) (n : Nat) (th : Thread) (r : BitVec 256) {b c : CoreNo} (hb : b ≠ c) : (s.slTaken n th r c).core b = s.core b := by
  unfold State.slTaken State.slLeaves
  rw [State.core_modCore, if_neg hb, State.slQueued_core, if_neg hb]

theorem State.slTaken_wait (hwait : (s.core c).slWait = []) : ((s.slTaken n th r c).core c).slWait = [] := by
  unfold State.slTaken State.slLeaves
  rw [State.core_modCore, if_pos rfl, State.slQueued_core, if_pos rfl, hwait, List.nil_append]
  exact List.filter_eq_nil_iff.mpr (by simp)

/-- A selection issued to an idle unit whose checks it passes starts its first pass. -/
theorem exec_slSelect_starts (hi : Issues s n 0x0301 (s.slRanges n th r) th r) (hg : s.gangOf? th = some g) (hidle : (s.core g.core).slRun = none)
    (hwait : (s.core g.core).slWait = []) (hok : s.slFault (s.slOpAt n th r) = none) :
    exec (.slSelect n) s = .next ((s.slTaken n th r g.core).slStarts g.core (s.slOpAt n th r)) := by
  have hfound := foundAlike_slQueued g.core hi n
  have hcore := s.slQueued_core n th r g.core g.core
  rw [if_pos rfl] at hcore
  have hmay : (s.slQueued n th r g.core).mayTake (s.slOpAt n th r) = true := (hfound.takes _ rfl).trans (hi.mayTake rfl)
  have hfault : (s.slQueued n th r g.core).slFault (s.slOpAt n th r) = none := (FoundAlike.slFault (u := s.slOpAt n th r) hfound).trans hok
  rw [exec_slSelect_queues hi hg, State.slTake_one (by rw [hcore, hidle]) (by rw [hcore, hwait, List.nil_append]) hmay hfault]
  rfl

theorem State.slStarts_core (s : State) (c : CoreNo) (u : UnitOp) :
    ((s.slStarts c u).core c).slRun = some ⟨u, 0, s.now + slPassCycles u.rcd (s.reader u.thread) u.base 0 * arrayUnits, 0, none⟩ ∧
      ((s.slStarts c u).core c).slWait = (s.core c).slWait ∧ ∀ b, b ≠ c → (s.slStarts c u).core b = s.core b := by
  unfold State.slStarts
  refine ⟨?_, ?_, fun b hb => ?_⟩
  · rw [State.core_modCore, if_pos rfl]
  · rw [State.core_modCore, if_pos rfl]
  · rw [State.core_modCore, if_neg hb]

/-! ## The end of a pass (04 R140 to R145; 06 R216). -/

/-- The selection unit of a core starts the next pass of a selection. -/
def State.slNext (s : State) (c : CoreNo) (q : SelRun) : State :=
  s.modCore c (fun x => { x with slRun := some ⟨q.uop, q.pass + 1, s.now + slPassCycles q.uop.rcd (s.reader q.uop.thread) q.uop.base 0 * arrayUnits, 0, none⟩ })

theorem upkeep_slNext (s : State) (c : CoreNo) (q : SelRun) : Upkeep [.compute] s (s.slNext c q) := upkeep_modCore c (fun _ => rfl)

theorem State.slNext_slRun (s : State) (c : CoreNo) (q : SelRun) : ((s.slNext c q).core c).slRun =
    some ⟨q.uop, q.pass + 1, s.now + slPassCycles q.uop.rcd (s.reader q.uop.thread) q.uop.base 0 * arrayUnits, 0, none⟩ := by
  unfold State.slNext
  rw [State.core_modCore, if_pos rfl]

/-- The end of a pass that is not the last of a selection of an ending job starts the next. -/
theorem exec_slPassEnd_next {j : Job} (hrun : (s.core c).slRun = some q) (hcut : q.cut = none) (hmore : q.pass + 1 < slPasses q.uop.rcd)
    (hth : s.thread? q.uop.thread = some th) (hj : s.job? th.job = some j) (hend : j.ending.isSome = true) :
    exec (.slPassEnd c) s = .next ((s.at_ q.due).slNext c q) := by
  change execSlPassEnd c s = _
  have hth : (s.at_ q.due).thread? q.uop.thread = some th := hth
  have hj : (s.at_ q.due).job? th.job = some j := hj
  simp only [execSlPassEnd, hrun, hcut, hmore, Option.isSome_none, Bool.false_eq_true, or_true, if_true, hth, hj, Option.bind_some, Option.map_some, Option.getD_some, hend]
  rfl

/-- The result of a selection. -/
def SelRun.result (q : SelRun) (s : State) : Selected :=
  selectK (slInt q.uop.rcd) (slDedup q.uop.rcd) (slK q.uop.rcd) (slElems q.uop.rcd (s.reader q.uop.thread) q.uop.base q.uop.count)

/-- The selection unit of a core is free of a selection, which has ended. -/
def State.slFree (s : State) (c : CoreNo) (u : UnitOp) : State := s.freed c (fun x => { x with slRun := none }) u

theorem upkeep_slFree (s : State) (c : CoreNo) (u : UnitOp) : Upkeep [.compute] s (s.slFree c u) := upkeep_freed s c u (fun _ => rfl)

theorem State.slFree_core (s : State) (c : CoreNo) (u : UnitOp) : (s.slFree c u).core c = { s.core c with slRun := none } := s.freed_core c _ u

/-- With no job ending and nothing waiting, the end of a selection leaves its unit free. -/
theorem State.slFree_settles (u : UnitOp) (hn : s.NoneEnding) (hwait : (s.core c).slWait = []) : (s.slFree c u).settleAll.slTake c = s.slFree c u := by
  rw [State.settleAll_of_noneEnding ((upkeep_slFree s c u).noneEnding hn), State.slTake_none (by rw [State.slFree_core, hwait])]

/-- The result of a selection is written, and its saturations counted. -/
def State.slWritten (s : State) (c : CoreNo) (q : SelRun) (th : Thread) (x : Selected) : State :=
  (s.winWrite th.job th.gang (slRes q.uop.rcd q.uop.base) (x.bytes (slInt q.uop.rcd) (slRnd q.uop.rcd))).saturated c
    (((s.thread? q.uop.thread).map (·.job)).getD 0) (x.sats (slInt q.uop.rcd) (slRnd q.uop.rcd))

theorem exec_slPassEnd_last (hrun : (s.core c).slRun = some q) (hcut : q.cut = none) (hlast : slPasses q.uop.rcd ≤ q.pass + 1) (hth : s.thread? q.uop.thread = some th)
    (hgood : s.integ.badWords = []) (hfree : s.pieceLocked q.uop.thread (slResult q.uop.rcd q.uop.base).1 (slResult q.uop.rcd q.uop.base).2 = false) :
    exec (.slPassEnd c) s = .next ((((s.at_ q.due).slWritten c q th (q.result s)).slFree c q.uop).settleAll.slTake c) := by
  change execSlPassEnd c s = _
  have hth : (s.at_ q.due).thread? q.uop.thread = some th := hth
  have hread : ∀ spans, (s.at_ q.due).benchFails q.uop.thread spans = s.at_ q.due := fun spans => State.benchFails_good _ spans hgood
  have hfree : (s.at_ q.due).pieceLocked q.uop.thread (slResult q.uop.rcd q.uop.base).1 (slResult q.uop.rcd q.uop.base).2 = false := hfree
  simp only [execSlPassEnd, hrun, hcut, Nat.not_lt.mpr hlast, Option.isSome_none, Bool.false_eq_true, or_self, if_false, hread, hfree, State.benchWrite_eq _ _ hth]
  rfl

theorem State.slWritten_threads (s : State) (c : CoreNo) (q : SelRun) (th : Thread) (x : Selected) : (s.slWritten c q th x).compute.threads = s.compute.threads :=
  (State.saturated_threads _ _ _ _).trans (s.winWrite_threads _ _ _ _)

theorem State.units_slWritten (s : State) (c : CoreNo) (q : SelRun) (th : Thread) (x : Selected) : (s.slWritten c q th x).units = s.units :=
  (State.units_saturated _ _ _ _).trans (s.units_winWrite _ _ _ _)

theorem standing_slWritten (s : State) (c : CoreNo) (q : SelRun) (th : Thread) (x : Selected) : Standing s (s.slWritten c q th x) :=
  (standing_winWrite s _ _ _ _).trans (upkeep_saturated _ _ _ _).toStanding

theorem frame_slWritten (s : State) (c : CoreNo) (q : SelRun) (th : Thread) (x : Selected) : Frame [.compute, .integ] s (s.slWritten c q th x) :=
  (frame_winWrite s _ _ _ _).trans ((upkeep_saturated _ _ _ _).frame.mono (by simp))

theorem stored_slWritten (c : CoreNo) (q : SelRun) (x : Selected) (hg : s.gangOf? th = some g) :
    Stored s (s.slWritten c q th x) th (.win (slRes q.uop.rcd q.uop.base)) (x.bytes (slInt q.uop.rcd) (slRnd q.uop.rcd)) :=
  (upkeep_saturated _ _ _ _).stored (by simp) (stored_winWrite _ _ hg)

end

/-- Settles O27: a selection is taken by the unit's own checks, its result is stored as it ends, and what it keeps is a cut of the ranked valid elements or of their first
copies. -/
theorem selections : Obligations.Selections := by
  unfold Obligations.Selections
  refine ⟨?issued, ?last, ?next, ?kept, ?length, ?noRepeats, ?descending, ?result⟩
  case issued =>
    intro s n th r g u hi hg hu hidle hwait hok
    subst hu
    obtain ⟨hrun, hleft, hothers⟩ := (s.slTaken n th r g.core).slStarts_core g.core (s.slOpAt n th r)
    have htaken := upkeep_slTaken s n th r g.core
    have hup := htaken.trans (upkeep_slStarts _ g.core (s.slOpAt n th r))
    have hnow : (s.slTaken n th r g.core).now = s.now := htaken.frame .now (by simp)
    rw [hnow, htaken.reader] at hrun
    exact ⟨_, exec_slSelect_starts hi hg hidle hwait hok, hrun, hleft.trans (State.slTaken_wait hwait), fun b hb => (hothers b hb).trans (s.slTaken_ne n th r hb),
      hup.bytesSame, (ran_slQueued g.core hi).of_tables rfl rfl, hup.frame⟩
  case last =>
    intro s c q th g bs hrun hwait hcut hlast hth hg hjobs hgood hfree hbs
    have hexec := exec_slPassEnd_last hrun hcut hlast hth hgood hfree
    have hthreads := (s.at_ q.due).slWritten_threads c q th (q.result s)
    have hunits := (s.at_ q.due).units_slWritten c q th (q.result s)
    have hframe := frame_slWritten (s.at_ q.due) c q th (q.result s)
    have hnone := (standing_slWritten (s.at_ q.due) c q th (q.result s)).noneEnding (State.noneEnding_of_mem hjobs)
    have hstored : Stored (s.at_ q.due) ((s.at_ q.due).slWritten c q th (q.result s)) th (.win (slRes q.uop.rcd q.uop.base)) bs := by
      rw [hbs]
      exact stored_slWritten c q (q.result s) hg
    generalize (s.at_ q.due).slWritten c q th (q.result s) = w at hexec hthreads hunits hframe hnone hstored
    have hwait : (w.core c).slWait = [] := (congrArg (·.2.2.1) (congrFun hunits c)).trans hwait
    have hup := upkeep_slFree w c q.uop
    have hstored := hup.stored (by simp) hstored
    have hold : w.thread? = s.thread? := congrArg Tab.find hthreads
    rw [State.slFree_settles q.uop hnone hwait] at hexec
    refine ⟨_, hexec, ?now, ?idle, ⟨hstored.there, hstored.rest, hstored.bench⟩, ⟨th.unitEnded q.uop, ?thread, ?flights, ?pc, ?regs⟩, fun j hj => ?others, ?frame⟩
    case now => exact (hup.frame .now (by simp)).trans (hframe .now (by simp))
    case idle => rw [State.slFree_core]
    case thread => rw [State.slFree, State.thread?_freed, if_pos rfl, hold, hth, Option.map_some]
    case flights => rw [Thread.unitEnded_rest]
    case pc => rw [Thread.unitEnded_rest]
    case regs => rw [Thread.unitEnded_rest]
    case others => rw [State.slFree, State.thread?_freed, if_neg hj, hold]
    case frame => exact (((frame_atTime s q.due).mono (by simp)).trans (hframe.mono (by simp))).trans (hup.frame.mono (by simp))
  case next =>
    intro s c q th j hrun hcut hmore hth hj hend
    have hup := ((upkeep_atTime s q.due).mono (ls := [.compute, .now]) (by simp)).trans ((upkeep_slNext _ c q).mono (by simp))
    exact ⟨_, exec_slPassEnd_next hrun hcut hmore hth hj hend, rfl, ⟨_, State.slNext_slRun _ c q⟩, hup.bytesSame, hup.frame⟩
  case kept =>
    intro int dedup k l
    exact ⟨fun e he => (mem_rankedEls int l).mp ((selectK_sublist int dedup k l).subset he), selectK_length_le int dedup k l⟩
  case length =>
    intro int k l
    rw [selectK_sel, if_neg Bool.false_ne_true, List.length_take, rankedEls_length]
  case noRepeats =>
    intro int k l
    rw [selectK_sel, if_pos rfl]
    exact (firstCopies_nodup _).sublist ((List.take_sublist k _).map _)
  case descending =>
    intro dedup k l
    exact (rankedEls_descending l).sublist (selectK_sublist true dedup k l)
  case result =>
    intro int dedup k rnd l
    exact Selected.bytes_length int rnd (selectK_length_le int dedup k l)

end Sys2Proof.Machine

/-! # Operations that change their thread alone (06 R212 to R215) -/

namespace Sys2Proof

open Machine

section
variable {s t u : State} {n op : Nat} {l : List Machine.Range} {th x : Thread} {r : BitVec 256}

/-- An operation whose own rules find a fault has no effect past its record (06 R215). -/
theorem Issues.faults {ranges : Thread → BitVec 256 → List Machine.Range} {check : Thread → BitVec 256 → Option (FaultCode × Nat)} {f : FaultCode × Nat}
    (h : Issues s n op (ranges th r) th r) (hc : check th r = some f) (body : Thread → BitVec 256 → State → State) :
    s.issue n op ranges check body = s.fault n th.pc f.1 f.2 := by
  unfold State.issue
  simp only [h.here, h.unheld, h.free, hc, Bool.false_eq_true, if_false]

theorem BytesSame.trans (h : BytesSame s t) (k : BytesSame t u) : BytesSame s u := by
  obtain ⟨h1, h2, h3, h4, h5⟩ := h
  obtain ⟨k1, k2, k3, k4, k5⟩ := k
  exact ⟨k1.trans h1, k2.trans h2, k3.trans h3, k4.trans h4, fun c => (k5 c).trans (h5 c)⟩

theorem onlyThreads_passRecord (s : State) (n op : Nat) (th : Thread) : OnlyThreads s (s.passRecord n th op) := ⟨rfl, (upkeep_passRecord s n th op).frame⟩

theorem OnlyThreads.modThread (h : OnlyThreads s t) (n : Nat) (f : Thread → Thread) : OnlyThreads s (t.modThread n f) :=
  ⟨congrArg (fun c : Compute => { c with threads := Tab.change t.compute.threads n f }) h.1, h.2.trans (frame_modCompute t _)⟩

/-- An operation that changes its thread alone. -/
theorem Issues.threadOp (h : Issues s n op l th r) (f : Thread → Thread) :
    OnlyThreads s ((s.passRecord n th op).modThread n f) ∧ Ran s ((s.passRecord n th op).modThread n f) n th (f (passed th op)) :=
  ⟨(onlyThreads_passRecord s n op th).modThread n f, (ran_passRecord op h.holds.1).modThread f⟩

theorem computes_of_scalar {i : Nat → Instr} {op : Nat} {g f : W64 → W64 → W64} (hexec : ∀ n s, exec (i n) s = .next (s.scalar n op g)) (hgf : ∀ a b, g a b = f a b) :
    Computes i op f := by
  intro s n th r hi
  rw [← funext₂ hgf]
  exact ⟨_, (hexec n s).trans (congrArg Host.Outcome.next (hi.issue (ranges := noRanges) rfl _)), hi.threadOp _⟩

end

end Sys2Proof

namespace Sys2Proof.Machine

/-! ## Words as numbers. -/

section
variable (a b : W64) (k : Nat)

theorem sub_eq_ofInt : a - b = BitVec.ofInt 64 (a.toInt - b.toInt) := by
  apply BitVec.eq_of_toInt_eq
  rw [BitVec.toInt_sub, BitVec.toInt_ofInt]

theorem mul_eq_ofNat : a * b = BitVec.ofNat 64 (a.toNat * b.toNat) := by
  apply BitVec.eq_of_toNat_eq
  rw [BitVec.toNat_mul, BitVec.toNat_ofNat]

theorem shl_eq_ofNat : a <<< k = BitVec.ofNat 64 (a.toNat * 2 ^ k) := by
  apply BitVec.eq_of_toNat_eq
  rw [BitVec.toNat_shiftLeft, Nat.shiftLeft_eq, BitVec.toNat_ofNat]

theorem shr_eq_ofNat : a >>> k = BitVec.ofNat 64 (a.toNat / 2 ^ k) := by
  apply BitVec.eq_of_toNat_eq
  rw [BitVec.toNat_ushiftRight, Nat.shiftRight_eq_div_pow, BitVec.toNat_ofNat, Nat.mod_eq_of_lt (lt_of_le_of_lt (Nat.div_le_self _ _) a.isLt)]

theorem sar_eq_ofInt : a.sshiftRight k = BitVec.ofInt 64 (a.toInt / 2 ^ k) := by
  rw [BitVec.sshiftRight, Int.shiftRight_eq_div_pow, Nat.cast_pow, Nat.cast_ofNat]

theorem divu_eq_ofNat : (if b = 0#64 then BitVec.allOnes 64 else a / b) = if b.toNat = 0 then BitVec.allOnes 64 else BitVec.ofNat 64 (a.toNat / b.toNat) := by
  simp only [← BitVec.toNat_inj, BitVec.toNat_ofNat, Nat.zero_mod, BitVec.udiv_def]

theorem remu_eq_ofNat : (if b = 0#64 then a else a % b) = if b.toNat = 0 then a else BitVec.ofNat 64 (a.toNat % b.toNat) := by
  simp only [← BitVec.toNat_inj (x := b), BitVec.toNat_ofNat, Nat.zero_mod, BitVec.umod_def]

theorem smin_eq_ofInt : (if b.slt a then b else a) = BitVec.ofInt 64 (min a.toInt b.toInt) := by
  by_cases h : b.toInt < a.toInt
  · rw [min_eq_right h.le, BitVec.ofInt_toInt, if_pos (BitVec.slt_iff_toInt_lt.mpr h)]
  · rw [min_eq_left (not_lt.mp h), BitVec.ofInt_toInt, if_neg (fun k => h (BitVec.slt_iff_toInt_lt.mp k))]

theorem smax_eq_ofInt : (if a.slt b then b else a) = BitVec.ofInt 64 (max a.toInt b.toInt) := by
  by_cases h : a.toInt < b.toInt
  · rw [max_eq_right h.le, BitVec.ofInt_toInt, if_pos (BitVec.slt_iff_toInt_lt.mpr h)]
  · rw [max_eq_left (not_lt.mp h), BitVec.ofInt_toInt, if_neg (fun k => h (BitVec.slt_iff_toInt_lt.mp k))]

theorem slt_eq_ite : (if a.slt b then 1#64 else 0#64) = if a.toInt < b.toInt then 1#64 else 0#64 := by simp only [BitVec.slt_iff_toInt_lt]

/-- Of a number, n bytes take the low 8n bits. -/
theorem leBytes_mod (n x : Nat) : leBytes n (x % 2 ^ (8 * n)) = leBytes n x := by
  induction n generalizing x with
  | zero => rfl
  | succ n ih =>
    have hpow : 2 ^ (8 * (n + 1)) = 256 * 2 ^ (8 * n) := by rw [Nat.mul_succ, pow_add, mul_comm, show (2 : ℕ) ^ 8 = 256 from rfl]
    have hbyte : BitVec.ofNat 8 (x % 2 ^ (8 * (n + 1))) = BitVec.ofNat 8 x := by
      apply BitVec.eq_of_toNat_eq
      rw [BitVec.toNat_ofNat, BitVec.toNat_ofNat, hpow]
      exact Nat.mod_mul_right_mod x 256 _
    have hrest : x % 2 ^ (8 * (n + 1)) / 256 = x / 256 % 2 ^ (8 * n) := by rw [hpow, Nat.mod_mul_right_div_self]
    rw [leBytes, leBytes, hbyte, hrest, ih]

end

end Sys2Proof.Machine

/-! # Where device addresses lie, and what residency leaves (06 R187, R188; 07 R225, R234, R236, R241) -/

namespace Sys2Proof.Machine

/-! ## Device addresses name the same places. -/

/-- What the place of a device address rests on stands: the module and window of each job, the read-only lines of each window, the grants, the caches and this module's number. -/
structure Bearings (s t : State) : Prop where
  terms : ∀ j, (t.job? j).map (fun x => (x.modh, x.allot)) = (s.job? j).map (fun x => (x.modh, x.allot))
  mods : t.compute.mods = s.compute.mods
  marks : ∀ th, (t.gangOf? th).map t.winMarks = (s.gangOf? th).map s.winMarks
  grants : t.tiers.grants = s.tiers.grants
  serv : t.serv = s.serv
  power : t.power = s.power

section
variable {s t u : State} {ks : List Part} {th : Thread}

theorem Bearings.refl (s : State) : Bearings s s := ⟨fun _ => rfl, rfl, fun _ => rfl, rfl, rfl, rfl⟩

theorem Bearings.trans (h : Bearings s t) (k : Bearings t u) : Bearings s u :=
  ⟨fun j => (k.terms j).trans (h.terms j), k.mods.trans h.mods, fun th => (k.marks th).trans (h.marks th), k.grants.trans h.grants, k.serv.trans h.serv, k.power.trans h.power⟩

theorem Bearings.modh (h : Bearings s t) (j : Nat) : (t.job? j).map (·.modh) = (s.job? j).map (·.modh) := by
  simpa only [Option.map_map, Function.comp_def] using congrArg (Option.map Prod.fst) (h.terms j)

theorem Bearings.allot (h : Bearings s t) (j : Nat) : (t.job? j).map (·.allot) = (s.job? j).map (·.allot) := by
  simpa only [Option.map_map, Function.comp_def] using congrArg (Option.map Prod.snd) (h.terms j)

/-- Whether n bytes of a thread's window touch a line lent to it read-only. -/
def State.lentLine (s : State) (th : Thread) (o n : Nat) : Bool :=
  match s.gangOf? th with
  | some g => s.winLocked g o n
  | none => false

theorem State.lentLine_eq (s : State) (th : Thread) (o n : Nat) :
    s.lentLine th o n = (((s.gangOf? th).map s.winMarks).map (fun m => n ≠ 0 && m.any (fun l => o / 1024 ≤ l && l ≤ (o + n - 1) / 1024))).getD false := by
  unfold State.lentLine
  cases s.gangOf? th <;> rfl

theorem Bearings.lentLine (h : Bearings s t) : t.lentLine = s.lentLine := by
  funext th o n
  rw [State.lentLine_eq, State.lentLine_eq, h.marks]

theorem Bearings.validRange (h : Bearings s t) : t.validRange = s.validRange := by
  funext modh region off n write
  unfold State.validRange State.validRuns
  rw [h.grants, h.serv]

theorem State.exportPieces_congr (h : t.tiers.grants = s.tiers.grants) (off n k : Nat) : t.exportPieces off n k = s.exportPieces off n k := by
  induction k generalizing off n with
  | zero => rfl
  | succ k ih =>
    unfold State.exportPieces State.exportedAt
    simp only [h, ih]

theorem Bearings.exportRange (h : Bearings s t) : t.exportRange = s.exportRange := by
  funext off n
  unfold State.exportRange
  rw [State.exportPieces_congr h.grants, h.grants]

theorem Bearings.moduleNumber (h : Bearings s t) : t.moduleNumber = s.moduleNumber := congrArg (fun p : Machine.Power => p.cfg.moduleNumber) h.power

/-- Where a device address would lie, whoever names it (06 R187). -/
def addrPlace (a : Nat) : Option Place :=
  let off := a % 2 ^ 56
  let r := a / 2 ^ 56 % 256
  if r = 0 then some (.hbm off) else if r = 1 then some (.flash off) else if r = 2 then some (.win off)
  else if r = 3 then some (.pinned off) else if 0x40 ≤ r ∧ r ≤ 0xBF then some (.remote (r - 0x40) off)
  else if r = 0xFF then some (.priv off) else none

/-- The number of the module that a thread runs. -/
def State.modhOf (s : State) (th : Thread) : Nat := ((s.job? th.job).map (·.modh)).getD 0

/-- Whether a thread runs a module that may reach the privileged space. -/
def State.privileged (s : State) (th : Thread) : Bool := ((Tab.find s.compute.mods (s.modhOf th)).map (fun x => x.privileged && x.stonaxis)).getD false

/-- The spots of n bytes at the place of an address, or the fault of R188. -/
def State.spotsAt (s : State) (th : Thread) (a n : Nat) (k : Access) (p : Place) : Except FaultCode Spots :=
  match p with
  | .win o => if ((s.job? th.job).map (·.allot)).getD 0 < o + n ∨ (k.writes ∧ s.lentLine th o n) then .error .address else .ok [(p, n)]
  | .remote m o =>
    if m = s.moduleNumber then
      match s.exportRange o n with
      | none => .error .address
      | some l => if k.writes ∧ l.any (fun x => x.1.immutable) then .error .address else .ok (l.map (fun x => (x.1.placeAt x.2.1, x.2.2)))
    else .ok [(p, n)]
  | .priv _ => .ok [(p, n)]
  | _ => if s.validRange (s.modhOf th) (a / 2 ^ 56 % 256) (a % 2 ^ 56) n k.writes then .ok [(p, n)] else .error .address

theorem State.resolve_eq (s : State) (th : Thread) (a n : Nat) (k : Access) : s.resolve th a n k =
    (addrPlace a).elim (.error .address) (fun p => if !allowedIn k (s.privileged th) p then .error .regionForbidden else s.spotsAt th a n k p) := by
  have hplace := rfl (a := addrPlace a)
  conv_lhs at hplace => unfold addrPlace
  unfold State.resolve
  dsimp only at hplace ⊢
  rw [hplace]
  cases addrPlace a with
  | none => rfl
  | some p => cases p <;> rfl

theorem Bearings.spotsAt (h : Bearings s t) (th : Thread) (a n : Nat) (k : Access) (p : Place) : t.spotsAt th a n k p = s.spotsAt th a n k p := by
  unfold State.spotsAt State.modhOf
  simp only [h.modh, h.allot, h.validRange, h.exportRange, h.moduleNumber, h.lentLine]

theorem Bearings.privileged (h : Bearings s t) (th : Thread) : t.privileged th = s.privileged th := by
  unfold State.privileged State.modhOf
  simp only [h.modh, h.mods]

theorem Bearings.resolve (h : Bearings s t) : t.resolve = s.resolve := by
  funext th a n k
  simp only [State.resolve_eq, h.privileged, h.spotsAt]


theorem Upkeep.bearings (h : Upkeep ks s t) (hs : .serv ∉ ks) (hp : .power ∉ ks) (hmods : t.compute.mods = s.compute.mods)
    (hterms : ∀ j, (t.job? j).map (fun x => (x.modh, x.allot)) = (s.job? j).map (fun x => (x.modh, x.allot))) (hlines : ∀ b, (t.core b).readOnly = (s.core b).readOnly) :
    Bearings s t := by
  refine ⟨hterms, hmods, fun th => ?_, by rw [h.tiers], h.frame .serv hs, h.frame .power hp⟩
  rw [h.gangs]
  refine congrArg (fun f => (s.gangOf? th).map f) (funext fun g => ?_)
  unfold State.winMarks
  rw [hlines]

theorem bearings_passRecord (s : State) (n op : Nat) (th : Thread) : Bearings s (s.passRecord n th op) := by
  refine (upkeep_passRecord s n th op).bearings (by simp) (by simp) rfl (fun j => ?_) (fun _ => rfl)
  rw [State.job?, passRecord_jobs, Tab.find_change, State.job?]
  split
  · cases Tab.find s.compute.jobs j <;> rfl
  · rfl

/-! ## Residency (07 R234, R236, R241). -/

/-- What the tiers hold: the bytes of each memory, and the grants. -/
def Tiers.store (x : Tiers) : Mem × Mem × Mem × Mem × Tab Grant := (x.hbm, x.flash, x.pinned, x.priv, x.grants)

/-- Of the tiers, only what is resident where, and what is requested, has changed: every byte and every grant stands, and every other part of the state. -/
structure Resident (s t : State) : Prop where
  store : t.tiers.store = s.tiers.store
  frame : Frame [.tiers] s t

theorem Resident.refl (s : State) : Resident s s := ⟨rfl, .refl _ s⟩

theorem Resident.trans (h : Resident s t) (k : Resident t u) : Resident s u := ⟨k.store.trans h.store, h.frame.trans k.frame⟩

theorem Resident.hbm (h : Resident s t) : t.tiers.hbm = s.tiers.hbm := congrArg (fun x => x.1) h.store
theorem Resident.flash (h : Resident s t) : t.tiers.flash = s.tiers.flash := congrArg (fun x => x.2.1) h.store
theorem Resident.pinned (h : Resident s t) : t.tiers.pinned = s.tiers.pinned := congrArg (fun x => x.2.2.1) h.store
theorem Resident.priv (h : Resident s t) : t.tiers.priv = s.tiers.priv := congrArg (fun x => x.2.2.2.1) h.store
theorem Resident.grants (h : Resident s t) : t.tiers.grants = s.tiers.grants := congrArg (fun x => x.2.2.2.2) h.store

theorem Resident.compute (h : Resident s t) : t.compute = s.compute := h.frame .compute (by simp)

theorem Resident.bytesSame (h : Resident s t) : BytesSame s t :=
  ⟨h.hbm, h.flash, h.pinned, h.priv, fun c => by rw [State.core, h.compute, State.core]⟩

theorem Resident.placeRead (h : Resident s t) (th : Thread) (p : Place) (n : Nat) : t.placeRead th p n = s.placeRead th p n := by
  have hserv : t.serv = s.serv := h.frame .serv (by simp)
  have hcore : t.core = s.core := by
    funext c
    rw [State.core, h.compute, State.core]
  cases p with
  | win o =>
    simp only [State.placeRead, State.gangOf?_of_jobs (congrArg Compute.jobs h.compute), State.winRead, hcore]
  | flash o => simp only [State.placeRead, State.flashRead, h.flash, hserv]
  | hbm o => simp only [State.placeRead, h.hbm]
  | pinned o => simp only [State.placeRead, h.pinned]
  | priv o => simp only [State.placeRead, h.priv]
  | remote m o => rfl

theorem Resident.stored {p : Place} {bs : List Byte} (h : Resident t u) (k : Stored s t th p bs) : Stored s u th p bs where
  there := (h.placeRead th p _).trans k.there
  rest q hq := (h.placeRead th q 1).trans (k.rest q hq)
  bench c a ha := by
    rw [State.core, h.compute, ← State.core]
    exact k.bench c a ha

theorem frame_modTiers (s : State) (f : Tiers → Tiers) : Frame [.tiers] s (s.modTiers f) := by
  intro p hp
  cases p <;> simp [Part.same] at hp ⊢

theorem resident_modTiers (s : State) {f : Tiers → Tiers} (hf : (f s.tiers).store = s.tiers.store) : Resident s (s.modTiers f) := ⟨hf, frame_modTiers s f⟩

theorem resident_healBlocks (s : State) (a n : Nat) : Resident s (s.healBlocks a n) := resident_modTiers s rfl

theorem resident_allocLine (s : State) (cls : Cls) (q : QuarterNo) (line : Nat) (write ahead : Bool) : Resident s (s.allocLine cls q line write ahead) := by
  unfold State.allocLine
  split
  · split
    · exact .refl s
    · exact resident_modTiers s rfl
  · dsimp only
    split
    · exact resident_modTiers s rfl
    · split
      · exact .refl s
      · refine Resident.trans ?_ (resident_modTiers _ rfl)
        split
        · exact (resident_modTiers s rfl).trans (resident_healBlocks _ _ _)
        · exact resident_modTiers s rfl

theorem resident_useTile (s : State) (tile : Nat) : Resident s (s.useTile tile) := resident_modTiers s rfl

theorem resident_startFetches (s : State) (req : Nat) (tiles : List Nat) (ahead : Bool) : Resident s (s.startFetches req tiles ahead) := resident_modTiers s rfl

theorem resident_addReq (s : State) (r : TierReq) : Resident s (s.addReq r).2 := (resident_modTiers s rfl).trans (resident_startFetches _ _ _ _)

theorem resident_fetchAhead (s : State) (n : Nat) (th : Thread) (tiles : List Nat) : Resident s (s.fetchAhead n th tiles) := by
  unfold State.fetchAhead
  split
  · exact .refl s
  · exact resident_addReq s _

theorem resident_noteAccess (s : State) (n tile : Nat) : Resident s (s.noteAccess n tile) := by
  unfold State.noteAccess
  split
  · dsimp only
    split
    · exact .refl s
    · split
      · exact resident_modTiers s rfl
      · exact ((resident_modTiers s rfl).trans (resident_modTiers _ rfl)).trans (resident_fetchAhead _ _ _ _)
  · exact .refl s

theorem resident_scTouch (s : State) (n : Nat) (th : Thread) (a : Nat) (write : Bool) : Resident s (s.scTouch n th a write) := by
  unfold State.scTouch
  dsimp only
  split
  · split
    · exact (resident_allocLine s _ _ _ _ _).trans (resident_noteAccess _ _ _)
    · exact .refl s
  · split
    · exact (resident_useTile s _).trans (resident_noteAccess _ _ _)
    · exact .refl s

end

end Sys2Proof.Machine

/-! # Bytes written at a place (06 R182, R187; 07 R225) -/

namespace Sys2Proof.Machine

section
variable {s t u v : State} {ks : List Part} {th : Thread} {p : Place} {bs : List Byte} {n : Nat}

theorem State.healCache_store (s : State) (a n : Nat) : (s.healCache a n).tiers.store = s.tiers.store := by
  have hfold : ∀ (l : List Nat) (u : State), (l.foldl (fun s q => s.heal 1 q a n) u).tiers = u.tiers := fun l u => State.foldl_keeps State.tiers (fun s q => s.heal 1 q a n) (fun _ _ => rfl) l u
  unfold State.healCache
  split
  · rfl
  · exact (congrArg Tiers.store (hfold (List.range 4) s) :)

theorem frame_healCache (s : State) (a n : Nat) : Frame [.tiers, .integ] s (s.healCache a n) := by
  intro p hp
  cases p <;> simp [Part.same] at hp ⊢

/-- A write to HBM, to region 0x01 or to pinned cache, or to the privileged space, changes no part but the tiers and what fails of them. -/
theorem frame_placeWrite (s : State) (th : Thread) (p : Place) (bs : List Byte) : Frame [.compute, .tiers, .integ] s (s.placeWrite th p bs) := by
  have hmod : ∀ f, Frame [.compute, .tiers, .integ] s (s.modTiers f) := fun f => (frame_modTiers s f).mono (by simp)
  cases p with
  | win o => exact (frame_winWrite s _ _ o bs).mono (by simp)
  | hbm o => exact ((hmod _).trans ((frame_modTiers _ _).mono (by simp))).trans ((frame_healCache _ _ _).mono (by simp))
  | flash o => exact (hmod _).trans ((frame_modTiers _ _).mono (by simp))
  | pinned o => exact (hmod _).trans ((frame_healCache _ _ _).mono (by simp))
  | priv o => exact hmod _
  | remote m o => exact .refl _ s

/-- Outside a window a write leaves the compute state alone. -/
theorem State.placeWrite_compute (s : State) (th : Thread) (bs : List Byte) (hp : ∀ o, p ≠ .win o) : (s.placeWrite th p bs).compute = s.compute := by
  cases p with
  | win o => exact absurd rfl (hp o)
  | hbm o => exact s.hbmWrite_compute o bs
  | pinned o => exact s.pinnedWrite_compute o bs
  | _ => rfl

theorem State.placeWrite_threads (s : State) (th : Thread) (p : Place) (bs : List Byte) : (s.placeWrite th p bs).compute.threads = s.compute.threads := by
  by_cases hp : ∃ o, p = .win o
  · obtain ⟨o, rfl⟩ := hp
    exact s.winWrite_threads _ _ o bs
  · rw [State.placeWrite_compute s th bs (fun o h => hp ⟨o, h⟩)]

theorem State.hbmWrite_store (s : State) (o : Nat) (bs : List Byte) : (s.hbmWrite o bs).tiers.store = Tiers.store { s.tiers with hbm := Mem.write 0 s.tiers.hbm o bs } :=
  State.healCache_store _ _ _

theorem State.pinnedWrite_store (s : State) (o : Nat) (bs : List Byte) :
    (s.pinnedWrite o bs).tiers.store = Tiers.store { s.tiers with pinned := Mem.write 0 s.tiers.pinned o bs } :=
  State.healCache_store _ _ _

/-- Bytes of region 0x01 with none of a cache or a session among them are those last written. -/
theorem State.flashRead_clear {o : Nat} (h : ∀ i < n, s.serv.byte? (o + i) = none) : s.flashRead o n = Mem.read 0 s.tiers.flash o n := by
  unfold State.flashRead
  dsimp only
  split
  · rfl
  · refine List.ext_getElem (by simp) fun i hi _ => ?_
    have hi : i < n := by simpa [Mem.read] using hi
    rw [List.getElem_mapIdx, h i hi, Option.getD_none]

/-- Bytes stand at a place where they read back there and every other cell of the tiers is as before. -/
theorem stored_of_cells (hcompute : t.compute = s.compute) (hserv : t.serv = s.serv) (hthere : t.placeRead th p bs.length = bs)
    (hhbm : ∀ b, Clear p bs.length (.hbm b) → Mem.get 0 t.tiers.hbm b = Mem.get 0 s.tiers.hbm b)
    (hflash : ∀ b, Clear p bs.length (.flash b) → Mem.get 0 t.tiers.flash b = Mem.get 0 s.tiers.flash b)
    (hpinned : ∀ b, Clear p bs.length (.pinned b) → Mem.get 0 t.tiers.pinned b = Mem.get 0 s.tiers.pinned b)
    (hpriv : ∀ b, Clear p bs.length (.priv b) → Mem.get 0 t.tiers.priv b = Mem.get 0 s.tiers.priv b) : Stored s t th p bs := by
  have hcore : t.core = s.core := by
    funext c
    rw [State.core, hcompute, State.core]
  refine ⟨hthere, fun q hq => ?_, fun c a _ => by rw [hcore]⟩
  cases q with
  | win b => simp only [State.placeRead, State.gangOf?_of_jobs (congrArg Compute.jobs hcompute), State.winRead, hcore]
  | hbm b => simp only [State.placeRead, Mem.read_one, hhbm b hq]
  | flash b => simp only [State.placeRead, State.flashRead, hserv, Mem.read_one, hflash b hq]
  | pinned b => simp only [State.placeRead, Mem.read_one, hpinned b hq]
  | priv b => simp only [State.placeRead, Mem.read_one, hpriv b hq]
  | remote m b => rfl

/-- Bytes written at a place of this module stand there, and every other byte reads as before. -/
theorem stored_placeWrite (hp : ∀ m o, p ≠ .remote m o) (hg : ∃ g, s.gangOf? th = some g) (hc : ClearOfCaches s p bs.length) : Stored s (s.placeWrite th p bs) th p bs := by
  have hserv : (s.placeWrite th p bs).serv = s.serv := frame_placeWrite s th p bs .serv (by simp)
  cases p with
  | win o =>
    obtain ⟨g, hg⟩ := hg
    exact stored_winWrite o bs hg
  | hbm o =>
    have hstore := s.hbmWrite_store o bs
    have hhbm : (s.hbmWrite o bs).tiers.hbm = Mem.write 0 s.tiers.hbm o bs := congrArg (fun x => x.1) hstore
    refine stored_of_cells (s.hbmWrite_compute o bs) hserv ?_ (fun b hb => ?_) (fun b _ => ?_) (fun b _ => ?_) (fun b _ => ?_)
    · exact (congrArg (fun m => Mem.read 0 m o bs.length) hhbm).trans (Mem.read_write 0 _ o bs)
    · exact (congrArg (Mem.get 0 · b) hhbm).trans (Mem.get_write_out 0 _ o bs b hb)
    · exact congrArg (fun x => Mem.get 0 x.2.1 b) hstore
    · exact congrArg (fun x => Mem.get 0 x.2.2.1 b) hstore
    · exact congrArg (fun x => Mem.get 0 x.2.2.2.1 b) hstore
  | flash o =>
    have hclear : ∀ i < bs.length, (s.flashWrite o bs).serv.byte? (o + i) = none := hc o rfl
    refine stored_of_cells rfl rfl ?_ (fun b _ => rfl) (fun b hb => Mem.get_write_out 0 _ o bs b hb) (fun b _ => rfl) (fun b _ => rfl)
    exact (State.flashRead_clear hclear).trans (Mem.read_write 0 _ o bs)
  | pinned o =>
    have hstore := s.pinnedWrite_store o bs
    have hpinned : (s.pinnedWrite o bs).tiers.pinned = Mem.write 0 s.tiers.pinned o bs := congrArg (fun x => x.2.2.1) hstore
    refine stored_of_cells (s.pinnedWrite_compute o bs) hserv ?_ (fun b _ => ?_) (fun b _ => ?_) (fun b hb => ?_) (fun b _ => ?_)
    · exact (congrArg (fun m => Mem.read 0 m o bs.length) hpinned).trans (Mem.read_write 0 _ o bs)
    · exact congrArg (fun x => Mem.get 0 x.1 b) hstore
    · exact congrArg (fun x => Mem.get 0 x.2.1 b) hstore
    · exact (congrArg (Mem.get 0 · b) hpinned).trans (Mem.get_write_out 0 _ o bs b hb)
    · exact congrArg (fun x => Mem.get 0 x.2.2.2.1 b) hstore
  | priv o =>
    refine stored_of_cells rfl rfl (Mem.read_write 0 _ o bs) (fun b _ => rfl) (fun b _ => rfl) (fun b _ => rfl) (fun b hb => Mem.get_write_out 0 _ o bs b hb)
  | remote m o => exact absurd rfl (hp m o)

theorem State.spotsWrite_one (s : State) (th : Thread) (p : Place) (bs : List Byte) : s.spotsWrite th [(p, bs.length)] bs = s.placeWrite th p bs := by
  simp only [State.spotsWrite, List.take_length]

theorem State.spotsRead_one (s : State) (th : Thread) (p : Place) (n : Nat) : s.spotsRead th [(p, n)] = s.placeRead th p n := by
  simp only [State.spotsRead, List.flatMap_cons, List.flatMap_nil, List.append_nil]

theorem State.spotsBad_one (s : State) (th : Thread) (p : Place) (n : Nat) : s.spotsBad th [(p, n)] = s.placeBad th p n := by
  simp only [State.spotsBad, List.any_cons, List.any_nil, Bool.or_false]

/-- Bytes that stand since upkeep stand since before it. -/
theorem Upkeep.stored_since (h : Upkeep ks s v) (hs : .serv ∉ ks) (k : Stored v t th p bs) : Stored s t th p bs where
  there := k.there
  rest q hq := (k.rest q hq).trans (h.placeRead hs th q 1)
  bench c a ha := (k.bench c a (fun o g hp hg hc => ha o g hp (by rw [← h.gangs]; exact hg) hc)).trans (by rw [h.bench])

theorem Upkeep.placeBad (h : Upkeep ks s t) (hi : .integ ∉ ks) (th : Thread) (p : Place) (n : Nat) : t.placeBad th p n = s.placeBad th p n := by
  have hinteg : t.integ = s.integ := h.frame .integ hi
  unfold State.placeBad State.hbmFails State.flashFails State.cacheWordFails State.blockFails State.benchBad
  rw [h.gangs, h.tiers, hinteg]

end

end Sys2Proof.Machine

/-! # Scalar operations (06 R188, R190, R192, R213, R214) -/

namespace Sys2Proof.Machine

section
variable {s : State} {n op : Nat} {th : Thread} {r : BitVec 256} {p : Place} {l : Spots} {k : Access} {bs : List Byte}

/-- An aligned access of a thread whose bytes are all here takes its effect, and its line or tile is used. -/
theorem State.access_issues {body : Thread → BitVec 256 → Spots → State → State} (hi : Issues s n op (scRanges th r) th r) (hal : scAddr th r % scWidth r = 0)
    (hl : s.resolve th (scAddr th r) (scWidth r) k = .ok l) (ha : s.absentTiles (scAddr th r) (scWidth r) = []) :
    s.access n op k body = (body th r l (s.passRecord n th op)).scTouch n th (scAddr th r) k.writes := by
  have hcheck : s.scFault k th r = none := by
    unfold State.scFault
    rw [if_neg (not_not.mpr hal), hl]
  have hpage : s.pageIn n op = none := by
    unfold State.pageIn
    simp only [hi.here, ha]
  have hl' : (s.passRecord n th op).resolve th (scAddr th r) (scWidth r) k = .ok l := by rw [(bearings_passRecord s n op th).resolve, hl]
  unfold State.access
  simp only [hi.here, hi.unheld, hi.free, hcheck, hpage, Option.isNone_none, Bool.false_eq_true, not_false_eq_true, and_self, if_true, hi.issue hcheck, hl']

theorem State.mustDrain_false (hi : Issues s n op (scRanges th r) th r) (h : bitOf (fld r 114 2) 1 = true → th.flights = []) : s.mustDrain n op = false := by
  unfold State.mustDrain
  rw [hi.here, Option.map_some, Option.getD_some]
  cases hb : bitOf (fld r 114 2) 1 with
  | false => rfl
  | true => rw [h hb]; rfl

/-- Spots of another module's window are of a move's address in it. -/
theorem resolve_remote {a n m o : Nat} (h : s.resolve th a n k = .ok [(.remote m o, n)]) :
    addrPlace a = some (.remote m o) ∧ m ≠ s.moduleNumber ∧ (k = .moveSrc ∨ k = .moveDst) := by
  have hat : ∀ (g : Grant) (x : Nat), g.placeAt x ≠ .remote m o := fun g x => by
    unfold Grant.placeAt
    split_ifs <;> exact Place.noConfusion
  rw [State.resolve_eq] at h
  cases hp : addrPlace a with
  | none => simp [hp] at h
  | some p =>
    rw [hp, Option.elim_some] at h
    split at h
    · cases h
    · rename_i hk
      unfold State.spotsAt at h
      split at h
      · split at h <;> cases h
      · rename_i m' o'
        split at h
        · split at h
          · cases h
          · split at h
            · cases h
            · rename_i l _ _
              obtain ⟨x, -, hx⟩ := List.map_eq_singleton_iff.mp (Except.ok.inj h)
              exact absurd (congrArg Prod.fst hx) (hat _ _)
        · rename_i hm
          cases h
          exact ⟨rfl, hm, by simpa [allowedIn, or_iff_not_imp_left] using hk⟩
      · cases h
      · split at h
        · rename_i hne _ _
          cases h
          exact absurd rfl (hne m o)
        · cases h

/-- A scalar access lies at a place of this module. -/
theorem access_not_remote {a n : Nat} (hk : k ≠ .moveSrc ∧ k ≠ .moveDst) (h : s.resolve th a n k = .ok [(p, n)]) : ∀ m o, p ≠ .remote m o := by
  rintro m o rfl
  obtain ⟨-, -, hmove⟩ := resolve_remote h
  exact hmove.elim hk.1 hk.2

/-- What a scalar access writes stands at its place. -/
theorem stored_access (hi : Issues s n op (scRanges th r) th r) {a : Nat} (hl : s.resolve th a bs.length k = .ok [(p, bs.length)]) (hk : k ≠ .moveSrc ∧ k ≠ .moveDst)
    (hc : ClearOfCaches s p bs.length) : Stored s ((s.passRecord n th op).placeWrite th p bs) th p bs := by
  obtain ⟨-, -, hg⟩ := hi.holds
  have hpass := upkeep_passRecord s n th op
  have hgang : ∃ g, (s.passRecord n th op).gangOf? th = some g := by
    rw [hpass.gangs]
    exact hg
  exact hpass.stored_since (by simp) (stored_placeWrite (access_not_remote hk hl) hgang hc)

theorem State.thread?_scTouch (s : State) (n : Nat) (th : Thread) (a : Nat) (w : Bool) : (s.scTouch n th a w).thread? = s.thread? := by
  funext k
  rw [State.thread?, (resident_scTouch s n th a w).compute, ← State.thread?]

theorem State.thread?_placeWrite (s : State) (th : Thread) (p : Place) (bs : List Byte) : (s.placeWrite th p bs).thread? = s.thread? := by
  funext k
  rw [State.thread?, State.placeWrite_threads, ← State.thread?]

/-- The value a load brings from a place (06 R214). -/
def State.loaded (s : State) (th : Thread) (r : BitVec 256) (p : Place) : W64 :=
  if flag r 116 then BitVec.ofInt 64 (signedOf (8 * scWidth r) (leNat (s.placeRead th p (scWidth r)))) else BitVec.ofNat 64 (leNat (s.placeRead th p (scWidth r)))

theorem exec_scLd (hi : Issues s n 0x0810 (scRanges th r) th r) (hal : scAddr th r % scWidth r = 0) (hl : s.resolve th (scAddr th r) (scWidth r) .load = .ok [(p, scWidth r)])
    (ha : s.absentTiles (scAddr th r) (scWidth r) = []) (hb : s.placeBad th p (scWidth r) = false) :
    exec (.scLd n) s = .next (((s.passRecord n th 0x0810).modThread n (fun y => y.setReg (fld r 32 5) (s.loaded th r p))).scTouch n th (scAddr th r) false) := by
  have hpass := upkeep_passRecord s n th 0x0810
  refine congrArg Host.Outcome.next ((State.access_issues hi hal hl ha).trans ?_)
  simp only [State.spotsBad_one, State.spotsRead_one, hpass.placeBad (by simp), hpass.placeRead (by simp), hb, Bool.false_eq_true, if_false]
  rfl

theorem exec_scSt (hi : Issues s n 0x0811 (scRanges th r) th r) (hal : scAddr th r % scWidth r = 0) (hl : s.resolve th (scAddr th r) (scWidth r) .store = .ok [(p, scWidth r)])
    (ha : s.absentTiles (scAddr th r) (scWidth r) = []) (hd : bitOf (fld r 114 2) 1 = true → th.flights = []) :
    exec (.scSt n) s = .next (((s.passRecord n th 0x0811).placeWrite th p (leBytes (scWidth r) (th.reg (fld r 42 5)).toNat)).scTouch n th (scAddr th r) true) := by
  have hdrain := State.mustDrain_false hi hd
  have hone := (s.passRecord n th 0x0811).spotsWrite_one th p (leBytes (scWidth r) (th.reg (fld r 42 5)).toNat)
  rw [leBytes_length] at hone
  change execScSt n s = _
  unfold execScSt
  rw [hdrain, if_neg Bool.false_ne_true, State.access_issues hi hal hl ha, hone]
  rfl

/-- What an atomic operation leaves in memory: the value its AOP asks for, or nothing new. -/
def State.atomWrite (s : State) (th : Thread) (r : BitVec 256) (p : Place) (old : Nat) : State :=
  match atomValue (fld r 117 3) (8 * scWidth r) old (th.reg (fld r 42 5)).toNat (th.reg (fld r 32 5)).toNat with
  | some v => s.placeWrite th p (leBytes (scWidth r) v)
  | none => s

theorem State.atomWrite_rest (s : State) (th : Thread) (r : BitVec 256) (p : Place) (old : Nat) :
    (s.atomWrite th r p old).compute.threads = s.compute.threads ∧ Frame [.compute, .tiers, .integ] s (s.atomWrite th r p old) := by
  unfold State.atomWrite
  split
  · exact ⟨State.placeWrite_threads _ _ _ _, frame_placeWrite _ _ _ _⟩
  · exact ⟨rfl, .refl _ s⟩

theorem exec_scAtom (hi : Issues s n 0x0812 (scRanges th r) th r) (hal : scAddr th r % scWidth r = 0) (hl : s.resolve th (scAddr th r) (scWidth r) .atom = .ok [(p, scWidth r)])
    (ha : s.absentTiles (scAddr th r) (scWidth r) = []) (hd : bitOf (fld r 114 2) 1 = true → th.flights = []) (hb : s.placeBad th p (scWidth r) = false) :
    exec (.scAtom n) s = .next ((((s.passRecord n th 0x0812).atomWrite th r p (leNat (s.placeRead th p (scWidth r)))).modThread n
      (fun y => y.setReg (fld r 32 5) (BitVec.ofNat 64 (leNat (s.placeRead th p (scWidth r)))))).scTouch n th (scAddr th r) true) := by
  have hpass := upkeep_passRecord s n th 0x0812
  have hdrain := State.mustDrain_false hi hd
  have hone : ∀ v, (s.passRecord n th 0x0812).spotsWrite th [(p, scWidth r)] (leBytes (scWidth r) v) = (s.passRecord n th 0x0812).placeWrite th p (leBytes (scWidth r) v) := fun v => by
    have h := (s.passRecord n th 0x0812).spotsWrite_one th p (leBytes (scWidth r) v)
    rwa [leBytes_length] at h
  change execScAtom n s = _
  unfold execScAtom
  rw [hdrain, if_neg Bool.false_ne_true, State.access_issues hi hal hl ha]
  simp only [State.spotsBad_one, State.spotsRead_one, hpass.placeBad (by simp), hpass.placeRead (by simp), hb, Bool.false_eq_true, if_false, hone]
  rfl

end

/-- Settles O20: an arithmetic operation by what it changes of its thread alone, an access by the bytes that stand at its place and what residency leaves. -/
theorem scalarOperations : Obligations.ScalarOperations := by
  unfold Obligations.ScalarOperations
  refine ⟨⟨?add, ?sub, ?mul, ?divu, ?remu, ?and, ?or, ?xor, ?shl, ?shr, ?sar, ?min, ?max, ?slt, ?movi⟩, ?load, ?store, ?atom⟩
  case add => exact computes_of_scalar (fun _ _ => rfl) BitVec.add_def
  case sub => exact computes_of_scalar (fun _ _ => rfl) sub_eq_ofInt
  case mul => exact computes_of_scalar (fun _ _ => rfl) mul_eq_ofNat
  case divu => exact computes_of_scalar (fun _ _ => rfl) divu_eq_ofNat
  case remu => exact computes_of_scalar (fun _ _ => rfl) remu_eq_ofNat
  case and => exact computes_of_scalar (fun _ _ => rfl) (fun _ _ => rfl)
  case or => exact computes_of_scalar (fun _ _ => rfl) (fun _ _ => rfl)
  case xor => exact computes_of_scalar (fun _ _ => rfl) (fun _ _ => rfl)
  case shl => exact computes_of_scalar (fun _ _ => rfl) (fun a b => shl_eq_ofNat a _)
  case shr => exact computes_of_scalar (fun _ _ => rfl) (fun a b => shr_eq_ofNat a _)
  case sar => exact computes_of_scalar (fun _ _ => rfl) (fun a b => sar_eq_ofInt a _)
  case min => exact computes_of_scalar (fun _ _ => rfl) smin_eq_ofInt
  case max => exact computes_of_scalar (fun _ _ => rfl) smax_eq_ofInt
  case slt => exact computes_of_scalar (fun _ _ => rfl) slt_eq_ite
  case movi =>
    intro s n th r hi
    exact ⟨_, congrArg Host.Outcome.next (hi.issue (ranges := noRanges) rfl _), hi.threadOp _⟩
  case load =>
    intro s n th r p hi hal hl ha hb
    obtain ⟨⟨-, honly⟩, hran⟩ := hi.threadOp (fun y => y.setReg (fld r 32 5) (s.loaded th r p))
    have hup := (upkeep_passRecord s n th 0x0810).trans (upkeep_modThread n (f := fun y => y.setReg (fld r 32 5) (s.loaded th r p)) (fun _ => ⟨rfl, rfl⟩))
    have htouch := resident_scTouch ((s.passRecord n th 0x0810).modThread n (fun y => y.setReg (fld r 32 5) (s.loaded th r p))) n th (scAddr th r) false
    exact ⟨_, exec_scLd hi hal hl ha hb, hran.of_tables (by rw [htouch.compute]) (by rw [htouch.compute]), hup.bytesSame.trans htouch.bytesSame,
      (honly.mono (by simp)).trans (htouch.frame.mono (by simp))⟩
  case store =>
    intro s n th r p hi hal hl hc ha hd
    obtain ⟨hth, -, -⟩ := hi.holds
    have hran := ran_passRecord 0x0811 hth
    have hlen := leBytes_length (scWidth r) (th.reg (fld r 42 5)).toNat
    have hstored := stored_access (bs := leBytes (scWidth r) (th.reg (fld r 42 5)).toNat) hi (by rwa [hlen]) (by decide) (by rwa [hlen])
    have htouch := resident_scTouch ((s.passRecord n th 0x0811).placeWrite th p (leBytes (scWidth r) (th.reg (fld r 42 5)).toNat)) n th (scAddr th r) true
    have hpass := (upkeep_passRecord s n th 0x0811).frame.mono (ls := [.compute, .tiers, .integ]) (by simp)
    refine ⟨_, exec_scSt hi hal hl ha hd, htouch.stored hstored, ?_, fun k hk => ?_, (hpass.trans (frame_placeWrite _ _ _ _)).trans (htouch.frame.mono (by simp))⟩
    · rw [State.thread?_scTouch, State.thread?_placeWrite, hran.thread]
    · rw [State.thread?_scTouch, State.thread?_placeWrite, hran.threads k hk]
  case atom =>
    intro s n th r p old hi hal hl hc ha hd hb hold
    obtain ⟨hth, -, -⟩ := hi.holds
    have hran := ran_passRecord 0x0812 hth
    have hpass := upkeep_passRecord s n th 0x0812
    have hreg := fun u => upkeep_modThread (s := u) n (f := fun y => y.setReg (fld r 32 5) (BitVec.ofNat 64 old)) (fun _ => ⟨rfl, rfl⟩)
    have htouch := fun u => resident_scTouch (State.modThread u n (fun y => y.setReg (fld r 32 5) (BitVec.ofNat 64 old))) n th (scAddr th r) true
    obtain ⟨hthreads, hframe⟩ := (s.passRecord n th 0x0812).atomWrite_rest th r p old
    have hwrites : ∀ v, atomValue (fld r 117 3) (8 * scWidth r) old (th.reg (fld r 42 5)).toNat (th.reg (fld r 32 5)).toNat = some v →
        Stored s ((((s.passRecord n th 0x0812).atomWrite th r p old).modThread n (fun y => y.setReg (fld r 32 5) (BitVec.ofNat 64 old))).scTouch n th (scAddr th r) true) th p
          (leBytes (scWidth r) v) := fun v hv => by
      have hlen := leBytes_length (scWidth r) v
      rw [State.atomWrite, hv]
      exact (htouch _).stored ((hreg _).stored (by simp) (stored_access hi (by rwa [hlen]) (by decide) (by rwa [hlen])))
    refine ⟨_, hold ▸ exec_scAtom hi hal hl ha hd hb, ?_, fun k hk => ?_, fun h => ?_, fun h => ?_, fun h he => ?_, fun h he => ?_, fun h => ?_, fun h => ?_, ?_⟩
    · rw [State.thread?_scTouch, State.thread?_modThread, if_pos rfl, State.thread?, hthreads, ← State.thread?, hran.thread, Option.map_some]
    · rw [State.thread?_scTouch, State.thread?_modThread, if_neg hk, State.thread?, hthreads, ← State.thread?, hran.threads k hk]
    · rw [← leBytes_mod]
      exact hwrites _ (by rw [h]; rfl)
    · rw [← leBytes_mod]
      exact hwrites _ (by rw [h]; rfl)
    · rw [← leBytes_mod]
      exact hwrites _ (by rw [h, atomValue, if_pos he])
    · rw [State.atomWrite, h, atomValue, if_neg he]
      exact hpass.bytesSame.trans ((hreg _).bytesSame.trans (htouch _).bytesSame)
    · exact hwrites _ (by rw [h]; rfl)
    · exact hwrites _ (by rw [h]; rfl)
    · exact (hpass.frame.mono (by simp)).trans (hframe.trans (((hreg _).frame.mono (by simp)).trans ((htouch _).frame.mono (by simp))))

end Sys2Proof.Machine


/-! # Control flow, semaphores, barriers and unbinding (06 R183 to R186, R192, R195, R198, R199, R212) -/

namespace Sys2Proof.Machine

section
variable {s t u : State} {n op : Nat} {th : Thread} {r : BitVec 256}

/-! ## Control flow (06 R212). -/

theorem condHolds_iff (c : Nat) (a b : W64) (hc : c < 8) :
    (c = 0 → (condHolds c a b ↔ a.toNat = b.toNat)) ∧ (c = 1 → (condHolds c a b ↔ a.toNat ≠ b.toNat)) ∧
    (c = 2 → (condHolds c a b ↔ a.toInt < b.toInt)) ∧ (c = 3 → (condHolds c a b ↔ a.toInt ≤ b.toInt)) ∧
    (c = 4 → (condHolds c a b ↔ b.toInt < a.toInt)) ∧ (c = 5 → (condHolds c a b ↔ b.toInt ≤ a.toInt)) ∧
    (c = 6 → (condHolds c a b ↔ a.toNat < b.toNat)) ∧ (c = 7 → (condHolds c a b ↔ b.toNat ≤ a.toNat)) := by
  refine ⟨?_, ?_, ?_, ?_, ?_, ?_, ?_, ?_⟩ <;> rintro rfl <;>
    simp [condHolds, BitVec.slt_iff_toInt_lt, BitVec.sle_iff_toInt_le, BitVec.ult_iff_lt, BitVec.ule_iff_le, BitVec.lt_def, BitVec.le_def, ← BitVec.toNat_inj]

/-- A conditional branch goes to its record or to the next. -/
theorem ran_cfBrc {b : W64} (hi : Issues s n 0x0702 [] th r) (hb : b = (if flag r 77 then BitVec.ofNat 64 (fld r 78 64) else th.reg (fld r 69 5))) :
    ∃ t, exec (.cfBrc n) s = .next t ∧ OnlyThreads s t ∧
      Ran s t n th { passed th 0x0702 with pc := if condHolds (fld r 74 3) (th.reg (fld r 64 5)) b then target th.pc r else th.pc + 1 } := by
  subst hb
  obtain ⟨hth, -, -⟩ := hi.holds
  refine ⟨_, congrArg Host.Outcome.next (hi.issue (ranges := noRanges) (check := noCheck) rfl _), ?_⟩
  dsimp only
  cases condHolds (fld r 74 3) (th.reg (fld r 64 5)) (if flag r 77 then BitVec.ofNat 64 (fld r 78 64) else th.reg (fld r 69 5)) with
  | true => exact hi.threadOp (fun x => { x with pc := target th.pc r })
  | false => exact ⟨onlyThreads_passRecord s n 0x0702 th, ran_passRecord 0x0702 hth⟩

/-- A loop counts down, and goes to its record while the count is not zero. -/
theorem ran_cfLoop {v : W64} (hi : Issues s n 0x0703 [] th r) (hv : v = th.reg (fld r 64 5) - 1#64) :
    ∃ t, exec (.cfLoop n) s = .next t ∧ OnlyThreads s t ∧
      Ran s t n th { (passed th 0x0703).setReg (fld r 64 5) v with pc := if v ≠ 0#64 then target th.pc r else th.pc + 1 } := by
  subst hv
  obtain ⟨honly, hran⟩ := hi.threadOp (fun x => x.setReg (fld r 64 5) (th.reg (fld r 64 5) - 1#64))
  refine ⟨_, congrArg Host.Outcome.next (hi.issue (ranges := noRanges) (check := noCheck) rfl _), ?_⟩
  dsimp only
  by_cases hz : th.reg (fld r 64 5) - 1#64 = 0#64
  · rw [if_neg (not_not.mpr hz), if_neg (not_not.mpr hz)]
    exact ⟨honly, hran⟩
  · rw [if_pos hz, if_pos hz]
    exact ⟨honly.modThread n _, hran.modThread (fun x => { x with pc := target th.pc r })⟩

theorem exec_cfCall (hi : Issues s n 0x0704 [] th r) (hd : th.calls.length < 16) :
    exec (.cfCall n) s = .next (((s.passRecord n th 0x0704).modThread n (fun x => { x with calls := (th.pc + 1) :: x.calls })).goTo n (target th.pc r)) :=
  congrArg Host.Outcome.next (hi.issue (ranges := noRanges) (if_neg (by omega)) _)

theorem exec_cfRet (hi : Issues s n 0x0705 [] th r) {p : Nat} {ps : List Nat} (hc : th.calls = p :: ps) :
    exec (.cfRet n) s = .next (((s.passRecord n th 0x0705).modThread n (fun x => { x with calls := x.calls.drop 1 })).goTo n p) := by
  have hcheck : (if th.calls.isEmpty then some (FaultCode.callDepth, 0) else none) = none := by rw [hc]; rfl
  have hexec := hi.issue (ranges := noRanges) (check := fun th _ => if th.calls.isEmpty then some (FaultCode.callDepth, 0) else none) hcheck
    (fun th _ s => (s.modThread n (fun x => { x with calls := x.calls.drop 1 })).goTo n (th.calls.headD 0))
  rw [hc] at hexec
  exact congrArg Host.Outcome.next hexec

/-! ## Bindings let go (06 R184). -/

/-- A thread with the contexts of some handles let go. -/
def Thread.unbound (th : Thread) (hs : List Nat) : Thread := hs.foldl (fun th h => th.modHandle h (fun x => { x with ctx := none })) th

theorem Thread.unbound_rest (th : Thread) (hs : List Nat) : th.unbound hs = { th with handles := (th.unbound hs).handles } := by
  unfold Thread.unbound
  induction hs generalizing th with
  | nil => rfl
  | cons h hs ih => exact (ih _).trans rfl

theorem Thread.handle_unbound (th : Thread) (hs : List Nat) (h : Nat) : (th.unbound hs).handle h = if h ∈ hs then { th.handle h with ctx := none } else th.handle h := by
  unfold Thread.unbound
  induction hs generalizing th with
  | nil => rfl
  | cons k hs ih =>
    rw [List.foldl_cons, ih, Thread.handle_modHandle]
    by_cases hk : h = k
    · subst hk
      simp
    · simp [hk]

theorem State.unbind_eq (s : State) (n : Nat) (hs : List Nat) :
    s.unbind n hs = (s.modCompute (fun c => { c with ctxs := c.ctxs.filter (fun e => e.1 ∉ hs.filterMap (fun h => ((s.thread? n).map (fun th => (th.handle h).ctx)).getD none)) })).modThread n
      (fun th => th.unbound hs) := rfl

/-- Handles let go are bound to nothing, their contexts are gone, and the thread is as it was otherwise. -/
theorem ran_unbind {x : Thread} (hs : List Nat) (h : Ran s u n th x) : Ran s (u.unbind n hs) n th (x.unbound hs) :=
  (h.of_tables (t := u.modCompute (fun c => { c with ctxs := c.ctxs.filter _ })) rfl rfl).modThread _

theorem State.unbind_ctx {x : Thread} (hs : List Nat) (hx : s.thread? n = some x) {h k : Nat} (hh : h ∈ hs) (hk : (x.handle h).ctx = some k) :
    Tab.find (s.unbind n hs).compute.ctxs k = none := by
  have hmem : k ∈ hs.filterMap (fun h => ((s.thread? n).map (fun th => (th.handle h).ctx)).getD none) := List.mem_filterMap.mpr ⟨h, hh, by rw [hx]; exact hk⟩
  refine (Tab.find_filter s.compute.ctxs (fun k => k ∉ hs.filterMap (fun h => ((s.thread? n).map (fun th => (th.handle h).ctx)).getD none)) k).trans ?_
  simp only [hmem, not_true_eq_false, decide_false, Bool.false_eq_true, if_false]

theorem upkeep_unbind (s : State) (n : Nat) (hs : List Nat) : Upkeep [.compute] s (s.unbind n hs) := by
  rw [State.unbind_eq]
  have hctxs : Upkeep [.compute] s (s.modCompute (fun c => { c with ctxs := c.ctxs.filter (fun e => e.1 ∉ hs.filterMap (fun h => ((s.thread? n).map (fun th => (th.handle h).ctx)).getD none)) })) :=
    .of_tables rfl rfl (fun _ => rfl) rfl rfl (frame_modCompute s _)
  refine hctxs.trans (upkeep_modThread n (fun x => ?_))
  rw [x.unbound_rest]
  exact ⟨rfl, rfl⟩

/-! ## The end of a thread, and a trap (06 R183, R212, R215). -/

/-- A thread that ends lets its handles go. -/
def State.threadEnds (s : State) (n : Nat) : State := (s.unbind n (List.range 8)).modThread n (fun x => { x with st := .ended })

theorem exec_cfEnd (hi : Issues s n 0x0706 [] th r) (hh : th.held = []) (hf : th.flights = []) :
    exec (.cfEnd n) s = .next (if (((s.passRecord n th 0x0706).threadEnds n).compute.threads.filter (fun e => e.2.job = th.job)).all (fun e => e.2.st = .ended)
      then ((s.passRecord n th 0x0706).threadEnds n).endJob th.job .success else (s.passRecord n th 0x0706).threadEnds n) := by
  obtain ⟨hth, -, -⟩ := hi.holds
  have hfly : s.flying n = false := by
    rw [State.flying, hth, Option.map_some, Option.getD_some, hf]
    rfl
  have hcheck : (if th.held.isEmpty then none else some (FaultCode.endHeld, 0)) = none := by rw [hh]; rfl
  change execCfEnd n s = _
  unfold execCfEnd
  rw [hfly]
  exact congrArg Host.Outcome.next (hi.issue (ranges := noRanges) (check := fun th _ => if th.held.isEmpty then none else some (.endHeld, 0)) hcheck _)

theorem upkeep_threadEnds (s : State) (n : Nat) : Upkeep [.compute] s (s.threadEnds n) := by
  refine (upkeep_unbind s n _).trans (upkeep_modThread n ?_)
  exact fun _ => ⟨rfl, rfl⟩

/-- Once one thread has ended, those of its job that have not are those that had not. -/
theorem State.threadEnds_all (s : State) (n j : Nat) :
    ((s.threadEnds n).compute.threads.filter (fun e => e.2.job = j)).all (fun e => e.2.st = .ended) = true ↔
      ∀ e ∈ s.compute.threads, e.2.job = j → e.1 ≠ n → e.2.st = .ended := by
  have hthreads : (s.threadEnds n).compute.threads =
      s.compute.threads.map (fun e => if e.1 = n then (e.1, { e.2.unbound (List.range 8) with st := .ended }) else e) := by
    change Tab.change (Tab.change s.compute.threads n (fun th => th.unbound (List.range 8))) n (fun x => { x with st := .ended }) = _
    unfold Tab.change
    rw [List.map_map]
    refine List.map_congr_left fun e _ => ?_
    rw [Function.comp_apply]
    split <;> simp_all
  have hjob : ∀ x : Thread, (x.unbound (List.range 8)).job = x.job := fun x => by rw [x.unbound_rest]
  rw [hthreads]
  simp only [List.all_eq_true, List.mem_filter, List.mem_map, decide_eq_true_eq]
  constructor
  · intro h e he hj hn
    exact h e ⟨⟨e, he, if_neg hn⟩, hj⟩
  · rintro h _ ⟨⟨e, he, rfl⟩, hj⟩
    split at hj
    · rename_i hn
      rw [if_pos hn]
    · rename_i hn
      rw [if_neg hn]
      exact h e he hj hn

theorem exec_cfTrap (hi : Issues s n 0x0707 [] th r) : exec (.cfTrap n) s = .next (s.fault n th.pc .trap (fld r 32 16)) :=
  congrArg Host.Outcome.next (hi.faults (ranges := noRanges) (check := fun _ r => some (.trap, fld r 32 16)) rfl _)

/-- A job set to stop with a status. -/
def Job.stopping (x : Job) (st : Status) (tick : Nat) : Job := { x with ending := some (.status st), endTick := tick }

/-- A running job that stops: its waiting operations are dropped, and it closes unless started ones run. -/
theorem State.endJob_eq {j : Nat} {x : Job} (hx : s.job? j = some x) (hn : x.ending = none) (st : Status) :
    s.endJob j st = ((s.modJob j (fun y => y.stopping (s.byDeadline x st) s.tick)).dropQueued j).settle j := by
  have hover : s.overrides x (s.byDeadline x st) = true := by
    unfold State.overrides
    rw [hn]
  simp only [State.endJob, hx, hover, if_true]
  rfl

theorem State.job?_dropQueued (s : State) (j : Nat) : (s.dropQueued j).job? = s.job? := rfl

/-- A job that settles while its end is a status closes, or stands as it is. -/
theorem State.settle_status {j : Nat} {x : Job} {st : Status} (hx : s.job? j = some x) (he : x.ending = some (.status st)) : (s.settle j).job? j = none ∨ s.settle j = s := by
  unfold State.settle
  simp only [hx, he]
  split
  · exact .inr rfl
  · have hlife := s.closeJob_life j j x st
    rw [if_pos rfl, State.life, Option.map_eq_none_iff] at hlife
    exact .inl hlife

/-- A job that stops stands with no more than its end set, unless it closes. -/
theorem State.endJob_job {j : Nat} {x y : Job} {st : Status} (hx : s.job? j = some x) (hn : x.ending = none) (hy : (s.endJob j st).job? j = some y) :
    y = x.stopping (s.byDeadline x st) s.tick := by
  have hset := State.job?_modJob_self (fun y => y.stopping (s.byDeadline x st) s.tick) hx
  rw [← State.job?_dropQueued _ j] at hset
  rw [State.endJob_eq hx hn] at hy
  obtain hnone | hsame := State.settle_status hset rfl
  · rw [hnone] at hy
    cases hy
  · rw [hsame, hset] at hy
    exact (Option.some.inj hy).symm

/-- A fault of a thread is its job's first where the job had none (06 R215, R216). -/
theorem State.fault_reports {x y : Job} {pc : Nat} {code : FaultCode} {trap : Nat} (hth : s.thread? n = some th) (hx : s.job? th.job = some x) (hn : x.ending = none)
    (hy : (s.fault n pc code trap).job? th.job = some y) : y.fault.isSome = true ∧ (x.fault = none → y.fault = some (code.num, trap, th.index, pc)) := by
  simp only [State.fault, hth] at hy
  rw [State.endJob_job (State.job?_modJob_self _ hx) hn hy, Job.stopping]
  cases hf : x.fault with
  | none => simp [hn]
  | some f =>
    refine ⟨?_, by simp⟩
    dsimp only
    split <;> simp

/-! ## Semaphores (06 R194 to R198). -/

/-- A thread waits for a semaphore. -/
def State.queueSem (s : State) (n k : Nat) (w : SemWaiter) : State :=
  (s.modCompute (fun c => { c with sems := Tab.change c.sems k (fun x => { x with waiters := x.waiters ++ [w] }) })).modThread n (fun x => { x with st := .semWait k })

theorem State.semKey_eq (s : State) (th : Thread) (i : Nat) :
    s.semKey th i = ((((s.job? th.job).map (·.modh)).bind (Tab.find s.compute.mods)).map (·.semBase)).getD 0 + i := by
  unfold State.semKey
  cases s.job? th.job <;> rfl

theorem State.semKey_passRecord (s : State) (n op : Nat) (th : Thread) : (s.passRecord n th op).semKey = s.semKey := by
  funext x i
  rw [State.semKey_eq, State.semKey_eq, (bearings_passRecord s n op th).modh, (bearings_passRecord s n op th).mods]

theorem exec_sySemAcq {k : Nat} (hi : Issues s n 0x0603 [] th r) (hk : k = s.semKey th (fld r 32 12)) (hl : th.held.length < 4) (ho : ∀ h ∈ th.held, h.sem < k) :
    exec (.sySemAcq n) s = .next (((s.passRecord n th 0x0603).queueSem n k ⟨n, fld r 44 16, fld r 60 5, s.now / arrayUnits⟩).grantSems k
      (((s.passRecord n th 0x0603).queueSem n k ⟨n, fld r 44 16, fld r 60 5, s.now / arrayUnits⟩).semWaiters k)) := by
  have hpast : (s.passRecord n th 0x0603).semKey th (fld r 32 12) = k := by rw [State.semKey_passRecord, hk]
  have hcheck : (if 4 ≤ th.held.length || th.held.any (fun h => s.semKey th (fld r 32 12) ≤ h.sem) then some (FaultCode.semOrder, 0) else none) = none := by
    refine if_neg ?_
    rw [Bool.or_eq_true, decide_eq_true_iff, List.any_eq_true, ← hk]
    rintro (h | ⟨h, hm, hle⟩)
    · omega
    · have := ho h hm
      simp only [decide_eq_true_eq] at hle
      omega
  refine congrArg Host.Outcome.next ((hi.issue (ranges := noRanges) hcheck _).trans ?_)
  simp only [hpast]
  rfl

/-- The waiters of a semaphore that come first and can be granted are, one by one. -/
theorem State.grantSems_one {k : Nat} {x : Sem} {w : SemWaiter} (hx : Tab.find s.compute.sems k = some x) (hw : x.waiters = [w]) :
    s.grantSems k (s.semWaiters k) = if w.count ≤ x.count then s.grantOne k w else s := by
  have hsort : sortBy s.waiterBefore x.waiters = [w] := by rw [hw]; rfl
  have hlen : s.semWaiters k = 1 := by rw [State.semWaiters, hx, Option.map_some, Option.getD_some, hw]; rfl
  rw [hlen, State.grantSems]
  simp only [hx, hsort]
  rfl

theorem State.grantSems_blocked {k : Nat} {x : Sem} {w : SemWaiter} {ws : List SemWaiter} (m : Nat) (hx : Tab.find s.compute.sems k = some x)
    (hw : sortBy s.waiterBefore x.waiters = w :: ws) (hc : x.count < w.count) : s.grantSems k m = s := by
  cases m with
  | zero => rfl
  | succ m =>
    rw [State.grantSems]
    simp only [hx, hw, if_neg (Nat.not_le.mpr hc)]

/-- One grant: the count falls, the mark clears, and its waiter holds and goes on. -/
theorem State.grantOne_ok {k : Nat} {x : Sem} {w : SemWaiter} (hx : Tab.find s.compute.sems k = some x) (hw : x.waiters = [w]) :
    Tab.find (s.grantOne k w).compute.sems k = some { x with count := x.count - w.count, broken := false, waiters := [] } ∧
      (∀ j, j ≠ k → Tab.find (s.grantOne k w).compute.sems j = Tab.find s.compute.sems j) ∧
      ∃ l, s.grantOne k w = (s.modCompute (fun c => { c with sems := l })).modThread w.thread
        (fun th => { th.setReg w.brokenReg (if x.broken then 1#64 else 0#64) with st := .ready, held := th.held ++ [⟨k, w.count, 0⟩] }) := by
  have hsems : (s.grantOne k w).compute.sems = Tab.change s.compute.sems k
      (fun x => { x with count := x.count - w.count, broken := false, waiters := x.waiters.filter (fun y => y.thread ≠ w.thread) }) := rfl
  have hbroken : ((Tab.find s.compute.sems k).map (·.broken)).getD false = x.broken := by rw [hx, Option.map_some, Option.getD_some]
  have hnone : [w].filter (fun y => y.thread ≠ w.thread) = [] := by simp
  refine ⟨?_, fun j hj => ?_, (s.grantOne k w).compute.sems, ?_⟩
  · rw [hsems, Tab.find_change_self, hx, Option.map_some, hw, hnone]
  · rw [hsems, Tab.find_change_ne _ _ hj]
  · rw [hsems, State.grantOne, hbroken]
    rfl

/-- A thread that waits for a semaphore no other waits for. -/
theorem State.queueSem_ok {k : Nat} {x : Sem} (n : Nat) (w : SemWaiter) (hx : Tab.find s.compute.sems k = some x) (hw : x.waiters = []) :
    Tab.find (s.queueSem n k w).compute.sems k = some { x with waiters := [w] } ∧ (∀ j, j ≠ k → Tab.find (s.queueSem n k w).compute.sems j = Tab.find s.compute.sems j) := by
  have hsems : (s.queueSem n k w).compute.sems = Tab.change s.compute.sems k (fun x => { x with waiters := x.waiters ++ [w] }) := rfl
  refine ⟨?_, fun j hj => ?_⟩
  · rw [hsems, Tab.find_change_self, hx, Option.map_some, hw, List.nil_append]
  · rw [hsems, Tab.find_change_ne _ _ hj]

theorem ran_queueSem {x : Thread} (k : Nat) (w : SemWaiter) (h : Ran s u n th x) : Ran s (u.queueSem n k w) n th { x with st := .semWait k } :=
  (h.of_tables (t := u.modCompute (fun c => { c with sems := Tab.change c.sems k (fun x => { x with waiters := x.waiters ++ [w] }) })) rfl rfl).modThread _

theorem frame_queueSem (s : State) (n k : Nat) (w : SemWaiter) : Frame [.compute] s (s.queueSem n k w) := (frame_modCompute s _).trans (frame_modCompute _ _)

theorem exec_sySemRel {k : Nat} {x : Sem} (hi : Issues s n 0x0604 [] th r) (hf : th.flights = []) (hk : k = s.semKey th (fld r 32 12)) (hh : ∃ h ∈ th.held, h.sem = k)
    (hx : Tab.find s.compute.sems k = some x) (hc : x.count + fld r 44 16 ≤ x.maximum) :
    exec (.sySemRel n) s = .next (((s.passRecord n th 0x0604).modThread n (fun x => { x with held := releaseHold k (fld r 44 16) x.held })).modCompute
      (fun c => { c with sems := Tab.change c.sems k (fun x => { x with count := x.count + fld r 44 16 }) })) := by
  obtain ⟨hth, -, -⟩ := hi.holds
  subst hk
  have hfly : ((s.thread? n).map (fun th => !th.flights.isEmpty)).getD false = false := by
    rw [hth, Option.map_some, Option.getD_some, hf]
    rfl
  have hheld : th.held.all (fun h => h.sem ≠ s.semKey th (fld r 32 12)) = false := by
    obtain ⟨h, hm, he⟩ := hh
    exact List.all_eq_false.mpr ⟨h, hm, by simpa using he⟩
  change execSySemRel n s = _
  unfold execSySemRel
  rw [hfly, if_neg Bool.false_ne_true]
  refine congrArg Host.Outcome.next ((hi.issue (ranges := noRanges) ?_ _).trans ?_)
  · simp only [hheld, hx, Nat.not_lt.mpr hc, decide_false, Bool.or_self, Bool.false_eq_true, if_false]
  · simp only [State.semKey_passRecord]

/-! ## Fences, barriers and unbinding (06 R186, R192, R199). -/

theorem exec_syFence (hi : Issues s n 0x0601 [] th r) (hf : fld r 32 2 = 0 ∨ th.flights = []) : exec (.syFence n) s = .next (s.passRecord n th 0x0601) := by
  obtain ⟨hth, -, -⟩ := hi.holds
  have hgo : ¬ (((s.issuing n 0x0601).map (fun x => decide (fld x.2 32 2 ≠ 0))).getD false = true ∧ s.flying n = true) := by
    rw [hi.here, State.flying, hth]
    obtain h | h := hf <;> simp [h]
  exact (if_neg hgo).trans (congrArg Host.Outcome.next (hi.issue (ranges := noRanges) (check := noCheck) rfl _))

/-- A thread that arrives at a barrier holds no semaphore (06 R197). -/
theorem exec_syBarrier (hi : Issues s n 0x0605 [] th r) (hf : th.flights = []) :
    exec (.syBarrier n) s = .next ((s.passRecord n th 0x0605).modThread n (fun x => { x with st := .barrierWait (flag r 36) (fld r 32 4) })) := by
  obtain ⟨hth, -, -⟩ := hi.holds
  have hgo : ¬ (s.flying n = true ∧ ((s.thread? n).map (fun th => th.held.isEmpty)).getD false = true) := by
    rw [State.flying, hth]
    simp [hf]
  exact (if_neg hgo).trans (congrArg Host.Outcome.next (hi.issue (ranges := noRanges) (check := noCheck) rfl _))

/-- What a complete barrier does to a thread. -/
def Thread.leave (th : Thread) (j : Nat) (g : Option Nat) (b : Nat) : Thread :=
  if th.job = j ∧ th.st = .barrierWait g.isNone b ∧ (g.isNone ∨ g = some th.gang) then { th with st := .ready } else th

theorem exec_barrierComplete {j : Nat} {g : Option Nat} {b : Fin 16} (hne : s.participants j g ≠ []) (hall : ∀ e ∈ s.participants j g, e.2.st = .barrierWait g.isNone b.val) :
    exec (.barrierComplete j g b) s = .next (s.modCompute (fun c => { c with threads := Tab.changeAll c.threads (fun th => th.leave j g b.val) })) :=
  if_pos ⟨hne, List.all_eq_true.mpr (fun e he => decide_eq_true (hall e he))⟩

theorem exec_barrierComplete_waits {j : Nat} {g : Option Nat} {b : Fin 16} (h : ∃ e ∈ s.participants j g, e.2.st ≠ .barrierWait g.isNone b.val) :
    exec (.barrierComplete j g b) s = .next s := by
  obtain ⟨e, he, hst⟩ := h
  exact if_neg (fun hgo => hst (of_decide_eq_true (List.all_eq_true.mp hgo.2 e he)))

theorem exec_syUnbind (hi : Issues s n 0x0606 [] th r) (hr : th.ready (fld r 32 8) = true) (hw : ∀ h ∈ maskHandles (fld r 32 8), s.ctxWorking n h = false) :
    exec (.syUnbind n) s = .next ((s.passRecord n th 0x0606).unbind n (maskHandles (fld r 32 8))) := by
  have hidle : (maskHandles (fld r 32 8)).any (s.ctxWorking n) = false := by simpa using hw
  change execSyUnbind n s = _
  unfold execSyUnbind
  simp only [hi.here, hr, hidle, Bool.not_true, Bool.or_self, Bool.false_eq_true, if_false]
  exact congrArg Host.Outcome.next (hi.issue (ranges := noRanges) (check := noCheck) rfl _)

/-- An unbind waits while a handle it names counts operations. -/
theorem exec_syUnbind_waits (hi : s.issuing n 0x0606 = some (th, r)) (hr : th.ready (fld r 32 8) = false) : exec (.syUnbind n) s = .next s := by
  change execSyUnbind n s = _
  unfold execSyUnbind
  simp only [hi, hr, Bool.not_false, Bool.true_or, if_true]

/-- Settles O23: a handle that counts operations is not ready. -/
theorem unbindWaits : Obligations.UnbindWaits := by
  unfold Obligations.UnbindWaits
  intro s n th r h hi hlt hbit hcount
  refine exec_syUnbind_waits hi (List.all_eq_false.mpr ⟨h, ?_, by simpa using hcount⟩)
  exact List.mem_filter.mpr ⟨List.mem_range.mpr hlt, hbit⟩

/-! ## What each of them comes to. -/

/-- A thread whose bindings were let go, and what became of them. -/
theorem ran_unbind_passRecord (hth : s.thread? n = some th) (op : Nat) (hs : List Nat) :
    Ran s ((s.passRecord n th op).unbind n hs) n th ((passed th op).unbound hs) ∧ (passed th op).unbound hs = { passed th op with handles := ((passed th op).unbound hs).handles } ∧
      (∀ h ∈ hs, (((passed th op).unbound hs).handle h).ctx = none ∧ ∀ k, (th.handle h).ctx = some k → Tab.find ((s.passRecord n th op).unbind n hs).compute.ctxs k = none) ∧
      (∀ h, h ∉ hs → ((passed th op).unbound hs).handle h = th.handle h) ∧ Frame [.compute] s ((s.passRecord n th op).unbind n hs) := by
  have hran := ran_passRecord op hth
  refine ⟨ran_unbind hs hran, Thread.unbound_rest _ _, fun h hh => ⟨?_, fun k hk => State.unbind_ctx hs hran.thread hh hk⟩, fun h hh => ?_,
    ((upkeep_passRecord s n th op).trans (upkeep_unbind _ n hs)).frame⟩
  · rw [Thread.handle_unbound, if_pos hh]
  · rw [Thread.handle_unbound, if_neg hh]
    rfl

theorem ran_threadEnds (hi : Issues s n 0x0706 [] th r) (hh : th.held = []) (hf : th.flights = []) (hk : ∃ k x, k ≠ n ∧ s.thread? k = some x ∧ x.job = th.job ∧ x.st ≠ .ended) :
    ∃ t x, exec (.cfEnd n) s = .next t ∧ Ran s t n th x ∧ x = { passed th 0x0706 with st := .ended, handles := x.handles } ∧
      (∀ h < 8, (x.handle h).ctx = none ∧ ∀ k, (th.handle h).ctx = some k → Tab.find t.compute.ctxs k = none) ∧ Frame [.compute] s t := by
  obtain ⟨hth, -, -⟩ := hi.holds
  obtain ⟨k, y, hkn, hy, hyj, hye⟩ := hk
  have hran := ran_passRecord 0x0706 hth
  have hy' : (s.passRecord n th 0x0706).thread? k = some y := by rw [hran.threads k hkn, hy]
  have hnot : ¬ (((s.passRecord n th 0x0706).threadEnds n).compute.threads.filter (fun e => e.2.job = th.job)).all (fun e => e.2.st = .ended) = true := fun hall =>
    hye (((s.passRecord n th 0x0706).threadEnds_all n th.job).mp hall (k, y) (Tab.mem_of_find hy') hyj hkn)
  obtain ⟨hun, hrest, hbound, -, hframe⟩ := ran_unbind_passRecord hth 0x0706 (List.range 8)
  refine ⟨_, _, (exec_cfEnd hi hh hf).trans (congrArg Host.Outcome.next (if_neg hnot)), hun.modThread (fun x => { x with st := .ended }), ?_, fun h hlt => hbound h (List.mem_range.mpr hlt),
    hframe.trans (frame_modCompute _ _)⟩
  exact congrArg (fun x : Thread => { x with st := .ended }) hrest

theorem stops_threadEnds (hi : Issues s n 0x0706 [] th r) (hh : th.held = []) (hf : th.flights = []) (hall : ∀ e ∈ s.compute.threads, e.2.job = th.job → e.1 ≠ n → e.2.st = .ended) :
    ∃ t, exec (.cfEnd n) s = .next t ∧ Stops t th.job .success := by
  have hall' : (((s.passRecord n th 0x0706).threadEnds n).compute.threads.filter (fun e => e.2.job = th.job)).all (fun e => e.2.st = .ended) = true := by
    refine ((s.passRecord n th 0x0706).threadEnds_all n th.job).mpr fun e he hj hn => ?_
    rw [passRecord_threads, Tab.change, List.mem_map] at he
    obtain ⟨e', he', rfl⟩ := he
    split at hn
    · rename_i hk
      exact absurd hk hn
    · rename_i hk
      rw [if_neg hk] at hj ⊢
      exact hall e' he' hj hn
  obtain ⟨x, hx, hn⟩ := hi.job
  have hup : Standing s ((s.passRecord n th 0x0706).threadEnds n) := ((upkeep_passRecord s n th 0x0706).trans (upkeep_threadEnds _ n)).toStanding
  have hlife : ((s.passRecord n th 0x0706).threadEnds n).life th.job = some (none, x.restarts) := by rw [hup.life, State.life, hx, Option.map_some, hn]
  obtain ⟨z, hz, hzl⟩ := Option.map_eq_some_iff.mp hlife
  exact ⟨_, (exec_cfEnd hi hh hf).trans (congrArg Host.Outcome.next (if_pos hall')), State.endJob_stops hz (congrArg Prod.fst hzl) .success⟩

/-- A trap ends its job with its code and its thread's place (06 R215). -/
theorem stops_cfTrap (hi : Issues s n 0x0707 [] th r) : ∃ t, exec (.cfTrap n) s = .next t ∧ Stops t th.job .moduleInvalid ∧
    (∀ x, t.job? th.job = some x → x.fault.isSome = true ∧ ((s.job? th.job).bind (·.fault) = none → x.fault = some (0xA, fld r 32 16, th.index, th.pc))) := by
  obtain ⟨hth, -, -⟩ := hi.holds
  obtain ⟨x, hx, hn⟩ := hi.job
  refine ⟨_, exec_cfTrap hi, State.fault_stops hth hx hn _ _ _, fun y hy => ?_⟩
  rw [hx]
  exact State.fault_reports hth hx hn hy

/-- An acquire of a semaphore no other thread waits for takes it or waits (06 R195). -/
theorem sySemAcq_queued {k : Nat} {x : Sem} (hi : Issues s n 0x0603 [] th r) (hk : k = s.semKey th (fld r 32 12)) (hl : th.held.length < 4) (ho : ∀ h ∈ th.held, h.sem < k)
    (hx : Tab.find s.compute.sems k = some x) (hw : x.waiters = []) : ∃ u w, w.thread = n ∧ w.count = fld r 44 16 ∧ w.brokenReg = fld r 60 5 ∧
      exec (.sySemAcq n) s = .next (if w.count ≤ x.count then u.grantOne k w else u) ∧ Tab.find u.compute.sems k = some { x with waiters := [w] } ∧
      (∀ j, j ≠ k → Tab.find u.compute.sems j = Tab.find s.compute.sems j) ∧ Ran s u n th { passed th 0x0603 with st := .semWait k } ∧ Frame [.compute] s u := by
  obtain ⟨hth, -, -⟩ := hi.holds
  have hx' : Tab.find (s.passRecord n th 0x0603).compute.sems k = some x := hx
  obtain ⟨hself, hothers⟩ := State.queueSem_ok n ⟨n, fld r 44 16, fld r 60 5, s.now / arrayUnits⟩ hx' hw
  refine ⟨_, ⟨n, fld r 44 16, fld r 60 5, s.now / arrayUnits⟩, rfl, rfl, rfl, ?_, hself, hothers, ran_queueSem k _ (ran_passRecord 0x0603 hth),
    (upkeep_passRecord s n th 0x0603).frame.trans (frame_queueSem _ n k _)⟩
  exact (exec_sySemAcq hi hk hl ho).trans (congrArg Host.Outcome.next (State.grantSems_one (x := { x with waiters := [_] }) hself rfl))

theorem sySemAcq_takes {k : Nat} {x : Sem} (hi : Issues s n 0x0603 [] th r) (hk : k = s.semKey th (fld r 32 12)) (hl : th.held.length < 4) (ho : ∀ h ∈ th.held, h.sem < k)
    (hx : Tab.find s.compute.sems k = some x) (hw : x.waiters = []) (hc : fld r 44 16 ≤ x.count) :
    ∃ t, exec (.sySemAcq n) s = .next t ∧ Tab.find t.compute.sems k = some { x with count := x.count - fld r 44 16, broken := false } ∧
      (∀ j, j ≠ k → Tab.find t.compute.sems j = Tab.find s.compute.sems j) ∧
      Ran s t n th { (passed th 0x0603).setReg (fld r 60 5) (if x.broken then 1#64 else 0#64) with st := .ready, held := th.held ++ [⟨k, fld r 44 16, 0⟩] } ∧ Frame [.compute] s t := by
  obtain ⟨u, w, hwn, hwc, hwr, hexec, hself, hothers, hran, hframe⟩ := sySemAcq_queued hi hk hl ho hx hw
  obtain ⟨hgself, hgothers, l, hgrant⟩ := State.grantOne_ok hself rfl
  rw [if_pos (hwc ▸ hc)] at hexec
  refine ⟨_, hexec, ?_, fun j hj => (hgothers j hj).trans (hothers j hj), ?_, ?_⟩
  · rw [hgself, hwc, ← hw]
  · rw [hgrant, hwn, hwc, hwr]
    exact (hran.of_tables (t := u.modCompute (fun c => { c with sems := l })) rfl rfl).modThread
      (fun th => { th.setReg (fld r 60 5) (if x.broken then 1#64 else 0#64) with st := .ready, held := th.held ++ [⟨k, fld r 44 16, 0⟩] })
  · rw [hgrant]
    exact hframe.trans ((frame_modCompute _ _).trans (frame_modCompute _ _))

theorem semaphoreGrant_one {k : Nat} {x : Sem} {w : SemWaiter} (hx : Tab.find s.compute.sems k = some x) (hw : x.waiters = [w]) (hc : w.count ≤ x.count) (hth : s.thread? w.thread = some th) :
    ∃ t, exec (.semaphoreGrant k) s = .next t ∧ Tab.find t.compute.sems k = some { x with count := x.count - w.count, broken := false, waiters := [] } ∧
      t.thread? w.thread = some { th.setReg w.brokenReg (if x.broken then 1#64 else 0#64) with st := .ready, held := th.held ++ [⟨k, w.count, 0⟩] } ∧
      (∀ j, j ≠ w.thread → t.thread? j = s.thread? j) ∧ (∀ j, j ≠ k → Tab.find t.compute.sems j = Tab.find s.compute.sems j) ∧ Frame [.compute] s t := by
  obtain ⟨hself, hothers, l, hgrant⟩ := State.grantOne_ok hx hw
  have hthread : ∀ j, (s.modCompute (fun c => { c with sems := l })).thread? j = s.thread? j := fun _ => rfl
  refine ⟨s.grantOne k w, congrArg Host.Outcome.next ((State.grantSems_one hx hw).trans (if_pos hc)), hself, ?_, fun j hj => ?_, hothers, ?_⟩
  · rw [hgrant, State.thread?_modThread, if_pos rfl, hthread, hth, Option.map_some]
  · rw [hgrant, State.thread?_modThread, if_neg hj, hthread]
  · rw [hgrant]
    exact (frame_modCompute _ _).trans (frame_modCompute _ _)

theorem sySemRel_ok {k : Nat} {x : Sem} (hi : Issues s n 0x0604 [] th r) (hf : th.flights = []) (hk : k = s.semKey th (fld r 32 12)) (hh : ∃ h ∈ th.held, h.sem = k)
    (hx : Tab.find s.compute.sems k = some x) (hc : x.count + fld r 44 16 ≤ x.maximum) :
    ∃ t y, exec (.sySemRel n) s = .next t ∧ Tab.find t.compute.sems k = some { x with count := x.count + fld r 44 16 } ∧
      (∀ j, j ≠ k → Tab.find t.compute.sems j = Tab.find s.compute.sems j) ∧ Ran s t n th y ∧ y = { passed th 0x0604 with held := y.held } ∧
      y.held = releaseHold k (fld r 44 16) th.held ∧ Frame [.compute] s t := by
  obtain ⟨honly, hran⟩ := hi.threadOp (fun x => { x with held := releaseHold k (fld r 44 16) x.held })
  refine ⟨_, _, exec_sySemRel hi hf hk hh hx hc, ?_, fun j hj => Tab.find_change_ne s.compute.sems (fun x => { x with count := x.count + fld r 44 16 }) hj, hran.of_tables rfl rfl, rfl, rfl,
    honly.2.trans (frame_modCompute _ _)⟩
  refine (Tab.find_change_self s.compute.sems k (fun x => { x with count := x.count + fld r 44 16 })).trans ?_
  rw [hx, Option.map_some]

theorem barrierComplete_ok {j : Nat} {g : Option Nat} {b : Fin 16} (hne : s.participants j g ≠ []) (hall : ∀ e ∈ s.participants j g, e.2.st = .barrierWait g.isNone b.val) :
    ∃ t, exec (.barrierComplete j g b) s = .next t ∧ (∀ n th, s.thread? n = some th → th.job = j → (g = none ∨ g = some th.gang) → th.st = .barrierWait g.isNone b.val →
        t.thread? n = some { th with st := .ready }) ∧
      (∀ n th, s.thread? n = some th → (th.job ≠ j ∨ th.st ≠ .barrierWait g.isNone b.val ∨ (g ≠ none ∧ g ≠ some th.gang)) → t.thread? n = some th) ∧
      t.compute = { s.compute with threads := t.compute.threads } ∧ Frame [.compute] s t := by
  have hthread : ∀ n th, s.thread? n = some th → Tab.find (Tab.changeAll s.compute.threads (fun th => th.leave j g b.val)) n = some (th.leave j g b.val) := fun n th hth => by
    rw [Tab.find_changeAll, ← State.thread?, hth, Option.map_some]
  refine ⟨_, exec_barrierComplete hne hall, fun n th hth hj hg hst => (hthread n th hth).trans ?_, fun n th hth hnot => (hthread n th hth).trans ?_, rfl, frame_modCompute s _⟩
  · exact congrArg some (if_pos ⟨hj, hst, hg.imp_left (fun h => by rw [h]; rfl)⟩)
  · refine congrArg some (if_neg ?_)
    rintro ⟨hj, hst, hg⟩
    obtain hn | hn | ⟨hn, hm⟩ := hnot
    · exact hn hj
    · exact hn hst
    · exact hg.elim (fun h => hn (Option.isNone_iff_eq_none.mp h)) hm

/-- Settles O21: each operation by what its issue comes to. -/
theorem controlAndSynchronisation : Obligations.ControlAndSynchronisation := by
  unfold Obligations.ControlAndSynchronisation
  refine ⟨?_, ?_, ?_, ?_, ?_, ?_, ?_, ?_, ?_, ?_, ?_, ?_, ?_, ?_, ?_, ?_, ?_, ?_, ?_⟩
  · intro s n th r hi
    exact ⟨_, congrArg Host.Outcome.next (hi.issue (ranges := noRanges) (check := noCheck) rfl _), hi.threadOp (fun x => { x with pc := target th.pc r })⟩
  · rintro s n th r a b hi rfl hb
    obtain ⟨t, hexec, honly, hran⟩ := ran_cfBrc hi hb
    refine ⟨t, _, hexec, honly, hran, rfl, ?_⟩
    have hcond := condHolds_iff (fld r 74 3) (th.reg (fld r 64 5)) b (Nat.mod_lt _ (by decide))
    obtain ⟨h0, h1, h2, h3, h4, h5, h6, h7⟩ := hcond
    exact ⟨fun h => if_congr (h0 h) rfl rfl, fun h => if_congr (h1 h) rfl rfl, fun h => if_congr (h2 h) rfl rfl, fun h => if_congr (h3 h) rfl rfl,
      fun h => if_congr (h4 h) rfl rfl, fun h => if_congr (h5 h) rfl rfl, fun h => if_congr (h6 h) rfl rfl, fun h => if_congr (h7 h) rfl rfl⟩
  · intro s n th r v hi hv
    exact ran_cfLoop hi hv
  · intro s n th r hi hd
    obtain ⟨honly, hran⟩ := hi.threadOp (fun x => { x with calls := (th.pc + 1) :: x.calls })
    exact ⟨_, exec_cfCall hi hd, honly.modThread n _, hran.modThread (fun x => { x with pc := target th.pc r })⟩
  · intro s n th r p ps hi hc
    obtain ⟨honly, hran⟩ := hi.threadOp (fun x => { x with calls := x.calls.drop 1 })
    have hps : ({ passed th 0x0705 with calls := ps, pc := p } : Thread) = { passed th 0x0705 with calls := (passed th 0x0705).calls.drop 1, pc := p } := by
      change _ = { passed th 0x0705 with calls := th.calls.drop 1, pc := p }
      rw [hc]
      rfl
    rw [hps]
    exact ⟨_, exec_cfRet hi hc, honly.modThread n _, hran.modThread (fun x => { x with pc := p })⟩
  · intro s n th r hi hh hf hk
    exact ran_threadEnds hi hh hf hk
  · intro s n th r hi hh hf hall
    exact stops_threadEnds hi hh hf hall
  · intro s n th r hi
    exact stops_cfTrap hi
  · intro s n th r hi hf
    exact ⟨_, exec_syFence hi hf, onlyThreads_passRecord s n 0x0601 th, ran_passRecord 0x0601 hi.holds.1⟩
  · intro s n th r hi
    exact ⟨_, congrArg Host.Outcome.next (hi.issue (ranges := noRanges) (check := noCheck) rfl _), onlyThreads_passRecord s n 0x0602 th, ran_passRecord 0x0602 hi.holds.1⟩
  · intro s n th r k x hi hk hl ho hx hw hc
    exact sySemAcq_takes hi hk hl ho hx hw hc
  · intro s n th r k x hi hk hl ho hx hw hc
    obtain ⟨u, w, hwn, hwc, hwr, hexec, hself, hothers, hran, hframe⟩ := sySemAcq_queued hi hk hl ho hx hw
    rw [if_neg (by omega)] at hexec
    exact ⟨u, w, hexec, hself, hwn, hwc, hwr, hothers, hran, hframe⟩
  · intro s n th r k x hi hf hk hh hx hc
    exact sySemRel_ok hi hf hk hh hx hc
  · intro s k x w th hx hw hc hth
    exact semaphoreGrant_one hx hw hc hth
  · intro s k x w ws hx hw hc
    exact congrArg Host.Outcome.next (State.grantSems_blocked (s.semWaiters k) hx hw hc)
  · intro s n th r hi hf
    exact ⟨_, exec_syBarrier hi hf, hi.threadOp (fun x => { x with st := .barrierWait (flag r 36) (fld r 32 4) })⟩
  · intro s j g b hne hall
    exact barrierComplete_ok hne hall
  · intro s j g b h
    exact exec_barrierComplete_waits h
  · intro s n th r hi hr hw
    obtain ⟨hran, hrest, hbound, hothers, hframe⟩ := ran_unbind_passRecord hi.holds.1 0x0606 (maskHandles (fld r 32 8))
    exact ⟨_, _, exec_syUnbind hi hr hw, hran, hrest, hbound, hothers, hframe⟩

end

end Sys2Proof.Machine

/-! # Grants and the words of the chip cache (13 R446 to R448) -/

namespace Sys2Proof.Machine

/-- A grant of module 1 that holds one move tile of region 0x00, at a class's first pseudo-channel. -/
def grantOfOneTile : Grant := ⟨1, 0, 65536, 65536, false, none, 0, 0, .interactive, false, [], 1, none⟩

/-- GRANT_FREE of the grant at 65,536 of module 1, in progress as number 0. -/
def grantFreeCmd : Cmd := ⟨0, .a, 1, 0, blockOf 64 [(0, 2, 0x0605), (3, 1, 1), (8, 8, 1), (0x10, 8, 65536)], 0, none, 0, 0, 0, [], 0, [], false⟩

/-- The reset state with that module, its grant and the command, and a failing word of the chip cache under the grant's first line. -/
def cacheWordUnderGrant : State := { State.reset with
  compute := { State.reset.compute with mods := [(1, default)] }
  tiers := { State.reset.tiers with grants := [(0, grantOfOneTile)] }
  integ := { State.reset.integ with badWords := [(1, 0, 65536)] }
  host := { State.reset.host with cmds := [(0, grantFreeCmd)] } }

theorem runs_grantFreeCmd : Runs cacheWordUnderGrant 0 0x0605 grantFreeCmd := by
  unfold Runs
  decide

/-- The words of a grant that is freed have been written whole (07 R240; 14 R463), so the failing word is marked no longer. -/
theorem exec_grantFree_heals : ∃ t, exec (.grantFree 0) cacheWordUnderGrant = .next t ∧ t.integ.badWords = [] := ⟨_, rfl, by decide⟩

/-- Refutes O50: GRANT_FREE of a grant over a failing word of the chip cache clears the word's mark, which is kept in the integrity state, and the frame of the clause has
that state unchanged. -/
theorem not_modulesGrantsJobs : ¬ Obligations.ModulesGrantsJobs := by
  unfold Obligations.ModulesGrantsJobs
  rintro ⟨-, -, -, -, -, -, -, -, hfree, -⟩
  obtain ⟨t, hexec, -, -, -, hdone⟩ := hfree cacheWordUnderGrant 0 0 grantFreeCmd grantOfOneTile default runs_grantFreeCmd rfl rfl (by decide) rfl
  obtain ⟨u, hu, hheals⟩ := exec_grantFree_heals
  have htu : t = u := Host.Outcome.next.inj (hexec.symm.trans hu)
  have hinteg : t.integ = cacheWordUnderGrant.integ := hdone.frame .integ (by simp)
  rw [htu] at hinteg
  rw [hinteg] at hheals
  cases hheals

end Sys2Proof.Machine

/-! # Pre-emption and the credits of streams (08 R266, R270; 11 R350) -/

namespace Sys2Proof.Machine

/-- RUN, in progress as number 0 on ring 1. -/
def runCmd : Cmd := ⟨0, .a, 1, 0, blockOf 64 [(0, 2, 0x0603), (3, 1, 1)], 0, none, 0, 0, 0, [], 1, [], false⟩

/-- A gang on core 0 that issues. -/
def issuingGang : Gang := ⟨0, 0, false, 0, none, [], []⟩

/-- The admitted job of that RUN, with one gang. -/
def admittedJob : Job := { (default : Job) with cmd := 0, n := 1, g := 1, allot := 65536, admitted := true, gangs := [(0, issuingGang)] }

/-- A stream that sends for tier request 0 and holds two credits of transport port 0 that it has not used. -/
def streamWithCredits : TStream := { (default : TStream) with peer := 1, sending := true, req := some 0, drawn := 2, pool := some (0, 0) }

/-- The reset state with that job under a halt of everything, and that stream for a request of the job's one thread. -/
def haltedSender : State := { State.reset with
  compute := { State.reset.compute with jobs := [(0, admittedJob)], threads := [(0, default)] }
  tiers := { State.reset.tiers with reqs := [(0, { (default : TierReq) with thread := 0, job := 0 })] }
  span := { State.reset.span with streams := [(0, streamWithCredits)] }
  host := { State.reset.host with cmds := [(0, runCmd)], halts := [(.all, 0)] } }

/-- The gang's stream gives its credits back (08 R270), so it has none drawn any longer. -/
theorem exec_preemption_returnsCredits :
    ∃ t, exec (.preemption 0 0) haltedSender = .next t ∧ (Tab.find t.span.streams 0).map (·.drawn) = some 0 := ⟨_, rfl, by decide⟩

/-- Refutes O34: a gang pre-empted under a halt gives back the credits of its streams, which is a change of the links' state, and the frame of the clause has that state
unchanged. -/
theorem not_jobsGangsContexts : ¬ Obligations.JobsGangsContexts := by
  unfold Obligations.JobsGangsContexts
  rintro ⟨-, -, hpreempt, -⟩
  obtain ⟨t, -, hexec, -, -, -, -, -, -, -, -, -, hframe⟩ := hpreempt haltedSender 0 0 admittedJob issuingGang rfl rfl rfl rfl (by decide)
  obtain ⟨u, hu, hdrawn⟩ := exec_preemption_returnsCredits
  have htu : t = u := Host.Outcome.next.inj (hexec.symm.trans hu)
  have hspan : t.span = haltedSender.span := hframe .span (by simp)
  rw [← htu, hspan] at hdrawn
  exact absurd hdrawn (by decide)

end Sys2Proof.Machine

/-! # A move into the window of a gang that has no place (06 R182, R188; 07 R228) -/

namespace Sys2Proof.Machine

/-- A job with an allotment whose gang has no place yet. -/
def unplacedJob : Job := { (default : Job) with n := 1, g := 1, allot := 65536 }

/-- A move of 32 bytes from offset 65,536 of region 0x00 to offset 0 of the window, by thread 0 of job 0. -/
def moveToWindow : TierReq := { (default : TierReq) with
  kind := .move, thread := 0, job := 0, rcd := 0x0401#256, src := 65536#64, dst := BitVec.ofNat 64 (2 * 2 ^ 56), len := 32, dlen := 32 }

/-- The grant of module 0 that the move's source lies in. -/
def sourceGrant : Grant := ⟨0, 0, 65536, 65536, false, none, 0, 0, .interactive, false, [], 1, none⟩

/-- The reset state with that job, its thread, its move and a source that is not all zeros. -/
def windowWithoutPlace : State := { State.reset with
  compute := { State.reset.compute with jobs := [(0, unplacedJob)], threads := [(0, default)] }
  tiers := { State.reset.tiers with grants := [(0, sourceGrant)], reqs := [(0, moveToWindow)], hbm := [(65536, 1)] } }

theorem resolve_moveSource (k : Access) (hk : k = .moveSrc ∨ k = .moveDst) : windowWithoutPlace.resolve default 65536 32 k = .ok [(.hbm 65536, 32)] := by
  obtain rfl | rfl := hk <;> rfl

/-- The window is within its limit, though no bench memory stands behind it. -/
theorem resolve_moveWindow : windowWithoutPlace.resolve default (2 * 2 ^ 56) 32 .moveDst = .ok [(.win 0, 32)] := rfl

theorem placeRead_moveSource : windowWithoutPlace.placeRead default (.hbm 65536) 32 = 1 :: zeros 31 := by decide

/-- The move ends, and a window without a place reads as zeros. -/
theorem exec_mvComplete_window : ∃ t, exec (.mvComplete ⟨0, .good⟩) windowWithoutPlace = .next t ∧ t.placeRead default (.win 0) 32 = zeros 32 := ⟨_, rfl, by decide⟩

/-- Refutes O28: a completed move does not leave its bytes at its destination where that is the window of a thread whose gang has no place. The window's limit is the job's
allotment (06 R182), so its address is valid, but there is no bench memory behind it that could hold the bytes; the clause asks for a thread, and for no place of its gang. -/
theorem not_tierMoves : ¬ Obligations.TierMoves := by
  unfold Obligations.TierMoves
  rintro ⟨-, hmove, -⟩
  obtain ⟨t, -, hexec, hread, -⟩ := hmove windowWithoutPlace 0 moveToWindow default .good (.hbm 65536) (.win 0) rfl (.inl rfl) rfl rfl rfl rfl rfl rfl rfl rfl rfl rfl (by decide)
    (by decide) (by decide) (by decide) (by decide) (by decide) rfl rfl (resolve_moveSource _ (.inl rfl)) (fun _ => resolve_moveSource _ (.inr rfl)) resolve_moveWindow (by decide)
    (fun o h => Place.noConfusion h) (fun h => ReqKind.noConfusion h) (by decide)
  obtain ⟨u, hu, hzero⟩ := exec_mvComplete_window
  have htu : t = u := Host.Outcome.next.inj (hexec.symm.trans hu)
  change t.placeRead default (.win 0) 32 = windowWithoutPlace.placeRead default (.hbm 65536) 32 at hread
  rw [htu, hzero, placeRead_moveSource] at hread
  exact absurd hread (by decide)

end Sys2Proof.Machine

/-! # Every step keeps the memories in canonical form (07 R224)

A shared operation, given a state whose memories are in canonical form, gives one whose memories are: one lemma for each, in the order of the model, so that a command's lemma
follows its definition. The bytes themselves change in a few places only: a write, a clear, the image that A3 keeps and brings back, and a stop. -/

namespace Sys2Proof

open Machine

variable {s t : State}

/-- The next state, where there is one, has its memories in canonical form. -/
def NextOk : Host.Outcome State Fault Refusal → Prop
  | .next t => memoriesOk t
  | _ => True

/-- A state that may be answered has its memories in canonical form. -/
def SomeOk (o : Option State) : Prop := ∀ t, o = some t → memoriesOk t

/-- A state that may be answered beside a value has its memories in canonical form. -/
def SomeSndOk {α : Type} (o : Option (α × State)) : Prop := ∀ a t, o = some (a, t) → memoriesOk t

theorem memoriesOk.keep (h : memoriesOk s) {a b c d e f g i j k l m n o p q r} :
    memoriesOk ⟨a, b, c, d, e, f, g, s.tiers, i, j, k, s.host, l, m, n, o, p, q, r⟩ := h

theorem memoriesOk.keepHost (h : memoriesOk s) {a b c d e f g i j k l m n o p q r} {pa pb ow tk cm nc er hp ha hs ht sa sr ms la} :
    memoriesOk ⟨a, b, c, d, e, f, g, s.tiers, i, j, k, ⟨pa, pb, ow, tk, cm, nc, er, hp, ha, hs, ht, sa, sr, ms, la, s.host.hostMem⟩, l, m, n, o, p, q, r⟩ := h

theorem memoriesOk.keepTiers (h : memoriesOk s) {a b c d e f g i j k l m n o p q r} {hb fb gr ng ws t2 li re nr fe st lt} :
    memoriesOk ⟨a, b, c, d, e, f, g,
      ⟨s.tiers.hbm, s.tiers.flash, s.tiers.pinned, s.tiers.priv, hb, fb, gr, ng, ws, t2, li, re, nr, fe, st, lt, s.tiers.image⟩, i, j, k, s.host, l, m, n, o, p, q, r⟩
      := h

theorem memoriesOk.modTiers (h : memoriesOk s) {hb fb gr ng ws t2 li re nr fe st lt : Tiers → _} :
    memoriesOk (s.modTiers fun x => ⟨x.hbm, x.flash, x.pinned, x.priv, hb x, fb x, gr x, ng x, ws x, t2 x, li x, re x, nr x, fe x, st x, lt x, x.image⟩) := h

theorem memoriesOk.ite {c : Prop} [Decidable c] (h : memoriesOk s) (h' : memoriesOk t) : memoriesOk (if c then s else t) := by
  split <;> assumption

theorem memoriesOk.foldl {α : Type} {f : State → α → State} {l : List α} (h : memoriesOk s) (hf : ∀ t a, memoriesOk t → memoriesOk (f t a)) :
    memoriesOk (l.foldl f s) := by
  induction l generalizing s with
  | nil => exact h
  | cons a l ih => exact ih (hf s a h)

theorem memoriesOk.foldlSnd {α β : Type} {f : β × State → α → β × State} {l : List α} {p : β × State} (h : memoriesOk p.2)
    (hf : ∀ q a, memoriesOk q.2 → memoriesOk (f q a).2) : memoriesOk (l.foldl f p).2 := by
  induction l generalizing p with
  | nil => exact h
  | cons a l ih => exact ih (hf p a h)

theorem memoriesOk.foldlFst {α β : Type} {f : State × β → α → State × β} {l : List α} {p : State × β} (h : memoriesOk p.1)
    (hf : ∀ q a, memoriesOk q.1 → memoriesOk (f q a).1) : memoriesOk (l.foldl f p).1 := by
  induction l generalizing p with
  | nil => exact h
  | cons a l ih => exact ih (hf p a h)

theorem memoriesOk.of_snd {α : Type} {p : α × State} {a : α} (e : p = (a, t)) (h : memoriesOk p.2) : memoriesOk t := by
  subst e; exact h

theorem memoriesOk.of_some {o : Option State} (e : o = some t) (h : SomeOk o) : memoriesOk t := h t e
theorem memoriesOk.of_someSnd {α : Type} {o : Option (α × State)} {a : α} (e : o = some (a, t)) (h : SomeSndOk o) : memoriesOk t := h a t e
theorem SomeOk.none : SomeOk none := fun _ e => nomatch e

theorem SomeOk.some (h : memoriesOk s) : SomeOk (some s) := by
  rintro _ ⟨⟩; exact h

theorem SomeOk.ite {c : Prop} [Decidable c] {o o' : Option State} (h : SomeOk o) (h' : SomeOk o') : SomeOk (if c then o else o') := by
  split <;> assumption

theorem SomeSndOk.none {α : Type} : SomeSndOk (none : Option (α × State)) := fun _ _ e => nomatch e

theorem SomeSndOk.some {α : Type} {a : α} (h : memoriesOk s) : SomeSndOk (some (a, s)) := by
  rintro _ _ ⟨⟩; exact h

theorem SomeSndOk.ite {α : Type} {c : Prop} [Decidable c] {o o' : Option (α × State)} (h : SomeSndOk o) (h' : SomeSndOk o') :
    SomeSndOk (if c then o else o') := by
  split <;> assumption

theorem NextOk.next (h : memoriesOk s) : NextOk (.next s) := h

theorem NextOk.ite {c : Prop} [Decidable c] {o o' : Host.Outcome State Fault Refusal} (h : NextOk o) (h' : NextOk o') : NextOk (if c then o else o') := by
  split <;> assumption

theorem memoriesOk.setPort (h : memoriesOk s) {p x} : memoriesOk (s.setPort p x) := by
  cases p <;> exact h

theorem memoriesOk.hostWrite (h : memoriesOk s) {p a bs} : memoriesOk (s.hostWrite p a bs) := by
  obtain ⟨hhbm, hflash, hpinned, hpriv, himage, hhost⟩ := h
  exact ⟨hhbm, hflash, hpinned, hpriv, himage, Mem.wf_write 0 _ _ _ hhost⟩

theorem memoriesOk.iteSnd {α : Type} {c : Prop} [Decidable c] {p q : α × State} (h : memoriesOk p.2) (h' : memoriesOk q.2) :
    memoriesOk (if c then p else q).2 := by
  split <;> assumption

theorem memoriesOk.of_fst {α : Type} {p : State × α} {a : α} (e : p = (t, a)) (h : memoriesOk p.1) : memoriesOk t := by
  subst e; exact h

theorem memoriesOk.getD {o : Option State} (ho : SomeOk o) (h : memoriesOk s) : memoriesOk (o.getD s) := by
  cases o with
  | none => exact h
  | some t => exact ho t rfl

theorem SomeOk.map {α : Type} {f : α → State} {o : Option α} (hf : ∀ a, memoriesOk (f a)) : SomeOk (o.map f) := by
  intro t e
  obtain ⟨a, -, rfl⟩ := Option.map_eq_some_iff.mp e
  exact hf a

theorem SomeOk.bind {α : Type} {f : α → Option State} {o : Option α} (hf : ∀ a, SomeOk (f a)) : SomeOk (o.bind f) := by
  intro t e
  obtain ⟨a, -, ha⟩ := Option.bind_eq_some_iff.mp e
  exact hf a t ha

theorem SomeSndOk.map {α β : Type} {f : α → β × State} {o : Option α} (hf : ∀ a, memoriesOk (f a).2) : SomeSndOk (o.map f) := by
  intro b t e
  obtain ⟨a, -, ha⟩ := Option.map_eq_some_iff.mp e
  exact .of_snd ha (hf a)

theorem memoriesOk.of_next {o : Host.Outcome State Fault Refusal} (e : o = .next t) (h : NextOk o) : memoriesOk t := by
  subst e; exact h

theorem SomeOk.mapOk {o : Option State} {f : State → State} (ho : SomeOk o) (hf : ∀ t, memoriesOk t → memoriesOk (f t)) : SomeOk (o.map f) := by
  intro t e
  obtain ⟨u, hu, rfl⟩ := Option.map_eq_some_iff.mp e
  exact hf u (ho u hu)

theorem SomeOk.bindOk {o : Option State} {f : State → Option State} (ho : SomeOk o) (hf : ∀ t, memoriesOk t → SomeOk (f t)) : SomeOk (o.bind f) := by
  intro t e
  obtain ⟨u, hu, hfu⟩ := Option.bind_eq_some_iff.mp e
  exact hf u (ho u hu) t hfu

theorem SomeOk.mapSnd {α : Type} {o : Option (α × State)} {f : α × State → State} (ho : SomeSndOk o) (hf : ∀ p, memoriesOk p.2 → memoriesOk (f p)) :
    SomeOk (o.map f) := by
  intro t e
  obtain ⟨⟨a, u⟩, hu, rfl⟩ := Option.map_eq_some_iff.mp e
  exact hf _ (ho a u hu)

/-- The part of canonical form that speaks of the tiers. -/
structure TiersOk (x : Tiers) : Prop where
  hbm : Mem.wf 0 x.hbm = true
  flash : Mem.wf 0 x.flash = true
  pinned : Mem.wf 0 x.pinned = true
  priv : Mem.wf 0 x.priv = true
  image : ∀ y, x.image = some y → Mem.wf 0 y.1 = true ∧ Mem.wf 0 y.2 = true

theorem memoriesOk_iff : memoriesOk s ↔ TiersOk s.tiers ∧ Mem.wf 0 s.host.hostMem = true :=
  ⟨fun ⟨a, b, c, d, e, f⟩ => ⟨⟨a, b, c, d, e⟩, f⟩, fun ⟨⟨a, b, c, d, e⟩, f⟩ => ⟨a, b, c, d, e, f⟩⟩

theorem memoriesOk.mapTiers {f : Tiers → Tiers} (h : memoriesOk s) (hf : TiersOk s.tiers → TiersOk (f s.tiers)) : memoriesOk (s.modTiers f) :=
  (memoriesOk_iff.mp h).elim fun ht hh => memoriesOk_iff.mpr ⟨hf ht, hh⟩

section
variable {x : Tiers} {m : Mem}

theorem TiersOk.keep (h : TiersOk x) {hb fb gr ng ws t2 li re nr fe st lt} :
    TiersOk ⟨x.hbm, x.flash, x.pinned, x.priv, hb, fb, gr, ng, ws, t2, li, re, nr, fe, st, lt, x.image⟩ := ⟨h.hbm, h.flash, h.pinned, h.priv, h.image⟩

theorem TiersOk.reset : TiersOk Tiers.reset := ⟨rfl, rfl, rfl, rfl, fun _ e => nomatch e⟩

theorem TiersOk.fill (h : TiersOk x) {region a bs} : TiersOk (x.fill region a bs) := by
  unfold Tiers.fill
  split
  · exact { h with hbm := Mem.wf_write 0 _ _ _ h.hbm }
  · split
    · exact { h with flash := Mem.wf_write 0 _ _ _ h.flash }
    · exact { h with pinned := Mem.wf_write 0 _ _ _ h.pinned }

theorem TiersOk.wipe (h : TiersOk x) {region a n} : TiersOk (x.wipe region a n) := by
  unfold Tiers.wipe
  split
  · exact { h with hbm := Mem.wf_clear 0 _ _ _ h.hbm }
  · split
    · exact { h with flash := Mem.wf_clear 0 _ _ _ h.flash }
    · exact { h with pinned := Mem.wf_clear 0 _ _ _ h.pinned }

/-- The image A3 keeps is a copy of HBM and pinned cache (16 R514). -/
theorem TiersOk.saveImage (h : TiersOk x) {hb fb gr ng ws t2 li re nr fe st lt} :
    TiersOk ⟨x.hbm, x.flash, x.pinned, x.priv, hb, fb, gr, ng, ws, t2, li, re, nr, fe, st, lt, some (x.hbm, x.pinned)⟩ :=
  ⟨h.hbm, h.flash, h.pinned, h.priv, by rintro _ ⟨⟩; exact ⟨h.hbm, h.pinned⟩⟩

theorem TiersOk.powerOff (h : TiersOk x) {hb fb gr ng ws t2 li re nr fe st lt} :
    TiersOk ⟨[], x.flash, [], x.priv, hb, fb, gr, ng, ws, t2, li, re, nr, fe, st, lt, x.image⟩ :=
  ⟨Mem.wf_nil 0, h.flash, Mem.wf_nil 0, h.priv, h.image⟩

theorem TiersOk.imageOr (h : TiersOk x) : Mem.wf 0 (x.image.getD (x.hbm, x.pinned)).1 = true ∧ Mem.wf 0 (x.image.getD (x.hbm, x.pinned)).2 = true := by
  cases e : x.image with
  | none => exact ⟨h.hbm, h.pinned⟩
  | some y => exact h.image y e

/-- The wake from A3 brings the image back, and none is left (16 R514). -/
theorem TiersOk.restoreImage (h : TiersOk x) {hb fb gr ng ws t2 li re nr fe st lt} :
    TiersOk ⟨(x.image.getD (x.hbm, x.pinned)).1, x.flash, (x.image.getD (x.hbm, x.pinned)).2, x.priv, hb, fb, gr, ng, ws, t2, li, re, nr, fe, st, lt, none⟩ :=
  ⟨h.imageOr.1, h.flash, h.imageOr.2, h.priv, fun _ e => nomatch e⟩

end

/-- A stop leaves the tiers as after reset, and host memory as it was. -/
theorem memoriesOk.tiersReset (h : memoriesOk s) {a b c d e f g i j k l m n o p q r ow} :
    memoriesOk ⟨a, b, c, d, e, f, g, Tiers.reset, i, j, k, s.host.afterStop ow, l, m, n, o, p, q, r⟩ :=
  memoriesOk_iff.mpr ⟨.reset, (memoriesOk_iff.mp h).2⟩

/-! ## Free values (log entry 3). -/

theorem memoriesOk.spend (h : memoriesOk s) {n} : memoriesOk (s.spend n) := .keep h

/-! ## Time, events, counts, and the completion of commands (12; 15). -/

theorem memoriesOk.at_ (h : memoriesOk s) {t0} : memoriesOk (s.at_ t0) := .keep h
theorem memoriesOk.record (h : memoriesOk s) {code src payload} : memoriesOk (s.record code src payload) := .keep h
theorem memoriesOk.recordAll (h : memoriesOk s) {evs} : memoriesOk (s.recordAll evs) := .foldl h fun _ _ k => .record k
theorem memoriesOk.count (h : memoriesOk s) {i n} : memoriesOk (s.count i n) := .keep h
theorem memoriesOk.pagesProgrammed (h : memoriesOk s) {n} : memoriesOk (s.pagesProgrammed n) := .keep h
theorem memoriesOk.modPort (h : memoriesOk s) {p f} : memoriesOk (s.modPort p f) := .setPort h
theorem memoriesOk.modRing (h : memoriesOk s) {p r f} : memoriesOk (s.modRing p r f) := .modPort h
theorem memoriesOk.modCmd (h : memoriesOk s) {id f} : memoriesOk (s.modCmd id f) := .keepHost h
theorem memoriesOk.hold (h : memoriesOk s) {p r x} : memoriesOk (s.hold p r x) := .modRing h

theorem memoriesOk.dropCmd (h : memoriesOk s) {id} : memoriesOk (s.dropCmd id) := by
  unfold State.dropCmd
  split
  · exact h
  · extract_lets s1
    have h1 : memoriesOk s1 := .modPort h
    exact .keepHost h1

theorem memoriesOk.spoiled (h : memoriesOk s) {c st} : memoriesOk (s.spoiled c st) := .ite (.spend (.hostWrite h)) h

theorem memoriesOk.completeWith (h : memoriesOk s) {id st flags result} : memoriesOk (s.completeWith id st flags result) := by
  unfold State.completeWith
  split
  · exact h
  · extract_lets s1
    have h1 : memoriesOk s1 := .ite (.count h) h
    exact .hold (.dropCmd (.spoiled h1))

theorem memoriesOk.succeed (h : memoriesOk s) {id result} : memoriesOk (s.succeed id result) := .completeWith h
theorem memoriesOk.fail (h : memoriesOk s) {id st} : memoriesOk (s.fail id st) := .completeWith h

/-! ## Interrupts, buckets and retirement (14; 18). -/

theorem memoriesOk.signal (h : memoriesOk s) {p v} : memoriesOk (s.signal p v) := .ite (.modPort h) (.keepHost h)

theorem memoriesOk.setErr (h : memoriesOk s) {i} : memoriesOk (s.setErr i) := by
  unfold State.setErr
  refine .ite h ?_
  extract_lets _ s1
  have h1 : memoriesOk s1 := .keep h
  exact .ite (.foldl h1 (fun _ _ k => .ite (.signal k) k)) h1

theorem memoriesOk.setDivisor (h : memoriesOk s) {k0 n a} : memoriesOk (s.setDivisor k0 n a) := by
  unfold State.setDivisor
  refine .ite h ?_
  extract_lets _ s1
  have h1 : memoriesOk s1 := .keep h
  exact .record h1

theorem memoriesOk.correctable (h : memoriesOk s) {k0 n} : memoriesOk (s.correctable k0 n) := by
  unfold State.correctable
  extract_lets s1 _ _ s2 s3 s4
  have h1 : memoriesOk s1 := .count h
  have h2 : memoriesOk s2 := .keep h1
  have h3 : memoriesOk s3 := .count (.record h2)
  have h4 : memoriesOk s4 := .setErr h3
  exact .ite (.keep h1) (.ite (.setDivisor h4) h4)

theorem memoriesOk.pathError (h : memoriesOk s) {a} : memoriesOk (s.pathError a) := by
  unfold State.pathError
  split
  · exact h
  · exact .correctable h
  · exact .count (.correctable h)

theorem memoriesOk.jigChange (h : memoriesOk s) {f} : memoriesOk (s.jigChange f) := .keep h
theorem memoriesOk.retired (h : memoriesOk s) {unit inst cause src} : memoriesOk (s.retired unit inst cause src) := .setErr (.record h)
theorem memoriesOk.retireEngine (h : memoriesOk s) {e0 cause} : memoriesOk (s.retireEngine e0 cause) := .ite h (.retired (.jigChange h))
theorem memoriesOk.retireCore (h : memoriesOk s) {c cause} : memoriesOk (s.retireCore c cause) := .ite h (.retired (.jigChange h))

/-! ## Spares, wear and cryptographic erase (02). -/

theorem memoriesOk.modMedia (h : memoriesOk s) {f} : memoriesOk (s.modMedia f) := .keep h
theorem memoriesOk.policyActed (h : memoriesOk s) {policy old new} : memoriesOk (s.policyActed policy old new) := .record h

theorem memoriesOk.spareCheck (h : memoriesOk s) : memoriesOk s.spareCheck := by
  unfold State.spareCheck
  extract_lets _ s1 _ s2
  have h1 : memoriesOk s1 := .modMedia h
  have h2 : memoriesOk s2 := .keep h1
  exact .ite h (.record h2)

theorem memoriesOk.retireBlock (h : memoriesOk s) {die r cause} : memoriesOk (s.retireBlock die r cause) := by
  unfold State.retireBlock
  extract_lets _ s1 _ s2
  have h1 : memoriesOk s1 := .modMedia h
  have h2 : memoriesOk s2 := .keep h1
  exact .ite h (.spareCheck (.record h2))

theorem memoriesOk.wearErase (h : memoriesOk s) {die m r} : memoriesOk (s.wearErase die m r) := by
  unfold State.wearErase
  extract_lets _ _ s1 _ s2
  have h1 : memoriesOk s1 := .modMedia h
  have h2 : memoriesOk s2 := .keep h1
  exact .ite (.retireBlock h2) h2

theorem memoriesOk.countReads (h : memoriesOk s) {die m r n} : memoriesOk (s.countReads die m r n) := by
  unfold State.countReads
  extract_lets _ _ s1
  have h1 : memoriesOk s1 := .modMedia h
  exact .ite (.modMedia h1) h1

theorem memoriesOk.countRead (h : memoriesOk s) {die m r} : memoriesOk (s.countRead die m r) := .countReads h

theorem memoriesOk.uncorrectable (h : memoriesOk s) {o xs} : memoriesOk (s.uncorrectable o xs) := by
  unfold State.uncorrectable
  extract_lets _ s1 s2
  have h1 : memoriesOk s1 := .count h
  have h2 : memoriesOk s2 := .keep h1
  exact .foldl h2 fun _ _ k => .record k

theorem memoriesOk.secure (h : memoriesOk s) : memoriesOk s.secure := .keep h

theorem memoriesOk.destroyKey (h : memoriesOk s) : memoriesOk s.destroyKey := by
  unfold State.destroyKey
  extract_lets s1 _ s2
  have h1 : memoriesOk s1 := .secure h
  have h2 : memoriesOk s2 := .modMedia h1
  exact .keep h2

theorem memoriesOk.cryptoErase (h : memoriesOk s) {o} : memoriesOk (s.cryptoErase o) := by
  unfold State.cryptoErase
  extract_lets s1 s2
  have h1 : memoriesOk s1 := .modMedia h
  have h2 : memoriesOk s2 := .destroyKey h1
  exact .keep h2

/-! ## Programs the module sends of its own (02; 17 R540). -/

theorem memoriesOk.setDie (h : memoriesOk s) {d x} : memoriesOk (s.setDie d x) := .keep h

theorem SomeSndOk.planVeneer (h : memoriesOk s) {d rows seqs} : SomeSndOk (s.planVeneer d rows seqs) := by
  unfold State.planVeneer
  extract_lets
  exact .ite (.some (.modMedia h)) .none

theorem SomeSndOk.planLog (h : memoriesOk s) {d rows seqs} : SomeSndOk (s.planLog d rows seqs) := by
  unfold State.planLog
  extract_lets
  exact .ite (.some (.modMedia h)) .none

theorem SomeSndOk.planSummary (h : memoriesOk s) {d rows} : SomeSndOk (s.planSummary d rows) := by
  unfold State.planSummary
  extract_lets
  exact .ite (.some h) .none

theorem SomeSndOk.planStripe (h : memoriesOk s) {d m rows} : SomeSndOk (s.planStripe d m rows) := by
  unfold State.planStripe
  extract_lets
  exact .ite (.some (.modMedia h)) .none

theorem SomeSndOk.planParity (h : memoriesOk s) {d rows} : SomeSndOk (s.planParity d rows) := by
  unfold State.planParity
  extract_lets
  exact .ite (.some h) .none

theorem SomeSndOk.planSketch (h : memoriesOk s) {d rows leaf second} : SomeSndOk (s.planSketch d rows leaf second) := by
  unfold State.planSketch
  split
  · extract_lets
    exact .ite (.some (.keep h)) .none
  · exact .none

theorem memoriesOk.loadNth (h : memoriesOk s) {d m r n} : memoriesOk (s.loadNth d m r n) := by
  unfold State.loadNth
  extract_lets
  exact .ite h (.modMedia (.setDie h))

theorem memoriesOk.loadSet (h : memoriesOk s) {d m r} : memoriesOk (s.loadSet d m r) := .loadNth h
theorem memoriesOk.loadSets (h : memoriesOk s) {d m rows} : memoriesOk (s.loadSets d m rows) := .foldl h fun _ _ k => .loadSet k

theorem memoriesOk.readSpot (h : memoriesOk s) {x n} : memoriesOk (s.readSpot x n) := by
  unfold State.readSpot
  extract_lets
  exact .countRead (.loadNth h)

theorem memoriesOk.readSpots (h : memoriesOk s) {l} : memoriesOk (s.readSpots l) := .foldl h fun _ _ k => .readSpot k

theorem SomeSndOk.planRebuild (h : memoriesOk s) {d m rows} : SomeSndOk (s.planRebuild d m rows) := by
  unfold State.planRebuild
  extract_lets
  exact .ite (.some (.modMedia (.readSpots h))) .none

theorem SomeSndOk.planJournal (h : memoriesOk s) {d rows copy upTo} : SomeSndOk (s.planJournal d rows copy upTo) := by
  unfold State.planJournal
  split
  · extract_lets
    exact .ite (.some (.modMedia h)) .none
  · exact .none

theorem SomeSndOk.planCheckpoint (h : memoriesOk s) {d rows i} : SomeSndOk (s.planCheckpoint d rows i) := by
  unfold State.planCheckpoint
  split
  · exact .ite (.some (.modMedia h)) .none
  · exact .none

theorem SomeSndOk.planSecurity (h : memoriesOk s) {d rows copy} : SomeSndOk (s.planSecurity d rows copy) := by
  unfold State.planSecurity
  split
  · extract_lets
    exact .ite (.some (.keep h)) .none
  · exact .none

theorem SomeSndOk.plan (h : memoriesOk s) {d m rows data why} : SomeSndOk (s.plan d m rows data why) := by
  unfold State.plan
  split
  · exact .some h
  · exact .planStripe h
  · exact .planRebuild h
  · refine .ite .none ?_
    split
    · exact .planVeneer h
    · exact .planLog h
    · exact .planJournal h
    · exact .planParity h
    · exact .planSummary h
    · exact .planCheckpoint h
    · exact .planSketch h
    · exact .planSecurity h
    · exact .none

theorem memoriesOk.programOutcome (h : memoriesOk s) {d rows why ok} : memoriesOk (s.programOutcome d rows why ok) := by
  unfold State.programOutcome
  extract_lets
  split
  · refine .ite ?_ (.modMedia h)
    extract_lets _ s1
    have h1 : memoriesOk s1 := .modMedia h
    exact .keep h1
  · exact .modMedia h
  · exact .modMedia h
  · exact .modMedia h
  · exact .ite (.modMedia h) h
  · split
    · refine .ite ?_ (.modMedia h)
      extract_lets
      exact .modMedia h
    · exact h
  · exact .keep h
  · exact .keep h
  · exact h

theorem memoriesOk.refusedElsewhere (h : memoriesOk s) {d rows why} : memoriesOk (s.refusedElsewhere d rows why) := by
  unfold State.refusedElsewhere
  extract_lets _ _ s1
  have h1 : memoriesOk s1 := by
    unfold s1
    split
    · exact .keep h
    · exact h
  exact .ite h (.modMedia h1)

/-! ## The dies (01). -/

theorem NextOk.frame (h : memoriesOk s) {d f} : NextOk (s.frame d f) := .ite (.next (.spend (.setDie h))) (.next h)
theorem NextOk.frameIf (h : memoriesOk s) {d c f} : NextOk (s.frameIf d c f) := .frame h
theorem NextOk.dataFrame (h : memoriesOk s) {d c f} : NextOk (s.dataFrame d c f) := .frame h
theorem NextOk.execReadPage (h : memoriesOk s) {d mask rows prefetching} : NextOk (execReadPage d mask rows prefetching s) := .frameIf h
theorem NextOk.execReadNext (h : memoriesOk s) {d} : NextOk (execReadNext d s) := .frameIf h
theorem NextOk.execReadChain (h : memoriesOk s) {d m} : NextOk (execReadChain d m s) := .frameIf h

theorem NextOk.execDataOut (h : memoriesOk s) {d plane col len} : NextOk (execDataOut d plane col len s) := by
  unfold Machine.execDataOut
  split
  · rename_i e
    exact .next (.spend (.of_next e (.dataFrame h)))
  · exact .dataFrame h

theorem memoriesOk.programRefused (h : memoriesOk s) {d rows c why} : memoriesOk (s.programRefused d rows c why) := by
  unfold State.programRefused
  split
  · exact h
  · exact .ite (.refusedElsewhere (.record (.count h))) h

theorem NextOk.programFrame (h : memoriesOk s) {d m k0 mask rows data why} : NextOk (s.programFrame d m k0 mask rows data why) := by
  unfold State.programFrame
  extract_lets
  split
  · exact .next h
  · rename_i e
    refine .ite (.next h) (.ite (.next (.setDie h)) ?_)
    split
    · exact .next (.spend (.programRefused (.setDie h)))
    · extract_lets s1
      have h1 : memoriesOk s1 := .modMedia (.of_someSnd e (.plan h))
      exact .next (.spend (.pagesProgrammed (.setDie h1)))

theorem NextOk.execProgramSlc (h : memoriesOk s) {d mask rows data why} : NextOk (execProgramSlc d mask rows data why s) := .programFrame h
theorem NextOk.execProgramQlc (h : memoriesOk s) {d mask rows data why} : NextOk (execProgramQlc d mask rows data why s) := .programFrame h
theorem NextOk.execErase (h : memoriesOk s) {d mask rows m why} : NextOk (execErase d mask rows m why s) := .ite (.next h) (.frameIf h)
theorem NextOk.execSuspend (h : memoriesOk s) {d} : NextOk (execSuspend d s) := .frameIf h
theorem NextOk.execResume (h : memoriesOk s) {d} : NextOk (execResume d s) := .frameIf h
theorem NextOk.execLoadQuery (h : memoriesOk s) {d slot wide data} : NextOk (execLoadQuery d slot wide data s) := .frameIf h
theorem NextOk.execLoadChain (h : memoriesOk s) {d entries} : NextOk (execLoadChain d entries s) := .frameIf h
theorem NextOk.execScan (h : memoriesOk s) {d mask allow} : NextOk (execScan d mask allow s) := .frameIf h

theorem NextOk.execResultOut (h : memoriesOk s) {d} : NextOk (execResultOut d s) := by
  unfold Machine.execResultOut
  split
  · rename_i e
    exact .next (.spend (.of_next e (.dataFrame h)))
  · exact .dataFrame h

theorem NextOk.execReadStatus (h : memoriesOk s) {d} : NextOk (execReadStatus d s) := .frame h
theorem NextOk.execDieGetFeature (h : memoriesOk s) {d addr} : NextOk (execDieGetFeature d addr s) := .frame h

theorem NextOk.execDieSetFeature (h : memoriesOk s) {d addr data} : NextOk (execDieSetFeature d addr data s) := by
  unfold Machine.execDieSetFeature
  split
  · rename_i e
    exact .next (.modMedia (.of_next e (.frameIf h)))
  · exact .frameIf h

theorem NextOk.execReadId (h : memoriesOk s) {d} : NextOk (execReadId d s) := .dataFrame h

theorem NextOk.execReset (h : memoriesOk s) {d} : NextOk (execReset d s) := by
  unfold Machine.execReset
  split
  · rename_i e
    exact .next (.modMedia (.of_next e (.frame h)))
  · exact .frame h

theorem NextOk.execDieReservedOpcode (h : memoriesOk s) {d op} : NextOk (execDieReservedOpcode d op s) := .ite (.next h) (.frame h)

theorem NextOk.execSenseComplete (h : memoriesOk s) {d flips} : NextOk (execSenseComplete d flips s) := by
  unfold Machine.execSenseComplete
  split
  · exact .next h
  · extract_lets s1 s2
    have h1 : memoriesOk s1 := .at_ h
    have h2 : memoriesOk s2 := .spend (.setDie h1)
    exact .next (.foldl h2 (fun _ _ k => .countRead k))

theorem NextOk.execSuspendStart (h : memoriesOk s) {d} : NextOk (execSuspendStart d s) := by
  unfold Machine.execSuspendStart
  extract_lets
  split
  · refine .ite ?_ (.next h)
    extract_lets s1
    have h1 : memoriesOk s1 := .at_ h
    exact .next (.setDie h1)
  · exact .next h

theorem NextOk.execSuspended (h : memoriesOk s) {d} : NextOk (execSuspended d s) := by
  unfold Machine.execSuspended
  extract_lets
  split
  · split
    · exact .next (.setDie (.at_ h))
    · exact .next h
  · exact .next h

theorem NextOk.execResetComplete (h : memoriesOk s) {d} : NextOk (execResetComplete d s) := by
  unfold Machine.execResetComplete
  extract_lets
  split
  · exact .next (.setDie (.at_ h))
  · exact .next h

theorem NextOk.execDieProgramComplete (h : memoriesOk s) {d verified} : NextOk (execDieProgramComplete d verified s) := by
  unfold Machine.execDieProgramComplete
  split
  · split
    · exact .next h
    · exact .next h
    · extract_lets s1 s2 s3 s4
      have h1 : memoriesOk s1 := .at_ h
      have h2 : memoriesOk s2 := .setDie h1
      have h3 : memoriesOk s3 := .programOutcome h2
      have h4 : memoriesOk s4 := .ite h3 (.foldl (.count h3) (fun _ _ k => .retireBlock k))
      exact .next (.spareCheck h4)
  · exact .next h

theorem memoriesOk.eraseOutcome (h : memoriesOk s) {d rows why ok} : memoriesOk (s.eraseOutcome d rows why ok) := by
  unfold State.eraseOutcome
  extract_lets
  split
  · exact h
  · exact .modMedia h
  · exact .ite (.keep h) h

theorem NextOk.execEraseComplete (h : memoriesOk s) {d verified} : NextOk (execEraseComplete d verified s) := by
  unfold Machine.execEraseComplete
  split
  · split
    · extract_lets s1 s2 s3 s4
      have h1 : memoriesOk s1 := .at_ h
      have h2 : memoriesOk s2 := .setDie h1
      have h3 : memoriesOk s3 := .eraseOutcome h2
      have h4 : memoriesOk s4 := .ite (.foldl h3 (fun _ _ k => .wearErase k)) (.foldl (.count h3) (fun _ _ k => .retireBlock k))
      exact .next (.spareCheck h4)
    · exact .next h
  · exact .next h

/-! ## Threads, windows and places (06). -/

theorem memoriesOk.modCompute (h : memoriesOk s) {f} : memoriesOk (s.modCompute f) := .keep h
theorem memoriesOk.modThread (h : memoriesOk s) {t0 f} : memoriesOk (s.modThread t0 f) := .modCompute h
theorem memoriesOk.modJob (h : memoriesOk s) {j f} : memoriesOk (s.modJob j f) := .modCompute h
theorem memoriesOk.setCore (h : memoriesOk s) {c x} : memoriesOk (s.setCore c x) := .modCompute h
theorem memoriesOk.modCore (h : memoriesOk s) {c f} : memoriesOk (s.modCore c f) := .setCore h
theorem memoriesOk.modCtx (h : memoriesOk s) {k0 f} : memoriesOk (s.modCtx k0 f) := .modCompute h
theorem memoriesOk.modGang (h : memoriesOk s) {j g f} : memoriesOk (s.modGang j g f) := .modJob h

theorem memoriesOk.charge (h : memoriesOk s) {c t0 cycles} : memoriesOk (s.charge c t0 cycles) := by
  unfold State.charge
  split
  · exact .modCore h
  · exact .modCore h
  · exact h

theorem memoriesOk.chargeVx (h : memoriesOk s) {c t0 cycles} : memoriesOk (s.chargeVx c t0 cycles) := by
  unfold State.chargeVx
  split
  · exact .modCore h
  · exact .modCore h
  · exact h

theorem memoriesOk.saturated (h : memoriesOk s) {c j n} : memoriesOk (s.saturated c j n) := by
  unfold State.saturated
  refine .ite h ?_
  extract_lets
  exact .modJob (.modCore h)

theorem memoriesOk.heal (h : memoriesOk s) {region inst a n} : memoriesOk (s.heal region inst a n) := .keep h

theorem memoriesOk.winWrite (h : memoriesOk s) {j gi off bs} : memoriesOk (s.winWrite j gi off bs) := by
  unfold State.winWrite
  split
  · exact h
  · split
    · exact .modGang h
    · exact .heal (.modCore h)

theorem memoriesOk.markWin (h : memoriesOk s) {j gi f} : memoriesOk (s.markWin j gi f) := by
  unfold State.markWin
  split
  · exact h
  · split
    · exact .modGang h
    · extract_lets
      exact .modCore h

theorem memoriesOk.healBlocks (h : memoriesOk s) {a n} : memoriesOk (s.healBlocks a n) := .modTiers h

theorem memoriesOk.healCache (h : memoriesOk s) {a n} : memoriesOk (s.healCache a n) := by
  unfold State.healCache
  refine .ite h ?_
  extract_lets s1
  have h1 : memoriesOk s1 := .foldl h fun _ _ k => .heal k
  exact .modTiers h1

theorem memoriesOk.healRange (h : memoriesOk s) {region o n} : memoriesOk (s.healRange region o n) :=
  .ite (.healCache (.healBlocks h)) (.ite (.healBlocks (.modTiers h)) (.healCache h))

theorem memoriesOk.hbmWrite (h : memoriesOk s) {o bs} : memoriesOk (s.hbmWrite o bs) :=
  .healCache (.healBlocks (.mapTiers h fun hx => { hx with hbm := Mem.wf_write 0 _ _ _ hx.hbm }))

theorem memoriesOk.flashWrite (h : memoriesOk s) {o bs} : memoriesOk (s.flashWrite o bs) :=
  .healBlocks (.mapTiers h fun hx => { hx with flash := Mem.wf_write 0 _ _ _ hx.flash })

theorem memoriesOk.pinnedWrite (h : memoriesOk s) {o bs} : memoriesOk (s.pinnedWrite o bs) :=
  .healCache (.mapTiers h fun hx => { hx with pinned := Mem.wf_write 0 _ _ _ hx.pinned })

theorem memoriesOk.placeWrite (h : memoriesOk s) {t0 p bs} : memoriesOk (s.placeWrite t0 p bs) := by
  unfold State.placeWrite
  split
  · exact .winWrite h
  · exact .hbmWrite h
  · exact .flashWrite h
  · exact .pinnedWrite h
  · exact .mapTiers h fun hx => { hx with priv := Mem.wf_write 0 _ _ _ hx.priv }
  · exact h

theorem memoriesOk.spotsWrite (h : memoriesOk s) {t0 l bs} : memoriesOk (s.spotsWrite t0 l bs) := by
  induction l generalizing s bs with
  | nil => exact h
  | cons x l ih => exact ih (.placeWrite h)

/-! ## Stages of a command (13). -/

theorem memoriesOk.stage (h : memoriesOk s) {id n aux} : memoriesOk (s.stage id n aux) := .modCmd h

/-! ## The ends of jobs (06; 08; 14). -/

theorem memoriesOk.dropQueued (h : memoriesOk s) {j} : memoriesOk (s.dropQueued j) := by
  unfold State.dropQueued
  extract_lets
  exact .modCompute h

theorem memoriesOk.breakSems (h : memoriesOk s) {j} : memoriesOk (s.breakSems j) := by
  unfold State.breakSems
  extract_lets
  exact .modCompute h

theorem memoriesOk.clearThreads (h : memoriesOk s) {j} : memoriesOk (s.clearThreads j) := by
  unfold State.clearThreads
  extract_lets
  exact .modCompute h

theorem memoriesOk.entryWrite (h : memoriesOk s) {e0 bs} : memoriesOk (s.entryWrite e0 bs) := by
  unfold State.entryWrite
  extract_lets
  split
  · exact .ite (.hbmWrite h) (.ite (.flashWrite h) (.pinnedWrite h))
  · split
    · exact h
    · exact .ite h (.winWrite h)

theorem memoriesOk.rewriteEntries (h : memoriesOk s) {x} : memoriesOk (s.rewriteEntries x) := .foldl h fun _ _ k => .entryWrite k

theorem memoriesOk.siteBoundary (h : memoriesOk s) {j} : memoriesOk (s.siteBoundary j) := by
  unfold State.siteBoundary
  refine .foldl h fun _ _ k => ?_
  extract_lets
  exact .modCompute (.rewriteEntries k)

theorem memoriesOk.jobReply (h : memoriesOk s) {x st} : memoriesOk (s.jobReply x st) := by
  unfold State.jobReply
  split
  · exact .completeWith (.hostWrite h)
  · exact h

theorem memoriesOk.closeJob (h : memoriesOk s) {j x st} : memoriesOk (s.closeJob j x st) := by
  unfold State.closeJob
  extract_lets s1
  have h1 : memoriesOk s1 := .clearThreads (.breakSems (.jobReply h))
  exact .siteBoundary (.modCompute h1)

theorem memoriesOk.settle (h : memoriesOk s) {j} : memoriesOk (s.settle j) := by
  unfold State.settle
  split
  · exact h
  · split
    · exact h
    · refine .ite h ?_
      split
      · exact .closeJob h
      · extract_lets _ s1
        have h1 : memoriesOk s1 := .clearThreads (.breakSems h)
        exact .modJob h1

theorem memoriesOk.settleAll (h : memoriesOk s) : memoriesOk s.settleAll := .foldl h fun _ _ k => .settle k

theorem memoriesOk.endJob (h : memoriesOk s) {j st} : memoriesOk (s.endJob j st) := by
  unfold State.endJob
  split
  · exact h
  · extract_lets
    exact .ite (.settle (.dropQueued (.modJob h))) h

theorem memoriesOk.endJobFor (h : memoriesOk s) {j st member} : memoriesOk (s.endJobFor j st member) := by
  unfold State.endJobFor
  split
  · exact h
  · exact .ite (.endJob (.modJob h)) h

theorem memoriesOk.fault (h : memoriesOk s) {t0 pc code trap} : memoriesOk (s.fault t0 pc code trap) := by
  unfold State.fault
  split
  · exact h
  · extract_lets s1
    have h1 : memoriesOk s1 := .modJob h
    exact .endJob h1

theorem memoriesOk.checkFails (h : memoriesOk s) {j} : memoriesOk (s.checkFails j) := by
  unfold State.checkFails
  split
  · exact h
  · exact .ite h (.ite (.settle (.dropQueued (.modJob (.count h)))) (.endJob h))

theorem memoriesOk.implausible (h : memoriesOk s) {j core site value} : memoriesOk (s.implausible j core site value) := by
  unfold State.implausible
  extract_lets s1 s2
  have h1 : memoriesOk s1 := .count (.setErr h)
  have h2 : memoriesOk s2 := .spend (.record h1)
  refine .ite h2 ?_
  split
  · extract_lets s3
    have h3 : memoriesOk s3 := .spend (.record h2)
    exact .modJob (.count h3)
  · exact .checkFails (.keep h2)

/-! ## Issue of an operation (06). -/

theorem memoriesOk.passRecord (h : memoriesOk s) {t0 th op} : memoriesOk (s.passRecord t0 th op) := .modJob (.modThread h)

theorem memoriesOk.issue (h : memoriesOk s) {t0 op ranges check body} (hf : ∀ a0 a1 t, memoriesOk t → memoriesOk (body a0 a1 t))
  : memoriesOk (s.issue t0 op ranges check body) := by
  unfold State.issue
  split
  · exact h
  · split
    · exact .fault h
    · refine .ite h ?_
      split
      · exact .fault h
      · exact hf _ _ _ (.passRecord h)

theorem memoriesOk.fly (h : memoriesOk s) {t0 ranges} : memoriesOk (s.fly t0 ranges) := .modCompute (.modThread h)

/-! ## Residency in the tiers (07 R229 to R242). -/

theorem memoriesOk.allocLine (h : memoriesOk s) {cls q line write ahead} : memoriesOk (s.allocLine cls q line write ahead) := by
  unfold State.allocLine
  split
  · exact .ite h (.modTiers h)
  · extract_lets _ _ put
    have hput : ∀ s w, memoriesOk s → memoriesOk (put s w) := fun _ _ k => .modTiers k
    split
    · exact hput _ _ h
    · split
      · exact h
      · extract_lets _ s1
        have h1 : memoriesOk s1 := .modTiers h
        exact hput _ _ (.ite (.healBlocks h1) h1)

theorem memoriesOk.releaseTiles (h : memoriesOk s) {x} : memoriesOk (s.releaseTiles x) := by
  unfold State.releaseTiles
  extract_lets
  exact .modTiers h

theorem memoriesOk.evictTile (h : memoriesOk s) {a} : memoriesOk (s.evictTile a) := by
  unfold State.evictTile
  split
  · exact h
  · exact .modTiers h

theorem memoriesOk.movedHome (h : memoriesOk s) : memoriesOk s.movedHome := .modTiers h

theorem memoriesOk.makeRoom (h : memoriesOk s) : memoriesOk s.makeRoom := by
  unfold State.makeRoom
  refine .ite h ?_
  split
  · exact h
  · exact .evictTile h

theorem memoriesOk.shrinkPool (h : memoriesOk s) {n} : memoriesOk (State.shrinkPool n s) := by
  induction n generalizing s with
  | zero => exact h
  | succ n ih =>
    rw [State.shrinkPool]
    refine .ite h ?_
    split
    · exact h
    · exact ih (.movedHome (.evictTile h))

theorem memoriesOk.fitPool (h : memoriesOk s) : memoriesOk s.fitPool := .shrinkPool h
theorem memoriesOk.useTile (h : memoriesOk s) {tile} : memoriesOk (s.useTile tile) := .modTiers h

theorem memoriesOk.useRange (h : memoriesOk s) {a n write} : memoriesOk (s.useRange a n write) :=
  .foldl h fun _ _ k => .ite k (.ite (.foldl k (fun _ _ k1 => .useTile k1)) (.ite (.modTiers k) k))

theorem memoriesOk.startFetches (h : memoriesOk s) {req tiles ahead} : memoriesOk (s.startFetches req tiles ahead) := .modTiers h

theorem memoriesOk.addReq (h : memoriesOk s) {r} : memoriesOk (s.addReq r).2 := by
  unfold State.addReq
  extract_lets _ _ s1
  have h1 : memoriesOk s1 := .modTiers h
  exact .startFetches h1

theorem memoriesOk.dropReq (h : memoriesOk s) {k0} : memoriesOk (s.dropReq k0) := .modTiers h
theorem memoriesOk.reqLands (h : memoriesOk s) {r} : memoriesOk (s.reqLands r) := .modThread h

theorem memoriesOk.smearAt (h : memoriesOk s) {th a n} : memoriesOk (s.smearAt th a n) := by
  unfold State.smearAt
  refine .ite h ?_
  split
  · exact .spend (.spotsWrite h)
  · exact h

theorem memoriesOk.serviceLost (h : memoriesOk s) {id st} : memoriesOk (s.serviceLost id st) := by
  unfold State.serviceLost
  extract_lets
  exact .ite (.keep h) (.fail h)

theorem memoriesOk.reqFails (h : memoriesOk s) {k0 st} : memoriesOk (s.reqFails k0 st) := by
  unfold State.reqFails
  split
  · exact h
  · extract_lets s1 _ s2 s3
    have h1 : memoriesOk s1 := .dropReq h
    have h2 : memoriesOk s2 := .count h1
    have h3 : memoriesOk s3 := by
      unfold s3
      split
      · exact .ite (.smearAt (.smearAt h2)) h2
      · exact h2
    split
    · exact .modJob (.reqLands h1)
    · exact h1
    · exact .ite h1 (.serviceLost h2)
    · exact .settle (.endJob (.reqLands h3))

theorem memoriesOk.fetchFails (h : memoriesOk s) {f lost} : memoriesOk (s.fetchFails f lost) := by
  unfold State.fetchFails
  extract_lets s1
  have h1 : memoriesOk s1 := .modTiers h
  exact .foldl h1 fun _ _ k => .reqFails k

theorem memoriesOk.fetchDone (h : memoriesOk s) {f} : memoriesOk (s.fetchDone f) := by
  unfold State.fetchDone
  extract_lets s1
  have h1 : memoriesOk s1 := .makeRoom (.movedHome h)
  exact .ite h1 (.modTiers h1)

theorem memoriesOk.fetchAhead (h : memoriesOk s) {t0 th tiles} : memoriesOk (s.fetchAhead t0 th tiles) := .ite h (.addReq h)

theorem memoriesOk.noteAccess (h : memoriesOk s) {t0 tile} : memoriesOk (s.noteAccess t0 tile) := by
  unfold State.noteAccess
  split
  · refine .ite h ?_
    extract_lets _ _ _ s1
    have h1 : memoriesOk s1 := .modTiers h
    split
    · exact h1
    · exact .fetchAhead (.modTiers h1)
  · exact h

theorem memoriesOk.serviceReads (h : memoriesOk s) {c cls ranges} : memoriesOk (s.serviceReads c cls ranges) := by
  unfold State.serviceReads
  split
  · exact h
  · exact .addReq h

/-! ## What lies in region 0x01 (07 R225, R246). -/

theorem memoriesOk.freeFlash (h : memoriesOk s) {gone} : memoriesOk (s.freeFlash gone) := by
  unfold State.freeFlash
  extract_lets _ _ s1
  have h1 : memoriesOk s1 := .modMedia h
  exact .keepTiers h1

/-! ## The Tenon link (11). -/

theorem memoriesOk.modSpan (h : memoriesOk s) {f} : memoriesOk (s.modSpan f) := .keep h
theorem memoriesOk.modTport (h : memoriesOk s) {p f} : memoriesOk (s.modTport p f) := .modSpan h

theorem memoriesOk.freeHeld (h : memoriesOk s) {f} : memoriesOk (s.freeHeld f) := by
  unfold State.freeHeld
  split
  · exact .modSpan h
  · exact h

theorem memoriesOk.pump (h : memoriesOk s) {p n} : memoriesOk (s.pump p n) := by
  induction n generalizing s with
  | zero => exact h
  | succ n ih =>
    rw [State.pump]
    refine .ite h ?_
    split
    · exact h
    · exact ih (.freeHeld (.modTport h))

theorem memoriesOk.send (h : memoriesOk s) {p} : memoriesOk (s.send p) := by
  unfold State.send
  extract_lets s1
  have h1 : memoriesOk s1 := .ite h (.modTport h)
  exact .modSpan (.pump h1)

theorem memoriesOk.enqueue (h : memoriesOk s) {p vl inp fs} : memoriesOk (s.enqueue p vl inp fs) := .send (.modTport h)

theorem memoriesOk.launch (h : memoriesOk s) {p} : memoriesOk (s.launch p) := by
  unfold State.launch
  extract_lets s1
  have h1 : memoriesOk s1 := .modSpan h
  split
  · exact .enqueue h1
  · exact h1

theorem memoriesOk.post (h : memoriesOk s) {dest t0 addr aux body} : memoriesOk (s.post dest t0 addr aux body) := .launch h
theorem memoriesOk.postAll (h : memoriesOk s) {dests t0 addr aux body} : memoriesOk (s.postAll dests t0 addr aux body) := .foldl h fun _ _ k => .post k
theorem memoriesOk.countBad (h : memoriesOk s) : memoriesOk s.countBad := .modSpan h

theorem memoriesOk.packetIn (h : memoriesOk s) {p vl cls fs} : memoriesOk (s.packetIn p vl cls fs) := by
  unfold State.packetIn
  extract_lets _ s1
  have h1 : memoriesOk s1 := .modTport h
  refine .ite (.countBad h1) (.ite h1 ?_)
  split
  · exact h1
  · extract_lets
    exact .enqueue h

theorem memoriesOk.dataFlit (h : memoriesOk s) {p f} : memoriesOk (s.dataFlit p f) := by
  unfold State.dataFlit
  extract_lets
  exact .ite (.packetIn (.modTport h)) (.modTport h)

theorem NextOk.execFlitReceive (h : memoriesOk s) {p f} : NextOk (execFlitReceive p f s) := by
  unfold Machine.execFlitReceive
  extract_lets _ s1 s2
  have h1 : memoriesOk s1 := .modTport h
  have h2 : memoriesOk s2 := .modTport h1
  exact .ite (.next h) (.ite (.next (.modTport h)) (.ite (.ite (.next (.send (.modTport h1))) (.next (.modTport h1))) (.ite (.next (.modTport h1))
    (.ite (.next (.send (.dataFlit h2))) (.ite (.next (.send h2)) (.next (.send (.countBad (.modTport h2)))))))))

theorem memoriesOk.maybeUp (h : memoriesOk s) {p} : memoriesOk (s.maybeUp p) := by
  unfold State.maybeUp
  extract_lets
  exact .ite (.send (.modTport h)) h

theorem memoriesOk.retrain (h : memoriesOk s) {p} : memoriesOk (s.retrain p) := .ite (.modTport h) h
theorem memoriesOk.retrainAll (h : memoriesOk s) : memoriesOk s.retrainAll := .foldl h fun _ _ k => .retrain k

theorem NextOk.execPortAligned (h : memoriesOk s) {p lock} : NextOk (execPortAligned p lock s) := by
  unfold Machine.execPortAligned
  split
  · exact .next (.modSpan h)
  · exact .ite (.next (.maybeUp (.modTport h))) (.next h)

theorem NextOk.execHello (h : memoriesOk s) {p moduleNo slot port state span} : NextOk (execHello p moduleNo slot port state span s) := by
  unfold Machine.execHello
  extract_lets
  exact .ite (.next (.maybeUp (.modTport h))) (.next h)

theorem NextOk.execNak (h : memoriesOk s) {p expected} : NextOk (execNak p expected s) := by
  unfold Machine.execNak
  extract_lets _ s1
  have h1 : memoriesOk s1 := .modTport h
  exact .ite (.next (.correctable h1)) (.next h)

/-! ## The matrix engines (03). -/

theorem memoriesOk.dropShadow (h : memoriesOk s) {c e0} : memoriesOk (s.dropShadow c e0) := by
  unfold State.dropShadow
  split
  · exact .ite (.count (.keep h)) h
  · exact h

theorem memoriesOk.placeCtx (h : memoriesOk s) {k0} : memoriesOk (s.placeCtx k0) := by
  unfold State.placeCtx
  split
  · exact h
  · split
    · exact .modCtx (.dropShadow h)
    · exact h

theorem memoriesOk.bindCtx (h : memoriesOk s) {t0 h0} : memoriesOk (s.bindCtx t0 h0).2 := by
  unfold State.bindCtx
  split
  · exact h
  · split
    · exact h
    · extract_lets _ _ s1
      have h1 : memoriesOk s1 := .spend (.modCompute h)
      exact .modThread h1
    · exact h

theorem memoriesOk.benchWrite (h : memoriesOk s) {t0 off bs} : memoriesOk (s.benchWrite t0 off bs) := by
  unfold State.benchWrite
  split
  · exact .winWrite h
  · exact h

theorem memoriesOk.queueMm (h : memoriesOk s) {t0 pc th r} : memoriesOk (s.queueMm t0 pc th r) := by
  unfold State.queueMm
  extract_lets _ b s1 _ _ _ s2
  have h1 : memoriesOk b.2 := .bindCtx h
  have h11 : memoriesOk s1 := h1
  have h2 : memoriesOk s2 := .modCtx h11
  exact .placeCtx (.fly (.modThread h2))

theorem memoriesOk.issueMm (h : memoriesOk s) {t0 op after} (hf : ∀ a0 t, memoriesOk t → memoriesOk (after a0 t)) : memoriesOk (s.issueMm t0 op after) := by
  unfold State.issueMm
  refine .issue h fun _ _ _ k => ?_
  extract_lets s1
  have h1 : memoriesOk s1 := .queueMm k
  split
  · exact hf _ _ h1
  · exact h1

theorem memoriesOk.modTiles (h : memoriesOk s) {c e0 f} : memoriesOk (s.modTiles c e0 f) := .modCore h
theorem memoriesOk.reserveTile (h : memoriesOk s) {c e0 mm} : memoriesOk (s.reserveTile c e0 mm) := .ite (.modTiles h) h
theorem memoriesOk.fillTile (h : memoriesOk s) {c mm dest bytes} : memoriesOk (s.fillTile c mm dest bytes) := .modCore h

theorem memoriesOk.retireRipe (h : memoriesOk s) {c e0} : memoriesOk (s.retireRipe c e0) := by
  unfold State.retireRipe
  extract_lets
  refine .ite h (.foldl (.retireEngine h) (fun _ _ k => ?_))
  extract_lets s1
  have h1 : memoriesOk s1 := .modCtx k
  exact .ite h1 (.placeCtx h1)

theorem memoriesOk.yieldCtx (h : memoriesOk s) {k0} : memoriesOk (s.yieldCtx k0) := by
  unfold State.yieldCtx
  split
  · exact h
  · exact .ite (.modCtx h) h

theorem memoriesOk.mmEnd (h : memoriesOk s) {k0 mm} : memoriesOk (s.mmEnd k0 mm) := by
  unfold State.mmEnd
  split
  · exact h
  · extract_lets s1
    have h1 : memoriesOk s1 := by
      unfold s1
      split
      · exact .retireRipe (.yieldCtx h)
      · exact h
    exact .ite h1 (.modThread h1)

theorem memoriesOk.startLoad (h : memoriesOk s) {k0 mm} : memoriesOk (s.startLoad k0 mm) := .modCtx h

theorem memoriesOk.sample (h : memoriesOk s) {c e0 k0 mm} : memoriesOk (s.sample c e0 k0 mm) := by
  unfold State.sample
  extract_lets _ _ _ _ s1
  have h1 : memoriesOk s1 := .spend h
  refine .ite h1 ?_
  split
  · exact .keep h1
  · exact .count h1

theorem memoriesOk.startRun (h : memoriesOk s) {c e0 k0 mm} : memoriesOk (s.startRun c e0 k0 mm) := by
  unfold State.startRun
  extract_lets _ s1 s2 s3 s4
  have h1 : memoriesOk s1 := .charge h
  have h2 : memoriesOk s2 := .modCtx h1
  have h3 : memoriesOk s3 := .spend h2
  have h4 : memoriesOk s4 := .ite (.startLoad h3) h3
  exact .sample (.reserveTile h4)

theorem memoriesOk.startEmission (h : memoriesOk s) {t0 k0 mm} : memoriesOk (s.startEmission t0 k0 mm) := by
  unfold State.startEmission
  extract_lets
  exact .modCtx h

theorem memoriesOk.cycle0 (h : memoriesOk s) {c e0} : memoriesOk (s.cycle0 c e0) := by
  unfold State.cycle0
  split
  · exact h
  · split
    · extract_lets _ _ _ s1
      have h1 : memoriesOk s1 := .reserveTile (.modCtx h)
      refine .ite h ?_
      split
      · exact .fault (.modThread (.modCtx h))
      · exact .ite (.startRun h) (.ite (.startLoad h1) (.startEmission h1))
    · exact h

theorem memoriesOk.fillEngine (h : memoriesOk s) {c e0} : memoriesOk (s.fillEngine c e0) := by
  unfold State.fillEngine
  extract_lets
  split
  · exact .ite (.modCtx (.dropShadow h)) h
  · exact h

theorem NextOk.execMmLoad (h : memoriesOk s) {t0} : NextOk (execMmLoad t0 s) := by
  unfold Machine.execMmLoad
  refine .next (.issueMm h (fun _ _ k1 => ?_))
  split
  · split
    · refine .ite ?_ k1
      split
      · exact .fault (.modThread (.modCtx k1))
      · exact .startLoad (.reserveTile (.modCtx k1))
    · exact k1
  · exact k1

theorem memoriesOk.benchFails (h : memoriesOk s) {t0 spans} : memoriesOk (s.benchFails t0 spans) := by
  unfold State.benchFails
  split
  · exact .ite (.endJob h) h
  · exact h

theorem memoriesOk.engineParity (h : memoriesOk s) {thread bad} : memoriesOk (s.engineParity thread bad) := by
  unfold State.engineParity
  split
  · exact .checkFails h
  · exact h

theorem NextOk.execMmLastCycle (h : memoriesOk s) {c e0 stale} : NextOk (execMmLastCycle c e0 stale s) := by
  unfold Machine.execMmLastCycle
  split
  · exact .next h
  · split
    · exact .next h
    · extract_lets _ _ s1 _ _ _ _ _ _ s2 s3 s4
      have h1 : memoriesOk s1 := .benchFails (.at_ h)
      have h2 : memoriesOk s2 := .modCtx h1
      have h3 : memoriesOk s3 := .saturated h2
      have h4 : memoriesOk s4 := .ite (.startEmission h3) (.fillTile h3)
      exact .next (.settleAll (.engineParity (.mmEnd h4)))

theorem NextOk.execShadowLoadComplete (h : memoriesOk s) {c e0} : NextOk (execShadowLoadComplete c e0 s) := by
  unfold Machine.execShadowLoadComplete
  split
  · exact .next h
  · split
    · exact .next h
    · extract_lets _ _ s1 _ _ s2 _ s3 s4
      have h1 : memoriesOk s1 := .at_ h
      have h2 : memoriesOk s2 := .benchFails h1
      have h3 : memoriesOk s3 := .modCtx h2
      have h4 : memoriesOk s4 := .ite (.fillTile h3) h3
      exact .next (.settleAll (.mmEnd h4))

theorem memoriesOk.report (h : memoriesOk s) {th site off amax} : memoriesOk (s.report th site off amax) := by
  unfold State.report
  extract_lets m
  clear_value m
  split
  · exact h
  · exact .modCompute h

theorem memoriesOk.emitted (h : memoriesOk s) {c th m d o x} : memoriesOk (s.emitted c th m d o x) := by
  unfold State.emitted
  extract_lets _ s1 s2 s3 s4 s5 s6
  have h1 : memoriesOk s1 := .benchWrite h
  have h2 : memoriesOk s2 := .ite h1 (.benchWrite h1)
  have h3 : memoriesOk s3 := by
    unfold s3
    split
    · exact .modJob (.modCore (.benchWrite h2))
    · exact h2
  have h4 : memoriesOk s4 := .saturated h3
  have h5 : memoriesOk s5 := by
    unfold s5
    split
    · exact .ite h4 (.report h4)
    · exact h4
  have h6 : memoriesOk s6 := .fillTile h5
  exact .ite (.implausible h6) h6

theorem NextOk.execEmissionComplete (h : memoriesOk s) {c e0} : NextOk (execEmissionComplete c e0 s) := by
  unfold Machine.execEmissionComplete
  split
  · exact .next h
  · split
    · exact .next h
    · extract_lets _ s1 _ _ done
      have h1 : memoriesOk s1 := .at_ h
      have hdone : ∀ s, memoriesOk s → memoriesOk (done s) := fun _ k => .modCtx k
      split
      · exact .next h
      · split
        · extract_lets _ s2
          have h2 : memoriesOk s2 := .ite (.fault (hdone _ h1)) (.fillTile (hdone _ (.benchWrite h1)))
          exact .next (.settleAll (.engineParity (.mmEnd h2)))
        · extract_lets s2
          have h2 : memoriesOk s2 := .ite (.fault (hdone _ h1)) (hdone _ (.emitted h1))
          exact .next (.settleAll (.engineParity (.mmEnd h2)))

/-! ## The vector unit (04). -/

theorem memoriesOk.unitEnd (h : memoriesOk s) {u} : memoriesOk (s.unitEnd u) := .modThread h

theorem memoriesOk.vxTake (h : memoriesOk s) {c} : memoriesOk (s.vxTake c) := by
  unfold State.vxTake
  extract_lets
  refine .ite h ?_
  split
  · exact h
  · extract_lets s1
    have h1 : memoriesOk s1 := .modCore h
    split
    · exact .fault (.unitEnd h1)
    · exact .modCore (.chargeVx h1)

theorem memoriesOk.queueVx (h : memoriesOk s) {t0 pc th r} : memoriesOk (s.queueVx t0 pc th r) := by
  unfold State.queueVx
  split
  · exact h
  · extract_lets _ _ s1 s2
    have h1 : memoriesOk s1 := .fly (.modThread h)
    have h2 : memoriesOk s2 := .modCompute h1
    exact .vxTake (.modCore h2)

theorem memoriesOk.issueVx (h : memoriesOk s) {t0 op} : memoriesOk (s.issueVx t0 op) := .issue h fun _ _ _ k => .queueVx k

theorem memoriesOk.vxApply (h : memoriesOk s) {c u d} : memoriesOk (s.vxApply c u d) := by
  unfold State.vxApply
  extract_lets s1 s2
  have h1 : memoriesOk s1 := .foldl h fun _ _ k => .benchWrite k
  have h2 : memoriesOk s2 := by
    unfold s2
    split
    · exact .modThread h1
    · exact h1
  exact .saturated h2

theorem NextOk.execVxComplete (h : memoriesOk s) {c} : NextOk (execVxComplete c s) := by
  unfold Machine.execVxComplete
  split
  · exact .next (.vxTake h)
  · extract_lets s1 _ _ s2 s3 s4
    have h1 : memoriesOk s1 := .at_ h
    have h2 : memoriesOk s2 := .benchFails h1
    have h3 : memoriesOk s3 := .ite (.fault h2) (.spend (.vxApply h2))
    have h4 : memoriesOk s4 := .unitEnd (.modCore h3)
    exact .next (.vxTake (.settleAll h4))

theorem NextOk.execTileQueueRemove (h : memoriesOk s) {c} : NextOk (execTileQueueRemove c s) := by
  unfold Machine.execTileQueueRemove
  extract_lets
  split
  · exact .next h
  · extract_lets s1 s2
    have h1 : memoriesOk s1 := .setCore h
    have h2 : memoriesOk s2 := .modThread h1
    exact .next h2

/-! ## Streams and collectives (11). -/

theorem memoriesOk.modStream (h : memoriesOk s) {k0 f} : memoriesOk (s.modStream k0 f) := .modSpan h

theorem memoriesOk.returnCredits (h : memoriesOk s) {k0} : memoriesOk (s.returnCredits k0) := by
  unfold State.returnCredits
  split
  · exact h
  · split
    · extract_lets s1
      have h1 : memoriesOk s1 := .modStream h
      exact .send (.modTport h1)
    · exact h

theorem memoriesOk.drawCredits (h : memoriesOk s) {k0 p key n} : memoriesOk (s.drawCredits k0 p key n) := by
  unfold State.drawCredits
  extract_lets s1
  have h1 : memoriesOk s1 := by
    unfold s1
    split
    · exact .ite h (.returnCredits h)
    · exact h
  exact .ite h1 (.modStream (.modTport h1))

theorem memoriesOk.streamLaunch (h : memoriesOk s) {k0 p} : memoriesOk (s.streamLaunch k0 p) := by
  unfold State.streamLaunch
  extract_lets s1
  have h1 : memoriesOk s1 := .modSpan h
  split
  · extract_lets _ _ s2 _ s3
    have h2 : memoriesOk s2 := .drawCredits h1
    have h3 : memoriesOk s3 := .modStream h2
    exact .enqueue h3
  · exact h1

theorem memoriesOk.streamSend (h : memoriesOk s) {k0 n} : memoriesOk (s.streamSend k0 n) := by
  induction n generalizing s with
  | zero =>
    rw [State.streamSend]
    exact .ite (.returnCredits h) h
  | succ n ih =>
    rw [State.streamSend]
    split
    · exact h
    · split
      · exact .ite (.returnCredits h) (.ite h (ih (.streamLaunch (.modStream h))))
      · exact .returnCredits h

theorem memoriesOk.streamAgain (h : memoriesOk s) {k0} : memoriesOk (s.streamAgain k0) := by
  unfold State.streamAgain
  split
  · exact h
  · exact .streamSend (.modStream (.foldl h (fun _ _ k => .streamLaunch k)))

theorem memoriesOk.dropStream (h : memoriesOk s) {k0} : memoriesOk (s.dropStream k0) := .modSpan (.returnCredits h)

theorem memoriesOk.openStreamAt (h : memoriesOk s) {first peer ptype addr req parts} : memoriesOk (s.openStreamAt first peer ptype addr req parts).2 := by
  unfold State.openStreamAt
  extract_lets _ s1
  have h1 : memoriesOk s1 := .modSpan h
  exact .streamSend h1

theorem memoriesOk.openStream (h : memoriesOk s) {peer ptype addr req parts} : memoriesOk (s.openStream peer ptype addr req parts).2 := .openStreamAt h
theorem memoriesOk.modInst (h : memoriesOk s) {k0 f} : memoriesOk (s.modInst k0 f) := .modSpan h
theorem memoriesOk.dropInst (h : memoriesOk s) {k0} : memoriesOk (s.dropInst k0) := .modSpan h

theorem memoriesOk.clLands (h : memoriesOk s) {i} : memoriesOk (s.clLands i) := by
  unfold State.clLands
  split
  · exact h
  · exact .modThread h

theorem memoriesOk.endInst (h : memoriesOk s) {i st member} : memoriesOk (s.endInst i st member) := by
  unfold State.endInst
  extract_lets s1 s2
  have h1 : memoriesOk s1 := .dropInst h
  have h2 : memoriesOk s2 := by
    unfold s2
    split
    · exact .completeWith h1
    · exact h1
  split
  · split
    · exact .endJobFor (.clLands h2)
    · exact h2
  · exact h2

theorem memoriesOk.endGaps (h : memoriesOk s) : memoriesOk s.endGaps := by
  unfold State.endGaps
  refine .foldl h fun _ _ k => ?_
  split
  · exact .endInst k
  · exact k

theorem memoriesOk.loseUnreachable (h : memoriesOk s) : memoriesOk s.loseUnreachable := by
  unfold State.loseUnreachable
  extract_lets s1
  have h1 : memoriesOk s1 := .modSpan h
  exact .endGaps h1

theorem memoriesOk.finishInst (h : memoriesOk s) {i} : memoriesOk (s.finishInst i) := by
  unfold State.finishInst
  split
  · exact h
  · split
    · extract_lets _ s1 _ s2 s3
      have h1 : memoriesOk s1 := by
        unfold s1
        split
        · exact .spotsWrite h
        · exact h
      have h2 : memoriesOk s2 := .spend h1
      have h3 : memoriesOk s3 := by
        unfold s3
        split
        · exact .saturated h2
        · exact h2
      split
      · exact .fault (.clLands (.dropInst h))
      · exact .settle (.clLands (.dropInst h3))
    · exact h

theorem memoriesOk.sendBytes (h : memoriesOk s) {i dests bs} : memoriesOk (s.sendBytes i dests bs) := .foldl h fun _ _ k => .openStream k
theorem memoriesOk.sendPart (h : memoriesOk s) {i} : memoriesOk (s.sendPart i) := .ite h (.sendBytes h)

theorem memoriesOk.instTurn (h : memoriesOk s) {k0} : memoriesOk (s.instTurn k0) := by
  unfold State.instTurn
  split
  · exact h
  · split
    · exact .finishInst h
    · extract_lets _ s1
      have h1 : memoriesOk s1 := .modInst (.spend h)
      exact .finishInst (.sendBytes h1)

theorem memoriesOk.instGo (h : memoriesOk s) {k0} : memoriesOk (s.instGo k0) := by
  unfold State.instGo
  split
  · exact h
  · exact .ite h (.instTurn (.sendPart (.modInst h)))

theorem memoriesOk.partDone (h : memoriesOk s) {k0} : memoriesOk (s.partDone k0) := by
  unfold State.partDone
  split
  · exact .ite (.dropInst h) h
  · exact h

theorem memoriesOk.clTake (h : memoriesOk s) {p} : memoriesOk (s.clTake p) := by
  unfold State.clTake
  extract_lets
  split
  · exact h
  · refine .ite h ?_
    extract_lets before
    clear_value before
    split
    · exact h
    · extract_lets
      exact .ite (.modInst h) (.partDone (.instTurn (.modInst h)))

theorem memoriesOk.leaderCheck (h : memoriesOk s) {k0} : memoriesOk (s.leaderCheck k0) := by
  unfold State.leaderCheck
  split
  · exact h
  · extract_lets _ odd s1
    have h1 : memoriesOk s1 := .record h
    refine .ite h ?_
    clear_value odd
    split
    · exact .endInst (.postAll h1)
    · exact .ite (.endInst (.postAll h)) (.instGo (.postAll h))

theorem memoriesOk.sendHeader (h : memoriesOk s) {k0} : memoriesOk (s.sendHeader k0) := by
  unfold State.sendHeader
  split
  · exact h
  · extract_lets _ s1
    have h1 : memoriesOk s1 := .modInst h
    exact .ite (.leaderCheck (.modInst h1)) (.post h1)

theorem memoriesOk.issueInst (h : memoriesOk s) {i} : memoriesOk (s.issueInst i) := by
  unfold State.issueInst
  extract_lets _ s1
  have h1 : memoriesOk s1 := .modSpan (.dropInst h)
  split
  · exact .endInst h1
  · exact .sendHeader h1

theorem memoriesOk.collective (h : memoriesOk s) {t0 op} : memoriesOk (s.collective t0 op) := by
  unfold State.collective
  refine .issue h fun _ _ _ k => ?_
  extract_lets _ _ _ _ s1 s2
  have h1 : memoriesOk s1 := .modThread (.fly k)
  have h2 : memoriesOk s2 := .modSpan h1
  exact .issueInst h2

theorem memoriesOk.backOff (h : memoriesOk s) {k0 r} : memoriesOk (s.backOff k0 r) := by
  unfold State.backOff
  extract_lets _ _ s1 _ s2
  have h1 : memoriesOk s1 := .foldl h fun _ _ k => .dropStream k
  have h2 : memoriesOk s2 := .modInst (.spend h1)
  split
  · split
    · exact .modJob h2
    · exact h2
  · exact h2

theorem NextOk.execClTimeout (h : memoriesOk s) {key} : NextOk (execClTimeout key s) := by
  unfold Machine.execClTimeout
  split
  · exact .next h
  · refine .ite (.next h) ?_
    extract_lets s1
    have h1 : memoriesOk s1 := .at_ h
    exact .ite (.next (.backOff (.postAll h1))) (.next (.endInst (.postAll h1)))

theorem NextOk.execInstanceRestart (h : memoriesOk s) {key} : NextOk (execInstanceRestart key s) := by
  unfold Machine.execInstanceRestart
  split
  · exact .next h
  · split
    · exact .next h
    · exact .ite (.next h) (.next (.sendHeader (.at_ h)))

/-! ## Commands that end before their time (12). -/

theorem memoriesOk.modSession (h : memoriesOk s) {h0 f} : memoriesOk (s.modSession h0 f) := .keep h

theorem memoriesOk.askUpdate (h : memoriesOk s) {c r used ended stop} : memoriesOk (s.askUpdate c r used ended stop) := by
  unfold State.askUpdate
  extract_lets _ s1 s2 s3
  have h1 : memoriesOk s1 := .hostWrite h
  have h2 : memoriesOk s2 := .hostWrite h1
  have h3 : memoriesOk s3 := .hostWrite h2
  exact .hostWrite h3

theorem memoriesOk.askEnd (h : memoriesOk s) {h0 x r stop st} : memoriesOk (s.askEnd h0 x r stop st) := by
  unfold State.askEnd
  extract_lets _ _ s1 s2
  have h1 : memoriesOk s1 := by
    unfold s1
    split
    · exact .askUpdate h
    · exact h
  have h2 : memoriesOk s2 := .completeWith h1
  exact .modSession h2

theorem memoriesOk.stopInst (h : memoriesOk s) {i} : memoriesOk (s.stopInst i) := .clLands (.dropInst (.postAll h))
theorem memoriesOk.dropWork (h : memoriesOk s) {id} : memoriesOk (s.dropWork id) := .keep h

theorem memoriesOk.endCmd (h : memoriesOk s) {id st stopped} : memoriesOk (s.endCmd id st stopped) := by
  unfold State.endCmd
  extract_lets s1 s2 _ s3
  have h1 : memoriesOk s1 := .ite (.foldl h (fun _ _ k => .stopInst k)) h
  have h2 : memoriesOk s2 := .dropWork h1
  have h3 : memoriesOk s3 := .keep h2
  split
  · exact .endJob h2
  · split
    · exact .askEnd h2
    · exact .fail h3

theorem memoriesOk.endCmdSilently (h : memoriesOk s) {id} : memoriesOk (s.endCmdSilently id) := by
  unfold State.endCmdSilently
  extract_lets s1 s2 job s3 s4
  have h1 : memoriesOk s1 := .foldl h fun _ _ k => .stopInst k
  have h2 : memoriesOk s2 := .dropWork h1
  have h3 : memoriesOk s3 := by
    unfold s3
    split
    · exact .modSession h2
    · exact h2
  have h4 : memoriesOk s4 := .dropCmd h3
  clear_value job
  split
  · exact .endJob h4
  · exact h4

theorem memoriesOk.cacheReply (h : memoriesOk s) {id cacheState tokens} : memoriesOk (s.cacheReply id cacheState tokens) := by
  unfold State.cacheReply
  split
  · exact h
  · extract_lets
    exact .completeWith (.hostWrite h)

/-! ## Rings, replies and grants (12). -/

theorem memoriesOk.latch (h : memoriesOk s) {p off v} : memoriesOk (s.latch p off v) := .keepHost h

theorem memoriesOk.freeze (h : memoriesOk s) {p r tag st op slot detail} : memoriesOk (s.freeze p r tag st op slot detail) := by
  unfold State.freeze
  extract_lets s1 _ _ _ s2
  have h1 : memoriesOk s1 := .modRing h
  have h2 : memoriesOk s2 := .record h1
  exact .keepHost h2

theorem memoriesOk.refuseDoorbell (h : memoriesOk s) {p r g} : memoriesOk (s.refuseDoorbell p r g) := .ite h (.freeze h)

theorem memoriesOk.setTail (h : memoriesOk s) {p r v} : memoriesOk (s.setTail p r v) := by
  unfold State.setTail
  split
  · exact h
  · exact .ite (.modRing h) (.refuseDoorbell h)

theorem memoriesOk.setReplyHead (h : memoriesOk s) {p r v} : memoriesOk (s.setReplyHead p r v) := by
  unfold State.setReplyHead
  split
  · exact h
  · exact .ite (.modRing h) (.refuseDoorbell h)

theorem memoriesOk.writeTail (h : memoriesOk s) {p r v} : memoriesOk (s.writeTail p r v) := .ite h (.ite (.latch h) (.setTail h))
theorem memoriesOk.writeReplyHead (h : memoriesOk s) {p r v} : memoriesOk (s.writeReplyHead p r v) := .ite h (.ite (.latch h) (.setReplyHead h))

theorem memoriesOk.fetchOne (h : memoriesOk s) {p r g} : memoriesOk (s.fetchOne p r g) := by
  unfold State.fetchOne
  extract_lets _ _ _ _ s1 _ s2
  have h1 : memoriesOk s1 := .modRing h
  have h2 : memoriesOk s2 := .keepHost h1
  split
  · exact .fail h2
  · exact h2

theorem memoriesOk.fetchFrom (h : memoriesOk s) {p r n} : memoriesOk (s.fetchFrom p r n) := by
  induction n generalizing s with
  | zero => exact h
  | succ n ih =>
    rw [State.fetchFrom]
    split
    · exact .ite (ih (.fetchOne h)) h
    · exact h

theorem NextOk.execCommandFetch (h : memoriesOk s) {p} : NextOk (execCommandFetch p s) := by
  unfold Machine.execCommandFetch
  split
  · exact .next h
  · extract_lets s1
    have h1 : memoriesOk s1 := .ite h (.modPort h)
    exact .next (.fetchFrom h1)

theorem memoriesOk.replyFails (h : memoriesOk s) {p r g x} : memoriesOk (s.replyFails p r g x) := .ite h (.ite (.keepHost h) (.freeze h))

theorem memoriesOk.writeReply (h : memoriesOk s) {p r g x} : memoriesOk (s.writeReply p r g x) := by
  unfold State.writeReply
  extract_lets s1
  have h1 : memoriesOk s1 := .hostWrite h
  exact .replyFails (.modRing h1)

theorem NextOk.execReplyWrite (h : memoriesOk s) {p ring} : NextOk (execReplyWrite p ring s) := by
  unfold Machine.execReplyWrite
  split
  · exact .next h
  · split
    · exact .next h
    · exact .ite (.next h) (.next (.writeReply h))

theorem NextOk.execMsixSignal (h : memoriesOk s) {p ring} : NextOk (execMsixSignal p ring s) := by
  unfold Machine.execMsixSignal
  split
  · exact .next h
  · refine .ite (.next h) (.ite (.next (.signal (.modRing h))) ?_)
    extract_lets s1
    have h1 : memoriesOk s1 := .ite h (.at_ h)
    exact .next (.signal (.modRing h1))

theorem NextOk.execXrdy (h : memoriesOk s) : NextOk (execXrdy s) := by
  unfold Machine.execXrdy
  split
  · exact .next h
  · extract_lets _ _ _ _ _ s1 s2
    have h1 : memoriesOk s1 := .modPort h
    have h2 : memoriesOk s2 := .modCmd h1
    exact .ite (.next h) (.next (.hold h2))

theorem memoriesOk.grantDone (h : memoriesOk s) {p g} : memoriesOk (s.grantDone p g) := by
  unfold State.grantDone
  extract_lets s1
  have h1 : memoriesOk s1 := .modPort h
  exact .modCmd h1

theorem memoriesOk.stray (h : memoriesOk s) {p kind v} : memoriesOk (s.stray p kind v) := .record h

theorem memoriesOk.pushInto (h : memoriesOk s) {p g off data} : memoriesOk (s.pushInto p g off data) := by
  unfold State.pushInto
  extract_lets _ _ _ _ _ _ _ s1 s2
  have h1 : memoriesOk s1 := .modCmd (.spend h)
  have h2 : memoriesOk s2 := .modPort h1
  exact .ite (.grantDone h2) h2

theorem NextOk.execPushWrite (h : memoriesOk s) {p offset data} : NextOk (execPushWrite p offset data s) := by
  unfold Machine.execPushWrite
  extract_lets _ s1 _ _ _ s2
  have h1 : memoriesOk s1 := .pathError h
  have h2 : memoriesOk s2 := .foldl h1 fun _ _ k => .ite (.completeWith k) (.pushInto k)
  exact .ite (.next h2) (.next (.stray h2))

theorem memoriesOk.setDataDone (h : memoriesOk s) {p v} : memoriesOk (s.setDataDone p v) := by
  unfold State.setDataDone
  split
  · exact .stray h
  · extract_lets _ s1
    have h1 : memoriesOk s1 := .modPort h
    exact .ite (.grantDone h1) h1

theorem memoriesOk.writeDataDone (h : memoriesOk s) {w} : memoriesOk (s.writeDataDone w) := by
  unfold State.writeDataDone
  split
  · exact h
  · exact .ite h (.ite (.latch h) (.setDataDone h))

theorem NextOk.execDataDoneWaitEnd (h : memoriesOk s) {grant} : NextOk (execDataDoneWaitEnd grant s) := by
  unfold Machine.execDataDoneWaitEnd
  extract_lets
  split
  · exact .next h
  · refine .ite (.next (.grantDone h)) ?_
    extract_lets s1
    have h1 : memoriesOk s1 := .at_ h
    exact .next (.completeWith h1)

theorem memoriesOk.deleteRing (h : memoriesOk s) {p r} : memoriesOk (s.deleteRing p r) := by
  unfold State.deleteRing
  extract_lets s1 s2
  have h1 : memoriesOk s1 := .foldl h fun _ _ k => .endCmdSilently k
  have h2 : memoriesOk s2 := .modPort h1
  exact .keepHost h2

theorem memoriesOk.clearPort (h : memoriesOk s) {p} : memoriesOk (s.clearPort p) := by
  unfold State.clearPort
  extract_lets s1 s2
  have h1 : memoriesOk s1 := .modPort h
  have h2 : memoriesOk s2 := .foldl h1 fun _ _ k => .endCmdSilently k
  exact .foldl h2 fun _ _ k => .deleteRing k

theorem memoriesOk.resetPort (h : memoriesOk s) {p cause} : memoriesOk (s.resetPort p cause) := by
  unfold State.resetPort
  extract_lets s1 s2
  have h1 : memoriesOk s1 := .clearPort h
  have h2 : memoriesOk s2 := .modPort h1
  exact .record h2

theorem NextOk.execPortReset (h : memoriesOk s) {p c} : NextOk (execPortReset p c s) := by
  unfold Machine.execPortReset
  split <;> exact .next (.resetPort h)

theorem memoriesOk.writeAdminEn (h : memoriesOk s) {w} : memoriesOk (s.writeAdminEn w) := by
  unfold State.writeAdminEn
  extract_lets
  split
  · exact h
  · exact .ite (.ite h (.modPort h)) (.ite (.resetPort h) h)

theorem NextOk.execCommandDeadlineExpired (h : memoriesOk s) {id} : NextOk (execCommandDeadlineExpired id s) := by
  unfold Machine.execCommandDeadlineExpired
  split
  · exact .next h
  · split
    · exact .next h
    · exact .ite (.next h) (.next (.endCmd (.at_ h)))

/-! ## Stops and starts (16). -/

theorem memoriesOk.reading (h : memoriesOk s) {k0 r held} : memoriesOk (s.reading k0 r held) := .keep h

theorem memoriesOk.enter (h : memoriesOk s) {t0} : memoriesOk (s.enter t0) := by
  unfold State.enter
  extract_lets _ _ s1
  have h1 : memoriesOk s1 := .keep h
  exact .record h1

theorem memoriesOk.reopenSecurity (h : memoriesOk s) {open_} : memoriesOk (s.reopenSecurity open_) := by
  unfold State.reopenSecurity
  extract_lets _ s1 s2
  have h1 : memoriesOk s1 := .secure h
  have h2 : memoriesOk s2 := .modMedia h1
  exact .ite h (.keep h2)

theorem memoriesOk.afterStop (h : memoriesOk s) : memoriesOk s.afterStop := by
  unfold State.afterStop
  extract_lets open_ s1
  have h1 : memoriesOk s1 := .reopenSecurity h
  exact .freeFlash (.tiersReset h1)

theorem memoriesOk.cutFw (h : memoriesOk s) : memoriesOk s.cutFw := .ite (.keep h) h
theorem memoriesOk.landSome (h : memoriesOk s) {keep} : memoriesOk (s.landSome keep) := .modMedia h

theorem memoriesOk.losePower (h : memoriesOk s) {landed} : memoriesOk (s.losePower landed) := by
  unfold State.losePower
  extract_lets s1 s2 s3 s4
  have h1 : memoriesOk s1 := .landSome h
  have h2 : memoriesOk s2 := .cutFw h1
  have h3 : memoriesOk s3 := .keep h2
  have h4 : memoriesOk s4 := .afterStop h3
  exact .keep h4

theorem memoriesOk.mapOut (h : memoriesOk s) {u i} : memoriesOk (s.mapOut u i) :=
  .ite (.retireEngine h) (.ite (.ite h (.retired (.jigChange h))) (.ite (.ite h (.retired (.jigChange h))) (.ite (.ite h (.retired (.jigChange h))) (.ite
    (.ite h (.retired (.jigChange h))) (.ite (.retireCore h) h)))))

theorem memoriesOk.tryFail (h : memoriesOk s) {f} : memoriesOk (s.tryFail f) := by
  unfold State.tryFail
  extract_lets s1
  have h1 : memoriesOk s1 := .setErr (.record h)
  exact .ite (.keep h1) (.mapOut h1)

theorem memoriesOk.boot (h : memoriesOk s) : memoriesOk s.boot := .ite (.keep h) (.ite (.keep h) (.keep h))

theorem memoriesOk.takeConfig (h : memoriesOk s) {ok} : memoriesOk (s.takeConfig ok) := by
  unfold State.takeConfig
  refine .ite (.keepHost h) ?_
  extract_lets _ _ _ _ s1
  have h1 : memoriesOk s1 := .keepHost h
  exact .record h1

theorem memoriesOk.takeSecurity (h : memoriesOk s) {ok} : memoriesOk (s.takeSecurity ok) := by
  unfold State.takeSecurity
  extract_lets
  exact .ite (.keep h) (.keep h)

theorem memoriesOk.fwEvent (h : memoriesOk s) : memoriesOk s.fwEvent := .ite (.record (.keep h)) h

theorem memoriesOk.refreshCopies (h : memoriesOk s) : memoriesOk s.refreshCopies := by
  unfold State.refreshCopies
  extract_lets
  exact .keep h

theorem memoriesOk.start (h : memoriesOk s) {o lost first} : memoriesOk (s.start o lost first) := by
  unfold State.start
  extract_lets _ _ _ s1 s2 s3 _ _ _ s4 s5 s6 s7
  have h1 : memoriesOk s1 := .keep h
  have h2 : memoriesOk s2 := .ite (.record h1) h1
  have h3 : memoriesOk s3 := .recordAll h2
  have h4 : memoriesOk s4 := .keep h3
  have h5 : memoriesOk s5 := .takeSecurity (.takeConfig h4)
  have h6 : memoriesOk s6 := .modMedia h5
  have h7 : memoriesOk s7 := .refreshCopies (.fwEvent (.boot h6))
  exact .retrainAll (.foldl h7 (fun _ _ k => .tryFail k))

theorem memoriesOk.resetModule (h : memoriesOk s) {o first} : memoriesOk (s.resetModule o first) := by
  unfold State.resetModule
  extract_lets _ _ s1 s2 s3 s4 _ s5
  have h1 : memoriesOk s1 := .landSome (.spend h)
  have h2 : memoriesOk s2 := .cutFw h1
  have h3 : memoriesOk s3 := .keep h2
  have h4 : memoriesOk s4 := .afterStop h3
  have h5 : memoriesOk s5 := .keep h4
  exact .start h5

theorem NextOk.execPowerGood (h : memoriesOk s) {slotId smbAddrSel o} : NextOk (execPowerGood slotId smbAddrSel o s) := by
  unfold Machine.execPowerGood
  refine .ite (.next h) ?_
  extract_lets _ _ _ s1
  have h1 : memoriesOk s1 := .keep h
  exact .next (.start h1)

theorem NextOk.execPowerLoss (h : memoriesOk s) {landed} : NextOk (execPowerLoss landed s) := .ite (.next (.losePower h)) (.next h)

theorem NextOk.execThermalHardStop (h : memoriesOk s) {sensor reading landed} : NextOk (execThermalHardStop sensor reading landed s) := by
  unfold Machine.execThermalHardStop
  extract_lets _ s1
  have h1 : memoriesOk s1 := .losePower (.reading h)
  exact .ite (.next (.keep h1)) (.next h)

theorem NextOk.execModuleReset (h : memoriesOk s) {w o} : NextOk (execModuleReset w o s) := by
  unfold Machine.execModuleReset
  split
  · exact .next h
  · exact .ite (.next (.resetModule h)) (.next h)

theorem NextOk.execWatchdogExpired (h : memoriesOk s) {bringUp o} : NextOk (execWatchdogExpired bringUp o s) := by
  unfold Machine.execWatchdogExpired
  refine .ite (.next h) (.ite (.ite (.next h) ?_) (.next (.resetModule h)))
  extract_lets s1 _ _ _ _ s2
  have h1 : memoriesOk s1 := .at_ h
  have h2 : memoriesOk s2 := .keep h1
  exact .next (.resetModule h2)

theorem NextOk.execEntropyHealthTestFailure (h : memoriesOk s) {o} : NextOk (execEntropyHealthTestFailure o s) := .ite (.next (.resetModule (.keep h))) (.next h)
theorem memoriesOk.loadBoot (h : memoriesOk s) : memoriesOk s.loadBoot := .keep h

theorem memoriesOk.setReady (h : memoriesOk s) {f} : memoriesOk (s.setReady f) := by
  unfold State.setReady
  extract_lets set _ _ s1 _ s2 _ s3
  have hset : ∀ s i, memoriesOk s → memoriesOk (set s i) := fun _ _ k => .keep k
  have h1 : memoriesOk s1 := hset _ _ h
  have h2 : memoriesOk s2 := hset _ _ h
  have h3 : memoriesOk s3 := hset _ _ h
  refine .ite h ?_
  split
  · exact .keep h1
  · exact .ite h (.keep h2)
  · exact .ite h (.ite h3 (hset _ _ (.loadBoot h3)))
  · exact .ite (hset _ _ h) h
  · exact .ite (hset _ _ h) h
  · exact .ite (hset _ _ (.loadBoot h)) h

/-! ## Power states, Hibernate and wake (16). -/

theorem NextOk.execOperatingTimeSave (h : memoriesOk s) : NextOk (execOperatingTimeSave s) := .ite (.next (.keep h)) (.next h)

theorem NextOk.execTemperatureSample (h : memoriesOk s) {readings} : NextOk (execTemperatureSample readings s) :=
  .ite (.next (.foldl h (fun _ _ k => .reading k))) (.next h)

theorem NextOk.execMediaStateUpdate (h : memoriesOk s) : NextOk (execMediaStateUpdate s) := .ite (.next (.refreshCopies h)) (.next h)
theorem memoriesOk.makeTail (h : memoriesOk s) : memoriesOk s.makeTail := .pagesProgrammed (.keep h)
theorem NextOk.execTailImage (h : memoriesOk s) : NextOk (execTailImage s) := .ite (.next (.makeTail h)) (.next h)

theorem NextOk.execFuseBlow (h : memoriesOk s) : NextOk (execFuseBlow s) := by
  unfold Machine.execFuseBlow
  refine .ite ?_ (.next h)
  extract_lets s1
  have h1 : memoriesOk s1 := .at_ h
  exact .next (.keep h1)

theorem memoriesOk.configure (h : memoriesOk s) {p config} : memoriesOk (s.configure p config) := by
  unfold State.configure
  extract_lets s1
  have h1 : memoriesOk s1 := .modPort h
  exact .foldl (.modPort h1) fun _ _ k => .signal k

theorem NextOk.execPcieLinkUp (h : memoriesOk s) {p speed width mps config} : NextOk (execPcieLinkUp p speed width mps config s) := by
  unfold Machine.execPcieLinkUp
  extract_lets
  exact .ite (.next (.configure (.modPort h))) (.next h)

theorem NextOk.execIdleTimerExpiry (h : memoriesOk s) : NextOk (execIdleTimerExpiry s) := by
  unfold Machine.execIdleTimerExpiry
  extract_lets _ s1
  have h1 : memoriesOk s1 := .at_ h
  refine .ite (.next h) ?_
  split
  · exact .ite (.next h) (.next (.enter h))
  · exact .ite (.next h) (.ite (.next (.keep h)) (.next (.enter (.refreshCopies (.at_ h)))))
  · exact .ite (.next h) (.next (.keep h1))
  · exact .next h

theorem NextOk.execHibernateEntry (h : memoriesOk s) : NextOk (execHibernateEntry s) := by
  unfold Machine.execHibernateEntry
  split
  · exact .next h
  · refine .ite (.next (.keep h)) (.ite (.next h) ?_)
    extract_lets _ _ _ s1 s2 _ s3 s4 s5 s6
    have h1 : memoriesOk s1 := (memoriesOk_iff.mp h).elim fun ht hh => memoriesOk_iff.mpr ⟨ht.saveImage, hh⟩
    have h2 : memoriesOk s2 := .refreshCopies (.pagesProgrammed h1)
    have h3 : memoriesOk s3 := .keep h2
    have h4 : memoriesOk s4 := .foldl h3 fun _ _ k => .succeed k
    have h5 : memoriesOk s6 := .makeTail (.enter h4)
    exact .next ((memoriesOk_iff.mp h5).elim fun ht hh => memoriesOk_iff.mpr ⟨ht.powerOff, hh⟩)

theorem memoriesOk.applyLatched (h : memoriesOk s) : memoriesOk s.applyLatched := by
  unfold State.applyLatched
  extract_lets _ _ s1
  have h1 : memoriesOk s1 := .keepHost h
  exact .foldl h1 fun _ _ k => .ite (.setDataDone k) (.ite (.setTail k) (.setReplyHead k))

theorem memoriesOk.wakeUp (h : memoriesOk s) : memoriesOk s.wakeUp := by
  unfold State.wakeUp
  split
  · exact h
  · exact .enter h
  · exact .applyLatched (.enter h)
  · extract_lets _ _ _ s1
    have h1 : memoriesOk s1 := (memoriesOk_iff.mp h).elim fun ht hh => memoriesOk_iff.mpr ⟨ht.restoreImage, hh⟩
    exact .retrainAll (.applyLatched (.enter h1))

theorem NextOk.execWake (h : memoriesOk s) {e0} : NextOk (execWake e0 s) :=
  .ite (.next h) (.ite (.next (.wakeUp (.keep h))) (.ite (.next (.keep h)) (.ite (.next h) (.next (.wakeUp h)))))

theorem memoriesOk.clockStep (h : memoriesOk s) {q up} : memoriesOk (s.clockStep q up) := by
  unfold State.clockStep
  extract_lets
  exact .keep h

theorem NextOk.execPowerCapControl (h : memoriesOk s) {watts} : NextOk (execPowerCapControl watts s) := by
  unfold Machine.execPowerCapControl
  refine .ite (.next h) ?_
  extract_lets _ _ s1 _ _ _ s2 s3
  have h1 : memoriesOk s1 := .keep h
  have h2 : memoriesOk s2 := .foldl (.keep h1) fun _ _ k => .clockStep k
  have h3 : memoriesOk s3 := .foldl (.keep h1) fun _ _ k => .ite k (.clockStep k)
  exact .ite (.next (.ite h2 (.policyActed h2))) (.ite (.ite (.next (.policyActed (.keep h3))) (.next h3)) (.next (.keep h1)))

theorem memoriesOk.throttled (h : memoriesOk s) {sensor r} : memoriesOk (s.throttled sensor r) := .record h

theorem memoriesOk.quarterHeat (h : memoriesOk s) {q sensor r} : memoriesOk (s.quarterHeat q sensor r) := by
  unfold State.quarterHeat
  extract_lets _ _ _ _ s1 _ s2
  have h1 : memoriesOk s1 := .keep h
  have h2 : memoriesOk s2 := .keep h1
  exact .ite (.throttled (.clockStep (.keep h1))) (.ite (.clockStep h1) (.ite (.ite h2 (.clockStep h2)) h1))

theorem memoriesOk.flashHeat (h : memoriesOk s) {g sensor r} : memoriesOk (s.flashHeat g sensor r) := .ite (.throttled (.keep h)) (.ite (.keep h) h)

theorem NextOk.execThermalThrottle (h : memoriesOk s) {sensor reading} : NextOk (execThermalThrottle sensor reading s) :=
  .ite (.next h) (.ite (.next (.quarterHeat h)) (.ite (.next (.flashHeat h)) (.next h)))

/-! ## Owner, Sentinel and Stopwork (12). -/

theorem memoriesOk.signalDue (h : memoriesOk s) {p r} : memoriesOk (s.signalDue p r) := by
  unfold State.signalDue
  split
  · exact h
  · extract_lets
    exact .ite h (.foldl (.modRing h) (fun _ _ k => .signal k))

theorem memoriesOk.flushRing (h : memoriesOk s) {p r n} : memoriesOk (s.flushRing p r n) := by
  induction n generalizing s with
  | zero => exact h
  | succ n ih =>
    rw [State.flushRing]
    split
    · exact h
    · split
      · exact h
      · exact .ite h (ih (.signalDue (.writeReply h)))

theorem memoriesOk.replyEnding (h : memoriesOk s) {id} : memoriesOk (s.replyEnding id) := by
  unfold State.replyEnding
  split
  · split <;> exact .jobReply h
  · exact h

theorem memoriesOk.takeOver (h : memoriesOk s) {auto} : memoriesOk (s.takeOver auto).2 := by
  unfold State.takeOver
  extract_lets _ s1 _ s2 s3 s4 _ _ _ s5
  have h1 : memoriesOk s1 := .modPort h
  have h2 : memoriesOk s2 := .foldl h1 fun _ _ k => .replyEnding (.endCmd k)
  have h3 : memoriesOk s3 := .ite (.foldl h2 (fun _ _ k => .flushRing (.signalDue k))) h2
  have h4 : memoriesOk s4 := .modPort h3
  have h5 : memoriesOk s5 := .keepHost h4
  exact .record h5

theorem NextOk.execTakeover (h : memoriesOk s) {id} : NextOk (execTakeover id s) := by
  unfold Machine.execTakeover
  split
  · exact .next h
  · refine .ite (.next (.ite (.succeed h) h)) (.ite (.next h) (.ite (.next (.fail h)) (.ite (.next (.fail h)) (.ite (.next (.fail h)) (.ite ?_ ?_)))))
    · extract_lets _ r
      have h1 : memoriesOk r.2 := .takeOver (.secure (.keep h))
      exact .next (.stage h1)
    · extract_lets r
      have h1 : memoriesOk r.2 := .takeOver h
      exact .next (.succeed h1)

theorem memoriesOk.writeHbControl (h : memoriesOk s) {w} : memoriesOk (s.writeHbControl w) := by
  unfold State.writeHbControl
  split
  · exact h
  · exact .ite (.keepHost h) h

theorem memoriesOk.writeHbKick (h : memoriesOk s) {w} : memoriesOk (s.writeHbKick w) := by
  unfold State.writeHbKick
  split
  · exact h
  · exact .ite (.keepHost h) h

theorem NextOk.execHeartbeatMissed (h : memoriesOk s) : NextOk (execHeartbeatMissed s) := by
  unfold Machine.execHeartbeatMissed
  refine .ite (.next h) ?_
  extract_lets _ s1 s2 _ s3 _ r
  have h1 : memoriesOk s1 := .at_ h
  have h2 : memoriesOk s2 := .record h1
  have h3 : memoriesOk s3 := .keepHost h2
  have h4 : memoriesOk r.2 := .takeOver (.wakeUp h3)
  exact .ite (.next (.hold h4)) (.next h3)

theorem memoriesOk.swAccept (h : memoriesOk s) : memoriesOk s.swAccept := .keepHost h
theorem memoriesOk.swRefuse (h : memoriesOk s) : memoriesOk s.swRefuse := .keepHost h
theorem memoriesOk.swHalt (h : memoriesOk s) {x} : memoriesOk (s.swHalt x) := .ite (.keepHost h) h
theorem memoriesOk.swRelease (h : memoriesOk s) {x} : memoriesOk (s.swRelease x) := .keepHost h

theorem memoriesOk.abandon (h : memoriesOk s) : memoriesOk s.abandon := by
  unfold State.abandon
  extract_lets _ _ s1
  have h1 : memoriesOk s1 := .keep h
  exact .foldl h1 fun _ _ k => .spend (.cacheReply k)

theorem memoriesOk.swAbort (h : memoriesOk s) {x} : memoriesOk (s.swAbort x) := by
  unfold State.swAbort
  extract_lets s1
  have h1 : memoriesOk s1 := .ite (.foldl h (fun _ _ k => .endCmd k)) h
  exact .ite (.abandon h1) h1

theorem memoriesOk.swHibernate (h : memoriesOk s) : memoriesOk s.swHibernate := by
  unfold State.swHibernate
  extract_lets s1
  have h1 : memoriesOk s1 := .swAbort h
  exact .ite h1 (.ite (.record h1) (.keep h1))

theorem memoriesOk.writeStopwork (h : memoriesOk s) {w} : memoriesOk (s.writeStopwork w) := by
  unfold State.writeStopwork
  refine .ite h ?_
  split
  · exact .swRefuse h
  · exact .swAccept (.swHalt h)
  · exact .swAccept (.swAbort h)
  · exact .swAccept (.swHibernate h)
  · exact .swAccept (.swRelease h)

theorem memoriesOk.swRow (h : memoriesOk s) {w a} : memoriesOk (s.swRow w a) := by
  unfold State.swRow
  split
  · exact .ite (.writeStopwork h) h
  · exact .writeStopwork h

/-! ## Registers (18). -/

theorem memoriesOk.policyWrite (h : memoriesOk s) {w off old next put} (hf : ∀ t a1, memoriesOk t → memoriesOk (put t a1))
  : memoriesOk (s.policyWrite w off old next put) := by
  unfold State.policyWrite
  split
  · exact h
  · refine .ite ?_ h
    extract_lets
    exact .record (hf _ _ h)

theorem memoriesOk.writePowerCap (h : memoriesOk s) {w} : memoriesOk (s.writePowerCap w) := .policyWrite h fun _ _ k => .keep k
theorem memoriesOk.writeRegPolicy (h : memoriesOk s) {w} : memoriesOk (s.writeRegPolicy w) := .policyWrite h fun _ _ k => .keep k

theorem memoriesOk.writePcset (h : memoriesOk s) {c w} : memoriesOk (s.writePcset c w) := by
  unfold State.writePcset
  extract_lets
  exact .policyWrite h fun _ _ k => .keep k

theorem memoriesOk.writeWays (h : memoriesOk s) {q w} : memoriesOk (s.writeWays q w) := .policyWrite h fun _ _ k => .keepTiers k
theorem memoriesOk.writePlane (h : memoriesOk s) {w} : memoriesOk (s.writePlane w) := .policyWrite h fun _ _ k => .keep k
theorem memoriesOk.writeBucket (h : memoriesOk s) {w} : memoriesOk (s.writeBucket w) := .policyWrite h fun _ _ k => .keep k
theorem memoriesOk.writeIntegrity (h : memoriesOk s) {w} : memoriesOk (s.writeIntegrity w) := .policyWrite h fun _ _ k => .keep k
theorem memoriesOk.writeMediaPolicy (h : memoriesOk s) {w} : memoriesOk (s.writeMediaPolicy w) := .policyWrite h fun _ _ k => .keep k

theorem memoriesOk.clearErr (h : memoriesOk s) {w} : memoriesOk (s.clearErr w) := by
  unfold State.clearErr
  split
  · exact h
  · exact .ite (.keep h) h

theorem memoriesOk.writeMsix (h : memoriesOk s) {off w} : memoriesOk (s.writeMsix off w) := by
  unfold State.writeMsix
  extract_lets
  split
  · exact h
  · extract_lets _ s1
    have h1 : memoriesOk s1 := .modPort h
    exact .ite (.signal (.modPort h1)) h1

theorem memoriesOk.writeAdminReg (h : memoriesOk s) {off w} : memoriesOk (s.writeAdminReg off w) := by
  unfold State.writeAdminReg
  extract_lets
  split
  · exact h
  · exact .ite h (.modPort h)

theorem memoriesOk.writeErrIrq (h : memoriesOk s) {w} : memoriesOk (s.writeErrIrq w) := by
  unfold State.writeErrIrq
  split
  · exact h
  · exact .ite (.keep h) h

theorem NextOk.execRegisterWrite (h : memoriesOk s) {offset w} : NextOk (execRegisterWrite offset w s) :=
  .ite (.next h) (.ite (.next (.ite (.writeStopwork h) (.swRefuse h))) (.ite (.next h) (.ite (.next (.writePowerCap h)) (.ite (.next (.writeRegPolicy h))
    (.ite (.next (.writePcset h)) (.ite (.next (.writePcset h)) (.ite (.next (.writePcset h)) (.ite (.next (.writeWays h)) (.ite (.next (.writePlane h))
    (.ite (.next (.writeBucket h)) (.ite (.next (.writeIntegrity h)) (.ite (.next (.writeMediaPolicy h)) (.ite (.next (.clearErr h)) (.ite (.next (.writeErrIrq h))
    (.ite (.next (.writeAdminReg h)) (.ite (.next (.writeAdminEn h)) (.ite (.next (.writeHbControl h)) (.ite (.next (.writeHbKick h)) (.ite (.next
    (.ite (.writeTail h) (.writeReplyHead h))) (.ite (.next (.writeDataDone h)) (.ite (.next (.writeMsix h)) (.next h))))))))))))))))))))))

theorem NextOk.execSmbusRead (h : memoriesOk s) {k0 code} : NextOk (execSmbusRead k0 code s) := by
  unfold Machine.execSmbusRead
  refine .ite ?_ (.next h)
  extract_lets
  exact .next (.keep h)

theorem memoriesOk.smbBad (h : memoriesOk s) : memoriesOk s.smbBad := .keep h

theorem NextOk.execSmbusWriteWord (h : memoriesOk s) {k0 code value pec} : NextOk (execSmbusWriteWord k0 code value pec s) := by
  unfold Machine.execSmbusWriteWord
  refine .ite (.next h) (.ite ?_ (.next (.smbBad h)))
  extract_lets
  exact .next (.record (.keep h))

theorem NextOk.execSmbusBusRelease (h : memoriesOk s) : NextOk (execSmbusBusRelease s) := by
  unfold Machine.execSmbusBusRelease
  refine .ite (.next ?_) (.next h)
  extract_lets s1
  have h1 : memoriesOk s1 := .at_ h
  exact .keep h1

/-! ## Admin commands (13). -/

theorem memoriesOk.checked (h : memoriesOk s) {c err go} (hf : ∀ t, memoriesOk t → memoriesOk (go t)) : memoriesOk (s.checked c err go) := by
  unfold State.checked
  split
  · exact .fail h
  · exact .ite (.endCmd h) (hf _ h)

theorem NextOk.execIdentify (h : memoriesOk s) {id} : NextOk (execIdentify id s) := by
  unfold Machine.execIdentify
  split
  · exact .next h
  · exact .next (.checked h (fun _ k => .succeed (.hostWrite k)))

theorem NextOk.execGetLog (h : memoriesOk s) {id} : NextOk (execGetLog id s) := by
  unfold Machine.execGetLog
  split
  · exact .next h
  · refine .next (.checked h (fun _ k => ?_))
    extract_lets
    exact .succeed (.hostWrite k)

theorem NextOk.execGetFeature (h : memoriesOk s) {id} : NextOk (execGetFeature id s) := by
  unfold Machine.execGetFeature
  split
  · exact .next h
  · refine .next (.checked h (fun _ k => ?_))
    extract_lets
    exact .succeed (.hostWrite k)

theorem NextOk.execRingCreate (h : memoriesOk s) {id} : NextOk (execRingCreate id s) := by
  unfold Machine.execRingCreate
  split
  · exact .next h
  · extract_lets
    exact .next (.checked h (fun _ k => .succeed (.modPort k)))

theorem NextOk.execRingDelete (h : memoriesOk s) {id} : NextOk (execRingDelete id s) := by
  unfold Machine.execRingDelete
  split
  · exact .next h
  · extract_lets
    exact .next (.checked h (fun _ k => .succeed (.deleteRing k)))

theorem NextOk.execRingRestart (h : memoriesOk s) {id} : NextOk (execRingRestart id s) := by
  unfold Machine.execRingRestart
  split
  · exact .next h
  · extract_lets
    split
    · exact .next (.fail h)
    · refine .next (.checked h (fun _ k => .ite ?_ (.stage k)))
      extract_lets _ s1 _ s2
      have h1 : memoriesOk s1 := .modRing k
      have h2 : memoriesOk s2 := .keepHost h1
      exact .succeed h2

theorem NextOk.execPowerSet (h : memoriesOk s) {id} : NextOk (execPowerSet id s) := by
  unfold Machine.execPowerSet
  split
  · exact .next h
  · refine .ite (.next h) (.ite (.next (.checked h (fun _ k => .succeed (.wakeUp k)))) ?_)
    extract_lets
    refine .next (.checked h (fun _ k => ?_))
    extract_lets s1
    have h1 : memoriesOk s1 := .stage k
    exact .keep h1

/-! ## Media management's own steps (02). -/

theorem NextOk.execVeneerTarget (h : memoriesOk s) : NextOk (execVeneerTarget s) := by
  unfold Machine.execVeneerTarget
  extract_lets _ _ s1 s2
  have h1 : memoriesOk s1 := .modMedia h
  have h2 : memoriesOk s2 := .ite (.modMedia h1) h1
  exact .ite (.next (.policyActed (.modMedia h2))) (.next h2)

theorem memoriesOk.advance (h : memoriesOk s) {r} : memoriesOk (s.advance r) := by
  unfold State.advance
  split
  · extract_lets
    exact .ite (.readSpots (.modMedia h)) h
  · exact .modMedia h
  · exact h

theorem NextOk.execFold (h : memoriesOk s) {lstripe pstripe} : NextOk (execFold lstripe pstripe s) := by
  unfold Machine.execFold
  extract_lets
  split
  · exact .next (.ite (.advance h) h)
  · split
    · exact .next (.modMedia h)
    · split
      · exact .next (.modMedia h)
      · exact .next h

theorem memoriesOk.relocate (h : memoriesOk s) {lstripe pstripe merge} : memoriesOk (s.relocate lstripe pstripe merge) := by
  unfold State.relocate
  extract_lets
  split
  · exact .ite (.advance h) h
  · split
    · exact h
    · refine .ite (.ite (.modMedia h) h) ?_
      extract_lets
      exact .ite (.modMedia h) h

theorem NextOk.execJournalProgram (h : memoriesOk s) : NextOk (execJournalProgram s) := by
  unfold Machine.execJournalProgram
  refine .ite (.next h) ?_
  extract_lets s1
  have h1 : memoriesOk s1 := .modMedia h
  exact .next (.ite (.modMedia h1) h1)

theorem NextOk.execCheckpoint (h : memoriesOk s) : NextOk (execCheckpoint s) := .ite (.next h) (.next (.modMedia h))

theorem memoriesOk.decodeSlots (h : memoriesOk s) {g c n} : memoriesOk (s.decodeSlots g c n) := by
  unfold State.decodeSlots
  split
  · exact .modMedia h
  · extract_lets s1
    have h1 : memoriesOk s1 := .keep h
    exact .modMedia h1

theorem memoriesOk.ladderDecode (h : memoriesOk s) {die c l} : memoriesOk (s.ladderDecode die c l) := by
  unfold State.ladderDecode
  extract_lets _ s1
  have h1 : memoriesOk s1 := .decodeSlots h
  exact .ite h1 (.decodeSlots (.decodeSlots h1))

theorem memoriesOk.ladderDone (h : memoriesOk s) {die p owner sectors l} : memoriesOk (s.ladderDone die p owner sectors l) := by
  unfold State.ladderDone
  extract_lets s1 s2 s3
  have h1 : memoriesOk s1 := .ite h (.correctable h)
  have h2 : memoriesOk s2 := .ite (.count h1) h1
  have h3 : memoriesOk s3 := by
    unfold s3
    split
    · exact .ite h2 (.modMedia h2)
    · exact h2
  exact .ite (.uncorrectable h3) h3

theorem memoriesOk.reread (h : memoriesOk s) {x upTo} : memoriesOk (s.reread x upTo) := .foldl h fun _ _ k => .readSpot k

theorem memoriesOk.threeSenses (h : memoriesOk s) {x} : memoriesOk (s.threeSenses x) := by
  unfold State.threeSenses
  extract_lets s1
  have h1 : memoriesOk s1 := .foldl h fun _ _ k => .readSpot k
  exact .modMedia h1

theorem memoriesOk.ladderReads (h : memoriesOk s) {x l} : memoriesOk (s.ladderReads x l) := by
  unfold State.ladderReads
  extract_lets
  split
  · exact h
  · exact .reread h
  · exact .threeSenses (.reread h)
  · exact .readSpots (.threeSenses (.reread h))

theorem NextOk.execLdpcDecode (h : memoriesOk s) {d c owner sectors l} : NextOk (execLdpcDecode d c owner sectors l s) := by
  unfold Machine.execLdpcDecode
  extract_lets s1 spot s2
  have h1 : memoriesOk s1 := .ladderDecode h
  have h2 : memoriesOk s2 := by
    unfold s2
    clear_value spot
    split
    · exact .ladderReads h1
    · exact h1
  exact .next (.ladderDone h2)

theorem memoriesOk.suspendFor (h : memoriesOk s) {d} : memoriesOk (s.suspendFor d) := by
  unfold State.suspendFor
  extract_lets
  split
  · exact .ite h (.modMedia (.setDie h))
  · exact h

theorem NextOk.execPatrol (h : memoriesOk s) {d pstripe heavy l offsets} : NextOk (execPatrol d pstripe heavy l offsets s) := by
  unfold Machine.execPatrol
  extract_lets s1 _ _ s2 s3 s4 s5 s6 _ s7
  have h1 : memoriesOk s1 := .modMedia h
  have h2 : memoriesOk s2 := .loadSets h1
  have h3 : memoriesOk s3 := .foldl h2 fun _ _ k => .countReads k
  have h4 : memoriesOk s4 := .ladderDecode h3
  have h5 : memoriesOk s5 := .ladderDone h4
  have h6 : memoriesOk s6 := .ite (.modMedia h5) h5
  have h7 : memoriesOk s7 := .modMedia h6
  exact .ite (.next (.policyActed h7)) (.next h6)

theorem memoriesOk.rebuildShares (h : memoriesOk s) {group b} : memoriesOk (s.rebuildShares group b) := by
  unfold State.rebuildShares
  extract_lets _ _ _ s1
  have h1 : memoriesOk s1 := .ite h (.policyActed h)
  exact .modMedia h1

theorem NextOk.execRebuild (h : memoriesOk s) {pstripe member pos block} : NextOk (execRebuild pstripe member pos block s) := by
  unfold Machine.execRebuild
  extract_lets _ _ _ s1 s2 _ s3
  have h1 : memoriesOk s1 := .modMedia h
  have h2 : memoriesOk s2 := .ite h1 (.modMedia h1)
  have h3 : memoriesOk s3 := .modMedia h
  split
  · exact .ite (.next (.rebuildShares h2)) (.next h)
  · exact .ite (.next (.rebuildShares h3)) (.next h)

/-! ## Block commands (13). -/

theorem NextOk.execVolumeCreate (h : memoriesOk s) {id} : NextOk (execVolumeCreate id s) := by
  unfold Machine.execVolumeCreate
  split
  · exact .next h
  · extract_lets
    refine .ite (.next (.ite (.succeed h) h)) (.ite (.next h) (.next (.checked h (fun _ k => ?_))))
    extract_lets s1
    have h1 : memoriesOk s1 := .secure (.modMedia k)
    exact .stage h1

theorem NextOk.execVolumeDelete (h : memoriesOk s) {id} : NextOk (execVolumeDelete id s) := by
  unfold Machine.execVolumeDelete
  split
  · exact .next h
  · extract_lets
    refine .ite (.next (.ite (.succeed h) h)) (.next (.checked h (fun _ k => .ite (.stage k) ?_)))
    extract_lets s1 s2
    have h1 : memoriesOk s1 := .cryptoErase k
    have h2 : memoriesOk s2 := .modMedia h1
    exact .stage h2

theorem memoriesOk.scatter (h : memoriesOk s) {p l bs} : memoriesOk (s.scatter p l bs) := by
  induction l generalizing s bs with
  | nil => exact h
  | cons e l ih => exact ih (.hostWrite h)

theorem NextOk.execRead (h : memoriesOk s) {id bad fault} : NextOk (execRead id bad fault s) := by
  unfold Machine.execRead
  split
  · exact .next h
  · extract_lets
    refine .ite (.next h) (.ite (.next h) (.next (.checked h (fun _ k => .ite (.fail k) ?_))))
    extract_lets _ lost _ _ s1 s2
    have h1 : memoriesOk s1 := .count (.count (.readSpots k))
    have h2 : memoriesOk s2 := .spend (.scatter h1)
    clear_value lost
    split
    · exact .succeed h2
    · exact .completeWith (.uncorrectable h2)

theorem memoriesOk.rewritten (h : memoriesOk s) {o first n} : memoriesOk (s.rewritten o first n) := .keep h

theorem NextOk.execWrite (h : memoriesOk s) {id} : NextOk (execWrite id s) := by
  unfold Machine.execWrite
  split
  · exact .next h
  · extract_lets _ _ _ _ _ s1
    have h1 : memoriesOk s1 := .rewritten h
    exact .ite (.ite (.next h) (.next (.checked h (fun _ k => .modCmd (.stage (.modMedia k)))))) (.ite (.ite (.next (.stage (.modMedia h))) (.next h))
      (.ite (.next (.succeed (.keep h1))) (.next h)))

theorem NextOk.execDeallocate (h : memoriesOk s) {id} : NextOk (execDeallocate id s) := by
  unfold Machine.execDeallocate
  split
  · exact .next h
  · extract_lets
    refine .ite (.ite (.next h) (.next (.checked h (fun _ k => ?_)))) (.ite (.next (.succeed (.rewritten h))) (.next h))
    extract_lets _ s1 s2
    have h1 : memoriesOk s1 := .modMedia k
    have h2 : memoriesOk s2 := .stage h1
    exact .ite (.succeed (.rewritten h2)) h2

theorem NextOk.execFlush (h : memoriesOk s) {id} : NextOk (execFlush id s) := by
  unfold Machine.execFlush
  split
  · exact .next h
  · extract_lets
    exact .ite (.next h) (.next (.checked h (fun _ k => .ite (.stage k) (.succeed k))))

/-! ## What the item commands share (07; 09; 10). -/

theorem memoriesOk.modItems (h : memoriesOk s) {f} : memoriesOk (s.modItems f) := .keep h
theorem memoriesOk.modServ (h : memoriesOk s) {f} : memoriesOk (s.modServ f) := .keep h
theorem memoriesOk.freeCache (h : memoriesOk s) {key x} : memoriesOk (s.freeCache key x) := .freeFlash (.keep h)

theorem memoriesOk.dropCache (h : memoriesOk s) {key} : memoriesOk (s.dropCache key) := by
  unfold State.dropCache
  split
  · exact h
  · exact .ite (.modServ h) (.freeCache h)

theorem memoriesOk.dropCaches (h : memoriesOk s) {lead} : memoriesOk (s.dropCaches lead) := .foldl h fun _ _ k => .dropCache k

theorem memoriesOk.unitRun (h : memoriesOk s) {id failed ok} : memoriesOk (s.unitRun id failed ok).2 := by
  unfold State.unitRun
  refine .iteSnd h ?_
  extract_lets s1 _ s2
  have h1 : memoriesOk s1 := .count (.setErr h)
  have h2 : memoriesOk s2 := .spend (.record h1)
  exact .iteSnd h2 (.iteSnd (.count (.spend (.record h2))) (.iteSnd (.count h2) (.fail h2)))

/-! ## Item commands (13). -/

theorem memoriesOk.startDecode (h : memoriesOk s) {w bytes} : memoriesOk (s.startDecode w bytes) := by
  unfold State.startDecode
  split
  · exact .modServ h
  · exact h

theorem memoriesOk.passUsed (h : memoriesOk s) {p} : memoriesOk (s.passUsed p) := .keep h
theorem memoriesOk.endDecode (h : memoriesOk s) {w} : memoriesOk (s.endDecode w) := .modServ h

theorem SomeOk.sendPut (h : memoriesOk s) {c p} : SomeOk (s.sendPut c p) := by
  unfold State.sendPut
  extract_lets
  exact .ite .none (.map (fun _ => .keep h))

theorem NextOk.execItemPut (h : memoriesOk s) {id pass} : NextOk (execItemPut id pass s) := by
  unfold Machine.execItemPut
  split
  · exact .next h
  · extract_lets plan _ _ _ _ s1
    have h1 : memoriesOk s1 := .passUsed (.endDecode h)
    refine .ite (.next (.checked h (fun _ k => .modCmd (.stage (.modMedia k))))) (.ite ?_ (.next h))
    clear_value plan
    split
    · exact .next (.fail (.endDecode h))
    · refine .ite (.next h) (.ite (.next (.startDecode h)) (.ite (.next h) (.ite (.next (.fail h1)) ?_)))
      split
      · rename_i e1
        exact .next (.stage (.of_snd e1 (.unitRun h1)))
      · rename_i e1
        split
        · rename_i e2
          exact .next (.stage (.of_some e2 (.sendPut (.of_snd e1 (.unitRun h1)))))
        · exact .next (.fail (.of_snd e1 (.unitRun h1)))

theorem NextOk.execItemDelete (h : memoriesOk s) {id} : NextOk (execItemDelete id s) := by
  unfold Machine.execItemDelete
  split
  · exact .next h
  · extract_lets go
    have hgo : ∀ s i, memoriesOk s → memoriesOk (go s i) := fun _ _ k => .ite (.stage k) (.stage (.modItems k))
    refine .ite ?_ (.ite (.next (hgo _ _ h)) (.next h))
    split
    · exact .next (.fail h)
    · exact .next (.checked h (fun _ k => hgo _ _ k))

theorem NextOk.execAttrSet (h : memoriesOk s) {id} : NextOk (execAttrSet id s) := by
  unfold Machine.execAttrSet
  split
  · exact .next h
  · refine .ite (.next h) ?_
    split
    · exact .next (.fail h)
    · refine .next (.checked h (fun _ k => ?_))
      extract_lets
      exact .stage (.modItems (.modMedia k))

theorem NextOk.execItemGet (h : memoriesOk s) {id unreadable} : NextOk (execItemGet id unreadable s) := by
  unfold Machine.execItemGet
  split
  · exact .next h
  · extract_lets
    split
    · exact .next (.fail h)
    · extract_lets b _ spots
      clear_value b spots
      refine .ite (.next h) (.next (.checked h fun _ k => ?_))
      extract_lets s1
      have h1 : memoriesOk s1 := .readSpots k
      exact .ite (.fail (.spend (.uncorrectable h1))) (.succeed (.hostWrite h1))

theorem memoriesOk.formatAreas (h : memoriesOk s) {dims width} : memoriesOk (s.formatAreas dims width) := by
  unfold State.formatAreas
  extract_lets s1 s2 s3 s4
  have h1 : memoriesOk s1 := .foldl h fun _ _ k => .dropCache k
  have h2 : memoriesOk s2 := .foldl h1 fun _ _ k => .cryptoErase k
  have h3 : memoriesOk s3 := .modMedia h2
  have h4 : memoriesOk s4 := .secure h3
  exact .spend (.modItems h4)

theorem NextOk.execItemsFormat (h : memoriesOk s) {id} : NextOk (execItemsFormat id s) := by
  unfold Machine.execItemsFormat
  split
  · exact .next h
  · refine .ite (.next (.ite (.succeed h) h)) (.next (.checked h (fun _ k => .ite (.stage k) ?_)))
    extract_lets s1
    have h1 : memoriesOk s1 := .formatAreas k
    exact .stage h1

/-! ## The index (09). -/

theorem memoriesOk.addNodes (h : memoriesOk s) {leaf l} : memoriesOk (s.addNodes leaf l).2 := by
  unfold State.addNodes
  refine .foldlSnd h fun _ _ k => ?_
  extract_lets _ _ s1
  have h1 : memoriesOk s1 := k
  exact .spend (.keep h1)

theorem memoriesOk.upperLevels (h : memoriesOk s) {n level cs} : memoriesOk (s.upperLevels n level cs).2 := by
  induction n generalizing s level cs with
  | zero => exact h
  | succ n ih =>
    rw [State.upperLevels]
    split
    · exact .addNodes h
    · exact ih (.addNodes h)

theorem memoriesOk.newLeaves (h : memoriesOk s) {l} : memoriesOk (s.newLeaves l).2 := .addNodes h

theorem memoriesOk.commitTree (h : memoriesOk s) {leaves turn} : memoriesOk (s.commitTree leaves turn) := by
  unfold State.commitTree
  extract_lets top
  have hop : memoriesOk top.2 := .upperLevels h
  exact .modItems hop

theorem memoriesOk.openQuads (h : memoriesOk s) {homes} : memoriesOk (s.openQuads homes) := by
  unfold State.openQuads
  extract_lets
  exact .ite (.modMedia h) h

theorem memoriesOk.commitMerge (h : memoriesOk s) {r} : memoriesOk (s.commitMerge r) := by
  unfold State.commitMerge
  extract_lets
  exact .modItems (.commitTree h)

theorem NextOk.execIndexMerge (h : memoriesOk s) {plan} : NextOk (execIndexMerge plan s) := by
  unfold Machine.execIndexMerge
  refine .ite (.next h) ?_
  split
  · exact .ite (.next (.commitMerge h)) (.next (.openQuads h))
  · refine .ite (.next (.openQuads h)) ?_
    split
    · exact .next h
    · extract_lets s1 _ _ new
      have h1 : memoriesOk s1 := .at_ h
      have hew : memoriesOk new.2 := .newLeaves (.openQuads h1)
      exact .ite (.next h1) (.next (.modItems hew))

theorem memoriesOk.reclaimItem (h : memoriesOk s) {i} : memoriesOk (s.reclaimItem i) := by
  unfold State.reclaimItem
  split
  · exact h
  · extract_lets _ s1 s2
    have h1 : memoriesOk s1 := .dropCaches h
    have h2 : memoriesOk s2 := .modMedia h1
    exact .modItems (.keep h2)

theorem memoriesOk.freeOther (h : memoriesOk s) : memoriesOk s.freeOther := .modItems (.modMedia h)

theorem memoriesOk.freeOld (h : memoriesOk s) : memoriesOk s.freeOld := by
  unfold State.freeOld
  extract_lets
  exact .ite (.freeOther h) h

theorem memoriesOk.freeQuads (h : memoriesOk s) : memoriesOk s.freeQuads := by
  unfold State.freeQuads
  refine .ite h ?_
  extract_lets
  exact .modMedia h

theorem memoriesOk.reclaim (h : memoriesOk s) : memoriesOk s.reclaim := by
  unfold State.reclaim
  extract_lets s1 _ _ s2 s3
  have h1 : memoriesOk s1 := .modItems h
  have h21 : memoriesOk s2 := .modItems h1
  have h3 : memoriesOk s3 := .foldl h21 fun _ _ k => .reclaimItem k
  exact .freeQuads (.modItems (.freeOld h3))

theorem NextOk.execReclaim (h : memoriesOk s) : NextOk (execReclaim s) := .ite (.next h) (.next (.reclaim h))

theorem memoriesOk.sent (h : memoriesOk s) {o} (ho : NextOk o) : memoriesOk (s.sent o) := by
  unfold State.sent
  split
  · exact ho
  · exact h

theorem memoriesOk.issueScan (h : memoriesOk s) {d l chain} : memoriesOk (s.issueScan d l chain) := by
  unfold State.issueScan
  extract_lets _ s1 s2
  have h1 : memoriesOk s1 := .foldl h fun _ _ k => .sent k (.execLoadQuery k)
  have h2 : memoriesOk s2 := .sent h1 (.execLoadChain h1)
  exact .sent h2 (.execScan h2)

theorem memoriesOk.collect (h : memoriesOk s) {d} : memoriesOk (s.collect d) := by
  unfold State.collect
  split
  · exact h
  · extract_lets
    exact .ite h (.ite (.modItems h) (.modItems h))

theorem memoriesOk.collectAll (h : memoriesOk s) : memoriesOk s.collectAll := .foldl h fun _ _ k => .collect k

theorem NextOk.execDieScanIssue (h : memoriesOk s) {d} : NextOk (execDieScanIssue d s) := by
  unfold Machine.execDieScanIssue
  extract_lets s1 q
  have h1 : memoriesOk s1 := .collect h
  clear_value q
  split
  · exact .next h1
  · extract_lets _ _ s2
    have h2 : memoriesOk s2 := .issueScan (.loadSets h1)
    exact .ite (.ite (.next h1) (.next (.ite (.modItems h2) h1))) (.ite (.next (.suspendFor h1)) (.next h1))

/-! ## Searches (09). -/

theorem memoriesOk.openQuery (h : memoriesOk s) {who bitmap deadline flags} : memoriesOk (s.openQuery who bitmap deadline flags) := .modItems h

theorem memoriesOk.startQuery (h : memoriesOk s) {who q} : memoriesOk (s.startQuery who q) := by
  unfold State.startQuery
  split
  · exact h
  · extract_lets
    exact .modItems h

theorem memoriesOk.readmit (h : memoriesOk s) : memoriesOk s.readmit := by
  unfold State.readmit
  refine .foldl h fun _ _ k => ?_
  extract_lets _ s1
  have h1 : memoriesOk s1 := .modItems k
  split
  · exact .startQuery h1
  · exact h1

theorem memoriesOk.afterSearch (h : memoriesOk s) {f} : memoriesOk (s.afterSearch f) := by
  unfold State.afterSearch
  extract_lets _ s1
  have h1 : memoriesOk s1 := .ite h (.uncorrectable h)
  exact .spend (.modItems h1)

theorem memoriesOk.runQuery (h : memoriesOk s) {who r} : memoriesOk (s.runQuery who r).1 := by
  unfold State.runQuery
  extract_lets s1
  have h1 : memoriesOk s1 := .collectAll h
  split
  · exact h1
  · split
    · exact h1
    · split
      · exact h1
      · exact .afterSearch (.readSpots h1)

theorem NextOk.execSearch (h : memoriesOk s) {id r} : NextOk (execSearch id r s) := by
  unfold Machine.execSearch
  split
  · exact .next h
  · refine .ite ?_ ?_
    · extract_lets
      refine .next (.checked h (fun _ k => ?_))
      split
      · rename_i e1
        exact .stage (.of_snd e1 (.unitRun k))
      · rename_i e1
        refine .ite (.fail (.uncorrectable (.of_snd e1 (.unitRun k)))) ?_
        extract_lets s1
        have h1 : memoriesOk s1 := .modItems (.of_snd e1 (.unitRun k))
        exact .stage (.startQuery (.openQuery h1))
    · split
      · exact .next h
      · refine .ite (.next (.fail (.dropWork h))) ?_
        split
        · rename_i e2
          exact .next (.of_fst e2 (.runQuery h))
        · rename_i e2
          extract_lets _ _ s1
          have h1 : memoriesOk s1 := .dropWork (.hostWrite (.of_fst e2 (.runQuery h)))
          exact .next (.completeWith h1)

theorem NextOk.execResumeAfterReads (h : memoriesOk s) {d} : NextOk (execResumeAfterReads d s) := by
  unfold Machine.execResumeAfterReads
  extract_lets s1
  have h1 : memoriesOk s1 := by
    refine .ite ?_ h
    split
    · exact .at_ h
    · exact h
  exact .ite (.next (.modMedia (.setDie h1))) (.next h1)

/-! ## Commits and bitmaps (09). -/

theorem memoriesOk.commitPut (h : memoriesOk s) {c held p e0} : memoriesOk (s.commitPut c held p e0) := by
  unfold State.commitPut
  extract_lets _ _ _ _ s1 _ _ s2 _ _ s3
  have h1 : memoriesOk s1 := .modItems h
  have h21 : memoriesOk s2 := .ite (.modServ h1) h1
  have h3 : memoriesOk s3 := .hostWrite h21
  exact .ite (.stage h3) (.completeWith h3)

theorem memoriesOk.stopBuilds (h : memoriesOk s) {lead} : memoriesOk (s.stopBuilds lead) := by
  unfold State.stopBuilds
  extract_lets _ s1
  have h1 : memoriesOk s1 := .modServ h
  refine .foldl h1 fun _ _ k => ?_
  split
  · exact .cacheReply k
  · exact k

theorem memoriesOk.commitDel (h : memoriesOk s) {i e0} : memoriesOk (s.commitDel i e0) := by
  unfold State.commitDel
  split
  · exact h
  · exact .ite h (.stopBuilds (.modItems h))

theorem memoriesOk.commitAttr (h : memoriesOk s) {i slot mask value} : memoriesOk (s.commitAttr i slot mask value) := by
  unfold State.commitAttr
  split
  · exact h
  · extract_lets
    exact .modItems h

theorem memoriesOk.commitOne (h : memoriesOk s) {e0 m} : memoriesOk (s.commitOne e0 m) := by
  unfold State.commitOne
  split
  · exact h
  · extract_lets done
    have hdone : ∀ s, memoriesOk s → memoriesOk (done s) := fun _ k => .succeed k
    split
    · exact .commitPut h
    · exact hdone _ (.commitDel h)
    · exact hdone _ (.commitAttr h)

theorem NextOk.execCommitGroup (h : memoriesOk s) : NextOk (execCommitGroup s) := by
  unfold Machine.execCommitGroup
  extract_lets _ _ s1
  have h1 : memoriesOk s1 := .modItems h
  exact .ite (.next h) (.next (.readmit (.foldl h1 (fun _ _ k => .commitOne k))))

theorem memoriesOk.putBitmap (h : memoriesOk s) {k0 b} : memoriesOk (s.putBitmap k0 b) := .fitPool (.readmit (.modItems h))

theorem NextOk.execBitmapLoad (h : memoriesOk s) {id} : NextOk (execBitmapLoad id s) := by
  unfold Machine.execBitmapLoad
  split
  · exact .next h
  · extract_lets
    exact .ite (.next (.checked h (fun _ k => .modCmd (.stage k)))) (.ite (.next (.succeed (.putBitmap h))) (.next h))

theorem NextOk.execBitmapBuild (h : memoriesOk s) {id} : NextOk (execBitmapBuild id s) := by
  unfold Machine.execBitmapBuild
  split
  · exact .next h
  · extract_lets
    refine .next (.checked h (fun _ k => ?_))
    extract_lets
    exact .succeed (.putBitmap k)

theorem NextOk.execBitmapFree (h : memoriesOk s) {id} : NextOk (execBitmapFree id s) := by
  unfold Machine.execBitmapFree
  split
  · exact .next h
  · exact .next (.checked h (fun _ k => .succeed (.modItems k)))

/-! ## Context caches (07 R246 to R251). -/

theorem SomeOk.makeCache (h : memoriesOk s) {b model} : SomeOk (s.makeCache b model) := by
  unfold State.makeCache
  refine .bind fun _ => .bind fun _ => ?_
  extract_lets
  exact .map fun _ => .keep h

theorem memoriesOk.unfilled (h : memoriesOk s) {p} : memoriesOk (s.unfilled p) := .keep h

theorem memoriesOk.trimCaches (h : memoriesOk s) {n} : memoriesOk (State.trimCaches n s) := by
  induction n generalizing s with
  | zero => exact h
  | succ n ih =>
    rw [State.trimCaches]
    split
    · exact h
    · exact ih (.policyActed (.freeCache h))

theorem memoriesOk.trimmed (h : memoriesOk s) : memoriesOk s.trimmed := .trimCaches h

theorem NextOk.execCacheBuild (h : memoriesOk s) {lead ok} : NextOk (execCacheBuild lead ok s) := by
  unfold Machine.execCacheBuild
  split
  · exact .next h
  · split
    · exact .next h
    · extract_lets _ s1 built r
      have h1 : memoriesOk s1 := .modServ h
      have hbuilt : SomeOk built := .ite .none (.makeCache h1)
      have hr : memoriesOk r.1 := by
        unfold r
        clear_value built
        split
        · exact .trimmed (hbuilt _ rfl)
        · exact h1
      refine .ite (.next h) (.ite (.next (.startDecode h)) (.ite (.next h) ?_))
      split
      · exact .next (.cacheReply hr)
      · exact .next hr

theorem memoriesOk.applyPolicy (h : memoriesOk s) : memoriesOk s.applyPolicy := by
  unfold State.applyPolicy
  extract_lets
  exact .trimmed (.foldl h (fun _ _ k => .dropCache k))

theorem memoriesOk.setFeature (h : memoriesOk s) {n v} : memoriesOk (s.setFeature n v) := .ite (.applyPolicy (.keep h)) (.keep h)

theorem NextOk.execSetFeature (h : memoriesOk s) {id} : NextOk (execSetFeature id s) := by
  unfold Machine.execSetFeature
  split
  · exact .next h
  · extract_lets
    exact .next (.checked h (fun _ k => .succeed (.setFeature k)))

theorem NextOk.execCacheGet (h : memoriesOk s) {id} : NextOk (execCacheGet id s) := by
  unfold Machine.execCacheGet
  split
  · exact .next h
  · split
    · exact .next (.fail h)
    · refine .next (.checked h (fun _ k => ?_))
      split
      · exact .succeed (.hostWrite k)
      · exact .succeed k

theorem NextOk.execCacheDrop (h : memoriesOk s) {id} : NextOk (execCacheDrop id s) := by
  unfold Machine.execCacheDrop
  split
  · exact .next h
  · extract_lets
    exact .next (.checked h (fun _ k => .succeed (.foldl k (fun _ _ k1 => .dropCache k1))))

/-! ## Sessions and ASK (10). -/

theorem memoriesOk.raise (h : memoriesOk s) {ranges} : memoriesOk (s.raise ranges) := by
  unfold State.raise
  refine .foldl h fun _ _ k => .ite (.useTile k) ?_
  extract_lets s1
  have h1 : memoriesOk s1 := .movedHome (.makeRoom (.movedHome k))
  exact .modTiers h1

theorem memoriesOk.homeSession (h : memoriesOk s) {ranges} : memoriesOk (s.homeSession ranges) := .modMedia h

theorem memoriesOk.takeOwn (h : memoriesOk s) {h0 room tokens} : memoriesOk (s.takeOwn h0 room tokens) := by
  unfold State.takeOwn
  split
  · exact h
  · extract_lets
    exact .spend (.raise (.homeSession (.modSession h)))

theorem memoriesOk.takeRun (h : memoriesOk s) {h0 lead key lo hi} : memoriesOk (s.takeRun h0 lead key lo hi) := by
  unfold State.takeRun
  split
  · exact h
  · extract_lets
    exact .raise (.homeSession (.modSession h))

theorem memoriesOk.useSession (h : memoriesOk s) {x} : memoriesOk (s.useSession x) := .foldl h fun _ _ k => .useTile k

theorem NextOk.execSessionOpen (h : memoriesOk s) {id} : NextOk (execSessionOpen id s) := by
  unfold Machine.execSessionOpen
  split
  · exact .next h
  · extract_lets _ _ _ err make
    have hmake : ∀ s, memoriesOk s → memoriesOk (make s) := by
      intro _ k
      unfold make
      extract_lets _ _ s1
      have h1 : memoriesOk s1 := .modServ k
      exact .succeed (.ite h1 (.takeOwn h1))
    refine .ite (.next (.checked h (fun _ k => .modCmd (.stage k)))) (.ite (.next h) ?_)
    clear_value err
    split
    · exact .next (.fail h)
    · exact .ite (.next (.fail h)) (.ite (.next (.fail h)) (.ite (.next (hmake _ h)) (.ite (.next (.stage h)) (.next h))))

theorem memoriesOk.startBuild (h : memoriesOk s) {pol lead model} : memoriesOk (s.startBuild pol lead model).2 := by
  unfold State.startBuild
  refine .iteSnd h (.iteSnd h ?_)
  split
  · exact h
  · exact .modServ h

theorem memoriesOk.placeGroup (h : memoriesOk s) {c pol room r built handle y} : memoriesOk (s.placeGroup c pol room r built handle y).2 := by
  unfold State.placeGroup
  split
  · exact h
  · split
    · exact h
    · exact h
    · extract_lets _ _ s1
      have h1 : memoriesOk s1 := .modServ h
      exact .iteSnd h (.serviceReads (.takeRun h1))

theorem memoriesOk.placeAll (h : memoriesOk s) {c pol room r built l} : memoriesOk (s.placeAll c pol room r built l).2 := by
  unfold State.placeAll
  refine .foldlSnd h fun _ _ k => ?_
  extract_lets p
  have h1 : memoriesOk p.2 := .placeGroup k
  exact h1

theorem memoriesOk.beginAsk (h : memoriesOk s) {c x found} : memoriesOk (s.beginAsk c x found) := by
  unfold State.beginAsk
  extract_lets _ go
  have ho : memoriesOk go.2 := by
    refine .foldlSnd (.dropWork h) fun _ _ k => .iteSnd k ?_
    extract_lets b
    have h1 : memoriesOk b.2 := .startBuild k
    exact h1
  exact .stage (.modSession ho)

theorem memoriesOk.placeAsk (h : memoriesOk s) {c x run} : memoriesOk (s.placeAsk c x run) := by
  unfold State.placeAsk
  extract_lets _ placed _ s1
  have hlaced : memoriesOk placed.2 := .placeAll (.serviceReads h)
  have h1 : memoriesOk s1 := .trimmed (.modSession (.takeOwn hlaced))
  exact .stage (.hostWrite h1)

theorem memoriesOk.askFails (h : memoriesOk s) {id st} : memoriesOk (s.askFails id st) := .fail (.dropWork h)

theorem NextOk.execAsk (h : memoriesOk s) {id r} : NextOk (execAsk id r s) := by
  unfold Machine.execAsk
  split
  · exact .next h
  · split
    · exact .next (.askFails h)
    · refine .ite (.next (.checked h (fun _ k => ?_))) (.ite ?_ (.ite ?_ ?_))
      · extract_lets
        exact .modCmd (.stage (.openQuery k))
      · split
        · exact .next h
        · refine .ite (.next (.askFails h)) ?_
          split
          · rename_i e3
            exact .next (.of_fst e3 (.runQuery h))
          · rename_i e3
            exact .next (.beginAsk (.of_fst e3 (.runQuery h)))
      · extract_lets _ _ s1
        have h1 : memoriesOk s1 := .unfilled h
        split
        · exact .next (.askFails h)
        · refine .ite (.next (.stage h)) (.ite (.next h) ?_)
          split
          · rename_i e3
            exact .next (.stage (.of_snd e3 (.unitRun h1)))
          · rename_i e3
            extract_lets _ s2
            have h2 : memoriesOk s2 := .modItems (.of_snd e3 (.unitRun h1))
            exact .ite (.next (.askFails (.of_snd e3 (.unitRun h1)))) (.ite (.next (.beginAsk (.of_snd e3 (.unitRun h1)))) (.next (.stage (.startQuery h2))))
      · split
        · exact .next h
        · exact .ite (.next (.placeAsk h)) (.next h)

theorem NextOk.execAskProgressUpdate (h : memoriesOk s) {session} : NextOk (execAskProgressUpdate session s) := by
  unfold Machine.execAskProgressUpdate
  split
  · exact .next h
  · split
    · exact .next h
    · split
      · exact .next h
      · refine .ite (.next h) (.ite (.next (.serviceReads h)) ?_)
        extract_lets _ _ _ _ s1
        have h1 : memoriesOk s1 := .modSession (.spend (.useSession h))
        split
        · exact .next (.askEnd h1)
        · exact .next (.modSession (.askUpdate h1))

theorem memoriesOk.closeSession (h : memoriesOk s) {h0 x} : memoriesOk (s.closeSession h0 x) := by
  unfold State.closeSession
  extract_lets _ s1 s2 s3
  have h1 : memoriesOk s1 := .foldl h fun _ _ k => .askFails k
  have h2 : memoriesOk s2 := .freeFlash (.modServ h1)
  have h3 : memoriesOk s3 := by
    refine .foldl h2 fun _ _ k => ?_
    split
    · exact .ite (.freeCache k) k
    · exact k
  exact .trimmed h3

theorem NextOk.execSessionClose (h : memoriesOk s) {id} : NextOk (execSessionClose id s) := by
  unfold Machine.execSessionClose
  split
  · exact .next h
  · split
    · exact .next (.fail h)
    · exact .next (.checked h (fun _ k => .ite (.modSession (.stage k)) (.succeed (.closeSession k))))

/-! ## Adaptation (10). -/

theorem NextOk.execAdaptStart (h : memoriesOk s) {id} : NextOk (execAdaptStart id s) := by
  unfold Machine.execAdaptStart
  split
  · exact .next h
  · extract_lets
    split
    · exact .next (.completeWith h)
    · refine .next (.checked h (fun _ k => ?_))
      extract_lets _ _ s1
      have h1 : memoriesOk s1 := .ite (.modMedia k) k
      exact .succeed (.modServ h1)

theorem memoriesOk.trainStep (h : memoriesOk s) {a lost} : memoriesOk (s.trainStep a lost) := by
  unfold State.trainStep
  extract_lets _ _ _ _ _ _ _ s1
  have h1 : memoriesOk s1 := .hbmWrite h
  exact .spend (.modServ h1)

theorem memoriesOk.reindexStep (h : memoriesOk s) {a lost} : memoriesOk (s.reindexStep a lost) := by
  unfold State.reindexStep
  extract_lets
  exact .keep h

theorem memoriesOk.reindexEnd (h : memoriesOk s) {a} : memoriesOk (s.reindexEnd a) := by
  unfold State.reindexEnd
  refine .ite ?_ (.ite (.modServ h) h)
  extract_lets new
  have hew : memoriesOk new.2 := .newLeaves h
  exact .modItems hew

theorem memoriesOk.adaptFails (h : memoriesOk s) {a st} : memoriesOk (s.adaptFails a st) := .modServ h

theorem NextOk.execAdaptStep (h : memoriesOk s) {lost} : NextOk (execAdaptStep lost s) := by
  unfold Machine.execAdaptStep
  split
  · exact .next h
  · extract_lets
    exact .ite (.next h) (.ite (.next (.adaptFails h)) (.ite (.next (.adaptFails h)) (.ite (.next h) (.ite (.next (.trainStep (.passUsed h)))
      (.ite (.next (.reindexEnd (.passUsed h))) (.next (.reindexStep (.passUsed h))))))))

theorem NextOk.execAdaptStatus (h : memoriesOk s) {id} : NextOk (execAdaptStatus id s) := by
  unfold Machine.execAdaptStatus
  split
  · exact .next h
  · extract_lets
    exact .next (.succeed h)

theorem memoriesOk.endAdapt (h : memoriesOk s) : memoriesOk s.endAdapt := .modServ (.modMedia h)

theorem SomeSndOk.storeTrained (h : memoriesOk s) {a} : SomeSndOk (s.storeTrained a) := by
  unfold State.storeTrained
  extract_lets
  exact .map fun _ => .keep h

theorem memoriesOk.switchIndex (h : memoriesOk s) {a} : memoriesOk (s.switchIndex a) := by
  unfold State.switchIndex
  extract_lets _ _ s1 _ new
  have h1 : memoriesOk s1 := .foldl h fun _ _ k => .commitDel k
  have hew : memoriesOk new.2 := .newLeaves h1
  exact .modItems (.commitTree hew)

theorem NextOk.execAdaptCommit (h : memoriesOk s) {id} : NextOk (execAdaptCommit id s) := by
  unfold Machine.execAdaptCommit
  split
  · exact .next h
  · split
    · exact .next (.fail h)
    · refine .ite (.next (.checked h (fun _ k => .succeed (.ite (.freeOther (.endAdapt k)) (.endAdapt k))))) (.ite (.next (.fail h))
        (.ite (.next (.checked h (fun _ k => ?_))) ?_))
      · extract_lets s1
        have h1 : memoriesOk s1 := .switchIndex (.endAdapt k)
        exact .succeed h1
      · split
        · exact .next (.fail h)
        · rename_i e2
          exact .next (.checked h (fun _ k => .succeed (.endAdapt (.of_someSnd e2 (.storeTrained h)))))

/-! ## Events and health (15). -/

theorem NextOk.execEventsRead (h : memoriesOk s) {id lost} : NextOk (execEventsRead id lost s) := by
  unfold Machine.execEventsRead
  split
  · exact .next h
  · refine .next (.checked h (fun _ k => ?_))
    extract_lets _ _ _ s1 s2
    have h1 : memoriesOk s1 := .keep k
    have h2 : memoriesOk s2 := .ite (.pagesProgrammed h1) h1
    exact .succeed (.hostWrite h2)

theorem NextOk.execEventsClear (h : memoriesOk s) {id} : NextOk (execEventsClear id s) := by
  unfold Machine.execEventsClear
  split
  · exact .next h
  · refine .next (.checked h (fun _ k => ?_))
    extract_lets _ _ _ s1
    have h1 : memoriesOk s1 := .record (.keep k)
    exact .succeed h1

theorem NextOk.execHealth (h : memoriesOk s) {id} : NextOk (execHealth id s) := by
  unfold Machine.execHealth
  split
  · exact .next h
  · exact .next (.checked h (fun _ k => .succeed (.hostWrite k)))

/-! ## The exported window (07 R226, R228). -/

theorem memoriesOk.grantWrite (h : memoriesOk s) {g x bs} : memoriesOk (s.grantWrite g x bs) := .ite (.hbmWrite h) (.ite (.flashWrite h) (.pinnedWrite h))
theorem memoriesOk.exportWrite (h : memoriesOk s) {l bs} : memoriesOk (s.exportWrite l bs) := .foldlFst h fun _ _ k => .grantWrite k
theorem memoriesOk.rwFails (h : memoriesOk s) {dest stream} : memoriesOk (s.rwFails dest stream) := .launch h
theorem memoriesOk.rwMixed (h : memoriesOk s) {dest stream} : memoriesOk (s.rwMixed dest stream) := .launch h
theorem memoriesOk.rwUse (h : memoriesOk s) {l write} : memoriesOk (s.rwUse l write) := .foldl h fun _ _ k => .useRange k

theorem memoriesOk.rwApply (h : memoriesOk s) {p} : memoriesOk (s.rwApply p) := by
  unfold State.rwApply
  extract_lets
  refine .ite (.clTake h) ?_
  split
  · exact .rwFails h
  · refine .ite (.ite (.rwFails h) (.exportWrite (.rwUse h))) (.ite (.rwFails h) (.ite (.rwMixed h) ?_))
    extract_lets _ s1 _ _ _ _ s2 s3
    have h1 : memoriesOk s1 := .rwUse h
    have h2 : memoriesOk s2 := .modStream h1
    have h3 : memoriesOk s3 := .openStreamAt h2
    exact .ite (.modStream h3) h3

theorem memoriesOk.rwFetch (h : memoriesOk s) {k0 tiles} : memoriesOk (s.rwFetch k0 tiles) := .ite h (.addReq h)

theorem memoriesOk.rxDrain (h : memoriesOk s) {k0 n} : memoriesOk (s.rxDrain k0 n) := by
  induction n generalizing s with
  | zero => exact h
  | succ n ih =>
    rw [State.rxDrain]
    split
    · exact h
    · split
      · exact h
      · split
        · exact ih (.rwApply (.modStream h))
        · exact .rwFetch h

theorem memoriesOk.ackBack (h : memoriesOk s) {src stream n} : memoriesOk (s.ackBack src stream n) := .ite h (.launch h)

theorem memoriesOk.rxAck (h : memoriesOk s) {k0} : memoriesOk (s.rxAck k0) := by
  unfold State.rxAck
  split
  · exact .ackBack h
  · exact h

theorem memoriesOk.rxResume (h : memoriesOk s) : memoriesOk s.rxResume := by
  unfold State.rxResume
  extract_lets
  exact .foldl h fun _ _ k => .rxAck (.rxDrain (.dropReq k))

theorem memoriesOk.rxFails (h : memoriesOk s) {q} : memoriesOk (s.rxFails q) := by
  unfold State.rxFails
  split
  · exact h
  · exact .rxAck (.rxDrain (.rwFails (.modStream h)))

/-! ## Moves, loans and prefetches (06; 07). -/

theorem memoriesOk.readFar (h : memoriesOk s) {req a n} : memoriesOk (s.readFar req a n).2 := by
  unfold State.readFar
  split
  · refine .iteSnd h ?_
    extract_lets x
    have h1 : memoriesOk x.2 := .openStream h
    exact h1
  · exact h

theorem memoriesOk.readBoth (h : memoriesOk s) {req src side} : memoriesOk (s.readBoth req src side).2.2 := by
  unfold State.readBoth
  have hboth : memoriesOk ((s.readFar req src.base src.len).2.readFar req side.base side.len).2 := .readFar (.readFar h)
  split
  · split
    · exact .openStream h
    · exact hboth
  · exact hboth

theorem memoriesOk.tierMove (h : memoriesOk s) {t0 op} : memoriesOk (s.tierMove t0 op) := by
  unfold State.tierMove
  refine .issue h fun _ _ _ k => ?_
  extract_lets _ _ _ _ _ _ _ s1 q x far s2
  have h1 : memoriesOk s1 := .modThread (.fly k)
  have hx : memoriesOk x.2 := .addReq h1
  have hfar : memoriesOk far.2.2 := by
    unfold far
    split
    · exact .readBoth hx
    · exact hx
  have h2 : memoriesOk s2 := .modTiers hfar
  split
  · exact .endJobFor k
  · exact .ite (.foldl h2 (fun _ _ k1 => .noteAccess k1)) h2

theorem memoriesOk.land (h : memoriesOk s) {th a bs} : memoriesOk (s.land th a bs) := by
  unfold State.land
  refine .ite h ?_
  split
  · exact .spotsWrite h
  · exact h

theorem memoriesOk.markLoan (h : memoriesOk s) {th a n} : memoriesOk (s.markLoan th a n) := by
  unfold State.markLoan
  refine .ite h ?_
  extract_lets
  exact .markWin h

theorem memoriesOk.vacate (h : memoriesOk s) {th a n} : memoriesOk (s.vacate th a n) := .ite h (.foldl (.smearAt h) (fun _ _ k => .releaseTiles k))
theorem memoriesOk.closeStreams (h : memoriesOk s) {q} : memoriesOk (s.closeStreams q) := .modSpan h

theorem memoriesOk.reqFaults (h : memoriesOk s) {k0 code} : memoriesOk (s.reqFaults k0 code) := by
  unfold State.reqFaults
  split
  · exact h
  · exact .fault (.reqLands (.dropReq (.closeStreams h)))

theorem memoriesOk.noteMasters (h : memoriesOk s) {th q} : memoriesOk (s.noteMasters th q) := by
  unfold State.noteMasters
  extract_lets
  exact .ite (.modGang h) h

theorem memoriesOk.reqDone (h : memoriesOk s) {k0 q} : memoriesOk (s.reqDone k0 q) := .settle (.reqLands (.dropReq (.closeStreams h)))

theorem memoriesOk.dropLoan (h : memoriesOk s) {th a n} : memoriesOk (s.dropLoan th a n) := by
  unfold State.dropLoan
  refine .ite h (.ite ?_ (.ite (.foldl h (fun _ _ k => .modTiers k)) h))
  extract_lets _ s1
  have h1 : memoriesOk s1 := .markWin h
  exact .ite (.smearAt h1) h

theorem memoriesOk.prefetchDone (h : memoriesOk s) {k0 q} : memoriesOk (s.prefetchDone k0 q) := by
  unfold State.prefetchDone
  extract_lets
  refine .ite (.reqFails h) (.reqDone (.foldl h (fun _ _ k => ?_)))
  split
  · exact .allocLine k
  · exact k

theorem memoriesOk.carryEntries (h : memoriesOk s) {th src dst moved} : memoriesOk (s.carryEntries th src dst moved) := .modCompute h

theorem memoriesOk.moveEntries (h : memoriesOk s) {q th} : memoriesOk (s.moveEntries q th) := by
  unfold State.moveEntries
  refine .ite ?_ h
  split
  · exact .carryEntries h
  · exact h

theorem memoriesOk.writeBoth (h : memoriesOk s) {req dst side} : memoriesOk (s.writeBoth req dst side).2 := by
  unfold State.writeBoth
  extract_lets _ far x y
  have hfar : ∀ s x, memoriesOk s → memoriesOk (far s x).2 := by
    intro _ _ k
    unfold far
    split
    · refine .iteSnd k ?_
      extract_lets y2
      have h2 : memoriesOk y2.2 := .openStream k
      exact h2
    · exact k
  have h1 : memoriesOk x.2 := hfar _ _ h
  have h2 : memoriesOk y.2 := hfar _ _ h1
  split
  · refine .iteSnd ?_ h2
    extract_lets y2
    have h21 : memoriesOk y2.2 := .openStream h
    exact h21
  · exact h2

theorem memoriesOk.moveLands (h : memoriesOk s) {k0 q th} : memoriesOk (s.moveLands k0 q th) := by
  unfold State.moveLands
  extract_lets _ _ _ x s1 s2 s3 s4 s5 core s6
  have h1 : memoriesOk x.2 := .writeBoth h
  have h11 : memoriesOk s1 := .useRange (.useRange h)
  have h2 : memoriesOk s2 := .noteMasters (.moveEntries h11)
  have h3 : memoriesOk s3 := .ite (.vacate (.vacate h2)) h2
  have h4 : memoriesOk s4 := .useRange (.useRange (.land (.land h3)))
  have h5 : memoriesOk s5 := .ite (.markLoan (.markLoan h4)) h4
  have h6 : memoriesOk s6 := by
    unfold s6
    clear_value core
    split
    · exact .saturated h5
    · exact h5
  refine .ite (.modTiers h1) ?_
  split
  · exact .reqFaults h
  · exact .reqDone h6

theorem NextOk.execMvComplete (h : memoriesOk s) {r} : NextOk (execMvComplete r s) := by
  unfold Machine.execMvComplete
  split
  · exact .next h
  · split
    · exact .next h
    · refine .ite (.next h) (.ite (.next (.reqFails h)) ?_)
      split
      · exact .next (.prefetchDone h)
      · exact .next (.reqDone (.dropLoan h))
      · exact .ite (.next h) (.ite (.next h) (.ite (.next (.reqFails h)) (.ite (.next (.reqFails (.pathError h))) (.next (.moveLands (.pathError h))))))

theorem memoriesOk.pagedIn (h : memoriesOk s) : memoriesOk s.pagedIn := by
  unfold State.pagedIn
  extract_lets _ s1
  have h1 : memoriesOk s1 := .rxResume (.foldl h (fun _ _ k => .reqFails k))
  exact .modTiers h1

theorem memoriesOk.fetchLost (h : memoriesOk s) {f lost} : memoriesOk (s.fetchLost f lost) := by
  unfold State.fetchLost
  extract_lets
  exact .foldl (.fetchFails h) fun _ _ k => .rxFails k

theorem NextOk.execTierFetchComplete (h : memoriesOk s) {r ends} : NextOk (execTierFetchComplete r ends s) := by
  unfold Machine.execTierFetchComplete
  split
  · exact .next h
  · split
    · exact .next h
    · exact .ite (.next (.fetchLost h)) (.ite (.next (.fetchLost (.pathError h))) (.next (.pagedIn (.fetchDone (.pathError h)))))

theorem NextOk.execTierDeadline (h : memoriesOk s) {req} : NextOk (execTierDeadline req s) := by
  unfold Machine.execTierDeadline
  split
  · exact .next h
  · exact .next (.reqFails (.at_ h))

theorem NextOk.execPrefetchStreamRelease (h : memoriesOk s) {q stream} : NextOk (execPrefetchStreamRelease q stream s) := by
  unfold Machine.execPrefetchStreamRelease
  extract_lets
  split
  · exact .next h
  · exact .next (.modTiers (.at_ h))

/-! ## Firmware and security (17). -/

theorem NextOk.execFwDownload (h : memoriesOk s) {id} : NextOk (execFwDownload id s) := by
  unfold Machine.execFwDownload
  split
  · exact .next h
  · extract_lets
    refine .ite (.ite (.next h) (.next (.checked h (fun _ k => ?_)))) (.ite (.next h) (.ite (.ite (.next (.fail h)) (.next (.succeed (.keep h))))
      (.ite (.next (.fail h)) (.next (.succeed (.keep h))))))
    extract_lets s1
    have h1 : memoriesOk s1 := .ite (.keep k) k
    exact .modCmd (.stage h1)

theorem NextOk.execFwCommit (h : memoriesOk s) {id} : NextOk (execFwCommit id s) := by
  unfold Machine.execFwCommit
  split
  · exact .next h
  · extract_lets
    refine .next (.checked h (fun _ k => ?_))
    extract_lets _ _ _ _ s1
    have h1 : memoriesOk s1 := .keep k
    exact .ite (.succeed (.keep k)) (.succeed (.record h1))

theorem NextOk.execAttest (h : memoriesOk s) {id} : NextOk (execAttest id s) := by
  unfold Machine.execAttest
  split
  · exact .next h
  · extract_lets
    exact .next (.checked h (fun _ k => .succeed (.hostWrite k)))

theorem NextOk.execOwnerLock (h : memoriesOk s) {id} : NextOk (execOwnerLock id s) := by
  unfold Machine.execOwnerLock
  split
  · exact .next h
  · refine .ite (.next (.ite (.succeed h) h)) (.ite (.next h) ?_)
    extract_lets
    refine .next (.checked h (fun _ k => ?_))
    extract_lets _ s1
    have h1 : memoriesOk s1 := .record (.secure (.keep k))
    exact .ite (.succeed k) (.stage h1)

/-! ## Dratotin modules and grants (07 R225; 13). -/

theorem memoriesOk.setWay (h : memoriesOk s) {k0 code} : memoriesOk (s.setWay k0 code) := by
  unfold State.setWay
  extract_lets
  exact .keep h

theorem memoriesOk.pinWay (h : memoriesOk s) {k0} : memoriesOk (s.pinWay k0) := by
  unfold State.pinWay
  extract_lets _ s1
  have h1 : memoriesOk s1 := .setWay h
  exact .keepTiers h1

theorem memoriesOk.unpinWay (h : memoriesOk s) {k0} : memoriesOk (s.unpinWay k0) := by
  unfold State.unpinWay
  extract_lets s1
  have h1 : memoriesOk s1 := .setWay h
  exact .keep h1

theorem memoriesOk.healGrant (h : memoriesOk s) {g} : memoriesOk (s.healGrant g) := by
  unfold State.healGrant
  extract_lets s1
  have h1 : memoriesOk s1 := .healRange h
  split
  · exact .healRange h1
  · exact h1

theorem memoriesOk.addGrant (h : memoriesOk s) {g data} : memoriesOk (s.addGrant g data).2 := by
  unfold State.addGrant
  extract_lets _ g1 s1 fill
  have h1 : memoriesOk s1 := .foldl h fun _ _ k => .pinWay k
  have hfill : ∀ x, TiersOk x → TiersOk (fill x) := by
    intro x hx
    unfold fill
    extract_lets y
    have hy : TiersOk y := hx.wipe.fill
    split
    · exact hy.wipe.fill
    · exact hy
  exact .fitPool (.healGrant (.mapTiers h1 fun hx => (hfill _ hx).keep))

theorem memoriesOk.dropGrant (h : memoriesOk s) {k0} : memoriesOk (s.dropGrant k0) := by
  unfold State.dropGrant
  split
  · exact h
  · extract_lets s1 s2 s3 s4
    have h1 : memoriesOk s1 := .mapTiers h fun hx => hx.wipe.keep
    have h2 : memoriesOk s2 := .foldl h1 fun _ _ k => .unpinWay k
    have h3 : memoriesOk s3 := by
      unfold s3
      split
      · exact .mapTiers h2 fun hx => hx.wipe
      · exact h2
    have h4 : memoriesOk s4 := .healGrant h3
    split
    · exact .freeFlash h4
    · exact h4

theorem memoriesOk.finishGrant (h : memoriesOk s) {c home data} : memoriesOk (s.finishGrant c home data) := by
  unfold State.finishGrant
  extract_lets _ _ _ _ _ s1
  have h1 : memoriesOk s1 := .modMedia h
  exact .succeed (.addGrant h1)

theorem NextOk.execGrantMake (h : memoriesOk s) {id} : NextOk (execGrantMake id s) := by
  unfold Machine.execGrantMake
  split
  · exact .next h
  · extract_lets
    refine .ite ?_ (.ite (.next h) (.next (.checked h (fun _ k => .finishGrant k))))
    split
    · exact .next (.fail h)
    · split
      · exact .next (.fail h)
      · refine .next (.checked h (fun _ k => ?_))
        extract_lets s1
        have h1 : memoriesOk s1 := .keep k
        exact .ite (.modCmd (.stage h1)) (.finishGrant h1)

theorem NextOk.execGrantFree (h : memoriesOk s) {id} : NextOk (execGrantFree id s) := by
  unfold Machine.execGrantFree
  split
  · exact .next h
  · extract_lets
    exact .next (.checked h (fun _ k => .succeed (.getD (.map (fun _ => .dropGrant k)) k)))

theorem memoriesOk.loadModule (h : memoriesOk s) {b} : memoriesOk (s.loadModule b).2 := by
  unfold State.loadModule
  extract_lets _ _ _ _ s1
  have h1 : memoriesOk s1 := .ite h (.addGrant h)
  exact .modCompute h1

theorem NextOk.execModuleLoad (h : memoriesOk s) {id} : NextOk (execModuleLoad id s) := by
  unfold Machine.execModuleLoad
  split
  · exact .next h
  · refine .ite (.next (.completeWith h)) (.ite (.next (.checked h (fun _ k => .modCmd (.stage k)))) (.ite (.next h) ?_))
    split
    · exact .next (.completeWith h)
    · refine .ite (.next (.completeWith h)) ?_
      extract_lets
      split
      · exact .next (.completeWith h)
      · refine .next (.checked h (fun _ k => ?_))
        extract_lets r
        have h1 : memoriesOk r.2 := .loadModule (.keep k)
        exact .succeed h1

theorem memoriesOk.unloadModule (h : memoriesOk s) {h0} : memoriesOk (s.unloadModule h0) := by
  unfold State.unloadModule
  extract_lets s1
  have h1 : memoriesOk s1 := .foldl h fun _ _ k => .dropGrant k
  exact .modCompute h1

theorem NextOk.execModuleUnload (h : memoriesOk s) {id} : NextOk (execModuleUnload id s) := by
  unfold Machine.execModuleUnload
  split
  · exact .next h
  · exact .next (.checked h (fun _ k => .succeed (.unloadModule k)))

theorem NextOk.execRun (h : memoriesOk s) {id} : NextOk (execRun id s) := by
  unfold Machine.execRun
  split
  · exact .next h
  · refine .ite (.next h) (.next (.checked h (fun _ k => ?_)))
    extract_lets
    exact .modCompute (.stage k)

/-! ## The Regulator (08). -/

theorem memoriesOk.saveGang (h : memoriesOk s) {j g} : memoriesOk (s.saveGang j g) := by
  unfold State.saveGang
  split
  · exact h
  · refine .ite h ?_
    extract_lets _ _ _ _ s1
    have h1 : memoriesOk s1 := .modCore h
    exact .modGang h1

theorem memoriesOk.restoreGang (h : memoriesOk s) {j g at0} : memoriesOk (s.restoreGang j g at0) := by
  unfold State.restoreGang
  split
  · exact h
  · split
    · exact h
    · extract_lets s1
      have h1 : memoriesOk s1 := .modCore h
      exact .modGang h1

theorem SomeSndOk.benchRoom (h : memoriesOk s) {c cls n k} : SomeSndOk (s.benchRoom c cls n k) := by
  induction k generalizing s with
  | zero =>
    rw [State.benchRoom]
    exact .map fun _ => h
  | succ k ih =>
    rw [State.benchRoom]
    split
    · exact .some h
    · split
      · exact ih (.saveGang h)
      · exact .none

theorem SomeOk.placeGang (h : memoriesOk s) {j x g c} : SomeOk (s.placeGang j x g c) := by
  unfold State.placeGang
  refine .ite .none (.mapSnd (.benchRoom h) fun _ k => ?_)
  extract_lets s1 _ s2
  have h2 : memoriesOk s2 := .modCore k
  exact .modJob (.ite (.spend h2) h2)

theorem SomeOk.placeGangs (h : memoriesOk s) {j x g l} : SomeOk (s.placeGangs j x g l) := by
  induction l generalizing s g with
  | nil => exact .some h
  | cons c l ih => exact .bindOk (.placeGang h) fun _ k => ih k

theorem memoriesOk.restartEvents (h : memoriesOk s) {x cores} : memoriesOk (s.restartEvents x cores) := by
  unfold State.restartEvents
  refine .ite h ?_
  extract_lets
  exact .foldl h fun _ _ k => .record k

theorem SomeOk.admitJob (h : memoriesOk s) {j cores} : SomeOk (s.admitJob j cores) := by
  unfold State.admitJob
  split
  · exact .none
  · refine .ite .none (.mapOk (.placeGangs h) fun _ k => ?_)
    extract_lets _ s1 s2
    have h1 : memoriesOk s1 := .modCompute k
    have h2 : memoriesOk s2 := .modJob h1
    exact .restartEvents (.fitPool h2)

theorem memoriesOk.dropCredits (h : memoriesOk s) {ts} : memoriesOk (s.dropCredits ts) := .foldl h fun _ _ k => .returnCredits k

theorem memoriesOk.preempt (h : memoriesOk s) {j g} : memoriesOk (s.preempt j g) := by
  unfold State.preempt
  extract_lets
  exact .modCompute (.modGang (.dropCredits h))

theorem NextOk.execPreemption (h : memoriesOk s) {job gang} : NextOk (execPreemption job gang s) := by
  unfold Machine.execPreemption
  split
  · exact .next h
  · refine .ite (.next h) (.ite (.next (.preempt h)) ?_)
    extract_lets
    exact .ite (.next (.preempt h)) (.next h)

theorem memoriesOk.kickStreams (h : memoriesOk s) {ts} : memoriesOk (s.kickStreams ts) := .foldl h fun _ _ k => .ite (.streamAgain k) k

theorem memoriesOk.resumeGang (h : memoriesOk s) {j g} : memoriesOk (s.resumeGang j g) := by
  unfold State.resumeGang
  split
  · exact h
  · extract_lets _ go
    have hgo : ∀ s, memoriesOk s → memoriesOk (go s) := by
      intro _ k
      unfold go
      extract_lets s1 _ s2
      have h1 : memoriesOk s1 := .modGang k
      have h2 : memoriesOk s2 := .kickStreams (.foldl h1 (fun _ _ k1 => .placeCtx k1))
      exact .foldl h2 fun _ _ k1 => .leaderCheck k1
    split
    · exact hgo _ h
    · split
      · rename_i e
        exact hgo _ (.restoreGang (.of_someSnd e (.benchRoom h)))
      · exact h

theorem memoriesOk.resumeCore (h : memoriesOk s) {c} : memoriesOk (s.resumeCore c) := by
  unfold State.resumeCore
  refine .foldl h fun _ _ k => ?_
  extract_lets
  exact .ite k (.resumeGang k)

theorem memoriesOk.giveCore (h : memoriesOk s) {c cls} : memoriesOk (s.giveCore c cls) := by
  unfold State.giveCore
  extract_lets s1 s2
  have h1 : memoriesOk s1 := .foldl h fun _ _ k => .preempt k
  have h2 : memoriesOk s2 := .modCore h1
  exact .foldl h2 fun _ _ k => .resumeGang k

theorem NextOk.execShareWindow (h : memoriesOk s) {c} : NextOk (execShareWindow c s) := by
  unfold Machine.execShareWindow
  extract_lets _ s1
  have h1 : memoriesOk s1 := .ite (.modCore h) h
  exact .next (.ite h1 (.ite (.giveCore h1) (.ite (.giveCore h1) (.resumeCore (.modCore h1)))))

theorem NextOk.execContextSwitch (h : memoriesOk s) {c out inn} : NextOk (execContextSwitch c out inn s) := by
  unfold Machine.execContextSwitch
  split
  · split
    · exact .next h
    · refine .ite ?_ (.next h)
      extract_lets s1
      have h1 : memoriesOk s1 := .modCtx h
      exact .next (.modCtx h1)
  · exact .next h

theorem memoriesOk.withSteps (h : memoriesOk s) {x} : memoriesOk (s.withSteps x) := .keep h
theorem memoriesOk.passesTaken (h : memoriesOk s) : memoriesOk s.passesTaken := .withSteps h
theorem memoriesOk.tokensTaken (h : memoriesOk s) : memoriesOk s.tokensTaken := .keep h
theorem memoriesOk.turnTaken (h : memoriesOk s) {batch} : memoriesOk (s.turnTaken batch) := .keep h

theorem memoriesOk.stepMode (h : memoriesOk s) {hbmTime tokenTime sliceTimes w} : memoriesOk (s.stepMode hbmTime tokenTime sliceTimes w) := by
  unfold State.stepMode
  extract_lets
  exact .withSteps (.turnTaken h)

theorem memoriesOk.backLayer (h : memoriesOk s) {base} : memoriesOk (s.backLayer base) := by
  unfold State.backLayer
  split
  · exact .withSteps h
  · exact .ite (.withSteps h) (.withSteps h)

theorem memoriesOk.kernelStep (h : memoriesOk s) {w} : memoriesOk (s.kernelStep w) := by
  unfold State.kernelStep
  extract_lets
  split
  · exact .withSteps h
  · exact .backLayer h
  · split
    · exact .withSteps h
    · extract_lets
      exact .ite (.withSteps h) (.withSteps (.turnTaken h))

theorem NextOk.execStepCompose (h : memoriesOk s) {hbmTime tokenTime sliceTimes} : NextOk (execStepCompose hbmTime tokenTime sliceTimes s) := by
  unfold Machine.execStepCompose
  extract_lets s1 _ _ s2
  have h1 : memoriesOk s1 := .passesTaken (.tokensTaken h)
  have h2 : memoriesOk s2 := .withSteps h1
  exact .next (.ite (.kernelStep h2) (.stepMode h2))

/-! ## Integrity (14). -/

theorem memoriesOk.wordLost (h : memoriesOk s) {k0 region addr} : memoriesOk (s.wordLost k0 region addr) := by
  unfold State.wordLost
  extract_lets _ bad
  have hbad : ∀ c a, memoriesOk (bad c a) := fun _ _ => .keep h
  split
  · exact hbad _ _
  · exact .ite (.modTiers h) (.modTiers h)
  · refine .ite (hbad _ _) ?_
    split
    · exact h
    · exact .ite (.modTiers (hbad _ _)) (.modTiers h)
  · exact h

theorem memoriesOk.passEnds (h : memoriesOk s) {k0 region} : memoriesOk (s.passEnds k0 region) := by
  unfold State.passEnds
  extract_lets _ _ _ s1
  have h1 : memoriesOk s1 := .keep h
  exact .ite (.setDivisor h1) h1

theorem NextOk.execPlaneScrub (h : memoriesOk s) {k0 region addr found passEnd} : NextOk (execPlaneScrub k0 region addr found passEnd s) := by
  unfold Machine.execPlaneScrub
  refine .ite (.next h) ?_
  extract_lets s1 s2
  have h1 : memoriesOk s1 := .record (.count h)
  have h2 : memoriesOk s2 := by
    unfold s2
    split
    · exact h
    · exact .ite h (.correctable h)
    · exact .ite h (.wordLost h1)
  exact .next (.ite (.passEnds h2) h2)

theorem NextOk.execBucketLeak (h : memoriesOk s) : NextOk (execBucketLeak s) := by
  unfold Machine.execBucketLeak
  refine .ite (.next h) ?_
  extract_lets s1
  have h1 : memoriesOk s1 := .at_ h
  exact .next (.keep h1)

theorem memoriesOk.dropCapture (h : memoriesOk s) {c} : memoriesOk (s.dropCapture c) := .settleAll (.keep h)

theorem NextOk.execShadowCompare (h : memoriesOk s) {c equal} : NextOk (execShadowCompare c equal s) := by
  unfold Machine.execShadowCompare
  split
  · exact .next h
  · refine .ite (.next h) ?_
    extract_lets s1 s2
    have h1 : memoriesOk s1 := .count h
    have h2 : memoriesOk s2 := .setErr (.count h1)
    exact .ite (.next (.dropCapture h1)) (.next (.keep h2))

theorem memoriesOk.strike (h : memoriesOk s) {c e0} : memoriesOk (s.strike c e0) := by
  unfold State.strike
  extract_lets _ s1 s2
  have h1 : memoriesOk s1 := .count (.jigChange h)
  have h2 : memoriesOk s2 := .record h1
  exact .ite h2 (.ite (.retireRipe h2) (.record h2))

theorem memoriesOk.suspectCore (h : memoriesOk s) {c x} : memoriesOk (s.suspectCore c x) := by
  unfold State.suspectCore
  refine .ite ?_ (.checkFails (.record h))
  extract_lets
  exact .foldl (.checkFails (.retireCore h)) fun _ _ k => .checkFails k

theorem NextOk.execArbitration (h : memoriesOk s) {c eqPrimary eqShadow} : NextOk (execArbitration c eqPrimary eqShadow s) := by
  unfold Machine.execArbitration
  split
  · exact .next h
  · refine .ite (.next h) ?_
    extract_lets _ _ s1 s2
    have h1 : memoriesOk s1 := .keep h
    have h2 : memoriesOk s2 := .ite (.strike h1) (.ite (.strike (.checkFails h1)) (.suspectCore h1))
    exact .next (.settleAll h2)

theorem NextOk.execStrikeExpiry (h : memoriesOk s) {c e0} : NextOk (execStrikeExpiry c e0 s) := by
  unfold Machine.execStrikeExpiry
  split
  · exact .next h
  · extract_lets _ s1
    have h1 : memoriesOk s1 := .at_ h
    exact .next (.jigChange h1)

theorem NextOk.execCalibration (h : memoriesOk s) {model bounds} : NextOk (execCalibration model bounds s) := by
  unfold Machine.execCalibration
  split
  · exact .next h
  · refine .ite (.next h) ?_
    extract_lets _ s1
    have h1 : memoriesOk s1 := .keep h
    exact .next (.keep h1)

/-! ## Models (13). -/

theorem memoriesOk.noteBoot (h : memoriesOk s) : memoriesOk s.noteBoot := by
  unfold State.noteBoot
  extract_lets
  exact .ite h (.keep h)

theorem memoriesOk.setLoaded (h : memoriesOk s) {m on} : memoriesOk (s.setLoaded m on) := .fitPool (.noteBoot (.modServ h))

theorem memoriesOk.deleteImage (h : memoriesOk s) {m} : memoriesOk (s.deleteImage m) := by
  unfold State.deleteImage
  split
  · exact h
  · extract_lets _ s1
    have h1 : memoriesOk s1 := .keep h
    exact .freeFlash (.modServ h1)

theorem memoriesOk.storeImage (h : memoriesOk s) {m home b} : memoriesOk (s.storeImage m home b) := by
  unfold State.storeImage
  extract_lets _ _ s1
  have h1 : memoriesOk s1 := .modMedia (.deleteImage h)
  exact .modServ h1

theorem NextOk.execModelLoad (h : memoriesOk s) {id} : NextOk (execModelLoad id s) := by
  unfold Machine.execModelLoad
  split
  · exact .next h
  · extract_lets
    refine .ite (.next (.checked h (fun _ k => .succeed (.setLoaded k)))) (.ite (.ite (.next (.fail h)) ?_) (.ite (.next h) (.next (.checked h (fun _ k => ?_)))))
    · split
      · exact .next (.fail h)
      · exact .next (.checked h (fun _ k => .modCmd (.stage (.keep k))))
    · extract_lets s1
      have h1 : memoriesOk s1 := .storeImage k
      exact .succeed (.ite (.setLoaded h1) h1)

theorem NextOk.execModelUnload (h : memoriesOk s) {id} : NextOk (execModelUnload id s) := by
  unfold Machine.execModelUnload
  split
  · exact .next h
  · extract_lets
    refine .next (.checked h (fun _ k => ?_))
    extract_lets s1
    have h1 : memoriesOk s1 := .setLoaded k
    exact .succeed (.ite (.deleteImage h1) h1)

/-! ## The selection unit (04). -/

theorem memoriesOk.slTake (h : memoriesOk s) {c} : memoriesOk (s.slTake c) := by
  unfold State.slTake
  extract_lets
  refine .ite h ?_
  split
  · exact h
  · extract_lets _ s1
    have h1 : memoriesOk s1 := .modCore h
    split
    · exact .fault (.unitEnd h1)
    · exact .modCore h1

theorem memoriesOk.queueSl (h : memoriesOk s) {t0 pc th r} : memoriesOk (s.queueSl t0 pc th r) := by
  unfold State.queueSl
  split
  · exact h
  · extract_lets _ _ s1 s2
    have h1 : memoriesOk s1 := .fly (.modThread h)
    have h2 : memoriesOk s2 := .modCompute h1
    exact .slTake (.modCore h2)

theorem NextOk.execSlPassEnd (h : memoriesOk s) {c} : NextOk (execSlPassEnd c s) := by
  unfold Machine.execSlPassEnd
  split
  · exact .next (.slTake h)
  · extract_lets s1 _ _ _ _ s2 _ s3 s4 s5
    have h1 : memoriesOk s1 := .at_ h
    have h2 : memoriesOk s2 := .modCore h1
    have h3 : memoriesOk s3 := .benchFails h1
    have h4 : memoriesOk s4 := .ite (.fault h3) (.saturated (.benchWrite h3))
    have h5 : memoriesOk s5 := .unitEnd (.modCore h4)
    exact .ite (.ite (.next (.modCore h1)) (.next (.slTake h2))) (.next (.slTake (.settleAll h5)))

/-! ## The span's commands and packets (11). -/

theorem memoriesOk.reroute (h : memoriesOk s) {p vl fs} : memoriesOk (s.reroute p vl fs) := by
  unfold State.reroute
  extract_lets
  split
  · exact .foldl h fun _ _ k => .freeHeld k
  · extract_lets
    exact .enqueue h

theorem memoriesOk.forgetPort (h : memoriesOk s) {p} : memoriesOk (s.forgetPort p) := .modSpan h

theorem memoriesOk.tportDown (h : memoriesOk s) {p} : memoriesOk (s.tportDown p) := by
  unfold State.tportDown
  extract_lets s1 _ _ _ s2
  have h1 : memoriesOk s1 := .forgetPort h
  have h2 : memoriesOk s2 := .modTport h1
  exact .loseUnreachable (.retrain (.foldl h2 (fun _ _ k => .reroute k)))

theorem NextOk.execPortDown (h : memoriesOk s) {p c} : NextOk (execPortDown p c s) := by
  unfold Machine.execPortDown
  extract_lets
  split
  · exact .ite (.next h) (.next (.tportDown h))
  · exact .ite (.next (.tportDown (.at_ h))) (.next h)
  · exact .ite (.next (.tportDown h)) (.next h)
  · exact .next (.loseUnreachable (.modSpan h))

theorem NextOk.execQsfpCageChange (h : memoriesOk s) {cage fitted} : NextOk (execQsfpCageChange cage fitted s) := by
  unfold Machine.execQsfpCageChange
  refine .ite (.next h) ?_
  extract_lets
  exact .ite (.next (.tportDown (.modSpan h))) (.next (.tportDown (.modSpan h)))

theorem NextOk.execPresence (h : memoriesOk s) {src x descDigest cfgDigest window} : NextOk (execPresence src x descDigest cfgDigest window s) := by
  unfold Machine.execPresence
  split
  · refine .ite (.next (.modSpan h)) ?_
    extract_lets s1
    have h1 : memoriesOk s1 := .record h
    exact .next (.endGaps (.modSpan h1))
  · exact .next h

theorem NextOk.execPresenceSend (h : memoriesOk s) : NextOk (execPresenceSend s) := by
  unfold Machine.execPresenceSend
  refine .ite (.next h) ?_
  extract_lets s1
  have h1 : memoriesOk s1 := .at_ h
  exact .next (.postAll (.modSpan h1))

theorem NextOk.execMemberLost (h : memoriesOk s) {m} : NextOk (execMemberLost m s) := by
  unfold Machine.execMemberLost
  split
  · exact .next h
  · exact .ite (.next (.endGaps (.modSpan (.at_ h)))) (.next h)

theorem NextOk.execSpanCtl (h : memoriesOk s) {src} : NextOk (execSpanCtl src s) := .ite (.next (.endGaps (.modSpan h))) (.next h)

theorem memoriesOk.join (h : memoriesOk s) {d} : memoriesOk (s.join d) := by
  unfold State.join
  extract_lets
  exact .keep h

theorem NextOk.execSpanJoin (h : memoriesOk s) {id} : NextOk (execSpanJoin id s) := by
  unfold Machine.execSpanJoin
  split
  · exact .next h
  · extract_lets
    refine .next (.checked h (fun _ k => ?_))
    extract_lets s1
    have h1 : memoriesOk s1 := .join k
    exact .succeed h1

theorem NextOk.execSpanLeave (h : memoriesOk s) {id} : NextOk (execSpanLeave id s) := by
  unfold Machine.execSpanLeave
  split
  · exact .next h
  · refine .next (.checked h (fun _ k => .ite (.succeed k) ?_))
    extract_lets _ s1 s2
    have h1 : memoriesOk s1 := .foldl k fun _ _ k1 => .endInst k1
    have h2 : memoriesOk s2 := .postAll h1
    exact .succeed (.modSpan h2)

theorem NextOk.execSpanStatus (h : memoriesOk s) {id} : NextOk (execSpanStatus id s) := by
  unfold Machine.execSpanStatus
  split
  · exact .next h
  · exact .next (.checked h (fun _ k => .succeed (.hostWrite k)))

theorem NextOk.execClHeader (h : memoriesOk s) {src key digest params} : NextOk (execClHeader src key digest params s) := by
  unfold Machine.execClHeader
  refine .ite (.next h) ?_
  extract_lets s1 s2
  have h1 : memoriesOk s1 := .ite (.modSpan h) h
  have h2 : memoriesOk s2 := .modInst h1
  split
  · exact .next h1
  · exact .ite (.next h1) (.next (.ite (.partDone (.leaderCheck h2)) h2))

theorem NextOk.execClGo (h : memoriesOk s) {key} : NextOk (execClGo key s) := by
  unfold Machine.execClGo
  split
  · exact .next h
  · exact .ite (.next (.partDone (.instGo h))) (.next h)

theorem NextOk.execClRefuse (h : memoriesOk s) {key odd} : NextOk (execClRefuse key odd s) := by
  unfold Machine.execClRefuse
  split
  · exact .next h
  · exact .next (.endInst h)
  · extract_lets s1
    have h1 : memoriesOk s1 := .ite (.postAll h) h
    exact .next (.endInst h1)

theorem NextOk.execClAbort (h : memoriesOk s) {src key r} : NextOk (execClAbort src key r s) := by
  unfold Machine.execClAbort
  split
  · exact .next h
  · exact .ite (.next h) (.ite (.next (.modInst h)) (.ite (.next (.endInst h)) (.ite (.next (.backOff h)) (.next h))))

theorem NextOk.execStop (h : memoriesOk s) {src key} : NextOk (execStop src key s) := by
  unfold Machine.execStop
  split
  · exact .next h
  · exact .ite (.next (.endInst h)) (.next h)

theorem memoriesOk.rxTake (h : memoriesOk s) {p} : memoriesOk (s.rxTake p) := by
  unfold State.rxTake
  extract_lets _ _ s1 s2
  have h1 : memoriesOk s1 := .ite h (.modSpan h)
  have h2 : memoriesOk s2 := .modStream h1
  exact .rxAck (.rxDrain h2)

theorem NextOk.execClData (h : memoriesOk s) {src key part} : NextOk (execClData src key part s) := .ite (.next h) (.next (.rxTake h))
theorem NextOk.execRwWrite (h : memoriesOk s) {src stream pseq offset data} : NextOk (execRwWrite src stream pseq offset data s) := .ite (.next h) (.next (.rxTake h))
theorem NextOk.execRwRead (h : memoriesOk s) {src stream pseq offset len} : NextOk (execRwRead src stream pseq offset len s) := .ite (.next h) (.next (.rxTake h))

theorem NextOk.execRwResp (h : memoriesOk s) {src stream req pseq ans data} : NextOk (execRwResp src stream req pseq ans data s) := by
  unfold Machine.execRwResp
  split
  · exact .next h
  · refine .ite (.next h) (.ite (.next ?_) (.ite (.next h) (.ite (.next ?_) ?_)))
    · split
      · exact .reqFails (.dropStream h)
      · exact .dropStream h
    · split
      · exact .reqFaults (.dropStream h)
      · exact .dropStream h
    · extract_lets _ _ s1 s2
      have h1 : memoriesOk s1 := by
        unfold s1
        split
        · exact .ite (.modTiers h) h
        · exact h
      have h2 : memoriesOk s2 := .ite (.modStream h1) h1
      exact .next (.ackBack h2)

theorem memoriesOk.streamDone (h : memoriesOk s) {k0 x} : memoriesOk (s.streamDone k0 x) := by
  unfold State.streamDone
  refine .ite h ?_
  extract_lets s1
  have h1 : memoriesOk s1 := .dropStream h
  split
  · extract_lets
    exact .foldl (.spend (.exportWrite h1)) fun _ _ k => .releaseTiles k
  · exact h1

theorem NextOk.execAck (h : memoriesOk s) {stream pseq edge} : NextOk (execAck stream pseq edge s) := by
  unfold Machine.execAck
  split
  · exact .next h
  · refine .ite (.next h) ?_
    extract_lets s1 s2
    have h1 : memoriesOk s1 := .modStream h
    have h2 : memoriesOk s2 := .streamSend h1
    split
    · exact .next (.streamDone h2)
    · exact .next h2

theorem NextOk.execStreamRetransmit (h : memoriesOk s) {stream} : NextOk (execStreamRetransmit stream s) := by
  unfold Machine.execStreamRetransmit
  split
  · exact .next h
  · refine .ite (.next h) ?_
    extract_lets s1
    have h1 : memoriesOk s1 := .ite h (.at_ h)
    exact .next (.streamAgain h1)

theorem memoriesOk.partRuns (h : memoriesOk s) {ok failed n} : memoriesOk (s.partRuns ok failed n).2 := by
  induction n generalizing s failed with
  | zero => exact h
  | succ n ih =>
    rw [State.partRuns]
    split
    · rename_i e
      exact .of_snd e (.unitRun h)
    · rename_i e
      have k := memoriesOk.of_snd e (.unitRun h)
      exact .iteSnd (ih k) k

theorem memoriesOk.searchInst (h : memoriesOk s) {key g k0 cmd own} : memoriesOk (s.searchInst key g k0 cmd own) := by
  unfold State.searchInst
  extract_lets
  exact .issueInst h

theorem memoriesOk.endQuery (h : memoriesOk s) {who} : memoriesOk (s.endQuery who) := .modItems h

theorem memoriesOk.partTurn (h : memoriesOk s) {key who g y r} : memoriesOk (s.partTurn key who g y r) := by
  unfold State.partTurn
  refine .ite (.endQuery h) ?_
  split
  · rename_i e
    exact .of_fst e (.runQuery h)
  · rename_i e
    exact .partDone (.searchInst (.endQuery (.of_fst e (.runQuery h))))

theorem NextOk.execService (h : memoriesOk s) {src query group desc r} : NextOk (execService src query group desc r s) := by
  unfold Machine.execService
  extract_lets
  refine .ite (.next h) ?_
  split
  · exact .next (.post h)
  · exact .next (.partTurn h)
  · refine .ite (.next (.post h)) ?_
    split
    · rename_i e2
      exact .next (.of_snd e2 (.partRuns h))
    · rename_i e2
      extract_lets _ s1
      have h1 : memoriesOk s1 := .modItems (.of_snd e2 (.partRuns h))
      exact .next (.startQuery (.openQuery h1))

theorem memoriesOk.spanStart (h : memoriesOk s) {c b v fl} : memoriesOk (s.spanStart c b v fl) := by
  unfold State.spanStart
  extract_lets _ _ _ _ _ s1 s2
  have h1 : memoriesOk s1 := .modSpan h
  have h2 : memoriesOk s2 := .postAll h1
  split
  · exact .completeWith h
  · exact .stage (.startQuery (.openQuery h2))

theorem memoriesOk.spanTurn (h : memoriesOk s) {c i y r} : memoriesOk (s.spanTurn c i y r) := by
  unfold State.spanTurn
  refine .ite (.fail (.dropWork (.dropInst h))) ?_
  split
  · rename_i e
    exact .of_fst e (.runQuery h)
  · rename_i e
    exact .searchInst (.stage (.dropWork (.of_fst e (.runQuery h))))

theorem NextOk.execSearchSpan (h : memoriesOk s) {id r} : NextOk (execSearchSpan id r s) := by
  unfold Machine.execSearchSpan
  split
  · exact .next h
  · refine .ite ?_ (.ite ?_ (.ite ?_ ?_))
    · extract_lets
      split
      · exact .next (.completeWith h)
      · exact .next (.checked h (fun _ k => .stage (.post k)))
    · extract_lets
      split
      · exact .next (.completeWith h)
      · refine .next (.checked h (fun _ k => ?_))
        extract_lets _ s1
        have h1 : memoriesOk s1 := .ite (.uncorrectable k) k
        refine .ite (.fail h1) ?_
        split
        · rename_i e2
          exact .stage (.of_snd e2 (.unitRun k))
        · rename_i e2
          exact .spanStart (.modItems (.of_snd e2 (.unitRun k)))
    · split
      · exact .next (.spanTurn h)
      · exact .next h
    · split
      · exact .next h
      · refine .ite (.next h) ?_
        extract_lets _ s1
        have h1 : memoriesOk s1 := .hostWrite (.dropInst h)
        exact .next (.completeWith h1)

/-! ## A thread's own operations (06). -/

theorem memoriesOk.grantOne (h : memoriesOk s) {k0 w} : memoriesOk (s.grantOne k0 w) := by
  unfold State.grantOne
  extract_lets _ s1
  have h1 : memoriesOk s1 := .modCompute h
  exact .modThread h1

theorem memoriesOk.grantSems (h : memoriesOk s) {k0 n} : memoriesOk (s.grantSems k0 n) := by
  induction n generalizing s with
  | zero => exact h
  | succ n ih =>
    rw [State.grantSems]
    split
    · exact h
    · split
      · exact .ite (ih (.grantOne h)) h
      · exact h

theorem NextOk.execSySemAcq (h : memoriesOk s) {t0} : NextOk (execSySemAcq t0 s) := by
  unfold Machine.execSySemAcq
  refine .next (.issue h (fun _ _ _ k => ?_))
  extract_lets _ s1 s2
  have h1 : memoriesOk s1 := .modCompute k
  have h2 : memoriesOk s2 := .modThread h1
  exact .grantSems h2

theorem NextOk.execSySemRel (h : memoriesOk s) {t0} : NextOk (execSySemRel t0 s) := by
  unfold Machine.execSySemRel
  refine .ite (.next h) (.next (.issue h (fun _ _ _ k => ?_)))
  extract_lets _ s1
  have h1 : memoriesOk s1 := .modThread k
  exact .modCompute h1

theorem NextOk.execSyFence (h : memoriesOk s) {t0} : NextOk (execSyFence t0 s) := by
  unfold Machine.execSyFence
  extract_lets
  exact .ite (.next h) (.next (.issue h (fun _ _ _ k => k)))

theorem NextOk.execSyBarrier (h : memoriesOk s) {t0} : NextOk (execSyBarrier t0 s) := .ite (.next h) (.next (.issue h (fun _ _ _ k => .modThread k)))

theorem NextOk.execBarrierComplete (h : memoriesOk s) {job gang barrier} : NextOk (execBarrierComplete job gang barrier s) := by
  unfold Machine.execBarrierComplete
  extract_lets
  exact .ite (.next (.modCompute h)) (.next h)

theorem memoriesOk.unbind (h : memoriesOk s) {t0 hs} : memoriesOk (s.unbind t0 hs) := by
  unfold State.unbind
  extract_lets _ s1
  have h1 : memoriesOk s1 := .modCompute h
  exact .modThread h1

theorem NextOk.execSyUnbind (h : memoriesOk s) {t0} : NextOk (execSyUnbind t0 s) := by
  unfold Machine.execSyUnbind
  split
  · exact .next h
  · extract_lets
    exact .ite (.next h) (.next (.issue h (fun _ _ _ k => .unbind k)))

theorem memoriesOk.goTo (h : memoriesOk s) {t0 pc} : memoriesOk (s.goTo t0 pc) := .modThread h

theorem NextOk.execCfBrc (h : memoriesOk s) {t0} : NextOk (execCfBrc t0 s) := by
  unfold Machine.execCfBrc
  refine .next (.issue h (fun _ _ _ k => ?_))
  extract_lets
  exact .ite (.goTo k) k

theorem NextOk.execCfLoop (h : memoriesOk s) {t0} : NextOk (execCfLoop t0 s) := by
  unfold Machine.execCfLoop
  refine .next (.issue h (fun _ _ _ k => ?_))
  extract_lets _ s1
  have h1 : memoriesOk s1 := .modThread k
  exact .ite (.goTo h1) h1

theorem NextOk.execCfEnd (h : memoriesOk s) {t0} : NextOk (execCfEnd t0 s) := by
  unfold Machine.execCfEnd
  refine .ite (.next h) (.next (.issue h (fun _ _ _ k => ?_)))
  extract_lets s1
  have h1 : memoriesOk s1 := .modThread (.unbind k)
  exact .ite (.endJob h1) h1

theorem memoriesOk.scalar (h : memoriesOk s) {t0 op f} : memoriesOk (s.scalar t0 op f) := .issue h fun _ _ _ k => .modThread k

theorem SomeOk.pageIn (h : memoriesOk s) {t0 op} : SomeOk (s.pageIn t0 op) := by
  unfold State.pageIn
  split
  · exact .none
  · extract_lets
    split
    · exact .none
    · refine .ite (.some h) ?_
      split
      · exact .some (.addReq h)
      · exact .some h

theorem memoriesOk.scTouch (h : memoriesOk s) {t0 th a write} : memoriesOk (s.scTouch t0 th a write) := by
  unfold State.scTouch
  extract_lets
  refine .ite ?_ (.ite (.noteAccess (.useTile h)) h)
  split
  · exact .noteAccess (.allocLine h)
  · exact h

theorem memoriesOk.access (h : memoriesOk s) {t0 op k0 body} (hf : ∀ a0 a1 a2 t, memoriesOk t → memoriesOk (body a0 a1 a2 t))
  : memoriesOk (s.access t0 op k0 body) := by
  unfold State.access
  split
  · exact h
  · refine .ite ?_ (.issue h (fun _ _ _ k => k))
    split
    · rename_i e1
      exact .of_some e1 (.pageIn h)
    · refine .issue h fun _ _ _ k => ?_
      split
      · exact .scTouch (hf _ _ _ _ k)
      · exact k

theorem NextOk.execScLd (h : memoriesOk s) {t0} : NextOk (execScLd t0 s) := by
  unfold Machine.execScLd
  refine .next (.access h (fun _ _ _ _ k => .ite (.endJob k) ?_))
  extract_lets
  exact .modThread k

theorem NextOk.execScSt (h : memoriesOk s) {t0} : NextOk (execScSt t0 s) := .ite (.next h) (.next (.access h (fun _ _ _ _ k => .spotsWrite k)))

theorem NextOk.execScAtom (h : memoriesOk s) {t0} : NextOk (execScAtom t0 s) := by
  unfold Machine.execScAtom
  refine .ite (.next h) (.next (.access h (fun _ _ _ _ k => ?_)))
  extract_lets _ _ s1
  have h1 : memoriesOk s1 := by
    unfold s1
    split
    · exact .spotsWrite k
    · exact k
  exact .ite (.endJob k) (.modThread h1)

/-! ## Every command, and every step. -/

theorem NextOk.exec (h : memoriesOk s) {i} : NextOk (exec i s) := by
  cases i with
  | powerGood => exact .execPowerGood h
  | powerLoss => exact .execPowerLoss h
  | readinessSet => exact .next (.setReady h)
  | operatingTimeSave => exact .execOperatingTimeSave h
  | temperatureSample => exact .execTemperatureSample h
  | idleTimerExpiry => exact .execIdleTimerExpiry h
  | hibernateEntry => exact .execHibernateEntry h
  | wake => exact .execWake h
  | powerCapControl => exact .execPowerCapControl h
  | thermalThrottle => exact .execThermalThrottle h
  | thermalHardStop => exact .execThermalHardStop h
  | watchdogExpired => exact .execWatchdogExpired h
  | moduleReset => exact .execModuleReset h
  | fuseBlow => exact .execFuseBlow h
  | portReset => exact .execPortReset h
  | qsfpCageChange => exact .execQsfpCageChange h
  | adminEn => exact .next (.writeAdminEn h)
  | cmdTail => exact .next (.writeTail h)
  | replyHead => exact .next (.writeReplyHead h)
  | commandFetch => exact .execCommandFetch h
  | replyWrite => exact .execReplyWrite h
  | msixSignal => exact .execMsixSignal h
  | xrdy => exact .execXrdy h
  | pushWrite => exact .execPushWrite h
  | dataDone => exact .next (.writeDataDone h)
  | dataDoneWaitEnd => exact .execDataDoneWaitEnd h
  | hbKick => exact .next (.ite (.writeHbKick h) h)
  | hbControl => exact .next (.ite (.writeHbControl h) h)
  | heartbeatMissed => exact .execHeartbeatMissed h
  | stopworkHalt => exact .next (.swRow h)
  | stopworkAbort => exact .next (.swRow h)
  | stopworkAbortHibernate => exact .next (.swRow h)
  | stopworkRelease => exact .next (.swRow h)
  | commandDeadlineExpired => exact .execCommandDeadlineExpired h
  | errSummaryClear => exact .next (.clearErr h)
  | pcset => exact .next (.writePcset h)
  | ways => exact .next (.writeWays h)
  | regPolicy => exact .next (.writeRegPolicy h)
  | powerCap => exact .next (.writePowerCap h)
  | planeControl => exact .next (.writePlane h)
  | bucketConfig => exact .next (.writeBucket h)
  | integrityPolicy => exact .next (.writeIntegrity h)
  | mediaPolicy => exact .next (.writeMediaPolicy h)
  | registerWrite => exact .execRegisterWrite h
  | smbusRead => exact .execSmbusRead h
  | smbusWriteWord => exact .execSmbusWriteWord h
  | identify => exact .execIdentify h
  | getLog => exact .execGetLog h
  | getFeature => exact .execGetFeature h
  | setFeature => exact .execSetFeature h
  | ringCreate => exact .execRingCreate h
  | ringDelete => exact .execRingDelete h
  | ringRestart => exact .execRingRestart h
  | powerSet => exact .execPowerSet h
  | takeover => exact .execTakeover h
  | volumeCreate => exact .execVolumeCreate h
  | volumeDelete => exact .execVolumeDelete h
  | read => exact .execRead h
  | write => exact .execWrite h
  | deallocate => exact .execDeallocate h
  | flush => exact .execFlush h
  | itemPut => exact .execItemPut h
  | itemDelete => exact .execItemDelete h
  | attrSet => exact .execAttrSet h
  | itemGet => exact .execItemGet h
  | cacheGet => exact .execCacheGet h
  | cacheDrop => exact .execCacheDrop h
  | itemsFormat => exact .execItemsFormat h
  | search => exact .execSearch h
  | searchSpan => exact .execSearchSpan h
  | bitmapLoad => exact .execBitmapLoad h
  | bitmapBuild => exact .execBitmapBuild h
  | bitmapFree => exact .execBitmapFree h
  | sessionOpen => exact .execSessionOpen h
  | ask => exact .execAsk h
  | sessionClose => exact .execSessionClose h
  | modelLoad => exact .execModelLoad h
  | moduleLoad => exact .execModuleLoad h
  | run => exact .execRun h
  | grantMake => exact .execGrantMake h
  | grantFree => exact .execGrantFree h
  | modelUnload => exact .execModelUnload h
  | moduleUnload => exact .execModuleUnload h
  | adaptStart => exact .execAdaptStart h
  | adaptStatus => exact .execAdaptStatus h
  | adaptCommit => exact .execAdaptCommit h
  | spanJoin => exact .execSpanJoin h
  | spanLeave => exact .execSpanLeave h
  | spanStatus => exact .execSpanStatus h
  | fwDownload => exact .execFwDownload h
  | fwCommit => exact .execFwCommit h
  | attest => exact .execAttest h
  | ownerLock => exact .execOwnerLock h
  | eventsRead => exact .execEventsRead h
  | eventsClear => exact .execEventsClear h
  | health => exact .execHealth h
  | readPage => exact .execReadPage h
  | readNext => exact .execReadNext h
  | readChain => exact .execReadChain h
  | dataOut => exact .execDataOut h
  | programSlc => exact .execProgramSlc h
  | programQlc => exact .execProgramQlc h
  | erase => exact .execErase h
  | suspend => exact .execSuspend h
  | resume => exact .execResume h
  | loadQuery => exact .execLoadQuery h
  | loadChain => exact .execLoadChain h
  | scan => exact .execScan h
  | resultOut => exact .execResultOut h
  | readStatus => exact .execReadStatus h
  | dieGetFeature => exact .execDieGetFeature h
  | dieSetFeature => exact .execDieSetFeature h
  | readId => exact .execReadId h
  | reset => exact .execReset h
  | dieReservedOpcode => exact .execDieReservedOpcode h
  | senseComplete => exact .execSenseComplete h
  | dieProgramComplete => exact .execDieProgramComplete h
  | eraseComplete => exact .execEraseComplete h
  | suspendStart => exact .execSuspendStart h
  | suspended => exact .execSuspended h
  | scanStepCompare => exact .next (.setDie h)
  | resetComplete => exact .execResetComplete h
  | veneerTarget => exact .execVeneerTarget h
  | fold => exact .execFold h
  | mergeStripe => exact .next (.relocate h)
  | journalProgram => exact .execJournalProgram h
  | checkpoint => exact .execCheckpoint h
  | relocation => exact .next (.spareCheck (.relocate h))
  | ldpcDecode => exact .execLdpcDecode h
  | suspendForRead => exact .next (.ite (.suspendFor h) h)
  | resumeAfterReads => exact .execResumeAfterReads h
  | patrol => exact .execPatrol h
  | rebuild => exact .execRebuild h
  | mmRun => exact .next (.issueMm h (fun _ _ k => k))
  | mmLoad => exact .execMmLoad h
  | mmEmit => exact .next (.issueMm h (fun _ _ k => k))
  | mmCycle0 => exact .next (.cycle0 (.fillEngine h))
  | mmLastCycle => exact .execMmLastCycle h
  | shadowLoadComplete => exact .execShadowLoadComplete h
  | emissionComplete => exact .execEmissionComplete h
  | tileQueueRemove => exact .execTileQueueRemove h
  | add => exact .next (.issueVx h)
  | mul => exact .next (.issueVx h)
  | fma => exact .next (.issueVx h)
  | cmp => exact .next (.issueVx h)
  | sel => exact .next (.issueVx h)
  | min => exact .next (.issueVx h)
  | max => exact .next (.issueVx h)
  | compress => exact .next (.issueVx h)
  | expand => exact .next (.issueVx h)
  | vxComplete => exact .execVxComplete h
  | slSelect => exact .next (.issue h (fun _ _ _ k => .queueSl k))
  | slPassEnd => exact .execSlPassEnd h
  | mvMove => exact .next (.tierMove h)
  | mvLend => exact .next (.tierMove h)
  | mvDrop => exact .next (.tierMove h)
  | mvPrefetch => exact .next (.tierMove h)
  | mvComplete => exact .execMvComplete h
  | tierFetchComplete => exact .execTierFetchComplete h
  | tierDeadline => exact .execTierDeadline h
  | prefetchStreamRelease => exact .execPrefetchStreamRelease h
  | clAllreduce => exact .next (.collective h)
  | clAllgather => exact .next (.collective h)
  | clBroadcast => exact .next (.collective h)
  | clReduceScatter => exact .next (.collective h)
  | clTopk => exact .next (.collective h)
  | clBarrier => exact .next (.collective h)
  | clTimeout => exact .execClTimeout h
  | syFence => exact .execSyFence h
  | syWait => exact .next (.issue h (fun _ _ _ k => k))
  | sySemAcq => exact .execSySemAcq h
  | semaphoreGrant => exact .next (.grantSems h)
  | sySemRel => exact .execSySemRel h
  | syBarrier => exact .execSyBarrier h
  | barrierComplete => exact .execBarrierComplete h
  | syUnbind => exact .execSyUnbind h
  | cfBr => exact .next (.issue h (fun _ _ _ k => .goTo k))
  | cfBrc => exact .execCfBrc h
  | cfLoop => exact .execCfLoop h
  | cfCall => exact .next (.issue h (fun _ _ _ k => .goTo (.modThread k)))
  | cfRet => exact .next (.issue h (fun _ _ _ k => .goTo (.modThread k)))
  | cfEnd => exact .execCfEnd h
  | cfTrap => exact .next (.issue h (fun _ _ _ k => k))
  | scAdd => exact .next (.scalar h)
  | scSub => exact .next (.scalar h)
  | scMul => exact .next (.scalar h)
  | scDivu => exact .next (.scalar h)
  | scRemu => exact .next (.scalar h)
  | scAnd => exact .next (.scalar h)
  | scOr => exact .next (.scalar h)
  | scXor => exact .next (.scalar h)
  | scShl => exact .next (.scalar h)
  | scShr => exact .next (.scalar h)
  | scSar => exact .next (.scalar h)
  | scMin => exact .next (.scalar h)
  | scMax => exact .next (.scalar h)
  | scSlt => exact .next (.scalar h)
  | scMovi => exact .next (.issue h (fun _ _ _ k => .modThread k))
  | scLd => exact .execScLd h
  | scSt => exact .execScSt h
  | scAtom => exact .execScAtom h
  | jobAdmission => exact .next (.getD (.admitJob h) h)
  | preemption => exact .execPreemption h
  | contextSwitch => exact .execContextSwitch h
  | stepCompose => exact .execStepCompose h
  | shareWindow => exact .execShareWindow h
  | commitGroup => exact .execCommitGroup h
  | indexMerge => exact .execIndexMerge h
  | reclaim => exact .execReclaim h
  | dieScanIssue => exact .execDieScanIssue h
  | cacheBuild => exact .execCacheBuild h
  | askProgressUpdate => exact .execAskProgressUpdate h
  | adaptStep => exact .execAdaptStep h
  | portAligned => exact .execPortAligned h
  | portDown => exact .execPortDown h
  | flitReceive => exact .execFlitReceive h
  | hello => exact .execHello h
  | nak => exact .execNak h
  | presence _ x => exact .execPresence (x := x) h
  | presenceSend => exact .execPresenceSend h
  | memberLost => exact .execMemberLost h
  | spanCtl => exact .execSpanCtl h
  | clHeader => exact .execClHeader h
  | clGo => exact .execClGo h
  | clRefuse => exact .execClRefuse h
  | clData => exact .execClData h
  | clAbort => exact .execClAbort h
  | ack => exact .execAck h
  | rwWrite => exact .execRwWrite h
  | rwRead => exact .execRwRead h
  | rwResp => exact .execRwResp h
  | service => exact .execService h
  | stop => exact .execStop h
  | streamRetransmit => exact .execStreamRetransmit h
  | planeScrub => exact .execPlaneScrub h
  | bucketLeak => exact .execBucketLeak h
  | shadowCompare => exact .execShadowCompare h
  | arbitration => exact .execArbitration h
  | strikeExpiry => exact .execStrikeExpiry h
  | calibration => exact .execCalibration h
  | tailImage => exact .execTailImage h
  | instanceRestart => exact .execInstanceRestart h
  | pcieLinkUp => exact .execPcieLinkUp h
  | smbusBusRelease => exact .execSmbusBusRelease h
  | entropyHealthTestFailure => exact .execEntropyHealthTestFailure h
  | mediaStateUpdate => exact .execMediaStateUpdate h

/-- Settles O56: the idle tick leaves the memories alone, and each command keeps their form by the lemma of what it does. -/
theorem memoriesStayCanonical : Obligations.MemoriesStayCanonical := by
  unfold Obligations.MemoriesStayCanonical
  intro s t h e
  unfold Machine.step at e
  split at e
  · exact .of_next e (.next (.keep h))
  · exact .of_next e (.exec (.keep h))

/-- Settles O57: after reset every memory is empty, and A3 keeps no image. -/
theorem memoriesCanonicalAtReset : Obligations.MemoriesCanonicalAtReset := memoriesOk_iff.mpr ⟨.reset, Mem.wf_nil 0⟩

end Sys2Proof

/-! # A refused read that closes a job with a scale site (05 R165; 06 R216; 11 R356) -/

namespace Sys2Proof.Machine

/-- A read stream to module 0 whose request has gone out, for tier request 0. -/
def readStream : TStream := { (default : TStream) with sending := true, ptype := 10, nextSeq := 1, req := some 0 }

/-- A scale site that job 0 has reported to, with one entry at address 0 of region 0x00. -/
def reportedSite : ScaleSite := { (default : ScaleSite) with scale := 1, maxima := [(0, 0)], entries := [(0, 0)] }

/-- The reset state with a job, its one thread and that thread's move, whose data the stream is to bring. -/
def moveOfReporter : State := { State.reset with
  compute := { State.reset.compute with jobs := [(0, default)], threads := [(0, default)], sites := [(0, reportedSite)] }
  tiers := { State.reset.tiers with reqs := [(0, { (default : TierReq) with kind := .move })] }
  span := { State.reset.span with streams := [(0, readStream)] } }

/-- The move faults, its job closes with nothing else running, and the step boundary writes the site's entry. -/
theorem exec_mixedAnswer_writesEntry : ∃ t, exec (.rwResp 0 0 0 0 .mixed []) moveOfReporter = .next t ∧ t.tiers.hbm = [(0, 1)] := ⟨_, rfl, by decide⟩

/-- Refutes O32: an answer that makes a request fault stops its job, which closes in the step where nothing of it runs any longer. A job that closes is a step boundary of the
scale sites it has reported to, whose entries in the tiers are written (05 R165), and the clause has every byte of the tiers as before. -/
theorem not_streamsAndWindows : ¬ Obligations.StreamsAndWindows := by
  unfold Obligations.StreamsAndWindows
  rintro ⟨-, -, -, -, -, -, -, hmixed, -⟩
  obtain ⟨t, hexec, -, ⟨hhbm, -⟩, -⟩ := hmixed moveOfReporter 0 0 0 0 0 .mixed [] readStream { (default : TierReq) with kind := .move } default default
    rfl rfl rfl rfl (by decide) rfl rfl rfl rfl (.inl rfl) rfl rfl
  obtain ⟨u, hu, hentry⟩ := exec_mixedAnswer_writesEntry
  have htu : t = u := Host.Outcome.next.inj (hexec.symm.trans hu)
  rw [htu, hentry] at hhbm
  exact absurd hhbm (by decide)

end Sys2Proof.Machine

/-! # Items and caches read and dropped, and the item areas formatted (07 R247, R250; 13 R430 to R433) -/

namespace Sys2Proof

open Machine

theorem RunsItem.runs {s : State} {id op : Nat} {c : Cmd} (h : RunsItem s id op c) : Runs s id op c :=
  ⟨(Option.filter_eq_some_iff.mp h.1).1, h.2⟩

end Sys2Proof

namespace Sys2Proof.Machine

/-! ## ITEM_GET and CACHE_GET (13 R430, R431). -/

section
variable {s u : State} {id i : Nat} {c : Cmd} {x : Item}

/-- Bytes written to the host as a command succeeds stand there. -/
theorem hostHolds_succeed (p : Port) (a : Nat) (bs res : List Byte) (hu : u.host = s.host) : HostHolds s ((u.hostWrite p a bs).succeed id res) p a bs := by
  rw [HostHolds, HostOutside, State.succeed_hostMem, State.hostWrite_mem, hu]
  exact ⟨Mem.read_write _ _ _ _, fun b hb => Mem.get_write_out _ _ _ _ b hb⟩

theorem frame_hostWrite (s : State) (p : Port) (a : Nat) (bs : List Byte) : Frame [.host] s (s.hostWrite p a bs) := by
  intro q hq
  cases q <;> simp [Part.same] at hq ⊢

/-- A command that writes to the host and succeeds, after changes that leave the host and all but the listed parts alone. -/
theorem succeeded_hostWrite {ks : List Part} (p : Port) (a : Nat) (bs res : List Byte) (h : s.cmd? id = some c) (hu : u.host = s.host)
    (hf : Frame (.host :: .media :: ks) s u) : Succeeded ks s ((u.hostWrite p a bs).succeed id res) id c res :=
  succeeded_of res h ⟨_, congrArg (fun g : HostT => { g with hostMem := Mem.write 0 u.host.hostMem (hostKey p a) bs }) hu⟩
    (hf.trans ((frame_hostWrite u p a bs).mono (by simp)))

/-- The pages of an item's embedding and sketch that an ITEM_GET reads. -/
def State.itemSpots (s : State) (c : Cmd) : List (Nat × Nat × Nat) := s.media.spotsOf (s.readsOf c).1 (s.readsOf c).2

theorem exec_itemGet_reads (hr : RunsItem s id 0x0304 c) (hx : s.named c.object = some (i, x)) (hl : (s.itemBytes i x (c.field 0x1C 4)).length ≤ c.field 0x18 4)
    (hs : s.spotsReady true (s.itemSpots c) = true) :
    exec (.itemGet id false) s =
      .next (((s.readSpots (s.itemSpots c)).hostWrite c.port (c.field 0x10 8) (s.itemBytes i x (c.field 0x1C 4))).succeed id []) := by
  unfold State.itemSpots at hs ⊢
  change execItemGet id false s = _
  simp only [execItemGet, hr.1, hx, if_neg (Nat.not_lt.mpr hl), hs, hr.runs.checked, Bool.not_true, Bool.false_and, Bool.false_eq_true, if_false]

theorem exec_itemGet_unreadable (hr : RunsItem s id 0x0304 c) (hx : s.named c.object = some (i, x))
    (hl : (s.itemBytes i x (c.field 0x1C 4)).length ≤ c.field 0x18 4) (hs : s.spotsReady true (s.itemSpots c) = true) (hb : bitOf (c.field 0x1C 4) 0 = true) :
    ∃ l : Owner × List Nat, exec (.itemGet id true) s = .next ((((s.readSpots (s.itemSpots c)).uncorrectable l.1 l.2).spend 1).fail id .mediaUncorrectable) := by
  refine ⟨(s.readSpots (s.itemSpots c)).lostPart i (c.field 0x1C 4), ?_⟩
  unfold State.itemSpots at hs ⊢
  change execItemGet id true s = _
  simp only [execItemGet, hr.1, hx, if_neg (Nat.not_lt.mpr hl), hs, hb, hr.runs.checked, Bool.not_true, Bool.true_and, Bool.true_or, Bool.false_eq_true, if_false, if_true]

theorem frame_record (s : State) (code src : Nat) (payload : List Byte) : Frame [.events] s (s.record code src payload) := by
  intro p hp
  cases p <;> simp [Part.same] at hp ⊢

theorem frame_count (s : State) (i n : Nat) : Frame [.health] s (s.count i n) := by
  intro p hp
  cases p <;> simp [Part.same] at hp ⊢

theorem frame_uncorrectable (s : State) (o : Owner) (xs : List Nat) : Frame [.health, .events] s (s.uncorrectable o xs) := by
  unfold State.uncorrectable
  exact ((frame_count s _ _).mono (by simp)).trans
    (((frame_health _ _).mono (by simp)).trans (frame_foldl _ (fun s r => (frame_record s _ _ _).mono (by simp)) _ _))

theorem exec_cacheGet_found {k : Cache} (hr : RunsItem s id 0x0305 c) (hx : s.named c.object = some (i, x)) (hk : s.cacheOf (itemNo 0 x.gen i) = some k) :
    exec (.cacheGet id) s = .next ((s.hostWrite c.port (c.field 0x10 8) k.descriptor).succeed id (resultAt [(0x0C, 4, 1)])) := by
  change execCacheGet id s = _
  simp only [execCacheGet, hr.1, hx, hr.runs.checked, hk]

theorem exec_cacheGet_none (hr : RunsItem s id 0x0305 c) (hx : s.named c.object = some (i, x)) (hk : s.cacheOf (itemNo 0 x.gen i) = none) :
    exec (.cacheGet id) s = .next (s.succeed id (resultAt [(0x0C, 4, 0)])) := by
  change execCacheGet id s = _
  simp only [execCacheGet, hr.1, hx, hr.runs.checked, hk]

end

/-! ## Dropped caches (07 R250). -/

/-- What is left of a cache once it is dropped: it stays, marked, while a session holds it open. -/
def State.dropped? (s : State) (j : Nat) (k : Cache) : Option Cache := if s.cacheOpen j then some { k with dropped := true } else none

/-- States that differ by dropped caches and the flash these held: the caches' table, media management but for its keys, and the tiles of T2 alone. -/
structure DropsCaches (s t : State) : Prop where
  frame : Frame [.media, .serv, .tiers] s t
  serv : t.serv = { s.serv with caches := t.serv.caches }
  tiers : t.tiers = { s.tiers with t2 := t.tiers.t2 }
  keys : t.media.keys = s.media.keys

theorem DropsCaches.refl (s : State) : DropsCaches s s := ⟨Frame.refl _ s, rfl, rfl, rfl⟩

theorem DropsCaches.trans {s t u : State} (h : DropsCaches s t) (k : DropsCaches t u) : DropsCaches s u :=
  ⟨h.frame.trans k.frame, k.serv.trans (by rw [h.serv]), k.tiers.trans (by rw [h.tiers]), k.keys.trans h.keys⟩

theorem DropsCaches.cacheOpen {s t : State} (h : DropsCaches s t) (j : Nat) : t.cacheOpen j = s.cacheOpen j := by rw [State.cacheOpen, h.serv]; rfl

theorem DropsCaches.dropped? {s t : State} (h : DropsCaches s t) (j : Nat) (k : Cache) : t.dropped? j k = s.dropped? j k := by
  rw [State.dropped?, State.dropped?, h.cacheOpen]

theorem dropsCaches_caches (s : State) (l : Tab Cache) : DropsCaches s { s with serv := { s.serv with caches := l } } :=
  ⟨by intro p hp; cases p <;> simp [Part.same] at hp ⊢, rfl, rfl, rfl⟩

theorem State.freeFlash_keys (s : State) (gone : List (Owner × Nat × Nat)) : (s.freeFlash gone).media.keys = s.media.keys := by
  unfold State.freeFlash
  exact Media.foldl_keeps Media.keys _ (fun m k => by split <;> rfl) _ _

theorem frame_t2 (s : State) (l : Tab TierTile) : Frame [.tiers] s { s with tiers := { s.tiers with t2 := l } } := by
  intro p hp
  cases p <;> simp [Part.same] at hp ⊢

theorem dropsCaches_freeFlash (s : State) (gone : List (Owner × Nat × Nat)) : DropsCaches s (s.freeFlash gone) :=
  ⟨((frame_modMedia s _).mono (by simp)).trans ((frame_t2 _ _).mono (by simp)), rfl, rfl, s.freeFlash_keys gone⟩

theorem dropsCaches_dropCache (s : State) (key : Nat) : DropsCaches s (s.dropCache key) := by
  unfold State.dropCache
  split
  · exact .refl s
  · split
    · exact dropsCaches_caches s _
    · exact (dropsCaches_caches s _).trans (dropsCaches_freeFlash _ _)

theorem dropsCaches_foldl (ks : List Nat) (s : State) : DropsCaches s (ks.foldl State.dropCache s) := by
  induction ks generalizing s with
  | nil => exact .refl s
  | cons k ks ih => exact (dropsCaches_dropCache s k).trans (ih _)

theorem State.freeCache_caches (s : State) (key : Nat) (x : Cache) : (s.freeCache key x).serv.caches = Tab.del s.serv.caches key := rfl

theorem State.find_dropCache (s : State) (key j : Nat) :
    Tab.find (s.dropCache key).serv.caches j = if j = key then (Tab.find s.serv.caches j).bind (s.dropped? j) else Tab.find s.serv.caches j := by
  unfold State.dropCache
  split
  case h_1 hnone => by_cases hj : j = key <;> simp [hj, hnone]
  case h_2 x hx =>
    split
    case isTrue ho => by_cases hj : j = key <;> simp [hj, hx, ho, State.modServ, State.dropped?]
    case isFalse ho => by_cases hj : j = key <;> simp [hj, hx, ho, State.freeCache_caches, State.dropped?]

/-- A cache dropped twice is dropped once. -/
theorem State.dropped?_bind (s : State) (j : Nat) (o : Option Cache) : (o.bind (s.dropped? j)).bind (s.dropped? j) = o.bind (s.dropped? j) := by
  cases o with
  | none => rfl
  | some k => by_cases h : s.cacheOpen j = true <;> simp [State.dropped?, h]

theorem State.find_foldl_dropCache (ks : List Nat) (s : State) (j : Nat) :
    Tab.find (ks.foldl State.dropCache s).serv.caches j = if j ∈ ks then (Tab.find s.serv.caches j).bind (s.dropped? j) else Tab.find s.serv.caches j := by
  induction ks generalizing s with
  | nil => rfl
  | cons k ks ih =>
    have hfun : (s.dropCache k).dropped? j = s.dropped? j := funext ((dropsCaches_dropCache s k).dropped? j)
    rw [List.foldl_cons, ih, hfun, State.find_dropCache]
    by_cases hk : j = k <;> by_cases hm : j ∈ ks <;> simp [hk, hm, State.dropped?_bind]

theorem Tab.find_of_mem {α : Type} {l : Tab α} {k : Nat} {v : α} (hn : (Tab.keys l).Nodup) (h : (k, v) ∈ l) : Tab.find l k = some v := by
  induction l with
  | nil => cases h
  | cons e l ih =>
    obtain ⟨hnot, hrest⟩ := List.nodup_cons.mp hn
    rcases List.mem_cons.mp h with rfl | h
    · simp [Tab.find_cons]
    · have hne : e.1 ≠ k := fun he => hnot (List.mem_map.mpr ⟨(k, v), h, he.symm⟩)
      exact (if_neg hne).trans (ih hrest h)

/-- The caches that are in use and that a condition names, by key. -/
def State.liveCaches (s : State) (hit : Cache → Bool) : List Nat := (s.serv.caches.filter (fun e => hit e.2 && !e.2.dropped)).map (·.1)

theorem State.length_liveCaches (s : State) (hit : Cache → Bool) : (s.liveCaches hit).length = (s.serv.caches.filter (fun e => hit e.2 && !e.2.dropped)).length :=
  List.length_map _

theorem State.mem_liveCaches {s : State} {j : Nat} {k : Cache} (hit : Cache → Bool) (hn : (Tab.keys s.serv.caches).Nodup) (hk : Tab.find s.serv.caches j = some k) :
    j ∈ s.liveCaches hit ↔ hit k = true ∧ k.dropped = false := by
  simp only [State.liveCaches, List.mem_map, List.mem_filter, Bool.and_eq_true, Bool.not_eq_true']
  constructor
  · rintro ⟨⟨i, y⟩, ⟨hmem, hlive⟩, rfl⟩
    cases (Tab.find_of_mem hn hmem).symm.trans hk
    exact hlive
  · exact fun h => ⟨(j, k), ⟨Tab.mem_of_find hk, h⟩, rfl⟩

/-- Which caches a CACHE_DROP names: an item's, or a model's (13 R432). -/
def State.dropNames (s : State) (c : Cmd) (k : Cache) : Bool :=
  if c.field 0x10 1 = 0 then (s.named c.object).any (fun e => decide (k.lead = itemNo 0 e.2.gen e.1)) else decide (k.model = BitVec.ofNat 64 (c.field 0x18 8))

theorem exec_cacheDrop {s : State} {id : Nat} {c : Cmd} (hr : RunsItem s id 0x0306 c) (hf : s.formatted = true)
    (hc : c.field 0x10 1 ≠ 0 ∨ (s.named c.object).isSome = true) :
    exec (.cacheDrop id) s = .next (((s.liveCaches (s.dropNames c)).foldl State.dropCache s).succeed id (resultAt [(0x0C, 4, (s.liveCaches (s.dropNames c)).length)])) := by
  have hgood : (!s.formatted || (decide (c.field 0x10 1 = 0) && (s.named c.object).isNone)) = false := by
    rcases hc with h | h
    · simp [hf, h]
    · simp [hf, Option.isNone_eq_false_iff.mpr h]
  have hwhich : (if c.field 0x10 1 = 0 then
        ((s.serv.caches.filter (fun e => !e.2.dropped)).filter (fun e => (s.named c.object).map (fun i => itemNo 0 i.2.gen i.1) = some e.2.lead)).map (·.1)
      else ((s.serv.caches.filter (fun e => !e.2.dropped)).filter (fun e => e.2.model = BitVec.ofNat 64 (c.field 0x18 8))).map (·.1)) = s.liveCaches (s.dropNames c) := by
    unfold State.liveCaches State.dropNames
    split
    · rw [List.filter_filter]
      cases s.named c.object <;> simp [eq_comm]
    · rw [List.filter_filter]
  change execCacheDrop id s = _
  simp only [execCacheDrop, hr.1, hgood, hwhich, hr.runs.checked, Bool.false_eq_true, if_false]

/-! ## ITEMS_FORMAT (13 R433; 02 R87; 17 R549). -/

theorem State.cryptoErase_keys (s : State) (o : Owner) : (s.cryptoErase o).media.keys = s.media.keys := by
  obtain ⟨x, y, z, rs, hrs, -⟩ := s.media.records_clearOwner s.now o
  exact (congrArg Media.keys hrs :)

theorem State.cryptoErase_seq (s : State) (o : Owner) : (s.cryptoErase o).sec.pages.seq = s.sec.pages.seq + 1 := rfl

/-- The item areas under no key: every cache dropped and the four owners' keys destroyed. -/
def State.clearAreas (s : State) : State := ([16, 17, 18, 19] : List Nat).foldl State.cryptoErase ((Tab.keys s.serv.caches).foldl State.dropCache s)

theorem frame_clearAreas (s : State) : Frame [.media, .serv, .tiers, .health, .sec] s s.clearAreas := by
  have herase : ∀ (t : State) (o : Owner), Frame [.media, .serv, .tiers, .health, .sec] t (t.cryptoErase o) := fun t o => (frame_cryptoErase t o).mono (by simp)
  exact ((dropsCaches_foldl _ s).frame.mono (by simp)).trans
    ((herase _ 16).trans ((herase _ 17).trans ((herase _ 18).trans (herase _ 19))))

theorem State.clearAreas_keys (s : State) : s.clearAreas.media.keys = s.media.keys := by
  simp only [State.clearAreas, List.foldl_cons, List.foldl_nil, State.cryptoErase_keys]
  exact (dropsCaches_foldl _ s).keys

theorem State.clearAreas_seq (s : State) : s.clearAreas.sec.pages.seq = s.sec.pages.seq + 4 := by
  simp only [State.clearAreas, List.foldl_cons, List.foldl_nil, State.cryptoErase_seq]
  rw [(dropsCaches_foldl _ s).frame .sec (by simp)]

theorem State.clearAreas_caches (s : State) : s.clearAreas.serv.caches = ((Tab.keys s.serv.caches).foldl State.dropCache s).serv.caches := rfl

theorem Tab.find_of_not_mem {α : Type} {l : Tab α} {k : Nat} (h : k ∉ Tab.keys l) : Tab.find l k = none := by
  cases hf : Tab.find l k with
  | none => rfl
  | some v => exact absurd (List.mem_map.mpr ⟨(k, v), Tab.mem_of_find hf, rfl⟩) h

/-- No session holds a cache open, so none is left. -/
theorem State.find_clearAreas {s : State} (h : s.serv.sessions = []) (k : Nat) : Tab.find s.clearAreas.serv.caches k = none := by
  rw [State.clearAreas_caches, State.find_foldl_dropCache]
  split
  case isTrue hk => cases Tab.find s.serv.caches k <;> simp [State.dropped?, State.cacheOpen, h, Tab.vals]
  case isFalse hk => exact Tab.find_of_not_mem hk

/-- The item areas' tables as ITEMS_FORMAT leaves them, of a dimension, a width and the projection drawn for them. -/
def Items.emptied (x : Items) (dims width : Nat) (p : Projection) : Items :=
  { x with
    dims := dims, width := width, epoch := 1, items := [], genFloor := x.nextFloor, highWater := 0, reclaimed := [], holes := [], fresh := [], tombs := [], gone := []
    nodes := [], nodeGens := [], nextNode := 0, roots := [], merge := none, stale := [], bitmaps := [], side := 0, old := false, aside := [], label := 1#64
    proj := p.mant, projExp := p.exps, thresh := p.thresh }

/-- The cleared areas under new keys, with the security pages to be written once more. -/
def State.rekeyed (s : State) : State :=
  (s.clearAreas.modMedia (fun m => { m with
    areaKeys := [(16, m.keys), (18, m.keys + 1), (19, m.keys + 2)], maskKey := some (m.keys + 3), keys := m.keys + 4 })).secure

theorem State.formatAreas_eq (s : State) (dims width : Nat) :
    s.formatAreas dims width = (s.rekeyed.modItems (fun x => x.emptied dims width (s.rekeyed.drawProjection dims width))).spend (dims * width) := rfl

theorem State.rekeyed_items (s : State) : s.rekeyed.items = s.items := by
  rw [State.rekeyed, State.secure_items, State.modMedia_items]
  exact frame_clearAreas s .items (by simp)

theorem State.formatAreas_items (s : State) (dims width : Nat) :
    (s.formatAreas dims width).items = s.items.emptied dims width (s.rekeyed.drawProjection dims width) := by
  rw [State.formatAreas_eq, ← s.rekeyed_items, State.spend_items]
  generalize s.rekeyed = u
  rfl

theorem State.formatAreas_caches (s : State) (dims width : Nat) : (s.formatAreas dims width).serv.caches = s.clearAreas.serv.caches := rfl

theorem State.formatAreas_seq (s : State) (dims width : Nat) : (s.formatAreas dims width).sec.pages.seq = s.sec.pages.seq + 5 := congrArg (· + 1) s.clearAreas_seq

/-- The areas' new keys are the next ones in turn. -/
theorem State.formatAreas_newKeys (s : State) (dims width : Nat) : (s.formatAreas dims width).media.keys = s.media.keys + 4 ∧
    (s.formatAreas dims width).media.areaKeys = [(16, s.media.keys), (18, s.media.keys + 1), (19, s.media.keys + 2)] ∧
    (s.formatAreas dims width).media.maskKey = some (s.media.keys + 3) := by
  rw [← s.clearAreas_keys]
  exact ⟨rfl, rfl, rfl⟩

theorem frame_secure (s : State) : Frame [.sec] s s.secure := by
  intro p hp
  cases p <;> simp [Part.same] at hp ⊢

theorem frame_modItems (s : State) (f : Items → Items) : Frame [.items] s (s.modItems f) := by
  intro p hp
  cases p <;> simp [Part.same] at hp ⊢

theorem frame_formatAreas (s : State) (dims width : Nat) : Frame [.media, .items, .serv, .tiers, .freeCtr, .health, .sec] s (s.formatAreas dims width) := by
  rw [State.formatAreas_eq, State.rekeyed]
  exact ((frame_clearAreas s).mono (by simp)).trans (((frame_modMedia _ _).mono (by simp)).trans
    (((frame_secure _).mono (by simp)).trans (((frame_modItems _ _).mono (by simp)).trans ((frame_spend _ _).mono (by simp)))))

theorem exec_itemsFormat_formats {s : State} {id : Nat} {c : Cmd} (hr : Runs s id 0x0307 c) (h0 : c.stage = 0) (hw : s.itemWork c = false) (hs : s.serv.sessions = [])
    (ha : s.serv.adapt = none) (hg : max s.items.genFloor s.items.genMax ≤ 4194303) {u : State}
    (hu : u = s.formatAreas (c.field 0x10 2) (if c.field 0x12 1 = 0 then 256 else 512)) :
    exec (.itemsFormat id) s = .next (u.stage id 2 [u.media.jNext - 1, u.sec.pages.seq]) := by
  have herr : s.formatError = none := by
    have hroom : ¬ genTop < s.items.nextFloor := Nat.not_lt.mpr hg
    simp [State.formatError, hs, ha, hroom]
  subst hu
  change execItemsFormat id s = _
  simp only [execItemsFormat, hr.1, h0, hw, herr, hr.checked, Bool.false_eq_true, if_false, if_true, true_or, OfNat.zero_ne_ofNat]

theorem exec_itemsFormat_last {s : State} {id : Nat} {c : Cmd} (hr : Runs s id 0x0307 c) (h2 : c.stage = 2) :
    exec (.itemsFormat id) s = .next (if c.aux.headD 0 ≤ s.media.jDone ∧ s.keysGone (c.aux.getD 1 0) then s.succeed id [] else s) := by
  change execItemsFormat id s = _
  simp only [execItemsFormat, hr.1, h2, if_true]

/-- Settles O42: each command's execution in one equation, and what the reply, the drops and the formatted areas leave. -/
theorem itemReadsAndFormat : Obligations.ItemReadsAndFormat := by
  unfold Obligations.ItemReadsAndFormat
  refine ⟨?reads, ?unreadable, ?found, ?notFound, ?drops, ?formats, ?completes, ?waits⟩
  case reads =>
    intro s id i c x hr hx hl hs
    have k := readsPages_readSpots s (s.itemSpots c)
    have hhost := k.frame .host (by simp)
    exact ⟨_, exec_itemGet_reads hr hx hl hs, hostHolds_succeed _ _ _ _ hhost, succeeded_hostWrite _ _ _ _ hr.runs.cmd? hhost (k.frame.mono (by simp))⟩
  case unreadable =>
    intro s id i c x hr hx hl hs hb
    obtain ⟨l, he⟩ := exec_itemGet_unreadable hr hx hl hs hb
    have hf : Frame [.dies, .media, .health, .events, .freeCtr] s (((s.readSpots (s.itemSpots c)).uncorrectable l.1 l.2).spend 1) :=
      ((readsPages_readSpots s _).frame.mono (by simp)).trans (((frame_uncorrectable _ _ _).mono (by simp)).trans ((frame_spend _ _).mono (by simp)))
    generalize (((s.readSpots (s.itemSpots c)).uncorrectable l.1 l.2).spend 1) = u at he hf
    have hhost : u.host = s.host := hf .host (by simp)
    have hop : c.opcode ≠ 0x0401 ∧ c.opcode ≠ 0x0402 := by simp [hr.runs.opcode]
    obtain ⟨hreply, hsame, hframe⟩ := failed_self (st := .mediaUncorrectable) (State.cmd?_of_hostMem (u := u) hr.runs.cmd? ⟨_, hhost⟩) hop (by decide)
    exact ⟨_, he, replied_of_hostMem hreply ⟨_, hhost⟩, hsame.trans (congrArg HostT.hostMem hhost), (hf.mono (by simp)).trans (hframe.mono (by simp))⟩
  case found =>
    exact fun s id i c x k hr hx hk =>
      ⟨_, exec_cacheGet_found hr hx hk, hostHolds_succeed _ _ _ _ rfl, succeeded_hostWrite _ _ _ _ hr.runs.cmd? rfl (Frame.refl _ s)⟩
  case notFound =>
    intro s id i c x hr hx hk
    obtain ⟨hsucc, -, hsame⟩ := succeeded_self (resultAt [(0x0C, 4, 0)]) hr.runs.cmd?
    exact ⟨_, exec_cacheGet_none hr hx hk, hsame, hsucc⟩
  case drops =>
    intro s id c hit hr hf hn hc hhit
    replace hhit : hit = s.dropNames c := hhit
    subst hhit
    have k := dropsCaches_foldl (s.liveCaches (s.dropNames c)) s
    have hfind := s.find_foldl_dropCache (s.liveCaches (s.dropNames c))
    have he := exec_cacheDrop hr hf hc
    rw [State.length_liveCaches] at he
    generalize (s.liveCaches (s.dropNames c)).foldl State.dropCache s = u at k hfind he
    have hhost : u.host = s.host := k.frame .host (by simp)
    generalize resultAt [(0x0C, 4, (s.serv.caches.filter (fun e => s.dropNames c e.2 && !e.2.dropped)).length)] = res at he ⊢
    obtain ⟨hsucc, -, hsame⟩ := succeeded_self res (State.cmd?_of_hostMem (u := u) hr.runs.cmd? ⟨_, hhost⟩)
    have hserv : (u.succeed id res).serv = u.serv := hsucc.frame .serv (by simp)
    have htiers : (u.succeed id res).tiers = u.tiers := hsucc.frame .tiers (by simp)
    refine ⟨_, he, by rw [hserv]; exact k.serv, fun j x hj => ?_, fun j hj => ?_, by rw [htiers]; exact k.tiers, replied_of_hostMem hsucc.replied ⟨_, hhost⟩,
      hsame.trans (congrArg HostT.hostMem hhost), (k.frame.mono (by simp)).trans (hsucc.frame.mono (by simp))⟩
    · rw [hserv, hfind, hj]
      simp only [State.mem_liveCaches _ hn hj]
      rfl
    · rw [hserv, hfind, hj]
      simp
  case formats =>
    intro s id c hr h0 hw hs ha hg
    have hitems := s.formatAreas_items (c.field 0x10 2) (if c.field 0x12 1 = 0 then 256 else 512)
    obtain ⟨hkeys, hareas, hmask⟩ := s.formatAreas_newKeys (c.field 0x10 2) (if c.field 0x12 1 = 0 then 256 else 512)
    have hseq := s.formatAreas_seq (c.field 0x10 2) (if c.field 0x12 1 = 0 then 256 else 512)
    have hcaches := s.formatAreas_caches (c.field 0x10 2) (if c.field 0x12 1 = 0 then 256 else 512)
    have hf := frame_formatAreas s (c.field 0x10 2) (if c.field 0x12 1 = 0 then 256 else 512)
    have he := exec_itemsFormat_formats hr h0 hw hs ha hg rfl
    generalize s.formatAreas (c.field 0x10 2) (if c.field 0x12 1 = 0 then 256 else 512) = u at hitems hkeys hareas hmask hseq hcaches hf he
    have hhost : u.host = s.host := hf .host (by simp)
    have hw := waits_stage 2 [u.media.jNext - 1, u.sec.pages.seq] hr.cmd? hhost hf
    refine ⟨_, { c with stage := 2, aux := [u.media.jNext - 1, u.sec.pages.seq] }, s.media.keys, he, ?_⟩
    rw [show (u.stage id 2 [u.media.jNext - 1, u.sec.pages.seq]).items = _ from hitems]
    exact ⟨rfl, rfl, rfl, rfl, rfl, rfl, rfl, rfl, rfl, rfl, rfl, rfl, rfl, rfl, rfl, rfl, rfl, rfl, rfl, rfl,
      fun k => hcaches ▸ s.find_clearAreas hs k, hw.there, rfl, rfl,
      (hseq ▸ Nat.lt_add_of_pos_right (by decide) : s.sec.pages.seq < u.sec.pages.seq), le_rfl, hkeys, hareas, hmask,
      (congrArg HostT.hostMem hhost : u.host.hostMem = _), hw.frame.mono (by simp)⟩
  case completes =>
    intro s id c hr h2 hj hk
    obtain ⟨hsucc, -, hsame⟩ := succeeded_self [] hr.cmd?
    exact ⟨_, (exec_itemsFormat_last hr h2).trans (by rw [if_pos ⟨hj, hk⟩]), hsame, hsucc⟩
  case waits =>
    intro s id c hr h2 h
    rw [exec_itemsFormat_last hr h2, if_neg]
    rintro ⟨hj, hk⟩
    rcases h with h | h
    · omega
    · exact absurd (hk.symm.trans h) (by decide)

end Sys2Proof.Machine

/-! # The policy registers: their values at reset and their writes (08 R272 to R274; 14 R464, R469, R488; 16 R519, R534; 18 R558, R560, R566 to R568) -/

namespace Sys2Proof.Machine

/-- Settles O60: the reset state holds each value, and the registers that a read computes read as theirs. -/
theorem resetValues : Obligations.ResetValues := by
  have hway : ∀ q : QuarterNo, Tab.find State.reset.regul.ways q.val = some 0x4422221111111111#64 := by decide
  have hread : ∀ p : Port, State.reset.readReg p 0x1000 = 0 ∧ State.reset.readReg p 0x1008 = 0x09600000 ∧ State.reset.readReg p 0x1018 = 0 := fun
    | .a => ⟨rfl, rfl, rfl⟩
    | .b => ⟨rfl, rfl, rfl⟩
  exact ⟨rfl, rfl, rfl, rfl, rfl, rfl, rfl, rfl, hway, rfl, rfl, rfl, rfl, rfl, rfl, rfl, hread⟩

/-! ## Which writes a register takes (18 R557, R558). -/

section
variable {s : State} {w : RegW} {off : Nat} {old v : W64} {next : W64 → W64} {put : State → W64 → State}

theorem mergedW_other (cur : W64) (h : w.size = .other) : mergedW w cur = none := by rw [mergedW, h]

/-- An event would be recorded in a state as in the one before: no event has been, and the time it takes is the same. -/
structure SameRecorder (s t : State) : Prop where
  events : t.events = s.events
  opTime : t.opTime = s.opTime
  cycles : t.power.cycles = s.power.cycles

/-- The event of a policy register's write, with the values before and after (18 R568). -/
def State.policyEvent (s : State) (off : Nat) (old new : W64) : State :=
  s.record 0x5001 (sourceOf 0 0) (leBytes 4 off ++ leBytes 8 old.toNat ++ leBytes 8 new.toNat)

theorem policyWrite_owner (hg : s.power.good = true) (ho : s.isOwner w.port = true) (hm : mergedW w old = some v) :
    s.policyWrite w off old next put = (put s (next v)).policyEvent off old (next v) := by
  simp [State.policyWrite, State.policyEvent, hm, hg, ho]

/-- A write by the Sentinel, or of neither 64 bits nor an aligned half, does nothing. -/
theorem policyWrite_ignored (h : s.isOwner w.port = false ∨ w.size = .other) : s.policyWrite w off old next put = s := by
  unfold State.policyWrite
  rcases h with ho | hw
  · cases mergedW w old <;> simp [ho]
  · rw [mergedW_other old hw]

/-- A command that writes a policy register, by the Owner: the event on the register put in place, whose recorder is as before. -/
theorem exec_policyWrite {i : Instr} {ks : List Part} (he : exec i s = .next (s.policyWrite w off old next put)) (hg : s.power.good = true)
    (ho : s.isOwner w.port = true) (hm : mergedW w old = some v) (hr : SameRecorder s (put s (next v))) (hf : Frame ks s (put s (next v))) :
    exec i s = .next ((put s (next v)).policyEvent off old (next v)) ∧
      PolicyRecorded s ((put s (next v)).policyEvent off old (next v)) off old (next v) ∧
      Frame (ks ++ [.events]) s ((put s (next v)).policyEvent off old (next v)) := by
  refine ⟨he.trans (congrArg Host.Outcome.next (policyWrite_owner hg ho hm)), ?_, (hf.mono (by simp)).trans ((frame_record _ _ _ _).mono (by simp))⟩
  rw [PolicyRecorded, Recorded, ← hr.events, ← hr.opTime, ← hr.cycles]
  rfl

end

theorem frame_power (s : State) (x : Power) : Frame [.power] s { s with power := x } := by
  intro p hp
  cases p <;> simp [Part.same] at hp ⊢

theorem frame_regul (s : State) (x : Regul) : Frame [.regul] s { s with regul := x } := by
  intro p hp
  cases p <;> simp [Part.same] at hp ⊢

theorem frame_integ (s : State) (x : Integrity) : Frame [.integ] s { s with integ := x } := by
  intro p hp
  cases p <;> simp [Part.same] at hp ⊢

theorem frame_regul_tiers (s : State) (x : Regul) (y : Tiers) : Frame [.regul, .tiers] s { s with regul := x, tiers := y } := by
  intro p hp
  cases p <;> simp [Part.same] at hp ⊢

theorem frame_setPort (s : State) (p : Port) (x : PortState) : Frame [.host] s (s.setPort p x) := by
  intro q hq
  cases p <;> cases q <;> simp [Part.same, State.setPort] at hq ⊢

/-! ## PCSET (08 R272). -/

theorem Regul.pcset_setPcset_self (x : Regul) (c : Cls) (v : W64) : (x.setPcset c v).pcset c = v := by cases c <;> rfl

theorem Regul.pcset_setPcset_ne (x : Regul) {c k : Cls} (v : W64) (h : k ≠ c) : (x.setPcset c v).pcset k = x.pcset k := by
  cases c <;> cases k <;> simp [Regul.setPcset, Regul.pcset] at h ⊢

theorem Regul.setPcset_ways (x : Regul) (c : Cls) (v : W64) : (x.setPcset c v).ways = x.ways := by cases c <;> rfl

theorem Regul.setPcset_policy (x : Regul) (c : Cls) (v : W64) : (x.setPcset c v).policy = x.policy := by cases c <;> rfl

theorem rangeNext_pcset (old v : W64) :
    rangeNext old 0xFFFFFFFF#64 (fun v => v % 2 ^ 32 ≠ 0) v = if v.toNat % 2 ^ 32 = 0 then old else v &&& 0xFFFFFFFF#64 := by
  simp [rangeNext]

theorem exec_pcset (c : Cls) (w : RegW) (s : State) : exec (.pcset c w) s = .next (s.policyWrite w (0x1028 + 8 * c.code) (s.regul.pcset c)
    (rangeNext (s.regul.pcset c) 0xFFFFFFFF#64 (fun v => v % 2 ^ 32 ≠ 0)) (fun s v => { s with regul := s.regul.setPcset c v })) := rfl

/-! ## WAYS_Qn (08 R273). -/

/-- The number whose digits to the base 16 a function gives, from the lowest. -/
def nibbles (f : Nat → Nat) (n : Nat) : Nat := ((List.range n).map (fun i => f i * 16 ^ i)).foldl (· + ·) 0

section
variable {f : Nat → Nat} (hf : ∀ i, f i < 16)

theorem nibbles_succ (f : Nat → Nat) (n : Nat) : nibbles f (n + 1) = nibbles f n + f n * 16 ^ n := by
  simp [nibbles, List.range_succ]

include hf

theorem nibbles_lt (n : Nat) : nibbles f n < 16 ^ n := by
  induction n with
  | zero => simp [nibbles]
  | succ n ih =>
    calc nibbles f (n + 1) = nibbles f n + f n * 16 ^ n := nibbles_succ f n
      _ < 16 ^ n + 15 * 16 ^ n := Nat.add_lt_add_of_lt_of_le ih (Nat.mul_le_mul_right _ (Nat.le_of_lt_succ (hf n)))
      _ = 16 ^ (n + 1) := by ring

theorem nibbles_digit {n i : Nat} (hi : i < n) : nibbles f n / 16 ^ i % 16 = f i := by
  induction n with
  | zero => omega
  | succ n ih =>
    rw [nibbles_succ]
    rcases Nat.lt_succ_iff_lt_or_eq.mp hi with hlt | rfl
    · have hpow : f n * 16 ^ n = 16 ^ i * (16 * (16 ^ (n - i - 1) * f n)) := by
        obtain ⟨k, rfl⟩ := Nat.exists_eq_add_of_lt hlt
        rw [show i + k + 1 - i - 1 = k by omega]
        ring
      rw [hpow, Nat.add_mul_div_left _ _ (by positivity), Nat.add_mul_mod_self_left, ih hlt]
    · rw [Nat.add_mul_div_right _ _ (by positivity), Nat.div_eq_of_lt (nibbles_lt hf i), Nat.zero_add, Nat.mod_eq_of_lt (hf i)]

theorem bitsOf_nibbles {i : Nat} (hi : i < 16) : bitsOf (BitVec.ofNat 64 (nibbles f 16)).toNat (4 * i) 4 = f i := by
  have hlt : nibbles f 16 < 2 ^ 64 := (nibbles_lt hf 16).trans_eq (by norm_num)
  rw [BitVec.toNat_ofNat, Nat.mod_eq_of_lt hlt, bitsOf, Nat.pow_mul]
  exact nibbles_digit hf hi

end

theorem State.wayCode_lt (s : State) (q w : Nat) : s.wayCode q w < 16 := by
  unfold State.wayCode
  split
  · decide
  · exact Nat.mod_lt _ (by decide)

theorem State.nextWay_lt (s : State) (q w code : Nat) : s.nextWay q w code < 16 := by
  unfold State.nextWay
  split
  · exact s.wayCode_lt q w
  · next hcode => omega

/-! ## BUCKET_CONFIG (14 R469). -/

theorem Tab.at_changeAll {α : Type} (t : Tab α) (f : α → α) (k : Nat) (d : α) (hd : f d = d) : Tab.at (Tab.changeAll t f) k d = f (Tab.at t k d) := by
  rw [Tab.at_eq, Tab.find_changeAll, Tab.at_eq]
  cases Tab.find t k with
  | none => exact hd.symm
  | some v => rfl

/-- The buckets under a new DEPTH: none stands above it, and one with nothing in it is as before. -/
theorem at_buckets_cut (t : Tab Nat) (v : W64) (k : Nat) :
    Tab.at (Tab.changeAll t (fun n => min n (bitsOf v.toNat 0 8))) k 0 = min (Tab.at t k 0) (v.toNat % 256) := by
  rw [Tab.at_changeAll t (fun n => min n _) k 0 (Nat.zero_min _)]
  simp [bitsOf]

/-! ## The registers with writes of their own (12 R380; 14 R469; 18 R559). -/

section
variable {s : State} {w : RegW} {v : W64}

theorem exec_errSummaryClear_owner (ho : s.isOwner w.port = true) (hm : mergedW w 0#64 = some v) :
    exec (.errSummaryClear w) s = .next { s with integ := { s.integ with errSummary := s.integ.errSummary &&& ~~~(v.setWidth 12) } } := by
  change Host.Outcome.next (s.clearErr w) = _
  simp [State.clearErr, hm, ho]

theorem exec_errSummaryClear_ignored (h : s.isOwner w.port = false ∨ w.size = .other) : exec (.errSummaryClear w) s = .next s := by
  change Host.Outcome.next (s.clearErr w) = _
  unfold State.clearErr
  rcases h with ho | hw
  · cases mergedW w 0#64 <;> simp [ho]
  · rw [mergedW_other _ hw]

theorem size_ne_other_of_mergedW {cur : W64} (hm : mergedW w cur = some v) : w.size ≠ .other := fun h => nomatch hm.symm.trans (mergedW_other cur h)

theorem exec_registerWrite_errIrqEn (hg : s.power.good = true) (ho : s.isOwner w.port = true) (hm : mergedW w (s.integ.errIrqEn.setWidth 64) = some v) :
    exec (.registerWrite 0x1088 w) s = .next { s with integ := { s.integ with errIrqEn := v.setWidth 12 } } := by
  change execRegisterWrite 0x1088 w s = _
  simp [execRegisterWrite, State.writeErrIrq, hg, ho, hm, size_ne_other_of_mergedW hm]

theorem exec_registerWrite_adminCmdBase (hg : s.power.good = true) (ha : (s.port w.port).adminEn = false)
    (hm : mergedW w (s.port w.port).adminCmdBase = some v) :
    exec (.registerWrite 0x3000 w) s = .next (s.setPort w.port { s.port w.port with adminCmdBase := v }) := by
  change execRegisterWrite 0x3000 w s = _
  simp [execRegisterWrite, State.writeAdminReg, State.modPort, hg, ha, hm, size_ne_other_of_mergedW hm]

/-! ## REGISTER_WRITE (18 R557, R558, R560). -/

section
variable (hg : s.power.good = true) (hw : w.size ≠ .other)
include hg hw

/-- The offsets of the three PCSET registers. -/
theorem exec_registerWrite_pcset (c : Cls) : exec (.registerWrite (0x1028 + 8 * c.code) w) s = exec (.pcset c w) s := by
  change execRegisterWrite _ w s = .next (s.writePcset c w)
  cases c <;> simp [execRegisterWrite, Cls.code, hg, hw]

/-- The offsets of the four WAYS registers. -/
theorem exec_registerWrite_ways (q : QuarterNo) : exec (.registerWrite (0x1040 + 8 * q.val) w) s = exec (.ways q w) s := by
  change execRegisterWrite _ w s = .next (s.writeWays q.val w)
  fin_cases q <;> simp [execRegisterWrite, hg, hw]

/-- RO and reserved offsets. -/
theorem exec_registerWrite_readOnly :
    ∀ off ∈ [0x0, 0x8, 0x10, 0x18, 0x20, 0x28, 0x1000, 0x1008, 0x1090, 0x1098, 0x1200, 0x1400, 0x2008, 0x1380, 0x2010, 0x3030, 0x201000, 0x300000],
      exec (.registerWrite off w) s = .next s := by
  change ∀ off ∈ _, execRegisterWrite off w s = .next s
  simp [execRegisterWrite, hg, hw]

end

end

/-- Settles O13: a policy register's write by the Owner is its event on the register put in place, whose recorder is as before, and the nibbles of WAYS_Qn read back as
given; an access that no register takes leaves the state. -/
theorem policyRegisters : Obligations.PolicyRegisters := by
  unfold Obligations.PolicyRegisters
  refine ⟨?powerCap, ?regPolicy, ?pcset, ?ways, ?plane, ?bucket, ?integrity, ?media, ?errSummary, ?errIrq, ?adminBase, ?rows, ?ignored⟩
  case powerCap =>
    intro s w v hg ho hm
    obtain ⟨hexec, hrec, hframe⟩ := exec_policyWrite (i := .powerCap w) rfl hg ho hm ⟨rfl, rfl, rfl⟩ (frame_power s _)
    exact ⟨_, _, hexec, rfl, rfl, hrec, hframe⟩
  case regPolicy =>
    intro s w v hg ho hm
    obtain ⟨hexec, hrec, hframe⟩ := exec_policyWrite (i := .regPolicy w) rfl hg ho hm ⟨rfl, rfl, rfl⟩ (frame_regul s _)
    exact ⟨_, _, hexec, rfl, rfl, hrec, hframe⟩
  case pcset =>
    intro s w v c hg ho hm
    obtain ⟨hexec, hrec, hframe⟩ := exec_policyWrite (exec_pcset c w s) hg ho hm ⟨rfl, rfl, rfl⟩ (frame_regul s _)
    exact ⟨_, _, hexec, rangeNext_pcset _ _, s.regul.pcset_setPcset_self c _, fun k hk => s.regul.pcset_setPcset_ne _ hk, s.regul.setPcset_ways c _,
      s.regul.setPcset_policy c _, hrec, hframe⟩
  case ways =>
    intro s w v q hg ho hm
    obtain ⟨hexec, hrec, hframe⟩ := exec_policyWrite (i := .ways q w) rfl hg ho hm ⟨rfl, rfl, rfl⟩ (frame_regul_tiers s _ _)
    exact ⟨_, _, hexec, rfl, fun i hi => bitsOf_nibbles (fun i => s.nextWay_lt q.val i _) hi, rfl, hrec, hframe⟩
  case plane =>
    intro s w v hg ho hm
    obtain ⟨hexec, hrec, hframe⟩ := exec_policyWrite (i := .planeControl w) rfl hg ho hm ⟨rfl, rfl, rfl⟩ (frame_integ s _)
    exact ⟨_, _, hexec, rfl, rfl, hrec, hframe⟩
  case bucket =>
    intro s w v hg ho hm
    obtain ⟨hexec, hrec, hframe⟩ := exec_policyWrite (i := .bucketConfig w) rfl hg ho hm ⟨rfl, rfl, rfl⟩ (frame_integ s _)
    exact ⟨_, _, hexec, rfl, rfl, at_buckets_cut s.integ.buckets _, hrec, hframe⟩
  case integrity =>
    intro s w v hg ho hm
    obtain ⟨hexec, hrec, hframe⟩ := exec_policyWrite (i := .integrityPolicy w) rfl hg ho hm ⟨rfl, rfl, rfl⟩ (frame_integ s _)
    exact ⟨_, _, hexec, rfl, rfl, hrec, hframe⟩
  case media =>
    intro s w v hg ho hm
    obtain ⟨hexec, hrec, hframe⟩ := exec_policyWrite (i := .mediaPolicy w) rfl hg ho hm ⟨rfl, rfl, rfl⟩ (frame_power s _)
    exact ⟨_, _, hexec, rfl, rfl, hrec, hframe⟩
  case errSummary => exact fun s w v ho hm => ⟨_, exec_errSummaryClear_owner ho hm, rfl, frame_integ s _⟩
  case errIrq => exact fun s w v hg ho hm => ⟨_, exec_registerWrite_errIrqEn hg ho hm, rfl, frame_integ s _⟩
  case adminBase =>
    intro s w v hg ha hm
    exact ⟨_, exec_registerWrite_adminCmdBase hg ha hm, State.port_setPort_self _ _ _, State.port_setPort_other _ _ _, frame_setPort _ _ _⟩
  case rows =>
    intro s w hg hw
    have hrow : ∀ off t, execRegisterWrite off w s = .next t → exec (.registerWrite off w) s = .next t := fun _ _ h => h
    refine ⟨hrow _ (s.writePowerCap w) ?_, hrow _ (s.writeRegPolicy w) ?_, exec_registerWrite_pcset hg hw, exec_registerWrite_ways hg hw,
      hrow _ (s.writePlane w) ?_, hrow _ (s.writeBucket w) ?_, hrow _ (s.writeIntegrity w) ?_, hrow _ (s.writeMediaPolicy w) ?_, hrow _ (s.clearErr w) ?_,
      hrow _ (s.writeAdminEn w) ?_, ?hbControl, ?hbKick, hrow _ (s.writeDataDone w) ?_, exec_registerWrite_readOnly hg hw⟩
    case hbControl =>
      change execRegisterWrite _ w s = execHbControl w s
      simp [execRegisterWrite, execHbControl, hg, hw]
    case hbKick =>
      change execRegisterWrite _ w s = execHbKick w s
      simp [execRegisterWrite, execHbKick, hg, hw]
    all_goals simp [execRegisterWrite, hg, hw]
  case ignored =>
    intro s w h
    have hsame : ∀ {off old next put}, Host.Outcome.next (s.policyWrite w off old next put) = (.next s : Host.Outcome State Fault Refusal) :=
      congrArg Host.Outcome.next (policyWrite_ignored h)
    exact ⟨hsame, hsame, fun c => (exec_pcset c w s).trans hsame, fun _ => hsame, hsame, hsame, hsame, hsame, exec_errSummaryClear_ignored h⟩

end Sys2Proof.Machine

/-! # Steps and their composition (08 R259 to R262) -/

namespace Sys2Proof.Machine

/-! ## The slices that a step admits (08 R262). -/

/-- A composition has taken its slices' times off the front of those given, and keeps within the budget but for a lone slice. -/
structure Admits (budget : Option Nat) (tokenTime : Nat) (times : List Nat) (x : Composing) : Prop where
  left : x.times = times.drop x.slices.length
  used : x.used = tokenTime + (times.take x.slices.length).foldl (· + ·) 0
  fits : ∀ b, budget = some b → 2 ≤ x.slices.length → x.used ≤ b

section
variable {budget : Option Nat} {tokenTime : Nat} {times : List Nat}

theorem foldl_add_take_succ (l : List Nat) (n : Nat) : (l.take (n + 1)).foldl (· + ·) 0 = (l.take n).foldl (· + ·) 0 + (l.drop n).headD 0 := by
  rw [← List.sum_eq_foldl, ← List.sum_eq_foldl]
  induction l generalizing n with
  | nil => simp
  | cons a l ih =>
    cases n with
    | zero => simp
    | succ n => rw [List.take_succ_cons, List.take_succ_cons, List.sum_cons, List.sum_cons, ih n, List.drop_succ_cons, Nat.add_assoc]

/-- One slice more keeps the composition within the budget, but where it is the first. -/
theorem Admits.slice {x : Composing} (h : Admits budget tokenTime times x) (i : Nat × Nat × Nat)
    (hb : ∀ b, budget = some b → x.slices = [] ∨ x.used + x.times.headD 0 ≤ b) :
    Admits budget tokenTime times { x with slices := x.slices ++ [i], used := x.used + x.times.headD 0, times := x.times.drop 1 } where
  left := by simp [h.left]
  used := by
    rw [List.length_append, List.length_singleton, foldl_add_take_succ, h.used, h.left, Nat.add_assoc]
  fits b hbudget h2 := by
    rcases hb b hbudget with hnil | hle
    · simp [hnil] at h2
    · exact hle

theorem admits_composeChunk (c : Chunk) (n : Nat) {x : Composing} (h : Admits budget tokenTime times x) :
    Admits budget tokenTime times (composeChunk budget c n x).2 := by
  induction n generalizing c x with
  | zero => exact h
  | succ n ih =>
    rw [composeChunk]
    split
    case isTrue => exact h
    case isFalse =>
      cases budget with
      | none => exact ih _ (h.slice _ (by simp))
      | some b =>
        simp only
        split
        case isTrue => exact ⟨h.left, h.used, h.fits⟩
        case isFalse hpast =>
          refine ih _ (h.slice _ ?_)
          rintro _ ⟨rfl⟩
          by_cases hnil : x.slices = []
          · exact .inl hnil
          · exact .inr (by simpa [hnil] using hpast)

theorem admits_compose (cs : List Chunk) : Admits budget tokenTime times (compose budget tokenTime times cs) := by
  unfold compose
  refine List.foldlRecOn _ _ (motive := Admits budget tokenTime times) ⟨rfl, rfl, by simp⟩ (fun x hx c _ => ?_)
  obtain ⟨hleft, hused, hfits⟩ := admits_composeChunk c c.layers hx
  exact ⟨hleft, hused, hfits⟩

end

/-! ## The step that ends (08 R259, R260). -/

/-- A value changed under the keys of a condition. -/
theorem Tab.find_map_if {α : Type} (t : Tab α) (p : Nat → Prop) [DecidablePred p] (f : α → α) (k : Nat) :
    Tab.find (t.map (fun e => if p e.1 then (e.1, f e.2) else e)) k = if p k then (Tab.find t k).map f else Tab.find t k := by
  induction t with
  | nil => simp
  | cons e t ih =>
    obtain ⟨j, v⟩ := e
    rw [List.map_cons]
    by_cases hj : j = k
    · subst hj
      by_cases hp : p j <;> simp [hp, Tab.find_cons]
    · by_cases hp : p j <;> simp [hp, Tab.find_cons, hj, ih]

theorem Tab.exists_find_of_mem {α : Type} {t : Tab α} {k : Nat} {v : α} (h : (k, v) ∈ t) : ∃ u, Tab.find t k = some u := by
  induction t with
  | nil => cases h
  | cons e t ih =>
    rw [Tab.find_cons]
    split
    · exact ⟨_, rfl⟩
    · next hne =>
      rcases List.mem_cons.mp h with rfl | h
      · exact absurd rfl hne
      · exact ih h

/-- The state as the next step is composed: the step before it is over, and the chunks that wait are known. -/
def State.stepOver (s : State) : State :=
  s.tokensTaken.passesTaken.withSteps
    { s.tokensTaken.passesTaken.steps with chunks := s.tokensTaken.passesTaken.waitingChunks.1, known := s.tokensTaken.passesTaken.waitingChunks.2 }

/-- A session with a token more of its answer. -/
def Session.tokenGiven (y : Session) : Session := { y with run := y.run.map (fun r => { r with avail := r.avail + 1 }) }

theorem frame_steps_serv (s : State) (x : Steps) (l : Tab Session) : Frame [.steps, .serv] s { s with steps := x, serv := { s.serv with sessions := l } } := by
  intro p hp
  cases p <;> simp [Part.same] at hp ⊢

theorem State.find_stepOver (s : State) (n : Nat) : Tab.find s.stepOver.serv.sessions n =
    if n ∈ s.steps.batch then (Tab.find s.serv.sessions n).map Session.tokenGiven else Tab.find s.serv.sessions n :=
  Tab.find_map_if s.serv.sessions (· ∈ s.steps.batch) Session.tokenGiven n

theorem State.find_turnTaken (s : State) (batch : List Nat) (n : Nat) : Tab.find (s.turnTaken batch).serv.sessions n =
    if n ∈ batch then (Tab.find s.serv.sessions n).map (fun y => { y with lastStep := s.now }) else Tab.find s.serv.sessions n :=
  Tab.find_map_if s.serv.sessions (· ∈ batch) (fun y => { y with lastStep := s.now }) n

theorem State.turnTaken_nil (s : State) : s.turnTaken [] = s := by simp [State.turnTaken]

theorem State.stepOver_ran {s : State} {p : Nat} (h : p ∈ s.steps.passes) (hw : p ∈ s.wantedPasses) : p ∈ s.stepOver.steps.ran :=
  List.mem_filter.mpr ⟨List.mem_dedup.mpr (List.mem_append_right _ h), decide_eq_true hw⟩

theorem State.not_mem_backPasses {s : State} {p : Nat} (h : p ∈ s.steps.ran) : p ∉ s.backPasses := by
  simp [State.backPasses, h]

/-- Each of the sessions chosen for a batch is there. -/
theorem State.find_of_mem_readyBatch {s : State} {b : Nat} (h : b ∈ s.readyBatch) : ∃ x, Tab.find s.serv.sessions b = some x := by
  obtain ⟨e, he, rfl⟩ := List.mem_map.mp (List.mem_of_mem_take h)
  exact Tab.exists_find_of_mem (List.mem_filter.mp ((sortBy_perm _ _).mem_iff.mp he)).1

/-! ## The step composed (08 R259, R260). -/

/-- A step composed from a state: the next by number, whose Background passes have not run yet. -/
structure Composes (s : State) (x : Steps) : Prop where
  index : x.index = s.steps.index + 1
  ran : x.ran = s.steps.ran
  passes : ∀ p ∈ x.passes, p ∈ s.backPasses

/-- A step of kernel mode: at most one of a token step, a slice and a Background pass ends with it. -/
structure OneLayer (s : State) (x : Steps) : Prop extends Composes s x where
  kernel : x.svcKernel = true
  one : x.batch.length + x.admitted.length + x.passes.length ≤ 1

/-- A step that ends no token step gives no session its turn. -/
theorem OneLayer.noTurn {s : State} {x : Steps} (h : OneLayer s x) (hb : x.batch = []) : ∃ y, s.withSteps x = (s.turnTaken y.batch).withSteps y ∧ OneLayer s y :=
  ⟨x, by rw [hb, s.turnTaken_nil], h⟩

/-- A layer of a Background pass, on a step that has nothing yet. -/
theorem State.backLayer_oneLayer {s : State} {base : Steps} (h : OneLayer s base) (hb : base.batch = []) (ha : base.admitted = []) :
    ∃ x, s.backLayer base = (s.turnTaken x.batch).withSteps x ∧ OneLayer s x := by
  have hbase : ∀ back, OneLayer s { base with back := back } := fun _ => ⟨⟨h.index, h.ran, h.passes⟩, h.kernel, h.one⟩
  unfold State.backLayer
  split
  case h_1 => exact (hbase none).noTurn hb
  case h_2 p l hpass =>
    split
    case isTrue => exact (hbase _).noTurn hb
    case isFalse =>
      have hmem : p ∈ s.backPasses := by
        split at hpass
        case h_1 q hq =>
          cases hpass
          simpa using (Option.filter_eq_some_iff.mp hq).2
        case h_2 =>
          obtain ⟨q, hq, hpq⟩ := Option.map_eq_some_iff.mp hpass
          cases hpq
          exact List.mem_of_head? hq
      exact OneLayer.noTurn ⟨⟨h.index, h.ran, by simpa using hmem⟩, h.kernel, by simp [hb, ha]⟩ hb

/-- What a step in kernel mode comes to, whichever of the three it takes a layer of. -/
theorem State.kernelStep_oneLayer (s : State) (w : List Chunk × List Nat) :
    ∃ x, s.kernelStep w = (s.turnTaken x.batch).withSteps x ∧ OneLayer s x := by
  unfold State.kernelStep
  extract_lets src base token
  split
  case h_1 => exact OneLayer.noTurn ⟨⟨rfl, rfl, by simp [base]⟩, rfl, by simp [base]⟩ rfl
  case h_2 => exact State.backLayer_oneLayer ⟨⟨rfl, rfl, by simp [base]⟩, rfl, by simp [base]⟩ rfl rfl
  case h_3 =>
    split
    case h_1 => exact OneLayer.noTurn ⟨⟨rfl, rfl, by simp [base]⟩, rfl, by simp [base]⟩ rfl
    case h_2 =>
      extract_lets layers
      split
      case isTrue => exact OneLayer.noTurn ⟨⟨rfl, rfl, by simp [base]⟩, rfl, by simp [base]⟩ rfl
      case isFalse => exact ⟨_, rfl, ⟨rfl, rfl, by simp [base]⟩, rfl, by simp [base]⟩

section
variable (s : State) (h k : Nat) (l : List Nat)

theorem exec_stepCompose_kernelMode (hm : bitOf s.regul.policy.toNat 0 = true) :
    ∃ x, exec (.stepCompose h k l) s = .next ((s.stepOver.turnTaken x.batch).withSteps x) ∧ OneLayer s.stepOver x := by
  obtain ⟨x, hx, hone⟩ := s.stepOver.kernelStep_oneLayer s.tokensTaken.passesTaken.waitingChunks
  exact ⟨x, congrArg Host.Outcome.next ((if_pos hm).trans hx), hone⟩

theorem exec_stepCompose_stepMode (hm : bitOf s.regul.policy.toNat 0 = false) :
    ∃ x, exec (.stepCompose h k l) s = .next ((s.stepOver.turnTaken x.batch).withSteps x) ∧ Composes s.stepOver x ∧ x.svcKernel = false ∧ x.pass = none ∧
      x.batch = s.stepOver.readyBatch :=
  ⟨_, congrArg Host.Outcome.next (if_neg (ne_true_of_eq_false hm)), ⟨rfl, rfl, fun _ hp => hp⟩, rfl, rfl, rfl⟩

theorem exec_stepCompose_composes :
    ∃ x, exec (.stepCompose h k l) s = .next ((s.stepOver.turnTaken x.batch).withSteps x) ∧ Composes s.stepOver x := by
  cases hm : bitOf s.regul.policy.toNat 0 with
  | true => obtain ⟨x, hx, hone⟩ := exec_stepCompose_kernelMode s h k l hm; exact ⟨x, hx, hone.toComposes⟩
  | false => obtain ⟨x, hx, hc, -⟩ := exec_stepCompose_stepMode s h k l hm; exact ⟨x, hx, hc⟩

end

/-- Settles O35: each mode is computed once, as a batch that has its turn and the step composed; a composition keeps its sums and its budget with every slice. -/
theorem stepsComposed : Obligations.StepsComposed := by
  unfold Obligations.StepsComposed
  refine ⟨?stepMode, ?kernelMode, ?tokens, ?passes, ?used, ?budget⟩
  case stepMode =>
    intro s h k l _ hm
    obtain ⟨x, hx, hc, hkernel, hpass, hbatch⟩ := exec_stepCompose_stepMode s h k l hm
    refine ⟨_, hx, hc.index, hkernel, hpass, ?_, fun b hb => ?_, frame_steps_serv s _ _⟩
    · exact (congrArg List.length hbatch).trans_le (List.length_take_le _ _)
    · obtain ⟨y, hy⟩ := State.find_of_mem_readyBatch (hbatch ▸ hb : b ∈ s.stepOver.readyBatch)
      exact ⟨{ y with lastStep := s.now }, by rw [State.withSteps_serv, State.find_turnTaken, if_pos (show b ∈ x.batch from hb), hy]; rfl, rfl⟩
  case kernelMode =>
    intro s h k l _ hm
    obtain ⟨x, hx, hone⟩ := exec_stepCompose_kernelMode s h k l hm
    exact ⟨_, hx, hone.index, hone.kernel, hone.one, frame_steps_serv s _ _⟩
  case tokens =>
    intro s h k n l y r _ hn hy hr
    obtain ⟨x, hx, -⟩ := exec_stepCompose_composes s h k l
    have hover : Tab.find s.stepOver.serv.sessions n = some y.tokenGiven := by rw [State.find_stepOver, if_pos hn, hy, Option.map_some]
    have hrun : y.tokenGiven.run = some { r with avail := r.avail + 1 } := congrArg (Option.map _) hr
    have hfind := s.stepOver.find_turnTaken x.batch n
    rw [hover] at hfind
    split at hfind
    · exact ⟨_, _, _, hx, hfind, hrun, rfl⟩
    · exact ⟨_, _, _, hx, hfind, hrun, rfl⟩
  case passes =>
    intro s h k p l hp hw
    obtain ⟨x, hx, hc⟩ := exec_stepCompose_composes s h k l
    have hran := State.stepOver_ran hp hw
    exact ⟨_, hx, (hc.ran ▸ hran : p ∈ x.ran), fun hmem => State.not_mem_backPasses hran (hc.passes p hmem)⟩
  case used => exact fun b k l cs => (admits_compose cs).used
  case budget => exact fun b k l cs h2 => (admits_compose cs).fits b rfl h2

end Sys2Proof.Machine

/-! # A leaf scan on a die whose query slots are listed out of order (01 R39, R40; 09 R302)

The clause of O47 on a scan that is issued speaks of every state, and so of dies whose table of query slots is not a table by rising keys, which no frame makes. -/

namespace Sys2Proof.Machine

/-- The one scan that waits, under the conditions on its die, is issued; it has left the queue where the die took it. -/
theorem exec_dieScanIssue_alone {s : State} {d : DieNo} {q : ScanReq} (hq : s.items.scans = [q]) (hr : Tab.find s.items.running d.val = none)
    (hd : s.leafDie q.leaf = some d.val) (hw : s.items.leafWritten q.leaf = true) (ht : (s.die d).takes .other = true) (ho : s.media.windowOver s.now d = false)
    (hb : s.oneBin d ((s.leafChain q.leaf).map chainRow) = true) {t : State}
    (hi : t = (s.loadSets d .slc ((s.leafChain q.leaf).map chainRow)).issueScan d [q] (s.leafChain q.leaf)) :
    exec (.dieScanIssue d) s = .next (if (t.die d).scanRun.isSome then
      t.modItems (fun y => { y with scans := y.scans.filter (fun r => r ∉ [q]), running := Tab.put y.running d.val ([q].map some) }) else s) := by
  have hc : s.collect d = s := by simp [State.collect, hr]
  have hhead : sortBy scanBefore (s.items.scans.filter (fun r => s.leafDie r.leaf = some d.val && s.items.leafWritten r.leaf)) = [q] := by
    simp [hq, hd, hw, sortBy, insertBy]
  change execDieScanIssue d s = _
  simp only [execDieScanIssue, hc, hhead, ht, ho, hb, hi, if_true]
  simp

/-- A scan waiting for the one leaf of the index. -/
def waitingScan : ScanReq := ⟨.cmd 0, .interactive, none, 0, 0, [], 0⟩

/-- A die whose query slots are listed as 1 and then 0, slot 0 with a sketch of 512 bits. -/
def unorderedSlots : Die := { Die.reset with queries := [(1, default), (0, ⟨true, 0⟩)] }

/-- The reset state with a leaf of one sketch of 256 bits in block 0 of die 0, that die, and the scan in its queue. -/
def scanOnUnordered : State := { State.reset with
  dies := [(0, unorderedSlots)]
  media := { State.reset.media with map := [(9, ⟨0, true, false, 17, 0⟩)] }
  items := { State.reset.items with
    dims := 32, width := 256, scans := [waitingScan], nodes := [(0, (0, .leaf (some ⟨0, 0, 0, [true, true], [true, true]⟩) [some (3, 0)]))], nextNode := 1 } }

theorem leafChain_scanOnUnordered : scanOnUnordered.leafChain waitingScan.leaf = [0#32] := by decide +kernel

theorem oneBin_scanOnUnordered : scanOnUnordered.oneBin 0 ((scanOnUnordered.leafChain waitingScan.leaf).map chainRow) = true := by
  rw [leafChain_scanOnUnordered]
  simp [State.oneBin]

/-- LOAD_QUERY puts slot 0 before slot 1, where the old slot 0 stays behind it; the two have different widths, and SCAN is refused. -/
theorem scan_refused_scanOnUnordered :
    ((((scanOnUnordered.loadSets 0 .slc [chainRow 0#32]).issueScan 0 [waitingScan] [0#32]).die 0).scanRun).isSome = false := by decide +kernel

theorem exec_dieScanIssue_scanOnUnordered : exec (.dieScanIssue 0) scanOnUnordered = .next scanOnUnordered := by
  rw [exec_dieScanIssue_alone (q := waitingScan) rfl rfl (by decide +kernel) (by decide +kernel) (by decide +kernel) (by decide +kernel) oneBin_scanOnUnordered rfl,
    leafChain_scanOnUnordered, List.map_singleton, scan_refused_scanOnUnordered]
  exact congrArg Host.Outcome.next (if_neg Bool.false_ne_true)


theorem chainOk_scanOnUnordered :
    ∀ e ∈ scanOnUnordered.leafChain waitingScan.leaf, (scanOnUnordered.die 0).chainEntryOk scanOnUnordered.freeCtr e = true := by
  rw [leafChain_scanOnUnordered, List.forall_mem_singleton]
  decide +kernel

theorem chainEnd_scanOnUnordered : chainEnd ((scanOnUnordered.leafChain waitingScan.leaf).take 32) ≠ [] := by
  rw [leafChain_scanOnUnordered]
  decide +kernel

/-- Refutes O47: a die that lists slot 1 before an old slot 0 keeps that entry behind the one that LOAD_QUERY puts, so SCAN finds two widths under its mask and refuses, and the
request stays in its queue. The clause on an issued scan asks of the die that it takes the frame and has no undefined modes, and nothing of its query slots. -/
theorem not_indexUpkeep : ¬ Obligations.IndexUpkeep := by
  unfold Obligations.IndexUpkeep
  rintro ⟨-, -, -, -, -, -, hscan, -⟩
  obtain ⟨t, hexec, hitems, -⟩ := hscan scanOnUnordered 0 waitingScan rfl rfl (by decide +kernel) (by decide +kernel) (by decide +kernel) (by decide +kernel) rfl (by decide +kernel)
    oneBin_scanOnUnordered chainOk_scanOnUnordered chainEnd_scanOnUnordered
  have hsame : t = scanOnUnordered := Host.Outcome.next.inj (hexec.symm.trans exec_dieScanIssue_scanOnUnordered)
  have hscans : t.items.scans = [] := by rw [hitems]
  rw [hsame] at hscans
  exact List.cons_ne_nil waitingScan [] hscans

end Sys2Proof.Machine

/-! # What a search returns (09 R282, R296, R301 to R306) -/

namespace Sys2Proof.Machine

/-- What a selection keeps are elements it was given. -/
theorem mem_of_mem_selectK {int dedup : Bool} {k : Nat} {els : List SelEl} {e : SelEl} (h : e ∈ (selectK int dedup k els).sel) : e ∈ els :=
  ((mem_rankedEls int els).mp ((selectK_sublist int dedup k els).subset h)).1

theorem selectK_index_nodup (int : Bool) (k : Nat) (els : List SelEl) : ((selectK int true k els).sel.map (·.index)).Nodup := by
  rw [selectK_sel, if_pos rfl]
  exact (firstCopies_nodup _).sublist ((List.take_sublist k _).map _)

theorem mem_of_mem_chunksOf {α : Type} {n : Nat} {l g : List α} {a : α} (hg : g ∈ chunksOf n l) (ha : a ∈ g) : a ∈ l := by
  obtain ⟨i, -, rfl⟩ := List.mem_map.mp hg
  exact List.mem_of_mem_drop (List.mem_of_mem_take ha)

/-- The indices that a merge of lists keeps are theirs (09 R304). -/
theorem mergeLists_index {p : Nat → Prop} (rerank n : Nat) {ls : List (List SelEl)} (h : ∀ l ∈ ls, ∀ e ∈ l, p e.index) : ∀ e ∈ (mergeLists rerank n ls).1, p e.index := by
  induction n generalizing ls with
  | zero =>
    intro e he
    obtain ⟨l, hl, hel⟩ := List.mem_flatten.mp he
    exact h l hl e hel
  | succ n ih =>
    have hone : ∀ per, ∀ m ∈ (chunksOf per ls).map (fun g => selectK true true rerank (g.flatten.mapIdx (fun i e => { e with pos := i }))), ∀ e ∈ m.sel, p e.index := by
      intro per m hm e he
      obtain ⟨g, hg, rfl⟩ := List.mem_map.mp hm
      obtain ⟨i, hi, rfl⟩ := List.mem_mapIdx.mp (mem_of_mem_selectK he)
      obtain ⟨l, hl, hel⟩ := List.mem_flatten.mp (List.getElem_mem hi)
      exact h l (mem_of_mem_chunksOf hg hl) g.flatten[i] hel
    rw [mergeLists]
    generalize max 2 _ = per
    specialize hone per
    dsimp only
    split
    case h_1 => simp
    case h_2 m hm => exact hone m (hm ▸ List.mem_singleton_self m)
    case h_3 =>
      refine ih fun l hl e he => ?_
      obtain ⟨m, hm, rfl⟩ := List.mem_map.mp hl
      exact hone m hm e he

theorem Items.mem_allowedAt {x : Items} {e : Nat} {image : Option Bitmap} {q : Query1} {i : Nat} :
    i ∈ x.allowedAt e image q ↔ ∃ y, (i, y) ∈ x.items ∧ y.visible e = true ∧ (∀ b, image = some b → b.allows i = true) ∧ q.filter.passes y = true := by
  unfold Items.allowedAt
  cases image <;> simp [and_assoc]

/-- The masks of a query pass allowed indices alone (09 R301, R302). -/
theorem Items.allowed_of_passesMask {x : Items} {e i : Nat} {allowed : Nat → Bool} (h : x.passesMask e allowed i = true) : allowed i = true := by
  simp only [Items.passesMask, Bool.and_eq_true] at h
  exact h.1.1

/-- The handle of an index a query may return. -/
def State.Gives (s : State) (a : Admitted) (h : Nat) : Prop := ∃ i ∈ a.allowed, h = s.handleAt i

section
variable {s : State} {a : Admitted}

theorem State.handleAt_of_find {i : Nat} {y : Item} (h : Tab.find s.items.items i = some y) : s.handleAt i = s.itemHandle i y := by
  rw [State.handleAt, h, Option.map_some, Option.getD_some]

theorem State.leafCands_gives {l : LeafList} {c : Nat × Nat} (h : c ∈ s.leafCands a l) : s.Gives a c.2 := by
  obtain ⟨e, -, he⟩ := List.mem_filterMap.mp h
  obtain ⟨m, -, hm⟩ := Option.bind_eq_some_iff.mp he
  split at hm
  case isFalse => cases hm
  case isTrue hok =>
    obtain ⟨hallowed, hgen⟩ := hok
    obtain ⟨y, hy, hgen⟩ := Option.map_eq_some_iff.mp hgen
    obtain rfl := Option.some.inj hm
    exact ⟨m.1, hallowed, by rw [State.handleAt_of_find hy, State.itemHandle, hgen]⟩

theorem Items.freshAt_allowed {x : Items} {k : Nat} {f : FreshE} (h : x.freshAt a k = some f) : f.index ∈ a.allowed := by
  have hseen := List.find?_some h
  simp only [Items.freshSeen, Bool.and_eq_true] at hseen
  exact of_decide_eq_true (Items.allowed_of_passesMask hseen.2.2)

/-- Every candidate of a query is an item it may return, whatever lists the leaf scans gave (09 R303, R304). -/
theorem State.candidates_give (q : Query1) (lists : List LeafList) : ∀ c ∈ (s.candidates q a lists).1, s.Gives a c.index := by
  unfold State.candidates
  dsimp only
  split
  case isTrue =>
    intro c hc
    obtain ⟨i, hi, rfl⟩ := List.mem_mapIdx.mp hc
    exact ⟨_, List.getElem_mem hi, rfl⟩
  case isFalse =>
    refine mergeLists_index _ _ fun l hl e he => ?_
    rcases List.mem_append.mp hl with hl | hl
    case inl =>
      obtain ⟨l, -, rfl⟩ := List.mem_map.mp hl
      obtain ⟨c, hc, rfl⟩ := List.mem_map.mp he
      exact State.leafCands_gives hc
    case inr =>
      obtain ⟨l, -, rfl⟩ := List.mem_map.mp hl
      obtain ⟨k, -, hk⟩ := List.mem_filterMap.mp he
      obtain ⟨f, hf, rfl⟩ := Option.map_eq_some_iff.mp hk
      exact ⟨f.index, Items.freshAt_allowed hf, rfl⟩

/-- What a search selects are candidates, and none is the excluded one (09 R305, R306). -/
theorem State.mem_finish {q : Query1} {lists : List LeafList} {r : SearchReads} {x : SelEl} (h : x ∈ (s.finish q a lists r).sel.sel) :
    q.exclude ≠ some x.index ∧ ∃ c ∈ (s.candidates q a lists).1, c.index = x.index := by
  obtain ⟨hscored, hexclude⟩ := List.mem_filter.mp (mem_of_mem_selectK h)
  obtain ⟨i, hi, rfl⟩ := List.mem_mapIdx.mp hscored
  exact ⟨of_decide_eq_true hexclude, _, List.mem_of_mem_filter (List.getElem_mem hi), rfl⟩

end

/-- Settles O45: the candidates are items the query's admission allows, the rescoring keeps their indices, and the final selection keeps the first copy of each. -/
theorem searchReturnsAllowed : Obligations.SearchReturnsAllowed := by
  unfold Obligations.SearchReturnsAllowed
  intro s e image q lists r
  refine ⟨fun x hx => ?_, selectK_index_nodup _ _ _, selectK_length_le _ _ _ _⟩
  obtain ⟨hexclude, c, hc, hcx⟩ := State.mem_finish hx
  obtain ⟨i, hi, hci⟩ := State.candidates_give q lists c hc
  obtain ⟨y, hy, hvisible, hmap, hpasses⟩ := Items.mem_allowedAt.mp hi
  exact ⟨hexclude, (i, y), hy, hvisible, hpasses, hmap, hcx.symm.trans hci⟩

end Sys2Proof.Machine

/-! # Queries admitted again, and stored bitmaps (09 R292, R293, R296; 13 R435 to R437) -/

namespace Sys2Proof.Machine

/-! ## Queries changed in place. -/

theorem Items.who_of_query? {x : Items} {w : Asker} {y : Query} (h : x.query? w = some y) : y.who = w := of_decide_eq_true (List.find?_some h :)

theorem Items.mem_of_query? {x : Items} {w : Asker} {y : Query} (h : x.query? w = some y) : y ∈ x.queries := List.mem_of_find?_eq_some h

theorem Items.query?_map {x y : Items} {g : Query → Query} (hy : y.queries = x.queries.map g) (hg : ∀ z, (g z).who = z.who) (w : Asker) :
    y.query? w = (x.query? w).map g := by
  rw [Items.query?, hy, List.find?_map]
  simp only [Function.comp_def, hg]
  rfl

/-- The queries of one asker are changed in place as a relation says, and no other; the bitmaps and the epoch stay. -/
structure Requeries (s t : State) (w : Asker) (p : Query → Query → Prop) : Prop where
  bitmaps : t.items.bitmaps = s.items.bitmaps
  epoch : t.items.epoch = s.items.epoch
  queries : ∃ g : Query → Query, t.items.queries = s.items.queries.map g ∧ (∀ z, z.who ≠ w → g z = z) ∧ ∀ z, z.who = w → (g z).who = w ∧ p z (g z)

section
variable {s t u : State} {w : Asker} {p q r : Query → Query → Prop}

theorem Requeries.query? (h : Requeries s t w p) (v : Asker) :
    ∃ g : Query → Query, t.items.query? v = (s.items.query? v).map g ∧ (∀ z, z.who ≠ w → g z = z) ∧ ∀ z, z.who = w → p z (g z) := by
  obtain ⟨g, hqueries, hother, hself⟩ := h.queries
  have hwho : ∀ z, (g z).who = z.who := fun z => by
    by_cases hz : z.who = w
    · rw [(hself z hz).1, hz]
    · rw [hother z hz]
  exact ⟨g, Items.query?_map hqueries hwho v, hother, fun z hz => (hself z hz).2⟩

theorem Requeries.query?_ne (h : Requeries s t w p) {v : Asker} (hv : v ≠ w) : t.items.query? v = s.items.query? v := by
  obtain ⟨g, hquery, hother, -⟩ := h.query? v
  rw [hquery]
  cases hs : s.items.query? v with
  | none => rfl
  | some z => exact congrArg some (hother z (Items.who_of_query? hs ▸ hv))

theorem Requeries.query?_self (h : Requeries s t w p) {z : Query} (hz : s.items.query? w = some z) : ∃ z', t.items.query? w = some z' ∧ p z z' := by
  obtain ⟨g, hquery, -, hself⟩ := h.query? w
  exact ⟨g z, by rw [hquery, hz]; rfl, hself z (Items.who_of_query? hz)⟩

theorem Requeries.trans (h : Requeries s t w p) (k : Requeries t u w q) (hr : ∀ a b c, p a b → q b c → r a c) : Requeries s u w r := by
  obtain ⟨g, hg, hother, hself⟩ := h.queries
  obtain ⟨f, hf, fother, fself⟩ := k.queries
  refine ⟨k.bitmaps.trans h.bitmaps, k.epoch.trans h.epoch, f ∘ g, by rw [hf, hg, List.map_map], fun z hz => ?_, fun z hz => ?_⟩
  · rw [Function.comp_apply, hother z hz, fother z hz]
  · obtain ⟨hwho, hp⟩ := hself z hz
    obtain ⟨fwho, fq⟩ := fself (g z) hwho
    exact ⟨fwho, hr _ _ _ hp fq⟩

/-- A query starts, where there is one: what it asks and its lists are set. -/
theorem requeries_startQuery (s : State) (w : Asker) (a : Query1) : Requeries s (s.startQuery w a) w (fun z z' => z' = { z with ask := z'.ask, lists := z'.lists }) := by
  unfold State.startQuery
  split
  case h_1 => exact ⟨rfl, rfl, id, (List.map_id _).symm, fun _ _ => rfl, fun _ hz => ⟨hz, rfl⟩⟩
  case h_2 => exact ⟨rfl, rfl, _, rfl, fun z hz => if_neg hz, fun z hz => by simp [hz]⟩

end

/-! ## Queries admitted again in the tick of a change (09 R282, R293). -/

/-- The image a query has now of the bitmap it names: the stored one, else the one it took. -/
def State.imageNow (s : State) (y : Query) : Option (Nat × Bitmap) := y.image.map (fun p => (p.1, (Tab.find s.items.bitmaps p.1).getD p.2))

/-- One query admitted again: its scans end, it takes the epoch and its image, and where its vector is known it starts anew. -/
def State.readmitOne (s : State) (y : Query) : State :=
  let image := s.imageNow y
  let s := s.modItems (fun x =>
    let z := x.endQuery s.now y.who
    { x with scans := z.scans, running := z.running, queries := x.queries.map (fun z => if z.who = y.who then { z with epoch := x.epoch, image := image } else z) })
  match y.ask with
  | some (q, _) => s.startQuery y.who q
  | none => s

theorem State.readmit_eq (s : State) : s.readmit = (s.items.queries.filter (fun y => y.tick = s.tick)).foldl State.readmitOne s := rfl

theorem State.readmit_of_none {s : State} (h : ∀ q ∈ s.items.queries, q.tick ≠ s.tick) : s.readmit = s := by
  have hnone : s.items.queries.filter (fun y => y.tick = s.tick) = [] := List.filter_eq_nil_iff.mpr (by simpa using h)
  rw [State.readmit_eq, hnone]
  rfl

/-- A query as it is after it was admitted again: under an epoch and an image, and it may have started anew. -/
def Readmitted (e : Nat) (image : Option (Nat × Bitmap)) (z z' : Query) : Prop := z' = { z with epoch := e, image := image, ask := z'.ask, lists := z'.lists }

theorem Readmitted.trans {e e' : Nat} {i i' : Option (Nat × Bitmap)} {x y z : Query} (h : Readmitted e i x y) (k : Readmitted e' i' y z) : Readmitted e' i' x z := by
  unfold Readmitted at h k ⊢
  rw [h] at k
  exact k

theorem requeries_readmitOne (s : State) (y : Query) : Requeries s (s.readmitOne y) y.who (Readmitted s.items.epoch (s.imageNow y)) := by
  unfold State.readmitOne
  extract_lets image t
  have ht : Requeries s t y.who (Readmitted s.items.epoch (s.imageNow y)) :=
    ⟨rfl, rfl, _, rfl, fun z hz => if_neg hz, fun z hz => by simp [hz, Readmitted, image]⟩
  split
  case h_1 q _ _ =>
    refine ht.trans (requeries_startQuery t y.who q) fun a b c hab hbc => ?_
    unfold Readmitted at hab ⊢
    rw [hab] at hbc
    exact hbc
  case h_2 => exact ht

theorem State.query?_foldl_readmitOne_ne {l : List Query} {w : Asker} (h : ∀ y ∈ l, y.who ≠ w) (s : State) : (l.foldl State.readmitOne s).items.query? w = s.items.query? w := by
  induction l generalizing s with
  | nil => rfl
  | cons y l ih =>
    obtain ⟨hy, hl⟩ := List.forall_mem_cons.mp h
    exact (ih hl _).trans ((requeries_readmitOne s y).query?_ne (Ne.symm hy))

theorem State.query?_foldl_readmitOne {l : List Query} {w : Asker} {s : State} {z : Query} (hz : s.items.query? w = some z) (h : ∃ y ∈ l, y.who = w) :
    ∃ z' y, (l.foldl State.readmitOne s).items.query? w = some z' ∧ y ∈ l ∧ y.who = w ∧ Readmitted s.items.epoch (s.imageNow y) z z' := by
  induction l generalizing s z with
  | nil => simp at h
  | cons y l ih =>
    have hstep := requeries_readmitOne s y
    by_cases hl : ∃ y ∈ l, y.who = w
    case neg =>
      have hy : y.who = w := by
        obtain ⟨x, hx, hxw⟩ := h
        rcases List.mem_cons.mp hx with rfl | hx
        · exact hxw
        · exact absurd ⟨x, hx, hxw⟩ hl
      obtain ⟨z', hz', hp⟩ := hstep.query?_self (hy ▸ hz)
      refine ⟨z', y, ?_, List.mem_cons_self, hy, hp⟩
      rw [List.foldl_cons, State.query?_foldl_readmitOne_ne fun x hx hxw => hl ⟨x, hx, hxw⟩]
      exact hy ▸ hz'
    case pos =>
      have hnow : ∀ x, (s.readmitOne y).imageNow x = s.imageNow x := fun x => by rw [State.imageNow, hstep.bitmaps]; rfl
      by_cases hy : y.who = w
      case pos =>
        obtain ⟨z₁, hz₁, hp⟩ := hstep.query?_self (hy ▸ hz)
        obtain ⟨z', x, hz', hx, hxw, hp'⟩ := ih (hy ▸ hz₁) hl
        rw [hstep.epoch, hnow] at hp'
        exact ⟨z', x, hz', List.mem_cons_of_mem y hx, hxw, hp.trans hp'⟩
      case neg =>
        obtain ⟨z', x, hz', hx, hxw, hp'⟩ := ih ((hstep.query?_ne (Ne.symm hy)).trans hz) hl
        rw [hstep.epoch, hnow] at hp'
        exact ⟨z', x, hz', List.mem_cons_of_mem y hx, hxw, hp'⟩

/-- A query whose asker has none of this tick keeps all it has. -/
theorem State.query?_readmit_ne {s : State} {w : Asker} (h : ∀ z ∈ s.items.queries, z.who = w → z.tick ≠ s.tick) : s.readmit.items.query? w = s.items.query? w := by
  rw [State.readmit_eq]
  refine State.query?_foldl_readmitOne_ne (fun y hy hw => ?_) s
  obtain ⟨hmem, htick⟩ := List.mem_filter.mp hy
  exact h y hmem hw (of_decide_eq_true htick)

/-- A query of this tick takes the epoch and the image that one of its asker's queries of this tick has now. -/
theorem State.query?_readmit {s : State} {y : Query} (h : s.items.query? y.who = some y) (ht : y.tick = s.tick) :
    ∃ z' y', s.readmit.items.query? y.who = some z' ∧ y' ∈ s.items.queries ∧ y'.who = y.who ∧ Readmitted s.items.epoch (s.imageNow y') y z' := by
  rw [State.readmit_eq]
  have hmem : y ∈ s.items.queries.filter (fun y => y.tick = s.tick) := List.mem_filter.mpr ⟨Items.mem_of_query? h, decide_eq_true ht⟩
  obtain ⟨z', y', hz', hy', hwho, hp⟩ := State.query?_foldl_readmitOne h ⟨y, hmem, rfl⟩
  exact ⟨z', y', hz', (List.mem_filter.mp hy').1, hwho, hp⟩

/-! ## The pool of T2 gives way (07 R235). -/

/-- States that differ by the tiles of T2 alone. -/
def OnlyTiles (s t : State) : Prop := t = s.modTiers (fun x => { x with t2 := t.tiers.t2 })

theorem OnlyTiles.refl (s : State) : OnlyTiles s s := rfl

theorem OnlyTiles.trans {s t u : State} (h : OnlyTiles s t) (k : OnlyTiles t u) : OnlyTiles s u := by
  unfold OnlyTiles at h k ⊢
  rw [h] at k
  exact k

theorem onlyTiles_fitPool (s : State) : OnlyTiles s s.fitPool := by
  have hevict : ∀ (t : State) (a : Nat), OnlyTiles t (t.evictTile a).movedHome := fun t a => by
    have hmoved : ∀ u : State, OnlyTiles u u.movedHome := fun _ => rfl
    refine OnlyTiles.trans ?_ (hmoved _)
    unfold State.evictTile
    split
    · exact .refl t
    · rfl
  have hshrink : ∀ (n : Nat) (t : State), OnlyTiles t (State.shrinkPool n t) := by
    intro n
    induction n with
    | zero => exact .refl
    | succ n ih =>
      intro t
      rw [State.shrinkPool]
      split
      · exact .refl t
      · split
        · exact .refl t
        · exact (hevict t _).trans (ih _)
  exact hshrink _ s

theorem OnlyTiles.tiers {s t : State} (h : OnlyTiles s t) : t.tiers = { s.tiers with t2 := t.tiers.t2 } := congrArg State.tiers h

theorem OnlyTiles.items {s t : State} (h : OnlyTiles s t) : t.items = s.items := (congrArg State.items h :)

theorem OnlyTiles.host {s t : State} (h : OnlyTiles s t) : t.host = s.host := (congrArg State.host h :)

theorem OnlyTiles.frame {s t : State} (h : OnlyTiles s t) : Frame [.tiers] s t := by
  rw [h]
  exact frame_modTiers s _

/-! ## An image put under an ID (09 R292, R293). -/

/-- The state with an image under an ID, before its queries and T2 take note. -/
def State.withImage (s : State) (k : Nat) (b : Bitmap) : State := s.modItems (fun x => { x with bitmaps := Tab.put x.bitmaps k b, images := x.images + 1 })

theorem State.putBitmap_eq (s : State) (k : Nat) (b : Bitmap) : s.putBitmap k b = (s.withImage k b).readmit.fitPool := rfl

theorem State.putBitmap_items (s : State) (k : Nat) (b : Bitmap) : (s.putBitmap k b).items = (s.withImage k b).readmit.items := (onlyTiles_fitPool _).items

/-- With no query of this tick an image changes the table of images, their count and the tiles of T2 alone. -/
theorem State.putBitmap_onlyTiles {s : State} (k : Nat) (b : Bitmap) (h : ∀ q ∈ s.items.queries, q.tick ≠ s.tick) : OnlyTiles (s.withImage k b) (s.putBitmap k b) := by
  rw [s.putBitmap_eq, State.readmit_of_none (s := s.withImage k b) h]
  exact onlyTiles_fitPool _

section
variable {s : State} {id : Nat} {c : Cmd}

/-- A command that puts an image and succeeds, with no query of this tick. -/
theorem succeeded_putBitmap (k : Nat) (b : Bitmap) (res : List Byte) (h : s.cmd? id = some c) (hq : ∀ q ∈ s.items.queries, q.tick ≠ s.tick) :
    ((s.putBitmap k b).succeed id res).items = { s.items with bitmaps := Tab.put s.items.bitmaps k b, images := s.items.images + 1 } ∧
      ((s.putBitmap k b).succeed id res).tiers = { s.tiers with t2 := ((s.putBitmap k b).succeed id res).tiers.t2 } ∧
      HostSame s ((s.putBitmap k b).succeed id res) ∧ Succeeded [.items, .tiers] s ((s.putBitmap k b).succeed id res) id c res := by
  have ht := State.putBitmap_onlyTiles k b hq
  refine ⟨(State.succeed_items _ _ _).trans ht.items, ?_, ?_, ?_⟩
  · rw [State.succeed_tiers]
    exact ht.tiers
  · exact (State.succeed_hostMem _ _ _).trans (congrArg HostT.hostMem ht.host)
  · exact succeeded_of res h ⟨s.host.hostMem, ht.host⟩ (((frame_modItems s _).mono (by simp)).trans (ht.frame.mono (by simp)))

/-! ## The images BITMAP_BUILD makes (09 R292, R296). -/

theorem bitOf_eq_testBit (x i : Nat) : bitOf x i = x.testBit i := by
  rw [bitOf, Nat.testBit_eq_decide_div_mod_eq, Bool.beq_eq_decide_eq]

theorem bitsFrom_succ (n : Nat) (on : Nat → Bool) : bitsFrom (n + 1) on = bitsFrom n on + if on n then 2 ^ n else 0 := by
  simp [bitsFrom, List.range_succ]

theorem bitsFrom_lt (n : Nat) (on : Nat → Bool) : bitsFrom n on < 2 ^ n := by
  induction n with
  | zero => exact Nat.one_pos
  | succ n ih =>
    rw [bitsFrom_succ, Nat.pow_succ]
    split <;> omega

theorem testBit_bitsFrom {n j : Nat} (on : Nat → Bool) (h : j < n) : (bitsFrom n on).testBit j = on j := by
  induction n with
  | zero => omega
  | succ n ih =>
    have hlt := bitsFrom_lt n on
    rw [bitsFrom_succ]
    rcases Nat.lt_succ_iff_lt_or_eq.mp h with hj | rfl
    · rw [← ih hj]
      split
      · rw [Nat.add_comm, Nat.testBit_two_pow_add_gt hj]
      · rfl
    · split
      case isTrue ht => rw [Nat.add_comm, Nat.testBit_two_pow_add_eq, Nat.testBit_lt_two_pow hlt, ht]; rfl
      case isFalse hf => rw [Nat.add_zero, Nat.testBit_lt_two_pow hlt]; simpa using hf

/-- The bit a build gives an index. -/
def Items.builtBit (x : Items) (f : Filter) (op : Nat) (src : Option Bitmap) (i : Nat) : Bool :=
  combineBit op ((src.map (fun y => y.allows i)).getD true) ((Tab.find x.items i).elim false (fun y => y.visible x.epoch && f.passes y))

/-- One byte of the image a build makes. -/
def Items.builtByte (x : Items) (f : Filter) (op : Nat) (src : Option Bitmap) (k : Nat) : Byte := BitVec.ofNat 8 (bitsFrom 8 (fun j => x.builtBit f op src (8 * k + j)))

theorem Items.build_eq (x : Items) (f : Filter) (op : Nat) (src : Option Bitmap) :
    x.build f op src = ⟨x.buildLen, false, Mem.write 0 [] 0 ((List.range (x.buildLen / 8)).map (x.builtByte f op src)), x.images⟩ := by
  refine congrArg (fun l => Bitmap.mk x.buildLen false (Mem.write 0 [] 0 l) x.images) (List.map_congr_left fun k _ => ?_)
  refine congrArg (fun g => BitVec.ofNat 8 (bitsFrom 8 g)) (funext fun j => ?_)
  dsimp only [Items.builtBit]
  cases src <;> cases Tab.find x.items (8 * k + j) <;> rfl

theorem Items.buildLen_dvd (x : Items) : 4096 ∣ x.buildLen := by
  unfold Items.buildLen
  rcases Nat.le_total 4096 (4096 * ceilDiv x.highWater 4096) with h | h
  · rw [Nat.max_eq_right h]
    exact Nat.dvd_mul_right _ _
  · rw [Nat.max_eq_left h]

theorem Items.build_allows (x : Items) (f : Filter) (op : Nat) (src : Option Bitmap) {i : Nat} (h : i < x.buildLen) : (x.build f op src).allows i = x.builtBit f op src i := by
  have hlen : i / 8 < x.buildLen / 8 := by
    have := x.buildLen_dvd
    omega
  have hbyte : Mem.get 0 (x.build f op src).bits (i / 8) = x.builtByte f op src (i / 8) := by
    rw [x.build_eq f op src]
    have hget := Mem.get_write_in 0 [] 0 ((List.range (x.buildLen / 8)).map (x.builtByte f op src)) (i / 8) (by simpa using hlen)
    simpa using hget
  have hallows : (x.build f op src).allows i = bitOf (Mem.get 0 (x.build f op src).bits (i / 8)).toNat (i % 8) := if_pos h
  rw [hallows, hbyte, bitOf_eq_testBit, Items.builtByte, BitVec.toNat_ofNat, Nat.mod_eq_of_lt (bitsFrom_lt 8 _), testBit_bitsFrom _ (Nat.mod_lt i (by decide)),
    Nat.div_add_mod]

/-- A command that waits has its record changed once more. -/
theorem waits_modCmd {ks : List Part} {t : State} (h : Waits ks s t id c) (f : Cmd → Cmd) : Waits ks s (t.modCmd id f) id (f c) where
  there := State.cmd?_modCmd_self f h.there
  cmds j hj := (State.cmd?_modCmd_ne t f hj).trans (h.cmds j hj)
  host := congrArg (fun g : HostT => { g with cmds := Tab.change t.host.cmds id f }) h.host
  frame := h.frame.trans ((frame_modCmd t id f).mono (by simp))

/-! ## The three commands (13 R435 to R437). -/

theorem exec_bitmapLoad_waits (hr : RunsItem s id 0x0403 c) (h0 : c.stage = 0) (hf : s.formatted = true) (hroom : s.hbmRoom (c.field 0x18 8 / 8) = true) :
    exec (.bitmapLoad id) s = .next ((s.stage id 1 []).modCmd id (fun d => { d with need := c.field 0x18 8 / 8 })) := by
  change execBitmapLoad id s = _
  simp only [execBitmapLoad, hr.1, if_pos h0, hf, hroom, hr.runs.checked, Bool.not_true, Bool.false_eq_true, if_false, if_true]

/-- The image that the bytes of a BITMAP_LOAD make. -/
def State.loadedImage (s : State) (c : Cmd) : Bitmap := ⟨c.field 0x18 8, c.field 0x11 1 = 1, Mem.write 0 [] 0 c.pushed, s.items.images⟩

theorem exec_bitmapLoad_loads (hr : RunsItem s id 0x0403 c) (h1 : c.stage = 1) (hgot : c.need ≤ c.got) :
    exec (.bitmapLoad id) s = .next ((s.putBitmap (c.field 0x10 1) (s.loadedImage c)).succeed id (resultAt [(0x10, 8, (s.loadedImage c).pop)])) := by
  have h0 : ¬ c.stage = 0 := by omega
  change execBitmapLoad id s = _
  simp only [execBitmapLoad, hr.1, if_neg h0, if_pos hgot]
  rfl

/-- The filter a BITMAP_BUILD names. -/
def State.buildFilter (s : State) (c : Cmd) : Filter := ⟨(s.buildTerms c).map Term.ofBytes, bitsOf (c.field 0x13 1) 1 2, BitVec.ofNat 64 (c.field 0x18 8), BitVec.ofNat 64 (c.field 0x20 8)⟩

/-- The image a BITMAP_BUILD starts from, where it names one. -/
def State.buildSource (s : State) (c : Cmd) : Option Bitmap := if bitOf (c.field 0x13 1) 0 then Tab.find s.items.bitmaps (c.field 0x12 1) else none

/-- The image a BITMAP_BUILD makes. -/
def State.builtImage (s : State) (c : Cmd) : Bitmap := s.items.build (s.buildFilter c) (c.field 0x11 1) (s.buildSource c)

theorem exec_bitmapBuild (hr : RunsItem s id 0x0404 c) (hf : s.formatted = true) (hterms : (s.buildTerms c).all termOk = true)
    (hsrc : bitOf (c.field 0x13 1) 0 = true → Tab.has s.items.bitmaps (c.field 0x12 1) = true) (hroom : s.hbmRoom (s.items.buildLen / 8) = true) :
    exec (.bitmapBuild id) s = .next ((s.putBitmap (c.field 0x10 1) (s.builtImage c)).succeed id (resultAt [(0x10, 8, (s.builtImage c).pop), (0x18, 8, (s.builtImage c).len)])) := by
  have hthere : (bitOf (c.field 0x13 1) 0 && (Tab.find s.items.bitmaps (c.field 0x12 1)).isNone) = false := by
    cases hb : bitOf (c.field 0x13 1) 0 with
    | false => rfl
    | true =>
      have := hsrc hb
      rw [Tab.has] at this
      simpa using this
  change execBitmapBuild id s = _
  simp only [execBitmapBuild, hr.1, hf, hterms, hthere, hroom, hr.runs.checked, Bool.not_true, Bool.false_eq_true, if_false, if_true]
  rfl

theorem State.builtImage_allows (s : State) (c : Cmd) {i : Nat} (h : i < s.items.buildLen) :
    (s.builtImage c).allows i = combineBit (c.field 0x11 1)
      (if bitOf (c.field 0x13 1) 0 then ((Tab.find s.items.bitmaps (c.field 0x12 1)).map (fun y => y.allows i)).getD true else true)
      ((Tab.find s.items.items i).elim false (fun x => x.visible s.items.epoch && (s.buildFilter c).passes x)) := by
  rw [State.builtImage, Items.build_allows _ _ _ _ h, Items.builtBit, State.buildSource]
  cases bitOf (c.field 0x13 1) 0 <;> rfl

theorem exec_bitmapFree (hr : RunsItem s id 0x0405 c) :
    exec (.bitmapFree id) s = .next ((s.modItems (fun x => { x with bitmaps := Tab.del x.bitmaps (c.field 0x10 1) })).succeed id []) := by
  change execBitmapFree id s = _
  simp only [execBitmapFree, hr.1, hr.runs.checked]

/-- A query that no other of its tick follows takes a new image as it takes any other. -/
theorem State.query?_putBitmap {y : Query} {k : Nat} {old : Bitmap} (b : Bitmap) (hy : s.items.query? y.who = some y) (hone : ∀ z ∈ s.items.queries, z.who = y.who → z = y)
    (ht : y.tick = s.tick) (himage : y.image = some (k, old)) : ∃ z, (s.putBitmap k b).items.query? y.who = some z ∧ z.image = some (k, b) := by
  obtain ⟨z, y', hz, hmem, hwho, hp⟩ := State.query?_readmit (s := s.withImage k b) hy ht
  have hyy : y' = y := hone y' hmem hwho
  have hfind : Tab.find (Tab.put s.items.bitmaps k b) k = some b := Tab.find_put_self _ _ _
  have himg : (s.withImage k b).imageNow y = some (k, b) := by
    rw [State.imageNow, himage]
    exact congrArg (fun o : Option Bitmap => some (k, o.getD old)) hfind
  refine ⟨z, (congrArg (fun x : Items => x.query? y.who) (s.putBitmap_items k b)).trans hz, ?_⟩
  rw [Readmitted, hyy, himg] at hp
  rw [hp]

theorem State.query?_putBitmap_earlier {y : Query} (k : Nat) (b : Bitmap) (hy : s.items.query? y.who = some y) (h : ∀ z ∈ s.items.queries, z.who = y.who → z.tick ≠ s.tick) :
    (s.putBitmap k b).items.query? y.who = some y :=
  (congrArg (fun x : Items => x.query? y.who) (s.putBitmap_items k b)).trans ((State.query?_readmit_ne (s := s.withImage k b) h).trans hy)

end

/-- Settles O43: an image put under an ID is followed by the queries of its tick being admitted again, and the tiles of T2 give way. -/
theorem bitmapCommands : Obligations.BitmapCommands := by
  unfold Obligations.BitmapCommands
  refine ⟨fun s id c hr h0 hf hroom => ?_, fun s id c b hr h1 hgot hq hb => ?_, fun s id c f hr hf hterms hsrc hroom hq hfil => ?_, fun s id c hr => ?_,
    fun s id c y hr h1 hgot hy hearlier => ?_, fun s id c y old hr h1 hgot hy hone ht _ himage => ?_⟩
  · exact ⟨_, exec_bitmapLoad_waits hr h0 hf hroom, waits_modCmd (waits_stage 1 [] hr.runs.cmd? rfl (Frame.refl [] s)) _⟩
  · subst hb
    exact ⟨_, exec_bitmapLoad_loads hr h1 hgot, succeeded_putBitmap _ _ _ hr.runs.cmd? hq⟩
  · subst hfil
    obtain ⟨hitems, htiers, hhost, hdone⟩ := succeeded_putBitmap (c.field 0x10 1) (s.builtImage c) (resultAt [(0x10, 8, (s.builtImage c).pop), (0x18, 8, (s.builtImage c).len)]) hr.runs.cmd? hq
    exact ⟨_, s.builtImage c, exec_bitmapBuild hr hf hterms hsrc hroom, hitems, rfl, rfl, rfl, fun i hi => s.builtImage_allows c hi, htiers, hhost, hdone⟩
  · have hcmd := hr.runs.cmd?
    exact ⟨_, exec_bitmapFree hr, State.succeed_items _ _ _, State.succeed_hostMem _ _ _, succeeded_of [] hcmd ⟨s.host.hostMem, rfl⟩ ((frame_modItems s _).mono (by simp))⟩
  · refine ⟨_, exec_bitmapLoad_loads hr h1 hgot, ?_⟩
    rw [State.succeed_items]
    exact s.query?_putBitmap_earlier _ _ hy hearlier
  · obtain ⟨z, hz, himg⟩ := State.query?_putBitmap (s.loadedImage c) hy hone ht himage
    refine ⟨_, z, s.loadedImage c, exec_bitmapLoad_loads hr h1 hgot, ?_, himg, rfl⟩
    rw [State.succeed_items]
    exact hz

end Sys2Proof.Machine

/-! # The commit group (09 R279 to R283, R290; 13 R427 to R429) -/

namespace Sys2Proof.Machine

/-! ## Tombstones that retire (09 R283). -/

theorem foldl_min_le (l : List Nat) (a : Nat) : l.foldl min a ≤ a ∧ ∀ b ∈ l, l.foldl min a ≤ b := by
  induction l generalizing a with
  | nil => simp
  | cons b l ih =>
    obtain ⟨hle, hall⟩ := ih (min a b)
    refine ⟨hle.trans (Nat.min_le_left a b), fun d hd => ?_⟩
    rcases List.mem_cons.mp hd with rfl | hd
    · exact hle.trans (Nat.min_le_right a d)
    · exact hall d hd

theorem Items.horizon_le_epoch (x : Items) {q : Query} (h : q ∈ x.queries) : x.horizon ≤ q.epoch := (foldl_min_le _ _).2 _ (List.mem_map_of_mem h)

theorem Items.horizon_of_no_queries {x : Items} (h : x.queries = []) : x.horizon = x.epoch := by rw [Items.horizon, h]; rfl

theorem Items.mem_gone_retire (x : Items) (now : Nat) {u : Nat × Nat} (h : u ∈ x.tombs) (hu : u.2 ≤ x.horizon) : (⟨u.1, now, none⟩ : Gone) ∈ (x.retire now).gone :=
  List.mem_append_right _ (List.mem_map.mpr ⟨u, List.mem_filter.mpr ⟨h, decide_eq_true hu⟩, rfl⟩)

/-! ## What a commit leaves alone. -/

/-- The queries, their bitmaps, the epoch and the time are as before. -/
structure SameQueries (s t : State) : Prop where
  queries : t.items.queries = s.items.queries
  bitmaps : t.items.bitmaps = s.items.bitmaps
  epoch : t.items.epoch = s.items.epoch
  now : t.now = s.now

section
variable {s t u : State}

theorem SameQueries.refl (s : State) : SameQueries s s := ⟨rfl, rfl, rfl, rfl⟩

theorem SameQueries.trans (h : SameQueries s t) (k : SameQueries t u) : SameQueries s u :=
  ⟨k.queries.trans h.queries, k.bitmaps.trans h.bitmaps, k.epoch.trans h.epoch, k.now.trans h.now⟩

theorem sameQueries_of (hi : t.items = s.items) (hn : t.now = s.now) : SameQueries s t := ⟨by rw [hi], by rw [hi], by rw [hi], hn⟩

theorem sameQueries_completeWith (s : State) (id : Nat) (st : Status) (flags : Nat) (res : List Byte) : SameQueries s (s.completeWith id st flags res) :=
  sameQueries_of (State.completeWith_items _ _ _ _ _) (State.completeWith_now _ _ _ _ _)

theorem sameQueries_succeed (s : State) (id : Nat) (res : List Byte) : SameQueries s (s.succeed id res) := sameQueries_completeWith s id .success 0 res

theorem sameQueries_foldl {α : Type} (f : State → α → State) (h : ∀ s a, SameQueries s (f s a)) (l : List α) (s : State) : SameQueries s (l.foldl f s) := by
  induction l generalizing s with
  | nil => exact .refl s
  | cons a l ih => exact (h s a).trans (ih _)

theorem sameQueries_cacheReply (s : State) (id st tokens : Nat) : SameQueries s (s.cacheReply id st tokens) := by
  unfold State.cacheReply
  split
  · exact .refl s
  · exact SameQueries.trans (t := s.hostWrite _ _ _) (sameQueries_of rfl rfl) (sameQueries_completeWith _ _ _ _ _)

theorem sameQueries_stopBuilds (s : State) (lead : Nat) : SameQueries s (s.stopBuilds lead) := by
  unfold State.stopBuilds
  refine SameQueries.trans (t := s.modServ (fun v => v.dropBuilds (fun b => b.lead = lead))) (sameQueries_of rfl rfl) (sameQueries_foldl _ (fun t b => ?_) _ _)
  split
  · exact sameQueries_cacheReply _ _ _ _
  · exact .refl t

theorem sameQueries_commitDel (s : State) (i e : Nat) : SameQueries s (s.commitDel i e) := by
  unfold State.commitDel
  split
  · exact .refl s
  · split
    · exact .refl s
    · exact SameQueries.trans (t := s.modItems _) ⟨rfl, rfl, rfl, rfl⟩ (sameQueries_stopBuilds _ _)

theorem sameQueries_commitAttr (s : State) (i slot : Nat) (mask value : W64) : SameQueries s (s.commitAttr i slot mask value) := by
  unfold State.commitAttr
  split
  · exact .refl s
  · exact ⟨rfl, rfl, rfl, rfl⟩

theorem sameQueries_commitPut (s : State) (c : Cmd) (held : List (Nat × Item)) (p : PutPlan) (e : Nat) : SameQueries s (s.commitPut c held p e) := by
  unfold State.commitPut
  extract_lets n now new lead t₁ st waits t₂ h hdr t₃
  have h₁ : SameQueries s t₁ := ⟨rfl, rfl, rfl, rfl⟩
  have h₂ : SameQueries t₁ t₂ := by
    unfold t₂
    split
    · exact ⟨rfl, rfl, rfl, rfl⟩
    · exact .refl _
  have h₃ : SameQueries t₂ t₃ := ⟨rfl, rfl, rfl, rfl⟩
  refine (h₁.trans (h₂.trans h₃)).trans ?_
  split
  · exact ⟨rfl, rfl, rfl, rfl⟩
  · exact sameQueries_completeWith _ _ _ _ _

theorem sameQueries_commitOne (s : State) (e : Nat) (m : MutWait) : SameQueries s (s.commitOne e m) := by
  unfold State.commitOne
  split
  · exact .refl s
  · dsimp only
    split
    · exact sameQueries_commitPut _ _ _ _ _
    · exact (sameQueries_commitDel _ _ _).trans (sameQueries_succeed _ _ _)
    · exact (sameQueries_commitAttr _ _ _ _ _).trans (sameQueries_succeed _ _ _)

theorem SameQueries.readmit (h : SameQueries s t) (hq : ∀ q ∈ s.items.queries, q.tick ≠ s.tick) : t.readmit = t :=
  State.readmit_of_none (by rw [h.queries, State.tick, h.now]; exact hq)

/-! ## The group (09 R281). -/

/-- The state at the next epoch, without the mutations that commit there. -/
def State.nextEpoch (s : State) : State := s.modItems (fun x => { x with muts := x.muts.filter (fun m => !s.mutReady m), epoch := s.items.epoch + 1 })

/-- Every mutation that may commit has done so. -/
def State.groupCommitted (s : State) : State := (s.items.muts.filter s.mutReady).foldl (fun (x : State) m => x.commitOne (s.items.epoch + 1) m) s.nextEpoch

theorem exec_commitGroup (h : ∃ m ∈ s.items.muts, s.mutReady m = true) : exec .commitGroup s = .next s.groupCommitted.readmit := by
  have hgo : (s.items.muts.filter s.mutReady).isEmpty = false := by
    obtain ⟨m, hm, hready⟩ := h
    exact List.isEmpty_eq_false_iff_exists_mem.mpr ⟨m, List.mem_filter.mpr ⟨hm, hready⟩⟩
  change execCommitGroup s = _
  simp only [execCommitGroup, hgo, Bool.false_eq_true, if_false]
  rfl

theorem exec_commitGroup_none (h : ∀ m ∈ s.items.muts, s.mutReady m = false) : exec .commitGroup s = .next s := by
  have hgo : s.items.muts.filter s.mutReady = [] := List.filter_eq_nil_iff.mpr (by simpa using h)
  change execCommitGroup s = _
  simp only [execCommitGroup, hgo, List.isEmpty_nil, if_true]

theorem sameQueries_groupCommitted (s : State) : SameQueries s.nextEpoch s.groupCommitted := sameQueries_foldl _ (fun t m => sameQueries_commitOne t _ m) _ _

/-- The state at the next epoch with no mutation left. -/
def State.emptied (s : State) : State := s.modItems (fun x => { x with muts := [], epoch := s.items.epoch + 1 })

/-- One mutation, with no query of this tick. -/
theorem exec_commitGroup_one {m : MutWait} (hm : s.items.muts = [m]) (hr : s.mutReady m = true) (hq : ∀ q ∈ s.items.queries, q.tick ≠ s.tick) :
    exec .commitGroup s = .next (s.emptied.commitOne (s.items.epoch + 1) m) := by
  have hnext : s.nextEpoch = s.emptied := by simp [State.nextEpoch, State.emptied, State.modItems, hm, hr]
  have hone : s.groupCommitted = s.emptied.commitOne (s.items.epoch + 1) m := by simp [State.groupCommitted, hm, hr, hnext]
  have hsame : SameQueries s.emptied s.groupCommitted := hnext ▸ sameQueries_groupCommitted s
  rw [exec_commitGroup ⟨m, by simp [hm], hr⟩, hsame.readmit hq, hone]

end

theorem frame_modServ (s : State) (f : Services → Services) : Frame [.serv] s (s.modServ f) := by
  intro p hp
  cases p <;> simp [Part.same] at hp ⊢

/-! ## A VECTOR item (09 R280, R290; 13 R427). -/

/-- One place of the fresh list is free among one more than its entries. -/
theorem Items.freshPlaces_one (x : Items) : ∃ k, x.freshPlaces 1 = [k] ∧ ∀ f ∈ x.fresh, f.slot ≠ k := by
  have hcard : (x.fresh.map (·.slot)).toFinset.card < (Finset.range (x.fresh.length + 1)).card := by
    rw [Finset.card_range]
    exact Nat.lt_succ_of_le ((List.toFinset_card_le _).trans_eq (List.length_map _))
  obtain ⟨n, hn, hfree⟩ := Finset.exists_mem_notMem_of_card_lt_card hcard
  have hmem : n ∈ (List.range (x.fresh.length + 1)).filter (fun k => x.fresh.all (fun f => f.slot ≠ k)) := by
    simpa using And.intro (Nat.le_of_lt_succ (Finset.mem_range.mp hn)) (by simpa using hfree)
  unfold Items.freshPlaces
  cases hl : (List.range (x.fresh.length + 1)).filter (fun k => x.fresh.all (fun f => f.slot ≠ k)) with
  | nil => exact absurd (hl ▸ hmem) List.not_mem_nil
  | cons k l =>
    have hk := (List.mem_filter.mp (hl ▸ List.mem_cons_self : k ∈ _)).2
    exact ⟨k, rfl, by simpa using hk⟩

section
variable {s : State} {id i e : Nat} {c : Cmd} {x : Item} {p : PutPlan}

theorem State.commitOne_put {new : List (Nat × Item)} (h : s.cmd? id = some c) : s.commitOne e ⟨id, .put new p⟩ = s.commitPut c new p e := by
  simp only [State.commitOne, h]

theorem State.commitOne_del (h : s.cmd? id = some c) : s.commitOne e ⟨id, .del i⟩ = (s.commitDel i e).succeed c.ident (resultAt [(0x10, 8, e)]) := by
  simp only [State.commitOne, h]

theorem State.commitOne_attr {slot : Nat} {mask value : W64} (h : s.cmd? id = some c) :
    s.commitOne e ⟨id, .attr i slot mask value⟩ = (s.commitAttr i slot mask value).succeed c.ident (resultAt [(0x10, 8, e)]) := by
  simp only [State.commitOne, h]

/-- An item as its ITEM_PUT commits it. -/
def State.committedItem (s : State) (c : Cmd) (p : PutPlan) (e i : Nat) (x : Item) : Item :=
  { x with ins := e, staged := (Tab.find (s.newItems c p e [(i, x.gen)]) i).bind (·.staged) }

/-- An item put under its index, with a place on the fresh list. -/
def State.withItem (s : State) (e i k : Nat) (y : Item) : State :=
  s.modItems (fun z => { z with items := Tab.put z.items i y, fresh := z.fresh ++ [⟨i, e, s.now, none, k⟩] })

theorem getD_map_head?_singleton {α β : Type} (f : α → β) (a : α) (d : β) : ([a].head?.map f).getD d = f a := rfl

theorem State.itemHandle_modItems (s : State) (f : Items → Items) (j : Nat) (z : Item) : (s.modItems f).itemHandle j z = s.itemHandle j z := by
  rw [State.itemHandle, State.itemHandle]
  rfl

theorem State.recordEntry_modItems (s : State) (f : Items → Items) (j : Nat) (z : Item) : (s.modItems f).recordEntry j z = s.recordEntry j z := by
  rw [State.recordEntry, State.recordEntry, State.itemHandle_modItems]

theorem State.itemHandle_withItem (s : State) (e i k j : Nat) (y z : Item) : (s.withItem e i k y).itemHandle j z = s.itemHandle j z := s.itemHandle_modItems _ j z

theorem State.recordEntry_withItem (s : State) (e i k j : Nat) (y z : Item) : (s.withItem e i k y).recordEntry j z = s.recordEntry j z := s.recordEntry_modItems _ j z

theorem State.itemHandle_emptied (s : State) (j : Nat) (z : Item) : s.emptied.itemHandle j z = s.itemHandle j z := s.itemHandle_modItems _ j z

theorem State.recordEntry_emptied (s : State) (j : Nat) (z : Item) : s.emptied.recordEntry j z = s.recordEntry j z := s.recordEntry_modItems _ j z

theorem State.commitPut_vector {k : Nat} (hv : c.isVector = true) (hk : s.items.freshPlaces 1 = [k]) :
    s.commitPut c [(i, x)] p e =
      ((s.withItem e i k (s.committedItem c p e i x)).hostWrite c.port (c.field 0x28 8)
        (recordHeader p e 0 0 ++ s.recordEntry i (s.committedItem c p e i x))).completeWith c.ident .success (c.aux.getD 2 0)
          (putResult p.segs.length e (s.itemHandle i (s.committedItem c p e i x))) := by
  unfold State.commitPut
  extract_lets n now new lead t₁ st waits t₂ h hdr t₃
  have hnew : new = [(i, s.committedItem c p e i x)] := rfl
  have hfresh : (new.zip (s.items.freshPlaces new.length)).map (fun y => FreshE.mk y.1.1 e s.now none y.2) = [⟨i, e, s.now, none, k⟩] := by
    rw [hnew, List.length_singleton, hk]
    rfl
  have ht₁ : t₁ = s.withItem e i k (s.committedItem c p e i x) :=
    congrArg (fun l => s.modItems (fun z => { z with items := Tab.put z.items i (s.committedItem c p e i x), fresh := z.fresh ++ l })) hfresh
  have hst : st = 0 := by simp [st, State.cacheStateAt, hv]
  have hwaits : ¬ (waits = true) := by simp [waits, hst]
  have ht₂ : t₂ = s.withItem e i k (s.committedItem c p e i x) := (if_neg (by simp [hst])).trans ht₁
  have hhead : h = t₂.itemHandle i (s.committedItem c p e i x) :=
    (congrArg (fun l : List (Nat × Item) => (l.head?.map (fun x => t₂.itemHandle x.1 x.2)).getD 0) hnew).trans (getD_map_head?_singleton _ (i, s.committedItem c p e i x) 0)
  have hh : h = s.itemHandle i (s.committedItem c p e i x) := by rw [hhead, ht₂, State.itemHandle_withItem]
  rw [if_neg hwaits, hh]
  simp only [t₃, hdr, hst, hnew, ht₂, List.flatMap_cons, List.flatMap_nil, List.append_nil, State.recordEntry_withItem]
  rfl

/-- Bytes written to the host as a command completes with flags stand there. -/
theorem hostHolds_completeWith {u : State} (p : Port) (a : Nat) (bs : List Byte) (flags : Nat) (res : List Byte) (hu : u.host = s.host) :
    HostHolds s ((u.hostWrite p a bs).completeWith id .success flags res) p a bs := by
  rw [HostHolds, HostOutside, State.completeWith_hostMem _ _ _ _ _ (fun _ _ => .inr rfl), State.hostWrite_mem, hu]
  exact ⟨Mem.read_write _ _ _ _, fun b hb => Mem.get_write_out _ _ _ _ b hb⟩

/-- A command that writes to the host and completes with flags, after changes that leave the host and all but the listed parts alone. -/
theorem completed_hostWrite {u : State} {ks : List Part} (p : Port) (a : Nat) (bs : List Byte) (flags : Nat) (res : List Byte) (h : s.cmd? id = some c) (hu : u.host = s.host)
    (hf : Frame (.host :: .media :: ks) s u) :
    Replied s ((u.hostWrite p a bs).completeWith id .success flags res) id c (c.reply .success flags res) ∧
      Frame (.host :: .media :: ks) s ((u.hostWrite p a bs).completeWith id .success flags res) := by
  have hmem : ∃ m, (u.hostWrite p a bs).host = { s.host with hostMem := m } := ⟨_, congrArg (fun g : HostT => { g with hostMem := Mem.write 0 u.host.hostMem (hostKey p a) bs }) hu⟩
  have hc := State.cmd?_of_hostMem h hmem
  exact ⟨replied_of_hostMem (State.completeWith_replied _ id c .success flags res hc) hmem,
    (hf.trans ((frame_hostWrite u p a bs).mono (by simp))).trans ((frame_completeWith flags res hc (.inr rfl) (by decide)).mono (by simp))⟩

/-! ## Deletions and attributes (09 R283; 13 R428, R429). -/

theorem State.stopBuilds_unwaited {lead : Nat} (h : ∀ b ∈ s.serv.builds, b.lead = lead → b.waiter = none) :
    s.stopBuilds lead = s.modServ (fun v => v.dropBuilds (fun b => b.lead = lead)) := by
  have hskip : ∀ (l : List Build) (t : State), (∀ b ∈ l, b.waiter = none) → l.foldl (fun s b => match b.waiter with
      | some id => s.cacheReply id 6 0
      | none => s) t = t := by
    intro l
    induction l with
    | nil => exact fun _ _ => rfl
    | cons b l ih =>
      intro t hl
      obtain ⟨hb, hl⟩ := List.forall_mem_cons.mp hl
      rw [List.foldl_cons, hb]
      exact ih t hl
  refine hskip _ _ fun b hb => ?_
  obtain ⟨hmem, hlead⟩ := List.mem_filter.mp hb
  exact h b hmem (of_decide_eq_true hlead)

theorem State.commitDel_live (hx : Tab.find s.items.items i = some x) (hd : x.del = none) (hb : ∀ b ∈ s.serv.builds, b.lead = itemNo 0 x.gen i → b.waiter = none) :
    s.commitDel i e = (s.modItems (fun y => ({ y with items := Tab.put y.items i { x with del := some e }, tombs := y.tombs ++ [(i, e)] } : Items).retire s.now)).modServ
      (fun v => v.dropBuilds (fun b => b.lead = itemNo 0 x.gen i)) := by
  have hdel : ¬ (x.del.isSome = true) := by simp [hd]
  unfold State.commitDel
  simp only [hx, if_neg hdel]
  exact State.stopBuilds_unwaited hb

/-- An item whose attribute slot has changed where the mask has ones. -/
def Item.withAttr (x : Item) (slot : Nat) (mask value : W64) : Item := { x with attrs := x.attrs.set slot ((x.attrs.getD slot 0#64 &&& ~~~mask) ||| (value &&& mask)) }

theorem Item.withAttr_self (x : Item) {slot : Nat} (mask value : W64) (h : slot < x.attrs.length) :
    (x.withAttr slot mask value).attrs.getD slot 0#64 = (x.attrs.getD slot 0#64 &&& ~~~mask) ||| (value &&& mask) := by
  rw [Item.withAttr, List.getD_eq_getElem _ _ (by simpa using h)]
  exact List.getElem_set_self _

theorem Item.withAttr_ne (x : Item) {slot k : Nat} (mask value : W64) (h : k ≠ slot) : (x.withAttr slot mask value).attrs[k]? = x.attrs[k]? := List.getElem?_set_ne (Ne.symm h)

theorem State.commitAttr_found {slot : Nat} {mask value : W64} (hx : Tab.find s.items.items i = some x) :
    s.commitAttr i slot mask value = s.modItems (fun y => { y with items := Tab.put y.items i (x.withAttr slot mask value) }) := by
  unfold State.commitAttr
  simp only [hx]
  rfl

end

/-- Settles O41: one mutation commits by the equation of its kind, and the queries of its tick, whose records no commit changes, are admitted again at the new epoch. -/
theorem groupCommits : Obligations.GroupCommits := by
  unfold Obligations.GroupCommits
  refine ⟨fun s id i c x p hm hc hid hr hv hp hq => ?_, fun s id i c x hm hc hid hr hx hd hb hq => ?_, fun s id i slot mask value c x hm hc hid hr hx hslot hq => ?_,
    fun x now => ⟨rfl, Items.horizon_of_no_queries, fun q hq => x.horizon_le_epoch hq, fun u hu hle => x.mem_gone_retire now hu hle⟩,
    fun s hnone => exec_commitGroup_none hnone, fun s y hready hy ht hask => ?_, fun s y hy hearlier => ?_⟩
  · obtain ⟨k, hk, hfree⟩ := s.items.freshPlaces_one
    have hexec := exec_commitGroup_one hm hr hq
    rw [State.commitOne_put (s := s.emptied) hc, State.commitPut_vector (s := s.emptied) hv hk, hid, State.recordEntry_emptied, State.itemHandle_emptied, hp] at hexec
    obtain ⟨y, hy⟩ : ∃ y, y = s.emptied.committedItem c p (s.items.epoch + 1) i x := ⟨_, rfl⟩
    rw [← hy] at hexec
    have hframe : Frame [.host, .media, .items] s (s.emptied.withItem (s.items.epoch + 1) i k y) :=
      ((frame_modItems s _).mono (by simp)).trans ((frame_modItems _ _).mono (by simp))
    obtain ⟨hreplied, hdone⟩ := completed_hostWrite (u := s.emptied.withItem (s.items.epoch + 1) i k y) c.port (c.field 0x28 8)
      (recordHeader p (s.items.epoch + 1) 0 0 ++ s.recordEntry i y) (c.aux.getD 2 0) (putResult 1 (s.items.epoch + 1) (s.itemHandle i y)) hc rfl hframe
    refine ⟨_, y, k, hexec, ?_, ?_, ?_, ?_, ?_, hfree, ?_, ?_, hostHolds_completeWith _ _ _ _ _ rfl, hreplied, hdone⟩
    · rw [hy]
      rfl
    all_goals
      rw [State.completeWith_items]
      rfl
  · have hexec := exec_commitGroup_one hm hr hq
    rw [State.commitOne_del (s := s.emptied) hc, State.commitDel_live (s := s.emptied) hx hd hb, hid] at hexec
    have hdone : ∀ f g res, Succeeded [.items, .serv] s (((s.emptied.modItems f).modServ g).succeed id res) id c res := fun f g res =>
      succeeded_of res hc ⟨s.host.hostMem, rfl⟩ (((frame_modItems s _).mono (by simp)).trans (((frame_modItems _ f).mono (by simp)).trans ((frame_modServ _ g).mono (by simp))))
    refine ⟨_, hexec, ?_, ?_, (hdone _ _ _).replied, State.succeed_hostMem _ _ _, (hdone _ _ _).frame⟩
    · rw [State.succeed_items]
      rfl
    · rw [State.succeed_serv]
      rfl
  · have hexec := exec_commitGroup_one hm hr hq
    rw [State.commitOne_attr (s := s.emptied) hc, State.commitAttr_found (s := s.emptied) hx, hid] at hexec
    have hdone : ∀ f res, Succeeded [.items] s ((s.emptied.modItems f).succeed id res) id c res := fun f res =>
      succeeded_of res hc ⟨s.host.hostMem, rfl⟩ (((frame_modItems s _).mono (by simp)).trans ((frame_modItems _ f).mono (by simp)))
    refine ⟨_, x.withAttr slot mask value, hexec, ?_, rfl, x.withAttr_self mask value hslot, fun k hk => x.withAttr_ne mask value hk,
      (hdone _ _).replied, State.succeed_hostMem _ _ _, (hdone _ _).frame⟩
    rw [State.succeed_items]
    rfl
  · have hsame := sameQueries_groupCommitted s
    have hthere : s.groupCommitted.items.query? y.who = some y := by
      rw [Items.query?, hsame.queries]
      exact hy
    obtain ⟨z, y', hz, -, -, hp⟩ := State.query?_readmit hthere (by rw [ht, State.tick, State.tick, hsame.now]; rfl)
    refine ⟨_, z, exec_commitGroup hready, hz, ?_⟩
    rw [Readmitted, hsame.epoch] at hp
    rw [hp]
    exact ⟨rfl, rfl, rfl⟩
  · by_cases hready : ∃ m ∈ s.items.muts, s.mutReady m = true
    case neg => exact ⟨s, exec_commitGroup_none (by simpa using hready), hy⟩
    case pos =>
      have hsame := sameQueries_groupCommitted s
      refine ⟨_, exec_commitGroup hready, ?_⟩
      have htick : s.groupCommitted.tick = s.tick := by rw [State.tick, State.tick, hsame.now]; rfl
      rw [State.query?_readmit_ne (by rw [hsame.queries, htick]; exact hearlier), Items.query?, hsame.queries]
      exact hy

end Sys2Proof.Machine

/-! # Item commands up to the commit group they join (09 R279 to R281, R283, R285; 10 R316, R323; 13 R427 to R429) -/

namespace Sys2Proof.Machine

/-! ## The decode complex a source goes to (10 R316). -/

/-- The sources a decode complex has. -/
def Services.streamsOf (v : Services) (k : Nat) : List (Nat × Decoding × Nat) := v.decoders.filter (fun d => d.1 = k)

/-- The work queued at a decode complex, in bytes of source. -/
def Services.queuedWork (v : Services) (k : Nat) : Nat := ((v.streamsOf k).map (fun d => d.2.2)).foldl (· + ·) 0

/-- The decode complexes with a free stream slot. -/
def Services.freeComplexes (v : Services) : List Nat := (List.range 4).filter (fun k => (v.streamsOf k).length < 8)

theorem Services.complexFor_eq (v : Services) : v.complexFor = (sortBy (fun a b => decide (v.queuedWork a < v.queuedWork b)) v.freeComplexes).head? := rfl

theorem Services.mem_freeComplexes {v : Services} {k : Nat} : k ∈ v.freeComplexes ↔ k < 4 ∧ (v.streamsOf k).length < 8 := by simp [Services.freeComplexes]

theorem Services.complexFor_free {v : Services} {k : Nat} (h : v.complexFor = some k) : k ∈ v.freeComplexes := by
  rw [v.complexFor_eq] at h
  exact (sortBy_perm _ _).mem_iff.mp (List.mem_of_head? h)

theorem Services.complexFor_least {v : Services} {j k : Nat} (h : v.complexFor = some k) (hj : j ∈ v.freeComplexes) : v.queuedWork k ≤ v.queuedWork j := by
  rw [v.complexFor_eq] at h
  have hsorted : (sortBy (fun a b => decide (v.queuedWork a < v.queuedWork b)) v.freeComplexes).Pairwise (fun a b => v.queuedWork a ≤ v.queuedWork b) :=
    sortBy_sorted (R := fun a b => v.queuedWork a ≤ v.queuedWork b) (fun _ _ hab => (of_decide_eq_true hab).le) (fun _ _ hab => Nat.le_of_not_lt (of_decide_eq_false hab)) (fun _ _ _ => Nat.le_trans) _
  have hmem := (sortBy_perm (fun a b => decide (v.queuedWork a < v.queuedWork b)) v.freeComplexes).mem_iff.mpr hj
  obtain ⟨l, hl⟩ := List.head?_eq_some_iff.mp h
  rw [hl] at hsorted hmem
  rcases List.mem_cons.mp hmem with rfl | hmem
  · exact Nat.le_refl _
  · exact List.rel_of_pairwise_cons hsorted hmem

theorem Services.complexFor_none {v : Services} (h : ∀ j < 4, 8 ≤ (v.streamsOf j).length) : v.complexFor = none := by
  have hnone : v.freeComplexes = [] := List.filter_eq_nil_iff.mpr fun k hk => by simpa using h k (List.mem_range.mp hk)
  rw [v.complexFor_eq, hnone]
  rfl

/-! ## ITEM_PUT (13 R427). -/

section
variable {s : State} {id i : Nat} {pass : IngestPass} {c : Cmd} {p : PutPlan} {m : Media} {x : Item}

/-- The bytes an ITEM_PUT waits for. -/
def State.putNeed (s : State) (c : Cmd) : Nat := if c.isVector then 128 + 4 * s.items.dims else if bitOf c.pflags 3 then 128 else 0

theorem exec_itemPut_admits (hr : RunsItem s id 0x0301 c) (h0 : c.stage = 0) (hp : s.planOf c = some p) (he : s.putError c (some p) = none)
    (hroom : s.media.takeRoom s.now id (((s.items.takeIndices (s.putsAhead + p.segs.length)).1.map (·.1)).flatMap (itemStripes s.items.dims s.embSides)) = some m) :
    exec (.itemPut id pass) s = .next (((s.modMedia (fun _ => m)).stage id 1 [s.serv.cachePolicy.toNat, 0]).modCmd id (fun d => { d with need := s.putNeed c })) := by
  change execItemPut id pass s = _
  simp only [execItemPut, hr.1, if_pos h0, hp, he, Option.map_some, Option.getD_some, if_true, hroom, Option.isNone_some, Bool.false_eq_true, if_false, hr.runs.checked]
  rfl

/-- The state once a source is decoded and its pass is used. -/
def State.putTaken (s : State) (id : Nat) : State := (s.endDecode (.put id)).passUsed id

/-- The items an ITEM_PUT makes under the next indices. -/
def State.putItems (s : State) (c : Cmd) (p : PutPlan) : List (Nat × Item) := s.newItems c p 0 (s.items.takeIndices p.segs.length).1

/-- The state once an ITEM_PUT's items have their indices and their parts have gone to the veneer. -/
def State.putSent (s : State) (id : Nat) (c : Cmd) (p : PutPlan) (m : Media) : State :=
  { s.putTaken id with
    media := (s.putItems c p).foldl (fun (m : Media) (x : Nat × Item) => m.sendItem id s.items.dims s.items.side x.1 x.2) m
    items := { (s.items.takeIndices p.segs.length).2 with muts := s.items.muts ++ [⟨id, .put (s.putItems c p) p⟩] } }

theorem State.sendPut_putTaken (hid : c.ident = id) (hlen : (s.items.takeIndices p.segs.length).1.length = p.segs.length)
    (hroom : s.media.takeRoom s.now id (((s.items.takeIndices p.segs.length).1.map (·.1)).flatMap (itemStripes s.items.dims s.embSides)) = some m) :
    (s.putTaken id).sendPut c p = some (s.putSent id c p m) := by
  have hroom' : (s.putTaken id).media.takeRoom (s.putTaken id).now id
      ((((s.putTaken id).items.takeIndices p.segs.length).1.map (·.1)).flatMap (itemStripes (s.putTaken id).items.dims (s.putTaken id).embSides)) = some m := hroom
  have hlen' : ¬ ((s.putTaken id).items.takeIndices p.segs.length).1.length < p.segs.length := by
    change ¬ (s.items.takeIndices p.segs.length).1.length < p.segs.length
    omega
  simp only [State.sendPut, hid, if_neg hlen', hroom', Option.map_some]
  rfl

theorem exec_itemPut_sends (hr : RunsItem s id 0x0301 c) (h1 : c.stage = 1) (hgot : c.need ≤ c.got) (hp : s.planOf c = some p)
    (hfresh : s.items.fresh.length + s.items.putsWaiting + p.segs.length ≤ 16777216) (hfit : s.dimsFit c p (s.putSource c) = true) (hpass : pass.plausible = true)
    (hdec : c.isVector = true ∨ (s.decodes (.put id) = true ∧ id ∈ s.steps.ran)) (hsent : (s.putTaken id).sendPut c p = some (s.putSent id c p m)) :
    exec (.itemPut id pass) s = .next ((s.putSent id c p m).stage id 2 [c.aux.getD 0 0, c.aux.getD 1 0, 0, p.segs.length]) := by
  have h0 : ¬ c.stage = 0 := by omega
  have hgo : c.stage = 1 ∧ c.need ≤ c.got := ⟨h1, hgot⟩
  have hfull : ¬ freshTop < s.items.fresh.length + s.items.putsWaiting + p.segs.length := by
    unfold freshTop
    omega
  have hdecodes : ¬ ((!c.isVector) = true ∧ (!s.decodes (.put id)) = true) := by
    rcases hdec with h | ⟨h, -⟩ <;> simp [h]
  have hran : ¬ ((!c.isVector) = true ∧ id ∉ s.steps.ran) := by
    rcases hdec with h | ⟨-, h⟩ <;> simp [h]
  have hfit' : (s.putTaken id).dimsFit c p ((s.putTaken id).putSource c) = true := hfit
  have hunit : (s.putTaken id).unitRun id (c.aux.getD 1 0) pass.plausible = (some 0, s.putTaken id) := if_pos (.inl hpass)
  unfold State.putTaken at hfit' hunit hsent
  change execItemPut id pass s = _
  simp only [execItemPut, hr.1, if_neg h0, hp, Option.map_some, Option.getD_some, if_neg hfull, if_neg hdecodes, if_neg hran, hfit', hunit, hsent, Bool.not_true, Bool.false_eq_true,
    if_false, if_pos hgo]

theorem frame_putSent (s : State) (id : Nat) (c : Cmd) (p : PutPlan) (m : Media) : Frame [.media, .items, .serv, .steps] s (s.putSent id c p m) := by
  intro q hq
  cases q <;> simp [Part.same] at hq ⊢ <;> rfl

/-- An ITEM_PUT past its bytes whose place on the fresh list is free and whose source is not decoded. -/
theorem exec_itemPut_decodes (hr : RunsItem s id 0x0301 c) (h1 : c.stage = 1) (hgot : c.need ≤ c.got) (hp : s.planOf c = some p)
    (hfresh : s.items.fresh.length + s.items.putsWaiting + p.segs.length ≤ 16777216) (hv : c.isVector = false) (hdec : s.decodes (.put id) = false) :
    exec (.itemPut id pass) s = .next (s.startDecode (.put id) (c.field 0x18 8)) := by
  have h0 : ¬ c.stage = 0 := by omega
  have hgo : c.stage = 1 ∧ c.need ≤ c.got := ⟨h1, hgot⟩
  have hfull : ¬ freshTop < s.items.fresh.length + s.items.putsWaiting + p.segs.length := by
    unfold freshTop
    omega
  change execItemPut id pass s = _
  simp only [execItemPut, hr.1, if_neg h0, hp, Option.map_some, Option.getD_some, if_neg hfull, hv, hdec, Bool.not_false, and_self, if_true, if_pos hgo]

theorem exec_itemPut_passAwaited (hr : RunsItem s id 0x0301 c) (h1 : c.stage = 1) (hgot : c.need ≤ c.got) (hp : s.planOf c = some p)
    (hv : c.isVector = false) (hdec : s.decodes (.put id) = true) (hran : id ∉ s.steps.ran) : exec (.itemPut id pass) s = .next s := by
  have h0 : ¬ c.stage = 0 := by omega
  have hgo : c.stage = 1 ∧ c.need ≤ c.got := ⟨h1, hgot⟩
  change execItemPut id pass s = _
  simp only [execItemPut, hr.1, if_neg h0, hp, Option.map_some, Option.getD_some, hv, hdec, hran, Bool.not_true, Bool.not_false, Bool.false_eq_true, and_false, if_false,
    and_self, if_true, if_pos hgo, not_false_eq_true, ite_self]

theorem exec_itemPut_freshFull (hr : RunsItem s id 0x0301 c) (h1 : c.stage = 1) (hgot : c.need ≤ c.got) (hp : s.planOf c = some p)
    (hfull : 16777216 < s.items.fresh.length + s.items.putsWaiting + p.segs.length) : exec (.itemPut id pass) s = .next s := by
  have h0 : ¬ c.stage = 0 := by omega
  have hgo : c.stage = 1 ∧ c.need ≤ c.got := ⟨h1, hgot⟩
  have hfull : freshTop < s.items.fresh.length + s.items.putsWaiting + p.segs.length := hfull
  change execItemPut id pass s = _
  simp only [execItemPut, hr.1, if_neg h0, hp, Option.map_some, Option.getD_some, if_pos hfull, if_pos hgo]

theorem State.startDecode_complex {k : Nat} (w : Decoding) (n : Nat) (h : s.serv.complexFor = some k) :
    s.startDecode w n = s.modServ (fun v => { v with decoders := v.decoders ++ [(k, w, n)] }) := by
  simp only [State.startDecode, h]

theorem State.startDecode_none (w : Decoding) (n : Nat) (h : s.serv.complexFor = none) : s.startDecode w n = s := by simp only [State.startDecode, h]

/-! ## ITEM_DELETE and ATTR_SET (13 R428, R429). -/

/-- A mutation that joins those that wait. -/
def State.withMut (s : State) (w : MutWait) : State := s.modItems (fun x => { x with muts := x.muts ++ [w] })

theorem exec_itemDelete_waits (hr : RunsItem s id 0x0302 c) (h0 : c.stage = 0) (hx : s.named c.object = some (i, x)) (hroom : s.items.tombs.length + s.items.delsWaiting < 1048576) :
    exec (.itemDelete id) s = .next ((s.withMut ⟨id, .del i⟩).stage id 2 [i]) := by
  have hfull : ¬ tombTop ≤ s.items.tombs.length + s.items.delsWaiting := Nat.not_le.mpr hroom
  change execItemDelete id s = _
  simp only [execItemDelete, hr.1, if_pos h0, hx, hr.runs.checked, if_neg hfull]
  rfl

theorem exec_itemDelete_full (hr : RunsItem s id 0x0302 c) (h0 : c.stage = 0) (hx : s.named c.object = some (i, x)) (hfull : 1048576 ≤ s.items.tombs.length + s.items.delsWaiting) :
    exec (.itemDelete id) s = .next (s.stage id 1 [i]) := by
  have hfull : tombTop ≤ s.items.tombs.length + s.items.delsWaiting := hfull
  change execItemDelete id s = _
  simp only [execItemDelete, hr.1, if_pos h0, hx, hr.runs.checked, if_pos hfull]

theorem exec_itemDelete_unnamed (hr : RunsItem s id 0x0302 c) (h0 : c.stage = 0) (hx : s.named c.object = none) : exec (.itemDelete id) s = .next (s.fail id .invalidField) := by
  change execItemDelete id s = _
  simp only [execItemDelete, hr.1, if_pos h0, hx]

theorem exec_attrSet_waits (hr : RunsItem s id 0x0303 c) (h0 : c.stage = 0) (hx : s.named c.object = some (i, x)) :
    exec (.attrSet id) s = .next (((s.modMedia (fun m => m.sendColumn id (c.field 0x10 1) i (BitVec.ofNat 64 (c.field 0x20 8)) (BitVec.ofNat 64 (c.field 0x18 8)))).withMut
      ⟨id, .attr i (c.field 0x10 1) (BitVec.ofNat 64 (c.field 0x20 8)) (BitVec.ofNat 64 (c.field 0x18 8))⟩).stage id 1 []) := by
  change execAttrSet id s = _
  simp only [execAttrSet, hr.1, h0, ne_eq, not_true_eq_false, if_false, hx, hr.runs.checked]
  rfl

theorem exec_attrSet_unnamed (hr : RunsItem s id 0x0303 c) (h0 : c.stage = 0) (hx : s.named c.object = none) : exec (.attrSet id) s = .next (s.fail id .invalidField) := by
  change execAttrSet id s = _
  simp only [execAttrSet, hr.1, h0, ne_eq, not_true_eq_false, if_false, hx]

/-- A handle that names no item fails an item command. -/
theorem failed_unnamed {op : Nat} (hr : RunsItem s id op c) (hop : op ≠ 0x0401 ∧ op ≠ 0x0402) : Failed s (s.fail id .invalidField) id c .invalidField :=
  failed_self hr.runs.cmd? (hr.runs.opcode ▸ hop) (by decide)

end

/-- Settles O40: each command has its equation, and the complex with the least queued work heads the sorted list of those with a free slot. -/
theorem itemMutations : Obligations.ItemMutations := by
  unfold Obligations.ItemMutations
  refine ⟨fun s id pass c p m hr h0 hp he hroom => ?_, fun s id pass c p new m hr h1 hgot hp hfresh hfit hpass hdec hlen hnew hroom => ?_,
    fun s id pass c p hr h1 hgot hp hfresh hv hdec => ⟨fun k hk => ?_, fun hk => ?_⟩,
    fun s id pass c p hr h1 hgot hp hv hdec hran => exec_itemPut_passAwaited hr h1 hgot hp hv hdec hran,
    fun s id pass c p hr h1 hgot hp hfull => exec_itemPut_freshFull hr h1 hgot hp hfull, fun v k hk => ?_, fun v hv => Services.complexFor_none hv,
    fun s id i c x hr h0 hx hroom => ?_, fun s id i c x hr h0 hx hfull => ?_, fun s id i slot mask value c x hr h0 hx hslot hmask hvalue => ?_,
    fun s id c hr h0 hx => ⟨_, exec_itemDelete_unnamed hr h0 hx, failed_unnamed hr (by decide)⟩,
    fun s id c hr h0 hx => ⟨_, exec_attrSet_unnamed hr h0 hx, failed_unnamed hr (by decide)⟩⟩
  · exact ⟨_, exec_itemPut_admits hr h0 hp he hroom, rfl, waits_modCmd (waits_stage (u := s.modMedia (fun _ => m)) 1 _ hr.runs.cmd? rfl (frame_modMedia s _)) _⟩
  · subst hnew
    exact ⟨_, exec_itemPut_sends hr h1 hgot hp hfresh hfit hpass hdec (State.sendPut_putTaken hr.2.1 hlen hroom), rfl, rfl, rfl, rfl,
      waits_stage 2 _ hr.runs.cmd? rfl (frame_putSent s id c p m)⟩
  · exact ⟨_, (exec_itemPut_decodes hr h1 hgot hp hfresh hv hdec).trans (congrArg _ (State.startDecode_complex _ _ hk)), rfl, frame_modServ s _⟩
  · exact (exec_itemPut_decodes hr h1 hgot hp hfresh hv hdec).trans (congrArg _ (State.startDecode_none _ _ hk))
  · obtain ⟨htop, hslots⟩ := Services.mem_freeComplexes.mp (Services.complexFor_free hk)
    exact ⟨htop, hslots, fun j hj hfree => Services.complexFor_least hk (Services.mem_freeComplexes.mpr ⟨hj, hfree⟩)⟩
  · exact ⟨_, exec_itemDelete_waits hr h0 hx hroom, rfl, waits_stage 2 _ hr.runs.cmd? rfl (frame_modItems s _)⟩
  · exact ⟨_, exec_itemDelete_full hr h0 hx hfull, waits_stage 1 _ hr.runs.cmd? rfl (Frame.refl [] s)⟩
  · subst hslot hmask hvalue
    exact ⟨_, exec_attrSet_waits hr h0 hx, waits_stage 1 _ hr.runs.cmd? rfl (((frame_modMedia s _).mono (by simp)).trans ((frame_modItems _ _).mono (by simp))), rfl, rfl⟩

end Sys2Proof.Machine

/-! # Searches and the packets of their parts (09 R282, R299 to R306, R310; 11 R353) -/

namespace Sys2Proof.Machine

/-! ## Packets sent (11 R353). -/

/-- Packets have gone out: what the module has sent is longer by them, and besides it only ports have changed. -/
def Posts (s t : State) (l : List Sent) : Prop := ∃ ports, t = s.modSpan (fun x => { x with sent := x.sent ++ l, ports := ports })

theorem Posts.refl (s : State) : Posts s s [] := ⟨s.span.ports, by simp [State.modSpan]⟩

section
variable {s t u : State} {l m : List Sent}

theorem Posts.trans (h : Posts s t l) (k : Posts t u m) : Posts s u (l ++ m) := by
  obtain ⟨_, rfl⟩ := h
  obtain ⟨ports, rfl⟩ := k
  exact ⟨ports, by simp [State.modSpan]⟩

theorem Posts.nil_trans (h : Posts s t []) (k : Posts t u m) : Posts s u m := h.trans k

theorem Posts.trans_nil (h : Posts s t l) (k : Posts t u []) : Posts s u l := List.append_nil l ▸ h.trans k

theorem Posts.sent (h : Posts s t l) : t.span.sent = s.span.sent ++ l := by
  obtain ⟨_, rfl⟩ := h
  rfl

theorem Posts.insts (h : Posts s t l) : t.span.insts = s.span.insts := by
  obtain ⟨_, rfl⟩ := h
  rfl

theorem Posts.items (h : Posts s t l) : t.items = s.items := by
  obtain ⟨_, rfl⟩ := h
  rfl

theorem Posts.host (h : Posts s t l) : t.host = s.host := by
  obtain ⟨_, rfl⟩ := h
  rfl

theorem frame_modSpan (s : State) (f : Span → Span) : Frame [.span] s (s.modSpan f) := by
  intro p hp
  cases p <;> simp [Part.same] at hp ⊢

theorem Posts.frame (h : Posts s t l) : Frame [.span] s t := by
  obtain ⟨_, rfl⟩ := h
  exact frame_modSpan s _

end

theorem posts_ports (s : State) (ports : Tab TPort) : Posts s (s.modSpan (fun x => { x with ports := ports })) [] := ⟨ports, by simp [State.modSpan]⟩

theorem posts_modTport (s : State) (p : TPortNo) (f : TPort → TPort) : Posts s (s.modTport p f) [] := posts_ports s _

theorem posts_freeHeld (s : State) (f : OutFlit) : Posts s (s.freeHeld f) [] := by
  unfold State.freeHeld
  split
  · exact posts_ports s _
  · exact .refl s

theorem posts_pump (p : TPortNo) (n : Nat) (s : State) : Posts s (s.pump p n) [] := by
  induction n generalizing s with
  | zero => exact .refl s
  | succ n ih =>
    rw [State.pump]
    split
    · exact .refl s
    · split
      · exact .refl s
      · exact (posts_modTport s p _).nil_trans ((posts_freeHeld _ _).nil_trans (ih _))

theorem posts_send (s : State) (p : TPortNo) : Posts s (s.send p) [] := by
  unfold State.send
  extract_lets t
  have ht : Posts s t [] := by
    unfold t
    split
    · exact .refl s
    · exact posts_modTport s p _
  exact ht.nil_trans ((posts_pump p _ t).nil_trans (posts_ports _ _))

theorem posts_launch (s : State) (p : Packet) : Posts s (s.launch p) [⟨p.dest.toNat, p.ptype.toNat, p.body⟩] := by
  unfold State.launch
  extract_lets t
  have ht : Posts s t [⟨p.dest.toNat, p.ptype.toNat, p.body⟩] := ⟨s.span.ports, rfl⟩
  split
  · exact ht.trans_nil ((posts_modTport t _ _).nil_trans (posts_send _ _))
  · exact ht

theorem posts_post (s : State) (dest t addr aux : Nat) (body : List Byte) :
    Posts s (s.post dest t addr aux body) [⟨(BitVec.ofNat 8 dest).toNat, (BitVec.ofNat 8 t).toNat, body⟩] := posts_launch s _

theorem posts_postAll (s : State) (dests : List Nat) (t addr aux : Nat) (body : List Byte) :
    Posts s (s.postAll dests t addr aux body) ((dests.filter (· ≠ s.moduleNumber)).map (fun d => ⟨(BitVec.ofNat 8 d).toNat, (BitVec.ofNat 8 t).toNat, body⟩)) := by
  have hfold : ∀ (l : List Nat) (u : State), Posts u (l.foldl (fun s d => s.post d t addr aux body) u)
      (l.map (fun d => ⟨(BitVec.ofNat 8 d).toNat, (BitVec.ofNat 8 t).toNat, body⟩)) := by
    intro l
    induction l with
    | nil => exact .refl
    | cons d l ih => exact fun u => (posts_post u d t addr aux body).trans (ih _)
  exact hfold _ s

/-! ## A query admitted (09 R282, R299, R300). -/

theorem Items.walkLevels_queries (x : Items) (l : List Query) (q : Centroid) (beam n : Nat) (level : List Nat) :
    ({ x with queries := l } : Items).walkLevels q beam n level = x.walkLevels q beam n level := by
  induction n generalizing level with
  | zero => rfl
  | succ n ih =>
    cases level with
    | nil => rfl
    | cons a as =>
      simp only [Items.walkLevels, ih]
      rfl

/-- The walk and what is allowed do not depend on the queries that run. -/
theorem Items.admitQuery_queries (x : Items) (l : List Query) (e : Nat) (image : Option Bitmap) (q : Query1) :
    ({ x with queries := l } : Items).admitQuery e image q = x.admitQuery e image q := by
  have hwalk : ({ x with queries := l } : Items).walk e q.vec q.beam q.leaves = x.walk e q.vec q.beam q.leaves := by
    unfold Items.walk
    simp only [Items.walkLevels_queries]
    rfl
  unfold Items.admitQuery
  rw [hwalk]
  rfl

/-- The image of the bitmap a query names. -/
def State.imageOf (s : State) (q : Query1) : Option (Nat × Bitmap) := q.bitmap.bind (fun k => (Tab.find s.items.bitmaps k).map (fun b => (k, b)))

/-- A query's admission now. -/
def State.admission (s : State) (q : Query1) : Admitted := s.items.admitQuery s.items.epoch ((s.imageOf q).map (·.2)) q

/-- A query as it is once it is admitted. -/
def State.admittedQuery (s : State) (who : Asker) (q : Query1) (deadline : Option Nat) (flags : Nat) : Query :=
  ⟨who, s.tick, s.items.epoch, s.imageOf q, deadline, flags, some (q, s.admission q), []⟩

/-- The leaf scans of a query. -/
def State.scansOf (s : State) (who : Asker) (q : Query1) (deadline : Option Nat) : List ScanReq :=
  (s.admission q).leaves.zipIdx.map (fun n =>
    ScanReq.mk who .interactive deadline (s.items.arrivals + n.2) n.1 (s.items.leafMasks (s.admission q).epoch (fun i => i ∈ (s.admission q).allowed) n.1) (s.admission q).sketch)

/-- The state with a query admitted. -/
def State.withQuery (s : State) (who : Asker) (q : Query1) (deadline : Option Nat) (flags : Nat) : State :=
  s.modItems (fun x => { x with
    queries := x.queries.filter (fun y => y.who ≠ who) ++ [s.admittedQuery who q deadline flags]
    arrivals := x.arrivals + (s.admission q).leaves.length
    scans := x.scans ++ s.scansOf who q deadline })

theorem find?_filter_ne_append {α β : Type} [DecidableEq β] (f : α → β) (l : List α) (a : α) : (l.filter (fun b => f b ≠ f a) ++ [a]).find? (fun b => f b = f a) = some a := by
  rw [List.find?_append, List.find?_eq_none.mpr (by simp), Option.none_or]
  simp

theorem State.startQuery_openQuery (s : State) (who : Asker) (q : Query1) (deadline : Option Nat) (flags : Nat) :
    (s.openQuery who q.bitmap deadline flags).startQuery who q = s.withQuery who q deadline flags := by
  have hopen : (s.openQuery who q.bitmap deadline flags).items.query? who = some ⟨who, s.tick, s.items.epoch, s.imageOf q, deadline, flags, none, []⟩ :=
    find?_filter_ne_append Query.who s.items.queries ⟨who, s.tick, s.items.epoch, s.imageOf q, deadline, flags, none, []⟩
  have hadmission : (s.openQuery who q.bitmap deadline flags).items.admitQuery s.items.epoch ((s.imageOf q).map (·.2)) q = s.admission q := s.items.admitQuery_queries _ _ _ _
  have hmap : (s.openQuery who q.bitmap deadline flags).items.queries.map (fun z => if z.who = who then { z with ask := some (q, s.admission q), lists := [] } else z) =
      s.items.queries.filter (fun y => y.who ≠ who) ++ [s.admittedQuery who q deadline flags] := by
    have hkeep : ∀ z ∈ s.items.queries.filter (fun y => y.who ≠ who), (if z.who = who then { z with ask := some (q, s.admission q), lists := [] } else z) = z :=
      fun z hz => if_neg (of_decide_eq_true (List.mem_filter.mp hz).2)
    refine List.map_append.trans (congrArg₂ (· ++ ·) ((List.map_congr_left hkeep).trans (List.map_id' _)) ?_)
    simp [State.admittedQuery, State.imageOf]
  simp only [State.startQuery, hopen, hadmission]
  exact congrArg (fun l => s.modItems (fun x => { x with
    queries := l, arrivals := x.arrivals + (s.admission q).leaves.length, scans := x.scans ++ s.scansOf who q deadline })) hmap

section
variable (s : State) (who : Asker) (q : Query1) (deadline : Option Nat) (flags : Nat)

theorem State.query?_withQuery : (s.withQuery who q deadline flags).items.query? who = some (s.admittedQuery who q deadline flags) := by
  exact find?_filter_ne_append Query.who s.items.queries (s.admittedQuery who q deadline flags)

theorem State.leaf_scansOf : (s.scansOf who q deadline).map (·.leaf) = (s.admission q).leaves := by
  rw [State.scansOf, List.map_map]
  exact List.zipIdx_map_fst ..

theorem State.mem_scansOf {x : ScanReq} (h : x ∈ s.scansOf who q deadline) : x.who = who ∧ x.cls = .interactive ∧ x.deadline = deadline ∧ x.query = (s.admission q).sketch := by
  obtain ⟨n, -, rfl⟩ := List.mem_map.mp h
  exact ⟨rfl, rfl, rfl, rfl⟩

theorem frame_withQuery : Frame [.items] s (s.withQuery who q deadline flags) := frame_modItems s _

end

/-! ## Scans taken from the dies (09 R302, R303). -/

/-- A change of a query's lists alone. -/
def ListsOnly (g : Query → Query) : Prop := ∀ z, g z = { z with lists := (g z).lists }

/-- What has ended on the dies is taken: the queries' lists, the scans that run and those that wait change, and nothing else. -/
def Gathers (s t : State) : Prop :=
  ∃ g running scans, ListsOnly g ∧ t = s.modItems (fun x => { x with queries := x.queries.map g, running := running, scans := scans })

theorem Gathers.refl (s : State) : Gathers s s := ⟨id, s.items.running, s.items.scans, fun _ => rfl, by simp [State.modItems]⟩

theorem Gathers.trans {s t u : State} (h : Gathers s t) (k : Gathers t u) : Gathers s u := by
  obtain ⟨g, _, _, hg, rfl⟩ := h
  obtain ⟨f, running, scans, hf, rfl⟩ := k
  refine ⟨f ∘ g, running, scans, fun z => ?_, by simp [State.modItems]⟩
  rw [Function.comp_apply, hf (g z), hg z]

theorem Gathers.query? {s t : State} (h : Gathers s t) (w : Asker) : ∃ g, ListsOnly g ∧ t.items.query? w = (s.items.query? w).map g := by
  obtain ⟨g, _, _, hg, rfl⟩ := h
  exact ⟨g, hg, Items.query?_map rfl (fun z => by rw [hg z]) w⟩

/-- A query's flags are as they were admitted. -/
theorem Gathers.flags {s t : State} (h : Gathers s t) {w : Asker} {z y : Query} (hz : s.items.query? w = some z) (hy : t.items.query? w = some y) : y.flags = z.flags := by
  obtain ⟨g, hg, hquery⟩ := h.query? w
  rw [hz, hy] at hquery
  rw [Option.some.inj hquery, hg z]

theorem gathers_collect (s : State) (d : DieNo) : Gathers s (s.collect d) := by
  unfold State.collect
  split
  case h_1 => exact .refl s
  case h_2 l _ =>
    dsimp only
    split
    · exact .refl s
    · split
      · exact ⟨_, _, s.items.scans, fun _ => rfl, rfl⟩
      · exact ⟨id, Tab.del s.items.running d.val, l.filterMap id ++ s.items.scans, fun _ => rfl, by simp [State.modItems]⟩

theorem gathers_collectAll (s : State) : Gathers s s.collectAll := by
  have hfold : ∀ (l : List Nat) (u : State), Gathers u (l.foldl (fun s k => s.collect ⟨k % 1024, Nat.mod_lt _ (by decide)⟩) u) := by
    intro l
    induction l with
    | nil => exact .refl
    | cons k l ih => exact fun u => (gathers_collect u _).trans (ih _)
  exact hfold _ s

theorem Gathers.frame {s t : State} (h : Gathers s t) : Frame [.items] s t := by
  obtain ⟨_, _, _, _, rfl⟩ := h
  exact frame_modItems s _

/-! ## A query that goes on (09 R302 to R306). -/

section
variable {s : State} {who : Asker} {r : SearchReads}

theorem State.runQuery_waits (h : s.collectAll.items.scansDone who = false) : s.runQuery who r = (s.collectAll, none) := by
  unfold State.runQuery
  dsimp only
  split
  · rfl
  · split
    · rfl
    · rw [h]
      rfl

/-- The state once the pages of a query's candidates have been read. -/
def State.reranked (s : State) (y : Query) : State := s.readSpots (s.rerankSpots y)

theorem State.runQuery_finds {y : Query} {q : Query1} {a : Admitted} (hy : s.collectAll.items.query? who = some y) (ha : y.ask = some (q, a))
    (hdone : s.collectAll.items.scansDone who = true) (hready : s.collectAll.spotsReady true (s.collectAll.rerankSpots y) = true) :
    s.runQuery who r = ((s.collectAll.reranked y).afterSearch ((s.collectAll.reranked y).finish q a y.lists r), some (q, (s.collectAll.reranked y).finish q a y.lists r)) := by
  simp only [State.runQuery, hy, ha, hdone, hready, Bool.not_true, Bool.or_self, Bool.false_eq_true, if_false]
  rfl

end

theorem frame_reranked (s : State) (y : Query) : Frame [.dies, .media] s (s.reranked y) := (readsPages_readSpots s _).frame

theorem frame_afterSearch (s : State) (f : Found) : Frame [.items, .health, .events, .freeCtr] s (s.afterSearch f) := by
  unfold State.afterSearch
  extract_lets lost t
  have ht : Frame [.items, .health, .events, .freeCtr] s t := by
    unfold t
    split
    · exact Frame.refl _ s
    · exact (frame_uncorrectable s _ _).mono (by simp)
  exact ht.trans (((frame_modItems t _).mono (by simp)).trans ((frame_spend _ _).mono (by simp)))

/-- A search leaves of the items' tables all but the list of stale nodes as it was. -/
theorem State.afterSearch_items (s : State) (f : Found) : ∃ l, (s.afterSearch f).items = { s.items with stale := l } := by
  unfold State.afterSearch
  extract_lets lost t
  have ht : t.items = s.items := by
    unfold t
    split
    · rfl
    · exact frame_uncorrectable s _ _ .items (by simp)
  exact ⟨_, congrArg (fun x : Items => { x with stale := x.stale ++ f.staleNodes.filter (fun n => n ∉ x.stale) }) ht⟩

/-! ## Queries that end (09 R283, R302). -/

theorem Items.queries_endQuery (x : Items) (now : Nat) (who : Asker) : ∀ q ∈ (x.endQuery now who).queries, q.who ≠ who :=
  fun _ hq => of_decide_eq_true (List.mem_filter.mp hq).2

theorem Items.scans_endQuery (x : Items) (now : Nat) (who : Asker) : ∀ q ∈ (x.endQuery now who).scans, q.who ≠ who :=
  fun _ hq => of_decide_eq_true (List.mem_filter.mp hq).2

/-- Items' tables that differ by the indices free to be taken alone. -/
def SameButFree (x y : Items) : Prop := y = { x with highWater := y.highWater, reclaimed := y.reclaimed, holes := y.holes }

theorem SameButFree.items {x y : Items} (h : SameButFree x y) : y.items = x.items := (congrArg Items.items h :)

theorem SameButFree.epoch {x y : Items} (h : SameButFree x y) : y.epoch = x.epoch := (congrArg Items.epoch h :)

theorem SameButFree.trans {x y z : Items} (h : SameButFree x y) (k : SameButFree y z) : SameButFree x z := by
  unfold SameButFree at h k ⊢
  rw [h] at k
  exact k

theorem sameButFree_trim (n : Nat) (x : Items) : SameButFree x (x.trim n) := by
  induction n generalizing x with
  | zero => rfl
  | succ n ih =>
    rw [Items.trim]
    split
    · exact SameButFree.trans (y := { x with highWater := x.highWater - 1, holes := x.holes.filter (· ≠ x.highWater - 1) }) rfl (ih _)
    · rfl

theorem sameButFree_giveBack (x : Items) (l : List (Nat × Nat)) : SameButFree x (x.giveBack l) := by
  have hfold : ∀ (l : List (Nat × Nat)) (y : Items), SameButFree y (l.foldl (fun (x : Items) r =>
      if r.2 = x.genFloor then { x with holes := insertBy (· < ·) r.1 x.holes }
      else { x with reclaimed := insertBy (fun a b => a.1 < b.1) (r.1, r.2 - 1) x.reclaimed }) y) := by
    intro l
    induction l with
    | nil => exact fun _ => rfl
    | cons r l ih =>
      refine fun y => SameButFree.trans ?_ (ih _)
      dsimp only
      split <;> rfl
  exact (hfold l x).trans (sameButFree_trim _ _)

theorem frame_dropWork (s : State) (id : Nat) : Frame [.items, .serv] s (s.dropWork id) := by
  intro p hp
  cases p <;> simp [Part.same] at hp ⊢ <;> rfl

theorem State.queries_dropWork (s : State) (id : Nat) : ∀ q ∈ (s.dropWork id).items.queries, q.who ≠ .cmd id := Items.queries_endQuery _ _ _

theorem State.dropWork_items (s : State) (id : Nat) : (s.dropWork id).items.items = s.items.items ∧ (s.dropWork id).items.epoch = s.items.epoch := by
  have hsame := sameButFree_giveBack { s.items with muts := s.items.muts.filter (fun m => m.cmd ≠ id) } (heldIndices (s.items.muts.filter (fun m => m.cmd = id)))
  exact ⟨hsame.items, hsame.epoch⟩

theorem frame_endQuery (s : State) (who : Asker) : Frame [.items] s (s.endQuery who) := frame_modItems s _

/-! ## A part of a span search joins the merge (09 R310; 11 R366). -/

section
variable (s : State) (key : InstKey) (g k : Nat) (cmd : Option Nat) (own : List Byte)

/-- The record a part becomes, with the headers that came before it. -/
def State.partInst : Inst :=
  ⟨key, g, spanParams k, none, cmd, none, 0, 0#64, own, ((s.inst? key).map (·.headers)).getD [], false, [], [], none, 0, 0, none, (s.span.desc.map (·.defTimeout)).getD 0, s.tick, 0⟩

/-- The state with a part's record, in place of what was there under its key. -/
def State.withPart : State := s.modSpan (fun x => { x with insts := x.insts.filter (fun i => i.key ≠ key) ++ [s.partInst key g k cmd own] })

theorem State.inst?_withPart : (s.withPart key g k cmd own).inst? key = some (s.partInst key g k cmd own) :=
  find?_filter_ne_append Inst.key s.span.insts (s.partInst key g k cmd own)

/-- The record stands as it does when its start is noted at the tick of its issue. -/
theorem State.modInst_withPart : (s.withPart key g k cmd own).modInst key (fun i => { i with started := s.tick, restartAt := none }) = s.withPart key g k cmd own := by
  have hkeep : ∀ i ∈ s.span.insts.filter (fun i => i.key ≠ key), (if i.key = key then { i with started := s.tick, restartAt := none } else i) = i :=
    fun i hi => if_neg (of_decide_eq_true (List.mem_filter.mp hi).2)
  have hself : [s.partInst key g k cmd own].map (fun i => if i.key = key then { i with started := s.tick, restartAt := none } else i) = [s.partInst key g k cmd own] := by
    simp [State.partInst]
  have hmap : (s.withPart key g k cmd own).span.insts.map (fun i => if i.key = key then { i with started := s.tick, restartAt := none } else i) =
      s.span.insts.filter (fun i => i.key ≠ key) ++ [s.partInst key g k cmd own] :=
    List.map_append.trans (congrArg₂ (· ++ ·) ((List.map_congr_left hkeep).trans (List.map_id' _)) hself)
  exact congrArg (fun l => s.modSpan (fun x => { x with insts := l })) hmap

end

theorem State.issueInst_noGap {s : State} {i : Inst} (h : s.groupGap i.group = none) :
    s.issueInst i = ((s.dropInst i.key).modSpan (fun x => { x with insts := x.insts ++ [{ i with headers := ((s.inst? i.key).map (·.headers)).getD [] }] })).sendHeader i.key := by
  unfold State.issueInst
  extract_lets early t
  have ht : t.groupGap i.group = none := h
  rw [ht]

/-- A member that is not its group's leader notes the start of its part and sends its header to the leader. -/
theorem posts_sendHeader {s : State} {key : InstKey} {i : Inst} (hi : s.inst? key = some i) (hlead : s.leaderOf i.group ≠ s.moduleNumber) :
    ∃ l, Posts (s.modInst key (fun i => { i with started := s.tick, restartAt := none })) (s.sendHeader key) l := by
  simp only [State.sendHeader, hi]
  rw [if_neg (by exact hlead)]
  exact ⟨_, posts_post _ _ _ _ _ _⟩

theorem posts_searchInst {s : State} {key : InstKey} {g : Nat} (k : Nat) (cmd : Option Nat) (own : List Byte) (hgap : s.groupGap g = none) (hlead : s.leaderOf g ≠ s.moduleNumber) :
    ∃ l, Posts (s.withPart key g k cmd own) (s.searchInst key g k cmd own) l := by
  have hissue : s.searchInst key g k cmd own = (s.withPart key g k cmd own).sendHeader key := State.issueInst_noGap hgap
  obtain ⟨l, hl⟩ := posts_sendHeader (State.inst?_withPart s key g k cmd own) hlead
  rw [← hissue] at hl
  exact ⟨l, State.modInst_withPart s key g k cmd own ▸ hl⟩

/-! ## A search that fails (09 R309). -/

section
variable {s : State} {id : Nat} {c : Cmd} {st : Status}

theorem State.spoiled_hostOutside (s : State) (c : Cmd) (st : Status) : HostOutside s (s.spoiled c st) (hostKey c.port (c.field 0x18 8)) (c.field 0x20 4) := by
  unfold State.spoiled
  split
  · have hlen : (s.freeBytes (c.field 0x20 4)).length = c.field 0x20 4 := by simp [State.freeBytes]
    exact fun a ha => Mem.get_write_out _ _ _ _ a (by rw [hlen]; exact ha)
  · exact fun _ _ => rfl

theorem State.hostMem_hold_dropCmd (x : Reply) (r : Nat) (h : s.cmd? id = some c) : ((s.dropCmd id).hold c.port r x).host.hostMem = s.host.hostMem := by
  simp [State.hold, State.modRing, State.modPort, State.dropCmd_host s id c h]

/-- What a failing search leaves undefined lies in its buffer. -/
theorem State.completeWith_hostOutside (flags : Nat) (res : List Byte) (h : s.cmd? id = some c) (hc : st ≠ .checkFailed) :
    HostOutside s (s.completeWith id st flags res) (hostKey c.port (c.field 0x18 8)) (c.field 0x20 4) := by
  have hcmd : (s.spoiled c st).cmd? id = some c := State.cmd?_of_hostMem h (s.spoiled_host c st)
  rw [State.completeWith_eq s id c st flags res h, if_neg hc, HostOutside, State.hostMem_hold_dropCmd _ _ hcmd]
  exact s.spoiled_hostOutside c st

theorem frame_spoiled (s : State) (c : Cmd) (st : Status) : Frame [.host, .freeCtr] s (s.spoiled c st) := by
  unfold State.spoiled
  split
  · exact ((frame_hostWrite s _ _ _).mono (by simp)).trans ((frame_spend _ _).mono (by simp))
  · exact Frame.refl _ s

theorem frame_completeWith_spoiled (flags : Nat) (res : List Byte) (h : s.cmd? id = some c) (hc : st ≠ .checkFailed) :
    Frame [.host, .media, .freeCtr] s (s.completeWith id st flags res) := by
  rw [State.completeWith_eq s id c st flags res h, if_neg hc]
  refine ((frame_spoiled s c st).mono (by simp)).trans ?_
  intro p hp
  cases p <;> simp [Part.same] at hp ⊢

end

end Sys2Proof.Machine

/-! # A member's part of a span search (09 R302, R310) -/

namespace Sys2Proof.Machine

section
variable {s t : State} {m : ModuleNo} {q g : Nat} {desc : List Byte} {r : SearchReads}

theorem State.groupMembers_congr (hspan : t.span = s.span) (g : Nat) : t.groupMembers g = s.groupMembers g := by
  simp only [State.groupMembers, hspan]

theorem State.groupGap_congr (hspan : t.span = s.span) (hpower : t.power = s.power) (g : Nat) : t.groupGap g = s.groupGap g := by
  have hview : ∀ m, t.viewOf m = s.viewOf m := fun m => by rw [State.viewOf, State.viewOf, State.moduleNumber, State.moduleNumber, hspan, hpower]
  simp only [State.groupGap, State.groupMembers_congr hspan, hview]

theorem State.leaderOf_congr (hspan : t.span = s.span) (g : Nat) : t.leaderOf g = s.leaderOf g := congrArg (·.headD 0) (State.groupMembers_congr hspan g)

theorem State.contribution_congr (h : t.items.items = s.items.items) (q : Query1) (f : Found) (fl : Nat) : t.contribution q f fl = s.contribution q f fl := by
  simp only [State.contribution, State.timeRecords, h]

/-- A part that waits for its CL_GO is not over. -/
theorem State.partDone_waiting {k : InstKey} {i : Inst} (hi : s.inst? k = some i) (hgo : i.go = false) : s.partDone k = s := by
  simp [State.partDone, hi, State.instReady, hgo]

/-! ## SERVICE (09 R310). -/

/-- A SERVICE packet that a member hears: its sender is a peer, the group is this member's and the sender's, and no part of the query stands here. -/
structure Hears (s : State) (m : ModuleNo) (q g : Nat) : Prop where
  peer : s.peer m.val = true
  group : s.groupOk g = true
  member : m.val ∈ s.groupMembers g
  fresh : s.inst? (.search m.val q) = none

theorem handleAsked_none (h : desc.length ≠ 8) : handleAsked desc = none := if_neg h

theorem exec_service_asked (h : Hears s m q g) (hd : desc.length = 8) :
    exec (.service m q g desc r) s =
      .next (s.post m.val 12 (keyNum (.search m.val q)) 0 (((s.named (leNat desc)).map (fun i => wordsBytes i.2.emb)).getD [])) := by
  have hasked : handleAsked desc = some (leNat desc) := if_pos hd
  change execService m q g desc r s = _
  simp only [execService, h.fresh, h.peer, h.group, h.member, hasked, Bool.not_true, Bool.false_eq_true, not_true_eq_false, or_self, if_false]

theorem exec_service_turn {z : Query} (h : Hears s m q g) (hd : desc.length ≠ 8) (hz : s.items.query? (.part m.val q) = some z) :
    exec (.service m q g desc r) s = .next (s.partTurn (.search m.val q) (.part m.val q) g z r) := by
  change execService m q g desc r s = _
  simp only [execService, h.fresh, h.peer, h.group, h.member, handleAsked_none hd, hz, Bool.not_true, Bool.false_eq_true, not_true_eq_false, or_self, if_false]

theorem exec_service_refused (h : Hears s m q g) (hd : desc.length ≠ 8) (hz : s.items.query? (.part m.val q) = none)
    (hbad : (s.formatted && descOk s.items.dims desc && s.descNames desc) = false) :
    exec (.service m q g desc r) s = .next (s.post m.val 5 (keyNum (.search m.val q)) 0 []) := by
  change execService m q g desc r s = _
  simp only [execService, h.fresh, h.peer, h.group, h.member, handleAsked_none hd, hz, hbad, Bool.not_true, Bool.not_false, Bool.false_eq_true, not_true_eq_false, or_self, if_false, if_true]

theorem exec_service_admits {fl : Nat} (h : Hears s m q g) (hd : desc.length ≠ 8) (hz : s.items.query? (.part m.val q) = none)
    (hok : (s.formatted && descOk s.items.dims desc && s.descNames desc) = true)
    (hrun : s.partRuns (r.plausible || (unitOf (wordsOf s.items.dims (desc.drop 256))).2) 0 4 = (some fl, s)) (hnodes : r.badNodes = []) :
    exec (.service m q g desc r) s = .next (s.withQuery (.part m.val q) (queryOf desc (wordsOf s.items.dims (desc.drop 256))) none fl) := by
  change execService m q g desc r s = _
  simp only [execService, h.fresh, h.peer, h.group, h.member, handleAsked_none hd, hz, hok, hrun, hnodes, Bool.not_true, Bool.false_eq_true, not_true_eq_false, or_self, if_false,
    List.foldl_nil]
  exact congrArg _ (s.startQuery_openQuery _ _ _ _)

theorem toNat_ofNat_module (m : ModuleNo) : (BitVec.ofNat 8 m.val).toNat = m.val := by
  rw [BitVec.toNat_ofNat]
  omega

/-! ## A part's turn. -/

theorem State.partTurn_faulted {key : InstKey} {who : Asker} {z : Query} (hf : z.faulted r = true) : s.partTurn key who g z r = s.endQuery who := if_pos hf

theorem State.partTurn_waits {key : InstKey} {who : Asker} {z : Query} (hf : z.faulted r = false) (hdone : s.collectAll.items.scansDone who = false) :
    s.partTurn key who g z r = s.collectAll := by
  simp only [State.partTurn, hf, State.runQuery_waits hdone, Bool.false_eq_true, if_false]

/-- What a query finds once its candidates' pages have been read. -/
def State.foundBy (s : State) (w : Query) (y : Query1) (a : Admitted) (r : SearchReads) : Found := (s.reranked w).finish y a w.lists r

/-- The state once a query has found what it finds. -/
def State.searched (s : State) (w : Query) (f : Found) : State := (s.reranked w).afterSearch f

theorem frame_searched (s : State) (w : Query) (f : Found) : Frame [.dies, .media, .items, .health, .events, .freeCtr] s (s.searched w f) :=
  ((frame_reranked s w).mono (by simp)).trans ((frame_afterSearch _ f).mono (by simp))

/-- A search leaves of the items' tables all but the list of stale nodes as it was. -/
theorem State.searched_items (s : State) (w : Query) (f : Found) : ∃ l, (s.searched w f).items = { s.items with stale := l } := by
  have hread : (s.reranked w).items = s.items := frame_reranked s w .items (by simp)
  rw [← hread]
  exact State.afterSearch_items _ f

theorem State.contribution_searched (w : Query) (f : Found) (y : Query1) (fl : Nat) : (s.searched w f).contribution y f fl = (s.reranked w).contribution y f fl := by
  obtain ⟨l, hl⟩ := s.searched_items w f
  have hread : (s.reranked w).items = s.items := frame_reranked s w .items (by simp)
  exact State.contribution_congr (by rw [hl, hread]) y f fl

theorem State.partTurn_joins {key : InstKey} {who : Asker} {z w : Query} {y : Query1} {a : Admitted} (hz : s.items.query? who = some z)
    (hf : z.faulted r = false) (hw : s.collectAll.items.query? who = some w) (ha : w.ask = some (y, a)) (hdone : s.collectAll.items.scansDone who = true)
    (hready : s.collectAll.spotsReady true (s.collectAll.rerankSpots w) = true) :
    s.partTurn key who g z r = (((s.collectAll.searched w (s.collectAll.foundBy w y a r)).endQuery who).searchInst key g y.k none
      ((s.collectAll.searched w (s.collectAll.foundBy w y a r)).contribution y (s.collectAll.foundBy w y a r) w.flags)).partDone key := by
  rw [(gathers_collectAll s).flags hz hw]
  simp only [State.partTurn, hf, State.runQuery_finds hw ha hdone hready, Bool.false_eq_true, if_false, State.searched, State.foundBy]

/-- A part joins the merge at a member that does not lead its group, with no member of it lost. -/
theorem State.partDone_searchInst {key : InstKey} {k : Nat} {own : List Byte} (hgap : s.groupGap g = none) (hlead : s.leaderOf g ≠ s.moduleNumber) :
    ((s.searchInst key g k none own).partDone key).inst? key = some (s.partInst key g k none own) ∧ ((s.searchInst key g k none own).partDone key).items = s.items := by
  obtain ⟨l, hl⟩ := posts_searchInst (key := key) k none own hgap hlead
  have hinst : (s.searchInst key g k none own).inst? key = some (s.partInst key g k none own) := by
    rw [State.inst?, hl.insts]
    exact s.inst?_withPart key g k none own
  rw [State.partDone_waiting hinst rfl]
  exact ⟨hinst, hl.items⟩

end

/-- Settles O33: a SERVICE packet has one equation for each of a part's steps; a part that has found its candidates stands as a record whose header has gone to the leader. -/
theorem spanSearchMember : Obligations.SpanSearchMember := by
  unfold Obligations.SpanSearchMember
  refine ⟨fun s m q g desc r hp hg hm hi hd hz hbad => ?_, fun s m q g desc r hp hg hm hi hd => ?_, fun s m q g fl desc r y image a hp hg hm hi hd hz hok hrun hnodes hy himage ha => ?_,
    fun s m q g desc r z hp hg hm hi hd hz hf hdone => ?_, fun s m q g desc r z hp hg hm hi hd hz hf => ?_,
    fun s u m q g desc r z w y a hp hg hm hi hd hz hf hu hw ha hdone hready hgap hlead => ?_⟩
  · have hpost := posts_post s m.val 5 (keyNum (.search m.val q)) 0 []
    exact ⟨_, exec_service_refused ⟨hp, hg, hm, hi⟩ hd hz hbad, hpost.sent.trans (by rw [toNat_ofNat_module]; rfl), hpost.insts, hpost.frame⟩
  · have hpost := posts_post s m.val 12 (keyNum (.search m.val q)) 0 (((s.named (leNat desc)).map (fun i => wordsBytes i.2.emb)).getD [])
    exact ⟨_, exec_service_asked ⟨hp, hg, hm, hi⟩ hd, hpost.insts, hpost.frame, hpost.sent.trans (by rw [toNat_ofNat_module]; rfl)⟩
  · subst hy himage ha
    exact ⟨_, exec_service_admits ⟨hp, hg, hm, hi⟩ hd hz hok hrun hnodes, s.query?_withQuery _ _ _ _, ⟨_, rfl, s.leaf_scansOf _ _ _, fun x hx => by
      obtain ⟨hwho, hcls, -, hquery⟩ := s.mem_scansOf _ _ _ hx
      exact ⟨hwho, hcls, hquery⟩⟩, rfl, frame_withQuery s _ _ _ _⟩
  · rw [exec_service_turn ⟨hp, hg, hm, hi⟩ hd hz, State.partTurn_waits hf hdone]
  · refine ⟨_, exec_service_turn ⟨hp, hg, hm, hi⟩ hd hz, ?_⟩
    rw [State.partTurn_faulted hf]
    exact ⟨Items.queries_endQuery _ _ _, Items.scans_endQuery _ _ _, frame_endQuery s _⟩
  · subst hu
    have hexec := exec_service_turn (r := r) ⟨hp, hg, hm, hi⟩ hd hz
    rw [State.partTurn_joins hz hf hw ha hdone hready] at hexec
    generalize hfound : s.collectAll.foundBy w y a r = f at hexec
    have hframe : Frame [.dies, .media, .items, .health, .events, .freeCtr] s ((s.collectAll.searched w f).endQuery (.part m.val q)) :=
      ((gathers_collectAll s).frame.mono (by simp)).trans ((frame_searched _ w f).trans ((frame_endQuery _ _).mono (by simp)))
    have hspan := hframe .span (by simp)
    have hpower := hframe .power (by simp)
    obtain ⟨hinst, hitems⟩ := State.partDone_searchInst (key := .search m.val q) (k := y.k) (own := (s.collectAll.searched w f).contribution y f w.flags)
      ((State.groupGap_congr hspan hpower g).trans hgap) (by rw [State.leaderOf_congr hspan, State.moduleNumber, hpower]; exact hlead)
    refine ⟨_, _, hexec, hinst, rfl, rfl, rfl, rfl, rfl, ?_, by rw [hitems]; exact Items.queries_endQuery _ _ _⟩
    exact (State.contribution_searched w f y w.flags).trans (congrArg (fun f => (s.collectAll.reranked w).contribution y f w.flags) hfound.symm)

end Sys2Proof.Machine

/-! # SEARCH and SEARCH_SPAN (09 R282, R297 to R311; 13 R434) -/

namespace Sys2Proof.Machine

section
variable {s t u : State} {id : Nat} {c : Cmd} {r : SearchReads}

theorem State.timeRecords_congr (h : t.items.items = s.items.items) (x : Selected) : t.timeRecords x = s.timeRecords x := by
  simp only [State.timeRecords, h]

/-- A command fails after changes that leave the host alone: the reply, what it leaves undefined, and the rest. -/
theorem fails_of {ks : List Part} {st : Status} (flags : Nat) (res : List Byte) (h : s.cmd? id = some c) (hc : st ≠ .checkFailed) (hu : u.host = s.host)
    (hf : Frame (.host :: .media :: .freeCtr :: ks) s u) :
    Replied s (u.completeWith id st flags res) id c (c.reply st flags res) ∧
      HostOutside s (u.completeWith id st flags res) (hostKey c.port (c.field 0x18 8)) (c.field 0x20 4) ∧
      Frame (.host :: .media :: .freeCtr :: ks) s (u.completeWith id st flags res) := by
  have hcmd : u.cmd? id = some c := by rw [State.cmd?, hu]; exact h
  have hout := State.completeWith_hostOutside flags res hcmd hc
  rw [HostOutside, hu] at hout
  exact ⟨replied_of_hostMem (State.completeWith_replied u id c st flags res hcmd) ⟨s.host.hostMem, hu⟩, hout,
    hf.trans ((frame_completeWith_spoiled flags res hcmd hc).mono (by simp))⟩

/-! ## SEARCH (13 R434). -/

theorem State.unitRun_plausible (id n : Nat) (b : Bool) (h : r.plausible = true) : s.unitRun id n (r.plausible || b) = (some 0, s) := if_pos (.inl (by rw [h]; rfl))

theorem State.searchError_status {b : List Byte} {span : Bool} {st : Status} (h : s.searchError c b span = some st) : st = .invalidField := by
  unfold State.searchError at h
  split at h
  · exact (Option.some.inj h).symm
  · split at h
    · cases h
    · exact (Option.some.inj h).symm

theorem exec_search_admits {v : List W32} (hr : RunsItem s id 0x0401 c) (h0 : c.stage = 0) (he : s.searchError c (s.descBytes c) false = none)
    (hv : s.queryVec (s.descBytes c) = some v) (hread : ¬ (r.queryUnreadable = true ∧ bitOf (descFlags (s.descBytes c)) 0 = true)) (hp : r.plausible = true) (hn : r.badNodes = []) :
    exec (.search id r) s = .next ((s.withQuery (.cmd id) (queryOf (s.descBytes c) v) c.expiry 0).stage id 1 [0]) := by
  change execSearch id r s = _
  simp only [execSearch, hr.1, if_pos h0, he, hv, Option.isNone_some, Bool.false_eq_true, if_false, hr.runs.checked, Option.getD_some, State.unitRun_plausible _ _ _ hp, if_neg hread, hn,
    List.foldl_nil]
  exact congrArg (fun t : State => Host.Outcome.next (t.stage id 1 [0])) (s.startQuery_openQuery _ _ _ _)

theorem exec_search_refused {st : Status} (hr : RunsItem s id 0x0401 c) (h0 : c.stage = 0) (he : s.searchError c (s.descBytes c) false = some st) :
    exec (.search id r) s = .next (s.fail id st) := by
  change execSearch id r s = _
  simp only [execSearch, hr.1, if_pos h0, he, State.checked_fail, hr.2.1]

theorem exec_search_faulted {z : Query} (hr : RunsItem s id 0x0401 c) (h1 : c.stage = 1) (hz : s.items.query? (.cmd id) = some z) (hf : z.faulted r = true) :
    exec (.search id r) s = .next ((s.dropWork id).fail id .mediaFault) := by
  have h0 : ¬ c.stage = 0 := by omega
  change execSearch id r s = _
  simp only [execSearch, hr.1, if_neg h0, hz, hf, if_true]

theorem exec_search_waits {z : Query} (hr : RunsItem s id 0x0401 c) (h1 : c.stage = 1) (hz : s.items.query? (.cmd id) = some z) (hf : z.faulted r = false)
    (hdone : s.collectAll.items.scansDone (.cmd id) = false) : exec (.search id r) s = .next s.collectAll := by
  have h0 : ¬ c.stage = 0 := by omega
  change execSearch id r s = _
  simp only [execSearch, hr.1, if_neg h0, hz, hf, State.runQuery_waits hdone, Bool.false_eq_true, if_false]

/-- What a SEARCH writes to its buffer. -/
def State.searchOut (s : State) (c : Cmd) (q : Query1) (f : Found) : List Byte :=
  f.header (f.flags + c.aux.headD 0) ++ f.sel.entries ++ (if q.times then s.timeRecords f.sel else [])

/-- The results of a SEARCH. -/
def Found.results (f : Found) : List Byte := resultAt [(0x0C, 2, f.sel.sel.length), (0x0E, 2, 1), (0x10, 8, f.epoch), (0x18, 4, f.candidates)]

theorem exec_search_delivers {z y : Query} {q : Query1} {a : Admitted} (hr : RunsItem s id 0x0401 c) (h1 : c.stage = 1) (hz : s.items.query? (.cmd id) = some z)
    (hf : z.faulted r = false) (hy : s.collectAll.items.query? (.cmd id) = some y) (ha : y.ask = some (q, a)) (hdone : s.collectAll.items.scansDone (.cmd id) = true)
    (hready : s.collectAll.spotsReady true (s.collectAll.rerankSpots y) = true) :
    exec (.search id r) s = .next ((((s.collectAll.searched y (s.collectAll.foundBy y q a r)).dropWork id).hostWrite c.port (c.field 0x18 8)
      ((s.collectAll.searched y (s.collectAll.foundBy y q a r)).searchOut c q (s.collectAll.foundBy y q a r))).completeWith id .success
        ((s.collectAll.foundBy y q a r).flags + c.aux.headD 0) (s.collectAll.foundBy y q a r).results) := by
  have h0 : ¬ c.stage = 0 := by omega
  change execSearch id r s = _
  simp only [execSearch, hr.1, if_neg h0, hz, hf, State.runQuery_finds hy ha hdone hready, Bool.false_eq_true, if_false]
  rfl

/-! ## SEARCH_SPAN (09 R310, R311; 13 R434). -/

/-- A member that is lost is lost whatever another module answers. -/
theorem State.spanVec_lost {b : List Byte} {m : Nat} (h : s.spanVec b r = .error (.spanMemberLost, m)) (far : Option (List W32)) :
    s.spanVec b { r with far := far } = .error (.spanMemberLost, m) := by
  unfold State.spanVec at h ⊢
  dsimp only at h ⊢
  split
  case isTrue h₁ => rwa [if_pos h₁] at h
  case isFalse h₁ =>
    rw [if_neg h₁] at h
    split
    case isTrue h₂ => rwa [if_pos h₂] at h
    case isFalse h₂ =>
      rw [if_neg h₂] at h
      split
      case isTrue h₃ => rwa [if_pos h₃] at h
      case isFalse h₃ =>
        rw [if_neg h₃] at h
        split at h <;> cases h

theorem State.spanError_lost {b : List Byte} {m : Nat} (h : s.spanError c b r = some (.spanMemberLost, m)) (far : Option (List W32)) :
    s.spanError c b { r with far := far } = some (.spanMemberLost, m) := by
  unfold State.spanError at h ⊢
  split
  case isTrue hg =>
    rw [if_pos hg] at h
    cases h
  case isFalse hg =>
    rw [if_neg hg] at h
    split at h
    case h_1 st hst =>
      rw [State.searchError_status hst] at h
      cases h
    case h_2 e hst hvec =>
      cases h
      rw [hst, State.spanVec_lost hvec far]
    case h_3 => cases h

theorem exec_searchSpan_lost {m : Nat} (hr : RunsItem s id 0x0402 c) (h0 : c.stage = 0) (he : s.spanError c (s.descBytes c) r = some (.spanMemberLost, m)) :
    exec (.searchSpan id r) s = .next (s.completeWith id .spanMemberLost 0 (resultAt [(0x1C, 1, m)])) := by
  have hlost := State.spanError_lost he (some [])
  change execSearchSpan id r s = _
  simp only [execSearchSpan, hr.1, h0, he, hlost, true_or, if_true, ite_self]

theorem exec_searchSpan_asks {m : Nat} (hr : RunsItem s id 0x0402 c) (h0 : c.stage = 0) (hfar : s.farModule (s.descBytes c) = some m)
    (he : s.spanError c (s.descBytes c) { r with far := some [] } = none) :
    exec (.searchSpan id r) s =
      .next ((s.post m 12 (keyNum (.search s.moduleNumber s.span.queryCount)) 0 (((s.descBytes c).drop 0x20).take 8)).stage id 3 c.aux) := by
  change execSearchSpan id r s = _
  simp only [execSearchSpan, hr.1, h0, hfar, Option.isSome_some, and_self, if_true, he, hr.runs.checked, Option.getD_some]

theorem exec_searchSpan_starts {v : List W32} (hr : RunsItem s id 0x0402 c) (h0 : c.stage = 0) (hfar : s.farModule (s.descBytes c) = none)
    (he : s.spanError c (s.descBytes c) r = none) (hv : s.spanVec (s.descBytes c) r = .ok v)
    (hread : ¬ (r.queryUnreadable = true ∧ bitOf (descFlags (s.descBytes c)) 0 = true)) (hp : r.plausible = true) (hn : r.badNodes = []) :
    exec (.searchSpan id r) s = .next (s.spanStart c (s.descBytes c) v 0) := by
  change execSearchSpan id r s = _
  simp only [execSearchSpan, hr.1, h0, hfar, Option.isSome_none, Bool.false_eq_true, and_false, if_false, true_or, if_true, he, hv, hr.runs.checked, State.unitRun_plausible _ _ _ hp,
    if_neg hread, hn, List.foldl_nil]
  rfl

theorem exec_searchSpan_turn {i : Inst} {z : Query} (hr : RunsItem s id 0x0402 c) (h2 : c.stage = 2) (hi : s.span.insts.find? (fun i => i.cmd = some id) = some i)
    (hz : s.items.query? (.cmd id) = some z) : exec (.searchSpan id r) s = .next (s.spanTurn c i z r) := by
  have h0 : ¬ (c.stage = 0 ∧ (s.farModule (s.descBytes c)).isSome = true) := by omega
  have h3 : ¬ (c.stage = 0 ∨ c.stage = 3) := by omega
  change execSearchSpan id r s = _
  simp only [execSearchSpan, hr.1, if_neg h0, if_neg h3, if_pos h2, hi, hz]

theorem exec_searchSpan_unready {i : Inst} (hr : RunsItem s id 0x0402 c) (h1 : c.stage = 1) (hi : s.span.insts.find? (fun i => i.cmd = some id) = some i)
    (hready : s.instReady i = false) : exec (.searchSpan id r) s = .next s := by
  have h0 : ¬ (c.stage = 0 ∧ (s.farModule (s.descBytes c)).isSome = true) := by omega
  have h3 : ¬ (c.stage = 0 ∨ c.stage = 3) := by omega
  have h2 : ¬ c.stage = 2 := by omega
  change execSearchSpan id r s = _
  simp only [execSearchSpan, hr.1, if_neg h0, if_neg h3, if_neg h2, hi, hready, Bool.not_false, if_true]

/-- The results of a SEARCH_SPAN. -/
def spanResults (x : List Byte × Nat × Nat × Nat × Nat × Nat) : List Byte := resultAt [(0x0C, 2, x.2.1), (0x0E, 2, x.2.2.1), (0x10, 8, x.2.2.2.1), (0x18, 4, x.2.2.2.2.1)]

/-- What a SEARCH_SPAN returns. -/
def State.mergedResult (s : State) (c : Cmd) (i : Inst) : List Byte × Nat × Nat × Nat × Nat × Nat := s.spanResult i (c.aux.getD 1 0 = 1) (c.aux.headD 0)

theorem exec_searchSpan_delivers {i : Inst} (hr : RunsItem s id 0x0402 c) (h1 : c.stage = 1) (hi : s.span.insts.find? (fun i => i.cmd = some id) = some i)
    (hready : s.instReady i = true) :
    exec (.searchSpan id r) s = .next (((s.dropInst i.key).hostWrite c.port (c.field 0x18 8) (s.mergedResult c i).1).completeWith id .success
      (s.mergedResult c i).2.2.2.2.2 (spanResults (s.mergedResult c i))) := by
  have h0 : ¬ (c.stage = 0 ∧ (s.farModule (s.descBytes c)).isSome = true) := by omega
  have h3 : ¬ (c.stage = 0 ∨ c.stage = 3) := by omega
  have h2 : ¬ c.stage = 2 := by omega
  change execSearchSpan id r s = _
  simp only [execSearchSpan, hr.1, if_neg h0, if_neg h3, if_neg h2, hi, hready, Bool.not_true, Bool.false_eq_true, if_false]
  rfl

theorem State.inst?_dropInst (s : State) (k : InstKey) : (s.dropInst k).inst? k = none := by
  rw [State.inst?, List.find?_eq_none]
  intro i hi
  simpa using (List.mem_filter.mp hi).2

/-- The state with a span search's record, whose own part is still to come. -/
def State.withSearch (s : State) (id g : Nat) : State :=
  s.modSpan (fun x => { x with
    queryCount := x.queryCount + 1, insts := x.insts ++ [{ earlyInst (.search s.moduleNumber s.span.queryCount) g with cmd := some id }] })

/-- The packets that bring a descriptor to the other members of a group. -/
def State.servicePackets (s : State) (g : Nat) (body : List Byte) : List Sent :=
  ((s.groupMembers g).filter (· ≠ s.moduleNumber)).map (fun m => ⟨(BitVec.ofNat 8 m).toNat, 12, body⟩)

/-- The state with a span search's record, once its SERVICE packets are sent. -/
def State.withServices (s : State) (id g : Nat) (body : List Byte) (ports : Tab TPort) : State :=
  (s.withSearch id g).modSpan (fun x => { x with sent := x.sent ++ s.servicePackets g body, ports := ports })

/-- A span search whose group has no gap starts: SERVICE goes to the members, and the coordinator's own query is admitted. -/
theorem State.spanStart_eq (b : List Byte) (v : List W32) (fl : Nat) (hid : c.ident = id) (hgap : s.groupGap (c.field 0x24 1) = none) :
    ∃ ports, s.spanStart c b v fl = ((s.withServices id (c.field 0x24 1) (b.take 256 ++ wordsBytes v) ports).withQuery (.cmd id) (queryOf b v) c.expiry fl).stage id 2
      [fl, bit (queryOf b v).times] := by
  subst hid
  obtain ⟨ports, hports⟩ := posts_postAll (s.withSearch c.ident (c.field 0x24 1)) ((s.withSearch c.ident (c.field 0x24 1)).groupMembers (c.field 0x24 1)) 12
    (keyNum (.search s.moduleNumber s.span.queryCount)) (c.field 0x24 1) (b.take 256 ++ wordsBytes v)
  have hstart : s.spanStart c b v fl = ((((s.withSearch c.ident (c.field 0x24 1)).postAll ((s.withSearch c.ident (c.field 0x24 1)).groupMembers (c.field 0x24 1)) 12
      (keyNum (.search s.moduleNumber s.span.queryCount)) (c.field 0x24 1) (b.take 256 ++ wordsBytes v)).openQuery (.cmd c.ident) (queryOf b v).bitmap c.expiry fl).startQuery
        (.cmd c.ident) (queryOf b v)).stage c.ident 2 [fl, bit (queryOf b v).times] := by
    simp only [State.spanStart, hgap]
    rfl
  refine ⟨ports, ?_⟩
  rw [hstart, hports, State.startQuery_openQuery]
  rfl

/-- A coordinator's part goes on as a member's does, and its command waits for the merge. -/
theorem State.spanTurn_joins {i : Inst} {z y : Query} {q : Query1} {a : Admitted} (hid : c.ident = id) (hz : s.items.query? (.cmd id) = some z) (hf : z.faulted r = false)
    (hy : s.collectAll.items.query? (.cmd id) = some y) (ha : y.ask = some (q, a)) (hdone : s.collectAll.items.scansDone (.cmd id) = true)
    (hready : s.collectAll.spotsReady true (s.collectAll.rerankSpots y) = true) :
    s.spanTurn c i z r = (((s.collectAll.searched y (s.collectAll.foundBy y q a r)).dropWork id).stage id 1 c.aux).searchInst i.key i.group q.k (some id)
      ((s.collectAll.searched y (s.collectAll.foundBy y q a r)).contribution q (s.collectAll.foundBy y q a r) y.flags) := by
  subst hid
  rw [(gathers_collectAll s).flags hz hy]
  simp only [State.spanTurn, hf, State.runQuery_finds hy ha hdone hready, Bool.false_eq_true, if_false, State.searched, State.foundBy]

end

section
variable {s : State} {id : Nat} {c : Cmd}

/-- The state once a search's command has found what it finds, its query and its work gone. -/
def State.searchDone (s : State) (id : Nat) (y : Query) (f : Found) : State := (s.collectAll.searched y f).dropWork id

theorem frame_searchDone (s : State) (id : Nat) (y : Query) (f : Found) : Frame [.dies, .media, .items, .serv, .health, .events, .freeCtr] s (s.searchDone id y f) :=
  ((gathers_collectAll s).frame.mono (by simp)).trans (((frame_searched _ y f).mono (by simp)).trans ((frame_dropWork _ id).mono (by simp)))

/-- What is gathered from the dies leaves the items and the epoch. -/
theorem State.collectAll_items (s : State) : s.collectAll.items.items = s.items.items ∧ s.collectAll.items.epoch = s.items.epoch := by
  obtain ⟨_, _, _, -, h⟩ := gathers_collectAll s
  rw [h]
  exact ⟨rfl, rfl⟩

theorem State.searched_collectAll_items (s : State) (y : Query) (f : Found) :
    (s.collectAll.searched y f).items.items = s.items.items ∧ (s.collectAll.searched y f).items.epoch = s.items.epoch := by
  obtain ⟨l, hl⟩ := s.collectAll.searched_items y f
  rw [hl]
  exact s.collectAll_items

theorem State.searchDone_items (s : State) (id : Nat) (y : Query) (f : Found) : (s.searchDone id y f).items.items = s.items.items ∧ (s.searchDone id y f).items.epoch = s.items.epoch := by
  obtain ⟨hitems, hepoch⟩ := s.searched_collectAll_items y f
  obtain ⟨hitems', hepoch'⟩ := (s.collectAll.searched y f).dropWork_items id
  exact ⟨hitems'.trans hitems, hepoch'.trans hepoch⟩

theorem State.searchOut_congr {t : State} (h : t.items.items = s.items.items) (q : Query1) (f : Found) : t.searchOut c q f = s.searchOut c q f := by
  rw [State.searchOut, State.searchOut, State.timeRecords_congr h]

end

/-- Settles O44: each step of the two commands has its equation; what it leaves alone follows from what gathering, rescoring, the end of a query and the packets sent leave alone. -/
theorem searchCommands : Obligations.SearchCommands := by
  unfold Obligations.SearchCommands
  refine ⟨fun s id r c b v q image a hr h0 hb he hv hread hp hn hq himage ha => ?_, fun s u id r c z y q a f hr h1 hz hf hu hy ha hdone hready hfound => ?_,
    fun s id r c z hr h1 hz hf hdone => exec_search_waits hr h1 hz hf hdone, fun s id r c z hr h1 hz hf => ?_, fun s id r c st hr h0 he => ?_, fun s id m r c hr h0 he => ?_,
    fun s id r c b v q g hr h0 hb hfar he hv hread hp hn hq hg hgap => ?_, fun s id m r c b hr h0 hb hfar he => ?_,
    fun s u id r c i z y q a hr h2 hi hz hf hu hy ha hdone hready hgap hlead => ?_, fun s id r c i hr h1 hi hready => ?_,
    fun s id r c i hr h1 hi hready => exec_searchSpan_unready hr h1 hi hready⟩
  · subst hb hq himage ha
    refine ⟨_, exec_search_admits hr h0 he hv (fun h => by simp [hread h.2] at h) hp hn, waits_stage 1 [0] hr.runs.cmd? rfl (frame_withQuery s _ _ _ _), s.query?_withQuery _ _ _ _, rfl,
      ⟨_, rfl, s.leaf_scansOf _ _ _, fun x hx => s.mem_scansOf _ _ _ hx⟩, rfl⟩
  · subst hu
    have hexec := exec_search_delivers (r := r) hr h1 hz hf hy ha hdone hready
    have hf' : s.collectAll.foundBy y q a r = f := hfound.symm
    rw [hf', State.searchOut_congr (s.searched_collectAll_items y f).1] at hexec
    have hframe : Frame [.host, .dies, .media, .items, .serv, .health, .events, .freeCtr] s (s.searchDone id y f) := (frame_searchDone s id y f).mono (by simp)
    have hhost : (s.searchDone id y f).host = s.host := frame_searchDone s id y f .host (by simp)
    obtain ⟨hreplied, hdone⟩ := completed_hostWrite (ks := [.dies, .items, .serv, .health, .events, .freeCtr]) c.port (c.field 0x18 8) (s.searchOut c q f) (f.flags + c.aux.headD 0)
      f.results hr.runs.cmd? hhost (hframe.mono (by simp))
    have hitems : ((((s.searchDone id y f).hostWrite c.port (c.field 0x18 8) (s.searchOut c q f)).completeWith id .success (f.flags + c.aux.headD 0) f.results)).items =
        (s.searchDone id y f).items := State.completeWith_items _ _ _ _ _
    refine ⟨_, hexec, ?_, hostHolds_completeWith _ _ _ _ _ hhost, hreplied, ?_, ?_, hdone.mono (by simp)⟩
    · exact hitems ▸ State.queries_dropWork _ id
    · exact (congrArg Items.items hitems).trans (s.searchDone_items id y f).1
    · exact (congrArg Items.epoch hitems).trans (s.searchDone_items id y f).2
  · obtain ⟨hreplied, hout, hframe⟩ := fails_of (u := s.dropWork id) (ks := [.items, .serv]) (st := .mediaFault) 0 [] hr.runs.cmd? (by decide) rfl ((frame_dropWork s id).mono (by simp))
    have hitems : ((s.dropWork id).fail id .mediaFault).items = (s.dropWork id).items := State.completeWith_items _ _ _ _ _
    exact ⟨_, exec_search_faulted hr h1 hz hf, hitems ▸ s.queries_dropWork id, hreplied, hout, (congrArg Items.items hitems).trans (s.dropWork_items id).1, hframe.mono (by simp)⟩
  · have hst := State.searchError_status he
    obtain ⟨hreplied, hout, hframe⟩ := fails_of (ks := []) (st := st) 0 [] hr.runs.cmd? (by rw [hst]; decide) rfl (Frame.refl _ s)
    exact ⟨_, exec_search_refused hr h0 he, hreplied, hout, hframe⟩
  · obtain ⟨hreplied, hout, hframe⟩ := fails_of (ks := []) (st := .spanMemberLost) 0 (resultAt [(0x1C, 1, m)]) hr.runs.cmd? (by decide) rfl (Frame.refl _ s)
    exact ⟨_, exec_searchSpan_lost hr h0 he, hout, hreplied, hframe⟩
  · subst hb hq hg
    obtain ⟨ports, hports⟩ := State.spanStart_eq (s.descBytes c) v 0 hr.2.1 hgap
    have hexec := exec_searchSpan_starts hr h0 hfar he hv (fun h => by simp [hread h.2] at h) hp hn
    rw [hports] at hexec
    have hwaits : ∀ t : State, t.host = s.host → Frame [.span] s t → Waits [.items, .span] s ((t.withQuery (.cmd id) (queryOf (s.descBytes c) v) c.expiry 0).stage id 2
        [0, bit (queryOf (s.descBytes c) v).times]) id { c with stage := 2, aux := [0, bit (queryOf (s.descBytes c) v).times] } := fun t hhost hframe =>
      waits_stage 2 _ hr.runs.cmd? hhost ((hframe.mono (by simp)).trans ((frame_withQuery t _ _ _ _).mono (by simp)))
    have hwait := hwaits (s.withServices id (c.field 0x24 1) ((s.descBytes c).take 256 ++ wordsBytes v) ports) rfl
      ((frame_modSpan s _).trans (frame_modSpan _ _))
    exact ⟨_, _, hexec, hwait.there, rfl, rfl, State.query?_withQuery _ _ _ _ _, rfl, rfl, ⟨_, List.mem_append_right _ (List.mem_singleton_self _), rfl, rfl, rfl⟩, rfl, hwait.frame⟩
  · subst hb
    have hpost := posts_post s m 12 (keyNum (.search s.moduleNumber s.span.queryCount)) 0 (((s.descBytes c).drop 0x20).take 8)
    have hwait := waits_stage 3 c.aux hr.runs.cmd? hpost.host hpost.frame
    exact ⟨_, exec_searchSpan_asks hr h0 hfar he, hwait.there, hpost.sent.trans (by rw [BitVec.toNat_ofNat]; rfl), (congrArg HostT.hostMem hpost.host :), hwait.frame⟩
  · subst hu
    have hexec := exec_searchSpan_turn (r := r) hr h2 hi hz
    rw [State.spanTurn_joins hr.2.1 hz hf hy ha hdone hready] at hexec
    generalize hfound : s.collectAll.foundBy y q a r = f at hexec
    have hframe := frame_searchDone s id y f
    have hspan : ((s.searchDone id y f).stage id 1 c.aux).span = s.span := hframe .span (by simp)
    have hpower : ((s.searchDone id y f).stage id 1 c.aux).power = s.power := hframe .power (by simp)
    have hhost : (s.searchDone id y f).host = s.host := hframe .host (by simp)
    obtain ⟨l, hl⟩ := posts_searchInst (key := i.key) q.k (some id) ((s.collectAll.searched y f).contribution q f y.flags) ((State.groupGap_congr hspan hpower i.group).trans hgap)
      (by rw [State.leaderOf_congr hspan, State.moduleNumber, hpower]; exact hlead)
    have hinst := (congrArg (fun x => x.find? (fun j => j.key = i.key)) hl.insts).trans (State.inst?_withPart _ _ _ _ _ _)
    refine ⟨_, _, hexec, hinst, rfl, rfl, rfl, rfl, ?_, ?_, ?_, ?_⟩
    · exact (State.contribution_searched y f q y.flags).trans (congrArg (fun f => (s.collectAll.reranked y).contribution q f y.flags) hfound.symm)
    · have hitems : _ = (s.searchDone id y f).items := hl.items
      exact hitems ▸ State.queries_dropWork _ id
    · exact (congrArg (fun x : HostT => Tab.find x.cmds id) hl.host).trans (waits_stage 1 c.aux hr.runs.cmd? hhost hframe).there
    · exact (congrArg HostT.hostMem hl.host).trans (congrArg HostT.hostMem hhost :)
  · have hdone := completed_hostWrite (u := s.dropInst i.key) (ks := [.span]) c.port (c.field 0x18 8) (s.mergedResult c i).1 (s.mergedResult c i).2.2.2.2.2
      (spanResults (s.mergedResult c i)) hr.runs.cmd? rfl ((frame_modSpan s _).mono (by simp))
    refine ⟨_, exec_searchSpan_delivers hr h1 hi hready, hostHolds_completeWith _ _ _ _ _ rfl, hdone.1.gone, ?_⟩
    rw [State.inst?, State.completeWith_span]
    exact s.inst?_dropInst i.key

end Sys2Proof.Machine

/-! # Adaptation and REINDEX (10 R336 to R342; 13 R450 to R452) -/

namespace Sys2Proof.Machine

/-! ## ADAPT_START (13 R450). -/

section
variable {s t u : State} {id : Nat} {c : Cmd} {a : Adapt} {lost : List Nat}

/-- The set descriptor of an ADAPT_START: what a REINDEX names in host memory, zeros for the other kinds. -/
def State.adaptDesc (s : State) (c : Cmd) : List Byte := if c.field 0x10 1 = 4 then s.hostRead c.port (c.field 0x28 8) 32 else zeros 32

/-- The job an ADAPT_START makes. -/
def State.adaptJob (s : State) (c : Cmd) : Adapt where
  kind := c.field 0x10 1
  state := 1
  status := 0
  rank := c.field 0x11 1
  items := if c.field 0x10 1 = 4 then (s.items.visibleAt s.items.epoch).map (·.1) else s.trainingItems (c.field 0x12 2)
  done := 0
  total := if c.field 0x10 1 = 4 then (s.items.visibleAt s.items.epoch).length else c.field 0x14 4
  losses := []
  absentItems := []
  startEpoch := s.items.epoch
  encV := BitVec.ofNat 64 (fieldAt (s.adaptDesc c) 0 8)
  encA := BitVec.ofNat 64 (fieldAt (s.adaptDesc c) 8 8)
  projModel := BitVec.ofNat 64 (fieldAt (s.adaptDesc c) 16 8)
  label := BitVec.ofNat 64 (fieldAt (s.adaptDesc c) 24 8)
  master := c.field 0x18 8
  masterLen := c.field 0x20 8
  working := []

theorem exec_adaptStart_starts (hr : Runs s id 0x0701 c) (he : s.adaptError c (s.adaptDesc c) = none) :
    ∃ f, exec (.adaptStart id) s = .next (((s.modMedia f).modServ (fun v => { v with adapt := some (s.adaptJob c) })).succeed id []) := by
  unfold State.adaptDesc at he
  by_cases hk : c.field 0x10 1 = 4
  · rw [if_pos hk] at he
    refine ⟨fun m => (s.stage? ((s.items.visibleAt s.items.epoch).map (·.1))).getD m, ?_⟩
    change execAdaptStart id s = _
    simp only [execAdaptStart, hr.1, he, hr.checked, State.adaptJob, State.adaptDesc, if_pos hk, List.length_map]
  · rw [if_neg hk] at he
    refine ⟨fun m => m, ?_⟩
    change execAdaptStart id s = _
    simp only [execAdaptStart, hr.1, he, hr.checked, State.adaptJob, State.adaptDesc, if_neg hk]
    rfl

theorem exec_adaptStart_refused {st : Status} {n : Nat} (hr : Runs s id 0x0701 c) (he : s.adaptError c (s.adaptDesc c) = some (st, n)) :
    exec (.adaptStart id) s = .next (s.completeWith id st 0 (resultAt [(0x10, 8, n)])) := by
  unfold State.adaptDesc at he
  change execAdaptStart id s = _
  simp only [execAdaptStart, hr.1, he]

/-! ## Which way ADAPT_STEP goes (10 R336, R338, R342). -/

/-- Whether a job's batches read content, so that they need a stream of a decode complex (10 R316, R337, R340). -/
def Adapt.reads (a : Adapt) (x : Items) : Bool := a.kind = 2 || a.kind = 3 || (a.kind = 4 && !decide (a.encV = x.encV ∧ a.encA = x.encA))

theorem Adapt.reads_training {x : Items} (h4 : a.kind ≠ 4) (h : a.kind ≠ 2 ∧ a.kind ≠ 3) : a.reads x = false := by simp [Adapt.reads, h4, h]

theorem Adapt.reads_reindex {x : Items} (h4 : a.kind = 4) (h : a.encV = x.encV ∧ a.encA = x.encA) : a.reads x = false := by simp [Adapt.reads, h4, h]

theorem exec_adaptStep_idle (hj : s.serv.adapt = some a) (h : a.state ≠ 1 ∨ s.backHalted = true) : exec (.adaptStep lost) s = .next s := by
  change execAdaptStep lost s = _
  simp only [execAdaptStep, hj, if_pos h]

/-- A job in state 1 that no halt covers: its step is what this says. -/
theorem exec_adaptStep_active (hj : s.serv.adapt = some a) (h1 : a.state = 1) (hh : s.backHalted = false) :
    exec (.adaptStep lost) s =
      if a.kind ≠ 4 ∧ !s.masterOk a.master a.masterLen then .next (s.adaptFails a .invalidField)
      else if a.kind = 4 ∧ s.readOnly then .next (s.adaptFails a .mediaReadOnly)
      else if 0 ∉ s.steps.ran ∨ (a.reads s.items ∧ s.serv.complexFor.isNone) then .next s
      else if a.kind ≠ 4 then .next ((s.passUsed 0).trainStep a lost)
      else if (s.toStage a).isEmpty then .next ((s.passUsed 0).reindexEnd a)
      else .next ((s.passUsed 0).reindexStep a lost) := by
  have hgo : ¬(a.state ≠ 1 ∨ s.backHalted = true) := by simp [h1, hh]
  change execAdaptStep lost s = _
  simp only [execAdaptStep, hj, if_neg hgo]
  rfl

theorem exec_adaptStep_fails {st : Status} (hj : s.serv.adapt = some a) (h1 : a.state = 1) (hh : s.backHalted = false)
    (h : (a.kind ≠ 4 ∧ s.masterOk a.master a.masterLen = false ∧ st = .invalidField) ∨ (a.kind = 4 ∧ s.readOnly = true ∧ st = .mediaReadOnly)) :
    exec (.adaptStep lost) s = .next (s.adaptFails a st) := by
  rw [exec_adaptStep_active hj h1 hh]
  rcases h with ⟨h4, hm, rfl⟩ | ⟨h4, hro, rfl⟩
  · rw [if_pos ⟨h4, by simp [hm]⟩]
  · rw [if_neg (fun h => h.1 h4), if_pos ⟨h4, hro⟩]

theorem exec_adaptStep_waits (hj : s.serv.adapt = some a) (h : (a.kind = 4 ∧ s.readOnly = false) ∨ (a.kind ≠ 4 ∧ s.masterOk a.master a.masterLen = true))
    (hran : 0 ∉ s.steps.ran) : exec (.adaptStep lost) s = .next s := by
  by_cases hi : a.state ≠ 1 ∨ s.backHalted = true
  · exact exec_adaptStep_idle hj hi
  · have hi : a.state = 1 ∧ s.backHalted = false := by simpa using hi
    rw [exec_adaptStep_active hj hi.1 hi.2, if_neg, if_neg, if_pos (.inl hran)]
    · rcases h with ⟨-, hro⟩ | ⟨h4, -⟩
      · simp [hro]
      · exact fun k => h4 k.1
    · rcases h with ⟨h4, -⟩ | ⟨-, hm⟩
      · exact fun k => k.1 h4
      · simp [hm]

theorem exec_adaptStep_trains (hj : s.serv.adapt = some a) (h1 : a.state = 1) (hh : s.backHalted = false) (h4 : a.kind ≠ 4)
    (hm : s.masterOk a.master a.masterLen = true) (hran : 0 ∈ s.steps.ran) (hc : s.serv.complexFor.isSome = true ∨ (a.kind ≠ 2 ∧ a.kind ≠ 3)) :
    exec (.adaptStep lost) s = .next ((s.passUsed 0).trainStep a lost) := by
  rw [exec_adaptStep_active hj h1 hh, if_neg (by simp [hm]), if_neg (fun k => h4 k.1), if_neg, if_pos h4]
  rcases hc with hc | hc
  · simp [hran, Option.isSome_iff_ne_none.mp hc]
  · simp [hran, Adapt.reads_training h4 hc]

/-- The step of a REINDEX that goes on. -/
theorem exec_adaptStep_reindexes (hj : s.serv.adapt = some a) (h1 : a.state = 1) (hh : s.backHalted = false) (h4 : a.kind = 4) (hro : s.readOnly = false)
    (hran : 0 ∈ s.steps.ran) (hc : s.serv.complexFor.isSome = true ∨ (a.encV = s.items.encV ∧ a.encA = s.items.encA)) :
    exec (.adaptStep lost) s = if (s.toStage a).isEmpty then .next ((s.passUsed 0).reindexEnd a) else .next ((s.passUsed 0).reindexStep a lost) := by
  rw [exec_adaptStep_active hj h1 hh, if_neg (fun k => k.1 h4), if_neg (by simp [hro]), if_neg, if_neg (fun k => k h4)]
  rcases hc with hc | hc
  · simp [hran, Option.isSome_iff_ne_none.mp hc]
  · simp [hran, Adapt.reads_reindex h4 hc]

theorem frame_passUsed (s : State) (p : Nat) : Frame [.steps] s (s.passUsed p) := by
  intro q hq
  cases q <;> simp [Part.same] at hq ⊢ <;> rfl

/-! ## A training step (05 R160, R178; 10 R336 to R338). -/

/-- A job after one more batch, with its loss, the items found absent in it, and the weights made again from the master copy. -/
def Adapt.trained (a : Adapt) (loss : W32) (gone : List Nat) (w : List WTensor) : Adapt :=
  { a with
    done := a.done + 1
    losses := (a.losses ++ [loss]).drop (a.losses.length + 1 - 100)
    absentItems := (a.absentItems ++ gone).dedup
    state := if a.total ≤ a.done + 1 then 2 else 1
    working := w }

theorem Adapt.trained_losses (a : Adapt) (loss : W32) (gone : List Nat) (w : List WTensor) : (a.trained loss gone w).losses.length = min 100 (a.losses.length + 1) := by
  simp only [Adapt.trained, List.length_drop, List.length_append, List.length_singleton]
  omega

theorem Adapt.mem_trained (a : Adapt) (loss : W32) (gone : List Nat) (w : List WTensor) : ∀ i ∈ a.absentItems, i ∈ (a.trained loss gone w).absentItems :=
  fun _ hi => List.mem_dedup.mpr (List.mem_append_left _ hi)

theorem length_flatMap_leBytes (k : Nat) (f : Nat → Nat) (l : List Nat) : (l.flatMap (fun j => leBytes k (f j))).length = l.length * k := by
  induction l with
  | nil => simp
  | cons j l ih => rw [List.flatMap_cons, List.length_append, leBytes_length, ih, List.length_cons, Nat.succ_mul, Nat.add_comm]

/-- A training step writes new master weights, no longer than the region, and counts its batch. -/
theorem State.trainStep_eq (s : State) (a : Adapt) (lost : List Nat) : ∃ loss gone new n, new.length ≤ a.masterLen ∧
    s.trainStep a lost = ((s.hbmWrite a.master new).modServ
      (fun v => { v with adapt := some (a.trained loss gone (weightsOf ((s.hbmWrite a.master new).masterBytes a))) })).spend n := by
  unfold State.trainStep
  extract_lets there draw bad batch master upd new s1 a1
  refine ⟨_, _, new, _, ?_, rfl⟩
  have hmaster : master.length ≤ a.masterLen := (Mem.read_length _ _ _ _).trans_le (Nat.min_le_left _ _)
  have hnew : new.length = master.length / 4 * 4 := (length_flatMap_leBytes 4 _ _).trans (congrArg (· * 4) List.length_range)
  omega

theorem State.healCache_tiers (s : State) (a n : Nat) : ∃ l, (s.healCache a n).tiers = { s.tiers with lines := l } := by
  unfold State.healCache
  split
  · exact ⟨_, rfl⟩
  · have hfold := State.foldl_keeps State.tiers (fun s q => s.heal 1 q a n) (fun _ _ => rfl) (List.range 4) s
    generalize (List.range 4).foldl (fun s q => s.heal 1 q a n) s = u at hfold
    rw [← hfold]
    exact ⟨_, rfl⟩

/-- A write to HBM changes its bytes, and what fails of them. -/
theorem State.hbmWrite_tiers (s : State) (o : Nat) (bs : List Byte) :
    ∃ b l, (s.hbmWrite o bs).tiers = { s.tiers with hbm := Mem.write 0 s.tiers.hbm o bs, hbmBad := b, lines := l } := by
  obtain ⟨l, hl⟩ := ((s.modTiers (fun x => { x with hbm := Mem.write 0 x.hbm o bs })).healBlocks o bs.length).healCache_tiers o bs.length
  exact ⟨_, l, hl⟩

theorem frame_hbmWrite (s : State) (o : Nat) (bs : List Byte) : Frame [.tiers, .integ] s (s.hbmWrite o bs) := by
  intro p hp
  cases p <;> simp [Part.same] at hp ⊢

/-! ## Parts under a REINDEX's set (10 R340). -/

/-- Items given their parts under the other set. -/
def stageParts (new : List (Nat × List W32 × BitVec 512)) (t : Tab Item) : Tab Item :=
  new.foldl (fun t e => Tab.change t e.1 (fun y => { y with staged := some e.2 })) t

/-- Staging changes nothing of an item but its parts under the other set, which those named then have. -/
theorem find_stageParts (new : List (Nat × List W32 × BitVec 512)) (x : Tab Item) {i : Nat} {y : Item} (hy : Tab.find x i = some y) :
    ∃ z, Tab.find (stageParts new x) i = some z ∧ z = { y with staged := z.staged } ∧ (i ∈ new.map (·.1) ∨ y.staged.isSome = true → z.staged.isSome = true) := by
  induction new generalizing x y with
  | nil => exact ⟨y, hy, rfl, fun h => h.resolve_left List.not_mem_nil⟩
  | cons e new ih =>
    by_cases he : i = e.1
    · obtain ⟨z, hz, hzy, hs⟩ := ih (Tab.change x e.1 (fun y => { y with staged := some e.2 })) (y := { y with staged := some e.2 })
        (by rw [he, Tab.find_change_self, ← he, hy]; rfl)
      exact ⟨z, hz, hzy, fun _ => hs (.inr rfl)⟩
    · obtain ⟨z, hz, hzy, hs⟩ := ih (Tab.change x e.1 (fun y => { y with staged := some e.2 })) ((Tab.find_change_ne _ _ he).trans hy)
      exact ⟨z, hz, hzy, fun h => hs (h.imp_left (fun h => (List.mem_cons.mp h).resolve_left he))⟩

/-- A batch of a REINDEX: some of its items are found absent, every other one gets its parts. -/
theorem State.reindexStep_eq (s : State) (a : Adapt) (lost : List Nat) : ∃ gone new m, (∀ e ∈ (s.toStage a).take 256, e.1 ∈ gone ∨ e.1 ∈ new.map (·.1)) ∧
    s.reindexStep a lost = { s with
      media := m
      items := { s.items with items := stageParts new s.items.items }
      serv := { s.serv with adapt := some { a with
        done := min a.total (a.done + ((s.toStage a).take 256).length)
        absentItems := a.absentItems ++ gone } } } := by
  unfold State.reindexStep
  extract_lets batch differs gone new a1
  refine ⟨gone, new, _, fun e he => ?_, rfl⟩
  by_cases hg : e.1 ∈ gone
  · exact .inl hg
  · refine .inr (List.mem_map.mpr ⟨(e.1, s.restage a e.2), List.mem_map.mpr ⟨e, List.mem_filter.mpr ⟨he, by simpa using hg⟩, rfl⟩, rfl⟩)

/-! ## New nodes and a new root (09 R286, R288). -/

/-- Of the items' tables only those of the nodes have changed, and free values have been spent. -/
structure OnlyNodes (s t : State) : Prop where
  items : t.items = { s.items with nodes := t.items.nodes, nextNode := t.items.nextNode }
  frame : Frame [.items, .freeCtr] s t

theorem OnlyNodes.refl (s : State) : OnlyNodes s s := ⟨rfl, .refl _ s⟩

theorem OnlyNodes.trans (h : OnlyNodes s t) (k : OnlyNodes t u) : OnlyNodes s u where
  items := k.items.trans (by rw [h.items])
  frame := h.frame.trans k.frame

/-- One node made, as a child pointer after those there. -/
def State.addChild (leaf : Bool) (r : List Child × State) (n : Node) : List Child × State :=
  let k := r.2.items.addNode n
  (r.1 ++ [⟨k.1.1, k.1.2, leaf, freeCentroid r.2.freeCtr r.2.items.dims⟩], ({ r.2 with items := k.2 }).spend (centroidSpan r.2.items.dims))

theorem onlyNodes_addChild (leaf : Bool) (r : List Child × State) (n : Node) : OnlyNodes r.2 (State.addChild leaf r n).2 :=
  ⟨rfl, ((frame_modItems r.2 (fun x => (x.addNode n).2)).mono (by simp)).trans ((frame_spend _ _).mono (by simp))⟩

theorem State.foldl_addChild (leaf : Bool) (l : List Node) (r : List Child × State) :
    OnlyNodes r.2 (l.foldl (State.addChild leaf) r).2 ∧ (l.foldl (State.addChild leaf) r).1.length = r.1.length + l.length := by
  induction l generalizing r with
  | nil => exact ⟨.refl _, rfl⟩
  | cons n l ih =>
    obtain ⟨hnodes, hlen⟩ := ih (State.addChild leaf r n)
    refine ⟨(onlyNodes_addChild leaf r n).trans hnodes, hlen.trans ?_⟩
    simp only [State.addChild, List.length_append, List.length_cons, List.length_nil]
    omega

theorem onlyNodes_addNodes (s : State) (leaf : Bool) (l : List Node) : OnlyNodes s (s.addNodes leaf l).2 := (State.foldl_addChild leaf l ([], s)).1

theorem onlyNodes_newLeaves (s : State) (l : List (List Nat)) : OnlyNodes s (s.newLeaves l).2 := onlyNodes_addNodes s true _

theorem State.newLeaves_length (s : State) (l : List (List Nat)) : (s.newLeaves l).1.length = l.length :=
  (State.foldl_addChild true (l.map (fun is => .leaf none (s.items.memberTable is))) ([], s)).2.trans ((Nat.zero_add _).trans (List.length_map _))

theorem onlyNodes_upperLevels (n level : Nat) (cs : List Child) (s : State) : OnlyNodes s (s.upperLevels n level cs).2 := by
  induction n generalizing level cs s with
  | zero => exact .refl s
  | succ n ih =>
    rw [State.upperLevels]
    split
    · exact onlyNodes_addNodes s false _
    · exact (onlyNodes_addNodes s false _).trans (ih _ _ _)

/-- A new root commits at the next epoch; of the items' tables only those of the nodes, the roots and the stale nodes change besides. -/
theorem State.commitTree_items (s : State) (leaves : List Child) (turn : Nat) : ∃ n nodes next stale, (s.commitTree leaves turn).items =
    { s.items with epoch := s.items.epoch + 1, roots := s.items.roots ++ [⟨n, s.items.epoch + 1, turn⟩], nodes := nodes, nextNode := next, stale := stale } := by
  have h := (onlyNodes_upperLevels levelTop 1 leaves s).items
  unfold State.commitTree
  rw [State.modItems_items, h]
  exact ⟨_, _, _, _, rfl⟩

theorem frame_commitTree (s : State) (leaves : List Child) (turn : Nat) : Frame [.items, .freeCtr] s (s.commitTree leaves turn) :=
  (onlyNodes_upperLevels levelTop 1 leaves s).frame.trans ((frame_modItems _ _).mono (by simp))

/-! ## The end of a REINDEX's work (10 R340). -/

/-- Without leaves aside, where there are some to make, they are made, and nothing else changes but the tables of nodes. -/
theorem State.reindexEnd_builds (a : Adapt) (h : s.items.aside = [] ∧ s.items.turnLeaves ≠ []) :
    Frame [.items, .freeCtr] s (s.reindexEnd a) ∧ (s.reindexEnd a).items.aside.length = s.items.turnLeaves.length ∧ (s.reindexEnd a).items.items = s.items.items := by
  have heq : s.reindexEnd a = (s.newLeaves s.items.turnLeaves).2.modItems (fun x => { x with aside := (s.newLeaves s.items.turnLeaves).1 }) := by
    simp [State.reindexEnd, h.1, h.2]
  obtain ⟨hitems, hframe⟩ := onlyNodes_newLeaves s s.items.turnLeaves
  rw [heq]
  exact ⟨hframe.trans ((frame_modItems _ _).mono (by simp)), s.newLeaves_length _, (congrArg Items.items hitems :)⟩

/-- Once its leaves and its embeddings have been programmed the job is done. -/
theorem State.reindexEnd_done (a : Adapt) (h : s.items.aside ≠ [] ∨ s.items.turnLeaves = []) :
    Frame [.serv] s (s.reindexEnd a) ∧ (s.reindexEnd a).serv =
      if s.items.aside.all (fun c => s.items.leafWritten c.node) && s.acknowledged stagingCmd then { s.serv with adapt := some { a with state := 2 } } else s.serv := by
  unfold State.reindexEnd
  rw [if_neg (by rcases h with h | h <;> simp [h])]
  simp only [Bool.and_eq_true]
  split
  · exact ⟨frame_modServ s _, rfl⟩
  · exact ⟨.refl _ s, rfl⟩

/-! ## ADAPT_STATUS (13 R451). -/

theorem exec_adaptStatus_none (hr : Runs s id 0x0702 c) (hj : s.serv.adapt = none) : exec (.adaptStatus id) s = .next (s.succeed id (zeros 20)) := by
  change execAdaptStatus id s = _
  simp only [execAdaptStatus, hr.1, hj]

theorem exec_adaptStatus_some (hr : Runs s id 0x0702 c) (hj : s.serv.adapt = some a) :
    exec (.adaptStatus id) s = .next (s.succeed id (resultAt [(0x0C, 1, a.kind), (0x0D, 1, a.state), (0x10, 4, a.done), (0x14, 4, a.total), (0x18, 4, a.meanLoss.toNat),
      (0x1C, 4, a.absentItems.length)])) := by
  change execAdaptStatus id s = _
  simp only [execAdaptStatus, hr.1, hj]

/-! ## ADAPT_COMMIT (10 R339, R341; 13 R452). -/

theorem exec_adaptCommit_early (hr : Runs s id 0x0703 c) (h : s.serv.adapt.elim true (fun a => a.state = 1) = true) :
    exec (.adaptCommit id) s = .next (s.fail id .invalidField) := by
  change execAdaptCommit id s = _
  cases hj : s.serv.adapt with
  | none => simp only [execAdaptCommit, hr.1, hj]
  | some a =>
    have h1 : a.state = 1 := by simpa [hj] using h
    simp [execAdaptCommit, hr.1, hj, h1]

theorem exec_adaptCommit_ends (hr : Runs s id 0x0703 c) (hj : s.serv.adapt = some a) (h : a.state = 3 ∨ a.state = 4) :
    exec (.adaptCommit id) s = .next ((if a.kind = 4 then s.endAdapt.freeOther else s.endAdapt).succeed id []) := by
  change execAdaptCommit id s = _
  simp only [execAdaptCommit, hr.1, hj, if_pos h, hr.checked]

/-- A done REINDEX: its commit is refused where items are absent and may not be dropped, and else switches. -/
theorem exec_adaptCommit_reindex (hr : Runs s id 0x0703 c) (hj : s.serv.adapt = some a) (h2 : a.state = 2) (h4 : a.kind = 4) :
    exec (.adaptCommit id) s = .next (s.checked c (if a.absentItems ≠ [] ∧ c.field 0x10 1 = 0 then some .invalidField else none) (fun s =>
      (s.endAdapt.switchIndex a).succeed id (resultAt [(0x18, 8, (s.endAdapt.switchIndex a).items.epoch)]))) := by
  change execAdaptCommit id s = _
  simp only [execAdaptCommit, hr.1, hj, h2, h4, if_true, ne_eq, not_true_eq_false, if_false, show ¬(2 = 3 ∨ 2 = 4) by decide]

theorem exec_adaptCommit_full (hr : Runs s id 0x0703 c) (hj : s.serv.adapt = some a) (h2 : a.state = 2) (h4 : a.kind ≠ 4) (hs : s.storeTrained a = none) :
    exec (.adaptCommit id) s = .next (s.fail id .capacityExhausted) := by
  change execAdaptCommit id s = _
  simp only [execAdaptCommit, hr.1, hj, h2, if_neg h4, hs, ne_eq, not_true_eq_false, if_false, show ¬(2 = 3 ∨ 2 = 4) by decide]

theorem exec_adaptCommit_stores {m : Nat} (hr : Runs s id 0x0703 c) (hj : s.serv.adapt = some a) (h2 : a.state = 2) (h4 : a.kind ≠ 4)
    (hs : s.storeTrained a = some (m, t)) : exec (.adaptCommit id) s = .next (t.endAdapt.succeed id (resultAt [(0x10, 8, m)])) := by
  change execAdaptCommit id s = _
  simp only [execAdaptCommit, hr.1, hj, h2, if_neg h4, hs, hr.checked, ne_eq, not_true_eq_false, if_false, show ¬(2 = 3 ∨ 2 = 4) by decide]

theorem frame_endAdapt (s : State) : Frame [.media, .serv] s s.endAdapt := ((frame_modMedia s _).mono (by simp)).trans ((frame_modServ _ _).mono (by simp))

theorem frame_freeOther (s : State) : Frame [.media, .items] s s.freeOther := ((frame_modMedia s _).mono (by simp)).trans ((frame_modItems _ _).mono (by simp))

theorem State.find_freeOther (s : State) (i : Nat) :
    Tab.find s.freeOther.items.items i = (Tab.find s.items.items i).map (fun y => { y with staged := none }) :=
  Tab.find_changeAll s.items.items (fun y => { y with staged := none }) i

/-- Two sets of an item change places (10 R341). -/
theorem Item.turned_some {x : Item} {v : List W32} {k : BitVec 512} (h : x.staged = some (v, k)) :
    x.turned = { x with emb := v, sketch := k, staged := some (x.emb, x.sketch) } := by
  simp only [Item.turned, h]

theorem Item.turned_none {x : Item} (h : x.staged = none) : x.turned = x := by simp only [Item.turned, h]

/-- The items' tables turned to a REINDEX's set, the leaves of the tree before it kept aside. -/
def Items.turnedTo (x : Items) (a : Adapt) (p : Projection) (last : List Child) : Items :=
  { x with
    merge := none, side := 1 - x.side, old := true, aside := last, items := Tab.changeAll x.items Item.turned
    proj := p.mant, projExp := p.exps, thresh := p.thresh, label := a.label, encV := a.encV, encA := a.encA, projModel := a.projModel }

/-- The leaves made at a switch: those of live items that neither the second tree nor the fresh list holds. -/
def State.lateLeaves (s : State) : List Child × State := s.newLeaves (chunksOf s.items.leafTop s.items.unturned)

theorem State.switchIndex_eq (s : State) (h : a.absentItems = []) : s.switchIndex a =
    (s.lateLeaves.2.commitTree (s.items.aside ++ s.lateLeaves.1) (s.items.turn + 1)).modItems
      (fun x => x.turnedTo a (s.jobProjection a) (s.items.leavesOf ((s.items.roots.getLast?.map (·.node)).getD 0))) := by
  simp only [State.switchIndex, h, List.foldl_nil]
  rfl

theorem frame_switchIndex (s : State) (h : a.absentItems = []) : Frame [.items, .freeCtr] s (s.switchIndex a) := by
  rw [s.switchIndex_eq h]
  exact (onlyNodes_newLeaves s _).frame.trans ((frame_commitTree _ _ _).trans ((frame_modItems _ _).mono (by simp)))

/-- A switch puts a root at the next epoch and turns the tables (10 R341). -/
theorem State.switchIndex_items (s : State) (h : a.absentItems = []) : ∃ n nodes next stale p last, (s.switchIndex a).items =
    Items.turnedTo { s.items with
      epoch := s.items.epoch + 1, roots := s.items.roots ++ [⟨n, s.items.epoch + 1, s.items.turn + 1⟩], nodes := nodes, nextNode := next, stale := stale } a p last := by
  obtain ⟨n, _, _, _, htree⟩ := s.lateLeaves.2.commitTree_items (s.items.aside ++ s.lateLeaves.1) (s.items.turn + 1)
  have hleaves : s.lateLeaves.2.items = _ := (onlyNodes_newLeaves s _).items
  rw [s.switchIndex_eq h, State.modItems_items, htree, hleaves]
  exact ⟨n, _, _, _, _, _, rfl⟩

/-- A number that no stored image has is among one more than there are images. -/
theorem Services.freeModel_free (v : Services) : Tab.find v.models v.freeModel = none := by
  have hcard : (Tab.keys v.models).toFinset.card < ((Finset.range (v.models.length + 1)).image (v.nextModel + ·)).card := by
    rw [Finset.card_image_of_injective _ (add_right_injective v.nextModel), Finset.card_range]
    exact Nat.lt_succ_of_le ((List.toFinset_card_le _).trans_eq (List.length_map _))
  obtain ⟨m, hm, hfree⟩ := Finset.exists_mem_notMem_of_card_lt_card hcard
  have hm : m ∈ (List.range (v.models.length + 1)).map (v.nextModel + ·) := by simpa using hm
  have hnone : Tab.find v.models m = none := Tab.find_of_not_mem (by simpa using hfree)
  unfold Services.freeModel
  cases hf : ((List.range (v.models.length + 1)).map (v.nextModel + ·)).find? (fun m => !(Tab.has v.models m)) with
  | none => exact absurd (List.find?_eq_none.mp hf m hm) (by simp [Tab.has, hnone])
  | some k => simpa [Tab.has] using List.find?_some hf

/-- The state with a model stored under the lowest number free. -/
def State.withModel (s : State) (k : Media) (x : Model) : State :=
  { s with media := k, serv := { s.serv with models := Tab.put s.serv.models s.serv.freeModel x, nextModel := s.serv.freeModel + 1 } }

/-- A trained model that can be stored stands, not loaded and not calibrated, under the number taken for it. -/
theorem State.storeTrained_eq {r : Nat × State} (h : s.storeTrained a = some r) :
    ∃ k x, x.loaded = false ∧ x.calibrated = false ∧ r = (s.serv.freeModel, s.withModel k x) := by
  obtain ⟨k, -, hk⟩ := Option.map_eq_some_iff.mp h
  exact ⟨k, _, rfl, rfl, hk.symm⟩

theorem frame_withModel (s : State) (k : Media) (x : Model) : Frame [.media, .serv] s (s.withModel k x) :=
  ((frame_modMedia s (fun _ => k)).mono (by simp)).trans ((frame_modServ _ (fun v => { v with
    models := Tab.put s.serv.models s.serv.freeModel x, nextModel := s.serv.freeModel + 1 })).mono (by simp))

end

/-- Settles O48: each command's execution in one equation for each of its branches; a training step writes within its region, a batch of a REINDEX stages every item it does not
find absent, and the switch turns the items' tables in one change. -/
theorem adaptation : Obligations.Adaptation := by
  unfold Obligations.Adaptation
  refine ⟨?starts, ?refused, ?trains, ?stages, ?ends, fun s lost a hj h hran => exec_adaptStep_waits hj h hran, fun s lost a hj h => exec_adaptStep_idle hj h, ?fails,
    ?statusNone, ?statusSome, ?commitEarly, ?commitEnds, ?commitAbsent, ?commitSwitches, ?commitStores⟩
  case starts =>
    intro s id c desc hr hdesc he
    subst hdesc
    obtain ⟨f, hexec⟩ := exec_adaptStart_starts hr he
    exact ⟨_, s.adaptJob c, hexec, State.succeed_serv _ _ _, rfl, rfl, rfl, rfl, rfl, rfl, rfl, rfl, rfl, rfl, rfl, rfl, State.succeed_hostMem _ _ _,
      succeeded_of [] hr.cmd? ⟨_, rfl⟩ (((frame_modMedia s f).mono (by simp)).trans ((frame_modServ _ _).mono (by simp)))⟩
  case refused =>
    intro s id n c st hr hst he
    have hq : c.opcode ≠ 0x0401 ∧ c.opcode ≠ 0x0402 := by rw [hr.opcode]; decide
    exact ⟨_, exec_adaptStart_refused hr he, State.completeWith_hostMem s id st 0 _ (fun d hd => .inl (by rw [hr.cmd?] at hd; cases hd; exact hq)),
      State.completeWith_replied s id c st 0 _ hr.cmd?, frame_completeWith 0 _ hr.cmd? (.inl hq) hst⟩
  case trains =>
    intro s lost a hj h1 hh h4 hm hran hc
    obtain ⟨loss, gone, new, n, hlen, hstep⟩ := (s.passUsed 0).trainStep_eq a lost
    obtain ⟨bad, lines, htiers⟩ := (s.passUsed 0).hbmWrite_tiers a.master new
    refine ⟨_, a.trained loss gone (weightsOf (((s.passUsed 0).hbmWrite a.master new).masterBytes a)),
      (exec_adaptStep_trains hj h1 hh h4 hm hran hc).trans (congrArg Host.Outcome.next hstep), ?_, rfl, a.trained_losses _ _ _, a.mem_trained _ _ _, rfl, ?_,
      fun x hx => ?_, ?_, ?_⟩
    · rw [State.spend_serv, State.modServ_serv, State.hbmWrite_serv]
      rfl
    · change ((s.passUsed 0).hbmWrite a.master new).tiers = { s.tiers with
        hbm := ((s.passUsed 0).hbmWrite a.master new).tiers.hbm, hbmBad := ((s.passUsed 0).hbmWrite a.master new).tiers.hbmBad
        lines := ((s.passUsed 0).hbmWrite a.master new).tiers.lines }
      rw [htiers]
      rfl
    · change Mem.get 0 ((s.passUsed 0).hbmWrite a.master new).tiers.hbm x = _
      rw [htiers]
      exact Mem.get_write_out 0 s.tiers.hbm a.master new x (hx.imp_right (Nat.le_trans (Nat.add_le_add_left hlen _)))
    · exact State.hbmWrite_steps _ _ _
    · exact ((frame_passUsed s 0).mono (by simp)).trans
        (((frame_hbmWrite _ _ _).mono (by simp)).trans (((frame_modServ _ _).mono (by simp)).trans ((frame_spend _ _).mono (by simp))))
  case stages =>
    intro s lost a hj h1 hh h4 hro hran hc hne
    obtain ⟨gone, new, m, hbatch, hstep⟩ := (s.passUsed 0).reindexStep_eq a lost
    refine ⟨_, { a with done := min a.total (a.done + ((s.toStage a).take 256).length), absentItems := a.absentItems ++ gone },
      (exec_adaptStep_reindexes hj h1 hh h4 hro hran hc).trans ((if_neg (by simpa using hne)).trans (congrArg Host.Outcome.next hstep)), rfl, rfl, rfl,
      fun i hi => List.mem_append_left _ hi, fun e he => ?_, fun i y hy => ?_, rfl, rfl, ?_⟩
    · refine (hbatch e he).imp (List.mem_append_right _) (fun hnew => ?_)
      obtain ⟨y, hy⟩ := Tab.exists_find_of_mem (List.mem_of_mem_filter (List.mem_of_mem_take he) : (e.1, e.2) ∈ s.items.items)
      obtain ⟨z, hz, -, hstaged⟩ := find_stageParts new s.items.items hy
      exact ⟨z, hz, hstaged (.inl hnew)⟩
    · obtain ⟨z, hz, hzy, -⟩ := find_stageParts new s.items.items hy
      exact ⟨z, hz, hzy⟩
    · intro p hp
      cases p <;> simp [Part.same] at hp ⊢ <;> rfl
  case ends =>
    intro s lost a hj h1 hh h4 hro hran hc hnil
    have hpass : Frame [.serv, .items, .freeCtr, .steps] s (s.passUsed 0) := (frame_passUsed s 0).mono (by simp)
    refine ⟨_, (exec_adaptStep_reindexes hj h1 hh h4 hro hran hc).trans (if_pos (by simpa using hnil)), ?_, fun hb => ?_, fun hd => ?_⟩
    · by_cases hb : s.items.aside = [] ∧ s.items.turnLeaves ≠ []
      · exact hpass.trans ((State.reindexEnd_builds (s := s.passUsed 0) a hb).1.mono (by simp))
      · have hd : s.items.aside ≠ [] ∨ s.items.turnLeaves = [] := by simpa [or_iff_not_imp_left] using hb
        exact hpass.trans ((State.reindexEnd_done (s := s.passUsed 0) a hd).1.mono (by simp))
    · obtain ⟨hframe, hlen, hitems⟩ := State.reindexEnd_builds (s := s.passUsed 0) a hb
      exact ⟨hlen, hframe .serv (by simp), hitems⟩
    · obtain ⟨hframe, hserv⟩ := State.reindexEnd_done (s := s.passUsed 0) a hd
      exact ⟨hframe .items (by simp), hserv⟩
  case fails =>
    intro s lost a st hj h1 hh h
    exact ⟨_, exec_adaptStep_fails hj h1 hh h, rfl, frame_modServ s _⟩
  case statusNone => exact fun s id c hr hj => ⟨_, exec_adaptStatus_none hr hj, State.succeed_hostMem _ _ _, (succeeded_self _ hr.cmd?).1⟩
  case statusSome => exact fun s id c a hr hj => ⟨_, exec_adaptStatus_some hr hj, State.succeed_hostMem _ _ _, (succeeded_self _ hr.cmd?).1⟩
  case commitEarly =>
    exact fun s id c hr h => ⟨_, exec_adaptCommit_early hr h, failed_self hr.cmd? (by rw [hr.opcode]; decide) (by decide)⟩
  case commitEnds =>
    intro s id c a hr hj h
    refine ⟨_, exec_adaptCommit_ends hr hj h, ?_, (State.succeed_hostMem _ _ _).trans ?_, succeeded_of [] hr.cmd? ⟨s.host.hostMem, ?_⟩ ?_, fun h4 => ?_, fun h4 => ?_⟩
    · rw [State.succeed_serv]
      split <;> rfl
    · split <;> rfl
    · split <;> rfl
    · have hend : Frame [.host, .media, .serv, .items] s s.endAdapt := (frame_endAdapt s).mono (by simp)
      split
      · exact hend.trans ((frame_freeOther _).mono (by simp))
      · exact hend
    · rw [if_neg h4, State.succeed_items]
      rfl
    · rw [if_pos h4, State.succeed_items]
      exact ⟨rfl, s.endAdapt.find_freeOther⟩
  case commitAbsent =>
    intro s id c a hr hj h2 h4 ha hd
    have hexec := exec_adaptCommit_reindex hr hj h2 h4
    rw [if_pos ⟨ha, hd⟩, State.checked_fail, hr.2.1] at hexec
    exact ⟨_, hexec, failed_self hr.cmd? (by rw [hr.opcode]; decide) (by decide)⟩
  case commitSwitches =>
    intro s id c a hr hj h2 h4 ha
    have hexec := exec_adaptCommit_reindex hr hj h2 h4
    rw [if_neg (fun h => h.1 ha), hr.checked] at hexec
    obtain ⟨n, _, _, _, _, _, hitems⟩ := s.endAdapt.switchIndex_items ha
    have hframe : Frame [.host, .media, .serv, .items, .freeCtr] s (s.endAdapt.switchIndex a) :=
      ((frame_endAdapt s).mono (by simp)).trans ((frame_switchIndex _ ha).mono (by simp))
    have hhost : (s.endAdapt.switchIndex a).host = s.host := frame_switchIndex s.endAdapt ha .host (by simp)
    have hserv : (s.endAdapt.switchIndex a).serv = s.endAdapt.serv := frame_switchIndex s.endAdapt ha .serv (by simp)
    rw [hitems] at hexec
    obtain ⟨hreplied, hdone⟩ := succeeded_of (ks := [.serv, .items, .freeCtr]) (resultAt [(0x18, 8, s.items.epoch + 1)]) hr.cmd? ⟨s.host.hostMem, hhost⟩ hframe
    have hout := (State.succeed_items (s.endAdapt.switchIndex a) id (resultAt [(0x18, 8, s.items.epoch + 1)])).trans hitems
    have hfind : ∀ i, Tab.find ((s.endAdapt.switchIndex a).succeed id (resultAt [(0x18, 8, s.items.epoch + 1)])).items.items i = (Tab.find s.items.items i).map Item.turned :=
      fun i => (congrArg (fun x : Items => Tab.find x.items i) hout).trans (Tab.find_changeAll s.items.items _ i)
    refine ⟨_, n, hexec, (State.succeed_serv _ _ _).trans hserv, (congrArg Items.epoch hout :), (congrArg Items.label hout :), (congrArg Items.encV hout :),
      (congrArg Items.encA hout :), (congrArg Items.projModel hout :), (congrArg Items.side hout :), (congrArg Items.old hout :), (congrArg Items.roots hout :), fun i x v k hx hs => (hfind i).trans ?_,
      fun i x hx hs => (hfind i).trans ?_, hreplied, (State.succeed_hostMem _ _ _).trans (congrArg HostT.hostMem hhost), hdone⟩
    · rw [hx, Option.map_some, Item.turned_some hs]
    · rw [hx, Option.map_some, Item.turned_none hs]
  case commitStores =>
    intro s id m c a hr hj h2 h4 hm
    subst hm
    cases hs : s.storeTrained a with
    | none =>
      obtain ⟨hreplied, hhost, hframe⟩ := failed_self (st := .capacityExhausted) hr.cmd? (by rw [hr.opcode]; decide) (by decide)
      exact ⟨_, exec_adaptCommit_full hr hj h2 h4 hs, hhost, hframe.mono (by simp), .inl ⟨hreplied, State.fail_serv _ _ _⟩⟩
    | some r =>
      obtain ⟨k, x, hl, hcal, rfl⟩ := State.storeTrained_eq hs
      have hstored : Frame [.host, .media, .serv] s (s.withModel k x).endAdapt := ((frame_withModel s k x).mono (by simp)).trans ((frame_endAdapt _).mono (by simp))
      obtain ⟨hreplied, hframe⟩ := succeeded_of (u := (s.withModel k x).endAdapt) (resultAt [(0x10, 8, s.serv.freeModel)]) hr.cmd? ⟨s.host.hostMem, rfl⟩ hstored
      have hserv := State.succeed_serv (s.withModel k x).endAdapt id (resultAt [(0x10, 8, s.serv.freeModel)])
      have hmodels := fun j => congrArg (fun v : Services => Tab.find v.models j) hserv
      exact ⟨_, exec_adaptCommit_stores hr hj h2 h4 hs, State.succeed_hostMem _ _ _, hframe.mono (by simp), .inr ⟨hreplied, (congrArg Services.adapt hserv :),
        (congrArg Services.nextModel hserv :), s.serv.freeModel_free, ⟨x, (hmodels _).trans (Tab.find_put_self _ _ _), hl, hcal⟩,
        fun j hj => (hmodels j).trans (Tab.find_put_ne _ _ hj)⟩⟩

end Sys2Proof.Machine
